-- ==== Sys2Proof/Word.lean ====
section
/-! DEFINITION. The word types of the ZM400 (bytes, 32- and 64-bit words, 128-bit bundles) and the plain data that the
operands of the device steps carry (parties, requests, error reports, packets that arrive from outside). -/

namespace Sys2Proof

/-- One byte. -/
abbrev Byte := BitVec 8
/-- One slot of a bundle, a run value, a parameter word (R264, R332, R277). -/
abbrev W32 := BitVec 32
/-- One scalar register (R281). -/
abbrev Word := BitVec 64
/-- One bundle (R264). -/
abbrev BundleBits := BitVec 128

/-- Who performs a register access (R145, R217, R493). -/
inductive Party where
  | seat (core seat : Nat)
  | fw
  | host
  deriving DecidableEq, Repr

/-- A wait that a timeout may end: a seat stalled in WAITV, or an entry of a die's wait table (R408, R409). -/
inductive WaitRef where
  | stalled (core seat : Nat)
  | parked (die entry : Nat)
  deriving DecidableEq, Repr

/-- The operations of the AMO family (R401, R491). -/
inductive AmoOp where
  | add | and | or | xor | minS | maxS | xchg | cas
  deriving DecidableEq, Repr

/-- R491: a request of the host, at an offset of its region: a read of so many bytes, a write with its byte mask, or an atomic
with its operand and comparand. -/
inductive HostAccess where
  | read (off size : Nat)
  | write (off : Nat) (bytes : List (Option (BitVec 8)))
  | atomic (off size : Nat) (op : AmoOp) (x cmp : BitVec 64)
  deriving DecidableEq, Repr

/-- R261: an access of the policy core: a load of so many bytes at one of its addresses, or a store of its bytes. -/
inductive PolicyAccess where
  | load (addr size : Nat)
  | store (addr : Nat) (bytes : List (BitVec 8))
  deriving DecidableEq, Repr

/-- A collective chunk as the receiver holds it once every fragment has arrived (R505, R506). -/
structure CollChunk where
  op : BitVec 8
  fsel : BitVec 8
  sender : BitVec 16
  receiver : BitVec 16
  asid : BitVec 16
  chunkId : BitVec 32
  off : BitVec 64
  len : Nat
  data : List Byte
  tags : List (BitVec 16)
  /-- The check values of R423 as the header carries them. -/
  check0 : BitVec 64
  check1 : BitVec 64
  check2 : BitVec 64
  deriving DecidableEq, Repr

/-- R506: whose chunk this package has sent and has had no answer for: that of a collective of a core, or the data of another member's GET.
Its number is the operation's, or the chunk identifier. -/
inductive ChunkRef where
  | own (core : Nat)
  | data (member : BitVec 16)
  deriving DecidableEq, Repr

/-- One accepted RTP packet: its header fields and the pieces of lines it carries (R508, R510, R512). -/
structure RtpPacket where
  seqNo : BitVec 16
  ts : BitVec 32
  payloadType : BitVec 8
  srcIp : BitVec 32
  dstIp : BitVec 32
  udpPort : BitVec 16
  /-- (line or sample index, byte offset in the line as it lands, bytes). -/
  parts : List (Nat × Nat × List Byte)
  deriving DecidableEq, Repr

/-- Where an ECC, parity or residue error is found (R452, R455). -/
inductive ErrPlace where
  | l1 (core pa : Nat)
  | scratchpad (core off : Nat)
  | operand (core slot row : Nat)
  | accumulator (core acc : Nat)
  | regfile (core seat file idx : Nat)
  | slice (cluster pa : Nat)
  | lpddr (pa : Nat)
  | mram (pa : Nat)
  | queue (core : Nat)
  | table (core pa : Nat)
  deriving DecidableEq, Repr

/-- What becomes of the error (R453 to R455). -/
inductive ErrKind where
  | corrected
  | cleanCopy
  /-- R453: the block of a dirty line or of a home is poisoned. -/
  | poisoned
  /-- R455: a seat's instruction has used the data; its scalar, run and accumulator destinations. -/
  | consumedBySeat (core seat : Nat) (sd : List (BitVec 6)) (vd : List (BitVec 5)) (acc : List (BitVec 2))
  | consumedByEngine (core id : Nat)
  deriving DecidableEq, Repr

/-- One detected error (R452 to R455). -/
structure ErrorEvent where
  place : ErrPlace
  kind : ErrKind
  deriving DecidableEq, Repr

end Sys2Proof
end

