-- ==== Sys2Proof/Config.lean ====
section
/-! DEFINITION. What the spec leaves open: free values as opaque constants, applied to the count of free values taken so far
or to the operands they depend on. Nothing can prove a value of them. -/

namespace Sys2Proof.Config

/-- R437: the spec gives a producer in flight a tag from 0 to 62 and no rule for which. -/
opaque freeTag : Nat → BitVec 6
/-- R132: which TLB entry a full TLB gives up. -/
opaque freeVictim : Nat → Nat
/-- R526: a byte of the SHAKE256 hash of the vendor's public key, which the boot ROM holds. -/
opaque vendorKeyHash : Nat → BitVec 8
/-- R526: where the SVN (1), the code length (2), the load address (3) and the magic (0) stand in an image's header, and how many bytes
the code length and the load address take. -/
opaque headerAt : Nat → Nat
opaque headerWidth : Nat → Nat
/-- R526: what an image slot holds that nothing has been installed into. -/
opaque factoryImage : Nat → Nat → BitVec 8
/-- R530: the attestation key: its seed, and the secret of a leaf's chain. -/
opaque attestSeed : Nat → BitVec 8
opaque attestSecret : Nat → Nat → Nat → BitVec 8
/-- R516: how many bytes the ancillary frame of a stream has that a packet sends. -/
opaque ancillaryBytes : Nat → Nat → Nat
/-- R342: whether a faithful result is the upper of the two FP32 values around the exact one (reciprocal, reciprocal square
root, exponential, logarithm). -/
opaque rcpUp : BitVec 32 → Bool
opaque rsqUp : BitVec 32 → Bool
opaque exp2Up : BitVec 32 → Bool
opaque log2Up : BitVec 32 → Bool
/-- R46, R177: an element of a KV unit that carries another format than its pool's, from the unit's tag and the element's bits. -/
opaque kvForeign : BitVec 16 → Nat → BitVec 32
/-- A byte, a word or a doubleword that the spec does not fix. -/
opaque freeByte : Nat → BitVec 8
opaque freeW32 : Nat → BitVec 32
opaque freeWord : Nat → BitVec 64
/-- R261: what the tightly coupled memory of the policy core holds where nothing has been written through its window. -/
opaque tcmWord : Nat → BitVec 32

end Sys2Proof.Config
end

