-- ==== Sys2Proof/Syntax.lean ====
section
/-! DEFINITION. The instruction set: one constructor per row of spec/opcode_table.json. The first part holds the slot
instructions of the four positions S, V, M and C (R272 to R275, R291 to R294), with their encoded fields as operands; the
second part holds the device steps, whose operands name the unit, entry or request they act on. -/

namespace Sys2Proof

/-- One row of the opcode table each. -/
inductive Instr where
  /-- R265: an all-zero slot does nothing in any position. -/
  | nop
  /-- R304: Adds two scalar registers modulo 2^64. -/
  | add (d : BitVec 6) (a : BitVec 6) (b : BitVec 6) (g : BitVec 4)
  /-- R304: Subtracts two scalar registers modulo 2^64. -/
  | sub (d : BitVec 6) (a : BitVec 6) (b : BitVec 6) (g : BitVec 4)
  /-- R304: Bitwise AND of two scalar registers. -/
  | and_ (d : BitVec 6) (a : BitVec 6) (b : BitVec 6) (g : BitVec 4)
  /-- R304: Bitwise OR of two scalar registers. -/
  | or_ (d : BitVec 6) (a : BitVec 6) (b : BitVec 6) (g : BitVec 4)
  /-- R304: Bitwise XOR of two scalar registers. -/
  | xor_ (d : BitVec 6) (a : BitVec 6) (b : BitVec 6) (g : BitVec 4)
  /-- R304: Shifts left by b[5:0]. -/
  | shl (d : BitVec 6) (a : BitVec 6) (b : BitVec 6) (g : BitVec 4)
  /-- R304: Logical right shift by b[5:0]. -/
  | shr (d : BitVec 6) (a : BitVec 6) (b : BitVec 6) (g : BitVec 4)
  /-- R304: Arithmetic right shift by b[5:0]. -/
  | sra (d : BitVec 6) (a : BitVec 6) (b : BitVec 6) (g : BitVec 4)
  /-- R304: Signed minimum of two scalars. -/
  | minS (d : BitVec 6) (a : BitVec 6) (b : BitVec 6) (g : BitVec 4)
  /-- R304: Unsigned minimum of two scalars. -/
  | minZ (d : BitVec 6) (a : BitVec 6) (b : BitVec 6) (g : BitVec 4)
  /-- R304: Signed maximum of two scalars. -/
  | maxS (d : BitVec 6) (a : BitVec 6) (b : BitVec 6) (g : BitVec 4)
  /-- R304: Unsigned maximum of two scalars. -/
  | maxZ (d : BitVec 6) (a : BitVec 6) (b : BitVec 6) (g : BitVec 4)
  /-- R304: Low 64 bits of the product. -/
  | mul (d : BitVec 6) (a : BitVec 6) (b : BitVec 6) (g : BitVec 4)
  /-- R304: High 64 bits of the signed product. -/
  | mulhS (d : BitVec 6) (a : BitVec 6) (b : BitVec 6) (g : BitVec 4)
  /-- R304: High 64 bits of the unsigned product. -/
  | mulhZ (d : BitVec 6) (a : BitVec 6) (b : BitVec 6) (g : BitVec 4)
  /-- R305: Signed division truncating towards zero, fixed results for b=0 and overflow. -/
  | divS (d : BitVec 6) (a : BitVec 6) (b : BitVec 6) (g : BitVec 4)
  /-- R305: Unsigned division, all ones for b=0. -/
  | divZ (d : BitVec 6) (a : BitVec 6) (b : BitVec 6) (g : BitVec 4)
  /-- R305: Signed remainder with the dividend's sign. -/
  | remS (d : BitVec 6) (a : BitVec 6) (b : BitVec 6) (g : BitVec 4)
  /-- R305: Unsigned remainder. -/
  | remZ (d : BitVec 6) (a : BitVec 6) (b : BitVec 6) (g : BitVec 4)
  /-- R306: Counts leading zero bits. -/
  | clz (d : BitVec 6) (a : BitVec 6) (g : BitVec 4)
  /-- R306: Counts trailing zero bits. -/
  | ctz (d : BitVec 6) (a : BitVec 6) (g : BitVec 4)
  /-- R306: Counts one bits. -/
  | popc (d : BitVec 6) (a : BitVec 6) (g : BitVec 4)
  /-- R306: Extracts a bit field of a given by s[b]. -/
  | bext (d : BitVec 6) (a : BitVec 6) (b : BitVec 6) (g : BitVec 4)
  /-- R306: Inserts a field of a into d at the position given by s[b]. -/
  | bins (d : BitVec 6) (a : BitVec 6) (b : BitVec 6) (g : BitVec 4)
  /-- R307: Adds a to b shifted left by sh. -/
  | addsh (d : BitVec 6) (a : BitVec 6) (b : BitVec 6) (sh : BitVec 4) (g : BitVec 4)
  /-- R307: Selects a or b by a predicate. -/
  | sel (d : BitVec 6) (a : BitVec 6) (b : BitVec 6) (pc : BitVec 4) (g : BitVec 4)
  /-- R308: Adds a sign-extended 10-bit immediate. -/
  | addi (d : BitVec 6) (a : BitVec 6) (imm : BitVec 10) (g : BitVec 4)
  /-- R308: ANDs a sign-extended immediate. -/
  | andi (d : BitVec 6) (a : BitVec 6) (imm : BitVec 10) (g : BitVec 4)
  /-- R308: ORs a sign-extended immediate. -/
  | ori (d : BitVec 6) (a : BitVec 6) (imm : BitVec 10) (g : BitVec 4)
  /-- R308: XORs a sign-extended immediate. -/
  | xori (d : BitVec 6) (a : BitVec 6) (imm : BitVec 10) (g : BitVec 4)
  /-- R308: Shifts left by an immediate. -/
  | shli (d : BitVec 6) (a : BitVec 6) (sh : BitVec 6) (g : BitVec 4)
  /-- R308: Logical right shift by an immediate. -/
  | shri (d : BitVec 6) (a : BitVec 6) (sh : BitVec 6) (g : BitVec 4)
  /-- R308: Arithmetic right shift by an immediate. -/
  | srai (d : BitVec 6) (a : BitVec 6) (sh : BitVec 6) (g : BitVec 4)
  /-- R309: Loads a sign-extended 16-bit immediate. -/
  | movi (d : BitVec 6) (imm : BitVec 16) (g : BitVec 4)
  /-- R309: Shifts the register left 16 and ORs in an immediate. -/
  | movh (d : BitVec 6) (imm : BitVec 16) (g : BitVec 4)
  /-- R310: Sets a predicate when a equals b. -/
  | cmpEq (pd : BitVec 3) (a : BitVec 6) (b : BitVec 6) (g : BitVec 4)
  /-- R310: Sets a predicate when a differs from b. -/
  | cmpNe (pd : BitVec 3) (a : BitVec 6) (b : BitVec 6) (g : BitVec 4)
  /-- R310: Signed less-than compare. -/
  | cmpLtS (pd : BitVec 3) (a : BitVec 6) (b : BitVec 6) (g : BitVec 4)
  /-- R310: Unsigned less-than compare. -/
  | cmpLtZ (pd : BitVec 3) (a : BitVec 6) (b : BitVec 6) (g : BitVec 4)
  /-- R310: Signed greater-or-equal compare. -/
  | cmpGeS (pd : BitVec 3) (a : BitVec 6) (b : BitVec 6) (g : BitVec 4)
  /-- R310: Unsigned greater-or-equal compare. -/
  | cmpGeZ (pd : BitVec 3) (a : BitVec 6) (b : BitVec 6) (g : BitVec 4)
  /-- R311: Predicate AND. -/
  | pand (pd : BitVec 3) (pa : BitVec 4) (pb : BitVec 4) (g : BitVec 4)
  /-- R311: Predicate OR. -/
  | por (pd : BitVec 3) (pa : BitVec 4) (pb : BitVec 4) (g : BitVec 4)
  /-- R311: Predicate XOR. -/
  | pxor (pd : BitVec 3) (pa : BitVec 4) (pb : BitVec 4) (g : BitVec 4)
  /-- R311: Predicate AND NOT. -/
  | pandn (pd : BitVec 3) (pa : BitVec 4) (pb : BitVec 4) (g : BitVec 4)
  /-- R311: Copies a predicate. -/
  | pmov (pd : BitVec 3) (pa : BitVec 4) (g : BitVec 4)
  /-- R311: Sets a predicate to a constant. -/
  | pset (pd : BitVec 3) (val : BitVec 1) (g : BitVec 4)
  /-- R316: PC-relative branch. -/
  | bra (off : BitVec 22) (g : BitVec 4)
  /-- R316: PC-relative branch writing the return address to s62. -/
  | call (off : BitVec 22) (g : BitVec 4)
  /-- R317: Indirect branch to s[a]. -/
  | brar (a : BitVec 6) (g : BitVec 4)
  /-- R317: Indirect branch to s62. -/
  | ret (g : BitVec 4)
  /-- R284: Starts a counted, staged loop over a body of LEN positions. -/
  | loop (a : BitVec 6) (sm1 : BitVec 3) (len : BitVec 13)
  /-- R288: Reads a control register. -/
  | ctlr (d : BitVec 6) (cr : BitVec 12)
  /-- R288: Writes a control register. -/
  | ctlw (a : BitVec 6) (cr : BitVec 12)
  /-- R288: Reads and writes a control register in one step. -/
  | ctlx (d : BitVec 6) (a : BitVec 6) (cr : BitVec 12)
  /-- R323: Enters a trap with SOFTWARE_TRAP and the immediate in FADDR. -/
  | trap (imm : BitVec 18) (g : BitVec 4)
  /-- R326: Returns from a handler, restoring from the live buffer or the stored snapshot. -/
  | eret (g : BitVec 4)
  /-- R324: Stores the live snapshot to SNAPBASE. -/
  | snapst (g : BitVec 4)
  /-- R325: Waits for snapshot stores and clears TM. -/
  | snaprel (g : BitVec 4)
  /-- R211: Suspends, writing the record and placement tag to memory at s6. -/
  | suspend (g : BitVec 4)
  /-- R327: Suspends and returns the record to the tail of its pool level. -/
  | yield (g : BitVec 4)
  /-- R328: Ends the continuation after its destinations are full. -/
  | halt (g : BitVec 4)
  /-- R329: Stalls until a timeline value or certified value reaches a threshold. -/
  | waittl (a : BitVec 6) (tl : BitVec 12) (cert : BitVec 1) (g : BitVec 4)
  /-- R329: Suspend form of WAITTL, suspending into the wait table if not satisfied. -/
  | waittlSusp (a : BitVec 6) (tl : BitVec 12) (cert : BitVec 1) (g : BitVec 4)
  /-- R330: Drains the seat's accesses and increments a queue timeline. -/
  | sigtl (a : BitVec 6) (tl : BitVec 12) (g : BitVec 4)
  /-- R312: Loads one byte zero-extended. -/
  | ldB (d : BitVec 6) (a : BitVec 6) (sp : BitVec 1) (imm : BitVec 13) (g : BitVec 4)
  /-- R312: Loads one byte sign-extended. -/
  | ldBs (d : BitVec 6) (a : BitVec 6) (sp : BitVec 1) (imm : BitVec 13) (g : BitVec 4)
  /-- R312: Loads two bytes zero-extended. -/
  | ldH (d : BitVec 6) (a : BitVec 6) (sp : BitVec 1) (imm : BitVec 13) (g : BitVec 4)
  /-- R312: Loads two bytes sign-extended. -/
  | ldHs (d : BitVec 6) (a : BitVec 6) (sp : BitVec 1) (imm : BitVec 13) (g : BitVec 4)
  /-- R312: Loads four bytes zero-extended. -/
  | ldW (d : BitVec 6) (a : BitVec 6) (sp : BitVec 1) (imm : BitVec 13) (g : BitVec 4)
  /-- R312: Loads four bytes sign-extended. -/
  | ldWs (d : BitVec 6) (a : BitVec 6) (sp : BitVec 1) (imm : BitVec 13) (g : BitVec 4)
  /-- R312: Loads eight bytes. -/
  | ldD (d : BitVec 6) (a : BitVec 6) (sp : BitVec 1) (imm : BitVec 13) (g : BitVec 4)
  /-- R312: Stores one byte. -/
  | stB (c : BitVec 6) (a : BitVec 6) (sp : BitVec 1) (imm : BitVec 13) (g : BitVec 4)
  /-- R312: Stores two bytes. -/
  | stH (c : BitVec 6) (a : BitVec 6) (sp : BitVec 1) (imm : BitVec 13) (g : BitVec 4)
  /-- R312: Stores four bytes. -/
  | stW (c : BitVec 6) (a : BitVec 6) (sp : BitVec 1) (imm : BitVec 13) (g : BitVec 4)
  /-- R312: Stores eight bytes. -/
  | stD (c : BitVec 6) (a : BitVec 6) (sp : BitVec 1) (imm : BitVec 13) (g : BitVec 4)
  /-- R315: A scalar load's data arrives and its destination becomes full. -/
  | loadComplete (core id : Nat)
  /-- R340: Copies a run register, unmasked or under a mask. -/
  | vmov (vd : BitVec 5) (va : BitVec 5) (vm : BitVec 5) (mz : BitVec 1) (g : BitVec 4)
  /-- R340: Fills a register of SHAPE with a scalar value. -/
  | vsplat (vd : BitVec 5) (sb : BitVec 6) (vm : BitVec 5) (mz : BitVec 1) (g : BitVec 4)
  /-- R340: Writes element index k as INT32 at each element. -/
  | viota (vd : BitVec 5) (vm : BitVec 5) (mz : BitVec 1) (g : BitVec 4)
  /-- R340: Extracts one element into a scalar. -/
  | vextr (sd : BitVec 6) (va : BitVec 5) (sb : BitVec 6) (g : BitVec 4)
  /-- R340: Inserts a scalar as one element. -/
  | vins (vd : BitVec 5) (sb : BitVec 6) (sc : BitVec 6) (g : BitVec 4)
  /-- R341: FP32 element-wise add. -/
  | vadd (vd : BitVec 5) (va : BitVec 5) (vb : BitVec 5) (vm : BitVec 5) (mz : BitVec 1) (g : BitVec 4)
  /-- R341: FP32 element-wise subtract. -/
  | vsub (vd : BitVec 5) (va : BitVec 5) (vb : BitVec 5) (vm : BitVec 5) (mz : BitVec 1) (g : BitVec 4)
  /-- R341: FP32 element-wise multiply. -/
  | vmul (vd : BitVec 5) (va : BitVec 5) (vb : BitVec 5) (vm : BitVec 5) (mz : BitVec 1) (g : BitVec 4)
  /-- R341: Fused multiply-add with one rounding. -/
  | vfma (vd : BitVec 5) (va : BitVec 5) (vb : BitVec 5) (vc : BitVec 5) (g : BitVec 4)
  /-- R341: Fused multiply-subtract with one rounding. -/
  | vfms (vd : BitVec 5) (va : BitVec 5) (vb : BitVec 5) (vc : BitVec 5) (g : BitVec 4)
  /-- R341: FP32 element-wise minimum. -/
  | vmin (vd : BitVec 5) (va : BitVec 5) (vb : BitVec 5) (vm : BitVec 5) (mz : BitVec 1) (g : BitVec 4)
  /-- R341: FP32 element-wise maximum. -/
  | vmax (vd : BitVec 5) (va : BitVec 5) (vb : BitVec 5) (vm : BitVec 5) (mz : BitVec 1) (g : BitVec 4)
  /-- R341: FP32 correctly rounded division. -/
  | vdiv (vd : BitVec 5) (va : BitVec 5) (vb : BitVec 5) (vm : BitVec 5) (mz : BitVec 1) (g : BitVec 4)
  /-- R337: Scalar-broadcast form of VADD. -/
  | vaddBcast (vd : BitVec 5) (va : BitVec 5) (sb : BitVec 6) (vm : BitVec 5) (mz : BitVec 1) (g : BitVec 4)
  /-- R337: Scalar-broadcast form of VSUB. -/
  | vsubBcast (vd : BitVec 5) (va : BitVec 5) (sb : BitVec 6) (vm : BitVec 5) (mz : BitVec 1) (g : BitVec 4)
  /-- R337: Scalar-broadcast form of VMUL. -/
  | vmulBcast (vd : BitVec 5) (va : BitVec 5) (sb : BitVec 6) (vm : BitVec 5) (mz : BitVec 1) (g : BitVec 4)
  /-- R337: Scalar-broadcast form of VMIN. -/
  | vminBcast (vd : BitVec 5) (va : BitVec 5) (sb : BitVec 6) (vm : BitVec 5) (mz : BitVec 1) (g : BitVec 4)
  /-- R337: Scalar-broadcast form of VMAX. -/
  | vmaxBcast (vd : BitVec 5) (va : BitVec 5) (sb : BitVec 6) (vm : BitVec 5) (mz : BitVec 1) (g : BitVec 4)
  /-- R337: Scalar-broadcast form of VDIV. -/
  | vdivBcast (vd : BitVec 5) (va : BitVec 5) (sb : BitVec 6) (vm : BitVec 5) (mz : BitVec 1) (g : BitVec 4)
  /-- R337: Scalar-broadcast form of VIADD. -/
  | viaddBcast (vd : BitVec 5) (va : BitVec 5) (sb : BitVec 6) (vm : BitVec 5) (mz : BitVec 1) (g : BitVec 4)
  /-- R337: Scalar-broadcast form of VISUB. -/
  | visubBcast (vd : BitVec 5) (va : BitVec 5) (sb : BitVec 6) (vm : BitVec 5) (mz : BitVec 1) (g : BitVec 4)
  /-- R337: Scalar-broadcast form of VIMUL. -/
  | vimulBcast (vd : BitVec 5) (va : BitVec 5) (sb : BitVec 6) (vm : BitVec 5) (mz : BitVec 1) (g : BitVec 4)
  /-- R337: Scalar-broadcast form of VAND. -/
  | vandBcast (vd : BitVec 5) (va : BitVec 5) (sb : BitVec 6) (vm : BitVec 5) (mz : BitVec 1) (g : BitVec 4)
  /-- R337: Scalar-broadcast form of VOR. -/
  | vorBcast (vd : BitVec 5) (va : BitVec 5) (sb : BitVec 6) (vm : BitVec 5) (mz : BitVec 1) (g : BitVec 4)
  /-- R337: Scalar-broadcast form of VXOR. -/
  | vxorBcast (vd : BitVec 5) (va : BitVec 5) (sb : BitVec 6) (vm : BitVec 5) (mz : BitVec 1) (g : BitVec 4)
  /-- R337: Scalar-broadcast form of VSHL. -/
  | vshlBcast (vd : BitVec 5) (va : BitVec 5) (sb : BitVec 6) (vm : BitVec 5) (mz : BitVec 1) (g : BitVec 4)
  /-- R337: Scalar-broadcast form of VSHR. -/
  | vshrBcast (vd : BitVec 5) (va : BitVec 5) (sb : BitVec 6) (vm : BitVec 5) (mz : BitVec 1) (g : BitVec 4)
  /-- R342: Clears the sign bit of each element. -/
  | vabs (vd : BitVec 5) (va : BitVec 5) (vm : BitVec 5) (mz : BitVec 1) (g : BitVec 4)
  /-- R342: Inverts the sign bit of each element. -/
  | vneg (vd : BitVec 5) (va : BitVec 5) (vm : BitVec 5) (mz : BitVec 1) (g : BitVec 4)
  /-- R342: Faithful reciprocal. -/
  | vrcp (vd : BitVec 5) (va : BitVec 5) (vm : BitVec 5) (mz : BitVec 1) (g : BitVec 4)
  /-- R342: Faithful reciprocal square root. -/
  | vrsq (vd : BitVec 5) (va : BitVec 5) (vm : BitVec 5) (mz : BitVec 1) (g : BitVec 4)
  /-- R342: Correctly rounded square root. -/
  | vsqrt (vd : BitVec 5) (va : BitVec 5) (vm : BitVec 5) (mz : BitVec 1) (g : BitVec 4)
  /-- R342: Faithful 2^x, exact for integers. -/
  | vexp2 (vd : BitVec 5) (va : BitVec 5) (vm : BitVec 5) (mz : BitVec 1) (g : BitVec 4)
  /-- R342: Faithful log2, exact for powers of two. -/
  | vlog2 (vd : BitVec 5) (va : BitVec 5) (vm : BitVec 5) (mz : BitVec 1) (g : BitVec 4)
  /-- R343: INT32 add modulo 2^32. -/
  | viadd (vd : BitVec 5) (va : BitVec 5) (vb : BitVec 5) (vm : BitVec 5) (mz : BitVec 1) (g : BitVec 4)
  /-- R343: INT32 subtract modulo 2^32. -/
  | visub (vd : BitVec 5) (va : BitVec 5) (vb : BitVec 5) (vm : BitVec 5) (mz : BitVec 1) (g : BitVec 4)
  /-- R343: INT32 multiply, low 32 bits. -/
  | vimul (vd : BitVec 5) (va : BitVec 5) (vb : BitVec 5) (vm : BitVec 5) (mz : BitVec 1) (g : BitVec 4)
  /-- R343: Bitwise AND of runs. -/
  | vand (vd : BitVec 5) (va : BitVec 5) (vb : BitVec 5) (vm : BitVec 5) (mz : BitVec 1) (g : BitVec 4)
  /-- R343: Bitwise OR of runs. -/
  | vor (vd : BitVec 5) (va : BitVec 5) (vb : BitVec 5) (vm : BitVec 5) (mz : BitVec 1) (g : BitVec 4)
  /-- R343: Bitwise XOR of runs. -/
  | vxor (vd : BitVec 5) (va : BitVec 5) (vb : BitVec 5) (vm : BitVec 5) (mz : BitVec 1) (g : BitVec 4)
  /-- R343: Shift left by b[4:0]. -/
  | vshl (vd : BitVec 5) (va : BitVec 5) (vb : BitVec 5) (vm : BitVec 5) (mz : BitVec 1) (g : BitVec 4)
  /-- R343: Logical shift right by b[4:0]. -/
  | vshr (vd : BitVec 5) (va : BitVec 5) (vb : BitVec 5) (vm : BitVec 5) (mz : BitVec 1) (g : BitVec 4)
  /-- R344: Writes 1 where a equals b. -/
  | vcmpEq (vd : BitVec 5) (va : BitVec 5) (vb : BitVec 5) (g : BitVec 4)
  /-- R344: Writes 1 where a differs from b or either is NaN. -/
  | vcmpNe (vd : BitVec 5) (va : BitVec 5) (vb : BitVec 5) (g : BitVec 4)
  /-- R344: Writes 1 where a < b. -/
  | vcmpLt (vd : BitVec 5) (va : BitVec 5) (vb : BitVec 5) (g : BitVec 4)
  /-- R344: Writes 1 where a <= b. -/
  | vcmpLe (vd : BitVec 5) (va : BitVec 5) (vb : BitVec 5) (g : BitVec 4)
  /-- R344: Writes 1 where a > b. -/
  | vcmpGt (vd : BitVec 5) (va : BitVec 5) (vb : BitVec 5) (g : BitVec 4)
  /-- R344: Writes 1 where a >= b. -/
  | vcmpGe (vd : BitVec 5) (va : BitVec 5) (vb : BitVec 5) (g : BitVec 4)
  /-- R344: Writes 1 where either input is NaN. -/
  | vcmpUn (vd : BitVec 5) (va : BitVec 5) (vb : BitVec 5) (g : BitVec 4)
  /-- R345: Selects a or b by a selector register. -/
  | vsel (vd : BitVec 5) (va : BitVec 5) (vb : BitVec 5) (vc : BitVec 5) (g : BitVec 4)
  /-- R346: FP32 to INT32, nearest even, saturating. -/
  | vcvtFi (vd : BitVec 5) (va : BitVec 5) (vm : BitVec 5) (mz : BitVec 1) (g : BitVec 4)
  /-- R346: FP32 to INT32 towards zero, saturating. -/
  | vcvtFit (vd : BitVec 5) (va : BitVec 5) (vm : BitVec 5) (mz : BitVec 1) (g : BitVec 4)
  /-- R346: INT32 to FP32 by rne32. -/
  | vcvtIf (vd : BitVec 5) (va : BitVec 5) (vm : BitVec 5) (mz : BitVec 1) (g : BitVec 4)
  /-- R346: Rounds FP32 to the nearest BF16 value. -/
  | vcvtFb (vd : BitVec 5) (va : BitVec 5) (vm : BitVec 5) (mz : BitVec 1) (g : BitVec 4)
  /-- R346: Rounds FP32 to the nearest T8 value. -/
  | vcvtFt8 (vd : BitVec 5) (va : BitVec 5) (vm : BitVec 5) (mz : BitVec 1) (g : BitVec 4)
  /-- R346: Rounds FP32 to the nearest T6 value. -/
  | vcvtFt6 (vd : BitVec 5) (va : BitVec 5) (vm : BitVec 5) (mz : BitVec 1) (g : BitVec 4)
  /-- R347: Tree sum of all elements. -/
  | vredSum (vd : BitVec 5) (va : BitVec 5) (g : BitVec 4)
  /-- R347: Tree maximum of all elements. -/
  | vredMax (vd : BitVec 5) (va : BitVec 5) (g : BitVec 4)
  /-- R347: Tree minimum of all elements. -/
  | vredMin (vd : BitVec 5) (va : BitVec 5) (g : BitVec 4)
  /-- R347: Tree sum of each row. -/
  | vrrowSum (vd : BitVec 5) (va : BitVec 5) (g : BitVec 4)
  /-- R347: Tree maximum of each row. -/
  | vrrowMax (vd : BitVec 5) (va : BitVec 5) (g : BitVec 4)
  /-- R347: Tree minimum of each row. -/
  | vrrowMin (vd : BitVec 5) (va : BitVec 5) (g : BitVec 4)
  /-- R347: Running sum along each row. -/
  | vscanSum (vd : BitVec 5) (va : BitVec 5) (g : BitVec 4)
  /-- R347: Running maximum along each row. -/
  | vscanMax (vd : BitVec 5) (va : BitVec 5) (g : BitVec 4)
  /-- R347: Running minimum along each row. -/
  | vscanMin (vd : BitVec 5) (va : BitVec 5) (g : BitVec 4)
  /-- R348: Counts true elements into a scalar. -/
  | vcnt (sd : BitVec 6) (va : BitVec 5) (g : BitVec 4)
  /-- R348: Returns shape, length and occupancy of a register. -/
  | vocc (sd : BitVec 6) (va : BitVec 5) (g : BitVec 4)
  /-- R349: Joins adjacent runs within a tolerance. -/
  | vrcoal (vd : BitVec 5) (va : BitVec 5) (tol : BitVec 5) (g : BitVec 4)
  /-- R350: Gives a register SHAPE with its runs unchanged. -/
  | vreshape (vd : BitVec 5) (va : BitVec 5) (g : BitVec 4)
  /-- R350: Repeats a row across SHAPE. -/
  | vbrow (vd : BitVec 5) (va : BitVec 5) (g : BitVec 4)
  /-- R350: Broadcasts a column across SHAPE. -/
  | vbcol (vd : BitVec 5) (va : BitVec 5) (g : BitVec 4)
  /-- R354: Permutes or gathers elements by a pattern entry. -/
  | vperm (vd : BitVec 5) (va : BitVec 5) (pat : BitVec 6) (g : BitVec 4)
  /-- R352: Loads a pattern entry of the inactive bank. -/
  | patld (va : BitVec 5) (pat : BitVec 6) (g : BitVec 4)
  /-- R353: Makes the inactive pattern bank active. -/
  | patsw (g : BitVec 4)
  /-- R355: Combines two attention partials. -/
  | vattc (vd : BitVec 5) (va : BitVec 5) (vb : BitVec 5) (g : BitVec 4)
  /-- R360: Loads and decodes a tile into a run register in a float context. -/
  | vld (v : BitVec 5) (a : BitVec 6) (sp : BitVec 1) (fsel : BitVec 4) (pb : BitVec 1) (g : BitVec 4)
  /-- R361: Loads a tile in an integer context. -/
  | vlds (v : BitVec 5) (a : BitVec 6) (sp : BitVec 1) (fsel : BitVec 4) (pb : BitVec 1) (g : BitVec 4)
  /-- R367: Loads a stored run list exactly. -/
  | vldRun (v : BitVec 5) (a : BitVec 6) (sp : BitVec 1) (pb : BitVec 1) (g : BitVec 4)
  /-- R362: A vector load's data arrives; the register becomes full or faulted. -/
  | vectorLoadComplete (core id : Nat)
  /-- R364: Encodes and stores a run register's tile. -/
  | vst (v : BitVec 5) (a : BitVec 6) (sp : BitVec 1) (fsel : BitVec 4) (pb : BitVec 1) (g : BitVec 4)
  /-- R366: Stores a register as a stored run list. -/
  | vstRun (v : BitVec 5) (a : BitVec 6) (sp : BitVec 1) (pb : BitVec 1) (g : BitVec 4)
  /-- R368: Reads a block's tag. -/
  | tagrd (d : BitVec 6) (a : BitVec 6) (sp : BitVec 1) (g : BitVec 4)
  /-- R368: Writes a block's tag without its data. -/
  | tagwr (a : BitVec 6) (b : BitVec 6) (sp : BitVec 1) (g : BitVec 4)
  /-- R96: Starts fills of a range into L1. -/
  | prefL1 (base : BitVec 6) (len : BitVec 6)
  /-- R96: Starts fills of a range into the cluster slice. -/
  | prefL2 (base : BitVec 6) (len : BitVec 6)
  /-- R96: Writes back and invalidates every cached copy of a range. -/
  | cflush (base : BitVec 6) (len : BitVec 6)
  /-- R96: Invalidates every cached copy of a range, discarding dirty data. -/
  | cinv (base : BitVec 6) (len : BitVec 6)
  /-- R371: Claims an operand slot, stalling while the other seat holds it. -/
  | osclaim (os : BitVec 4) (g : BitVec 4)
  /-- R371: Claims a slot, raising SLOT_BUSY if the other seat holds it. -/
  | osclaimT (os : BitVec 4) (g : BitVec 4)
  /-- R371: Releases a claimed slot to RELEASING. -/
  | osrel (os : BitVec 4) (g : BitVec 4)
  /-- R372: A RELEASING slot becomes FREE when its last operation completes. -/
  | slotFree (core slot : Nat)
  /-- R373: Accumulates A·B from two slots into an accumulator. -/
  | mma (acc : BitVec 2) (sa : BitVec 4) (sb : BitVec 4) (bar : BitVec 4) (g : BitVec 4)
  /-- R373: Zeroes the accumulator then accumulates A·B. -/
  | mmaz (acc : BitVec 2) (sa : BitVec 4) (sb : BitVec 4) (bar : BitVec 4) (g : BitVec 4)
  /-- R376: A matrix operation completes, ORs its status and decrements MXF. -/
  | mmaComplete (core id : Nat) (err : BitVec 4)
  /-- R377: Reads a row group of an accumulator into a run register. -/
  | accrd (v : BitVec 5) (acc : BitVec 2) (rg : BitVec 2) (cls : BitVec 1) (g : BitVec 4)
  /-- R377: Writes a row group of an accumulator from a run register. -/
  | accwr (v : BitVec 5) (acc : BitVec 2) (rg : BitVec 2) (g : BitVec 4)
  /-- R377: Zeroes an accumulator. -/
  | accz (acc : BitVec 2) (g : BitVec 4)
  /-- R378: Encodes an accumulator sub-tile into memory on the MX path. -/
  | accst (acc : BitVec 2) (a : BitVec 6) (sp : BitVec 1) (g : BitVec 4)
  /-- R379: Writes the EFR, effective from bundle b+3. -/
  | efrw (a : BitVec 6) (g : BitVec 4)
  /-- R380: Writes the code table after earlier decodes complete. -/
  | ctwr (v : BitVec 5) (a : BitVec 6) (g : BitVec 4)
  /-- R395: Inverts SPWIN.HALF; commits the buffer phase when tracking is on. -/
  | spswap (g : BitVec 4)
  /-- R384: Copies a tile between memory, scratchpad and slots, optionally converting. -/
  | cpy (a : BitVec 6) (b : BitVec 6) (ssp : BitVec 2) (dsp : BitVec 2) (g : BitVec 4)
  /-- R385: Copies into a slot and queues a follow-on MMA. -/
  | cpyMma (a : BitVec 6) (dslot : BitVec 4) (oslot : BitVec 4) (acc : BitVec 2) (side : BitVec 1) (z : BitVec 1) (ssp : BitVec 2) (g : BitVec 4)
  /-- R386: Gathers indexed global rows into local rows. -/
  | cpyg (a : BitVec 6) (b : BitVec 6) (c : BitVec 6) (los : BitVec 1) (g : BitVec 4)
  /-- R386: Scatters local rows to indexed global rows. -/
  | cpys (a : BitVec 6) (b : BitVec 6) (c : BitVec 6) (los : BitVec 1) (g : BitVec 4)
  /-- R387: Streams LPDDR-6 data past the caches into scratchpad or a slot. -/
  | cpyw (a : BitVec 6) (b : BitVec 6) (dos : BitVec 1) (g : BitVec 4)
  /-- R383: Destination bytes of a copy land and decrement the barrier's PEND. -/
  | copyLand (core id count : Nat)
  /-- R385: The copy unit issues a follow-on MMA once its copy has landed. -/
  | followOnMma (core id : Nat)
  /-- R388: Submits a block transfer from a seat. -/
  | bte (a : BitVec 6) (b : BitVec 6) (c : BitVec 5) (tag : BitVec 8)
  /-- R256: A BTE transfer ends and its completion record is written. -/
  | bteTransferEnd (die id : Nat)
  /-- R392: Initialises a barrier object's expected arrivals and pending bytes. -/
  | barInit (obj : BitVec 5) (a : BitVec 6) (b : BitVec 6) (g : BitVec 4)
  /-- R392: Links or unlinks a leaf to a root object. -/
  | barLink (obj : BitVec 5) (a : BitVec 6) (g : BitVec 4)
  /-- R392: Adds to a barrier's pending bytes. -/
  | barExp (obj : BitVec 5) (a : BitVec 6) (g : BitVec 4)
  /-- R392: Counts an arrival at a barrier object. -/
  | barArr (obj : BitVec 5) (g : BitVec 4)
  /-- R393: Stalls while the object's PHASE equals a parity. -/
  | barWait (obj : BitVec 5) (a : BitVec 6) (tr : BitVec 1) (g : BitVec 4)
  /-- R393: Suspend form of BAR.WAIT. -/
  | barWaitS (obj : BitVec 5) (a : BitVec 6) (tr : BitVec 1) (g : BitVec 4)
  /-- R392: Tests whether the object's phase has changed. -/
  | barTest (obj : BitVec 5) (a : BitVec 6) (d : BitVec 6) (g : BitVec 4)
  /-- R394: Returns a view of a barrier object. -/
  | barStat (obj : BitVec 5) (a : BitVec 6) (d : BitVec 6) (g : BitVec 4)
  /-- R397: Starts a sequencer macro-op of chunked copies and MMAs. -/
  | seqMma (a : BitVec 6) (b : BitVec 6) (c : BitVec 6) (g : BitVec 4)
  /-- R398: Starts a sequencer macro-op of row-block copies. -/
  | seqCpy (a : BitVec 6) (b : BitVec 6) (c : BitVec 6) (g : BitVec 4)
  /-- R397: The sequencer issues its next copy or MMA step when accepted. -/
  | seqStepIssue (core seat : Nat)
  /-- R403: Atomic add at the line's home. -/
  | amoAdd (d : BitVec 6) (a : BitVec 6) (b : BitVec 6) (ord : BitVec 2) (scope : BitVec 3) (w : BitVec 1)
  /-- R403: Atomic AND. -/
  | amoAnd (d : BitVec 6) (a : BitVec 6) (b : BitVec 6) (ord : BitVec 2) (scope : BitVec 3) (w : BitVec 1)
  /-- R403: Atomic OR. -/
  | amoOr (d : BitVec 6) (a : BitVec 6) (b : BitVec 6) (ord : BitVec 2) (scope : BitVec 3) (w : BitVec 1)
  /-- R403: Atomic XOR. -/
  | amoXor (d : BitVec 6) (a : BitVec 6) (b : BitVec 6) (ord : BitVec 2) (scope : BitVec 3) (w : BitVec 1)
  /-- R403: Atomic signed minimum. -/
  | amoMinS (d : BitVec 6) (a : BitVec 6) (b : BitVec 6) (ord : BitVec 2) (scope : BitVec 3) (w : BitVec 1)
  /-- R403: Atomic signed maximum. -/
  | amoMaxS (d : BitVec 6) (a : BitVec 6) (b : BitVec 6) (ord : BitVec 2) (scope : BitVec 3) (w : BitVec 1)
  /-- R403: Atomic exchange. -/
  | amoXchg (d : BitVec 6) (a : BitVec 6) (b : BitVec 6) (ord : BitVec 2) (scope : BitVec 3) (w : BitVec 1)
  /-- R403: Atomic compare and swap. -/
  | amoCas (d : BitVec 6) (a : BitVec 6) (b : BitVec 6) (ord : BitVec 2) (scope : BitVec 3) (w : BitVec 1)
  /-- R403: Acquire load at a scope. -/
  | lda (d : BitVec 6) (a : BitVec 6) (scope : BitVec 3) (w : BitVec 1)
  /-- R403: Release store at a scope. -/
  | stl (a : BitVec 6) (b : BitVec 6) (scope : BitVec 3) (w : BitVec 1)
  /-- R405: Orders LS accesses by kind at a scope. -/
  | fence (scope : BitVec 3) (kind : BitVec 2) (g : BitVec 4)
  /-- R406: Orders accesses across two paths at a scope. -/
  | xfence (p1 : BitVec 3) (p2 : BitVec 3) (scope : BitVec 3) (g : BitVec 4)
  /-- R408: Stalls until a memory word satisfies a condition, with timeout. -/
  | waitv (a : BitVec 6) (b : BitVec 6) (t : BitVec 6) (cond : BitVec 3) (w : BitVec 1) (scope : BitVec 3)
  /-- R409: Suspend form of WAITV keyed on the watched line. -/
  | waitvS (a : BitVec 6) (b : BitVec 6) (t : BitVec 6) (cond : BitVec 3) (w : BitVec 1) (scope : BitVec 3)
  /-- R408: A WAITV reaches its deadline unsatisfied. -/
  | waitTimeout (w : WaitRef)
  /-- R413: Resolves a position and layer to a KV block. -/
  | kvwalk (a : BitVec 6) (b : BitVec 6) (c : BitVec 6) (g : BitVec 4)
  /-- R414: Stages rows of one layer at the next positions. -/
  | kvapp (a : BitVec 6) (b : BitVec 6) (c : BitVec 6) (g : BitVec 4)
  /-- R415: Commits a fully staged append. -/
  | kvcommit (c : BitVec 6) (g : BitVec 4)
  /-- R189: Makes a sequence a copy of another's committed state. -/
  | kvfork (a : BitVec 6) (g : BitVec 4)
  /-- R190: Rolls a sequence back to a shorter length. -/
  | kvroll (a : BitVec 6) (g : BitVec 4)
  /-- R191: Inserts a template node at a position. -/
  | kvsplice (a : BitVec 6) (b : BitVec 6) (c : BitVec 6) (g : BitVec 4)
  /-- R417: Writes the provenance record of a position's node. -/
  | kvprov (a : BitVec 6) (b : BitVec 6) (g : BitVec 4)
  /-- R192: Measures layer-1 deviation and builds the repair list. -/
  | repairM (a : BitVec 6) (b : BitVec 6) (c : BitVec 6) (g : BitVec 4)
  /-- R194: Installs repaired rows of one layer. -/
  | repairI (a : BitVec 6) (b : BitVec 6) (c : BitVec 6) (g : BitVec 4)
  /-- R419: Reads the repair frontier state. -/
  | repstat (c : BitVec 6) (g : BitVec 4)
  /-- R420: Computes attention over the sequence in the slices. -/
  | attq (a : BitVec 6) (b : BitVec 6) (c : BitVec 6) (g : BitVec 4)
  /-- R420: Repaired-only attention, held while repair is pending in its layer. -/
  | attqRo (a : BitVec 6) (b : BitVec 6) (c : BitVec 6) (g : BitVec 4)
  /-- R412: A KV operation is accepted and takes its step once earlier steps complete. -/
  | kvAccept (core seat : Nat)
  /-- R412: A KV operation's later work ends and its status register fills. -/
  | kvComplete (core id : Nat)
  /-- R176: An allocation or return waiting on a KV pool ring proceeds. -/
  | kvPoolWaitEnd (core seat : Nat)
  /-- R422: Writes a local chunk to a remote member. -/
  | collPut (a : BitVec 6) (b : BitVec 6) (c : BitVec 6) (g : BitVec 4)
  /-- R422: Reads a remote chunk locally. -/
  | collGet (a : BitVec 6) (b : BitVec 6) (c : BitVec 6) (g : BitVec 4)
  /-- R422: Adds a local chunk into a remote chunk. -/
  | collAdd (a : BitVec 6) (b : BitVec 6) (c : BitVec 6) (g : BitVec 4)
  /-- R422: Maximum of a local chunk into a remote chunk. -/
  | collMax (a : BitVec 6) (b : BitVec 6) (c : BitVec 6) (g : BitVec 4)
  /-- R422: Minimum of a local chunk into a remote chunk. -/
  | collMin (a : BitVec 6) (b : BitVec 6) (c : BitVec 6) (g : BitVec 4)
  /-- R506: A receiver checks and applies a complete chunk and returns ACK or NAK. -/
  | collChunkReceive (ch : CollChunk)
  /-- R506: The sender receives ACK or NAK for a chunk, resending once on NAK. -/
  | collAck (core id : Nat) (ok : Bool)
  /-- R506: A chunk without ACK or NAK after 200 µs counts as failed. -/
  | collChunkTimeout (chunk : ChunkRef) (id : Nat)
  /-- R424: A collective's status register fills once applied. -/
  | collComplete (core id : Nat)
  /-- R426: Opens a resole transaction for a model slot. -/
  | rsbegin (a : BitVec 6) (c : BitVec 6) (g : BitVec 4)
  /-- R427: Stages bytes into a resole transaction. -/
  | rswrite (a : BitVec 6) (b : BitVec 6) (c : BitVec 6) (g : BitVec 4)
  /-- R428: Commits a resole transaction. -/
  | rscommit (a : BitVec 6) (c : BitVec 6) (g : BitVec 4)
  /-- R428: Aborts a resole transaction. -/
  | rsabort (a : BitVec 6) (g : BitVec 4)
  /-- R429: Reads a view of a resole transaction. -/
  | rsstat (a : BitVec 6) (b : BitVec 6) (c : BitVec 6) (g : BitVec 4)
  /-- R485: An MRAM write attempt completes and is read back and verified. -/
  | journalWriteAttempt (handle : Nat) (ok : Bool)
  /-- R487: All entries verified: the commit record is written, MVER rises and lines are redirected. -/
  | commitRecord (handle : Nat)
  /-- R487: Background apply writes a journal entry to its bank line. -/
  | resoleApply (handle : Nat) (ok : Bool)
  /-- R435: At a bundle boundary the seat takes a cause and enters its handler. -/
  | trapEntry (core seat : Nat)
  /-- R448: The hang watchdog expires for a seat that issued nothing. -/
  | watchdog (core seat : Nat)
  /-- R215: An idle seat takes the head record it may run. -/
  | continuationPlace (core seat : Nat)
  /-- R215: A record waiting AGEINT rises one priority level. -/
  | ageing (die entry : Nat)
  /-- R216: A record waiting BOUND displaces a lower-priority continuation. -/
  | placementBound (die entry : Nat)
  /-- R209: An event reaches the wait table and the continuation becomes runnable. -/
  | waitWake (die entry : Nat)
  /-- R441: PRECMD GO requests pre-emption of a context. -/
  | preemptRequest (lcid : Nat)
  /-- R235: A context's save frame is complete. -/
  | preemptSaveComplete (core : Nat)
  /-- R449: A save not done in 200 µs is abandoned and the ASID killed. -/
  | saveDeadline (core : Nat)
  /-- R447: A frame entry is placed and its context restored. -/
  | frameRestore (die entry core : Nat)
  /-- R231: MIGCMD GO starts or rejects a migration. -/
  | migrationRequest (lcid target : Nat)
  /-- R232: Seats stop at a B bundle or suspension point and state transfers. -/
  | migrationStop (core : Nat)
  /-- R234: Seats not stopped within 40 µs are pre-empted and moved. -/
  | migrationFallback (core : Nat)
  /-- R240: A kick register write publishes packets or sets KPEND. -/
  | kick (q : Nat) (w : BitVec 32)
  /-- R243: SLOTCMD MAP checks a QCB and activates a slot. -/
  | map (slot : Nat)
  /-- R243: SLOTCMD PARK stops fetching and abandons undispatched packets. -/
  | park (slot : Nat)
  /-- R243: A PARKING slot reaches PARKED. -/
  | parkComplete (slot : Nat)
  /-- R243: SLOTCMD RESUME restarts fetching. -/
  | resume (slot : Nat)
  /-- R243: SLOTCMD UNMAP returns a slot to IDLE. -/
  | unmap (slot : Nat)
  /-- R249: A fetcher reads and checks the head packet once published. -/
  | packetFetch (slot : Nat)
  /-- R247: A NOP packet completes at parse. -/
  | nopPacket (slot : Nat)
  /-- R252: Creates continuation records of a grid and wakes their tiles. -/
  | launch (slot : Nat)
  /-- R253: Reserves seats across partitions and places all members together. -/
  | gang (slot : Nat)
  /-- R253: A waiting gang retries its reservation. -/
  | gangRetry (slot : Nat)
  /-- R253: A gang waiting BOUND raises GANG once. -/
  | gangBound (slot : Nat)
  /-- R254: Requeues a suspended record by CAS on its SUSP field. -/
  | signal (slot : Nat)
  /-- R254: Holds later packets until a timeline threshold is met. -/
  | waittlPacket (slot : Nat)
  /-- R254: A packet-level WAITTL reaches TMO and stops the queue. -/
  | waittlPacketTimeout (slot : Nat)
  /-- R254: Submits a transfer from a queue. -/
  | btePacket (slot : Nat)
  /-- R140: Starts a kill of an ASID with revocation. -/
  | kill (slot : Nat)
  /-- R142: Every point has acknowledged and kill-complete is raised. -/
  | killComplete (asid : BitVec 16)
  /-- R254: Holds later packets until earlier ones complete and perform. -/
  | fencePacket (slot : Nat)
  /-- R254: Writes a timestamp record at dispatch. -/
  | marker (slot : Nat)
  /-- R510: STREAM OPEN configures a media stream. -/
  | open_ (slot : Nat)
  /-- R515: STREAM CLOSE closes the frame in progress. -/
  | close (slot : Nat)
  /-- R511: STREAM BUFFERS sets the frame buffers. -/
  | buffers (slot : Nat)
  /-- R516: STREAM SEND queues a frame slot for transmission. -/
  | send (slot : Nat)
  /-- R259: A packet completes and its increment applies in sequence. -/
  | packetComplete (pkt : Nat)
  /-- R257: Raises VALUE and CERT by the written amount. -/
  | tladd (tl : Nat) (v : BitVec 64)
  /-- R138: TLBICMD kind 0 invalidates non-global entries of an ASID in a range. -/
  | tlbiRange (asid : BitVec 16)
  /-- R138: TLBICMD kind 1 invalidates all non-global entries of an ASID. -/
  | tlbiAsid (asid : BitVec 16)
  /-- R138: TLBICMD kind 2 invalidates global entries in a range. -/
  | tlbiGlobalRange
  /-- R138: TLBICMD kind 3 invalidates every entry. -/
  | tlbiAll
  /-- R138: A reserved TLBICMD kind sets ERR and invalidates nothing. -/
  | tlbiReserved (kind : BitVec 3)
  /-- R139: A shootdown completes and DONE advances. -/
  | tlbiComplete
  /-- R92: Writing V=1 to a pin table entry starts pinning a page. -/
  | pin (slice entry : Nat) (ppn : BitVec 32)
  /-- R92: Writing V=0 starts unpinning a page. -/
  | unpin (slice entry : Nat)
  /-- R92: A pin or unpin finishes and BUSY clears. -/
  | pinComplete (slice entry : Nat)
  /-- R229: Policy core writes an LCID map entry. -/
  | lcidMapWrite (lcid : Nat) (v : BitVec 32)
  /-- R460: SCANCMD GO starts or rejects a core scan. -/
  | scanRequest (die core : Nat)
  /-- R460: A scan passes or fails; certification advances or entries go suspect. -/
  | scanComplete (die cluster : Nat) (pass : Bool)
  /-- R463: Treats suspect entries of a timeline as certified. -/
  | suspack (tl : Nat)
  /-- R465: TOPOCTL APPLY makes TOPOMASK visible or is refused. -/
  | apply
  /-- R453: An ECC or residue error is found, corrected, poisoned or consumed. -/
  | errorDetected (e : ErrorEvent)
  /-- R471: An idle tile enters RET after IDLERET. -/
  | tileIdleRet (core : Nat)
  /-- R471: A tile in RET enters OFF after IDLEOFF. -/
  | tileIdleOff (core : Nat)
  /-- R470: A waking tile reaches ON. -/
  | tileWakeComplete (core : Nat)
  /-- R475: DEVCTL TARGET 0 wakes the device. -/
  | targetActive
  /-- R475: DEVCTL TARGET 1 requests LISTEN. -/
  | targetListen
  /-- R475: DEVCTL TARGET 2 requests DORMANT. -/
  | targetDormant
  /-- R483: The device reaches ACTIVE and recovers from any power loss. -/
  | wakeComplete
  /-- R476: The time unit reaches WALARM and wakes the device. -/
  | alarm
  /-- R478: A tile reaches the WARN temperature. -/
  | thermalWarn (core : Nat)
  /-- R478: A tile at 105 °C issues at half rate. -/
  | thermalThrottle (core : Nat)
  /-- R478: A throttled tile falls below 100 °C. -/
  | throttleEnd (core : Nat)
  /-- R478: A tile at 115 °C goes OFF and its contexts end. -/
  | thermalTrip (core : Nat)
  /-- R479: The 1 ms package power average exceeds PCAP and tiles throttle. -/
  | powerCap
  /-- R482: Supply loss is detected and NV writes in progress complete. -/
  | powerLoss
  /-- R527: The security unit verifies and boots a firmware image, with the public keys presented for slot A and for slot B. -/
  | coldStart (keyA keyB : List (BitVec 8))
  /-- R529: Verifies an image and writes it to the inactive slot. -/
  | install
  /-- R529: Raises ROLLCTR to the running SVN. -/
  | advance
  /-- R530: Advances the XMSS index and writes a signed report. -/
  | attest
  /-- R529: Toggles read access to the TCM window. -/
  | tcmopen
  /-- R529: A security command ends and BUSY clears: the public key presented for an image, and the randomizer of a signature. -/
  | securityCommandComplete (key rand : List (BitVec 8))
  /-- R263: Host doorbell write raises HOSTMB or is cleared. -/
  | h2fdbWrite (v : BitVec 32)
  /-- R263: Firmware doorbell write interrupts the host or is cleared. -/
  | f2hdbWrite (v : BitVec 32)
  /-- R493: A host read request through control space or an aperture. -/
  | hostRead (off size : Nat)
  /-- R494: A host write request through control space or an aperture. -/
  | hostWrite (off : Nat) (bytes : List (Option (BitVec 8)))
  /-- R491: A host atomic request. -/
  | hostAtomic (off size : Nat) (op : AmoOp) (x cmp : BitVec 64)
  /-- R495: The host completes a device access or it ends with link error. -/
  | hostCompletion (id : Nat) (data : Option (List (BitVec 8)))
  /-- R495: A device request outstanding for HLTMO ends as a link error. -/
  | hostLinkTimeout (id : Nat)
  /-- R497: Enabling an HIVT entry with PEND sends its message. -/
  | hivtEnable (vec : Nat) (en : Bool)
  /-- R500: A received Ethernet frame is classified to its consumer. -/
  | ethFrameReceive (port : Nat) (frame : List (BitVec 8))
  /-- R502: Adds a signed offset to the time unit. -/
  | tustep (v : BitVec 64)
  /-- R512: A media packet is placed; completed groups raise the timeline. -/
  | rtpPacketReceive (stream path : Nat) (pkt : RtpPacket)
  /-- R515: A frame starts, or is skipped if the ring is full. -/
  | frameStart (stream : Nat)
  /-- R513: A frame reaches its deadline and closes with fill and loss map. -/
  | frameDeadline (stream : Nat)
  /-- R516: A queued frame is sent at its frame time. -/
  | frameTransmit (stream : Nat)
  /-- R522: Clearing FROZEN resumes trace recording. -/
  | traceResume (core : Nat)
  /-- R523: MONCTL CLR resets a monitor. -/
  | monitorClear (core mon : Nat)
  /-- R12: A write to a register with no behaviour of its own. -/
  | registerWrite (by_ : Party) (off size : Nat) (v : BitVec 64)
  /-- R503: An Ethernet port's link goes up or down, changing which port a collective chunk leaves on and when links become usable after a wake. -/
  | ethLinkChange (port : Nat) (up : Bool)
  /-- R490: The UCIe link trains, loses training, or falls back to one module, setting HLSTAT.UP and WIDTH. -/
  | hostLinkTraining (modules : Nat)
  /-- R479: The 1 ms package power average falls 5 % below PCAP and the cap throttling of ON tiles ends. -/
  | powerCapRelease
  /-- R478: The sensor of a tile that tripped reads below 100 °C, so the tile may be woken again. -/
  | trippedTileCooled (core : Nat)
  /-- R378: The MX-path writes of an ACCST land, freeing its scoreboard entry and decrementing PEND of its leaf barrier object. -/
  | accstLand (core id : Nat)
  /-- R523: Once per ms a monitor on SRC 6 samples the tile temperature into COUNT, MIN, MAX and its bin. -/
  | monitorTemperatureSample (core mon : Nat) (temp : BitVec 32)
  deriving DecidableEq, Repr

end Sys2Proof
end

