-- ==== Sys2Proof/WellFormed.lean ====
section
/-! DEFINITION. Well-formed instructions: the sub-field values that the opcode map lists (R266, R291 to R294), the slot
position an instruction stands in, and whether a row is a slot instruction or a device step. -/

namespace Sys2Proof

/-- R289: the control-register numbers that the table lists. -/
def crListed (cr : BitVec 12) : Bool :=
  decide (cr.toNat ≤ 0x00B) || decide (0x010 ≤ cr.toNat ∧ cr.toNat ≤ 0x014) ||
  decide (0x020 ≤ cr.toNat ∧ cr.toNat ≤ 0x024) || cr == 0x030#12 || cr == 0x031#12
/-- R257, R291: TLID 0x000 to 0x49F. -/
def tlidOk (tl : BitVec 12) : Bool := decide (tl.toNat ≤ 0x49F)
/-- R148: scopes 0 to 5 (and R146: paths 0 to 5). -/
def scopeOk (s : BitVec 3) : Bool := decide (s.toNat ≤ 5)
/-- R274: FSEL values 0 to 9. -/
def fselOk (f : BitVec 4) : Bool := decide (f.toNat ≤ 9)
/-- R275: OBJ 0 to 23. -/
def objOk (x : BitVec 5) : Bool := decide (x.toNat ≤ 23)

/-- R266: the conditions on an instruction's own fields that are not fixed by its field widths. Every other instruction is
well formed at every field value. -/
def Instr.wf : Instr → Bool
  | .loop _ _ len => len != 0#13
  | .ctlr _ cr => crListed cr
  | .ctlw _ cr => crListed cr
  | .ctlx _ _ cr => crListed cr
  | .waittl _ tl _ _ => tlidOk tl
  | .waittlSusp _ tl _ _ => tlidOk tl
  | .sigtl _ tl _ => tlidOk tl
  | .vmov _ _ vm mz _ => mz == 0#1 || vm != 0#5
  | .vsplat _ _ vm mz _ => mz == 0#1 || vm != 0#5
  | .viota _ vm mz _ => mz == 0#1 || vm != 0#5
  | .vadd _ _ _ vm mz _ => mz == 0#1 || vm != 0#5
  | .vsub _ _ _ vm mz _ => mz == 0#1 || vm != 0#5
  | .vmul _ _ _ vm mz _ => mz == 0#1 || vm != 0#5
  | .vmin _ _ _ vm mz _ => mz == 0#1 || vm != 0#5
  | .vmax _ _ _ vm mz _ => mz == 0#1 || vm != 0#5
  | .vdiv _ _ _ vm mz _ => mz == 0#1 || vm != 0#5
  | .vaddBcast _ _ _ vm mz _ => mz == 0#1 || vm != 0#5
  | .vsubBcast _ _ _ vm mz _ => mz == 0#1 || vm != 0#5
  | .vmulBcast _ _ _ vm mz _ => mz == 0#1 || vm != 0#5
  | .vminBcast _ _ _ vm mz _ => mz == 0#1 || vm != 0#5
  | .vmaxBcast _ _ _ vm mz _ => mz == 0#1 || vm != 0#5
  | .vdivBcast _ _ _ vm mz _ => mz == 0#1 || vm != 0#5
  | .viaddBcast _ _ _ vm mz _ => mz == 0#1 || vm != 0#5
  | .visubBcast _ _ _ vm mz _ => mz == 0#1 || vm != 0#5
  | .vimulBcast _ _ _ vm mz _ => mz == 0#1 || vm != 0#5
  | .vandBcast _ _ _ vm mz _ => mz == 0#1 || vm != 0#5
  | .vorBcast _ _ _ vm mz _ => mz == 0#1 || vm != 0#5
  | .vxorBcast _ _ _ vm mz _ => mz == 0#1 || vm != 0#5
  | .vshlBcast _ _ _ vm mz _ => mz == 0#1 || vm != 0#5
  | .vshrBcast _ _ _ vm mz _ => mz == 0#1 || vm != 0#5
  | .vabs _ _ vm mz _ => mz == 0#1 || vm != 0#5
  | .vneg _ _ vm mz _ => mz == 0#1 || vm != 0#5
  | .vrcp _ _ vm mz _ => mz == 0#1 || vm != 0#5
  | .vrsq _ _ vm mz _ => mz == 0#1 || vm != 0#5
  | .vsqrt _ _ vm mz _ => mz == 0#1 || vm != 0#5
  | .vexp2 _ _ vm mz _ => mz == 0#1 || vm != 0#5
  | .vlog2 _ _ vm mz _ => mz == 0#1 || vm != 0#5
  | .viadd _ _ _ vm mz _ => mz == 0#1 || vm != 0#5
  | .visub _ _ _ vm mz _ => mz == 0#1 || vm != 0#5
  | .vimul _ _ _ vm mz _ => mz == 0#1 || vm != 0#5
  | .vand _ _ _ vm mz _ => mz == 0#1 || vm != 0#5
  | .vor _ _ _ vm mz _ => mz == 0#1 || vm != 0#5
  | .vxor _ _ _ vm mz _ => mz == 0#1 || vm != 0#5
  | .vshl _ _ _ vm mz _ => mz == 0#1 || vm != 0#5
  | .vshr _ _ _ vm mz _ => mz == 0#1 || vm != 0#5
  | .vcvtFi _ _ vm mz _ => mz == 0#1 || vm != 0#5
  | .vcvtFit _ _ vm mz _ => mz == 0#1 || vm != 0#5
  | .vcvtIf _ _ vm mz _ => mz == 0#1 || vm != 0#5
  | .vcvtFb _ _ vm mz _ => mz == 0#1 || vm != 0#5
  | .vcvtFt8 _ _ vm mz _ => mz == 0#1 || vm != 0#5
  | .vcvtFt6 _ _ vm mz _ => mz == 0#1 || vm != 0#5
  | .vld _ _ _ fsel _ _ => fselOk fsel
  | .vlds _ _ _ fsel _ _ => fselOk fsel
  | .vst _ _ _ fsel _ _ => fselOk fsel
  | .cpy _ _ ssp dsp _ => ssp != 3#2 && dsp != 3#2
  | .cpyMma _ _ _ _ _ _ ssp _ => decide (ssp.toNat < 2)
  | .barInit obj _ _ _ => objOk obj
  | .barLink obj _ _ => objOk obj
  | .barExp obj _ _ => objOk obj
  | .barArr obj _ => objOk obj
  | .barWait obj _ _ _ => objOk obj
  | .barWaitS obj _ _ _ => objOk obj
  | .barTest obj _ _ _ => objOk obj
  | .barStat obj _ _ _ => objOk obj
  | .amoAdd _ _ _ _ scope _ => scopeOk scope
  | .amoAnd _ _ _ _ scope _ => scopeOk scope
  | .amoOr _ _ _ _ scope _ => scopeOk scope
  | .amoXor _ _ _ _ scope _ => scopeOk scope
  | .amoMinS _ _ _ _ scope _ => scopeOk scope
  | .amoMaxS _ _ _ _ scope _ => scopeOk scope
  | .amoXchg _ _ _ _ scope _ => scopeOk scope
  | .amoCas _ _ _ _ scope _ => scopeOk scope
  | .lda _ _ scope _ => scopeOk scope
  | .stl _ _ scope _ => scopeOk scope
  | .fence scope kind _ => scopeOk scope && kind != 0#2
  | .xfence p1 p2 scope _ => scopeOk scope && scopeOk p1 && scopeOk p2
  | .waitv _ _ _ cond _ scope => scopeOk scope && decide (cond.toNat < 5)
  | .waitvS _ _ _ cond _ scope => scopeOk scope && decide (cond.toNat < 5)
  | _ => true

/-- R264: the slot position of an instruction (0 S, 1 V, 2 M, 3 C); none for a device step and for NOP, which stands in any
position (R265). -/
def Instr.pos : Instr → Option Nat
  | .nop | .loadComplete .. | .vectorLoadComplete .. | .slotFree .. | .mmaComplete .. | .copyLand .. | .followOnMma ..
  | .bteTransferEnd .. | .seqStepIssue .. | .waitTimeout .. | .kvAccept .. | .kvComplete .. | .kvPoolWaitEnd ..
  | .collChunkReceive .. | .collAck .. | .collChunkTimeout .. | .collComplete .. | .journalWriteAttempt .. | .commitRecord ..
  | .resoleApply .. | .trapEntry .. | .watchdog .. | .continuationPlace .. | .ageing .. | .placementBound .. | .waitWake ..
  | .preemptRequest .. | .preemptSaveComplete .. | .saveDeadline .. | .frameRestore .. | .migrationRequest .. | .migrationStop ..
  | .migrationFallback .. | .kick .. | .map .. | .park .. | .parkComplete .. | .resume .. | .unmap .. | .packetFetch ..
  | .nopPacket .. | .launch .. | .gang .. | .gangRetry .. | .gangBound .. | .signal .. | .waittlPacket ..
  | .waittlPacketTimeout .. | .btePacket .. | .kill .. | .killComplete .. | .fencePacket .. | .marker .. | .open_ .. | .close ..
  | .buffers .. | .send .. | .packetComplete .. | .tladd .. | .tlbiRange .. | .tlbiAsid .. | .tlbiGlobalRange | .tlbiAll
  | .tlbiReserved .. | .tlbiComplete | .pin .. | .unpin .. | .pinComplete .. | .lcidMapWrite .. | .scanRequest ..
  | .scanComplete .. | .suspack .. | .apply | .errorDetected .. | .tileIdleRet .. | .tileIdleOff .. | .tileWakeComplete ..
  | .targetActive | .targetListen | .targetDormant | .wakeComplete | .alarm | .thermalWarn .. | .thermalThrottle ..
  | .throttleEnd .. | .thermalTrip .. | .powerCap | .powerLoss | .coldStart .. | .install | .advance | .attest | .tcmopen
  | .securityCommandComplete .. | .h2fdbWrite .. | .f2hdbWrite .. | .hostRead .. | .hostWrite .. | .hostAtomic ..
  | .hostCompletion .. | .hostLinkTimeout .. | .hivtEnable .. | .ethFrameReceive .. | .tustep .. | .rtpPacketReceive ..
  | .frameStart .. | .frameDeadline .. | .frameTransmit .. | .traceResume .. | .monitorClear .. | .registerWrite ..
  | .ethLinkChange .. | .hostLinkTraining .. | .powerCapRelease | .trippedTileCooled .. | .accstLand ..
  | .monitorTemperatureSample .. => none
  | .add .. | .sub .. | .and_ .. | .or_ .. | .xor_ .. | .shl .. | .shr .. | .sra .. | .minS .. | .minZ .. | .maxS .. | .maxZ ..
  | .mul .. | .mulhS .. | .mulhZ .. | .divS .. | .divZ .. | .remS .. | .remZ .. | .clz .. | .ctz .. | .popc .. | .bext ..
  | .bins .. | .addsh .. | .sel .. | .addi .. | .andi .. | .ori .. | .xori .. | .shli .. | .shri .. | .srai .. | .movi ..
  | .movh .. | .cmpEq .. | .cmpNe .. | .cmpLtS .. | .cmpLtZ .. | .cmpGeS .. | .cmpGeZ .. | .pand .. | .por .. | .pxor ..
  | .pandn .. | .pmov .. | .pset .. | .bra .. | .call .. | .brar .. | .ret .. | .loop .. | .ctlr .. | .ctlw .. | .ctlx ..
  | .trap .. | .eret .. | .snapst .. | .snaprel .. | .suspend .. | .yield .. | .halt .. | .waittl .. | .waittlSusp .. | .sigtl .. => some 0
  | .ldB .. | .ldBs .. | .ldH .. | .ldHs .. | .ldW .. | .ldWs .. | .ldD .. | .stB .. | .stH .. | .stW .. | .stD .. | .vld ..
  | .vlds .. | .vldRun .. | .vst .. | .vstRun .. | .tagrd .. | .tagwr .. | .prefL1 .. | .prefL2 .. | .cflush .. | .cinv ..
  | .osclaim .. | .osclaimT .. | .osrel .. | .mma .. | .mmaz .. | .accrd .. | .accwr .. | .accz .. | .accst .. | .efrw ..
  | .ctwr .. | .spswap .. | .amoAdd .. | .amoAnd .. | .amoOr .. | .amoXor .. | .amoMinS .. | .amoMaxS .. | .amoXchg ..
  | .amoCas .. | .lda .. | .stl .. | .fence .. | .xfence .. | .waitv .. | .waitvS .. => some 2
  | .vmov .. | .vsplat .. | .viota .. | .vextr .. | .vins .. | .vadd .. | .vsub .. | .vmul .. | .vfma .. | .vfms .. | .vmin ..
  | .vmax .. | .vdiv .. | .vaddBcast .. | .vsubBcast .. | .vmulBcast .. | .vminBcast .. | .vmaxBcast .. | .vdivBcast ..
  | .viaddBcast .. | .visubBcast .. | .vimulBcast .. | .vandBcast .. | .vorBcast .. | .vxorBcast .. | .vshlBcast ..
  | .vshrBcast .. | .vabs .. | .vneg .. | .vrcp .. | .vrsq .. | .vsqrt .. | .vexp2 .. | .vlog2 .. | .viadd .. | .visub ..
  | .vimul .. | .vand .. | .vor .. | .vxor .. | .vshl .. | .vshr .. | .vcmpEq .. | .vcmpNe .. | .vcmpLt .. | .vcmpLe ..
  | .vcmpGt .. | .vcmpGe .. | .vcmpUn .. | .vsel .. | .vcvtFi .. | .vcvtFit .. | .vcvtIf .. | .vcvtFb .. | .vcvtFt8 ..
  | .vcvtFt6 .. | .vredSum .. | .vredMax .. | .vredMin .. | .vrrowSum .. | .vrrowMax .. | .vrrowMin .. | .vscanSum ..
  | .vscanMax .. | .vscanMin .. | .vcnt .. | .vocc .. | .vrcoal .. | .vreshape .. | .vbrow .. | .vbcol .. | .vperm .. | .patld ..
  | .patsw .. | .vattc .. => some 1
  | .cpy .. | .cpyMma .. | .cpyg .. | .cpys .. | .cpyw .. | .bte .. | .barInit .. | .barLink .. | .barExp .. | .barArr ..
  | .barWait .. | .barWaitS .. | .barTest .. | .barStat .. | .seqMma .. | .seqCpy .. | .kvwalk .. | .kvapp .. | .kvcommit ..
  | .kvfork .. | .kvroll .. | .kvsplice .. | .kvprov .. | .repairM .. | .repairI .. | .repstat .. | .attq .. | .attqRo ..
  | .collPut .. | .collGet .. | .collAdd .. | .collMax .. | .collMin .. | .rsbegin .. | .rswrite .. | .rscommit .. | .rsabort ..
  | .rsstat .. => some 3

/-- The rows that are slot instructions of a bundle (NOP among them); the others are device steps. -/
def Instr.isSlot (i : Instr) : Bool := i == .nop || i.pos.isSome

/-- The register names of R276 that a bundle can write. -/
inductive RegName where
  | s (i : BitVec 6)
  | p (i : BitVec 3)
  | v (i : BitVec 5)
  deriving DecidableEq, Repr

/-- R302: the registers an instruction names as destinations. -/
def Instr.dests : Instr → List RegName
  | .add d _ _ _ => [.s d]
  | .sub d _ _ _ => [.s d]
  | .and_ d _ _ _ => [.s d]
  | .or_ d _ _ _ => [.s d]
  | .xor_ d _ _ _ => [.s d]
  | .shl d _ _ _ => [.s d]
  | .shr d _ _ _ => [.s d]
  | .sra d _ _ _ => [.s d]
  | .minS d _ _ _ => [.s d]
  | .minZ d _ _ _ => [.s d]
  | .maxS d _ _ _ => [.s d]
  | .maxZ d _ _ _ => [.s d]
  | .mul d _ _ _ => [.s d]
  | .mulhS d _ _ _ => [.s d]
  | .mulhZ d _ _ _ => [.s d]
  | .divS d _ _ _ => [.s d]
  | .divZ d _ _ _ => [.s d]
  | .remS d _ _ _ => [.s d]
  | .remZ d _ _ _ => [.s d]
  | .clz d _ _ => [.s d]
  | .ctz d _ _ => [.s d]
  | .popc d _ _ => [.s d]
  | .bext d _ _ _ => [.s d]
  | .bins d _ _ _ => [.s d]
  | .addsh d _ _ _ _ => [.s d]
  | .sel d _ _ _ _ => [.s d]
  | .addi d _ _ _ => [.s d]
  | .andi d _ _ _ => [.s d]
  | .ori d _ _ _ => [.s d]
  | .xori d _ _ _ => [.s d]
  | .shli d _ _ _ => [.s d]
  | .shri d _ _ _ => [.s d]
  | .srai d _ _ _ => [.s d]
  | .movi d _ _ => [.s d]
  | .movh d _ _ => [.s d]
  | .cmpEq pd _ _ _ => [.p pd]
  | .cmpNe pd _ _ _ => [.p pd]
  | .cmpLtS pd _ _ _ => [.p pd]
  | .cmpLtZ pd _ _ _ => [.p pd]
  | .cmpGeS pd _ _ _ => [.p pd]
  | .cmpGeZ pd _ _ _ => [.p pd]
  | .pand pd _ _ _ => [.p pd]
  | .por pd _ _ _ => [.p pd]
  | .pxor pd _ _ _ => [.p pd]
  | .pandn pd _ _ _ => [.p pd]
  | .pmov pd _ _ => [.p pd]
  | .pset pd _ _ => [.p pd]
  | .call _ _ => [.s 62#6]
  | .ctlr d _ => [.s d]
  | .ctlx d _ _ => [.s d]
  | .ldB d _ _ _ _ => [.s d]
  | .ldBs d _ _ _ _ => [.s d]
  | .ldH d _ _ _ _ => [.s d]
  | .ldHs d _ _ _ _ => [.s d]
  | .ldW d _ _ _ _ => [.s d]
  | .ldWs d _ _ _ _ => [.s d]
  | .ldD d _ _ _ _ => [.s d]
  | .vmov vd _ _ _ _ => [.v vd]
  | .vsplat vd _ _ _ _ => [.v vd]
  | .viota vd _ _ _ => [.v vd]
  | .vextr sd _ _ _ => [.s sd]
  | .vins vd _ _ _ => [.v vd]
  | .vadd vd _ _ _ _ _ => [.v vd]
  | .vsub vd _ _ _ _ _ => [.v vd]
  | .vmul vd _ _ _ _ _ => [.v vd]
  | .vfma vd _ _ _ _ => [.v vd]
  | .vfms vd _ _ _ _ => [.v vd]
  | .vmin vd _ _ _ _ _ => [.v vd]
  | .vmax vd _ _ _ _ _ => [.v vd]
  | .vdiv vd _ _ _ _ _ => [.v vd]
  | .vaddBcast vd _ _ _ _ _ => [.v vd]
  | .vsubBcast vd _ _ _ _ _ => [.v vd]
  | .vmulBcast vd _ _ _ _ _ => [.v vd]
  | .vminBcast vd _ _ _ _ _ => [.v vd]
  | .vmaxBcast vd _ _ _ _ _ => [.v vd]
  | .vdivBcast vd _ _ _ _ _ => [.v vd]
  | .viaddBcast vd _ _ _ _ _ => [.v vd]
  | .visubBcast vd _ _ _ _ _ => [.v vd]
  | .vimulBcast vd _ _ _ _ _ => [.v vd]
  | .vandBcast vd _ _ _ _ _ => [.v vd]
  | .vorBcast vd _ _ _ _ _ => [.v vd]
  | .vxorBcast vd _ _ _ _ _ => [.v vd]
  | .vshlBcast vd _ _ _ _ _ => [.v vd]
  | .vshrBcast vd _ _ _ _ _ => [.v vd]
  | .vabs vd _ _ _ _ => [.v vd]
  | .vneg vd _ _ _ _ => [.v vd]
  | .vrcp vd _ _ _ _ => [.v vd]
  | .vrsq vd _ _ _ _ => [.v vd]
  | .vsqrt vd _ _ _ _ => [.v vd]
  | .vexp2 vd _ _ _ _ => [.v vd]
  | .vlog2 vd _ _ _ _ => [.v vd]
  | .viadd vd _ _ _ _ _ => [.v vd]
  | .visub vd _ _ _ _ _ => [.v vd]
  | .vimul vd _ _ _ _ _ => [.v vd]
  | .vand vd _ _ _ _ _ => [.v vd]
  | .vor vd _ _ _ _ _ => [.v vd]
  | .vxor vd _ _ _ _ _ => [.v vd]
  | .vshl vd _ _ _ _ _ => [.v vd]
  | .vshr vd _ _ _ _ _ => [.v vd]
  | .vcmpEq vd _ _ _ => [.v vd]
  | .vcmpNe vd _ _ _ => [.v vd]
  | .vcmpLt vd _ _ _ => [.v vd]
  | .vcmpLe vd _ _ _ => [.v vd]
  | .vcmpGt vd _ _ _ => [.v vd]
  | .vcmpGe vd _ _ _ => [.v vd]
  | .vcmpUn vd _ _ _ => [.v vd]
  | .vsel vd _ _ _ _ => [.v vd]
  | .vcvtFi vd _ _ _ _ => [.v vd]
  | .vcvtFit vd _ _ _ _ => [.v vd]
  | .vcvtIf vd _ _ _ _ => [.v vd]
  | .vcvtFb vd _ _ _ _ => [.v vd]
  | .vcvtFt8 vd _ _ _ _ => [.v vd]
  | .vcvtFt6 vd _ _ _ _ => [.v vd]
  | .vredSum vd _ _ => [.v vd]
  | .vredMax vd _ _ => [.v vd]
  | .vredMin vd _ _ => [.v vd]
  | .vrrowSum vd _ _ => [.v vd]
  | .vrrowMax vd _ _ => [.v vd]
  | .vrrowMin vd _ _ => [.v vd]
  | .vscanSum vd _ _ => [.v vd]
  | .vscanMax vd _ _ => [.v vd]
  | .vscanMin vd _ _ => [.v vd]
  | .vcnt sd _ _ => [.s sd]
  | .vocc sd _ _ => [.s sd]
  | .vrcoal vd _ _ _ => [.v vd]
  | .vreshape vd _ _ => [.v vd]
  | .vbrow vd _ _ => [.v vd]
  | .vbcol vd _ _ => [.v vd]
  | .vperm vd _ _ _ => [.v vd]
  | .vattc vd _ _ _ => [.v vd]
  | .vld v _ _ _ _ _ => [.v v]
  | .vlds v _ _ _ _ _ => [.v v]
  | .vldRun v _ _ _ _ => [.v v]
  | .tagrd d _ _ _ => [.s d]
  | .accrd v _ _ _ _ => [.v v]
  | .barTest _ _ d _ => [.s d]
  | .barStat _ _ d _ => [.s d]
  | .amoAdd d _ _ _ _ _ => [.s d]
  | .amoAnd d _ _ _ _ _ => [.s d]
  | .amoOr d _ _ _ _ _ => [.s d]
  | .amoXor d _ _ _ _ _ => [.s d]
  | .amoMinS d _ _ _ _ _ => [.s d]
  | .amoMaxS d _ _ _ _ _ => [.s d]
  | .amoXchg d _ _ _ _ _ => [.s d]
  | .amoCas d _ _ _ _ _ => [.s d]
  | .lda d _ _ _ => [.s d]
  | .kvwalk _ _ c _ => [.s c]
  | .kvapp _ _ c _ => [.s c]
  | .kvcommit c _ => [.s c]
  | .repairM _ _ c _ => [.s c]
  | .repairI _ _ c _ => [.s c]
  | .repstat c _ => [.s c]
  | .attq _ _ c _ => [.s c]
  | .attqRo _ _ c _ => [.s c]
  | .collPut _ _ c _ => [.s c]
  | .collGet _ _ c _ => [.s c]
  | .collAdd _ _ c _ => [.s c]
  | .collMax _ _ c _ => [.s c]
  | .collMin _ _ c _ => [.s c]
  | .rsbegin _ c _ => [.s c]
  | .rscommit _ c _ => [.s c]
  | .rsstat _ _ c _ => [.s c]
  | _ => []

/-- R277: whether an instruction owns a parameter block. -/
def Instr.ownsBlock : Instr → Bool
  | .vld _ _ _ _ pb _ => pb == 1#1
  | .vlds _ _ _ _ pb _ => pb == 1#1
  | .vldRun _ _ _ pb _ => pb == 1#1
  | .vst _ _ _ _ pb _ => pb == 1#1
  | .vstRun _ _ _ pb _ => pb == 1#1
  | .accst _ _ _ _ => true
  | .cpy _ _ _ _ _ => true
  | .cpyMma _ _ _ _ _ _ _ _ => true
  | .cpyg _ _ _ _ _ => true
  | .cpys _ _ _ _ _ => true
  | .cpyw _ _ _ _ => true
  | .seqMma _ _ _ _ => true
  | .seqCpy _ _ _ _ => true
  | .kvapp _ _ _ _ => true
  | .repairM _ _ _ _ => true
  | .repairI _ _ _ _ => true
  | .attq _ _ _ _ => true
  | .attqRo _ _ _ _ => true
  | .collPut _ _ _ _ => true
  | .collGet _ _ _ _ => true
  | .collAdd _ _ _ _ => true
  | .collMax _ _ _ _ => true
  | .collMin _ _ _ _ => true
  | _ => false

/-- The instructions after which the seat leaves its program once the other slots of the bundle have taken effect (R323,
R327, R328, R393): the step runs them after the other slots. -/
def Instr.leaves : Instr → Bool
  | .trap _ _ => true
  | .suspend _ => true
  | .yield _ => true
  | .halt _ => true
  | .barWait _ _ tr _ => tr == 1#1
  | .barWaitS _ _ tr _ => tr == 1#1
  | _ => false

/-- R271: the guard field of an instruction; p0 where its format has none. -/
def Instr.guard : Instr → BitVec 4
  | .add _ _ _ g => g
  | .sub _ _ _ g => g
  | .and_ _ _ _ g => g
  | .or_ _ _ _ g => g
  | .xor_ _ _ _ g => g
  | .shl _ _ _ g => g
  | .shr _ _ _ g => g
  | .sra _ _ _ g => g
  | .minS _ _ _ g => g
  | .minZ _ _ _ g => g
  | .maxS _ _ _ g => g
  | .maxZ _ _ _ g => g
  | .mul _ _ _ g => g
  | .mulhS _ _ _ g => g
  | .mulhZ _ _ _ g => g
  | .divS _ _ _ g => g
  | .divZ _ _ _ g => g
  | .remS _ _ _ g => g
  | .remZ _ _ _ g => g
  | .clz _ _ g => g
  | .ctz _ _ g => g
  | .popc _ _ g => g
  | .bext _ _ _ g => g
  | .bins _ _ _ g => g
  | .addsh _ _ _ _ g => g
  | .sel _ _ _ _ g => g
  | .addi _ _ _ g => g
  | .andi _ _ _ g => g
  | .ori _ _ _ g => g
  | .xori _ _ _ g => g
  | .shli _ _ _ g => g
  | .shri _ _ _ g => g
  | .srai _ _ _ g => g
  | .movi _ _ g => g
  | .movh _ _ g => g
  | .cmpEq _ _ _ g => g
  | .cmpNe _ _ _ g => g
  | .cmpLtS _ _ _ g => g
  | .cmpLtZ _ _ _ g => g
  | .cmpGeS _ _ _ g => g
  | .cmpGeZ _ _ _ g => g
  | .pand _ _ _ g => g
  | .por _ _ _ g => g
  | .pxor _ _ _ g => g
  | .pandn _ _ _ g => g
  | .pmov _ _ g => g
  | .pset _ _ g => g
  | .bra _ g => g
  | .call _ g => g
  | .brar _ g => g
  | .ret g => g
  | .trap _ g => g
  | .eret g => g
  | .snapst g => g
  | .snaprel g => g
  | .suspend g => g
  | .yield g => g
  | .halt g => g
  | .waittl _ _ _ g => g
  | .waittlSusp _ _ _ g => g
  | .sigtl _ _ g => g
  | .ldB _ _ _ _ g => g
  | .ldBs _ _ _ _ g => g
  | .ldH _ _ _ _ g => g
  | .ldHs _ _ _ _ g => g
  | .ldW _ _ _ _ g => g
  | .ldWs _ _ _ _ g => g
  | .ldD _ _ _ _ g => g
  | .stB _ _ _ _ g => g
  | .stH _ _ _ _ g => g
  | .stW _ _ _ _ g => g
  | .stD _ _ _ _ g => g
  | .vmov _ _ _ _ g => g
  | .vsplat _ _ _ _ g => g
  | .viota _ _ _ g => g
  | .vextr _ _ _ g => g
  | .vins _ _ _ g => g
  | .vadd _ _ _ _ _ g => g
  | .vsub _ _ _ _ _ g => g
  | .vmul _ _ _ _ _ g => g
  | .vfma _ _ _ _ g => g
  | .vfms _ _ _ _ g => g
  | .vmin _ _ _ _ _ g => g
  | .vmax _ _ _ _ _ g => g
  | .vdiv _ _ _ _ _ g => g
  | .vaddBcast _ _ _ _ _ g => g
  | .vsubBcast _ _ _ _ _ g => g
  | .vmulBcast _ _ _ _ _ g => g
  | .vminBcast _ _ _ _ _ g => g
  | .vmaxBcast _ _ _ _ _ g => g
  | .vdivBcast _ _ _ _ _ g => g
  | .viaddBcast _ _ _ _ _ g => g
  | .visubBcast _ _ _ _ _ g => g
  | .vimulBcast _ _ _ _ _ g => g
  | .vandBcast _ _ _ _ _ g => g
  | .vorBcast _ _ _ _ _ g => g
  | .vxorBcast _ _ _ _ _ g => g
  | .vshlBcast _ _ _ _ _ g => g
  | .vshrBcast _ _ _ _ _ g => g
  | .vabs _ _ _ _ g => g
  | .vneg _ _ _ _ g => g
  | .vrcp _ _ _ _ g => g
  | .vrsq _ _ _ _ g => g
  | .vsqrt _ _ _ _ g => g
  | .vexp2 _ _ _ _ g => g
  | .vlog2 _ _ _ _ g => g
  | .viadd _ _ _ _ _ g => g
  | .visub _ _ _ _ _ g => g
  | .vimul _ _ _ _ _ g => g
  | .vand _ _ _ _ _ g => g
  | .vor _ _ _ _ _ g => g
  | .vxor _ _ _ _ _ g => g
  | .vshl _ _ _ _ _ g => g
  | .vshr _ _ _ _ _ g => g
  | .vcmpEq _ _ _ g => g
  | .vcmpNe _ _ _ g => g
  | .vcmpLt _ _ _ g => g
  | .vcmpLe _ _ _ g => g
  | .vcmpGt _ _ _ g => g
  | .vcmpGe _ _ _ g => g
  | .vcmpUn _ _ _ g => g
  | .vsel _ _ _ _ g => g
  | .vcvtFi _ _ _ _ g => g
  | .vcvtFit _ _ _ _ g => g
  | .vcvtIf _ _ _ _ g => g
  | .vcvtFb _ _ _ _ g => g
  | .vcvtFt8 _ _ _ _ g => g
  | .vcvtFt6 _ _ _ _ g => g
  | .vredSum _ _ g => g
  | .vredMax _ _ g => g
  | .vredMin _ _ g => g
  | .vrrowSum _ _ g => g
  | .vrrowMax _ _ g => g
  | .vrrowMin _ _ g => g
  | .vscanSum _ _ g => g
  | .vscanMax _ _ g => g
  | .vscanMin _ _ g => g
  | .vcnt _ _ g => g
  | .vocc _ _ g => g
  | .vrcoal _ _ _ g => g
  | .vreshape _ _ g => g
  | .vbrow _ _ g => g
  | .vbcol _ _ g => g
  | .vperm _ _ _ g => g
  | .patld _ _ g => g
  | .patsw g => g
  | .vattc _ _ _ g => g
  | .vld _ _ _ _ _ g => g
  | .vlds _ _ _ _ _ g => g
  | .vldRun _ _ _ _ g => g
  | .vst _ _ _ _ _ g => g
  | .vstRun _ _ _ _ g => g
  | .tagrd _ _ _ g => g
  | .tagwr _ _ _ g => g
  | .osclaim _ g => g
  | .osclaimT _ g => g
  | .osrel _ g => g
  | .mma _ _ _ _ g => g
  | .mmaz _ _ _ _ g => g
  | .accrd _ _ _ _ g => g
  | .accwr _ _ _ g => g
  | .accz _ g => g
  | .accst _ _ _ g => g
  | .efrw _ g => g
  | .ctwr _ _ g => g
  | .spswap g => g
  | .cpy _ _ _ _ g => g
  | .cpyMma _ _ _ _ _ _ _ g => g
  | .cpyg _ _ _ _ g => g
  | .cpys _ _ _ _ g => g
  | .cpyw _ _ _ g => g
  | .barInit _ _ _ g => g
  | .barLink _ _ g => g
  | .barExp _ _ g => g
  | .barArr _ g => g
  | .barWait _ _ _ g => g
  | .barWaitS _ _ _ g => g
  | .barTest _ _ _ g => g
  | .barStat _ _ _ g => g
  | .seqMma _ _ _ g => g
  | .seqCpy _ _ _ g => g
  | .fence _ _ g => g
  | .xfence _ _ _ g => g
  | .kvwalk _ _ _ g => g
  | .kvapp _ _ _ g => g
  | .kvcommit _ g => g
  | .kvfork _ g => g
  | .kvroll _ g => g
  | .kvsplice _ _ _ g => g
  | .kvprov _ _ g => g
  | .repairM _ _ _ g => g
  | .repairI _ _ _ g => g
  | .repstat _ g => g
  | .attq _ _ _ g => g
  | .attqRo _ _ _ g => g
  | .collPut _ _ _ g => g
  | .collGet _ _ _ g => g
  | .collAdd _ _ _ g => g
  | .collMax _ _ _ g => g
  | .collMin _ _ _ g => g
  | .rsbegin _ _ g => g
  | .rswrite _ _ _ g => g
  | .rscommit _ _ g => g
  | .rsabort _ g => g
  | .rsstat _ _ _ g => g
  | _ => 0#4

end Sys2Proof
end

