-- ==== Sys2Proof/Decode.lean ====
section
/-! DEFINITION. The decoder: from the 128 bits of a bundle to its header and four slot instructions (R264 to R276, R291 to
R294), total, refusing by name; after it the encoder, written from the same tables. Device steps have no encoding: no rule
of spec/ gives them one. -/

namespace Sys2Proof

/-- Why a slot does not decode (R266). -/
inductive DecodeError where
  /-- A major opcode that is unassigned in its position (R265, R291 to R294). -/
  | unassignedMajor (pos : Nat) (major : BitVec 6)
  /-- A sub-field value that the map does not list, or a nonzero bit in a field marked 0 (R266). -/
  | subField (pos : Nat) (major : BitVec 6)
  /-- Nonzero lent bits for an instruction that takes no extension (R269), or a header with a bit marked 0 set. -/
  | lentBits (pos : Nat)
  /-- One register named as a destination twice (R302). -/
  | duplicateDest (pos : Nat)
  /-- Fewer than sixteen bytes. -/
  | short
  deriving DecidableEq, Repr

/-- R266: the position that CAUSE.SLOT names. -/
def DecodeError.slot : DecodeError → Nat
  | .unassignedMajor p _ => p
  | .subField p _ => p
  | .lentBits p => p
  | .duplicateDest p => p
  | .short => 0

/-- R267: the header of a bundle. -/
structure Header where
  b : BitVec 1
  t1 : BitVec 3
  t2 : BitVec 3
  t3 : BitVec 3
  x1 : BitVec 4
  x2 : BitVec 4
  x3 : BitVec 4
  deriving DecidableEq, Repr

/-- A decoded bundle: its header, if it has one, and the instruction of each position. -/
structure Bundle where
  hdr : Option Header
  s : Instr
  v : Instr
  m : Instr
  c : Instr
  deriving DecidableEq, Repr

/-- The field of n bits at bit lo (R10). -/
def fld (w : W32) (lo n : Nat) : BitVec n := w.extractLsb' lo n

/-- R269: the effective immediate of the ML format. -/
def mlImm (x : Option (BitVec 4)) (imm9 : BitVec 9) : BitVec 13 :=
  match x with
  | some x2 => x2 ++ imm9
  | none => imm9.signExtend 13

/-- An instruction whose own fields must satisfy R266 as well. -/
def checked (pos : Nat) (w : W32) (i : Instr) : Except DecodeError Instr :=
  if i.wf then .ok i else .error (.subField pos (fld w 26 6))

/-- Position S, major 0x01. -/
def decodeS01 (w : W32) : Except DecodeError Instr :=
  if fld w 4 4 = 0#4 then .ok (.add (fld w 20 6) (fld w 14 6) (fld w 8 6) (fld w 0 4)) else
  if fld w 4 4 = 1#4 then .ok (.sub (fld w 20 6) (fld w 14 6) (fld w 8 6) (fld w 0 4)) else
  if fld w 4 4 = 2#4 then .ok (.and_ (fld w 20 6) (fld w 14 6) (fld w 8 6) (fld w 0 4)) else
  if fld w 4 4 = 3#4 then .ok (.or_ (fld w 20 6) (fld w 14 6) (fld w 8 6) (fld w 0 4)) else
  if fld w 4 4 = 4#4 then .ok (.xor_ (fld w 20 6) (fld w 14 6) (fld w 8 6) (fld w 0 4)) else
  if fld w 4 4 = 5#4 then .ok (.shl (fld w 20 6) (fld w 14 6) (fld w 8 6) (fld w 0 4)) else
  if fld w 4 4 = 6#4 then .ok (.shr (fld w 20 6) (fld w 14 6) (fld w 8 6) (fld w 0 4)) else
  if fld w 4 4 = 7#4 then .ok (.sra (fld w 20 6) (fld w 14 6) (fld w 8 6) (fld w 0 4)) else
  if fld w 4 4 = 8#4 then .ok (.minS (fld w 20 6) (fld w 14 6) (fld w 8 6) (fld w 0 4)) else
  if fld w 4 4 = 9#4 then .ok (.minZ (fld w 20 6) (fld w 14 6) (fld w 8 6) (fld w 0 4)) else
  if fld w 4 4 = 10#4 then .ok (.maxS (fld w 20 6) (fld w 14 6) (fld w 8 6) (fld w 0 4)) else
  if fld w 4 4 = 11#4 then .ok (.maxZ (fld w 20 6) (fld w 14 6) (fld w 8 6) (fld w 0 4)) else
  if fld w 4 4 = 12#4 then .ok (.mul (fld w 20 6) (fld w 14 6) (fld w 8 6) (fld w 0 4)) else
  if fld w 4 4 = 13#4 then .ok (.mulhS (fld w 20 6) (fld w 14 6) (fld w 8 6) (fld w 0 4)) else
  if fld w 4 4 = 14#4 then .ok (.mulhZ (fld w 20 6) (fld w 14 6) (fld w 8 6) (fld w 0 4)) else
  .error (.subField 0 (fld w 26 6))

/-- Position S, major 0x02. -/
def decodeS02 (w : W32) : Except DecodeError Instr :=
  if fld w 4 4 = 0#4 then .ok (.divS (fld w 20 6) (fld w 14 6) (fld w 8 6) (fld w 0 4)) else
  if fld w 4 4 = 1#4 then .ok (.divZ (fld w 20 6) (fld w 14 6) (fld w 8 6) (fld w 0 4)) else
  if fld w 4 4 = 2#4 then .ok (.remS (fld w 20 6) (fld w 14 6) (fld w 8 6) (fld w 0 4)) else
  if fld w 4 4 = 3#4 then .ok (.remZ (fld w 20 6) (fld w 14 6) (fld w 8 6) (fld w 0 4)) else
  .error (.subField 0 (fld w 26 6))

/-- Position S, major 0x03. -/
def decodeS03 (w : W32) : Except DecodeError Instr :=
  if fld w 8 6 = 0#6 ∧ fld w 4 4 = 0#4 then .ok (.clz (fld w 20 6) (fld w 14 6) (fld w 0 4)) else
  if fld w 8 6 = 0#6 ∧ fld w 4 4 = 1#4 then .ok (.ctz (fld w 20 6) (fld w 14 6) (fld w 0 4)) else
  if fld w 8 6 = 0#6 ∧ fld w 4 4 = 2#4 then .ok (.popc (fld w 20 6) (fld w 14 6) (fld w 0 4)) else
  if fld w 4 4 = 3#4 then .ok (.bext (fld w 20 6) (fld w 14 6) (fld w 8 6) (fld w 0 4)) else
  if fld w 4 4 = 4#4 then .ok (.bins (fld w 20 6) (fld w 14 6) (fld w 8 6) (fld w 0 4)) else
  .error (.subField 0 (fld w 26 6))

/-- Position S, major 0x04. -/
def decodeS04 (w : W32) : Except DecodeError Instr :=
  .ok (.addsh (fld w 20 6) (fld w 14 6) (fld w 8 6) (fld w 4 4) (fld w 0 4))

/-- Position S, major 0x05. -/
def decodeS05 (w : W32) : Except DecodeError Instr :=
  .ok (.sel (fld w 20 6) (fld w 14 6) (fld w 8 6) (fld w 4 4) (fld w 0 4))

/-- Position S, major 0x08. -/
def decodeS08 (w : W32) : Except DecodeError Instr :=
  .ok (.addi (fld w 20 6) (fld w 14 6) (fld w 4 10) (fld w 0 4))

/-- Position S, major 0x09. -/
def decodeS09 (w : W32) : Except DecodeError Instr :=
  .ok (.andi (fld w 20 6) (fld w 14 6) (fld w 4 10) (fld w 0 4))

/-- Position S, major 0x0A. -/
def decodeS0A (w : W32) : Except DecodeError Instr :=
  .ok (.ori (fld w 20 6) (fld w 14 6) (fld w 4 10) (fld w 0 4))

/-- Position S, major 0x0B. -/
def decodeS0B (w : W32) : Except DecodeError Instr :=
  .ok (.xori (fld w 20 6) (fld w 14 6) (fld w 4 10) (fld w 0 4))

/-- Position S, major 0x0C. -/
def decodeS0C (w : W32) : Except DecodeError Instr :=
  if fld w 10 4 = 0#4 then .ok (.shli (fld w 20 6) (fld w 14 6) (fld w 4 6) (fld w 0 4)) else
  .error (.subField 0 (fld w 26 6))

/-- Position S, major 0x0D. -/
def decodeS0D (w : W32) : Except DecodeError Instr :=
  if fld w 10 4 = 0#4 then .ok (.shri (fld w 20 6) (fld w 14 6) (fld w 4 6) (fld w 0 4)) else
  .error (.subField 0 (fld w 26 6))

/-- Position S, major 0x0E. -/
def decodeS0E (w : W32) : Except DecodeError Instr :=
  if fld w 10 4 = 0#4 then .ok (.srai (fld w 20 6) (fld w 14 6) (fld w 4 6) (fld w 0 4)) else
  .error (.subField 0 (fld w 26 6))

/-- Position S, major 0x10. -/
def decodeS10 (w : W32) : Except DecodeError Instr :=
  .ok (.movi (fld w 20 6) (fld w 4 16) (fld w 0 4))

/-- Position S, major 0x11. -/
def decodeS11 (w : W32) : Except DecodeError Instr :=
  .ok (.movh (fld w 20 6) (fld w 4 16) (fld w 0 4))

/-- Position S, major 0x14. -/
def decodeS14 (w : W32) : Except DecodeError Instr :=
  if fld w 25 1 = 0#1 ∧ fld w 7 3 = 0#3 ∧ fld w 4 3 = 0#3 then .ok (.cmpEq (fld w 22 3) (fld w 16 6) (fld w 10 6) (fld w 0 4)) else
  if fld w 25 1 = 0#1 ∧ fld w 7 3 = 1#3 ∧ fld w 4 3 = 0#3 then .ok (.cmpNe (fld w 22 3) (fld w 16 6) (fld w 10 6) (fld w 0 4)) else
  if fld w 25 1 = 0#1 ∧ fld w 7 3 = 2#3 ∧ fld w 4 3 = 0#3 then .ok (.cmpLtS (fld w 22 3) (fld w 16 6) (fld w 10 6) (fld w 0 4)) else
  if fld w 25 1 = 0#1 ∧ fld w 7 3 = 3#3 ∧ fld w 4 3 = 0#3 then .ok (.cmpLtZ (fld w 22 3) (fld w 16 6) (fld w 10 6) (fld w 0 4)) else
  if fld w 25 1 = 0#1 ∧ fld w 7 3 = 4#3 ∧ fld w 4 3 = 0#3 then .ok (.cmpGeS (fld w 22 3) (fld w 16 6) (fld w 10 6) (fld w 0 4)) else
  if fld w 25 1 = 0#1 ∧ fld w 7 3 = 5#3 ∧ fld w 4 3 = 0#3 then .ok (.cmpGeZ (fld w 22 3) (fld w 16 6) (fld w 10 6) (fld w 0 4)) else
  .error (.subField 0 (fld w 26 6))

/-- Position S, major 0x15. -/
def decodeS15 (w : W32) : Except DecodeError Instr :=
  if fld w 25 1 = 0#1 ∧ fld w 11 3 = 0#3 ∧ fld w 10 1 = 0#1 ∧ fld w 4 6 = 0#6 then .ok (.pand (fld w 22 3) (fld w 18 4) (fld w 14 4) (fld w 0 4)) else
  if fld w 25 1 = 0#1 ∧ fld w 11 3 = 1#3 ∧ fld w 10 1 = 0#1 ∧ fld w 4 6 = 0#6 then .ok (.por (fld w 22 3) (fld w 18 4) (fld w 14 4) (fld w 0 4)) else
  if fld w 25 1 = 0#1 ∧ fld w 11 3 = 2#3 ∧ fld w 10 1 = 0#1 ∧ fld w 4 6 = 0#6 then .ok (.pxor (fld w 22 3) (fld w 18 4) (fld w 14 4) (fld w 0 4)) else
  if fld w 25 1 = 0#1 ∧ fld w 11 3 = 3#3 ∧ fld w 10 1 = 0#1 ∧ fld w 4 6 = 0#6 then .ok (.pandn (fld w 22 3) (fld w 18 4) (fld w 14 4) (fld w 0 4)) else
  if fld w 25 1 = 0#1 ∧ fld w 14 4 = 0#4 ∧ fld w 11 3 = 4#3 ∧ fld w 10 1 = 0#1 ∧ fld w 4 6 = 0#6 then .ok (.pmov (fld w 22 3) (fld w 18 4) (fld w 0 4)) else
  if fld w 25 1 = 0#1 ∧ fld w 18 4 = 0#4 ∧ fld w 14 4 = 0#4 ∧ fld w 11 3 = 5#3 ∧ fld w 4 6 = 0#6 then .ok (.pset (fld w 22 3) (fld w 10 1) (fld w 0 4)) else
  .error (.subField 0 (fld w 26 6))

/-- Position S, major 0x18. -/
def decodeS18 (w : W32) : Except DecodeError Instr :=
  .ok (.bra (fld w 4 22) (fld w 0 4))

/-- Position S, major 0x19. -/
def decodeS19 (w : W32) : Except DecodeError Instr :=
  .ok (.call (fld w 4 22) (fld w 0 4))

/-- Position S, major 0x1A. -/
def decodeS1A (w : W32) : Except DecodeError Instr :=
  if fld w 20 6 = 0#6 ∧ fld w 8 6 = 0#6 ∧ fld w 4 4 = 0#4 then .ok (.brar (fld w 14 6) (fld w 0 4)) else
  .error (.subField 0 (fld w 26 6))

/-- Position S, major 0x1B. -/
def decodeS1B (w : W32) : Except DecodeError Instr :=
  if fld w 20 6 = 0#6 ∧ fld w 14 6 = 0#6 ∧ fld w 8 6 = 0#6 ∧ fld w 4 4 = 0#4 then .ok (.ret (fld w 0 4)) else
  .error (.subField 0 (fld w 26 6))

/-- Position S, major 0x1C. -/
def decodeS1C (w : W32) : Except DecodeError Instr :=
  if fld w 0 4 = 0#4 then checked 0 w (.loop (fld w 20 6) (fld w 17 3) (fld w 4 13)) else
  .error (.subField 0 (fld w 26 6))

/-- Position S, major 0x20. -/
def decodeS20 (w : W32) : Except DecodeError Instr :=
  if fld w 14 6 = 0#6 ∧ fld w 0 2 = 0#2 then checked 0 w (.ctlr (fld w 20 6) (fld w 2 12)) else
  if fld w 20 6 = 0#6 ∧ fld w 0 2 = 1#2 then checked 0 w (.ctlw (fld w 14 6) (fld w 2 12)) else
  if fld w 0 2 = 2#2 then checked 0 w (.ctlx (fld w 20 6) (fld w 14 6) (fld w 2 12)) else
  .error (.subField 0 (fld w 26 6))

/-- Position S, major 0x24. -/
def decodeS24 (w : W32) : Except DecodeError Instr :=
  if fld w 4 4 = 0#4 then .ok (.trap (fld w 8 18) (fld w 0 4)) else
  if fld w 8 18 = 0#18 ∧ fld w 4 4 = 1#4 then .ok (.eret (fld w 0 4)) else
  if fld w 8 18 = 0#18 ∧ fld w 4 4 = 2#4 then .ok (.snapst (fld w 0 4)) else
  if fld w 8 18 = 0#18 ∧ fld w 4 4 = 3#4 then .ok (.snaprel (fld w 0 4)) else
  if fld w 8 18 = 0#18 ∧ fld w 4 4 = 4#4 then .ok (.suspend (fld w 0 4)) else
  if fld w 8 18 = 0#18 ∧ fld w 4 4 = 5#4 then .ok (.yield (fld w 0 4)) else
  if fld w 8 18 = 0#18 ∧ fld w 4 4 = 6#4 then .ok (.halt (fld w 0 4)) else
  .error (.subField 0 (fld w 26 6))

/-- Position S, major 0x28. -/
def decodeS28 (w : W32) : Except DecodeError Instr :=
  if fld w 6 1 = 0#1 ∧ fld w 4 2 = 0#2 then checked 0 w (.waittl (fld w 20 6) (fld w 8 12) (fld w 7 1) (fld w 0 4)) else
  if fld w 6 1 = 1#1 ∧ fld w 4 2 = 0#2 then checked 0 w (.waittlSusp (fld w 20 6) (fld w 8 12) (fld w 7 1) (fld w 0 4)) else
  .error (.subField 0 (fld w 26 6))

/-- Position S, major 0x29. -/
def decodeS29 (w : W32) : Except DecodeError Instr :=
  if fld w 7 1 = 0#1 ∧ fld w 6 1 = 0#1 ∧ fld w 4 2 = 0#2 then checked 0 w (.sigtl (fld w 20 6) (fld w 8 12) (fld w 0 4)) else
  .error (.subField 0 (fld w 26 6))

/-- The instruction of position S (R291). -/
def decodeS (w : W32) : Except DecodeError Instr :=
  if w = 0#32 then .ok .nop else
  if fld w 26 6 = 1#6 then decodeS01 w else
  if fld w 26 6 = 2#6 then decodeS02 w else
  if fld w 26 6 = 3#6 then decodeS03 w else
  if fld w 26 6 = 4#6 then decodeS04 w else
  if fld w 26 6 = 5#6 then decodeS05 w else
  if fld w 26 6 = 8#6 then decodeS08 w else
  if fld w 26 6 = 9#6 then decodeS09 w else
  if fld w 26 6 = 10#6 then decodeS0A w else
  if fld w 26 6 = 11#6 then decodeS0B w else
  if fld w 26 6 = 12#6 then decodeS0C w else
  if fld w 26 6 = 13#6 then decodeS0D w else
  if fld w 26 6 = 14#6 then decodeS0E w else
  if fld w 26 6 = 16#6 then decodeS10 w else
  if fld w 26 6 = 17#6 then decodeS11 w else
  if fld w 26 6 = 20#6 then decodeS14 w else
  if fld w 26 6 = 21#6 then decodeS15 w else
  if fld w 26 6 = 24#6 then decodeS18 w else
  if fld w 26 6 = 25#6 then decodeS19 w else
  if fld w 26 6 = 26#6 then decodeS1A w else
  if fld w 26 6 = 27#6 then decodeS1B w else
  if fld w 26 6 = 28#6 then decodeS1C w else
  if fld w 26 6 = 32#6 then decodeS20 w else
  if fld w 26 6 = 36#6 then decodeS24 w else
  if fld w 26 6 = 40#6 then decodeS28 w else
  if fld w 26 6 = 41#6 then decodeS29 w else
  .error (.unassignedMajor 0 (fld w 26 6))

/-- Position V, major 0x01. -/
def decodeV01 (w : W32) : Except DecodeError Instr :=
  if fld w 11 5 = 0#5 ∧ fld w 4 1 = 0#1 then checked 1 w (.vmov (fld w 21 5) (fld w 16 5) (fld w 6 5) (fld w 5 1) (fld w 0 4)) else
  .error (.subField 1 (fld w 26 6))

/-- Position V, major 0x02. -/
def decodeV02 (w : W32) : Except DecodeError Instr :=
  if fld w 16 5 = 0#5 then checked 1 w (.vsplat (fld w 21 5) (fld w 10 6) (fld w 5 5) (fld w 4 1) (fld w 0 4)) else
  .error (.subField 1 (fld w 26 6))

/-- Position V, major 0x03. -/
def decodeV03 (w : W32) : Except DecodeError Instr :=
  if fld w 16 5 = 0#5 ∧ fld w 11 5 = 0#5 ∧ fld w 4 1 = 0#1 then checked 1 w (.viota (fld w 21 5) (fld w 6 5) (fld w 5 1) (fld w 0 4)) else
  .error (.subField 1 (fld w 26 6))

/-- Position V, major 0x04. -/
def decodeV04 (w : W32) : Except DecodeError Instr :=
  if fld w 4 1 = 0#1 then checked 1 w (.vadd (fld w 21 5) (fld w 16 5) (fld w 11 5) (fld w 6 5) (fld w 5 1) (fld w 0 4)) else
  .error (.subField 1 (fld w 26 6))

/-- Position V, major 0x05. -/
def decodeV05 (w : W32) : Except DecodeError Instr :=
  if fld w 4 1 = 0#1 then checked 1 w (.vsub (fld w 21 5) (fld w 16 5) (fld w 11 5) (fld w 6 5) (fld w 5 1) (fld w 0 4)) else
  .error (.subField 1 (fld w 26 6))

/-- Position V, major 0x06. -/
def decodeV06 (w : W32) : Except DecodeError Instr :=
  if fld w 4 1 = 0#1 then checked 1 w (.vmul (fld w 21 5) (fld w 16 5) (fld w 11 5) (fld w 6 5) (fld w 5 1) (fld w 0 4)) else
  .error (.subField 1 (fld w 26 6))

/-- Position V, major 0x07. -/
def decodeV07 (w : W32) : Except DecodeError Instr :=
  if fld w 5 1 = 0#1 ∧ fld w 4 1 = 0#1 then .ok (.vfma (fld w 21 5) (fld w 16 5) (fld w 11 5) (fld w 6 5) (fld w 0 4)) else
  .error (.subField 1 (fld w 26 6))

/-- Position V, major 0x08. -/
def decodeV08 (w : W32) : Except DecodeError Instr :=
  if fld w 5 1 = 0#1 ∧ fld w 4 1 = 0#1 then .ok (.vfms (fld w 21 5) (fld w 16 5) (fld w 11 5) (fld w 6 5) (fld w 0 4)) else
  .error (.subField 1 (fld w 26 6))

/-- Position V, major 0x09. -/
def decodeV09 (w : W32) : Except DecodeError Instr :=
  if fld w 4 1 = 0#1 then checked 1 w (.vmin (fld w 21 5) (fld w 16 5) (fld w 11 5) (fld w 6 5) (fld w 5 1) (fld w 0 4)) else
  .error (.subField 1 (fld w 26 6))

/-- Position V, major 0x0A. -/
def decodeV0A (w : W32) : Except DecodeError Instr :=
  if fld w 4 1 = 0#1 then checked 1 w (.vmax (fld w 21 5) (fld w 16 5) (fld w 11 5) (fld w 6 5) (fld w 5 1) (fld w 0 4)) else
  .error (.subField 1 (fld w 26 6))

/-- Position V, major 0x0B. -/
def decodeV0B (w : W32) : Except DecodeError Instr :=
  if fld w 4 1 = 0#1 then checked 1 w (.vdiv (fld w 21 5) (fld w 16 5) (fld w 11 5) (fld w 6 5) (fld w 5 1) (fld w 0 4)) else
  .error (.subField 1 (fld w 26 6))

/-- Position V, major 0x0C. -/
def decodeV0C (w : W32) : Except DecodeError Instr :=
  if fld w 11 5 = 0#5 ∧ fld w 4 1 = 0#1 then checked 1 w (.vabs (fld w 21 5) (fld w 16 5) (fld w 6 5) (fld w 5 1) (fld w 0 4)) else
  .error (.subField 1 (fld w 26 6))

/-- Position V, major 0x0D. -/
def decodeV0D (w : W32) : Except DecodeError Instr :=
  if fld w 11 5 = 0#5 ∧ fld w 4 1 = 0#1 then checked 1 w (.vneg (fld w 21 5) (fld w 16 5) (fld w 6 5) (fld w 5 1) (fld w 0 4)) else
  .error (.subField 1 (fld w 26 6))

/-- Position V, major 0x0E. -/
def decodeV0E (w : W32) : Except DecodeError Instr :=
  if fld w 11 5 = 0#5 ∧ fld w 4 1 = 0#1 then checked 1 w (.vrcp (fld w 21 5) (fld w 16 5) (fld w 6 5) (fld w 5 1) (fld w 0 4)) else
  .error (.subField 1 (fld w 26 6))

/-- Position V, major 0x0F. -/
def decodeV0F (w : W32) : Except DecodeError Instr :=
  if fld w 11 5 = 0#5 ∧ fld w 4 1 = 0#1 then checked 1 w (.vrsq (fld w 21 5) (fld w 16 5) (fld w 6 5) (fld w 5 1) (fld w 0 4)) else
  .error (.subField 1 (fld w 26 6))

/-- Position V, major 0x10. -/
def decodeV10 (w : W32) : Except DecodeError Instr :=
  if fld w 11 5 = 0#5 ∧ fld w 4 1 = 0#1 then checked 1 w (.vsqrt (fld w 21 5) (fld w 16 5) (fld w 6 5) (fld w 5 1) (fld w 0 4)) else
  .error (.subField 1 (fld w 26 6))

/-- Position V, major 0x11. -/
def decodeV11 (w : W32) : Except DecodeError Instr :=
  if fld w 11 5 = 0#5 ∧ fld w 4 1 = 0#1 then checked 1 w (.vexp2 (fld w 21 5) (fld w 16 5) (fld w 6 5) (fld w 5 1) (fld w 0 4)) else
  .error (.subField 1 (fld w 26 6))

/-- Position V, major 0x12. -/
def decodeV12 (w : W32) : Except DecodeError Instr :=
  if fld w 11 5 = 0#5 ∧ fld w 4 1 = 0#1 then checked 1 w (.vlog2 (fld w 21 5) (fld w 16 5) (fld w 6 5) (fld w 5 1) (fld w 0 4)) else
  .error (.subField 1 (fld w 26 6))

/-- Position V, major 0x13. -/
def decodeV13 (w : W32) : Except DecodeError Instr :=
  if fld w 4 1 = 0#1 then checked 1 w (.viadd (fld w 21 5) (fld w 16 5) (fld w 11 5) (fld w 6 5) (fld w 5 1) (fld w 0 4)) else
  .error (.subField 1 (fld w 26 6))

/-- Position V, major 0x14. -/
def decodeV14 (w : W32) : Except DecodeError Instr :=
  if fld w 4 1 = 0#1 then checked 1 w (.visub (fld w 21 5) (fld w 16 5) (fld w 11 5) (fld w 6 5) (fld w 5 1) (fld w 0 4)) else
  .error (.subField 1 (fld w 26 6))

/-- Position V, major 0x15. -/
def decodeV15 (w : W32) : Except DecodeError Instr :=
  if fld w 4 1 = 0#1 then checked 1 w (.vimul (fld w 21 5) (fld w 16 5) (fld w 11 5) (fld w 6 5) (fld w 5 1) (fld w 0 4)) else
  .error (.subField 1 (fld w 26 6))

/-- Position V, major 0x16. -/
def decodeV16 (w : W32) : Except DecodeError Instr :=
  if fld w 4 1 = 0#1 then checked 1 w (.vand (fld w 21 5) (fld w 16 5) (fld w 11 5) (fld w 6 5) (fld w 5 1) (fld w 0 4)) else
  .error (.subField 1 (fld w 26 6))

/-- Position V, major 0x17. -/
def decodeV17 (w : W32) : Except DecodeError Instr :=
  if fld w 4 1 = 0#1 then checked 1 w (.vor (fld w 21 5) (fld w 16 5) (fld w 11 5) (fld w 6 5) (fld w 5 1) (fld w 0 4)) else
  .error (.subField 1 (fld w 26 6))

/-- Position V, major 0x18. -/
def decodeV18 (w : W32) : Except DecodeError Instr :=
  if fld w 4 1 = 0#1 then checked 1 w (.vxor (fld w 21 5) (fld w 16 5) (fld w 11 5) (fld w 6 5) (fld w 5 1) (fld w 0 4)) else
  .error (.subField 1 (fld w 26 6))

/-- Position V, major 0x19. -/
def decodeV19 (w : W32) : Except DecodeError Instr :=
  if fld w 4 1 = 0#1 then checked 1 w (.vshl (fld w 21 5) (fld w 16 5) (fld w 11 5) (fld w 6 5) (fld w 5 1) (fld w 0 4)) else
  .error (.subField 1 (fld w 26 6))

/-- Position V, major 0x1A. -/
def decodeV1A (w : W32) : Except DecodeError Instr :=
  if fld w 4 1 = 0#1 then checked 1 w (.vshr (fld w 21 5) (fld w 16 5) (fld w 11 5) (fld w 6 5) (fld w 5 1) (fld w 0 4)) else
  .error (.subField 1 (fld w 26 6))

/-- Position V, major 0x1B. -/
def decodeV1B (w : W32) : Except DecodeError Instr :=
  if fld w 8 3 = 0#3 ∧ fld w 4 4 = 0#4 then .ok (.vcmpEq (fld w 21 5) (fld w 16 5) (fld w 11 5) (fld w 0 4)) else
  if fld w 8 3 = 1#3 ∧ fld w 4 4 = 0#4 then .ok (.vcmpNe (fld w 21 5) (fld w 16 5) (fld w 11 5) (fld w 0 4)) else
  if fld w 8 3 = 2#3 ∧ fld w 4 4 = 0#4 then .ok (.vcmpLt (fld w 21 5) (fld w 16 5) (fld w 11 5) (fld w 0 4)) else
  if fld w 8 3 = 3#3 ∧ fld w 4 4 = 0#4 then .ok (.vcmpLe (fld w 21 5) (fld w 16 5) (fld w 11 5) (fld w 0 4)) else
  if fld w 8 3 = 4#3 ∧ fld w 4 4 = 0#4 then .ok (.vcmpGt (fld w 21 5) (fld w 16 5) (fld w 11 5) (fld w 0 4)) else
  if fld w 8 3 = 5#3 ∧ fld w 4 4 = 0#4 then .ok (.vcmpGe (fld w 21 5) (fld w 16 5) (fld w 11 5) (fld w 0 4)) else
  if fld w 8 3 = 6#3 ∧ fld w 4 4 = 0#4 then .ok (.vcmpUn (fld w 21 5) (fld w 16 5) (fld w 11 5) (fld w 0 4)) else
  .error (.subField 1 (fld w 26 6))

/-- Position V, major 0x1C. -/
def decodeV1C (w : W32) : Except DecodeError Instr :=
  if fld w 5 1 = 0#1 ∧ fld w 4 1 = 0#1 then .ok (.vsel (fld w 21 5) (fld w 16 5) (fld w 11 5) (fld w 6 5) (fld w 0 4)) else
  .error (.subField 1 (fld w 26 6))

/-- Position V, major 0x1D. -/
def decodeV1D (w : W32) : Except DecodeError Instr :=
  if fld w 11 5 = 0#5 ∧ fld w 4 1 = 0#1 then checked 1 w (.vcvtFi (fld w 21 5) (fld w 16 5) (fld w 6 5) (fld w 5 1) (fld w 0 4)) else
  if fld w 11 5 = 1#5 ∧ fld w 4 1 = 0#1 then checked 1 w (.vcvtFit (fld w 21 5) (fld w 16 5) (fld w 6 5) (fld w 5 1) (fld w 0 4)) else
  if fld w 11 5 = 2#5 ∧ fld w 4 1 = 0#1 then checked 1 w (.vcvtIf (fld w 21 5) (fld w 16 5) (fld w 6 5) (fld w 5 1) (fld w 0 4)) else
  if fld w 11 5 = 3#5 ∧ fld w 4 1 = 0#1 then checked 1 w (.vcvtFb (fld w 21 5) (fld w 16 5) (fld w 6 5) (fld w 5 1) (fld w 0 4)) else
  if fld w 11 5 = 4#5 ∧ fld w 4 1 = 0#1 then checked 1 w (.vcvtFt8 (fld w 21 5) (fld w 16 5) (fld w 6 5) (fld w 5 1) (fld w 0 4)) else
  if fld w 11 5 = 5#5 ∧ fld w 4 1 = 0#1 then checked 1 w (.vcvtFt6 (fld w 21 5) (fld w 16 5) (fld w 6 5) (fld w 5 1) (fld w 0 4)) else
  .error (.subField 1 (fld w 26 6))

/-- Position V, major 0x1E. -/
def decodeV1E (w : W32) : Except DecodeError Instr :=
  if fld w 11 5 = 0#5 ∧ fld w 6 5 = 0#5 ∧ fld w 5 1 = 0#1 ∧ fld w 4 1 = 0#1 then .ok (.vredSum (fld w 21 5) (fld w 16 5) (fld w 0 4)) else
  if fld w 11 5 = 1#5 ∧ fld w 6 5 = 0#5 ∧ fld w 5 1 = 0#1 ∧ fld w 4 1 = 0#1 then .ok (.vredMax (fld w 21 5) (fld w 16 5) (fld w 0 4)) else
  if fld w 11 5 = 2#5 ∧ fld w 6 5 = 0#5 ∧ fld w 5 1 = 0#1 ∧ fld w 4 1 = 0#1 then .ok (.vredMin (fld w 21 5) (fld w 16 5) (fld w 0 4)) else
  .error (.subField 1 (fld w 26 6))

/-- Position V, major 0x1F. -/
def decodeV1F (w : W32) : Except DecodeError Instr :=
  if fld w 11 5 = 0#5 ∧ fld w 6 5 = 0#5 ∧ fld w 5 1 = 0#1 ∧ fld w 4 1 = 0#1 then .ok (.vrrowSum (fld w 21 5) (fld w 16 5) (fld w 0 4)) else
  if fld w 11 5 = 1#5 ∧ fld w 6 5 = 0#5 ∧ fld w 5 1 = 0#1 ∧ fld w 4 1 = 0#1 then .ok (.vrrowMax (fld w 21 5) (fld w 16 5) (fld w 0 4)) else
  if fld w 11 5 = 2#5 ∧ fld w 6 5 = 0#5 ∧ fld w 5 1 = 0#1 ∧ fld w 4 1 = 0#1 then .ok (.vrrowMin (fld w 21 5) (fld w 16 5) (fld w 0 4)) else
  .error (.subField 1 (fld w 26 6))

/-- Position V, major 0x20. -/
def decodeV20 (w : W32) : Except DecodeError Instr :=
  if fld w 11 5 = 0#5 ∧ fld w 6 5 = 0#5 ∧ fld w 5 1 = 0#1 ∧ fld w 4 1 = 0#1 then .ok (.vscanSum (fld w 21 5) (fld w 16 5) (fld w 0 4)) else
  if fld w 11 5 = 1#5 ∧ fld w 6 5 = 0#5 ∧ fld w 5 1 = 0#1 ∧ fld w 4 1 = 0#1 then .ok (.vscanMax (fld w 21 5) (fld w 16 5) (fld w 0 4)) else
  if fld w 11 5 = 2#5 ∧ fld w 6 5 = 0#5 ∧ fld w 5 1 = 0#1 ∧ fld w 4 1 = 0#1 then .ok (.vscanMin (fld w 21 5) (fld w 16 5) (fld w 0 4)) else
  .error (.subField 1 (fld w 26 6))

/-- Position V, major 0x21. -/
def decodeV21 (w : W32) : Except DecodeError Instr :=
  if fld w 9 6 = 0#6 ∧ fld w 4 5 = 0#5 then .ok (.vcnt (fld w 20 6) (fld w 15 5) (fld w 0 4)) else
  .error (.subField 1 (fld w 26 6))

/-- Position V, major 0x22. -/
def decodeV22 (w : W32) : Except DecodeError Instr :=
  if fld w 6 5 = 0#5 ∧ fld w 5 1 = 0#1 ∧ fld w 4 1 = 0#1 then .ok (.vrcoal (fld w 21 5) (fld w 16 5) (fld w 11 5) (fld w 0 4)) else
  .error (.subField 1 (fld w 26 6))

/-- Position V, major 0x23. -/
def decodeV23 (w : W32) : Except DecodeError Instr :=
  if fld w 9 6 = 0#6 ∧ fld w 4 5 = 0#5 then .ok (.vocc (fld w 20 6) (fld w 15 5) (fld w 0 4)) else
  .error (.subField 1 (fld w 26 6))

/-- Position V, major 0x24. -/
def decodeV24 (w : W32) : Except DecodeError Instr :=
  if fld w 11 5 = 0#5 ∧ fld w 6 5 = 0#5 ∧ fld w 5 1 = 0#1 ∧ fld w 4 1 = 0#1 then .ok (.vreshape (fld w 21 5) (fld w 16 5) (fld w 0 4)) else
  .error (.subField 1 (fld w 26 6))

/-- Position V, major 0x25. -/
def decodeV25 (w : W32) : Except DecodeError Instr :=
  if fld w 11 5 = 0#5 ∧ fld w 6 5 = 0#5 ∧ fld w 5 1 = 0#1 ∧ fld w 4 1 = 0#1 then .ok (.vbrow (fld w 21 5) (fld w 16 5) (fld w 0 4)) else
  .error (.subField 1 (fld w 26 6))

/-- Position V, major 0x26. -/
def decodeV26 (w : W32) : Except DecodeError Instr :=
  if fld w 11 5 = 0#5 ∧ fld w 6 5 = 0#5 ∧ fld w 5 1 = 0#1 ∧ fld w 4 1 = 0#1 then .ok (.vbcol (fld w 21 5) (fld w 16 5) (fld w 0 4)) else
  .error (.subField 1 (fld w 26 6))

/-- Position V, major 0x27. -/
def decodeV27 (w : W32) : Except DecodeError Instr :=
  if fld w 4 6 = 0#6 then .ok (.vperm (fld w 21 5) (fld w 16 5) (fld w 10 6) (fld w 0 4)) else
  .error (.subField 1 (fld w 26 6))

/-- Position V, major 0x28. -/
def decodeV28 (w : W32) : Except DecodeError Instr :=
  if fld w 21 5 = 0#5 ∧ fld w 4 6 = 0#6 then .ok (.patld (fld w 16 5) (fld w 10 6) (fld w 0 4)) else
  .error (.subField 1 (fld w 26 6))

/-- Position V, major 0x29. -/
def decodeV29 (w : W32) : Except DecodeError Instr :=
  if fld w 21 5 = 0#5 ∧ fld w 16 5 = 0#5 ∧ fld w 11 5 = 0#5 ∧ fld w 6 5 = 0#5 ∧ fld w 5 1 = 0#1 ∧ fld w 4 1 = 0#1 then .ok (.patsw (fld w 0 4)) else
  .error (.subField 1 (fld w 26 6))

/-- Position V, major 0x2A. -/
def decodeV2A (w : W32) : Except DecodeError Instr :=
  if fld w 4 5 = 0#5 then .ok (.vextr (fld w 20 6) (fld w 15 5) (fld w 9 6) (fld w 0 4)) else
  .error (.subField 1 (fld w 26 6))

/-- Position V, major 0x2B. -/
def decodeV2B (w : W32) : Except DecodeError Instr :=
  if fld w 4 5 = 0#5 then .ok (.vins (fld w 21 5) (fld w 15 6) (fld w 9 6) (fld w 0 4)) else
  .error (.subField 1 (fld w 26 6))

/-- Position V, major 0x2C. -/
def decodeV2C (w : W32) : Except DecodeError Instr :=
  if fld w 6 5 = 0#5 ∧ fld w 5 1 = 0#1 ∧ fld w 4 1 = 0#1 then .ok (.vattc (fld w 21 5) (fld w 16 5) (fld w 11 5) (fld w 0 4)) else
  .error (.subField 1 (fld w 26 6))

/-- Position V, major 0x30. -/
def decodeV30 (w : W32) : Except DecodeError Instr :=
  checked 1 w (.vaddBcast (fld w 21 5) (fld w 16 5) (fld w 10 6) (fld w 5 5) (fld w 4 1) (fld w 0 4))

/-- Position V, major 0x31. -/
def decodeV31 (w : W32) : Except DecodeError Instr :=
  checked 1 w (.vsubBcast (fld w 21 5) (fld w 16 5) (fld w 10 6) (fld w 5 5) (fld w 4 1) (fld w 0 4))

/-- Position V, major 0x32. -/
def decodeV32 (w : W32) : Except DecodeError Instr :=
  checked 1 w (.vmulBcast (fld w 21 5) (fld w 16 5) (fld w 10 6) (fld w 5 5) (fld w 4 1) (fld w 0 4))

/-- Position V, major 0x33. -/
def decodeV33 (w : W32) : Except DecodeError Instr :=
  checked 1 w (.vminBcast (fld w 21 5) (fld w 16 5) (fld w 10 6) (fld w 5 5) (fld w 4 1) (fld w 0 4))

/-- Position V, major 0x34. -/
def decodeV34 (w : W32) : Except DecodeError Instr :=
  checked 1 w (.vmaxBcast (fld w 21 5) (fld w 16 5) (fld w 10 6) (fld w 5 5) (fld w 4 1) (fld w 0 4))

/-- Position V, major 0x35. -/
def decodeV35 (w : W32) : Except DecodeError Instr :=
  checked 1 w (.vdivBcast (fld w 21 5) (fld w 16 5) (fld w 10 6) (fld w 5 5) (fld w 4 1) (fld w 0 4))

/-- Position V, major 0x36. -/
def decodeV36 (w : W32) : Except DecodeError Instr :=
  checked 1 w (.viaddBcast (fld w 21 5) (fld w 16 5) (fld w 10 6) (fld w 5 5) (fld w 4 1) (fld w 0 4))

/-- Position V, major 0x37. -/
def decodeV37 (w : W32) : Except DecodeError Instr :=
  checked 1 w (.visubBcast (fld w 21 5) (fld w 16 5) (fld w 10 6) (fld w 5 5) (fld w 4 1) (fld w 0 4))

/-- Position V, major 0x38. -/
def decodeV38 (w : W32) : Except DecodeError Instr :=
  checked 1 w (.vimulBcast (fld w 21 5) (fld w 16 5) (fld w 10 6) (fld w 5 5) (fld w 4 1) (fld w 0 4))

/-- Position V, major 0x39. -/
def decodeV39 (w : W32) : Except DecodeError Instr :=
  checked 1 w (.vandBcast (fld w 21 5) (fld w 16 5) (fld w 10 6) (fld w 5 5) (fld w 4 1) (fld w 0 4))

/-- Position V, major 0x3A. -/
def decodeV3A (w : W32) : Except DecodeError Instr :=
  checked 1 w (.vorBcast (fld w 21 5) (fld w 16 5) (fld w 10 6) (fld w 5 5) (fld w 4 1) (fld w 0 4))

/-- Position V, major 0x3B. -/
def decodeV3B (w : W32) : Except DecodeError Instr :=
  checked 1 w (.vxorBcast (fld w 21 5) (fld w 16 5) (fld w 10 6) (fld w 5 5) (fld w 4 1) (fld w 0 4))

/-- Position V, major 0x3C. -/
def decodeV3C (w : W32) : Except DecodeError Instr :=
  checked 1 w (.vshlBcast (fld w 21 5) (fld w 16 5) (fld w 10 6) (fld w 5 5) (fld w 4 1) (fld w 0 4))

/-- Position V, major 0x3D. -/
def decodeV3D (w : W32) : Except DecodeError Instr :=
  checked 1 w (.vshrBcast (fld w 21 5) (fld w 16 5) (fld w 10 6) (fld w 5 5) (fld w 4 1) (fld w 0 4))

/-- The instruction of position V (R292). -/
def decodeV (w : W32) : Except DecodeError Instr :=
  if w = 0#32 then .ok .nop else
  if fld w 26 6 = 1#6 then decodeV01 w else
  if fld w 26 6 = 2#6 then decodeV02 w else
  if fld w 26 6 = 3#6 then decodeV03 w else
  if fld w 26 6 = 4#6 then decodeV04 w else
  if fld w 26 6 = 5#6 then decodeV05 w else
  if fld w 26 6 = 6#6 then decodeV06 w else
  if fld w 26 6 = 7#6 then decodeV07 w else
  if fld w 26 6 = 8#6 then decodeV08 w else
  if fld w 26 6 = 9#6 then decodeV09 w else
  if fld w 26 6 = 10#6 then decodeV0A w else
  if fld w 26 6 = 11#6 then decodeV0B w else
  if fld w 26 6 = 12#6 then decodeV0C w else
  if fld w 26 6 = 13#6 then decodeV0D w else
  if fld w 26 6 = 14#6 then decodeV0E w else
  if fld w 26 6 = 15#6 then decodeV0F w else
  if fld w 26 6 = 16#6 then decodeV10 w else
  if fld w 26 6 = 17#6 then decodeV11 w else
  if fld w 26 6 = 18#6 then decodeV12 w else
  if fld w 26 6 = 19#6 then decodeV13 w else
  if fld w 26 6 = 20#6 then decodeV14 w else
  if fld w 26 6 = 21#6 then decodeV15 w else
  if fld w 26 6 = 22#6 then decodeV16 w else
  if fld w 26 6 = 23#6 then decodeV17 w else
  if fld w 26 6 = 24#6 then decodeV18 w else
  if fld w 26 6 = 25#6 then decodeV19 w else
  if fld w 26 6 = 26#6 then decodeV1A w else
  if fld w 26 6 = 27#6 then decodeV1B w else
  if fld w 26 6 = 28#6 then decodeV1C w else
  if fld w 26 6 = 29#6 then decodeV1D w else
  if fld w 26 6 = 30#6 then decodeV1E w else
  if fld w 26 6 = 31#6 then decodeV1F w else
  if fld w 26 6 = 32#6 then decodeV20 w else
  if fld w 26 6 = 33#6 then decodeV21 w else
  if fld w 26 6 = 34#6 then decodeV22 w else
  if fld w 26 6 = 35#6 then decodeV23 w else
  if fld w 26 6 = 36#6 then decodeV24 w else
  if fld w 26 6 = 37#6 then decodeV25 w else
  if fld w 26 6 = 38#6 then decodeV26 w else
  if fld w 26 6 = 39#6 then decodeV27 w else
  if fld w 26 6 = 40#6 then decodeV28 w else
  if fld w 26 6 = 41#6 then decodeV29 w else
  if fld w 26 6 = 42#6 then decodeV2A w else
  if fld w 26 6 = 43#6 then decodeV2B w else
  if fld w 26 6 = 44#6 then decodeV2C w else
  if fld w 26 6 = 48#6 then decodeV30 w else
  if fld w 26 6 = 49#6 then decodeV31 w else
  if fld w 26 6 = 50#6 then decodeV32 w else
  if fld w 26 6 = 51#6 then decodeV33 w else
  if fld w 26 6 = 52#6 then decodeV34 w else
  if fld w 26 6 = 53#6 then decodeV35 w else
  if fld w 26 6 = 54#6 then decodeV36 w else
  if fld w 26 6 = 55#6 then decodeV37 w else
  if fld w 26 6 = 56#6 then decodeV38 w else
  if fld w 26 6 = 57#6 then decodeV39 w else
  if fld w 26 6 = 58#6 then decodeV3A w else
  if fld w 26 6 = 59#6 then decodeV3B w else
  if fld w 26 6 = 60#6 then decodeV3C w else
  if fld w 26 6 = 61#6 then decodeV3D w else
  .error (.unassignedMajor 1 (fld w 26 6))

/-- Position M, major 0x01. -/
def decodeM01 (w : W32) (x : Option (BitVec 4)) : Except DecodeError Instr :=
  .ok (.ldB (fld w 20 6) (fld w 14 6) (fld w 13 1) (mlImm x (fld w 4 9)) (fld w 0 4))

/-- Position M, major 0x02. -/
def decodeM02 (w : W32) (x : Option (BitVec 4)) : Except DecodeError Instr :=
  .ok (.ldBs (fld w 20 6) (fld w 14 6) (fld w 13 1) (mlImm x (fld w 4 9)) (fld w 0 4))

/-- Position M, major 0x03. -/
def decodeM03 (w : W32) (x : Option (BitVec 4)) : Except DecodeError Instr :=
  .ok (.ldH (fld w 20 6) (fld w 14 6) (fld w 13 1) (mlImm x (fld w 4 9)) (fld w 0 4))

/-- Position M, major 0x04. -/
def decodeM04 (w : W32) (x : Option (BitVec 4)) : Except DecodeError Instr :=
  .ok (.ldHs (fld w 20 6) (fld w 14 6) (fld w 13 1) (mlImm x (fld w 4 9)) (fld w 0 4))

/-- Position M, major 0x05. -/
def decodeM05 (w : W32) (x : Option (BitVec 4)) : Except DecodeError Instr :=
  .ok (.ldW (fld w 20 6) (fld w 14 6) (fld w 13 1) (mlImm x (fld w 4 9)) (fld w 0 4))

/-- Position M, major 0x06. -/
def decodeM06 (w : W32) (x : Option (BitVec 4)) : Except DecodeError Instr :=
  .ok (.ldWs (fld w 20 6) (fld w 14 6) (fld w 13 1) (mlImm x (fld w 4 9)) (fld w 0 4))

/-- Position M, major 0x07. -/
def decodeM07 (w : W32) (x : Option (BitVec 4)) : Except DecodeError Instr :=
  .ok (.ldD (fld w 20 6) (fld w 14 6) (fld w 13 1) (mlImm x (fld w 4 9)) (fld w 0 4))

/-- Position M, major 0x08. -/
def decodeM08 (w : W32) (x : Option (BitVec 4)) : Except DecodeError Instr :=
  .ok (.stB (fld w 20 6) (fld w 14 6) (fld w 13 1) (mlImm x (fld w 4 9)) (fld w 0 4))

/-- Position M, major 0x09. -/
def decodeM09 (w : W32) (x : Option (BitVec 4)) : Except DecodeError Instr :=
  .ok (.stH (fld w 20 6) (fld w 14 6) (fld w 13 1) (mlImm x (fld w 4 9)) (fld w 0 4))

/-- Position M, major 0x0A. -/
def decodeM0A (w : W32) (x : Option (BitVec 4)) : Except DecodeError Instr :=
  .ok (.stW (fld w 20 6) (fld w 14 6) (fld w 13 1) (mlImm x (fld w 4 9)) (fld w 0 4))

/-- Position M, major 0x0B. -/
def decodeM0B (w : W32) (x : Option (BitVec 4)) : Except DecodeError Instr :=
  .ok (.stD (fld w 20 6) (fld w 14 6) (fld w 13 1) (mlImm x (fld w 4 9)) (fld w 0 4))

/-- Position M, major 0x10. -/
def decodeM10 (w : W32) : Except DecodeError Instr :=
  if fld w 0 2 = 0#2 then checked 2 w (.amoAdd (fld w 20 6) (fld w 14 6) (fld w 8 6) (fld w 6 2) (fld w 3 3) (fld w 2 1)) else
  .error (.subField 2 (fld w 26 6))

/-- Position M, major 0x11. -/
def decodeM11 (w : W32) : Except DecodeError Instr :=
  if fld w 0 2 = 0#2 then checked 2 w (.amoAnd (fld w 20 6) (fld w 14 6) (fld w 8 6) (fld w 6 2) (fld w 3 3) (fld w 2 1)) else
  .error (.subField 2 (fld w 26 6))

/-- Position M, major 0x12. -/
def decodeM12 (w : W32) : Except DecodeError Instr :=
  if fld w 0 2 = 0#2 then checked 2 w (.amoOr (fld w 20 6) (fld w 14 6) (fld w 8 6) (fld w 6 2) (fld w 3 3) (fld w 2 1)) else
  .error (.subField 2 (fld w 26 6))

/-- Position M, major 0x13. -/
def decodeM13 (w : W32) : Except DecodeError Instr :=
  if fld w 0 2 = 0#2 then checked 2 w (.amoXor (fld w 20 6) (fld w 14 6) (fld w 8 6) (fld w 6 2) (fld w 3 3) (fld w 2 1)) else
  .error (.subField 2 (fld w 26 6))

/-- Position M, major 0x14. -/
def decodeM14 (w : W32) : Except DecodeError Instr :=
  if fld w 0 2 = 0#2 then checked 2 w (.amoMinS (fld w 20 6) (fld w 14 6) (fld w 8 6) (fld w 6 2) (fld w 3 3) (fld w 2 1)) else
  .error (.subField 2 (fld w 26 6))

/-- Position M, major 0x15. -/
def decodeM15 (w : W32) : Except DecodeError Instr :=
  if fld w 0 2 = 0#2 then checked 2 w (.amoMaxS (fld w 20 6) (fld w 14 6) (fld w 8 6) (fld w 6 2) (fld w 3 3) (fld w 2 1)) else
  .error (.subField 2 (fld w 26 6))

/-- Position M, major 0x16. -/
def decodeM16 (w : W32) : Except DecodeError Instr :=
  if fld w 0 2 = 0#2 then checked 2 w (.amoXchg (fld w 20 6) (fld w 14 6) (fld w 8 6) (fld w 6 2) (fld w 3 3) (fld w 2 1)) else
  .error (.subField 2 (fld w 26 6))

/-- Position M, major 0x17. -/
def decodeM17 (w : W32) : Except DecodeError Instr :=
  if fld w 0 2 = 0#2 then checked 2 w (.amoCas (fld w 20 6) (fld w 14 6) (fld w 8 6) (fld w 6 2) (fld w 3 3) (fld w 2 1)) else
  .error (.subField 2 (fld w 26 6))

/-- Position M, major 0x18. -/
def decodeM18 (w : W32) : Except DecodeError Instr :=
  if fld w 8 6 = 0#6 ∧ fld w 6 2 = 0#2 ∧ fld w 0 2 = 0#2 then checked 2 w (.lda (fld w 20 6) (fld w 14 6) (fld w 3 3) (fld w 2 1)) else
  .error (.subField 2 (fld w 26 6))

/-- Position M, major 0x19. -/
def decodeM19 (w : W32) : Except DecodeError Instr :=
  if fld w 20 6 = 0#6 ∧ fld w 6 2 = 0#2 ∧ fld w 0 2 = 0#2 then checked 2 w (.stl (fld w 14 6) (fld w 8 6) (fld w 3 3) (fld w 2 1)) else
  .error (.subField 2 (fld w 26 6))

/-- Position M, major 0x1A. -/
def decodeM1A (w : W32) : Except DecodeError Instr :=
  if fld w 4 17 = 0#17 then checked 2 w (.fence (fld w 23 3) (fld w 21 2) (fld w 0 4)) else
  .error (.subField 2 (fld w 26 6))

/-- Position M, major 0x1B. -/
def decodeM1B (w : W32) : Except DecodeError Instr :=
  if fld w 4 13 = 0#13 then checked 2 w (.xfence (fld w 23 3) (fld w 20 3) (fld w 17 3) (fld w 0 4)) else
  .error (.subField 2 (fld w 26 6))

/-- Position M, major 0x1C. -/
def decodeM1C (w : W32) : Except DecodeError Instr :=
  if fld w 3 1 = 0#1 then checked 2 w (.waitv (fld w 20 6) (fld w 14 6) (fld w 8 6) (fld w 5 3) (fld w 4 1) (fld w 0 3)) else
  if fld w 3 1 = 1#1 then checked 2 w (.waitvS (fld w 20 6) (fld w 14 6) (fld w 8 6) (fld w 5 3) (fld w 4 1) (fld w 0 3)) else
  .error (.subField 2 (fld w 26 6))

/-- Position M, major 0x20. -/
def decodeM20 (w : W32) : Except DecodeError Instr :=
  if fld w 4 5 = 0#5 then checked 2 w (.vld (fld w 21 5) (fld w 15 6) (fld w 14 1) (fld w 10 4) (fld w 9 1) (fld w 0 4)) else
  .error (.subField 2 (fld w 26 6))

/-- Position M, major 0x21. -/
def decodeM21 (w : W32) : Except DecodeError Instr :=
  if fld w 4 5 = 0#5 then checked 2 w (.vlds (fld w 21 5) (fld w 15 6) (fld w 14 1) (fld w 10 4) (fld w 9 1) (fld w 0 4)) else
  .error (.subField 2 (fld w 26 6))

/-- Position M, major 0x22. -/
def decodeM22 (w : W32) : Except DecodeError Instr :=
  if fld w 10 4 = 0#4 ∧ fld w 4 5 = 0#5 then .ok (.vldRun (fld w 21 5) (fld w 15 6) (fld w 14 1) (fld w 9 1) (fld w 0 4)) else
  .error (.subField 2 (fld w 26 6))

/-- Position M, major 0x23. -/
def decodeM23 (w : W32) : Except DecodeError Instr :=
  if fld w 4 5 = 0#5 then checked 2 w (.vst (fld w 21 5) (fld w 15 6) (fld w 14 1) (fld w 10 4) (fld w 9 1) (fld w 0 4)) else
  .error (.subField 2 (fld w 26 6))

/-- Position M, major 0x24. -/
def decodeM24 (w : W32) : Except DecodeError Instr :=
  if fld w 10 4 = 0#4 ∧ fld w 4 5 = 0#5 then .ok (.vstRun (fld w 21 5) (fld w 15 6) (fld w 14 1) (fld w 9 1) (fld w 0 4)) else
  .error (.subField 2 (fld w 26 6))

/-- Position M, major 0x25. -/
def decodeM25 (w : W32) : Except DecodeError Instr :=
  if fld w 8 6 = 0#6 ∧ fld w 4 3 = 0#3 then .ok (.tagrd (fld w 20 6) (fld w 14 6) (fld w 7 1) (fld w 0 4)) else
  .error (.subField 2 (fld w 26 6))

/-- Position M, major 0x26. -/
def decodeM26 (w : W32) : Except DecodeError Instr :=
  if fld w 20 6 = 0#6 ∧ fld w 4 3 = 0#3 then .ok (.tagwr (fld w 14 6) (fld w 8 6) (fld w 7 1) (fld w 0 4)) else
  .error (.subField 2 (fld w 26 6))

/-- Position M, major 0x28. -/
def decodeM28 (w : W32) : Except DecodeError Instr :=
  if fld w 4 8 = 0#8 then .ok (.mma (fld w 24 2) (fld w 20 4) (fld w 16 4) (fld w 12 4) (fld w 0 4)) else
  .error (.subField 2 (fld w 26 6))

/-- Position M, major 0x29. -/
def decodeM29 (w : W32) : Except DecodeError Instr :=
  if fld w 4 8 = 0#8 then .ok (.mmaz (fld w 24 2) (fld w 20 4) (fld w 16 4) (fld w 12 4) (fld w 0 4)) else
  .error (.subField 2 (fld w 26 6))

/-- Position M, major 0x2A. -/
def decodeM2A (w : W32) : Except DecodeError Instr :=
  if fld w 4 12 = 0#12 then .ok (.accrd (fld w 21 5) (fld w 19 2) (fld w 17 2) (fld w 16 1) (fld w 0 4)) else
  .error (.subField 2 (fld w 26 6))

/-- Position M, major 0x2B. -/
def decodeM2B (w : W32) : Except DecodeError Instr :=
  if fld w 16 1 = 0#1 ∧ fld w 4 12 = 0#12 then .ok (.accwr (fld w 21 5) (fld w 19 2) (fld w 17 2) (fld w 0 4)) else
  .error (.subField 2 (fld w 26 6))

/-- Position M, major 0x2C. -/
def decodeM2C (w : W32) : Except DecodeError Instr :=
  if fld w 11 3 = 0#3 ∧ fld w 0 11 = 0#11 then .ok (.prefL1 (fld w 20 6) (fld w 14 6)) else
  if fld w 11 3 = 1#3 ∧ fld w 0 11 = 0#11 then .ok (.prefL2 (fld w 20 6) (fld w 14 6)) else
  if fld w 11 3 = 2#3 ∧ fld w 0 11 = 0#11 then .ok (.cflush (fld w 20 6) (fld w 14 6)) else
  if fld w 11 3 = 3#3 ∧ fld w 0 11 = 0#11 then .ok (.cinv (fld w 20 6) (fld w 14 6)) else
  .error (.subField 2 (fld w 26 6))

/-- Position M, major 0x2D. -/
def decodeM2D (w : W32) : Except DecodeError Instr :=
  if fld w 21 5 = 0#5 ∧ fld w 17 2 = 0#2 ∧ fld w 16 1 = 0#1 ∧ fld w 4 12 = 0#12 then .ok (.accz (fld w 19 2) (fld w 0 4)) else
  .error (.subField 2 (fld w 26 6))

/-- Position M, major 0x2E. -/
def decodeM2E (w : W32) : Except DecodeError Instr :=
  if fld w 4 13 = 0#13 then .ok (.accst (fld w 24 2) (fld w 18 6) (fld w 17 1) (fld w 0 4)) else
  .error (.subField 2 (fld w 26 6))

/-- Position M, major 0x30. -/
def decodeM30 (w : W32) : Except DecodeError Instr :=
  if fld w 21 1 = 0#1 ∧ fld w 4 17 = 0#17 then .ok (.osclaim (fld w 22 4) (fld w 0 4)) else
  if fld w 21 1 = 1#1 ∧ fld w 4 17 = 0#17 then .ok (.osclaimT (fld w 22 4) (fld w 0 4)) else
  .error (.subField 2 (fld w 26 6))

/-- Position M, major 0x31. -/
def decodeM31 (w : W32) : Except DecodeError Instr :=
  if fld w 21 1 = 0#1 ∧ fld w 4 17 = 0#17 then .ok (.osrel (fld w 22 4) (fld w 0 4)) else
  .error (.subField 2 (fld w 26 6))

/-- Position M, major 0x32. -/
def decodeM32 (w : W32) : Except DecodeError Instr :=
  if fld w 21 5 = 0#5 ∧ fld w 4 11 = 0#11 then .ok (.efrw (fld w 15 6) (fld w 0 4)) else
  .error (.subField 2 (fld w 26 6))

/-- Position M, major 0x33. -/
def decodeM33 (w : W32) : Except DecodeError Instr :=
  if fld w 4 11 = 0#11 then .ok (.ctwr (fld w 21 5) (fld w 15 6) (fld w 0 4)) else
  .error (.subField 2 (fld w 26 6))

/-- Position M, major 0x34. -/
def decodeM34 (w : W32) : Except DecodeError Instr :=
  if fld w 4 22 = 0#22 then .ok (.spswap (fld w 0 4)) else
  .error (.subField 2 (fld w 26 6))

/-- The instruction of position M (R293). -/
def decodeM (w : W32) (x : Option (BitVec 4)) : Except DecodeError Instr :=
  if w = 0#32 then .ok .nop else
  if fld w 26 6 = 1#6 then decodeM01 w x else
  if fld w 26 6 = 2#6 then decodeM02 w x else
  if fld w 26 6 = 3#6 then decodeM03 w x else
  if fld w 26 6 = 4#6 then decodeM04 w x else
  if fld w 26 6 = 5#6 then decodeM05 w x else
  if fld w 26 6 = 6#6 then decodeM06 w x else
  if fld w 26 6 = 7#6 then decodeM07 w x else
  if fld w 26 6 = 8#6 then decodeM08 w x else
  if fld w 26 6 = 9#6 then decodeM09 w x else
  if fld w 26 6 = 10#6 then decodeM0A w x else
  if fld w 26 6 = 11#6 then decodeM0B w x else
  if fld w 26 6 = 16#6 then decodeM10 w else
  if fld w 26 6 = 17#6 then decodeM11 w else
  if fld w 26 6 = 18#6 then decodeM12 w else
  if fld w 26 6 = 19#6 then decodeM13 w else
  if fld w 26 6 = 20#6 then decodeM14 w else
  if fld w 26 6 = 21#6 then decodeM15 w else
  if fld w 26 6 = 22#6 then decodeM16 w else
  if fld w 26 6 = 23#6 then decodeM17 w else
  if fld w 26 6 = 24#6 then decodeM18 w else
  if fld w 26 6 = 25#6 then decodeM19 w else
  if fld w 26 6 = 26#6 then decodeM1A w else
  if fld w 26 6 = 27#6 then decodeM1B w else
  if fld w 26 6 = 28#6 then decodeM1C w else
  if fld w 26 6 = 32#6 then decodeM20 w else
  if fld w 26 6 = 33#6 then decodeM21 w else
  if fld w 26 6 = 34#6 then decodeM22 w else
  if fld w 26 6 = 35#6 then decodeM23 w else
  if fld w 26 6 = 36#6 then decodeM24 w else
  if fld w 26 6 = 37#6 then decodeM25 w else
  if fld w 26 6 = 38#6 then decodeM26 w else
  if fld w 26 6 = 40#6 then decodeM28 w else
  if fld w 26 6 = 41#6 then decodeM29 w else
  if fld w 26 6 = 42#6 then decodeM2A w else
  if fld w 26 6 = 43#6 then decodeM2B w else
  if fld w 26 6 = 44#6 then decodeM2C w else
  if fld w 26 6 = 45#6 then decodeM2D w else
  if fld w 26 6 = 46#6 then decodeM2E w else
  if fld w 26 6 = 48#6 then decodeM30 w else
  if fld w 26 6 = 49#6 then decodeM31 w else
  if fld w 26 6 = 50#6 then decodeM32 w else
  if fld w 26 6 = 51#6 then decodeM33 w else
  if fld w 26 6 = 52#6 then decodeM34 w else
  .error (.unassignedMajor 2 (fld w 26 6))

/-- Position C, major 0x01. -/
def decodeC01 (w : W32) : Except DecodeError Instr :=
  if fld w 4 6 = 0#6 then checked 3 w (.cpy (fld w 20 6) (fld w 14 6) (fld w 12 2) (fld w 10 2) (fld w 0 4)) else
  .error (.subField 3 (fld w 26 6))

/-- Position C, major 0x02. -/
def decodeC02 (w : W32) : Except DecodeError Instr :=
  if fld w 4 2 = 0#2 then checked 3 w (.cpyMma (fld w 20 6) (fld w 16 4) (fld w 12 4) (fld w 10 2) (fld w 9 1) (fld w 8 1) (fld w 6 2) (fld w 0 4)) else
  .error (.subField 3 (fld w 26 6))

/-- Position C, major 0x03. -/
def decodeC03 (w : W32) : Except DecodeError Instr :=
  if fld w 4 3 = 0#3 then .ok (.cpyg (fld w 20 6) (fld w 14 6) (fld w 8 6) (fld w 7 1) (fld w 0 4)) else
  .error (.subField 3 (fld w 26 6))

/-- Position C, major 0x04. -/
def decodeC04 (w : W32) : Except DecodeError Instr :=
  if fld w 4 3 = 0#3 then .ok (.cpys (fld w 20 6) (fld w 14 6) (fld w 8 6) (fld w 7 1) (fld w 0 4)) else
  .error (.subField 3 (fld w 26 6))

/-- Position C, major 0x05. -/
def decodeC05 (w : W32) : Except DecodeError Instr :=
  if fld w 4 9 = 0#9 then .ok (.cpyw (fld w 20 6) (fld w 14 6) (fld w 13 1) (fld w 0 4)) else
  .error (.subField 3 (fld w 26 6))

/-- Position C, major 0x06. -/
def decodeC06 (w : W32) : Except DecodeError Instr :=
  if fld w 8 1 = 0#1 then .ok (.bte (fld w 20 6) (fld w 14 6) (fld w 9 5) (fld w 0 8)) else
  .error (.subField 3 (fld w 26 6))

/-- Position C, major 0x08. -/
def decodeC08 (w : W32) : Except DecodeError Instr :=
  if fld w 8 1 = 0#1 ∧ fld w 7 1 = 0#1 ∧ fld w 4 3 = 0#3 then checked 3 w (.barInit (fld w 21 5) (fld w 15 6) (fld w 9 6) (fld w 0 4)) else
  .error (.subField 3 (fld w 26 6))

/-- Position C, major 0x09. -/
def decodeC09 (w : W32) : Except DecodeError Instr :=
  if fld w 9 6 = 0#6 ∧ fld w 8 1 = 0#1 ∧ fld w 7 1 = 0#1 ∧ fld w 4 3 = 0#3 then checked 3 w (.barLink (fld w 21 5) (fld w 15 6) (fld w 0 4)) else
  .error (.subField 3 (fld w 26 6))

/-- Position C, major 0x0A. -/
def decodeC0A (w : W32) : Except DecodeError Instr :=
  if fld w 9 6 = 0#6 ∧ fld w 8 1 = 0#1 ∧ fld w 7 1 = 0#1 ∧ fld w 4 3 = 0#3 then checked 3 w (.barExp (fld w 21 5) (fld w 15 6) (fld w 0 4)) else
  .error (.subField 3 (fld w 26 6))

/-- Position C, major 0x0B. -/
def decodeC0B (w : W32) : Except DecodeError Instr :=
  if fld w 15 6 = 0#6 ∧ fld w 9 6 = 0#6 ∧ fld w 8 1 = 0#1 ∧ fld w 7 1 = 0#1 ∧ fld w 4 3 = 0#3 then checked 3 w (.barArr (fld w 21 5) (fld w 0 4)) else
  .error (.subField 3 (fld w 26 6))

/-- Position C, major 0x0C. -/
def decodeC0C (w : W32) : Except DecodeError Instr :=
  if fld w 9 6 = 0#6 ∧ fld w 8 1 = 0#1 ∧ fld w 4 3 = 0#3 then checked 3 w (.barWait (fld w 21 5) (fld w 15 6) (fld w 7 1) (fld w 0 4)) else
  if fld w 9 6 = 0#6 ∧ fld w 8 1 = 1#1 ∧ fld w 4 3 = 0#3 then checked 3 w (.barWaitS (fld w 21 5) (fld w 15 6) (fld w 7 1) (fld w 0 4)) else
  .error (.subField 3 (fld w 26 6))

/-- Position C, major 0x0D. -/
def decodeC0D (w : W32) : Except DecodeError Instr :=
  if fld w 8 1 = 0#1 ∧ fld w 7 1 = 0#1 ∧ fld w 4 3 = 0#3 then checked 3 w (.barTest (fld w 21 5) (fld w 15 6) (fld w 9 6) (fld w 0 4)) else
  .error (.subField 3 (fld w 26 6))

/-- Position C, major 0x0E. -/
def decodeC0E (w : W32) : Except DecodeError Instr :=
  if fld w 8 1 = 0#1 ∧ fld w 7 1 = 0#1 ∧ fld w 4 3 = 0#3 then checked 3 w (.barStat (fld w 21 5) (fld w 15 6) (fld w 9 6) (fld w 0 4)) else
  .error (.subField 3 (fld w 26 6))

/-- Position C, major 0x10. -/
def decodeC10 (w : W32) : Except DecodeError Instr :=
  if fld w 4 4 = 0#4 then .ok (.seqMma (fld w 20 6) (fld w 14 6) (fld w 8 6) (fld w 0 4)) else
  .error (.subField 3 (fld w 26 6))

/-- Position C, major 0x11. -/
def decodeC11 (w : W32) : Except DecodeError Instr :=
  if fld w 4 4 = 0#4 then .ok (.seqCpy (fld w 20 6) (fld w 14 6) (fld w 8 6) (fld w 0 4)) else
  .error (.subField 3 (fld w 26 6))

/-- Position C, major 0x14. -/
def decodeC14 (w : W32) : Except DecodeError Instr :=
  if fld w 4 4 = 0#4 then .ok (.kvwalk (fld w 20 6) (fld w 14 6) (fld w 8 6) (fld w 0 4)) else
  .error (.subField 3 (fld w 26 6))

/-- Position C, major 0x15. -/
def decodeC15 (w : W32) : Except DecodeError Instr :=
  if fld w 4 4 = 0#4 then .ok (.kvapp (fld w 20 6) (fld w 14 6) (fld w 8 6) (fld w 0 4)) else
  .error (.subField 3 (fld w 26 6))

/-- Position C, major 0x16. -/
def decodeC16 (w : W32) : Except DecodeError Instr :=
  if fld w 20 6 = 0#6 ∧ fld w 14 6 = 0#6 ∧ fld w 4 4 = 0#4 then .ok (.kvcommit (fld w 8 6) (fld w 0 4)) else
  .error (.subField 3 (fld w 26 6))

/-- Position C, major 0x17. -/
def decodeC17 (w : W32) : Except DecodeError Instr :=
  if fld w 14 6 = 0#6 ∧ fld w 8 6 = 0#6 ∧ fld w 4 4 = 0#4 then .ok (.kvfork (fld w 20 6) (fld w 0 4)) else
  .error (.subField 3 (fld w 26 6))

/-- Position C, major 0x18. -/
def decodeC18 (w : W32) : Except DecodeError Instr :=
  if fld w 14 6 = 0#6 ∧ fld w 8 6 = 0#6 ∧ fld w 4 4 = 0#4 then .ok (.kvroll (fld w 20 6) (fld w 0 4)) else
  .error (.subField 3 (fld w 26 6))

/-- Position C, major 0x19. -/
def decodeC19 (w : W32) : Except DecodeError Instr :=
  if fld w 4 4 = 0#4 then .ok (.kvsplice (fld w 20 6) (fld w 14 6) (fld w 8 6) (fld w 0 4)) else
  .error (.subField 3 (fld w 26 6))

/-- Position C, major 0x1A. -/
def decodeC1A (w : W32) : Except DecodeError Instr :=
  if fld w 8 6 = 0#6 ∧ fld w 4 4 = 0#4 then .ok (.kvprov (fld w 20 6) (fld w 14 6) (fld w 0 4)) else
  .error (.subField 3 (fld w 26 6))

/-- Position C, major 0x1B. -/
def decodeC1B (w : W32) : Except DecodeError Instr :=
  if fld w 4 4 = 0#4 then .ok (.repairM (fld w 20 6) (fld w 14 6) (fld w 8 6) (fld w 0 4)) else
  if fld w 4 4 = 1#4 then .ok (.repairI (fld w 20 6) (fld w 14 6) (fld w 8 6) (fld w 0 4)) else
  .error (.subField 3 (fld w 26 6))

/-- Position C, major 0x1C. -/
def decodeC1C (w : W32) : Except DecodeError Instr :=
  if fld w 20 6 = 0#6 ∧ fld w 14 6 = 0#6 ∧ fld w 4 4 = 0#4 then .ok (.repstat (fld w 8 6) (fld w 0 4)) else
  .error (.subField 3 (fld w 26 6))

/-- Position C, major 0x1D. -/
def decodeC1D (w : W32) : Except DecodeError Instr :=
  if fld w 4 4 = 0#4 then .ok (.attq (fld w 20 6) (fld w 14 6) (fld w 8 6) (fld w 0 4)) else
  if fld w 4 4 = 1#4 then .ok (.attqRo (fld w 20 6) (fld w 14 6) (fld w 8 6) (fld w 0 4)) else
  .error (.subField 3 (fld w 26 6))

/-- Position C, major 0x20. -/
def decodeC20 (w : W32) : Except DecodeError Instr :=
  if fld w 4 4 = 0#4 then .ok (.collPut (fld w 20 6) (fld w 14 6) (fld w 8 6) (fld w 0 4)) else
  if fld w 4 4 = 1#4 then .ok (.collGet (fld w 20 6) (fld w 14 6) (fld w 8 6) (fld w 0 4)) else
  if fld w 4 4 = 2#4 then .ok (.collAdd (fld w 20 6) (fld w 14 6) (fld w 8 6) (fld w 0 4)) else
  if fld w 4 4 = 3#4 then .ok (.collMax (fld w 20 6) (fld w 14 6) (fld w 8 6) (fld w 0 4)) else
  if fld w 4 4 = 4#4 then .ok (.collMin (fld w 20 6) (fld w 14 6) (fld w 8 6) (fld w 0 4)) else
  .error (.subField 3 (fld w 26 6))

/-- Position C, major 0x24. -/
def decodeC24 (w : W32) : Except DecodeError Instr :=
  if fld w 14 6 = 0#6 ∧ fld w 4 4 = 0#4 then .ok (.rsbegin (fld w 20 6) (fld w 8 6) (fld w 0 4)) else
  .error (.subField 3 (fld w 26 6))

/-- Position C, major 0x25. -/
def decodeC25 (w : W32) : Except DecodeError Instr :=
  if fld w 4 4 = 0#4 then .ok (.rswrite (fld w 20 6) (fld w 14 6) (fld w 8 6) (fld w 0 4)) else
  .error (.subField 3 (fld w 26 6))

/-- Position C, major 0x26. -/
def decodeC26 (w : W32) : Except DecodeError Instr :=
  if fld w 14 6 = 0#6 ∧ fld w 4 4 = 0#4 then .ok (.rscommit (fld w 20 6) (fld w 8 6) (fld w 0 4)) else
  .error (.subField 3 (fld w 26 6))

/-- Position C, major 0x27. -/
def decodeC27 (w : W32) : Except DecodeError Instr :=
  if fld w 14 6 = 0#6 ∧ fld w 8 6 = 0#6 ∧ fld w 4 4 = 0#4 then .ok (.rsabort (fld w 20 6) (fld w 0 4)) else
  .error (.subField 3 (fld w 26 6))

/-- Position C, major 0x28. -/
def decodeC28 (w : W32) : Except DecodeError Instr :=
  if fld w 4 4 = 0#4 then .ok (.rsstat (fld w 20 6) (fld w 14 6) (fld w 8 6) (fld w 0 4)) else
  .error (.subField 3 (fld w 26 6))

/-- The instruction of position C (R294). -/
def decodeC (w : W32) : Except DecodeError Instr :=
  if w = 0#32 then .ok .nop else
  if fld w 26 6 = 1#6 then decodeC01 w else
  if fld w 26 6 = 2#6 then decodeC02 w else
  if fld w 26 6 = 3#6 then decodeC03 w else
  if fld w 26 6 = 4#6 then decodeC04 w else
  if fld w 26 6 = 5#6 then decodeC05 w else
  if fld w 26 6 = 6#6 then decodeC06 w else
  if fld w 26 6 = 8#6 then decodeC08 w else
  if fld w 26 6 = 9#6 then decodeC09 w else
  if fld w 26 6 = 10#6 then decodeC0A w else
  if fld w 26 6 = 11#6 then decodeC0B w else
  if fld w 26 6 = 12#6 then decodeC0C w else
  if fld w 26 6 = 13#6 then decodeC0D w else
  if fld w 26 6 = 14#6 then decodeC0E w else
  if fld w 26 6 = 16#6 then decodeC10 w else
  if fld w 26 6 = 17#6 then decodeC11 w else
  if fld w 26 6 = 20#6 then decodeC14 w else
  if fld w 26 6 = 21#6 then decodeC15 w else
  if fld w 26 6 = 22#6 then decodeC16 w else
  if fld w 26 6 = 23#6 then decodeC17 w else
  if fld w 26 6 = 24#6 then decodeC18 w else
  if fld w 26 6 = 25#6 then decodeC19 w else
  if fld w 26 6 = 26#6 then decodeC1A w else
  if fld w 26 6 = 27#6 then decodeC1B w else
  if fld w 26 6 = 28#6 then decodeC1C w else
  if fld w 26 6 = 29#6 then decodeC1D w else
  if fld w 26 6 = 32#6 then decodeC20 w else
  if fld w 26 6 = 36#6 then decodeC24 w else
  if fld w 26 6 = 37#6 then decodeC25 w else
  if fld w 26 6 = 38#6 then decodeC26 w else
  if fld w 26 6 = 39#6 then decodeC27 w else
  if fld w 26 6 = 40#6 then decodeC28 w else
  .error (.unassignedMajor 3 (fld w 26 6))

/-- R269: the instructions of the ML format, which alone accept lent bits. -/
def Instr.isML : Instr → Bool
  | .ldB _ _ _ _ _ => true
  | .ldBs _ _ _ _ _ => true
  | .ldH _ _ _ _ _ => true
  | .ldHs _ _ _ _ _ => true
  | .ldW _ _ _ _ _ => true
  | .ldWs _ _ _ _ _ => true
  | .ldD _ _ _ _ _ => true
  | .stB _ _ _ _ _ => true
  | .stH _ _ _ _ _ => true
  | .stW _ _ _ _ _ => true
  | .stD _ _ _ _ _ => true
  | _ => false

/-- The header in a word of position S, if it is one (R267). -/
def decodeHeader (w : W32) : Except DecodeError Header :=
  if fld w 0 4 = 0#4 then
    .ok { b := fld w 25 1, t1 := fld w 22 3, t2 := fld w 19 3, t3 := fld w 16 3,
          x1 := fld w 12 4, x2 := fld w 8 4, x3 := fld w 4 4 }
  else .error (.lentBits 0)

/-- R266, R269: lent bits are accepted by the ML format of position M alone. -/
def lentOk (pos : Nat) (x : BitVec 4) (i : Instr) : Except DecodeError Unit :=
  if x = 0#4 ∨ i.isML = true then .ok () else .error (.lentBits pos)

/-- R302: the lowest position whose destination an earlier position names already; s0 and p0 do not count. -/
def duplicateDest (is : List (Nat × Instr)) : Option Nat :=
  let counts (r : RegName) : Bool := !(r == .s 0#6 || r == .p 0#3)
  (is.foldl (fun (acc : List RegName × Option Nat) (pi : Nat × Instr) =>
      let ds := pi.2.dests.filter counts
      match acc.2 with
      | some _ => acc
      | none => if ds.any (acc.1.contains ·) then (acc.1, some pi.1) else (acc.1 ++ ds, none)) ([], none)).2

/-- R277: the positions of a bundle whose slot, taken by itself, decodes to an instruction that owns a parameter block. -/
def blockOwners (w : BundleBits) : List Nat :=
  let owns (pos : Nat) (r : Except DecodeError Instr) : List Nat :=
    match r with
    | .ok i => if i.ownsBlock then [pos] else []
    | .error _ => []
  owns 1 (decodeV (w.extractLsb' 32 32)) ++ owns 2 (decodeM (w.extractLsb' 64 32) none) ++ owns 3 (decodeC (w.extractLsb' 96 32))

/-- The bundle in 128 bits (R264 to R269, R302): slots are examined from position 0 up, and the lowest failing position is
reported. -/
def decodeBundle (w : BundleBits) : Except DecodeError Bundle := do
  let w0 := w.extractLsb' 0 32
  let w1 := w.extractLsb' 32 32
  let w2 := w.extractLsb' 64 32
  let w3 := w.extractLsb' 96 32
  let b ← (if fld w0 26 6 = 0x3F#6 then do
      let h ← decodeHeader w0
      let v ← decodeV w1
      let _ ← lentOk 1 h.x1 v
      let m ← decodeM w2 (some h.x2)
      let _ ← lentOk 2 h.x2 m
      let c ← decodeC w3
      let _ ← lentOk 3 h.x3 c
      pure { hdr := some h, s := .nop, v := v, m := m, c := c }
    else do
      let s ← decodeS w0
      let v ← decodeV w1
      let m ← decodeM w2 none
      let c ← decodeC w3
      pure { hdr := none, s := s, v := v, m := m, c := c : Bundle })
  match duplicateDest [(0, b.s), (1, b.v), (2, b.m), (3, b.c)] with
  | some p => .error (.duplicateDest p)
  | none => .ok b

/-- R11: the little-endian value of a list of bytes. -/
def bytesToNat : List Byte → Nat
  | [] => 0
  | b :: bs => b.toNat + 256 * bytesToNat bs

/-- R11: the n low bytes of a value, lowest first. -/
def natToBytes : Nat → Nat → List Byte
  | 0, _ => []
  | n + 1, v => BitVec.ofNat 8 v :: natToBytes n (v / 256)

/-- The bundle at the head of a list of bytes, and the bytes after it. -/
def decodeBytes (bs : List Byte) : Except DecodeError (Bundle × List Byte) :=
  if bs.length < 16 then .error .short
  else (decodeBundle (BitVec.ofNat 128 (bytesToNat (bs.take 16)))).map (fun b => (b, bs.drop 16))

/-- The instruction a bundle of one instruction holds: the lowest slot that is not a NOP. -/
def Bundle.first (b : Bundle) : Instr :=
  if b.s ≠ .nop then b.s else if b.v ≠ .nop then b.v else if b.m ≠ .nop then b.m else b.c

/-- The instruction that the decoder reads from a bundle whose 128 bits are w (slot n in bits 32n + 31 to 32n, R10): the
lowest slot that is not a NOP. Bits above nbits are zero. -/
def decodeTableWord (nbits w : Nat) : Option Instr :=
  match decodeBytes (natToBytes 16 (w % 2 ^ nbits)) with
  | .ok (b, _) => some b.first
  | .error _ => none

/-- The 32 bits of a slot instruction, in its own position (R272 to R275); zero for NOP and for the device steps, which have
no encoding. -/
def Instr.encode : Instr → W32
  | .nop => 0#32
  | .add d a b g => 1#6 ++ (d ++ (a ++ (b ++ (0#4 ++ (g)))))
  | .sub d a b g => 1#6 ++ (d ++ (a ++ (b ++ (1#4 ++ (g)))))
  | .and_ d a b g => 1#6 ++ (d ++ (a ++ (b ++ (2#4 ++ (g)))))
  | .or_ d a b g => 1#6 ++ (d ++ (a ++ (b ++ (3#4 ++ (g)))))
  | .xor_ d a b g => 1#6 ++ (d ++ (a ++ (b ++ (4#4 ++ (g)))))
  | .shl d a b g => 1#6 ++ (d ++ (a ++ (b ++ (5#4 ++ (g)))))
  | .shr d a b g => 1#6 ++ (d ++ (a ++ (b ++ (6#4 ++ (g)))))
  | .sra d a b g => 1#6 ++ (d ++ (a ++ (b ++ (7#4 ++ (g)))))
  | .minS d a b g => 1#6 ++ (d ++ (a ++ (b ++ (8#4 ++ (g)))))
  | .minZ d a b g => 1#6 ++ (d ++ (a ++ (b ++ (9#4 ++ (g)))))
  | .maxS d a b g => 1#6 ++ (d ++ (a ++ (b ++ (10#4 ++ (g)))))
  | .maxZ d a b g => 1#6 ++ (d ++ (a ++ (b ++ (11#4 ++ (g)))))
  | .mul d a b g => 1#6 ++ (d ++ (a ++ (b ++ (12#4 ++ (g)))))
  | .mulhS d a b g => 1#6 ++ (d ++ (a ++ (b ++ (13#4 ++ (g)))))
  | .mulhZ d a b g => 1#6 ++ (d ++ (a ++ (b ++ (14#4 ++ (g)))))
  | .divS d a b g => 2#6 ++ (d ++ (a ++ (b ++ (0#4 ++ (g)))))
  | .divZ d a b g => 2#6 ++ (d ++ (a ++ (b ++ (1#4 ++ (g)))))
  | .remS d a b g => 2#6 ++ (d ++ (a ++ (b ++ (2#4 ++ (g)))))
  | .remZ d a b g => 2#6 ++ (d ++ (a ++ (b ++ (3#4 ++ (g)))))
  | .clz d a g => 3#6 ++ (d ++ (a ++ (0#6 ++ (0#4 ++ (g)))))
  | .ctz d a g => 3#6 ++ (d ++ (a ++ (0#6 ++ (1#4 ++ (g)))))
  | .popc d a g => 3#6 ++ (d ++ (a ++ (0#6 ++ (2#4 ++ (g)))))
  | .bext d a b g => 3#6 ++ (d ++ (a ++ (b ++ (3#4 ++ (g)))))
  | .bins d a b g => 3#6 ++ (d ++ (a ++ (b ++ (4#4 ++ (g)))))
  | .addsh d a b sh g => 4#6 ++ (d ++ (a ++ (b ++ (sh ++ (g)))))
  | .sel d a b pc g => 5#6 ++ (d ++ (a ++ (b ++ (pc ++ (g)))))
  | .addi d a imm g => 8#6 ++ (d ++ (a ++ (imm ++ (g))))
  | .andi d a imm g => 9#6 ++ (d ++ (a ++ (imm ++ (g))))
  | .ori d a imm g => 10#6 ++ (d ++ (a ++ (imm ++ (g))))
  | .xori d a imm g => 11#6 ++ (d ++ (a ++ (imm ++ (g))))
  | .shli d a sh g => 12#6 ++ (d ++ (a ++ (0#4 ++ (sh ++ (g)))))
  | .shri d a sh g => 13#6 ++ (d ++ (a ++ (0#4 ++ (sh ++ (g)))))
  | .srai d a sh g => 14#6 ++ (d ++ (a ++ (0#4 ++ (sh ++ (g)))))
  | .movi d imm g => 16#6 ++ (d ++ (imm ++ (g)))
  | .movh d imm g => 17#6 ++ (d ++ (imm ++ (g)))
  | .cmpEq pd a b g => 20#6 ++ (0#1 ++ (pd ++ (a ++ (b ++ (0#3 ++ (0#3 ++ (g)))))))
  | .cmpNe pd a b g => 20#6 ++ (0#1 ++ (pd ++ (a ++ (b ++ (1#3 ++ (0#3 ++ (g)))))))
  | .cmpLtS pd a b g => 20#6 ++ (0#1 ++ (pd ++ (a ++ (b ++ (2#3 ++ (0#3 ++ (g)))))))
  | .cmpLtZ pd a b g => 20#6 ++ (0#1 ++ (pd ++ (a ++ (b ++ (3#3 ++ (0#3 ++ (g)))))))
  | .cmpGeS pd a b g => 20#6 ++ (0#1 ++ (pd ++ (a ++ (b ++ (4#3 ++ (0#3 ++ (g)))))))
  | .cmpGeZ pd a b g => 20#6 ++ (0#1 ++ (pd ++ (a ++ (b ++ (5#3 ++ (0#3 ++ (g)))))))
  | .pand pd pa pb g => 21#6 ++ (0#1 ++ (pd ++ (pa ++ (pb ++ (0#3 ++ (0#1 ++ (0#6 ++ (g))))))))
  | .por pd pa pb g => 21#6 ++ (0#1 ++ (pd ++ (pa ++ (pb ++ (1#3 ++ (0#1 ++ (0#6 ++ (g))))))))
  | .pxor pd pa pb g => 21#6 ++ (0#1 ++ (pd ++ (pa ++ (pb ++ (2#3 ++ (0#1 ++ (0#6 ++ (g))))))))
  | .pandn pd pa pb g => 21#6 ++ (0#1 ++ (pd ++ (pa ++ (pb ++ (3#3 ++ (0#1 ++ (0#6 ++ (g))))))))
  | .pmov pd pa g => 21#6 ++ (0#1 ++ (pd ++ (pa ++ (0#4 ++ (4#3 ++ (0#1 ++ (0#6 ++ (g))))))))
  | .pset pd val g => 21#6 ++ (0#1 ++ (pd ++ (0#4 ++ (0#4 ++ (5#3 ++ (val ++ (0#6 ++ (g))))))))
  | .bra off g => 24#6 ++ (off ++ (g))
  | .call off g => 25#6 ++ (off ++ (g))
  | .brar a g => 26#6 ++ (0#6 ++ (a ++ (0#6 ++ (0#4 ++ (g)))))
  | .ret g => 27#6 ++ (0#6 ++ (0#6 ++ (0#6 ++ (0#4 ++ (g)))))
  | .loop a sm1 len => 28#6 ++ (a ++ (sm1 ++ (len ++ (0#4))))
  | .ctlr d cr => 32#6 ++ (d ++ (0#6 ++ (cr ++ (0#2))))
  | .ctlw a cr => 32#6 ++ (0#6 ++ (a ++ (cr ++ (1#2))))
  | .ctlx d a cr => 32#6 ++ (d ++ (a ++ (cr ++ (2#2))))
  | .trap imm g => 36#6 ++ (imm ++ (0#4 ++ (g)))
  | .eret g => 36#6 ++ (0#18 ++ (1#4 ++ (g)))
  | .snapst g => 36#6 ++ (0#18 ++ (2#4 ++ (g)))
  | .snaprel g => 36#6 ++ (0#18 ++ (3#4 ++ (g)))
  | .suspend g => 36#6 ++ (0#18 ++ (4#4 ++ (g)))
  | .yield g => 36#6 ++ (0#18 ++ (5#4 ++ (g)))
  | .halt g => 36#6 ++ (0#18 ++ (6#4 ++ (g)))
  | .waittl a tl cert g => 40#6 ++ (a ++ (tl ++ (cert ++ (0#1 ++ (0#2 ++ (g))))))
  | .waittlSusp a tl cert g => 40#6 ++ (a ++ (tl ++ (cert ++ (1#1 ++ (0#2 ++ (g))))))
  | .sigtl a tl g => 41#6 ++ (a ++ (tl ++ (0#1 ++ (0#1 ++ (0#2 ++ (g))))))
  | .ldB d a sp imm g => 1#6 ++ (d ++ (a ++ (sp ++ (imm.extractLsb' 0 9 ++ (g)))))
  | .ldBs d a sp imm g => 2#6 ++ (d ++ (a ++ (sp ++ (imm.extractLsb' 0 9 ++ (g)))))
  | .ldH d a sp imm g => 3#6 ++ (d ++ (a ++ (sp ++ (imm.extractLsb' 0 9 ++ (g)))))
  | .ldHs d a sp imm g => 4#6 ++ (d ++ (a ++ (sp ++ (imm.extractLsb' 0 9 ++ (g)))))
  | .ldW d a sp imm g => 5#6 ++ (d ++ (a ++ (sp ++ (imm.extractLsb' 0 9 ++ (g)))))
  | .ldWs d a sp imm g => 6#6 ++ (d ++ (a ++ (sp ++ (imm.extractLsb' 0 9 ++ (g)))))
  | .ldD d a sp imm g => 7#6 ++ (d ++ (a ++ (sp ++ (imm.extractLsb' 0 9 ++ (g)))))
  | .stB c a sp imm g => 8#6 ++ (c ++ (a ++ (sp ++ (imm.extractLsb' 0 9 ++ (g)))))
  | .stH c a sp imm g => 9#6 ++ (c ++ (a ++ (sp ++ (imm.extractLsb' 0 9 ++ (g)))))
  | .stW c a sp imm g => 10#6 ++ (c ++ (a ++ (sp ++ (imm.extractLsb' 0 9 ++ (g)))))
  | .stD c a sp imm g => 11#6 ++ (c ++ (a ++ (sp ++ (imm.extractLsb' 0 9 ++ (g)))))
  | .loadComplete _ _ => 0#32
  | .vmov vd va vm mz g => 1#6 ++ (vd ++ (va ++ (0#5 ++ (vm ++ (mz ++ (0#1 ++ (g)))))))
  | .vsplat vd sb vm mz g => 2#6 ++ (vd ++ (0#5 ++ (sb ++ (vm ++ (mz ++ (g))))))
  | .viota vd vm mz g => 3#6 ++ (vd ++ (0#5 ++ (0#5 ++ (vm ++ (mz ++ (0#1 ++ (g)))))))
  | .vextr sd va sb g => 42#6 ++ (sd ++ (va ++ (sb ++ (0#5 ++ (g)))))
  | .vins vd sb sc g => 43#6 ++ (vd ++ (sb ++ (sc ++ (0#5 ++ (g)))))
  | .vadd vd va vb vm mz g => 4#6 ++ (vd ++ (va ++ (vb ++ (vm ++ (mz ++ (0#1 ++ (g)))))))
  | .vsub vd va vb vm mz g => 5#6 ++ (vd ++ (va ++ (vb ++ (vm ++ (mz ++ (0#1 ++ (g)))))))
  | .vmul vd va vb vm mz g => 6#6 ++ (vd ++ (va ++ (vb ++ (vm ++ (mz ++ (0#1 ++ (g)))))))
  | .vfma vd va vb vc g => 7#6 ++ (vd ++ (va ++ (vb ++ (vc ++ (0#1 ++ (0#1 ++ (g)))))))
  | .vfms vd va vb vc g => 8#6 ++ (vd ++ (va ++ (vb ++ (vc ++ (0#1 ++ (0#1 ++ (g)))))))
  | .vmin vd va vb vm mz g => 9#6 ++ (vd ++ (va ++ (vb ++ (vm ++ (mz ++ (0#1 ++ (g)))))))
  | .vmax vd va vb vm mz g => 10#6 ++ (vd ++ (va ++ (vb ++ (vm ++ (mz ++ (0#1 ++ (g)))))))
  | .vdiv vd va vb vm mz g => 11#6 ++ (vd ++ (va ++ (vb ++ (vm ++ (mz ++ (0#1 ++ (g)))))))
  | .vaddBcast vd va sb vm mz g => 48#6 ++ (vd ++ (va ++ (sb ++ (vm ++ (mz ++ (g))))))
  | .vsubBcast vd va sb vm mz g => 49#6 ++ (vd ++ (va ++ (sb ++ (vm ++ (mz ++ (g))))))
  | .vmulBcast vd va sb vm mz g => 50#6 ++ (vd ++ (va ++ (sb ++ (vm ++ (mz ++ (g))))))
  | .vminBcast vd va sb vm mz g => 51#6 ++ (vd ++ (va ++ (sb ++ (vm ++ (mz ++ (g))))))
  | .vmaxBcast vd va sb vm mz g => 52#6 ++ (vd ++ (va ++ (sb ++ (vm ++ (mz ++ (g))))))
  | .vdivBcast vd va sb vm mz g => 53#6 ++ (vd ++ (va ++ (sb ++ (vm ++ (mz ++ (g))))))
  | .viaddBcast vd va sb vm mz g => 54#6 ++ (vd ++ (va ++ (sb ++ (vm ++ (mz ++ (g))))))
  | .visubBcast vd va sb vm mz g => 55#6 ++ (vd ++ (va ++ (sb ++ (vm ++ (mz ++ (g))))))
  | .vimulBcast vd va sb vm mz g => 56#6 ++ (vd ++ (va ++ (sb ++ (vm ++ (mz ++ (g))))))
  | .vandBcast vd va sb vm mz g => 57#6 ++ (vd ++ (va ++ (sb ++ (vm ++ (mz ++ (g))))))
  | .vorBcast vd va sb vm mz g => 58#6 ++ (vd ++ (va ++ (sb ++ (vm ++ (mz ++ (g))))))
  | .vxorBcast vd va sb vm mz g => 59#6 ++ (vd ++ (va ++ (sb ++ (vm ++ (mz ++ (g))))))
  | .vshlBcast vd va sb vm mz g => 60#6 ++ (vd ++ (va ++ (sb ++ (vm ++ (mz ++ (g))))))
  | .vshrBcast vd va sb vm mz g => 61#6 ++ (vd ++ (va ++ (sb ++ (vm ++ (mz ++ (g))))))
  | .vabs vd va vm mz g => 12#6 ++ (vd ++ (va ++ (0#5 ++ (vm ++ (mz ++ (0#1 ++ (g)))))))
  | .vneg vd va vm mz g => 13#6 ++ (vd ++ (va ++ (0#5 ++ (vm ++ (mz ++ (0#1 ++ (g)))))))
  | .vrcp vd va vm mz g => 14#6 ++ (vd ++ (va ++ (0#5 ++ (vm ++ (mz ++ (0#1 ++ (g)))))))
  | .vrsq vd va vm mz g => 15#6 ++ (vd ++ (va ++ (0#5 ++ (vm ++ (mz ++ (0#1 ++ (g)))))))
  | .vsqrt vd va vm mz g => 16#6 ++ (vd ++ (va ++ (0#5 ++ (vm ++ (mz ++ (0#1 ++ (g)))))))
  | .vexp2 vd va vm mz g => 17#6 ++ (vd ++ (va ++ (0#5 ++ (vm ++ (mz ++ (0#1 ++ (g)))))))
  | .vlog2 vd va vm mz g => 18#6 ++ (vd ++ (va ++ (0#5 ++ (vm ++ (mz ++ (0#1 ++ (g)))))))
  | .viadd vd va vb vm mz g => 19#6 ++ (vd ++ (va ++ (vb ++ (vm ++ (mz ++ (0#1 ++ (g)))))))
  | .visub vd va vb vm mz g => 20#6 ++ (vd ++ (va ++ (vb ++ (vm ++ (mz ++ (0#1 ++ (g)))))))
  | .vimul vd va vb vm mz g => 21#6 ++ (vd ++ (va ++ (vb ++ (vm ++ (mz ++ (0#1 ++ (g)))))))
  | .vand vd va vb vm mz g => 22#6 ++ (vd ++ (va ++ (vb ++ (vm ++ (mz ++ (0#1 ++ (g)))))))
  | .vor vd va vb vm mz g => 23#6 ++ (vd ++ (va ++ (vb ++ (vm ++ (mz ++ (0#1 ++ (g)))))))
  | .vxor vd va vb vm mz g => 24#6 ++ (vd ++ (va ++ (vb ++ (vm ++ (mz ++ (0#1 ++ (g)))))))
  | .vshl vd va vb vm mz g => 25#6 ++ (vd ++ (va ++ (vb ++ (vm ++ (mz ++ (0#1 ++ (g)))))))
  | .vshr vd va vb vm mz g => 26#6 ++ (vd ++ (va ++ (vb ++ (vm ++ (mz ++ (0#1 ++ (g)))))))
  | .vcmpEq vd va vb g => 27#6 ++ (vd ++ (va ++ (vb ++ (0#3 ++ (0#4 ++ (g))))))
  | .vcmpNe vd va vb g => 27#6 ++ (vd ++ (va ++ (vb ++ (1#3 ++ (0#4 ++ (g))))))
  | .vcmpLt vd va vb g => 27#6 ++ (vd ++ (va ++ (vb ++ (2#3 ++ (0#4 ++ (g))))))
  | .vcmpLe vd va vb g => 27#6 ++ (vd ++ (va ++ (vb ++ (3#3 ++ (0#4 ++ (g))))))
  | .vcmpGt vd va vb g => 27#6 ++ (vd ++ (va ++ (vb ++ (4#3 ++ (0#4 ++ (g))))))
  | .vcmpGe vd va vb g => 27#6 ++ (vd ++ (va ++ (vb ++ (5#3 ++ (0#4 ++ (g))))))
  | .vcmpUn vd va vb g => 27#6 ++ (vd ++ (va ++ (vb ++ (6#3 ++ (0#4 ++ (g))))))
  | .vsel vd va vb vc g => 28#6 ++ (vd ++ (va ++ (vb ++ (vc ++ (0#1 ++ (0#1 ++ (g)))))))
  | .vcvtFi vd va vm mz g => 29#6 ++ (vd ++ (va ++ (0#5 ++ (vm ++ (mz ++ (0#1 ++ (g)))))))
  | .vcvtFit vd va vm mz g => 29#6 ++ (vd ++ (va ++ (1#5 ++ (vm ++ (mz ++ (0#1 ++ (g)))))))
  | .vcvtIf vd va vm mz g => 29#6 ++ (vd ++ (va ++ (2#5 ++ (vm ++ (mz ++ (0#1 ++ (g)))))))
  | .vcvtFb vd va vm mz g => 29#6 ++ (vd ++ (va ++ (3#5 ++ (vm ++ (mz ++ (0#1 ++ (g)))))))
  | .vcvtFt8 vd va vm mz g => 29#6 ++ (vd ++ (va ++ (4#5 ++ (vm ++ (mz ++ (0#1 ++ (g)))))))
  | .vcvtFt6 vd va vm mz g => 29#6 ++ (vd ++ (va ++ (5#5 ++ (vm ++ (mz ++ (0#1 ++ (g)))))))
  | .vredSum vd va g => 30#6 ++ (vd ++ (va ++ (0#5 ++ (0#5 ++ (0#1 ++ (0#1 ++ (g)))))))
  | .vredMax vd va g => 30#6 ++ (vd ++ (va ++ (1#5 ++ (0#5 ++ (0#1 ++ (0#1 ++ (g)))))))
  | .vredMin vd va g => 30#6 ++ (vd ++ (va ++ (2#5 ++ (0#5 ++ (0#1 ++ (0#1 ++ (g)))))))
  | .vrrowSum vd va g => 31#6 ++ (vd ++ (va ++ (0#5 ++ (0#5 ++ (0#1 ++ (0#1 ++ (g)))))))
  | .vrrowMax vd va g => 31#6 ++ (vd ++ (va ++ (1#5 ++ (0#5 ++ (0#1 ++ (0#1 ++ (g)))))))
  | .vrrowMin vd va g => 31#6 ++ (vd ++ (va ++ (2#5 ++ (0#5 ++ (0#1 ++ (0#1 ++ (g)))))))
  | .vscanSum vd va g => 32#6 ++ (vd ++ (va ++ (0#5 ++ (0#5 ++ (0#1 ++ (0#1 ++ (g)))))))
  | .vscanMax vd va g => 32#6 ++ (vd ++ (va ++ (1#5 ++ (0#5 ++ (0#1 ++ (0#1 ++ (g)))))))
  | .vscanMin vd va g => 32#6 ++ (vd ++ (va ++ (2#5 ++ (0#5 ++ (0#1 ++ (0#1 ++ (g)))))))
  | .vcnt sd va g => 33#6 ++ (sd ++ (va ++ (0#6 ++ (0#5 ++ (g)))))
  | .vocc sd va g => 35#6 ++ (sd ++ (va ++ (0#6 ++ (0#5 ++ (g)))))
  | .vrcoal vd va tol g => 34#6 ++ (vd ++ (va ++ (tol ++ (0#5 ++ (0#1 ++ (0#1 ++ (g)))))))
  | .vreshape vd va g => 36#6 ++ (vd ++ (va ++ (0#5 ++ (0#5 ++ (0#1 ++ (0#1 ++ (g)))))))
  | .vbrow vd va g => 37#6 ++ (vd ++ (va ++ (0#5 ++ (0#5 ++ (0#1 ++ (0#1 ++ (g)))))))
  | .vbcol vd va g => 38#6 ++ (vd ++ (va ++ (0#5 ++ (0#5 ++ (0#1 ++ (0#1 ++ (g)))))))
  | .vperm vd va pat g => 39#6 ++ (vd ++ (va ++ (pat ++ (0#6 ++ (g)))))
  | .patld va pat g => 40#6 ++ (0#5 ++ (va ++ (pat ++ (0#6 ++ (g)))))
  | .patsw g => 41#6 ++ (0#5 ++ (0#5 ++ (0#5 ++ (0#5 ++ (0#1 ++ (0#1 ++ (g)))))))
  | .vattc vd va vb g => 44#6 ++ (vd ++ (va ++ (vb ++ (0#5 ++ (0#1 ++ (0#1 ++ (g)))))))
  | .vld v a sp fsel pb g => 32#6 ++ (v ++ (a ++ (sp ++ (fsel ++ (pb ++ (0#5 ++ (g)))))))
  | .vlds v a sp fsel pb g => 33#6 ++ (v ++ (a ++ (sp ++ (fsel ++ (pb ++ (0#5 ++ (g)))))))
  | .vldRun v a sp pb g => 34#6 ++ (v ++ (a ++ (sp ++ (0#4 ++ (pb ++ (0#5 ++ (g)))))))
  | .vectorLoadComplete _ _ => 0#32
  | .vst v a sp fsel pb g => 35#6 ++ (v ++ (a ++ (sp ++ (fsel ++ (pb ++ (0#5 ++ (g)))))))
  | .vstRun v a sp pb g => 36#6 ++ (v ++ (a ++ (sp ++ (0#4 ++ (pb ++ (0#5 ++ (g)))))))
  | .tagrd d a sp g => 37#6 ++ (d ++ (a ++ (0#6 ++ (sp ++ (0#3 ++ (g))))))
  | .tagwr a b sp g => 38#6 ++ (0#6 ++ (a ++ (b ++ (sp ++ (0#3 ++ (g))))))
  | .prefL1 base len => 44#6 ++ (base ++ (len ++ (0#3 ++ (0#11))))
  | .prefL2 base len => 44#6 ++ (base ++ (len ++ (1#3 ++ (0#11))))
  | .cflush base len => 44#6 ++ (base ++ (len ++ (2#3 ++ (0#11))))
  | .cinv base len => 44#6 ++ (base ++ (len ++ (3#3 ++ (0#11))))
  | .osclaim os g => 48#6 ++ (os ++ (0#1 ++ (0#17 ++ (g))))
  | .osclaimT os g => 48#6 ++ (os ++ (1#1 ++ (0#17 ++ (g))))
  | .osrel os g => 49#6 ++ (os ++ (0#1 ++ (0#17 ++ (g))))
  | .slotFree _ _ => 0#32
  | .mma acc sa sb bar g => 40#6 ++ (acc ++ (sa ++ (sb ++ (bar ++ (0#8 ++ (g))))))
  | .mmaz acc sa sb bar g => 41#6 ++ (acc ++ (sa ++ (sb ++ (bar ++ (0#8 ++ (g))))))
  | .mmaComplete _ _ _ => 0#32
  | .accrd v acc rg cls g => 42#6 ++ (v ++ (acc ++ (rg ++ (cls ++ (0#12 ++ (g))))))
  | .accwr v acc rg g => 43#6 ++ (v ++ (acc ++ (rg ++ (0#1 ++ (0#12 ++ (g))))))
  | .accz acc g => 45#6 ++ (0#5 ++ (acc ++ (0#2 ++ (0#1 ++ (0#12 ++ (g))))))
  | .accst acc a sp g => 46#6 ++ (acc ++ (a ++ (sp ++ (0#13 ++ (g)))))
  | .efrw a g => 50#6 ++ (0#5 ++ (a ++ (0#11 ++ (g))))
  | .ctwr v a g => 51#6 ++ (v ++ (a ++ (0#11 ++ (g))))
  | .spswap g => 52#6 ++ (0#22 ++ (g))
  | .cpy a b ssp dsp g => 1#6 ++ (a ++ (b ++ (ssp ++ (dsp ++ (0#6 ++ (g))))))
  | .cpyMma a dslot oslot acc side z ssp g => 2#6 ++ (a ++ (dslot ++ (oslot ++ (acc ++ (side ++ (z ++ (ssp ++ (0#2 ++ (g)))))))))
  | .cpyg a b c los g => 3#6 ++ (a ++ (b ++ (c ++ (los ++ (0#3 ++ (g))))))
  | .cpys a b c los g => 4#6 ++ (a ++ (b ++ (c ++ (los ++ (0#3 ++ (g))))))
  | .cpyw a b dos g => 5#6 ++ (a ++ (b ++ (dos ++ (0#9 ++ (g)))))
  | .copyLand _ _ _ => 0#32
  | .followOnMma _ _ => 0#32
  | .bte a b c tag => 6#6 ++ (a ++ (b ++ (c ++ (0#1 ++ (tag)))))
  | .bteTransferEnd _ _ => 0#32
  | .barInit obj a b g => 8#6 ++ (obj ++ (a ++ (b ++ (0#1 ++ (0#1 ++ (0#3 ++ (g)))))))
  | .barLink obj a g => 9#6 ++ (obj ++ (a ++ (0#6 ++ (0#1 ++ (0#1 ++ (0#3 ++ (g)))))))
  | .barExp obj a g => 10#6 ++ (obj ++ (a ++ (0#6 ++ (0#1 ++ (0#1 ++ (0#3 ++ (g)))))))
  | .barArr obj g => 11#6 ++ (obj ++ (0#6 ++ (0#6 ++ (0#1 ++ (0#1 ++ (0#3 ++ (g)))))))
  | .barWait obj a tr g => 12#6 ++ (obj ++ (a ++ (0#6 ++ (0#1 ++ (tr ++ (0#3 ++ (g)))))))
  | .barWaitS obj a tr g => 12#6 ++ (obj ++ (a ++ (0#6 ++ (1#1 ++ (tr ++ (0#3 ++ (g)))))))
  | .barTest obj a d g => 13#6 ++ (obj ++ (a ++ (d ++ (0#1 ++ (0#1 ++ (0#3 ++ (g)))))))
  | .barStat obj a d g => 14#6 ++ (obj ++ (a ++ (d ++ (0#1 ++ (0#1 ++ (0#3 ++ (g)))))))
  | .seqMma a b c g => 16#6 ++ (a ++ (b ++ (c ++ (0#4 ++ (g)))))
  | .seqCpy a b c g => 17#6 ++ (a ++ (b ++ (c ++ (0#4 ++ (g)))))
  | .seqStepIssue _ _ => 0#32
  | .amoAdd d a b ord scope w => 16#6 ++ (d ++ (a ++ (b ++ (ord ++ (scope ++ (w ++ (0#2)))))))
  | .amoAnd d a b ord scope w => 17#6 ++ (d ++ (a ++ (b ++ (ord ++ (scope ++ (w ++ (0#2)))))))
  | .amoOr d a b ord scope w => 18#6 ++ (d ++ (a ++ (b ++ (ord ++ (scope ++ (w ++ (0#2)))))))
  | .amoXor d a b ord scope w => 19#6 ++ (d ++ (a ++ (b ++ (ord ++ (scope ++ (w ++ (0#2)))))))
  | .amoMinS d a b ord scope w => 20#6 ++ (d ++ (a ++ (b ++ (ord ++ (scope ++ (w ++ (0#2)))))))
  | .amoMaxS d a b ord scope w => 21#6 ++ (d ++ (a ++ (b ++ (ord ++ (scope ++ (w ++ (0#2)))))))
  | .amoXchg d a b ord scope w => 22#6 ++ (d ++ (a ++ (b ++ (ord ++ (scope ++ (w ++ (0#2)))))))
  | .amoCas d a b ord scope w => 23#6 ++ (d ++ (a ++ (b ++ (ord ++ (scope ++ (w ++ (0#2)))))))
  | .lda d a scope w => 24#6 ++ (d ++ (a ++ (0#6 ++ (0#2 ++ (scope ++ (w ++ (0#2)))))))
  | .stl a b scope w => 25#6 ++ (0#6 ++ (a ++ (b ++ (0#2 ++ (scope ++ (w ++ (0#2)))))))
  | .fence scope kind g => 26#6 ++ (scope ++ (kind ++ (0#17 ++ (g))))
  | .xfence p1 p2 scope g => 27#6 ++ (p1 ++ (p2 ++ (scope ++ (0#13 ++ (g)))))
  | .waitv a b t cond w scope => 28#6 ++ (a ++ (b ++ (t ++ (cond ++ (w ++ (0#1 ++ (scope)))))))
  | .waitvS a b t cond w scope => 28#6 ++ (a ++ (b ++ (t ++ (cond ++ (w ++ (1#1 ++ (scope)))))))
  | .waitTimeout _ => 0#32
  | .kvwalk a b c g => 20#6 ++ (a ++ (b ++ (c ++ (0#4 ++ (g)))))
  | .kvapp a b c g => 21#6 ++ (a ++ (b ++ (c ++ (0#4 ++ (g)))))
  | .kvcommit c g => 22#6 ++ (0#6 ++ (0#6 ++ (c ++ (0#4 ++ (g)))))
  | .kvfork a g => 23#6 ++ (a ++ (0#6 ++ (0#6 ++ (0#4 ++ (g)))))
  | .kvroll a g => 24#6 ++ (a ++ (0#6 ++ (0#6 ++ (0#4 ++ (g)))))
  | .kvsplice a b c g => 25#6 ++ (a ++ (b ++ (c ++ (0#4 ++ (g)))))
  | .kvprov a b g => 26#6 ++ (a ++ (b ++ (0#6 ++ (0#4 ++ (g)))))
  | .repairM a b c g => 27#6 ++ (a ++ (b ++ (c ++ (0#4 ++ (g)))))
  | .repairI a b c g => 27#6 ++ (a ++ (b ++ (c ++ (1#4 ++ (g)))))
  | .repstat c g => 28#6 ++ (0#6 ++ (0#6 ++ (c ++ (0#4 ++ (g)))))
  | .attq a b c g => 29#6 ++ (a ++ (b ++ (c ++ (0#4 ++ (g)))))
  | .attqRo a b c g => 29#6 ++ (a ++ (b ++ (c ++ (1#4 ++ (g)))))
  | .kvAccept _ _ => 0#32
  | .kvComplete _ _ => 0#32
  | .kvPoolWaitEnd _ _ => 0#32
  | .collPut a b c g => 32#6 ++ (a ++ (b ++ (c ++ (0#4 ++ (g)))))
  | .collGet a b c g => 32#6 ++ (a ++ (b ++ (c ++ (1#4 ++ (g)))))
  | .collAdd a b c g => 32#6 ++ (a ++ (b ++ (c ++ (2#4 ++ (g)))))
  | .collMax a b c g => 32#6 ++ (a ++ (b ++ (c ++ (3#4 ++ (g)))))
  | .collMin a b c g => 32#6 ++ (a ++ (b ++ (c ++ (4#4 ++ (g)))))
  | .collChunkReceive _ => 0#32
  | .collAck _ _ _ => 0#32
  | .collChunkTimeout _ _ => 0#32
  | .collComplete _ _ => 0#32
  | .rsbegin a c g => 36#6 ++ (a ++ (0#6 ++ (c ++ (0#4 ++ (g)))))
  | .rswrite a b c g => 37#6 ++ (a ++ (b ++ (c ++ (0#4 ++ (g)))))
  | .rscommit a c g => 38#6 ++ (a ++ (0#6 ++ (c ++ (0#4 ++ (g)))))
  | .rsabort a g => 39#6 ++ (a ++ (0#6 ++ (0#6 ++ (0#4 ++ (g)))))
  | .rsstat a b c g => 40#6 ++ (a ++ (b ++ (c ++ (0#4 ++ (g)))))
  | .journalWriteAttempt _ _ => 0#32
  | .commitRecord _ => 0#32
  | .resoleApply _ _ => 0#32
  | .trapEntry _ _ => 0#32
  | .watchdog _ _ => 0#32
  | .continuationPlace _ _ => 0#32
  | .ageing _ _ => 0#32
  | .placementBound _ _ => 0#32
  | .waitWake _ _ => 0#32
  | .preemptRequest _ => 0#32
  | .preemptSaveComplete _ => 0#32
  | .saveDeadline _ => 0#32
  | .frameRestore _ _ _ => 0#32
  | .migrationRequest _ _ => 0#32
  | .migrationStop _ => 0#32
  | .migrationFallback _ => 0#32
  | .kick _ _ => 0#32
  | .map _ => 0#32
  | .park _ => 0#32
  | .parkComplete _ => 0#32
  | .resume _ => 0#32
  | .unmap _ => 0#32
  | .packetFetch _ => 0#32
  | .nopPacket _ => 0#32
  | .launch _ => 0#32
  | .gang _ => 0#32
  | .gangRetry _ => 0#32
  | .gangBound _ => 0#32
  | .signal _ => 0#32
  | .waittlPacket _ => 0#32
  | .waittlPacketTimeout _ => 0#32
  | .btePacket _ => 0#32
  | .kill _ => 0#32
  | .killComplete _ => 0#32
  | .fencePacket _ => 0#32
  | .marker _ => 0#32
  | .open_ _ => 0#32
  | .close _ => 0#32
  | .buffers _ => 0#32
  | .send _ => 0#32
  | .packetComplete _ => 0#32
  | .tladd _ _ => 0#32
  | .tlbiRange _ => 0#32
  | .tlbiAsid _ => 0#32
  | .tlbiGlobalRange => 0#32
  | .tlbiAll => 0#32
  | .tlbiReserved _ => 0#32
  | .tlbiComplete => 0#32
  | .pin _ _ _ => 0#32
  | .unpin _ _ => 0#32
  | .pinComplete _ _ => 0#32
  | .lcidMapWrite _ _ => 0#32
  | .scanRequest _ _ => 0#32
  | .scanComplete _ _ _ => 0#32
  | .suspack _ => 0#32
  | .apply => 0#32
  | .errorDetected _ => 0#32
  | .tileIdleRet _ => 0#32
  | .tileIdleOff _ => 0#32
  | .tileWakeComplete _ => 0#32
  | .targetActive => 0#32
  | .targetListen => 0#32
  | .targetDormant => 0#32
  | .wakeComplete => 0#32
  | .alarm => 0#32
  | .thermalWarn _ => 0#32
  | .thermalThrottle _ => 0#32
  | .throttleEnd _ => 0#32
  | .thermalTrip _ => 0#32
  | .powerCap => 0#32
  | .powerLoss => 0#32
  | .coldStart _ _ => 0#32
  | .install => 0#32
  | .advance => 0#32
  | .attest => 0#32
  | .tcmopen => 0#32
  | .securityCommandComplete _ _ => 0#32
  | .h2fdbWrite _ => 0#32
  | .f2hdbWrite _ => 0#32
  | .hostRead _ _ => 0#32
  | .hostWrite _ _ => 0#32
  | .hostAtomic _ _ _ _ _ => 0#32
  | .hostCompletion _ _ => 0#32
  | .hostLinkTimeout _ => 0#32
  | .hivtEnable _ _ => 0#32
  | .ethFrameReceive _ _ => 0#32
  | .tustep _ => 0#32
  | .rtpPacketReceive _ _ _ => 0#32
  | .frameStart _ => 0#32
  | .frameDeadline _ => 0#32
  | .frameTransmit _ => 0#32
  | .traceResume _ => 0#32
  | .monitorClear _ _ => 0#32
  | .registerWrite _ _ _ _ => 0#32
  | .ethLinkChange _ _ => 0#32
  | .hostLinkTraining _ => 0#32
  | .powerCapRelease => 0#32
  | .trippedTileCooled _ => 0#32
  | .accstLand _ _ => 0#32
  | .monitorTemperatureSample _ _ _ => 0#32

/-- R269, R298: the bits 12:9 of an ML immediate, lent by the header's X2. -/
def Instr.ext : Instr → BitVec 4
  | .ldB _ _ _ imm _ => imm.extractLsb' 9 4
  | .ldBs _ _ _ imm _ => imm.extractLsb' 9 4
  | .ldH _ _ _ imm _ => imm.extractLsb' 9 4
  | .ldHs _ _ _ imm _ => imm.extractLsb' 9 4
  | .ldW _ _ _ imm _ => imm.extractLsb' 9 4
  | .ldWs _ _ _ imm _ => imm.extractLsb' 9 4
  | .ldD _ _ _ imm _ => imm.extractLsb' 9 4
  | .stB _ _ _ imm _ => imm.extractLsb' 9 4
  | .stH _ _ _ imm _ => imm.extractLsb' 9 4
  | .stW _ _ _ imm _ => imm.extractLsb' 9 4
  | .stD _ _ _ imm _ => imm.extractLsb' 9 4
  | _ => 0#4

/-- R298: whether an instruction needs a header (an ML immediate outside -256 to 255). -/
def Instr.needsHeader : Instr → Bool
  | .ldB _ _ _ imm _ => mlImm none (imm.extractLsb' 0 9) != imm
  | .ldBs _ _ _ imm _ => mlImm none (imm.extractLsb' 0 9) != imm
  | .ldH _ _ _ imm _ => mlImm none (imm.extractLsb' 0 9) != imm
  | .ldHs _ _ _ imm _ => mlImm none (imm.extractLsb' 0 9) != imm
  | .ldW _ _ _ imm _ => mlImm none (imm.extractLsb' 0 9) != imm
  | .ldWs _ _ _ imm _ => mlImm none (imm.extractLsb' 0 9) != imm
  | .ldD _ _ _ imm _ => mlImm none (imm.extractLsb' 0 9) != imm
  | .stB _ _ _ imm _ => mlImm none (imm.extractLsb' 0 9) != imm
  | .stH _ _ _ imm _ => mlImm none (imm.extractLsb' 0 9) != imm
  | .stW _ _ _ imm _ => mlImm none (imm.extractLsb' 0 9) != imm
  | .stD _ _ _ imm _ => mlImm none (imm.extractLsb' 0 9) != imm
  | _ => false

/-- The word of a header (R267). -/
def Header.encode (h : Header) : W32 :=
  0x3F#6 ++ (h.b ++ (h.t1 ++ (h.t2 ++ (h.t3 ++ (h.x1 ++ (h.x2 ++ (h.x3 ++ 0#4)))))))

/-- The 128 bits of a bundle (R264): position 0 in the low bits. -/
def Bundle.encode (b : Bundle) : BundleBits :=
  let w0 := match b.hdr with
    | some h => h.encode
    | none => b.s.encode
  b.c.encode ++ (b.m.encode ++ (b.v.encode ++ w0))

/-- The words of a bundle that holds one slot instruction alone, with a header where its immediate needs one. -/
def Instr.alone (i : Instr) : Bundle :=
  let h : Header := { b := 0, t1 := 0, t2 := 0, t3 := 0, x1 := 0, x2 := i.ext, x3 := 0 }
  { hdr := if i.needsHeader then some h else none,
    s := if i.pos = some 0 then i else .nop,
    v := if i.pos = some 1 then i else .nop,
    m := if i.pos = some 2 then i else .nop,
    c := if i.pos = some 3 then i else .nop }

end Sys2Proof
end

