-- ==== Sys2Proof/Machine/Seat.lean ====
section
/-! DEFINITION. The state of one seat: its register files with their full/empty bits, its per-seat control registers, its
program counter and the bookkeeping of traps, suspension and buffer phases (R203 to R236, R281 to R290, R321 to R326). -/

namespace Sys2Proof.Machine

/-- A finite map by number, in ascending order of the key with no key twice; a key that is not listed has a default that the
reader of the map names. -/
abbrev Assoc (α : Type) := List (Nat × α)

/-- R222, R225, R303, R362: whether a register is full. `soon b` is a result of a fixed distance, full from the seat's bundle
b on, and `lateFault b` a faulted one of a fixed distance; `pending t` waits for the operation with identity t. -/
inductive Fill where
  | full
  | soon (at_ : Nat)
  | pending (tag : Nat)
  | orphaned
  | faulted (cause : BitVec 8) (faddr : Word)
  | lateFault (at_ : Nat) (cause : BitVec 8) (faddr : Word)
  deriving DecidableEq, Repr

/-- A scalar register (R281). -/
structure SReg where
  val : Word
  fill : Fill
  deriving DecidableEq, Repr

/-- A predicate register (R281). -/
structure PReg where
  val : Bool
  fill : Fill
  deriving DecidableEq, Repr

/-- A vector run register (R281, R332): its shape and its runs of (value, count). -/
structure VReg where
  rows : Nat
  cols : Nat
  runs : List (W32 × Nat)
  fill : Fill
  deriving DecidableEq, Repr

/-- The register files of a seat: s0 to s63, p0 to p7 and the physical v0 to v31 (R281, R283). -/
structure RegFile where
  s : Assoc SReg
  p : Assoc PReg
  v : Assoc VReg
  deriving DecidableEq, Repr

/-- The per-seat control registers of R289. LCID, TOPO, ASID's reserved bits, CYCLE and PTPTIME are computed where they are
read; AGE belongs to the core. -/
structure CtlRegs where
  shape : W32
  efr : W32
  rot : W32
  role : W32
  ctabsel : W32
  vflags : W32
  repthr : W32
  kvseq : W32
  stage : Word
  loopb : Word
  phaseEn : Bool
  spwin : W32
  asid : BitVec 16
  gcoord : Word
  trapvec : Word
  cause : W32
  faddr : Word
  snapbase : Word
  epc : Word
  deriving DecidableEq, Repr

/-- A translated page of an operation in flight: virtual page base, physical base, size and the leaf's attributes. -/
structure PageMap where
  va : Nat
  pa : Nat
  size : Nat
  cp : BitVec 3
  deriving DecidableEq, Repr

/-- R132, R133: an entry of a TLB: the virtual page, its size, the leaf as installed, its level, and where it stands in memory, which
a write through D = 0 reads again (R135). -/
structure TlbEntry where
  asid : BitVec 16
  va : Nat
  size : Nat
  leaf : Word
  level : Nat
  at_ : Nat
  deriving DecidableEq, Repr

/-- The KV operations (R410). -/
inductive KvKind where
  | walk | app | commit | fork | roll | splice | prov | repairM | repairI | repstat
  | attq (ro : Bool)
  deriving DecidableEq, Repr

/-- R177: a row of a KV block as the walker reads it: its bytes, the tag of each 64-byte unit that it lies in, and its head's scale. -/
structure KvRow where
  tags : List (BitVec 16)
  scale : Byte
  bytes : List Byte
  deriving DecidableEq, Repr

/-- R197, R200: a position that an ATTQ reads: the slice that counts it, and its key and value rows, head by head, as the step found
them. -/
structure KvSample where
  slice : Nat
  pos : Nat
  rows : List (KvRow × KvRow)
  deriving DecidableEq, Repr

/-- A KV operation (R410 to R421): its captured operands; the node frames it has taken while it waits for more; and, once it is
accepted, its record, result and progress. -/
structure KvOp where
  seat : Nat
  asid : BitVec 16
  handle : W32
  kind : KvKind
  a : Word
  b : Word
  c : Word
  dst : Option (BitVec 6)
  rows : Nat
  cols : Nat
  stride : Nat
  aux : W32
  scale : BitVec 8
  repthr : W32
  /-- R414, R417: the pages of a buffer that is translated before issue. -/
  maps : List PageMap
  got : List Nat
  /-- The physical address of the sequence record. -/
  rcd : Nat
  /-- The result of an operation whose step is the whole of it; VAL of the status word of another. -/
  result : Word
  /-- R411, R421: the cause and reason recorded after the step, with VAL. -/
  failed : Option (BitVec 8 × BitVec 8 × W32)
  /-- R193: 0 measuring, 1 replacing, 2 installing; the next position or entry; the positions flagged; the nodes locked. -/
  stage : Nat
  next : Nat
  flagged : List Nat
  locks : List Nat
  /-- R176: the pool that it waits for. -/
  pool : Option Nat
  sample : List KvSample
  /-- R417: the bytes that a KVPROV is to write. -/
  out : List Byte
  /-- R495: the outstanding request to the host, and the bytes that such reads have brought. -/
  hostOut : Option Nat
  hostData : List (Nat × List Byte)
  /-- R411, R495: its writes that the host has not acknowledged, and whether its work has ended but for them. -/
  writes : Nat
  isOver : Bool
  deriving DecidableEq, Repr

/-- What a source operand is read from: the register files and the control registers. -/
structure SeatFile where
  regs : RegFile
  ctl : CtlRegs
  deriving DecidableEq, Repr

/-- A continuation record with its placement tag (R204, R205, R210): eight words and the tag; and whether its wait has
reached its deadline (R409). -/
structure Cont where
  w0 : Word
  w1 : Word
  s : List Word
  tag : Word
  expired : Bool
  deriving DecidableEq, Repr

/-- What a waiting record is keyed on (R208, R209). -/
inductive WaitKey where
  | timeline (tl : Nat) (cert : Bool) (h : Word)
  | leaf (core obj : Nat) (parity : Bool)
  | root (cluster obj : Nat) (parity : Bool)
  | line (pa : Nat)
  deriving DecidableEq, Repr

/-- Why a seat does not issue (R220, R223, R224); the register it waits for, in the layout of R225, or none. -/
structure Stall where
  reg : Option (BitVec 8)
  /-- R408: a WAITV in its stall form with a timeout: the FADDR of its WAIT_TIMEOUT. -/
  waitv : Option Word
  /-- R111, R523: it stalls for an entry of the scoreboard. -/
  score : Bool := false
  deriving DecidableEq, Repr

/-- R160: what the fences of a seat hold back: its stores wait for the host's writes and for the vector loads named first, its loads and
stores for those named last. -/
structure Fence where
  writes : List Nat
  loads : List Nat
  all : List Nat
  deriving DecidableEq, Repr

/-- R327, R328, R208: the ways a seat leaves its program. -/
inductive Leave where
  | halt
  | suspend (pa : Nat) (cp : BitVec 3)
  | yield
  | wait (key : WaitKey) (timeout : Nat)
  deriving DecidableEq, Repr

/-- A cause on its way into a trap: code, FADDR, slot, PBLK, and the bundle EPC is to name (R433, R435). -/
structure Entry where
  cause : BitVec 8
  faddr : Word
  slot : Nat
  pblk : Bool
  epc : BitVec 51
  deriving DecidableEq, Repr

/-- R396 to R399: a sequencer macro-op in progress: kind (1 SEQ.MMA, 2 SEQ.CPY), the captured operands, the next unissued
step, the parameter block after substitution and the captured formats. -/
structure Sequencer where
  kind : Nat
  a : Word
  b : Word
  c : W32
  next : Nat
  block : List W32
  l6q : BitVec 2
  efr : BitVec 13
  /-- R399: its next step has faulted, and waits for the return from the trap. -/
  stuck : Bool
  deriving DecidableEq, Repr

/-- R457, R458: what a commit point records of its seat, and what has happened in the phase since. -/
structure PhaseSnap where
  file : SeatFile
  pc : BitVec 51
  tm : Bool
  live : Option (List Byte)
  snapDone : Bool
  /-- R459: the seat has entered a trap handler during the phase. -/
  trapped : Bool
  /-- The running number of operations at the commit: a copy with a smaller number belongs to an earlier phase. -/
  ops : Nat
  issued : Nat
  /-- R71: the EFR writes pending at the commit. -/
  efrPend : List (Nat × W32)
  /-- R467: the CRC at the commit, which both members of a pair had. -/
  crc : Word
  deriving DecidableEq, Repr

/-- A seat's occupation. -/
inductive SeatRun where
  /-- The seat holds no continuation. -/
  | idle
  /-- It issues bundles. -/
  | running
  /-- It waits for its registers before it leaves (R212, R328). -/
  | leaving (l : Leave)
  /-- R435: it waits for the producers of s56 to s63 before it enters a trap. -/
  | entering (e : Entry)
  /-- R232, R235: stopped for pre-emption or migration. -/
  | stopped
  deriving DecidableEq, Repr

/-- One seat. -/
structure Seat where
  run : SeatRun
  file : SeatFile
  /-- The values before the bundle that the slots of one bundle read (R301). -/
  latch : Option SeatFile
  pc : BitVec 51
  /-- The next PC and whether a taken branch set it (R284, R318). -/
  npc : BitVec 51
  taken : Bool
  /-- The seat's own issued bundles (R7). -/
  issued : Nat
  /-- R321: the trap mask, the live snapshot buffer and whether a SNAPST has issued since the trap entry. -/
  tm : Bool
  /-- The trap mask before the bundle whose slots run, which they read (R325, R326). -/
  tmWas : Option Bool
  live : Option (List Byte)
  snapDone : Bool
  /-- R71: pending EFR writes, with the bundle from which each is in effect. -/
  efrPend : List (Nat × W32)
  /-- R62, R360, R377: flags that arrive with a result of a fixed distance, with the bundle from which that is full. -/
  vfPend : List (Nat × W32)
  /-- R288: the destination registers of V-slot operations and loads from scratchpad (numbered as R225 does, a vector register by its
  physical number), with the bundle from which each is full. -/
  vBusy : List (BitVec 8 × Nat)
  /-- R303: the bundle from which the divider is free. -/
  divFree : Nat
  /-- R303: the register of its result. -/
  divDst : BitVec 6
  seq : Option Sequencer
  /-- R433 item 1 and item 2: a deferred cause, and the pending asynchronous causes. -/
  deferred : Option Entry
  async : List (BitVec 8 × Word)
  stall : Option Stall
  /-- The continuation as it was placed: its record and its tag (R206, R210). -/
  cont : Cont
  /-- The order in which the front end placed it, for "placed longest ago" (R216). -/
  placed : Nat
  /-- R176, R412: the KV operation that waits for its step, and the one that KV_ACCEPT has accepted, with its number among the
operations in flight, whose bundle has still to issue. -/
  kvHeld : Option KvOp
  kvDone : Option (Nat × KvOp)
  /-- R495: the host-window read the seat waits for, by its request number. -/
  hostWait : Option Nat
  /-- What such reads have brought: by physical address the bytes so far, and whether one has failed. -/
  hostData : List (Nat × List Byte × Bool)
  /-- R495: a posted store of the seat has failed; its next SYS-scope release raises HOST_ERROR with this FADDR. -/
  hostFailed : Option Word
  /-- R457 to R459: the last commit, and the number of the buffer phase. -/
  snap : Option PhaseSnap
  phaseNo : Nat
  /-- R462: the cores that have run the continuation since its placement. -/
  ranOn : List Nat
  /-- R466: membership of a redundant pair: the partner core and whether this member is the primary. -/
  pair : Option (Nat × Bool)
  /-- R455: the present phase is the rerun of a phase rolled back for consumption. -/
  rerun : Bool
  /-- R468: the present phase is the rerun of a phase in which the pair diverged. -/
  apart : Bool
  /-- R467: the running CRC-64 of a member of a pair. -/
  crc : Word
  /-- R433: a HALT, SUSPEND or YIELD whose bundle has issued, and which takes place once the handler of a cause that came first has
  returned to the bundle after it. -/
  leave : Option (Leave × BitVec 51)
  /-- R127: the translations of a bundle of which one slot has begun a step that cannot be taken back: they hold until it issues. -/
  keep : Option (List TlbEntry)
  /-- R127, R412: that step has been taken, so the bundle issues before anything else takes place at the seat. -/
  firm : Bool
  /-- R433, R451: the next bundle of the seat has been looked at for a cause that is due since its core was to be pre-empted. -/
  judged : Bool
  /-- R160: what its fences hold back. -/
  fence : Fence
  deriving DecidableEq, Repr

/-- R206: the registers a placement leaves. -/
def RegFile.reset : RegFile := { s := [], p := [], v := [] }

/-- R290 and the registers' own rules: the per-seat control registers after placement. -/
def CtlRegs.reset : CtlRegs :=
  { shape := 0x0101#32, efr := 0x0444#32, rot := 0, role := 1#32, ctabsel := 0, vflags := 0, repthr := 0x3D4CCCCD#32,
    kvseq := 0, stage := 0, loopb := 0, phaseEn := false, spwin := 0, asid := 0, gcoord := 0, trapvec := 0, cause := 0,
    faddr := 0, snapbase := 0, epc := 0 }

def SeatFile.reset : SeatFile := { regs := RegFile.reset, ctl := CtlRegs.reset }

/-- R210: a tag that names no launch. -/
def Cont.none : Cont := { w0 := 0, w1 := 0, s := [], tag := 0x7FF#64, expired := false }

/-- A seat after reset: idle. -/
def Seat.reset : Seat :=
  { run := .idle, file := SeatFile.reset, latch := none, pc := 0, npc := 0, taken := false, issued := 0, tm := false, tmWas := none,
    live := none, snapDone := false, efrPend := [], vfPend := [], vBusy := [], divFree := 0, divDst := 0, seq := none, deferred := none, async := [], stall := none,
    cont := Cont.none, placed := 0, kvHeld := none, kvDone := none, hostWait := none, hostData := [], hostFailed := none,
    snap := none, phaseNo := 0, ranOn := [], pair := none,
    rerun := false, apart := false, crc := 0, leave := none, keep := none, firm := false, judged := false,
    fence := { writes := [], loads := [], all := [] } }

end Sys2Proof.Machine
end

