-- ==== Sys2Proof/Machine/Unit.lean ====
section
/-! DEFINITION. The state of a core outside its seats: scratchpad, operand slots, accumulators, code table, pattern memory,
leaf barrier objects, the operations in flight, trace and monitors (R100 to R114, R351, R369 to R399, R519 to R523). -/

namespace Sys2Proof.Machine

/-- R105: the states of an operand slot. -/
inductive SlotState where
  | free
  | claimed (seat : Nat)
  | releasing
  deriving DecidableEq, Repr

/-- R104, R372: an operand slot: bytes by 192 × row + column, tags and ECC-poison (R453) by 3 × row + block, and its last
writer's ASID. The format summary of R372 is computed from the tags. -/
structure OpSlot where
  state : SlotState
  data : Assoc Byte
  tags : Assoc (BitVec 16)
  poison : Assoc Bool
  lastAsid : BitVec 16
  deriving DecidableEq, Repr

/-- R389: a barrier object. -/
structure Barrier where
  phase : Bool
  exp : Nat
  arr : Nat
  pend : Int
  mxf : Nat
  cstat : W32
  lstat : W32
  excess : Nat
  arrived : Bool
  /-- Leaf: the cluster and root it is linked to. -/
  link : Option (Nat × Nat)
  /-- Root: the number of linked leaves. -/
  links : Nat
  deriving DecidableEq, Repr

/-- R351, R352: a pattern entry: its header word and its segment words. -/
structure Pattern where
  header : W32
  segs : List W32
  deriving DecidableEq, Repr

/-- R382: an endpoint of a copy. -/
inductive Endpoint where
  | virt (addr : Word)
  | spad (off : Word)
  | slot (n row : Nat)
  deriving DecidableEq, Repr

/-- A window as a scratchpad access maps it (R101), captured at issue (R103, R395). -/
structure Window where
  base : Nat
  size : Nat
  dbl : Bool
  half : Bool
  deriving DecidableEq, Repr

/-- R384: the conversion of a copy: SCALE and FSEL of its block, the captured EFR and L6 quarter, and, once a CTWR has issued while the
copy was held for a commit, the code table that it decodes with (R380). -/
structure Convert where
  scale : BitVec 8
  fsel : BitVec 4
  efr : BitVec 13
  l6q : BitVec 2
  table : Option (Assoc (BitVec 16))
  deriving DecidableEq, Repr

/-- R110: what a scoreboard entry records. -/
inductive Score where
  | bytes (lo hi : Nat)
  | rows (slot lo hi : Nat)
  | nothing
  deriving DecidableEq, Repr

/-- A copy in flight (R381 to R387). -/
structure CopyOp where
  seat : Nat
  asid : BitVec 16
  rows : Nat
  cols : Nat
  src : Endpoint
  dst : Endpoint
  srcStride : Nat
  dstStride : Nat
  /-- R386: the indices of a gather or scatter, and whether they displace the destination. -/
  index : Option (List Nat)
  scatter : Bool
  convert : Option Convert
  /-- R384: the bytes of each source row of a converting copy, as its tags gave them at issue. -/
  lens : List Nat
  /-- R150: the row that is landing, as a converting copy has read it: each source block at once. -/
  buf : Option (List Byte)
  win : Window
  bar : Option Nat
  /-- R383, R397: whether its landed bytes decrement PEND. -/
  counts : Bool
  /-- R387: whether the copy passes every cache. -/
  stream : Bool
  maps : List PageMap
  /-- R153: whether it reads, and whether it writes, through an SO page. -/
  soSrc : Bool
  soDst : Bool
  landed : Nat
  /-- R453: the destination blocks that it has poisoned. -/
  bad : List Word
  /-- R102: a local source as it stood at issue: its bytes row by row, and the tag and ECC-poison of its blocks by block number. -/
  local_ : Option (List Byte)
  localTags : Assoc (BitVec 16 × Bool)
  /-- R495: the outstanding request to the host, and the bytes that such reads have brought. -/
  hostOut : Option Nat
  hostData : List (Nat × List Byte)
  /-- R397: the sequencer step that issued it. -/
  seqStep : Option Nat
  deriving DecidableEq, Repr

/-- A matrix operation in one of the array's four places (R375). -/
structure MmaOp where
  seat : Nat
  asid : BitVec 16
  acc : Nat
  sa : Nat
  sb : Nat
  bar : Nat
  zero : Bool
  rows : Nat
  cols : Nat
  efr : BitVec 13
  l6q : BitVec 2
  /-- R385: the copy a follow-on waits for; none once the copy unit has issued it to the array. -/
  waits : Option Nat
  seqStep : Option Nat
  /-- R397: whether this is the last step of its macro-op. -/
  last : Bool
  /-- R376, R385, R397: a cause recorded before execution; the operation is then not performed. -/
  failed : Option (BitVec 8)
  /-- R376: status bits noted before completion. -/
  status : W32
  deriving DecidableEq, Repr

/-- R153, R155, R157: what orders a store: the scope of the release that it is, and whether its parts, all of them through SO pages, are
performed one after another. -/
structure StoreOrd where
  rel : Option Nat
  inOrder : Bool
  deriving DecidableEq, Repr

/-- R378: an ACCST whose writes have not all landed: its sub-tile, format and captured formats, where its rows go (virtual:
the pieces in order with the blocks written whole; scratchpad: the window and its scoreboard entry), the rows' bytes once the
accumulator has been read, and what it counts into. -/
structure AccstOp where
  seat : Nat
  asid : BitVec 16
  sp : Bool
  acc : Nat
  row0 : Nat
  col0 : Nat
  rows : Nat
  cols : Nat
  int : Bool
  code : Nat
  scale : BitVec 8
  efr : BitVec 13
  l6q : BitVec 2
  table : Assoc (BitVec 16)
  rowsAt : List (Word × Nat)
  win : Window
  maps : List (Nat × Nat × BitVec 3)
  tagsAt : List (Nat × BitVec 3)
  score : Score
  data : Option (List (Word × List Byte))
  bar : Option Nat
  count : Nat
  /-- R153, R155: what orders its writes on its path. -/
  ord : StoreOrd
  /-- R149: its writes to the host that have not been acknowledged. -/
  hostOut : Nat
  deriving DecidableEq, Repr

/-- An ACCWR or ACCZ on its way (R377, R108): the elements it writes from an index on. -/
structure AccWriteOp where
  seat : Nat
  asid : BitVec 16
  acc : Nat
  lo : Nat
  elems : List W32
  deriving DecidableEq, Repr

/-- A scalar load, atomic or other result on its way to a scalar register: register and value, or the memory it samples. -/
structure LoadOp where
  seat : Nat
  asid : BitVec 16
  reg : BitVec 6
  val : Word
  /-- R315, R404: the seat's bundle from which the result may be full. -/
  least : Nat
  deriving DecidableEq, Repr

/-- R495: bytes of a vector load that the host still owes: the request, the segment, the offset in it and the length. -/
structure HostPart where
  req : Nat
  seg : Nat
  off : Nat
  len : Nat
  /-- Its place in the block that is asked for. -/
  at_ : Nat
  /-- R153: the ordering kind of the page that it is read through. -/
  ord : BitVec 2
  /-- R456: the bytes that the seat's own held stores give, by place in the part. -/
  own : List (Nat × Byte)
  deriving DecidableEq, Repr

/-- A vector load on its way (R356 to R363): what it loads (0 VLD, 1 VLDS, 2 VLD.RUN), the format code, the shape it builds,
the elements of one row as they lie in memory, the bytes of each row with the address or offset of its start, the tags by
block, the captured EFR and L6 quarter, the capacity and the wanted shape of a run list, the bytes that the host owes, and
whether an access has failed or a poisoned block was read. -/
structure VLoadOp where
  seat : Nat
  asid : BitVec 16
  reg : Nat
  kind : Nat
  code : Nat
  rows : Nat
  cols : Nat
  perRow : Nat
  segs : List (Word × List Byte)
  tags : Assoc (BitVec 16)
  efr : BitVec 13
  l6q : BitVec 2
  cap : Nat
  want : W32
  waits : List HostPart
  failed : Option Word
  nan : Bool
  /-- R363: the seat's bundle from which the register may be full. -/
  least : Nat
  deriving DecidableEq, Repr

/-- An accumulator read on its way (R377): it samples its accumulator once every earlier matrix operation has completed. -/
structure AccReadOp where
  seat : Nat
  asid : BitVec 16
  reg : Nat
  acc : Nat
  rg : Nat
  int : Bool
  deriving DecidableEq, Repr

/-- A collective in flight (R422 to R424, R506): its operation (0 PUT, 1 GET, 2 ADD, 3 MAX, 4 MIN), its local address, remote
member and offset, its bytes and tags; the host requests it waits for and where their bytes belong; whether its chunk has left,
how often it has failed, and the cause with which it has ended. -/
structure CollOp where
  seat : Nat
  asid : BitVec 16
  kind : Nat
  a : Word
  member : BitVec 16
  off : Nat
  bytes : Nat
  fsel : BitVec 4
  dst : BitVec 6
  data : List Byte
  tags : List (BitVec 16)
  hostOut : Nat
  hostAt : List (Nat × Nat)
  left : Bool
  fails : Nat
  ended : Option (BitVec 8)
  deriving DecidableEq, Repr

/-- R428: an RSCOMMIT whose status is still to come. -/
structure CommitOp where
  seat : Nat
  asid : BitVec 16
  handle : Nat
  dst : BitVec 6
  deriving DecidableEq, Repr

/-- An operation a core has issued that has not completed. -/
inductive Op where
  | load (o : LoadOp)
  | vload (o : VLoadOp)
  | accRead (o : AccReadOp)
  | accWrite (o : AccWriteOp)
  | mma (o : MmaOp)
  | copy (o : CopyOp)
  | accst (o : AccstOp)
  | kv (o : KvOp)
  | coll (o : CollOp)
  | resole (o : CommitOp)
  deriving DecidableEq, Repr

/-- R456: an entry of a seat's phase store queue, or what stands behind it: the pieces of a store (physical address, cache
policy, bytes), its tag writes and its ordering, a copy, an ACCST with its destination; or a release fence between two of them
(R160), which takes no entry. -/
inductive Held where
  | store (va : Word) (parts : List (Nat × BitVec 3 × List Byte)) (tags : List (Nat × BitVec 3 × BitVec 16)) (ord : StoreOrd)
  | fence (scope : Nat)
  | copy (o : CopyOp)
  | accst (o : AccstOp)
  deriving DecidableEq, Repr

/-- R457, R459: the value of an accumulator at a seat's last commit, recorded at its first write in the phase. -/
structure AccSave where
  seat : Nat
  acc : Nat
  elems : Assoc W32
  deriving DecidableEq, Repr

/-- R458: an entry of the copy log: seat, phase number, the copy, and whether the log has dropped it. -/
structure LogCopy where
  seat : Nat
  phase : Nat
  op : CopyOp
  dropped : Bool
  deriving DecidableEq, Repr

/-- R470: the states of a tile. -/
inductive Tile where
  | on
  | ret
  | off
  | wakingRet
  | wakingOff
  deriving DecidableEq, Repr

/-- R523: a monitor's counters. -/
structure Monitor where
  ctl : W32
  count : Word
  min : W32
  max : W32
  bins : Assoc W32
  deriving DecidableEq, Repr

/-- R216, R232, R235: a stop of the whole core in progress: a migration and its target; a pre-emption with its save frame, whether
PRECMD asked for it, and the pool entry and seat for which it makes room; a migration that goes on by pre-emption. -/
inductive Stopping where
  | migrate (target : Nat)
  | preempt (frame : Nat) (fromCmd : Bool) (waiting : Option (Nat × Nat))
  | fallback (target : Nat)
  deriving DecidableEq, Repr

/-- One core. -/
structure Core where
  tile : Tile
  /-- R478: the tile went OFF after a trip and its sensor has not read below 100 °C since. -/
  tripped : Bool
  throttled : Bool
  /-- R220: passed[0] and passed[1]. -/
  passed0 : Nat
  passed1 : Nat
  /-- R220, R277: parameter positions a seat has still to issue. -/
  paramSeat : Nat
  paramLeft : Nat
  /-- The same of the other seat, whose parameter positions follow. -/
  paramNext : Nat
  age : BitVec 8
  spad : Assoc Byte
  spadTags : Assoc (BitVec 16)
  /-- R453: ECC-poison that copies have brought into scratchpad blocks. -/
  spadPoison : Assoc Bool
  /-- R103: the ASID of the previous occupant of each scratchpad page. -/
  spadOwner : Assoc (BitVec 16)
  slots : Assoc OpSlot
  /-- R108: element (i, j) of accumulator n at 4096n + 64i + j. -/
  acc : Assoc W32
  /-- R459: (x, y, a): in the present phase of seat x, seat y has changed accumulator a. -/
  accPhase : List (Nat × Nat × Nat)
  accSaves : List AccSave
  /-- R456: (seat, entry) in program order. -/
  held : List (Nat × Held)
  /-- R458, R459: copies of the current and the previous phases. -/
  copyLog : List LogCopy
  /-- R381, R458: copies that a rollback issues again and that have not yet found a place in the copy unit. -/
  reissue : List CopyOp
  codeTable : Assoc (BitVec 16)
  /-- R351: entry i of bank b at 64b + i, and the active bank. -/
  patterns : Assoc Pattern
  bank : Nat
  leaf : Assoc Barrier
  ops : Assoc Op
  /-- R165: (seat, object, operation): arrivals whose own bundle's vector load has still to be performed. -/
  arrivals : List (Nat × Nat × Nat)
  /-- R210: the launch entry of the continuation that issued an operation, by operation. -/
  opLent : Assoc Nat
  tlb : List TlbEntry
  stopping : Option Stopping
  /-- R471: the records of bound continuations that SUSPEND has written and whose windows the scratchpad holds: the physical
  address and the ASID. -/
  suspended : List (Nat × BitVec 16)
  /-- R232: the SPWINs of bound continuations that have stopped at suspension points since a migration of the core began: their windows
move with it. -/
  leftWins : List W32
  /-- R519 to R522: the trace buffer by record number and its control words. -/
  trace : Assoc (List W32)
  tracePtr : Nat
  frozen : Bool
  /-- R519: records accepted and dropped in the present cycle. -/
  traceNow : Nat
  traceDropped : Nat
  traceEn : W32
  triggers : Assoc Word
  monitors : Assoc Monitor
  deriving DecidableEq, Repr

/-- R389: a barrier object after OFF. -/
def Barrier.reset : Barrier :=
  { phase := false, exp := 1, arr := 0, pend := 0, mxf := 0, cstat := 0, lstat := 0, excess := 0, arrived := false,
    link := none, links := 0 }

def OpSlot.reset : OpSlot := { state := .free, data := [], tags := [], poison := [], lastAsid := 0 }

/-- R523: a monitor after reset. -/
def Monitor.reset : Monitor := { ctl := 0, count := 0, min := 0xFFFFFFFF#32, max := 0, bins := [] }

/-- A core after reset: OFF (R470), AGE 64 (R219). -/
def Core.reset : Core :=
  { tile := .off, tripped := false, throttled := false, passed0 := 0, passed1 := 0, paramSeat := 0, paramLeft := 0, paramNext := 0,
    age := 64#8, spad := [], spadTags := [], spadPoison := [], spadOwner := [], slots := [], acc := [], accPhase := [], accSaves := [], held := [], copyLog := [], reissue := [], arrivals := [], codeTable := [],
    patterns := [], bank := 0, leaf := [], ops := [], opLent := [], tlb := [], stopping := none, suspended := [], leftWins := [], trace := [], tracePtr := 0,
    frozen := false, traceNow := 0, traceDropped := 0, traceEn := 0, triggers := [], monitors := [] }

end Sys2Proof.Machine
end

