-- ==== Sys2Proof/Machine/Device.lean ====
section
/-! DEFINITION. The state of the clusters, the dies and the I/O die: pin tables, barrier roots, continuation pools, wait
tables, block-transfer engines, the front end with its queue slots, packets and timelines, shootdowns and kills, the resole
machinery, the links, the media engines, power and security (R89 to R92, R137 to R144, R208 to R217, R237 to R263, R425 to
R530). -/

namespace Sys2Proof.Machine

/-- R91: an entry of a slice's pin table; `busy` says whether a pin (true) or an unpin (false) is in progress. -/
structure PinEntry where
  valid : Bool
  busy : Option Bool
  ppn : BitVec 32
  deriving DecidableEq, Repr

/-- R186, R188: an open stage of the welt: the sequence's record address, its ASID, the first token identifier, the target
node, and whether that is a pending node. -/
structure Stage where
  record : Nat
  asid : BitVec 16
  ident : W32
  node : Nat
  pending : Bool
  deriving DecidableEq, Repr

/-- One cluster: its L2 slice's pin table, barrier roots, welt stages and scan state. -/
structure Cluster where
  pins : Assoc PinEntry
  root : Assoc Barrier
  stages : List Stage
  /-- R460: the core that a scan is running on; SCANSTAT's OUTCOME, CORE and DONE. -/
  scanBusy : Option Nat
  scanOutcome : BitVec 2
  scanCore : Nat
  scanDone : W32
  deriving DecidableEq, Repr

/-- R447: a pre-empted context in a pool: its frame's address and what stands for its records; and what a frame has no stated
place for: the engine commands that its registers wait for (seat, register, operation), the cluster that its leaf objects, which the frame
holds, link to, and the bookkeeping of its seats and buffer phases. -/
structure FrameRef where
  addr : Nat
  asid : BitVec 16
  home : Nat
  prio : Nat
  level : Nat
  pers : Bool
  seats : Nat
  conts : List Cont
  waits : List (Nat × Nat × Nat)
  leaf : Assoc Barrier
  /-- R421: the engine commands of the context that were in flight at the save. -/
  ops : List Nat
  rest : Assoc Seat
  held : List (Nat × Held)
  accPhase : List (Nat × Nat × Nat)
  accSaves : List AccSave
  copyLog : List LogCopy
  deriving DecidableEq, Repr

/-- What a pool holds (R215, R447). -/
inductive PoolItem where
  | record (c : Cont)
  | frame (f : FrameRef)
  deriving DecidableEq, Repr

/-- An entry of a continuation pool: its number and its item; records of one level stand in the order they entered it. -/
structure PoolEntry where
  id : Nat
  item : PoolItem
  deriving DecidableEq, Repr

/-- R208, R209: an entry of a die's wait table: the record, its key and the timeout in µs (0 none). -/
structure WaitEntry where
  cont : Cont
  key : WaitKey
  timeout : Nat
  deriving DecidableEq, Repr

/-- R255, R256, R388: a block transfer. -/
structure BteOp where
  asid : BitVec 16
  phys : Bool
  src : Word
  dst : Word
  bytes : Nat
  crd : Word
  tag : BitVec 8
  qnum : BitVec 16
  /-- The packet it completes, or none for a seat's BTE. -/
  pkt : Option Nat
  /-- The issuing core and seat of a BTE instruction, and the launch entry its writes count into. -/
  seat : Option (Nat × Nat)
  lent : Nat
  cancelled : Bool
  /-- Bytes moved; how the transfer has ended (STATUS and FAULT) and the 80-bit time at its end, while its record waits. -/
  pos : Nat
  ended : Option (Nat × BitVec 8)
  time : List Byte
  /-- R168, R256: once the record is written: where TAIL stands, and the writes of the record that the host has still to acknowledge. -/
  tail : Option Nat
  recOut : Nat
  /-- R495: the outstanding request to the host, and the bytes that such reads have brought. -/
  hostOut : Option Nat
  hostData : List (Nat × List Byte)
  deriving DecidableEq, Repr

/-- R461: an entry of a die's event log. -/
abbrev EventRec := List W32

/-- One die. -/
structure Die where
  pool : List PoolEntry
  waits : Assoc WaitEntry
  bte : Assoc BteOp
  preBusy : Bool
  preOutcome : BitVec 2
  preDone : W32
  events : List EventRec
  eventCount : Nat
  deriving DecidableEq, Repr

/-- R239, R242: a hardware queue slot. -/
structure HwSlot where
  qcb : List Byte
  state : Nat
  cmdErr : Bool
  mapErr : Bool
  block : Nat
  /-- The head packet once fetched and checked, waiting for dispatch or for its wait. -/
  head : Option (List Byte)
  /-- R253: the BOUND event of a waiting gang has been raised. -/
  gangRaised : Bool
  /-- R260: the RPTR last written to the mirror; none while the mirror is off after a fault. -/
  mirrorRptr : Option Nat
  /-- R495: the outstanding read of the host for this slot, and the bytes that such reads have brought, by physical address;
  no bytes for one that failed. -/
  hostOut : Option Nat
  hostData : List (Nat × List Byte)
  /-- R244, R254: the host has been asked for the CAS of the head packet, a SIGNAL, which is then no longer abandoned. -/
  casOut : Bool
  deriving DecidableEq, Repr

/-- R246 to R259: a packet that has been dispatched and has not completed. -/
structure Packet where
  qnum : Nat
  asid : BitVec 16
  tag : BitVec 8
  flags : BitVec 8
  opcode : Nat
  /-- R259: its INC sequence number. -/
  seq : Option Nat
  entry : Option Nat
  scope : Nat
  /-- What remains before it completes has ended. -/
  done : Bool
  /-- R254: of a WAITTL its timeline, whether it waits on CERT, its threshold, its timeout, the index of its first unit, and the slot that
dispatched it; of a FENCE its scope. -/
  arg : List Nat
  /-- A fault to record with its completion (R255, R439). -/
  fault : Option (BitVec 8)
  deriving DecidableEq, Repr

/-- R210: a launch entry. -/
structure LaunchEntry where
  queue : Nat
  asid : BitVec 16
  live : Nat
  pkt : Nat
  tag : BitVec 8
  /-- R462: the cores that have contributed to the task. -/
  cores : List Nat
  /-- R466: the launch was made by a paired queue. -/
  paired : Bool
  deriving DecidableEq, Repr

/-- R257, R259: a timeline. -/
structure Timeline where
  value : Word
  cert : Word
  fault : W32
  /-- The next INC sequence number at dispatch and the next to apply. -/
  nextSeq : Nat
  applied : Nat
  /-- Sequence numbers that have completed out of order, with the cores that contributed and the packet's TAG. -/
  early : List (Nat × List Nat × BitVec 8)
  deriving DecidableEq, Repr

/-- R462: a certification entry: the timeline, the increment, each contributing core with its SCANCNT at that moment, the
packet's TAG (0 for SIGTL) and whether a failed scan has made it suspect. -/
structure CertEntry where
  tl : Nat
  inc : Nat
  cores : List (Nat × W32)
  tag : BitVec 8
  suspect : Bool
  deriving DecidableEq, Repr

/-- R138: a pending shootdown. -/
structure Shootdown where
  asid : BitVec 16
  kind : Nat
  va : Nat
  len : Nat
  deriving DecidableEq, Repr

/-- R140 to R144: a kill in progress. -/
structure KillOp where
  asid : BitVec 16
  pkts : List Nat
  deriving DecidableEq, Repr

/-- R175, R183: a return to a pool that has still to be made: the descriptor's address and the pool's number, the entry, and
the sequence whose KV reads begun before a running number of operations hold it back. -/
structure PoolReturn where
  desc : Nat
  pool : Nat
  addr : Nat
  count : Nat
  kind : Nat
  flags : Nat
  readers : Option (Nat × Nat)
  deriving DecidableEq, Repr

/-- The front end (R237 to R263) with the placement map and migration registers (R228 to R234). -/
structure FrontEnd where
  slots : Assoc HwSlot
  kick : Assoc W32
  kpend : Assoc W32
  /-- R330: the owner ASID and the scope of a queue number at its most recent MAP. -/
  owner : Assoc (BitVec 16 × Nat)
  packets : Assoc Packet
  nextPacket : Nat
  /-- R245: the slot from which each fetcher took its last packet. -/
  lastServed : Assoc Nat
  entries : Assoc LaunchEntry
  timelines : Assoc Timeline
  certs : List CertEntry
  fwirq : W32
  poolInfo : BitVec 8
  pktInfo : BitVec 10
  tlbi : List Shootdown
  tlbiIssued : BitVec 16
  tlbiDone : BitVec 16
  tlbiErr : Bool
  kills : List KillOp
  /-- R141, R144: the ASIDs whose traffic is revoked: killed, and not placed again since. -/
  revoked : List (BitVec 16)
  lcid : Assoc W32
  migBusy : Option (Nat × Nat)
  migOutcome : BitVec 2
  migDone : W32
  /-- R176, R183: returns that wait for room in a pool's return ring or for the end of KV reads. -/
  returns : List PoolReturn
  nextPool : Nat
  placements : Nat
  deriving DecidableEq, Repr

/-- R427, R484, R485: one staged line of a resole transaction: its target, its data and tag (which the host may still owe), its
journal entry and sequence number, its attempts, and how far it has come. -/
structure ResoleLine where
  pa : Nat
  va : Nat
  data : List Byte
  tag : BitVec 16
  entry : Nat
  seqNo : Nat
  ready : Bool
  verified : Bool
  tries : Nat
  applied : Bool
  stuck : Bool
  /-- R427: the request that has asked the host for its data. -/
  req : Nat
  /-- R487: the number of its commit: of two lines for one place the newer comes to its bank last. -/
  epoch : Nat
  deriving DecidableEq, Repr

/-- R425 to R429: a resole transaction: its state and reason as RSSTAT numbers them, its model slot and owner, the 4 KiB bank
pages and the lines it holds, the core and operation of its RSCOMMIT, and what RSSTAT reports of it. -/
structure ResoleTx where
  state : Nat
  reason : Nat
  slot : Nat
  asid : BitVec 16
  pages : List Nat
  lines : List ResoleLine
  committer : Option (Nat × Nat)
  retried : Nat
  verified : Nat
  firstFail : Nat
  deriving DecidableEq, Repr

/-- The resole machinery: transactions by handle; model versions by slot; redirected lines; wear counts by 4 KiB page; the
lines that the background apply of a handle has still to finish; the journal entries that STUCK lines keep. -/
structure Resole where
  txs : Assoc ResoleTx
  mver : Assoc W32
  redirect : Assoc Nat
  wear : Assoc Nat
  applying : Assoc (List ResoleLine)
  stuck : List Nat
  /-- R487: how many transactions have committed. -/
  commits : Nat
  deriving DecidableEq, Repr

/-- R495: what a request of the device to the host serves. -/
inductive HostUse where
  /-- A scalar load, LDA, AMO or WAITV read: the seat stalls for it; the read it belongs to, by its address. -/
  | seatRead (core seat pa : Nat)
  /-- A posted store of a seat, with its first virtual address. -/
  | seatWrite (core seat va : Nat)
  /-- An operation in flight of a core. -/
  | coreOp (core id : Nat)
  /-- A block transfer of a die. -/
  | bte (die id : Nat)
  /-- R504: a collective chunk that has arrived. -/
  | inbound (k : Nat)
  /-- A read of the front end for a queue slot. -/
  | fetch (slot : Nat)
  /-- A read of the media engines for a stream. -/
  | stream (k : Nat)
  /-- R528: the security unit's read of an image or write of a report. -/
  | sec
  /-- R427: the source of a staged line, for a seat; the line names the request. -/
  | resole (core seat : Nat)
  /-- R261: a read by the policy core, and a store of it. -/
  | policy
  | policyWrite
  /-- R260: a word of the mirror of a timeline. -/
  | mirror (tl : Nat)
  /-- R497: the message of an interrupt. -/
  | message
  /-- Another engine's write. -/
  | engine
  deriving DecidableEq, Repr

/-- R93: the core whose caches a read of the host goes through. -/
def HostUse.core : HostUse → Option Nat
  | .seatRead c _ _ => some c
  | .coreOp c _ => some c
  | _ => none

/-- R495: a request of the device that the host has not completed: the physical address, the size, and the bytes of a write. -/
structure HostReq where
  asid : BitVec 16
  use : HostUse
  addr : Nat
  size : Nat
  write : Bool
  data : List Byte
  /-- R491: an atomic request; its operands are in the data. -/
  amo : Option AmoOp := none
  /-- R93: of a read by a core, the policy of the page. -/
  cp : BitVec 3 := 2
  /-- R146, R166: of a write, the path on which it travels, and the launch entry or the packet to whose task it belongs. -/
  path : Option Nat := none
  lent : Option Nat := none
  pkt : Option Nat := none
  deriving DecidableEq, Repr

/-- The UCIe host port (R490 to R498). -/
structure HostPort where
  modules : Nat
  replay : Nat
  /-- R498: HLERR: the ASID and host address of the first failure. -/
  err : Option (BitVec 16 × Nat)
  reqs : Assoc HostReq
  nextReq : Nat
  /-- R496, R497: requests and messages that leave only once the requests named with them have been acknowledged. -/
  later : Assoc (List Nat × HostReq)
  hivtPend : Assoc Bool
  /-- R496, R497: message writes the port has sent to the host: address and data. -/
  messages : List (Nat × W32)
  mailbox : Assoc Byte
  h2f : W32
  f2h : W32
  /-- R92, R476: the host accesses held until the device is ACTIVE, or a page is pinned or unpinned. -/
  held : List HostAccess
  /-- R491: what the port has answered to the host: data, or none for a link error. -/
  replies : List (Option (List Byte))
  deriving DecidableEq, Repr

/-- R506: a chunk that has been applied: its sender, its identifier, and whether it was the data of a GET. -/
structure ChunkLog where
  sender : BitVec 16
  chunkId : BitVec 32
  ofGet : Bool
  deriving DecidableEq, Repr

/-- R499, R503, R505: a chunk that has left: its port, its priority, and the frames that carry it. -/
structure SentChunk where
  port : Nat
  prio : Nat
  chunk : CollChunk
  frames : List (List Byte)
  deriving DecidableEq, Repr

/-- R505: a fragment that has arrived: the chunk's header with the fragment's own bytes and tags, its index and their count. -/
structure CollFrag where
  chunk : CollChunk
  index : Nat
  count : Nat
  deriving DecidableEq, Repr

/-- R495, R504: a chunk that has arrived and waits for bytes of host memory. -/
structure Inbound where
  chunk : CollChunk
  hostOut : Bool
  hostData : List (Nat × List Byte)
  deriving DecidableEq, Repr

/-- The Ethernet ports, the time unit and the collective engine (R499 to R507). -/
structure Net where
  linkUp : Assoc Bool
  /-- The time in ns as the oscillator and TUFREQ give it, its fraction in parts per 10^12 of one, and what TUSTEP has added. -/
  timeNs : Nat
  timeFrac : Nat
  timeOffset : Int
  /-- R500: the frames delivered, each with its consumer (0 the time unit, 1 the collective engine, 2 the media engines, 3 the
  management ring) and its port. -/
  delivered : List (Nat × Nat × List Byte)
  /-- R502: the 80-bit ingress times of the event messages, each with its port, for firmware. -/
  stamps : List (Nat × List Byte)
  /-- R476: the frames that the ports hold during a wake, and how many each has dropped. -/
  wakeBuf : List (Nat × List Byte)
  dropped : Assoc Nat
  /-- R503, R505: chunks and answers that have left. -/
  sent : List SentChunk
  /-- R505, R506: the fragments of chunks that have not all arrived. -/
  frags : List CollFrag
  /-- R506: the data of GETs that has been sent and has no answer yet, each with how often it has failed. -/
  dataOut : List (CollChunk × Nat)
  /-- R516: the frames transmitted: the stream, its ports, the slot and the bytes of its lines, plane by plane. -/
  mediaSent : List (Nat × List Nat × Nat × List (List Byte))
  inbox : Assoc Inbound
  recvLog : List ChunkLog
  collLog : List (List W32)
  collCount : Nat
  deriving DecidableEq, Repr

/-- R512 to R515: a frame that has started and has not closed: its number, whether it is skipped, its slot and the BUFFERS body
that applies to it; the RTP timestamp and the 80-bit time of its first packet; the bytes that have arrived (of line l, or of a
sample, from 2^16 l on); the lines complete; the groups the timeline has risen by; and the sequence numbers seen on each path. -/
structure MediaFrame where
  number : Nat
  skipped : Bool
  slot : Nat
  buffers : List Byte
  ts : Option W32
  firstTime : List Byte
  raw : Assoc Byte
  arrived : List Nat
  groups : Nat
  seqA : List (BitVec 16)
  seqB : List (BitVec 16)
  deriving DecidableEq, Repr

/-- R509 to R518: one media stream (receive 0 to 127, transmit 128 to 159). -/
structure Stream where
  isOpen : Bool
  /-- The OPEN packet's bytes and the BUFFERS packet's, none before it. -/
  desc : List Byte
  queue : Nat
  asid : BitVec 16
  buffers : List Byte
  /-- R255, R510: the record ring's base and LOG2N. -/
  recBase : Nat
  log2n : Nat
  /-- The open frames, oldest first, and the number of the next. -/
  frames : List MediaFrame
  nextFrame : Nat
  /-- R510: a frame's number with the timestamp of its first packet, from which packets find their frames. -/
  anchor : Option (Nat × W32)
  /-- R512: the sequence numbers used, the latest 32,768. -/
  seen : List (BitVec 16)
  /-- R513: the slot and the BUFFERS body of the previous record. -/
  lastRec : Option (Nat × List Byte)
  /-- R516: the slots queued, each with its packet. -/
  sends : List (Nat × Nat)
  /-- R518: PKTA, PKTB, DUP, LATE, SKIP, LOSSF. -/
  counters : Assoc W32
  /-- R495: the outstanding read of the host, and what such reads have brought. -/
  hostOut : Option Nat
  hostData : List (Nat × List Byte)
  deriving DecidableEq, Repr

/-- R470 to R483: the device's power state. -/
structure Power where
  /-- R475: STATE, TARGET, WCAUSE and ERR of DEVCTL: 0 ACTIVE, 1 LISTEN, 2 DORMANT. -/
  state : Nat
  target : Nat
  wcause : Nat
  err : Bool
  waking : Bool
  evt : W32
  capped : Bool
  tripCount : W32
  /-- R480: supply lost; the device's volatile state is gone until the next wake. -/
  lost : Bool
  /-- R480, R483: what the loss caught: the PC and scalar registers of the seats. -/
  nvSeats : Assoc (BitVec 51 × Assoc SReg)
  /-- R483: the power-loss area of the MRAM system area, by seat. -/
  lossArea : Assoc (BitVec 51 × Assoc SReg)
  deriving DecidableEq, Repr

/-- R529, R530: a security command that runs: its number, the leaf that an ATTEST has taken, its 64 request bytes once read, and
the read of the host that it waits for. -/
structure SecCmd where
  cmd : Nat
  leaf : Nat
  request : Option (List Byte)
  hostOut : Option Nat
  deriving DecidableEq, Repr

/-- The security unit (R524 to R530): whether it has booted since power came, whether firmware runs, the slot booted, the last
rejection, the running SVN, ROLLCTR, the slot marked active, the attestation index, TCMOPEN, the command that runs and the last
result. -/
structure Security where
  booted : Bool
  bootOk : Bool
  slot : Nat
  reason : Nat
  svn : BitVec 16
  rollctr : BitVec 16
  active : Nat
  /-- R526: the images that have been installed, by slot. -/
  images : Assoc (List Byte)
  /-- R530: the image that runs. -/
  running : List Byte
  attest : Nat
  tcmOpen : Bool
  busy : Option SecCmd
  result : Nat
  deriving DecidableEq, Repr

/-- R465, R464, R468: the visible topology as last applied (the hidden cores), its generation and mode. QMASK, RETIRED and
TOPOMASK are control words. -/
structure Topo where
  gen : BitVec 16
  hidden : Assoc Bool
  mode : BitVec 2
  err : Bool
  deriving DecidableEq, Repr

/-- R261: the policy core's side of its address map: its two window registers, whether it waits for a read of host memory, and what
its loads have answered: bytes, or none for an access fault. -/
structure PolicyCore where
  win0 : BitVec 19
  win1 : BitVec 19
  waiting : Bool
  replies : List (Option (List Byte))
  deriving DecidableEq, Repr

def PolicyCore.reset : PolicyCore := { win0 := 0, win1 := 0, waiting := false, replies := [] }

def PinEntry.reset : PinEntry := { valid := false, busy := none, ppn := 0 }

def Cluster.reset : Cluster :=
  { pins := [], root := [], stages := [], scanBusy := none, scanOutcome := 0, scanCore := 0, scanDone := 0 }

def Die.reset : Die :=
  { pool := [], waits := [], bte := [], preBusy := false, preOutcome := 0, preDone := 0, events := [],
    eventCount := 0 }

def HwSlot.reset : HwSlot :=
  { qcb := List.replicate 128 0, state := 0, cmdErr := false, mapErr := false, block := 0, head := none,
    gangRaised := false, mirrorRptr := none, hostOut := none, hostData := [], casOut := false }

def Timeline.reset : Timeline := { value := 0, cert := 0, fault := 0, nextSeq := 0, applied := 0, early := [] }

def FrontEnd.reset : FrontEnd :=
  { slots := [], kick := [], kpend := [], owner := [], packets := [], nextPacket := 0, lastServed := [], entries := [], timelines := [],
    certs := [], fwirq := 0, poolInfo := 0, pktInfo := 0, tlbi := [], tlbiIssued := 0, tlbiDone := 0, tlbiErr := false,
    kills := [], revoked := [], lcid := [], migBusy := none, migOutcome := 0, migDone := 0, returns := [], nextPool := 0, placements := 0 }

def Resole.reset : Resole := { txs := [], mver := [], redirect := [], wear := [], applying := [], stuck := [], commits := 0 }

def HostPort.reset : HostPort :=
  { modules := 0, replay := 0, err := none, reqs := [], nextReq := 0, later := [], hivtPend := [], messages := [], mailbox := [], h2f := 0, f2h := 0, held := [], replies := [] }

def Net.reset : Net :=
  { linkUp := [], timeNs := 0, timeFrac := 0, timeOffset := 0, delivered := [], stamps := [], wakeBuf := [], dropped := [], sent := [], frags := [], dataOut := [], mediaSent := [], inbox := [], recvLog := [], collLog := [], collCount := 0 }

def Stream.reset : Stream :=
  { isOpen := false, desc := [], queue := 0, asid := 0, buffers := [], recBase := 0, log2n := 0, frames := [], nextFrame := 0,
    anchor := none, seen := [], lastRec := none, sends := [], counters := [], hostOut := none, hostData := [] }

/-- R475: after a cold power-up STATE and TARGET are DORMANT and WCAUSE is 5. -/
def Power.reset : Power :=
  { state := 2, target := 2, wcause := 5, err := false, waking := false, evt := 0, capped := false, tripCount := 0,
    lost := false, nvSeats := [], lossArea := [] }

def Security.reset : Security :=
  { booted := false, bootOk := false, slot := 0, reason := 0, svn := 0, rollctr := 0, active := 0, images := [], running := [], attest := 0, tcmOpen := false,
    busy := none, result := 0 }

def Topo.reset : Topo :=
  { gen := 0, hidden := [], mode := 1, err := false }

end Sys2Proof.Machine
end

