-- ==== Sys2Proof/Machine/State.lean ====
section
/-! DEFINITION. The state of the device, the reasons a step can stop, and the state right after reset. -/

namespace Sys2Proof.Machine

/-- The reasons for which the machine stops with a fault. -/
inductive Fault where
  /-- Raised by a device step whose operands name a unit, core, die, queue or entry that the part does not have (R21 to R27);
  safe: such a step is no behaviour of the device. -/
  | noSuchUnit (row : String)
  deriving DecidableEq, Repr

/-- The reasons for which the machine gives no next state. -/
inductive Refusal where
  /-- Raised by the arms of exec that have no meaning yet; safe. -/
  | notModelled (mnemonic : String)
  /-- Raised by a device step where its rule's condition does not hold (a completion of an operation that is not in flight, a
  deadline of a wait that does not exist): the device takes no such step; safe. -/
  | notEnabled (row : String)
  deriving DecidableEq, Repr

/-- What a slot instruction does in the present attempt: `probe` judges and executes it by itself, `commit` executes it as
part of a bundle whose earlier slots have taken effect. -/
inductive Phase where
  | probe
  | commit
  deriving DecidableEq, Repr

/-- The classes of a bundle's own causes, in the order of R433 item 3. -/
inductive CauseClass where
  | params
  | regs
  | exec
  deriving DecidableEq, Repr

/-- What has come of the slot instruction that ran last. -/
inductive Status where
  | issued
  | stalled (w : Stall)
  /-- It waits for something it has started; where a bundle has several such slots, one that changes memory comes last. -/
  | holding (w : Stall) (last : Bool)
  | raised (cls : CauseClass) (e : Entry)
  | suspended (key : WaitKey) (timeout : Nat) (faddr : Word)
  deriving DecidableEq, Repr

/-- Where the slot instruction that exec runs stands: its core, seat and position, the phase, its parameter position and the
four words there, the header's trap-on-empty bits for its sources a, b and c, the operations in flight before its bundle, the
bundle that follows in sequence, and what came of it. -/
structure Focus where
  core : Nat
  seat : Nat
  slot : Nat
  phase : Phase
  blockAddr : Nat
  block : List W32
  header : Bool
  traps : BitVec 3
  opBase : Option Nat
  seqNext : BitVec 51
  status : Status
  deriving DecidableEq, Repr

/-- Who moves next: a core's merge stage, a device step, or the clock (in cycles and nanoseconds). -/
inductive Act where
  | core (n : Nat)
  | dev (i : Instr)
  | time (cycles ns : Nat)
  /-- R476: an access of the host that the port has held. -/
  | access (a : HostAccess)
  /-- R261: an access of the policy core. -/
  | policy (a : PolicyAccess)
  /-- R93, R170: a cache gives up a line: the L1 of a core, or the slice of a cluster. -/
  | evict (slice : Bool) (unit line : Nat)
  deriving DecidableEq, Repr

/-- A line that caches hold (R45, R88, R93): its data and its tag, one for all its copies since they are coherent, and the core
whose L1 holds it dirty. Which caches hold it stands in State.l1 and State.l2. -/
structure CachedLine where
  data : List Byte
  tag : BitVec 16
  owner : Option Nat
  deriving DecidableEq, Repr

/-- R133: a non-leaf entry that a walker caches: the ASID, its level, the index bits of the virtual address above its reach, and the
table that it names. -/
structure WalkEntry where
  asid : BitVec 16
  level : Nat
  index : Nat
  next : Nat
  deriving DecidableEq, Repr

/-- The state of the device. -/
structure State where
  /-- Seat s of core c at 2c + s. -/
  seats : Assoc Seat
  cores : Assoc Core
  clusters : Assoc Cluster
  dies : Assoc Die
  /-- Device physical memory at its homes (R29), in the canonical form of Memory.wf. -/
  mem : List Host.Cell
  /-- R44, R45: the tag of the 64-byte block n, listed where it is not zero. -/
  tags : Assoc (BitVec 16)
  /-- R88: the lines that caches hold, by line number. -/
  lines : Assoc CachedLine
  /-- R93: the lines of set n of core c's L1 at 2048c + n, the most recently used first. -/
  l1 : Assoc (List Nat)
  /-- R89: the lines of set n of cluster c's slice at 16384c + n, the most recently used first. -/
  l2 : Assoc (List Nat)
  /-- R133: the non-leaf entries that walker w of die d caches, at 4d + w. -/
  walkers : Assoc (List WalkEntry)
  /-- R133: the TLBs of the engines (Xlat in Translate.lean numbers them). -/
  engTlb : Assoc (List TlbEntry)
  /-- Simple control-space registers by word number (offset / 4); a word that is not listed has its Reset value. -/
  ctl : Assoc W32
  fe : FrontEnd
  resole : Resole
  host : HostPort
  net : Net
  streams : Assoc Stream
  power : Power
  sec : Security
  topo : Topo
  policy : PolicyCore
  /-- R453: blocks of which a part is poisoned, by block number. -/
  poison : Assoc Bool
  /-- 1.3 GHz periods since the last cold start (R290). -/
  cycle : Nat
  /-- The model's own fields: the count of free values taken, the running number of operations, the actor list and the slot
  instruction's place. -/
  fresh : Nat
  nextOp : Nat
  agenda : List Act
  focus : Focus
  deriving DecidableEq, Repr

def Focus.reset : Focus :=
  { core := 0, seat := 0, slot := 0, phase := .probe, blockAddr := 0, block := [], header := false, traps := 0,
    opBase := none, seqNext := 0, status := .issued }

/-- The device after a cold power-up of a part whose durable state has never been written (R13). -/
def State.reset : State :=
  { seats := [], cores := [], clusters := [], dies := [], mem := [], tags := [], lines := [], l1 := [], l2 := [], walkers := [], engTlb := [],
    ctl := [],
    fe := FrontEnd.reset, resole := Resole.reset, host := HostPort.reset, net := Net.reset, streams := [],
    power := Power.reset, sec := Security.reset, topo := Topo.reset, policy := PolicyCore.reset, poison := [], cycle := 0, fresh := 0, nextOp := 1,
    agenda := [], focus := Focus.reset }

end Sys2Proof.Machine
end

