-- ==== Sys2Proof/Machine/Assoc.lean ====
section
/-! DEFINITION. Reading and writing finite maps by number, and the small list operations that the meanings share. -/

namespace Sys2Proof.Machine

/-- The value listed for a key, if any. -/
def alook {α : Type} (k : Nat) : Assoc α → Option α
  | [] => none
  | (i, v) :: r => if i = k then some v else alook k r

/-- The value of a key, or the default. -/
def aget {α : Type} (d : α) (k : Nat) (m : Assoc α) : α := (alook k m).getD d

/-- The map with a key set; keys stay in ascending order. -/
def aput {α : Type} (k : Nat) (v : α) : Assoc α → Assoc α
  | [] => [(k, v)]
  | (i, w) :: r => if k < i then (k, v) :: (i, w) :: r else if k = i then (k, v) :: r else (i, w) :: aput k v r

/-- The map without a key. -/
def adel {α : Type} (k : Nat) : Assoc α → Assoc α
  | [] => []
  | (i, w) :: r => if i = k then adel k r else (i, w) :: adel k r

/-- The map with a key set, in which the default is never listed: writing the default removes the key. -/
def aputD {α : Type} [DecidableEq α] (d : α) (k : Nat) (v : α) (m : Assoc α) : Assoc α :=
  if v = d then adel k m else aput k v m

/-- The map with a key's value changed. -/
def amod {α : Type} (d : α) (k : Nat) (f : α → α) (m : Assoc α) : Assoc α := aput k (f (aget d k m)) m

/-- Keys are strictly rising. -/
def arising {α : Type} : Assoc α → Bool
  | [] => true
  | [_] => true
  | (i, _) :: (j, w) :: r => decide (i < j) && arising ((j, w) :: r)

/-- Keys are strictly rising and no value is the default. -/
def acanon {α : Type} [DecidableEq α] (d : α) (m : Assoc α) : Bool := arising m && m.all (fun e => e.2 != d)

/-- The value at an index, or a default. -/
def nth {α : Type} (d : α) (k : Nat) (l : List α) : α := (l[k]?).getD d

end Sys2Proof.Machine
end

