-- ==== Sys2Proof/Machine/Memory.lean ====
section
/-! DEFINITION. Device physical memory: the map of R29, bytes and tags at their homes and as the caches show them (R82 to
R99, R170), the L1s of the cores and the slices of the clusters with the lines that they hold. -/

namespace Sys2Proof.Machine

/-- R29: the regions of the device physical address map. -/
inductive Region where
  | lpddr
  | mram
  | journal
  | control
  | host
  | hole
  deriving DecidableEq, Repr

/-- R29: the region of a physical address. -/
def region (pa : Nat) : Region :=
  if pa < 0x8000000000 then .lpddr
  else if 0x10000000000 ≤ pa ∧ pa < 0x10FA0000000 then .mram
  else if 0x11000000000 ≤ pa ∧ pa < 0x11040000000 then .journal
  else if 0x40000000000 ≤ pa ∧ pa < 0x40100000000 then .control
  else if 0x800000000000 ≤ pa ∧ pa < 0x1000000000000 then .host
  else .hole

/-- R35, R36: the regions that ordinary stores may not write. -/
def isMram (pa : Nat) : Bool := region pa == .mram || region pa == .journal

/-- What a byte that nothing has written reads as: 0x00 (the model's choice, assumption log entry 2). -/
def unlisted : Byte := 0

/-- The canonical form of memory: addresses strictly rising, no entry equal to what an unlisted address reads as. -/
abbrev Memory.wf (m : List Host.Cell) : Prop := acanon unlisted m = true

/-- R488: where a line of MRAM stands: a redirected line is read in the journal. -/
def State.homePa (s : State) (pa : Nat) : Nat :=
  match alook (pa / 64) s.resole.redirect with
  | some j => 64 * j + pa % 64
  | none => pa

/-- The byte at a physical address, at its home (R88, R93: what a UC access reads). -/
def State.homeByte (s : State) (pa : Nat) : Byte := aget unlisted (s.homePa pa) s.mem

/-- The byte at a physical address as every cached view shows it (R88). -/
def State.byteAt (s : State) (pa : Nat) : Byte :=
  match alook (pa / 64) s.lines with
  | some l => nth 0 (pa % 64) l.data
  | none => s.homeByte pa

/-- Writes one byte at its home. -/
def State.putHome (s : State) (pa : Nat) (b : Byte) : State := { s with mem := aputD unlisted pa b s.mem }

/-- Writes consecutive bytes at their home. -/
def State.putHomes (s : State) (pa : Nat) : List Byte → State
  | [] => s
  | b :: bs => (s.putHome pa b).putHomes (pa + 1) bs

/-- R44, R45: the tag of the block of a physical address, at its home; 0x0000 for host memory. -/
def State.homeTag (s : State) (pa : Nat) : BitVec 16 :=
  if region pa = .host then 0 else aget 0 (s.homePa pa / 64) s.tags

/-- R45: the tag of a block as every cached view shows it. -/
def State.tagAt (s : State) (pa : Nat) : BitVec 16 :=
  match alook (pa / 64) s.lines with
  | some l => if region pa = .host then 0 else l.tag
  | none => s.homeTag pa

/-- Writes a block's tag at its home; a tag of host memory is dropped (R47). -/
def State.putHomeTag (s : State) (pa : Nat) (t : BitVec 16) : State :=
  if region pa = .host then s else { s with tags := aputD 0 (pa / 64) t s.tags }

/-- The 64 bytes of the line that holds a physical address, as the cached views show it. -/
def State.lineAt (s : State) (pa : Nat) : List Byte := (List.range 64).map (fun i => s.byteAt (pa / 64 * 64 + i))

/-! The monitors (R523). -/

/-- R523: the bin of a sample. -/
def monitorBin (v : Nat) : Nat := if v = 0 then 0 else Nat.min 31 (v.log2 + 1)

/-- R523: one sample of a monitor. -/
def Monitor.sample (m : Monitor) (v : W32) : Monitor :=
  let b := monitorBin v.toNat
  let n := aget 0 b m.bins
  { m with count := if m.count = BitVec.allOnes 64 then m.count else m.count + 1,
           min := if v.toNat < m.min.toNat then v else m.min,
           max := if m.max.toNat < v.toNat then v else m.max,
           bins := aput b (if n = BitVec.allOnes 32 then n else n + 1) m.bins }

/-- R523: an event that a source of a core's monitors measures: each monitor that samples the source takes one, whose value, a time, is
free. -/
def State.observe (s : State) (core src : Nat) : State :=
  let c := aget Core.reset core s.cores
  let takes (e : Nat × Monitor) : Bool := e.2.ctl.getLsbD 4 && (e.2.ctl.extractLsb' 0 4).toNat == src
  if c.monitors.any takes then
    let v := Config.freeW32 s.fresh
    { s with fresh := s.fresh + 1
             cores := aput core { c with monitors := c.monitors.map (fun e => if takes e then (e.1, e.2.sample v) else e) } s.cores }
  else s

/-! The caches (R88, R89, R93). -/

/-- R93: the place of a line's set among the sets of the L1s: a core has 2,048 sets, indexed by physical address bits 16:6. -/
def l1Key (core line : Nat) : Nat := core * 2048 + line % 2048
/-- R89: the place of a line's set among the sets of the slices: 16 MiB in 16 ways of 64 bytes are 16,384 sets. -/
def l2Key (cluster line : Nat) : Nat := cluster * 16384 + line % 16384

/-- R93: a set with a line brought to its replacement position: the most recently used, or the least of the twelve ways; the line that
was least recently used in a full set stands behind it, and is given up. -/
def placeLine (last : Bool) (line : Nat) (set : List Nat) : List Nat :=
  let rest := set.filter (· != line)
  if last then rest.take 11 ++ line :: rest.drop 11 else line :: rest

def State.l1Put (s : State) (core : Nat) (last : Bool) (line : Nat) : State :=
  { s with l1 := aput (l1Key core line) (placeLine last line (aget [] (l1Key core line) s.l1)) s.l1 }
def State.l2Put (s : State) (cluster : Nat) (last : Bool) (line : Nat) : State :=
  { s with l2 := aput (l2Key cluster line) (placeLine last line (aget [] (l2Key cluster line) s.l2)) s.l2 }

/-- R88: the directory of a line: the cores whose L1 holds it and the clusters whose slice holds it. -/
def State.inL1 (s : State) (core line : Nat) : Bool := (aget [] (l1Key core line) s.l1).contains line
def State.directory (s : State) (line : Nat) : List Nat × List Nat :=
  ((s.l1.filter (fun e => e.2.contains line)).map (·.1 / 2048), (s.l2.filter (fun e => e.2.contains line)).map (·.1 / 16384))

/-- A map of sets without a line; empty sets are not listed. -/
def stripLine (line : Nat) (m : Assoc (List Nat)) : Assoc (List Nat) :=
  (m.map (fun e => (e.1, e.2.filter (· != line)))).filter (fun e => !e.2.isEmpty)

/-- R90: whether some slice holds the page of a line pinned. -/
def State.pinnedLine (s : State) (line : Nat) : Bool :=
  s.clusters.any (fun c => c.2.pins.any (fun e => e.2.valid && e.2.ppn.toNat == line / 1024))

/-- R93: a line as the caches hold it, or as its home gives it to a cache that takes it in. -/
def State.cachedLine (s : State) (line : Nat) : CachedLine :=
  (alook line s.lines).getD { data := s.lineAt (64 * line), tag := s.homeTag (64 * line), owner := none }

/-- R93: the line of a physical address, held dirty by a core's L1. -/
def State.ownLine (s : State) (core : Nat) (last : Bool) (pa : Nat) : State :=
  ({ s with lines := aput (pa / 64) { s.cachedLine (pa / 64) with owner := some core } s.lines }).l1Put core last (pa / 64)

/-- R89, R93: whether a cache can take a line in: one of LPDDR-6 or of MRAM, or one of the host window that the host has given. -/
def State.cacheable (s : State) (line : Nat) : Bool :=
  region (64 * line) == .lpddr || isMram (64 * line) || (region (64 * line) == .host && (alook line s.lines).isSome)

/-- R523: what a core's read of a line measures: an L1 miss, and a read of MRAM or of LPDDR-6 where neither the L1 nor the slice gives it. -/
def State.observeRead (s : State) (core : Nat) (cp : BitVec 3) (line : Nat) : State :=
  let miss := cp != 2 && !s.inL1 core line && s.cacheable line
  let slice := (aget [] (l2Key (core / 10) line) s.l2).contains line || s.pinnedLine line
  let t := if miss then s.observe core 0 else s
  if cp != 2 && !(miss && !slice) then t
  else if isMram (64 * line) then t.observe core 1
  else if region (64 * line) = .lpddr then t.observe core 2
  else t

/-- R82, R89, R93: a load through a cache policy brings its line into the core's L1 and, under WB and WT, into its cluster's slice; a
slice takes no line of MRAM and none of a pinned page. -/
def State.fillLine (s : State) (core : Nat) (cp : BitVec 3) (line : Nat) : State :=
  let s := s.observeRead core cp line
  if cp = 2 ∨ !s.cacheable line then s else
  let s := ({ s with lines := aput line (s.cachedLine line) s.lines }).l1Put core (cp == 3) line
  if cp = 3 ∨ isMram (64 * line) ∨ s.pinnedLine line then s else s.l2Put (core / 10) false line

/-- The lines that n bytes from a physical address on touch. -/
def linesOf (pa n : Nat) : List Nat := if n = 0 then [] else (List.range ((pa % 64 + n + 63) / 64)).map (pa / 64 + ·)

def State.fillBytes (s : State) (core : Nat) (cp : BitVec 3) (pa n : Nat) : State :=
  (linesOf pa n).foldl (fun s l => s.fillLine core cp l) s

/-- Writes one byte into the cached copies of its line. -/
def State.putCached (s : State) (pa : Nat) (b : Byte) : State :=
  match alook (pa / 64) s.lines with
  | some l => { s with lines := aput (pa / 64) { l with data := l.data.set (pa % 64) b } s.lines }
  | none => s

/-- Writes the tag of the cached copies of a line. -/
def State.putCachedTag (s : State) (pa : Nat) (t : BitVec 16) : State :=
  match alook (pa / 64) s.lines with
  | some l => { s with lines := aput (pa / 64) { l with tag := t } s.lines }
  | none => s

/-- R93: a dirty line reaches its home, its data and its tag together (R45); its copies stay, clean. -/
def State.cleanLine (s : State) (line : Nat) : State :=
  match alook line s.lines with
  | some l =>
    if l.owner.isNone then s else
    ((({ s with lines := aput line { l with owner := none } s.lines }).putHomes (64 * line) l.data)).putHomeTag (64 * line) l.tag
  | none => s

/-- R98: every cached copy of a line is dropped. -/
def State.dropLine (s : State) (line : Nat) : State :=
  { s with lines := adel line s.lines, l1 := stripLine line s.l1, l2 := stripLine line s.l2 }

/-- R88, R98: a line is recalled: written back where it is dirty, and every copy dropped. -/
def State.writeBack (s : State) (line : Nat) : State := (s.cleanLine line).dropLine line

/-- A line that no cache holds any more is forgotten. -/
def State.forgetLine (s : State) (line : Nat) : State :=
  if s.directory line = ([], []) then { s with lines := adel line s.lines } else s

/-- R93: a core's L1 gives up a line: written back where this L1 holds it dirty. -/
def State.evictL1 (s : State) (core line : Nat) : State :=
  let s := if ((alook line s.lines).bind (·.owner)) = some core then s.cleanLine line else s
  let set := (aget [] (l1Key core line) s.l1).filter (· != line)
  ({ s with l1 := if set.isEmpty then adel (l1Key core line) s.l1 else aput (l1Key core line) set s.l1 } : State).forgetLine line

/-- R89: a slice gives up a line, which it never holds dirty. -/
def State.evictL2 (s : State) (cluster line : Nat) : State :=
  let set := (aget [] (l2Key cluster line) s.l2).filter (· != line)
  ({ s with l2 := if set.isEmpty then adel (l2Key cluster line) s.l2 else aput (l2Key cluster line) set s.l2 } : State).forgetLine line

/-- The lines that a core's L1 holds. -/
def State.l1Lines (s : State) (core : Nat) : List Nat :=
  (s.l1.filter (fun e => e.1 / 2048 == core)).flatMap (·.2)

/-- R94: a core's L1 is emptied, its dirty lines written back. -/
def State.emptyL1 (s : State) (core : Nat) : State := (s.l1Lines core).foldl (fun s l => s.evictL1 core l) s

/-- R478: a core's L1 loses its lines, the dirty ones with every copy. -/
def State.loseL1 (s : State) (core : Nat) : State :=
  (s.l1Lines core).foldl (fun s l =>
    if ((alook l s.lines).bind (·.owner)) = some core then s.dropLine l else s.evictL1 core l) s

/-- A cluster's slice is emptied. -/
def State.emptyL2 (s : State) (cluster : Nat) : State :=
  ((s.l2.filter (fun e => e.1 / 16384 == cluster)).flatMap (·.2)).foldl (fun s l => s.evictL2 cluster l) s

/-- R89, R90: the ways of a slice's sets that serve as cache: 16 less those that its pinned pages fill, sixteen pages to a way. -/
def State.l2Ways (s : State) (cluster : Nat) : Nat :=
  16 - (((aget Cluster.reset cluster s.clusters).pins.filter (fun e => e.2.valid)).length + 15) / 16

/-- R93: a set gives up the lines beyond its ways, from the least recently used on. -/
def State.trimL1 (s : State) (e : Nat × List Nat) : State := (e.2.drop 12).foldl (fun s l => s.evictL1 (e.1 / 2048) l) s
def State.trimL2 (s : State) (e : Nat × List Nat) : State :=
  (e.2.drop (s.l2Ways (e.1 / 16384))).foldl (fun s l => s.evictL2 (e.1 / 16384) l) s

/-- R89, R93: every set gives up the lines that a bundle or a copy has brought in beyond its ways. -/
def State.trim (s : State) : State :=
  let s := (s.l1.filter (fun e => decide (12 < e.2.length))).foldl (fun s e => s.trimL1 e) s
  (s.l2.filter (fun e => decide (s.l2Ways (e.1 / 16384) < e.2.length))).foldl (fun s e => s.trimL2 e) s

/-- R93: how a store reaches memory: into a dirty line of the core's L1 at a replacement position (WB, STREAM), through to the home
and the cached copies (WT), or at the home alone (UC). -/
inductive StoreWay where
  | cached (core : Nat) (last : Bool)
  | through
  | home
  deriving DecidableEq, Repr

/-- R93: the way of a store under a cache policy. -/
def storeWay (core : Nat) (cp : BitVec 3) : StoreWay :=
  if cp = 1 then .through else if cp = 2 then .home else .cached core (cp == 3)

/-- One byte stored in a given way. -/
def State.storeByte (s : State) (w : StoreWay) (pa : Nat) (b : Byte) : State :=
  match w with
  | .cached core last => (s.ownLine core last pa).putCached pa b
  | .through => (s.putCached pa b).putHome pa b
  | .home => s.putHome pa b

/-- Consecutive bytes stored in a given way. -/
def State.storeBytes (s : State) (w : StoreWay) (pa : Nat) : List Byte → State
  | [] => s
  | b :: bs => (s.storeByte w pa b).storeBytes w (pa + 1) bs

/-- R47: a block's tag written in a given way. -/
def State.storeTag (s : State) (w : StoreWay) (pa : Nat) (t : BitVec 16) : State :=
  if region pa = .host then s else
  match w with
  | .cached core last => (s.ownLine core last pa).putCachedTag pa t
  | .through => (s.putCachedTag pa t).putHomeTag pa t
  | .home => s.putHomeTag pa t

/-- R88: an engine's write updates the home and the cached copies. -/
def State.engineBytes (s : State) (pa : Nat) (bs : List Byte) : State := s.storeBytes .through pa bs

/-- R47, R88: an engine's tag write. -/
def State.engineTag (s : State) (pa : Nat) (t : BitVec 16) : State := s.storeTag .through pa t

/-- The bytes a load reads: at the home under UC, else in the cached view (R93). -/
def State.loadBytes (s : State) (cp : BitVec 3) (pa n : Nat) : List Byte :=
  (List.range n).map (fun i => if cp = 2 then s.homeByte (pa + i) else s.byteAt (pa + i))

/-- The tag a load reads, under the same rule. -/
def State.loadTag (s : State) (cp : BitVec 3) (pa : Nat) : BitVec 16 := if cp = 2 then s.homeTag pa else s.tagAt pa

/-- n bytes as the coherent view shows them. -/
def State.viewBytes (s : State) (pa n : Nat) : List Byte := s.loadBytes 0 pa n

/-- R11: the little-endian value of n bytes of the coherent view. -/
def State.viewNat (s : State) (pa n : Nat) : Nat := bytesToNat (s.viewBytes pa n)

/-- R88, R134: the byte that the home of a line gives once it has recalled a dirty copy; a clean copy that a UC store has made stale does
not count. -/
def State.recallByte (s : State) (pa : Nat) : Byte :=
  match alook (pa / 64) s.lines with
  | some l => if l.owner.isSome then nth 0 (pa % 64) l.data else s.homeByte pa
  | none => s.homeByte pa

/-- R89, R93: the host gives a line of its memory to a core's caches; no write to the host leaves it dirty. -/
def State.hostLine (s : State) (core : Nat) (cp : BitVec 3) (line : Nat) (data : List Byte) : State :=
  if cp = 2 then s else
  ({ s with lines := aput line { data := data, tag := 0, owner := none } s.lines } : State).fillLine core cp line

/-- Recalls every line of a range of lines to its home (R88, R94, R171). -/
def State.recall (s : State) (first n : Nat) : State := (List.range n).foldl (fun s i => s.writeBack (first + i)) s

end Sys2Proof.Machine
end

