-- ==== Sys2Proof/Machine/Flags.lean ====
section
/-! DEFINITION. Numbers and flags: exact values of the formats (R49 to R76), the roundings (R62, R63), the flags of VFLAGS
(R62, R290), the arithmetic, conversions and special functions of the V position on single values (R341 to R346), and the
encodings (R54, R67, R70, R75). -/

namespace Sys2Proof.Machine

/-! Flags of VFLAGS (R290). -/

abbrev VF := BitVec 5
def fNV : VF := 16
def fDZ : VF := 8
def fOF : VF := 4
def fUF : VF := 2
def fNX : VF := 1

/-! Exact values. -/

/-- A value on the extended real line, or not a number: finite values are (-1)^neg × mag × 2^exp. -/
inductive Num where
  | nan
  | inf (neg : Bool)
  | fin (neg : Bool) (mag : Nat) (exp : Int)
  deriving DecidableEq, Repr

/-- R60: the one NaN that the device delivers. -/
def qnan : W32 := 0x7FC00000#32

/-- An integer as an exact value. -/
def Num.ofInt (i : Int) : Num := .fin (decide (i < 0)) i.natAbs 0
/-- Times a power of two (R52, R54). -/
def Num.scale (k : Int) : Num → Num
  | .fin n m e => .fin n m (e + k)
  | x => x
def Num.neg : Num → Num
  | .nan => .nan
  | .inf n => .inf (!n)
  | .fin n m e => .fin (!n) m e
def Num.isZero : Num → Bool
  | .fin _ m _ => m == 0
  | _ => false
def Num.isNan : Num → Bool
  | .nan => true
  | _ => false
def Num.isInf : Num → Bool
  | .inf _ => true
  | _ => false
def Num.sign : Num → Bool
  | .nan => false
  | .inf n => n
  | .fin n _ _ => n

/-- 2^k for a count that may be negative, which counts as 0. -/
def pow2i (k : Int) : Nat := 2 ^ k.toNat
/-- The signed integer of a magnitude. -/
def signed (neg : Bool) (m : Nat) : Int := if neg then -(m : Int) else m

/-- The exact sum of finite values; a zero sum is -0 only when both terms are -0 (rounding to nearest). -/
def addFin (n1 : Bool) (m1 : Nat) (e1 : Int) (n2 : Bool) (m2 : Nat) (e2 : Int) : Num :=
  let e := if e1 ≤ e2 then e1 else e2
  let v := signed n1 (m1 * pow2i (e1 - e)) + signed n2 (m2 * pow2i (e2 - e))
  if v = 0 then .fin (n1 && n2) 0 e else .fin (decide (v < 0)) v.natAbs e

/-- The exact sum; opposite infinities give NaN. -/
def Num.add : Num → Num → Num
  | .nan, _ => .nan
  | _, .nan => .nan
  | .inf a, .inf b => if a = b then .inf a else .nan
  | .inf a, .fin _ _ _ => .inf a
  | .fin _ _ _, .inf b => .inf b
  | .fin n1 m1 e1, .fin n2 m2 e2 => addFin n1 m1 e1 n2 m2 e2

/-- The exact product; zero times infinity gives NaN. -/
def Num.mul : Num → Num → Num
  | .nan, _ => .nan
  | _, .nan => .nan
  | .inf a, .inf b => .inf (a != b)
  | .inf a, .fin n m _ => if m = 0 then .nan else .inf (a != n)
  | .fin n m _, .inf b => if m = 0 then .nan else .inf (n != b)
  | .fin n1 m1 e1, .fin n2 m2 e2 => .fin (n1 != n2) (m1 * m2) (e1 + e2)

/-- The order of two values that are not NaN; both zeros are equal. -/
def Num.lt : Num → Num → Bool
  | .nan, _ => false
  | _, .nan => false
  | .inf a, .inf b => a && !b
  | .inf a, .fin _ _ _ => a
  | .fin _ _ _, .inf b => !b
  | .fin n1 m1 e1, .fin n2 m2 e2 =>
    let e := if e1 ≤ e2 then e1 else e2
    decide (signed n1 (m1 * pow2i (e1 - e)) < signed n2 (m2 * pow2i (e2 - e)))
def Num.eq (a b : Num) : Bool := !a.isNan && !b.isNan && !a.lt b && !b.lt a

/-! Rounding. -/

/-- Rounds a magnitude to p bits, to nearest with ties to even, with no bit below 2^qmin: the result, its exponent and
whether it is inexact. sticky says that the value lies strictly between mag and mag + 1. -/
def roundMag (p : Nat) (qmin : Int) (mag : Nat) (exp : Int) (sticky : Bool) : Nat × Int × Bool :=
  let q0 : Int := exp + (mag.log2 + 1 : Nat) - p
  let q := if q0 ≤ qmin then qmin else q0
  if q ≤ exp then (mag * pow2i (exp - q), q, sticky)
  else
    let d := pow2i (q - exp)
    let hi := mag / d
    let lo := mag % d
    let up := decide (d < 2 * lo) || (2 * lo == d && (sticky || hi % 2 == 1))
    (if up then hi + 1 else hi, q, lo != 0 || sticky)

/-- The exponent of the leading bit of a magnitude. -/
def leadExp (m : Nat) (q : Int) : Int := q + (m.log2 : Nat)

/-- The bits of an IEEE format with f fraction bits and 8 exponent bits, for a finite value that fits it. -/
def packBits (f : Nat) (neg : Bool) (m : Nat) (q : Int) : Nat :=
  let s := if neg then 2 ^ (f + 8) else 0
  if m = 0 then s
  else
    let e := leadExp m q
    if 128 ≤ e then s + 255 * 2 ^ f
    else if e < -126 then s + m * pow2i (q + 126 + f)
    else s + (e + 127).toNat * 2 ^ f + (m * 2 ^ f / 2 ^ m.log2 - 2 ^ f)

/-- Rounds to the format with f fraction bits and 8 exponent bits: the bits and the flags of R62 (underflow after rounding). -/
def roundBits (f : Nat) (neg : Bool) (mag : Nat) (exp : Int) (sticky : Bool) : Nat × VF :=
  let r := roundMag (f + 1) (-126 - f) mag exp sticky
  let u := roundMag (f + 1) (exp - f - 2) mag exp sticky
  let huge := r.1 != 0 && decide (128 ≤ leadExp r.1 r.2.1)
  let tiny := decide (leadExp u.1 u.2.1 < -126) && mag != 0
  (packBits f neg r.1 r.2.1,
    if huge then fOF ||| fNX else if r.2.2 then (if tiny then fUF ||| fNX else fNX) else 0)

/-- R62: rne32 of a magnitude. -/
def rne32 (neg : Bool) (mag : Nat) (exp : Int) (sticky : Bool) : W32 × VF :=
  let r := roundBits 23 neg mag exp sticky
  (BitVec.ofNat 32 r.1, r.2)
/-- R62: rne32 of an exact value. -/
def Num.toF32 : Num → W32 × VF
  | .nan => (qnan, 0)
  | .inf n => (if n then 0xFF800000#32 else 0x7F800000#32, 0)
  | .fin n m e => rne32 n m e false
/-- R63: rne16 of an exact value. -/
def Num.toBf16 : Num → BitVec 16 × VF
  | .nan => (0x7FC0#16, 0)
  | .inf n => (if n then 0xFF80#16 else 0x7F80#16, 0)
  | .fin n m e =>
    let r := roundBits 7 n m e false
    (BitVec.ofNat 16 r.1, r.2)

/-- The nearest integer, ties to even, of a magnitude; whether it is inexact. -/
def roundInt (mag : Nat) (exp : Int) : Nat × Bool :=
  if 0 ≤ exp then (mag * pow2i exp, false)
  else
    let d := pow2i (-exp)
    let hi := mag / d
    let lo := mag % d
    (if d < 2 * lo ∨ (2 * lo = d ∧ hi % 2 = 1) then hi + 1 else hi, lo != 0)

/-! FP32 (R60). -/

def Num.ofF32 (b : W32) : Num :=
  let s := b.getLsbD 31
  let e := (b.extractLsb' 23 8).toNat
  let f := (b.extractLsb' 0 23).toNat
  if e = 255 then (if f = 0 then .inf s else .nan)
  else if e = 0 then .fin s f (-149)
  else .fin s (2 ^ 23 + f) ((e : Int) - 150)
def isNan32 (b : W32) : Bool := b.extractLsb' 23 8 == 0xFF#8 && b.extractLsb' 0 23 != 0
/-- R333: a signalling NaN. -/
def isSnan (b : W32) : Bool := isNan32 b && !b.getLsbD 22
def nvIf (c : Bool) : VF := if c then fNV else 0
/-- R333: whether a run value is true as a mask. -/
def maskTrue (b : W32) : Bool := b != 0 && b != 0x80000000#32

/-- R341: a result of the exact value x whose inputs are a list: the invalid flag for a signalling NaN, or for a NaN that no
input has. -/
def fResult (ins : List W32) (x : Num) : W32 × VF :=
  let r := x.toF32
  (r.1, r.2 ||| nvIf (ins.any isSnan || (x.isNan && !ins.any isNan32)))

def fAdd (a b : W32) : W32 × VF := fResult [a, b] ((Num.ofF32 a).add (Num.ofF32 b))
def fSub (a b : W32) : W32 × VF := fResult [a, b] ((Num.ofF32 a).add (Num.ofF32 b).neg)
def fMul (a b : W32) : W32 × VF := fResult [a, b] ((Num.ofF32 a).mul (Num.ofF32 b))
/-- R341: a × b + c with one rounding; 0 × ∞ is invalid whatever c is. -/
def fFmaN (a b c : W32) (cn : Num) : W32 × VF :=
  let p := (Num.ofF32 a).mul (Num.ofF32 b)
  let r := fResult [a, b, c] (p.add cn)
  (r.1, r.2 ||| nvIf (p.isNan && !isNan32 a && !isNan32 b))
def fFma (a b c : W32) : W32 × VF := fFmaN a b c (Num.ofF32 c)
def fFms (a b c : W32) : W32 × VF := fFmaN a b c (Num.ofF32 c).neg

/-- R341: the order of VMIN and VMAX, in which -0 is below +0. -/
def minLt (a b : W32) : Bool :=
  (Num.ofF32 a).lt (Num.ofF32 b) || ((Num.ofF32 a).isZero && (Num.ofF32 b).isZero && a.getLsbD 31 && !b.getLsbD 31)
def fMin (a b : W32) : W32 × VF :=
  if isNan32 a || isNan32 b then (qnan, nvIf (isSnan a || isSnan b)) else (if minLt b a then b else a, 0)
def fMax (a b : W32) : W32 × VF :=
  if isNan32 a || isNan32 b then (qnan, nvIf (isSnan a || isSnan b)) else (if minLt a b then b else a, 0)

/-- R341: the correctly rounded quotient. -/
def fDiv (a b : W32) : W32 × VF :=
  match Num.ofF32 a, Num.ofF32 b with
  | .fin n1 m1 e1, .fin n2 m2 e2 =>
    if m2 = 0 then
      if m1 = 0 then (qnan, fNV) else ((Num.inf (n1 != n2)).toF32.1, fDZ)
    else rne32 (n1 != n2) (m1 * 2 ^ 50 / m2) (e1 - e2 - 50) (m1 * 2 ^ 50 % m2 != 0)
  | .inf n1, .fin n2 _ _ => ((Num.inf (n1 != n2)).toF32.1, 0)
  | .fin n1 _ _, .inf n2 => ((Num.fin (n1 != n2) 0 0).toF32.1, 0)
  | .inf _, .inf _ => (qnan, fNV)
  | _, _ => (qnan, nvIf (isSnan a || isSnan b))

/-! Special functions (R342). -/

/-- The integer square root by bits: the largest r below 2^k with r² ≤ n. -/
def isqrt (n : Nat) : Nat → Nat → Nat
  | 0, r => r
  | k + 1, r => isqrt n k (if (r + 2 ^ k) * (r + 2 ^ k) ≤ n then r + 2 ^ k else r)

/-- R342: the FP32 value next below (or at) a magnitude, as 24 bits at most and their exponent, with no lower bound of the
exponent. -/
def truncMag (mag : Nat) (exp : Int) (sticky : Bool) : Nat × Int × Bool :=
  let q : Int := exp + (mag.log2 + 1 : Nat) - 24
  if q ≤ exp then (mag * pow2i (exp - q), q, sticky)
  else (mag / pow2i (q - exp), q, mag % pow2i (q - exp) != 0 || sticky)

/-- R342: a faithful result: the exact value where FP32 has it, else the lower or the upper neighbour. A subnormal result
becomes +0; just below the least normal magnitude the neighbours are that and the largest subnormal. -/
def faithful (up : Bool) (neg : Bool) (mag : Nat) (exp : Int) (sticky : Bool) : W32 × VF :=
  let r := truncMag mag exp sticky
  let m := if r.2.2 && up then r.1 + 1 else r.1
  if leadExp r.1 r.2.1 = -127 ∧ (r.1 = 2 ^ 24 - 1 ∨ (r.1 = 2 ^ 24 - 2 ∧ r.2.2 = true)) then
    (if up then (BitVec.ofNat 32 (packBits 23 neg (2 ^ 23) (-149)), fNX) else (0, fUF ||| fNX))
  else if leadExp m r.2.1 < -126 then (0, fUF ||| fNX)
  else if 128 ≤ leadExp m r.2.1 then ((Num.inf neg).toF32.1, fOF ||| fNX)
  else (BitVec.ofNat 32 (packBits 23 neg m r.2.1), if r.2.2 then fNX else 0)

def fRcp (a : W32) : W32 × VF :=
  match Num.ofF32 a with
  | .nan => (qnan, nvIf (isSnan a))
  | .inf n => ((Num.fin n 0 0).toF32.1, 0)
  | .fin n m e =>
    if m = 0 then ((Num.inf n).toF32.1, fDZ)
    else faithful (Config.rcpUp a) n (2 ^ 60 / m) (-e - 60) (2 ^ 60 % m != 0)

def fRsq (a : W32) : W32 × VF :=
  match Num.ofF32 a with
  | .nan => (qnan, nvIf (isSnan a))
  | .inf n => if n then (qnan, fNV) else (0, 0)
  | .fin n m e =>
    if m = 0 then ((Num.inf n).toF32.1, fDZ)
    else if n then (qnan, fNV)
    else
      let odd : Bool := e % 2 != 0
      let m := if odd then 2 * m else m
      let e := if odd then e - 1 else e
      let r := isqrt (2 ^ 120 / m) 61 0
      faithful (Config.rsqUp a) false r (-(e / 2) - 60) (r * r * m != 2 ^ 120)

def fSqrt (a : W32) : W32 × VF :=
  match Num.ofF32 a with
  | .nan => (qnan, nvIf (isSnan a))
  | .inf n => if n then (qnan, fNV) else (a, 0)
  | .fin n m e =>
    if m = 0 then (a, 0)
    else if n then (qnan, fNV)
    else
      let odd : Bool := e % 2 != 0
      let m := (if odd then 2 * m else m) * 2 ^ 60
      let e := if odd then e - 1 else e
      let r := isqrt m 43 0
      rne32 false r (e / 2 - 30) (r * r != m)

/-- The fixed-point precision of the exponential and the logarithm. -/
def fxBits : Nat := 320

/-- ln 2 below, in units of 2^-fxBits: the sum of 1 / (k 2^k). -/
def ln2Fx : Nat → Nat
  | 0 => 0
  | k + 1 => 2 ^ fxBits / ((k + 1) * 2 ^ (k + 1)) + ln2Fx k

/-- The exponential series from a term on. -/
def expFx (y : Nat) : Nat → Nat → Nat → Nat
  | 0, _, _ => 0
  | fuel + 1, k, t => t + expFx y fuel (k + 1) (t * y / 2 ^ fxBits / (k + 1))

/-- 2^f for a fraction f in units of 2^-fxBits, in the same units. -/
def exp2Fx (f : Nat) : Nat := expFx (f * ln2Fx fxBits / 2 ^ fxBits) 90 0 (2 ^ fxBits)

/-- R342: 2^x. -/
def fExp2 (a : W32) : W32 × VF :=
  match Num.ofF32 a with
  | .nan => (qnan, nvIf (isSnan a))
  | .inf n => if n then (0, 0) else (0x7F800000#32, fOF ||| fNX)
  | .fin n m e =>
    let x := Num.fin n m e
    if m = 0 then (0x3F800000#32, 0)
    else if x.lt (.fin true 126 0) then (0, fUF ||| fNX)
    else if !x.lt (.fin false 128 0) then (0x7F800000#32, fOF ||| fNX)
    else
      -- x in units of 2^-fxBits, cut into its floor and fraction
      let v : Int := signed n (m * pow2i (e + fxBits))
      let i := v / (2 ^ fxBits : Nat)
      let f := (v % (2 ^ fxBits : Nat)).toNat
      if f = 0 then (BitVec.ofNat 32 (packBits 23 false 1 i), 0)
      else faithful (Config.exp2Up a) false (exp2Fx f) (i - fxBits) true

/-- The binary digits of log2 z for z in [1, 2), z in units of 2^-fxBits, by squaring. -/
def log2Digits (z : Nat) : Nat → Nat → Nat
  | 0, acc => acc
  | k + 1, acc =>
    let w := z * z / 2 ^ fxBits
    if 2 ^ (fxBits + 1) ≤ w then log2Digits (w / 2) k (2 * acc + 1) else log2Digits w k (2 * acc)

/-- R342: log2 x. -/
def fLog2 (a : W32) : W32 × VF :=
  match Num.ofF32 a with
  | .nan => (qnan, nvIf (isSnan a))
  | .inf n => if n then (qnan, fNV) else (a, 0)
  | .fin n m e =>
    if m = 0 then (0xFF800000#32, fDZ)
    else if n then (qnan, fNV)
    else
      let i : Int := leadExp m e
      let z := m * 2 ^ fxBits / 2 ^ m.log2
      if z = 2 ^ fxBits then ((Num.ofInt i).toF32.1, 0)
      else
        -- 128 digits after the point; the value lies above them
        let v : Int := i * (2 ^ 128 : Nat) + (log2Digits z 128 0 : Nat)
        if 0 ≤ v then faithful (Config.log2Up a) false v.toNat (-128) true
        else faithful (Config.log2Up a) true (-v - 1).toNat (-128) true

def fAbs (a : W32) : W32 × VF := (a &&& 0x7FFFFFFF#32, 0)
def fNeg (a : W32) : W32 × VF := (a ^^^ 0x80000000#32, 0)

/-! Comparisons (R344) and conversions (R346). -/

def bool32 (b : Bool) : W32 := if b then 1 else 0
def anyNan (a b : W32) : Bool := isNan32 a || isNan32 b
def anySnan (a b : W32) : Bool := isSnan a || isSnan b
def num2 (f : Num → Num → Bool) (a b : W32) : Bool := f (Num.ofF32 a) (Num.ofF32 b)
def cmpEq32 (a b : W32) : W32 × VF := (bool32 (num2 Num.eq a b), nvIf (anySnan a b))
def cmpNe32 (a b : W32) : W32 × VF := (bool32 (!num2 Num.eq a b), nvIf (anySnan a b))
def cmpLt32 (a b : W32) : W32 × VF := (bool32 (num2 Num.lt a b), nvIf (anyNan a b))
def cmpLe32 (a b : W32) : W32 × VF := (bool32 (num2 Num.lt a b || num2 Num.eq a b), nvIf (anyNan a b))
def cmpGt32 (a b : W32) : W32 × VF := (bool32 (num2 Num.lt b a), nvIf (anyNan a b))
def cmpGe32 (a b : W32) : W32 × VF := (bool32 (num2 Num.lt b a || num2 Num.eq a b), nvIf (anyNan a b))
def cmpUn32 (a b : W32) : W32 × VF := (bool32 (anyNan a b), nvIf (anySnan a b))

/-- R346: saturation to INT32. -/
def toInt32 (v : Int) (inexact : Bool) : W32 × VF :=
  if v < -(2 ^ 31 : Int) then (0x80000000#32, fNV)
  else if (2 ^ 31 - 1 : Int) < v then (0x7FFFFFFF#32, fNV)
  else (BitVec.ofInt 32 v, if inexact then fNX else 0)

/-- R346: FP32 to INT32, to nearest even or towards zero. -/
def numToInt32 (trunc : Bool) : Num → W32 × VF
  | .nan => (0, fNV)
  | .inf n => (if n then 0x80000000#32 else 0x7FFFFFFF#32, fNV)
  | .fin n m e =>
    let r := roundInt m e
    let t := if 0 ≤ e then m * pow2i e else m / pow2i (-e)
    toInt32 (signed n (if trunc then t else r.1)) r.2
def cvtFi (a : W32) : W32 × VF := numToInt32 false (Num.ofF32 a)
def cvtFit (a : W32) : W32 × VF := numToInt32 true (Num.ofF32 a)
def cvtIf (a : W32) : W32 × VF := (Num.ofInt a.toInt).toF32
def cvtFb (a : W32) : W32 × VF :=
  if isNan32 a then (qnan, nvIf (isSnan a))
  else
    let r := (Num.ofF32 a).toBf16
    (r.1 ++ 0#16, r.2)

/-! Tapered formats (R64 to R67). -/

/-- R64: the length of the run of the regime bit from bit w - 1 down. -/
def regimeRun (m w : Nat) (b : Bool) : Nat → Nat
  | 0 => 0
  | k + 1 => if m.testBit k == b then 1 + regimeRun m w b k else 0

/-- R64: the magnitude of a tapered code with w magnitude bits, as an integer and an exponent. -/
def taperedMag (w m : Nat) : Nat × Int :=
  let b := m.testBit (w - 1)
  let q := regimeRun m w b w
  let k : Int := if b then (q : Int) - 1 else -(q : Int)
  let rest := if q = w then 0 else w - q - 1
  let e : Int := if 1 ≤ rest ∧ m.testBit (rest - 1) then 1 else 0
  let fb := rest - 1
  (2 ^ fb + m % 2 ^ fb, 2 * k + e - fb)

/-- R64: a tapered code of n bits. -/
def decodeTapered (n code : Nat) : Num :=
  let w := n - 1
  let m := code % 2 ^ w
  let s := code.testBit w
  if m = 0 then (if s then .nan else .fin false 0 0)
  else
    let v := taperedMag w m
    .fin s v.1 v.2

/-- R67: the magnitude code nearest to |x|, from the candidates 0 to m. -/
def taperedNearest (w : Nat) (x : Num) : Nat → Nat
  | 0 => 0
  | m + 1 =>
    let at_ (k : Nat) : Num := if k = 0 then .fin false 0 0 else
      let v := taperedMag w k
      .fin false v.1 v.2
    if x.lt (at_ (m + 1)) then
      (if !x.lt (at_ m) then
        -- x lies between two neighbours: twice x against their sum
        let d := x.scale 1
        let mid := (at_ m).add (at_ (m + 1))
        if d.lt mid then m else if mid.lt d then m + 1 else if m % 2 = 0 then m else m + 1
      else taperedNearest w x m)
    else m + 1

/-- R67: the code of a value in a tapered format of n bits. -/
def encodeTapered (n : Nat) : Num → Nat
  | .nan => 2 ^ (n - 1)
  | .inf _ => 2 ^ (n - 1)
  | .fin s m e =>
    let k := taperedNearest (n - 1) (.fin false m e) (2 ^ (n - 1) - 1)
    if k = 0 then 0 else if s then k + 2 ^ (n - 1) else k

/-- R346: FP32 rounded to a tapered format at SCALE 127. -/
def cvtTapered (n : Nat) (a : W32) : W32 := (decodeTapered n (encodeTapered n (Num.ofF32 a))).toF32.1
def cvtFt8 (a : W32) : W32 × VF := (cvtTapered 8 a, 0)
def cvtFt6 (a : W32) : W32 × VF := (cvtTapered 6 a, 0)

/-! Integer formats under the EFR (R68 to R70). -/

/-- R68: signedness and substitute of an integer format of n bits. -/
def efrSigned (efr : BitVec 13) (n : Nat) : Bool := if n = 8 then efr.getLsbD 2 else if n = 6 then efr.getLsbD 6 else efr.getLsbD 10
def efrSub (efr : BitVec 13) (n : Nat) : Nat :=
  ((if n = 8 then efr.extractLsb' 0 2 else if n = 6 then efr.extractLsb' 4 2 else efr.extractLsb' 8 2)).toNat
/-- R68: ISAT. -/
def efrSat (efr : BitVec 13) : Bool := efr.getLsbD 12

/-- R69: an integer code of n bits; none under POISON. -/
def decodeIntCode (efr : BitVec 13) (n code : Nat) : Option Int :=
  if efrSigned efr n then
    if code = 2 ^ (n - 1) then
      (match efrSub efr n with
        | 0 => some (-(2 ^ (n - 1) : Int))
        | 1 => some (-(2 ^ (n - 1) : Int) + 1)
        | 2 => some 0
        | _ => none)
    else some (if code < 2 ^ (n - 1) then (code : Int) else (code : Int) - 2 ^ n)
  else some code

/-- R70: an integer code of n bits for a value already scaled. -/
def encodeIntCode (efr : BitVec 13) (n : Nat) (x : Num) : Nat :=
  let sg := efrSigned efr n
  let hi : Int := if sg then 2 ^ (n - 1) - 1 else 2 ^ n - 1
  let lo : Int := if sg then (if efrSub efr n = 0 then -(2 ^ (n - 1) : Int) else -(2 ^ (n - 1) : Int) + 1) else 0
  let put (v : Int) : Nat :=
    let v := if v < lo then lo else if hi < v then hi else v
    (if 0 ≤ v then v else v + 2 ^ n).toNat
  match x with
  | .nan => if sg && efrSub efr n == 3 then 2 ^ (n - 1) else 0
  | .inf s => put (if s then lo else hi)
  | .fin s m e => put (signed s (roundInt m e).1)

/-! Formats by code (R49). -/

/-- What decoding and encoding capture from the issuing seat and its core (R72, R73). -/
structure FmtCtx where
  efr : BitVec 13
  l6q : BitVec 2
  table : Assoc (BitVec 16)
  deriving DecidableEq, Repr

/-- R274: the tag code that FSEL selects. -/
def fselCode (f : BitVec 4) : Nat :=
  match f.toNat with
  | 0 => 0x01
  | 1 => 0x02
  | 2 => 0x10
  | 3 => 0x11
  | 4 => 0x20
  | 5 => 0x21
  | 6 => 0x22
  | 7 => 0x30
  | 8 => 0x31
  | _ => 0x00

/-- R49: the element width of a format code; RAW and FP32 have 32 bits. -/
def codeWidth (c : Nat) : Nat :=
  if c = 0x01 then 32 else if c = 0x02 then 16 else if c = 0x10 then 8 else if c = 0x11 then 6 else if c = 0x20 then 8
  else if c = 0x21 then 6 else if c = 0x22 then 4 else if c = 0x30 then 8 else if c = 0x31 then 6 else 32
/-- R49: listed codes, integer-class codes and 6-bit codes. -/
def codeListed (c : Nat) : Bool := [0x00, 0x01, 0x02, 0x10, 0x11, 0x20, 0x21, 0x22, 0x30, 0x31, 0x40, 0x41].contains c
/-- R50: the codes that every decoding access other than the run load and the KV readers reads. -/
def codeReadable (c : Nat) : Bool := codeListed c && c != 0x40 && c != 0x41
def codeInt (c : Nat) : Bool := c == 0x20 || c == 0x21 || c == 0x22
def codeSix (c : Nat) : Bool := c == 0x11 || c == 0x21 || c == 0x31

/-- R61, R73: a BF16 value. -/
def Num.ofBf16 (b : BitVec 16) : Num := Num.ofF32 (b ++ 0#16)
/-- R73: an entry of the code table. -/
def tableNum (x : FmtCtx) (i : Nat) : Num := Num.ofBf16 (aget 0 i x.table)

/-- R52 to R76: an element of a format in a float context, with its scale. -/
def decodeElem (x : FmtCtx) (c : Nat) (scale : BitVec 8) (code : Nat) : Num :=
  if scale = 0xFF then .nan
  else
    let v : Num :=
      if c = 0x02 then Num.ofBf16 (BitVec.ofNat 16 code)
      else if c = 0x10 then decodeTapered 8 code
      else if c = 0x11 then decodeTapered 6 code
      else if codeInt c then
        (match decodeIntCode x.efr (codeWidth c) code with
          | some i => Num.ofInt i
          | none => .nan)
      else if c = 0x30 then tableNum x code
      else if c = 0x31 then tableNum x (64 * x.l6q.toNat + code)
      else Num.ofF32 (BitVec.ofNat 32 code)
    v.scale ((scale.toNat : Int) - 127)

/-- R75: the distance of a table entry from a value; none stands for an infinite one. -/
def tableDist (a x : Num) : Option (Nat × Int) :=
  match a.add x.neg with
  | .fin _ m e => some (m, e)
  | _ => match a, x with
    | .inf s, .inf t => if s = t then some (0, 0) else none
    | _, _ => none
def distLt : Option (Nat × Int) → Option (Nat × Int) → Bool
  | some (m, e), some (n, f) => (Num.fin false m e).lt (Num.fin false n f)
  | some _, none => true
  | none, _ => false

/-- R75: the index among `n` entries from `base` on that encodes a value. -/
def encodeTable (t : FmtCtx) (base n : Nat) (x : Num) : Nat :=
  if x.isNan then ((List.range n).find? (fun i => (tableNum t (base + i)).isNan)).getD 0
  else
    let best := (List.range n).foldl (fun (r : Option (Nat × Option (Nat × Int))) i =>
      let v := tableNum t (base + i)
      if v.isNan then r else
      let d := tableDist v x
      match r with
      | none => some (i, d)
      | some (_, d') => if distLt d d' then some (i, d) else r) none
    match best with
    | some (i, _) => i
    | none => 0

/-- R54: the code of a value in a format, under a scale; a scale of 0xFF writes zeros. -/
def encodeElem (t : FmtCtx) (c : Nat) (scale : BitVec 8) (x : Num) : Nat :=
  if scale = 0xFF then 0
  else
    let x := x.scale (127 - (scale.toNat : Int))
    if c = 0x02 then x.toBf16.1.toNat
    else if c = 0x10 then encodeTapered 8 x
    else if c = 0x11 then encodeTapered 6 x
    else if codeInt c then encodeIntCode t.efr (codeWidth c) x
    else if c = 0x30 then encodeTable t 0 256 x
    else if c = 0x31 then encodeTable t (64 * t.l6q.toNat) 64 x
    else x.toF32.1.toNat

/-! Matrix sums (R77 to R79). -/

/-- R78: one group: the exact sum of its products, rounded once. -/
def groupSum (ps : List Num) : W32 :=
  let bad := ps.any Num.isNan || (ps.any (fun p => p == .inf false) && ps.any (fun p => p == .inf true))
  if bad then qnan
  else if ps.any (fun p => p == .inf false) then 0x7F800000#32
  else if ps.any (fun p => p == .inf true) then 0xFF800000#32
  else
    let negZero := !ps.isEmpty && ps.all (fun p => p.isZero && p.sign)
    let t := ps.foldl Num.add (.fin negZero 0 0)
    if t.isZero then (if negZero then 0x80000000#32 else 0) else t.toF32.1

/-- Cuts a list into groups of n; fuel is the number of groups at most. -/
def chunks {α : Type} (n : Nat) : Nat → List α → List (List α)
  | 0, _ => []
  | fuel + 1, l => if l.isEmpty then [] else l.take n :: chunks n fuel (l.drop n)

/-- R78: one output in the float class. -/
def dotFloat (acc : W32) (a b : List Num) : W32 :=
  let ps := (a.zip b).map (fun x => x.1.mul x.2)
  (chunks 32 (ps.length / 32 + 1) ps).foldl (fun r g => (fAdd r (groupSum g)).1) acc

/-- R79: saturation to INT32. -/
def sat32 (v : Int) : Int := if v < -(2 ^ 31 : Int) then -(2 ^ 31 : Int) else if (2 ^ 31 - 1 : Int) < v then 2 ^ 31 - 1 else v

/-- R79: one output in the integer class. -/
def dotInt (sat : Bool) (acc : W32) (a b : List Int) : W32 :=
  let ps := (a.zip b).map (fun x => x.1 * x.2)
  if sat then
    BitVec.ofInt 32 ((chunks 32 (ps.length / 32 + 1) ps).foldl (fun r g => sat32 (r + g.foldl (· + ·) 0)) acc.toInt)
  else BitVec.ofInt 32 (ps.foldl (· + ·) acc.toInt)

end Sys2Proof.Machine
end

