-- ==== Sys2Proof/Machine/Translate.lean ====
section
/-! DEFINITION. Address translation: the page tables of an ASID, the checks of R124 in their order, the core's TLB, the
Accessed and Dirty bits (R115 to R136). -/

namespace Sys2Proof.Machine

/-- What an access is, for the checks of R124 and the KIND of R126. -/
inductive Access where
  | read
  | write
  /-- R39: a naturally aligned scalar access of 4 or 8 bytes, which alone may reach control space. -/
  | regRead
  | regWrite
  | fetch
  /-- An engine command's access; the flag says whether it writes. -/
  | engine (w : Bool)
  /-- R427: a write that belongs to the resole. -/
  | resole
  deriving DecidableEq, Repr

/-- R126: FADDR.KIND. -/
def Access.kind : Access → Nat
  | .read => 0
  | .write => 1
  | .regRead => 0
  | .regWrite => 1
  | .fetch => 2
  | .engine _ => 3
  | .resole => 1

/-- Whether the access needs write permission. -/
def Access.writes : Access → Bool
  | .write => true
  | .regWrite => true
  | .engine w => w
  | .resole => true
  | _ => false

/-- R126: FADDR of a translation fault. -/
def transFaddr (lvl : Nat) (k : Access) (va : Nat) : Word := BitVec.ofNat 64 (lvl * 2 ^ 59 + k.kind * 2 ^ 55 + va % 2 ^ 55)

/-- A cause and its FADDR. -/
abbrev Cause := BitVec 8 × Word

/-- R119: fields of a page-table entry. -/
def pteV (e : Word) : Bool := e.getLsbD 0
def pteL (e : Word) : Bool := e.getLsbD 1
def pteW (e : Word) : Bool := e.getLsbD 2
def pteX (e : Word) : Bool := e.getLsbD 3
def pteOrd (e : Word) : BitVec 2 := e.extractLsb' 4 2
def pteCp (e : Word) : BitVec 3 := e.extractLsb' 6 3
def pteRso (e : Word) : Bool := e.getLsbD 9
def pteG (e : Word) : Bool := e.getLsbD 10
def pteA (e : Word) : Bool := e.getLsbD 11
def pteD (e : Word) : Bool := e.getLsbD 12
/-- R119: the physical address that PPN names. -/
def ptePpn (e : Word) : Nat := (e.extractLsb' 16 32).toNat * 0x10000

/-- A translation: the leaf, its level, the physical address of the entry (0 where a TLB serves it), and the non-leaf entries
that its walk has read. -/
structure Leaf where
  entry : Word
  level : Nat
  at_ : Nat
  path : List WalkEntry
  deriving DecidableEq, Repr

/-- R115: the size of the page of a leaf of a level. -/
def pageSize (level : Nat) : Nat := if level = 2 then 0x20000000 else 0x10000

/-- R120: the defects of a valid entry read at a level. -/
def pteBad (level : Nat) (e : Word) : Bool :=
  e.extractLsb' 48 8 != 0 || e.extractLsb' 13 3 != 0 ||
  (level == 1 && pteL e) || (level == 3 && !pteL e) ||
  (level == 2 && pteL e && e.extractLsb' 16 13 != 0) ||
  (pteL e && (decide (4 ≤ (pteCp e).toNat) || pteOrd e == 3))

/-- R31: a page wholly in populated regions. -/
def pageMapped (base size : Nat) : Bool := region base != .hole && region (base + size - 1) != .hole && region base == region (base + size - 1)

/-- R116 to R120: the index of a level in a virtual address. -/
def walkIndex (level va : Nat) : Nat :=
  if level = 1 then va / 2 ^ 42 % 8192 else if level = 2 then va / 2 ^ 29 % 8192 else va / 2 ^ 16 % 8192

/-- R119, R134: the entry at a physical address, as its home gives it. -/
def State.pteAt (s : State) (pa : Nat) : Word := BitVec.ofNat 64 (bytesToNat ((List.range 8).map (fun i => s.recallByte (pa + i))))

/-- R116, R120: what is wrong with the read of a table entry at an address, if anything: it lies outside LPDDR-6 or its block is
ECC-poisoned (TABLE_ERROR, whatever its bits hold), or it is not valid (PAGE_FAULT), or it has a defect. -/
def State.pteFault (s : State) (pa level : Nat) (e : Word) : Option (BitVec 8) :=
  if region pa != .lpddr || aget false (pa / 64) s.poison then some 0x23
  else if !pteV e then some 0x20
  else if pteBad level e then some 0x23
  else if pteL e && !pageMapped (ptePpn e) (pageSize level) then some 0x20
  else none

/-- R133: the part of a virtual address above the reach of a non-leaf entry of a level. -/
def walkPrefix (level va : Nat) : Nat := if level = 1 then va / 2 ^ 42 else va / 2 ^ 29

/-- Where a walk has failed: the cause, the level, and the address of the entry read there. -/
structure WalkStop where
  cause : BitVec 8
  level : Nat
  at_ : Nat
  deriving DecidableEq, Repr

/-- R116, R120, R124: the walk from a table of a level on; fuel is the number of levels left. -/
def State.walkFrom (s : State) (asid : BitVec 16) (va : Nat) : Nat → Nat → Nat → List WalkEntry → Except WalkStop Leaf
  | 0, table, level, _ => .error ⟨0x23#8, level, table⟩
  | fuel + 1, table, level, path =>
    let pa := table + 8 * walkIndex level va
    let e := s.pteAt pa
    match s.pteFault pa level e with
    | some c => .error ⟨c, level, pa⟩
    | none =>
      if pteL e then .ok { entry := e, level := level, at_ := pa, path := path }
      else s.walkFrom asid va fuel (ptePpn e) (level + 1)
        (path ++ [{ asid := asid, level := level, index := walkPrefix level va, next := ptePpn e }])

/-- R137: the base of the ASID table, if walks are enabled. -/
def State.asidTable (s : State) : Option Nat :=
  let lo := aget 0 (0x00F00000 / 4) s.ctl
  let hi := aget 0 (0x00F00004 / 4) s.ctl
  if lo.getLsbD 0 then some ((hi.toNat * 2 ^ 32 + lo.toNat) / 0x10000 * 0x10000 % 2 ^ 48) else none

/-- R117: the walk from the root of an ASID. The ASID table's entry is read as a table entry of level 1: outside LPDDR-6, poisoned, or
valid with a nonzero reserved bit it gives TABLE_ERROR. -/
def State.walkRoot (s : State) (asid : BitVec 16) (va base : Nat) : Except WalkStop Leaf :=
  let pa := base + 8 * asid.toNat
  let e := s.pteAt pa
  if region pa != .lpddr || aget false (pa / 64) s.poison then .error ⟨0x23#8, 1, pa⟩
  else if !e.getLsbD 63 then .error ⟨0x20#8, 1, pa⟩
  else if e.extractLsb' 48 15 != 0 || e.extractLsb' 0 16 != 0 then .error ⟨0x23#8, 1, pa⟩
  else s.walkFrom asid va 3 (ptePpn e) 1 []

/-- R133: who translates: a core, or an engine, numbered 0 to 3 for the block-transfer engines of the dies, 4 the collective engine,
5 the media engines, 6 the front end, and 7 + c the KV walker of cluster c. -/
inductive Xlat where
  | core (n : Nat)
  | engine (k : Nat)
  deriving DecidableEq, Repr

def engColl : Nat := 4
def engMedia : Nat := 5
def engFront : Nat := 6
def engKv (cluster : Nat) : Nat := 7 + cluster

/-- R133: the compute die whose walkers serve: the engines of the I/O die walk through die 0. -/
def Xlat.die : Xlat → Nat
  | .core n => n / 100
  | .engine k => if k < 4 then k else if k < 7 then 0 else (k - 7) / 10

/-- R133: the walker of the die that an address goes to. -/
def Xlat.walker (u : Xlat) (va : Nat) : Nat := 4 * u.die + va / 2 ^ 16 % 4

/-- R132, R133: the entries that a TLB has. -/
def Xlat.room : Xlat → Nat
  | .core _ => 256
  | .engine _ => 64

def State.tlbOf (s : State) : Xlat → List TlbEntry
  | .core n => (aget Core.reset n s.cores).tlb
  | .engine k => aget [] k s.engTlb

def State.setTlb (s : State) (u : Xlat) (l : List TlbEntry) : State :=
  match u with
  | .core n => { s with cores := aput n { aget Core.reset n s.cores with tlb := l } s.cores }
  | .engine k => { s with engTlb := aput k l s.engTlb }

/-- R133: the entry that a walker caches for an address, of a level. -/
def walkFind (w : List WalkEntry) (asid : BitVec 16) (va level : Nat) : Option WalkEntry :=
  w.find? (fun e => e.asid == asid && e.level == level && e.index == walkPrefix level va)

/-- R117, R133, R137: a walk: from the deepest non-leaf entry that its walker caches, else from the root; with EN = 0 every walk
fails at level 1. -/
def State.walkTo (s : State) (u : Xlat) (asid : BitVec 16) (va : Nat) : Except WalkStop Leaf :=
  match s.asidTable with
  | none => .error ⟨0x20#8, 1, 0⟩
  | some base =>
    let w := aget [] (u.walker va) s.walkers
    match walkFind w asid va 2 with
    | some e => s.walkFrom asid va 1 e.next 3 []
    | none =>
      match walkFind w asid va 1 with
      | some e => s.walkFrom asid va 2 e.next 2 []
      | none => s.walkRoot asid va base

/-- R124, R126: a walk for an access, with its fault. -/
def State.walk (s : State) (u : Xlat) (asid : BitVec 16) (va : Nat) (k : Access) : Except Cause Leaf :=
  match s.walkTo u asid va with
  | .error w => .error (w.cause, transFaddr w.level k va)
  | .ok l => .ok l

/-- The physical page of a leaf for a virtual address, and the physical address. -/
def Leaf.pa (l : Leaf) (va : Nat) : Nat := ptePpn l.entry + va % pageSize l.level

/-- R39: the accesses that control space takes. -/
def Access.reg : Access → Bool
  | .regRead => true
  | .regWrite => true
  | _ => false

/-- R121, R39, R122, R124 items 3 to 5: what a leaf permits. -/
def leafCheck (l : Leaf) (va : Nat) (k : Access) : Except Cause Unit :=
  let e := l.entry
  let pa := l.pa va
  let f := transFaddr 0 k va
  let attr : Bool := if k = .resole then region pa == .mram && pteRso e else match region pa with
    | .lpddr => !pteRso e
    | .mram => true
    | .journal => pteRso e
    | .control => pteCp e == 2 && pteOrd e == 1 && !pteRso e && k.reg
    | .host => !pteRso e
    | .hole => false
  if !attr then .error (0x25#8, f)
  else if k.writes && k != .resole && (isMram pa || pteRso e) then .error (0x24#8, f)
  else if (k.writes && !pteW e) || (k == .fetch && !pteX e) then .error (0x21#8, f)
  else .ok ()

/-- R115: the address range check. -/
def inRange (v : Word) : Bool := v.extractLsb' 55 9 == 0

/-- R132: the TLB entry of a core that serves a virtual address of an ASID. -/
def tlbFind (tlb : List TlbEntry) (asid : BitVec 16) (va : Nat) : Option TlbEntry :=
  tlb.find? (fun e => (e.asid == asid || pteG e.leaf) && e.va == va / e.size * e.size)

/-- R135: the Accessed bit, and for a write the Dirty bit, of an entry. -/
def withAD (e : Word) (w : Bool) : Word := e ||| (if w then 0x1800#64 else 0x800#64)

/-- R135: the leaf that a write through an entry with D = 0 reads again; one that has become a table entry is walked anew. -/
def State.reread (s : State) (u : Xlat) (asid : BitVec 16) (va : Nat) (k : Access) (e : TlbEntry) : Except Cause Leaf :=
  let w := s.pteAt e.at_
  match s.pteFault e.at_ e.level w with
  | some c => .error (c, transFaddr e.level k va)
  | none => if pteL w then .ok { entry := w, level := e.level, at_ := e.at_, path := [] } else s.walk u asid va k

/-- R132 to R135: the leaf of an address: from the TLB, by reading the leaf again for a write whose entry has D = 0, or by a walk. -/
def State.transLeaf (s : State) (u : Xlat) (asid : BitVec 16) (va : Nat) (k : Access) : Except Cause Leaf :=
  match tlbFind (s.tlbOf u) asid va with
  | some e => if k.writes && !pteD e.leaf then s.reread u asid va k e else .ok { entry := e.leaf, level := e.level, at_ := 0, path := [] }
  | none => s.walk u asid va k

/-- R120, R454: the block of a table that is ECC-poisoned and at which the translation of an address of an ASID stops, if it stops at
one. -/
def State.tablePoison (s : State) (u : Xlat) (asid : BitVec 16) (va : Nat) (k : Access) : Option Nat :=
  let walked : Option Nat := match s.walkTo u asid va with
    | .error w => some w.at_
    | .ok _ => none
  let at_ : Option Nat := match tlbFind (s.tlbOf u) asid va with
    | none => walked
    | some e =>
      if !(k.writes && !pteD e.leaf) then none
      else if (s.pteFault e.at_ e.level (s.pteAt e.at_)).isSome then some e.at_ else walked
  (at_.filter (fun pa => aget false (pa / 64) s.poison)).map (fun pa => pa / 64 * 64)

/-- R115, R124: the whole check of one byte address for an access. -/
def State.translateBy (s : State) (u : Xlat) (asid : BitVec 16) (v : Word) (k : Access) : Except Cause Leaf :=
  if !inRange v then .error (0x22#8, v) else
  match s.transLeaf u asid v.toNat k with
  | .error c => .error c
  | .ok l => match leafCheck l v.toNat k with
    | .error c => .error c
    | .ok _ => .ok l

/-- R115, R124: the check for a core's access. -/
def State.translate (s : State) (core : Nat) (asid : BitVec 16) (v : Word) (k : Access) : Except Cause Leaf :=
  s.translateBy (.core core) asid v k
/-- The same for an engine; a poisoned table entry that its walker reads is recorded as UNCORRECTABLE (R455). -/
def State.translateEngine (s : State) (eng : Nat) (asid : BitVec 16) (v : Word) (k : Access) : Except Cause Leaf :=
  match s.translateBy (.engine eng) asid v k with
  | .error c => .error (if c.1 = 0x23 ∧ (s.tablePoison (.engine eng) asid v.toNat k).isSome = true then 0x52 else c.1, c.2)
  | .ok l => .ok l

/-- R135, R171: sets the A bit, and for a write the D bit, of the entry in memory with an atomic OR at its home, every copy recalled
first: bits 11 and 12 stand in its second byte. -/
def State.markLeaf (s : State) (l : Leaf) (w : Bool) : State :=
  if l.at_ = 0 ∨ withAD l.entry w = l.entry then s else
  let s := s.writeBack (l.at_ / 64)
  s.putHome (l.at_ + 1) (s.homeByte (l.at_ + 1) ||| (if w then 0x18#8 else 0x08#8))

/-- R132: a TLB of so many entries takes one more; a full one gives an entry up, and nothing says which. -/
def tlbInsert (room n : Nat) (e : TlbEntry) (tlb : List TlbEntry) : List TlbEntry :=
  let keep := tlb.filter (fun x => !(x.asid == e.asid && x.va == e.va && x.size == e.size))
  e :: (if keep.length < room then keep else keep.eraseIdx (Config.freeVictim n % room))

/-- R133: a walker takes the non-leaf entries of a walk into its cache of 64; nothing says which a full one gives up. -/
def walkInsert (n : Nat) (w : List WalkEntry) (e : WalkEntry) : List WalkEntry :=
  if w.contains e then w else
  let keep := w.filter (fun x => !(x.asid == e.asid && x.level == e.level && x.index == e.index))
  e :: (if keep.length < 64 then keep else keep.eraseIdx (Config.freeVictim n % 64))
def State.cacheWalk (s : State) (u : Xlat) (va : Nat) (path : List WalkEntry) : State :=
  if path.isEmpty then s else
  { s with walkers := aput (u.walker va) (path.foldl (walkInsert s.fresh) (aget [] (u.walker va) s.walkers)) s.walkers }

/-- The TLB entry of a leaf. -/
def Leaf.tlbEntry (l : Leaf) (asid : BitVec 16) (va : Nat) (w : Word) : TlbEntry :=
  { asid := asid, va := va / pageSize l.level * pageSize l.level, size := pageSize l.level, leaf := w, level := l.level, at_ := l.at_ }

/-- R132, R133, R135: a translation takes effect: the leaf of a walk is installed in the TLB with A (and D for a write) set, and its
walker keeps the non-leaf entries. -/
def State.installFor (s : State) (u : Xlat) (asid : BitVec 16) (va : Nat) (l : Leaf) (w : Bool) : State :=
  if l.at_ = 0 then s else
  let s := (s.markLeaf l w).cacheWalk u va l.path
  -- R523: the length of a core's walk
  let s := match u with
    | .core c => s.observe c 7
    | _ => s
  { s.setTlb u (tlbInsert u.room s.fresh (l.tlbEntry asid va (withAD l.entry w)) (s.tlbOf u)) with fresh := s.fresh + 1 }

def State.installLeaf (s : State) (core : Nat) (asid : BitVec 16) (va : Nat) (l : Leaf) (w : Bool) : State :=
  s.installFor (.core core) asid va l w

/-- R135: whether a write to an address finds a TLB entry with D = 0. -/
def State.staleDirty (s : State) (u : Xlat) (asid : BitVec 16) (k : Access) (v : Word) : Bool :=
  k.writes && inRange v && (match tlbFind (s.tlbOf u) asid v.toNat with
    | some e => !pteD e.leaf
    | none => false)

/-- R135: what a TLB keeps where a write through an entry with D = 0 has failed: the entry gives way to the leaf as it now stands, or
goes where that is no valid leaf. -/
def State.revise (s : State) (u : Xlat) (asid : BitVec 16) (k : Access) (v : Word) : State :=
  if !s.staleDirty u asid k v then s else
  match tlbFind (s.tlbOf u) asid v.toNat with
  | none => s
  | some e =>
    let rest := (s.tlbOf u).filter (· != e)
    match s.reread u asid v.toNat k e with
    | .error _ => s.setTlb u rest
    | .ok l => if l.at_ = e.at_ then (s.markLeaf l false).setTlb u (l.tlbEntry asid v.toNat (withAD l.entry false) :: rest)
      else s.setTlb u rest

/-- A piece of an access: the virtual address of its first byte, and its length, within one 64 KiB page. -/
abbrev Seg := Word × Nat

/-- The pieces of n bytes from a virtual address on, cut at 64 KiB boundaries; fuel is the number of pieces at most. -/
def segments : Nat → Word → Nat → List Seg
  | 0, _, _ => []
  | fuel + 1, v, n =>
    if n = 0 then [] else
    let room := 0x10000 - v.toNat % 0x10000
    if n ≤ room then [(v, n)] else (v, room) :: segments fuel (v + BitVec.ofNat 64 room) (n - room)

/-- The pieces of n bytes. -/
def segs (v : Word) (n : Nat) : List Seg := segments (n / 0x10000 + 2) v n

/-- A translated piece: physical address, length, cache policy and the leaf that gave it. -/
structure Piece where
  va : Word
  pa : Nat
  len : Nat
  leaf : Leaf
  deriving DecidableEq, Repr

/-- Translates pieces in order, or gives the first fault (R124, R125). -/
def State.pieces (s : State) (core : Nat) (asid : BitVec 16) (k : Access) : List Seg → Except Cause (List Piece)
  | [] => .ok []
  | (v, n) :: r =>
    match s.translate core asid v k with
    | .error c => .error c
    | .ok l =>
      match s.pieces core asid k r with
      | .error c => .error c
      | .ok ps => .ok ({ va := v, pa := l.pa v.toNat, len := n, leaf := l } :: ps)

/-- R132, R135: the effect of having translated: TLB entries installed, A and D bits set. -/
def State.installPieces (s : State) (core : Nat) (asid : BitVec 16) (w : Bool) (ps : List Piece) : State :=
  ps.foldl (fun s p => s.installLeaf core asid p.va.toNat p.leaf w) s

/-- The bytes of translated pieces. -/
def State.readPieces (s : State) (ps : List Piece) : List Byte :=
  ps.flatMap (fun p => s.loadBytes (pteCp p.leaf.entry) p.pa p.len)

/-- Writes bytes through translated pieces under their cache policies. -/
def State.writePieces (s : State) (core : Nat) : List Piece → List Byte → State
  | [], _ => s
  | p :: ps, bs =>
    (s.storeBytes (storeWay core (pteCp p.leaf.entry)) p.pa (bs.take p.len)).writePieces core ps (bs.drop p.len)

/-- R82, R89, R93: a load through translated pieces brings its lines into the core's caches. -/
def State.fillPieces (s : State) (core : Nat) (ps : List Piece) : State :=
  ps.foldl (fun s p => s.fillBytes core (pteCp p.leaf.entry) p.pa p.len) s

end Sys2Proof.Machine
end

