-- ==== Sys2Proof/Machine/Barrier.lean ====
section
/-! DEFINITION. Access to seats, cores, clusters and dies, and the barrier objects: their evaluation and flip (R389 to
R391). -/

namespace Sys2Proof.Machine

def State.seatAt (s : State) (core x : Nat) : Seat := aget Seat.reset (2 * core + x) s.seats
def State.setSeat (s : State) (core x : Nat) (t : Seat) : State := { s with seats := aput (2 * core + x) t s.seats }
def State.modSeat (s : State) (core x : Nat) (f : Seat → Seat) : State := s.setSeat core x (f (s.seatAt core x))
def State.core (s : State) (n : Nat) : Core := aget Core.reset n s.cores
def State.setCore (s : State) (n : Nat) (c : Core) : State := { s with cores := aput n c s.cores }
def State.modCore (s : State) (n : Nat) (f : Core → Core) : State := s.setCore n (f (s.core n))
def State.cluster (s : State) (n : Nat) : Cluster := aget Cluster.reset n s.clusters
def State.modCluster (s : State) (n : Nat) (f : Cluster → Cluster) : State :=
  { s with clusters := aput n (f (s.cluster n)) s.clusters }
def State.die (s : State) (n : Nat) : Die := aget Die.reset n s.dies
def State.modDie (s : State) (n : Nat) (f : Die → Die) : State := { s with dies := aput n (f (s.die n)) s.dies }

/-- R26: the cluster and the die of a core. -/
def clusterOf (core : Nat) : Nat := core / 10
def dieOf (core : Nat) : Nat := core / 100

def State.leaf (s : State) (core o : Nat) : Barrier := aget Barrier.reset o (s.core core).leaf
def State.setLeaf (s : State) (core o : Nat) (b : Barrier) : State :=
  s.modCore core (fun c => { c with leaf := aput o b c.leaf })
def State.root (s : State) (cl o : Nat) : Barrier := aget Barrier.reset o (s.cluster cl).root
def State.setRoot (s : State) (cl o : Nat) (b : Barrier) : State :=
  s.modCluster cl (fun c => { c with root := aput o b c.root })

/-- R390: the condition under which an object's phase is complete. -/
def Barrier.complete (b : Barrier) : Bool := decide (b.exp ≤ b.arr) && decide (b.pend ≤ 0) && b.mxf == 0

/-- R390: OVERRUN is set when more bytes landed than were declared. -/
def Barrier.overrun (b : Barrier) : Barrier := if b.pend < 0 then { b with cstat := b.cstat ||| 0x100#32 } else b

/-- R390: flip of one object. -/
def Barrier.flip (b : Barrier) : Barrier :=
  { b with excess := (-b.pend).toNat, lstat := b.cstat, cstat := 0, arr := 0, pend := 0, phase := !b.phase }

/-- R389: a status ORed into CSTAT; FCAUSE keeps the first cause. -/
def Barrier.note (b : Barrier) (bits : W32) (cause : BitVec 8) : Barrier :=
  let f : BitVec 8 := b.cstat.extractLsb' 24 8
  let f := if f = 0 then cause else f
  { b with cstat := f ++ ((b.cstat ||| bits).extractLsb' 0 24) }

/-- R389, R443: the 32 bytes of a leaf object in a save frame: its fields in their order, each at its natural alignment (assumption log
entry 150). -/
def Barrier.bytes (b : Barrier) : List Byte :=
  let flag (x : Bool) : List Byte := [if x then 1 else 0]
  flag b.phase ++ [0] ++ natToBytes 2 b.exp ++ natToBytes 2 b.arr ++ [0, 0] ++ natToBytes 4 (BitVec.ofInt 32 b.pend).toNat ++
  natToBytes 1 b.mxf ++ [0, 0, 0] ++ natToBytes 4 b.cstat.toNat ++ natToBytes 4 b.lstat.toNat ++ natToBytes 4 b.excess ++
  flag b.arrived ++ flag b.link.isSome ++ natToBytes 1 ((b.link.map (·.2)).getD 0) ++ natToBytes 1 b.links

/-- R389, R443: the object that 32 bytes of a frame give, of a context whose leaves link to roots of a cluster. -/
def Barrier.ofBytes (cl : Nat) (bs : List Byte) : Barrier :=
  let n (o k : Nat) : Nat := bytesToNat ((bs.drop o).take k)
  { phase := n 0 1 % 2 == 1, exp := n 2 2, arr := n 4 2, pend := (BitVec.ofNat 32 (n 8 4)).toInt, mxf := n 12 1,
    cstat := BitVec.ofNat 32 (n 16 4), lstat := BitVec.ofNat 32 (n 20 4), excess := n 24 4, arrived := n 28 1 % 2 == 1,
    link := if n 29 1 % 2 = 1 then some (cl, n 30 1 % 8) else none, links := n 31 1 }

/-- R443: a leaf object's place in the frame at an address. -/
def leafAt (frame o : Nat) : Nat := frame + 0x13200 + 32 * o

/-- R390, R443: the leaves of a saved context that a flip has released change in its frame as well. -/
def State.putLeaves (s : State) (addr : Nat) (l l' : Assoc Barrier) : State :=
  l'.foldl (fun (s : State) e => if alook e.1 l = some e.2 then s else s.engineBytes (leafAt addr e.1) e.2.bytes) s

/-- R390: the flip of a root releases every leaf linked to it that has arrived, also those of a context that is held in a save
frame. -/
def State.flipRoot (s : State) (cl o : Nat) : State :=
  let s := s.setRoot cl o ((s.root cl o).flip)
  let free (l : Assoc Barrier) : Assoc Barrier := l.map (fun x =>
    if x.2.link = some (cl, o) ∧ x.2.arrived = true then (x.1, ({ x.2 with arrived := false }).flip) else x)
  let item (e : PoolEntry) : PoolEntry := match e.item with
    | .frame f => { e with item := .frame { f with leaf := free f.leaf } }
    | .record _ => e
  let s : State := s.dies.foldl (fun s d => d.2.pool.foldl (fun (s : State) e => match e.item with
    | .frame f => s.putLeaves f.addr f.leaf (free f.leaf)
    | .record _ => s) s) s
  { s with cores := s.cores.map (fun e => (e.1, { e.2 with leaf := free e.2.leaf }))
           dies := s.dies.map (fun d => (d.1, { d.2 with pool := d.2.pool.map item })) }

/-- R390: evaluate a root. -/
def State.evalRoot (s : State) (cl o : Nat) : State :=
  let b := s.root cl o
  if b.complete then (s.setRoot cl o b.overrun).flipRoot cl o else s

/-- R390: evaluate a leaf. -/
def State.evalLeaf (s : State) (core o : Nat) : State :=
  let b := s.leaf core o
  if b.arrived then s else
  if b.complete then
    let b := b.overrun
    match b.link with
    | some (cl, r) =>
      let s := s.setLeaf core o { b with arrived := true }
      let t := (s.root cl r).note (b.cstat &&& 0xFFFFFF#32) (b.cstat.extractLsb' 24 8)
      (s.setRoot cl r { t with arr := Nat.min 65535 (t.arr + 1) }).evalRoot cl r
    | none => s.setLeaf core o b.flip
  else s

/-- R390: an arrival at an object of a core, a leaf (0 to 15) or a root of its cluster (16 to 23). -/
def State.arriveAt (s : State) (core obj : Nat) : State :=
  let more (b : Barrier) : Barrier := { b with arr := Nat.min (b.arr + 1) 65535 }
  if obj < 16 then (s.setLeaf core obj (more (s.leaf core obj))).evalLeaf core obj
  else (s.setRoot (core / 10) (obj - 16) (more (s.root (core / 10) (obj - 16)))).evalRoot (core / 10) (obj - 16)

/-- R389: a value of PEND, 32 bits signed: a sum beyond the range stays at its end, as R392 has it for BAR.EXP. -/
def clampPend (x : Int) : Int := max (-2147483648) (min 2147483647 x)

/-- PEND falls by n, and the object is evaluated. -/
def State.landSome (s : State) (core o n : Nat) : State :=
  let b := s.leaf core o
  (s.setLeaf core o { b with pend := clampPend (b.pend - n) }).evalLeaf core o

/-- R383, R390: landed bytes decrement PEND, and the object is evaluated after each: it can complete only with the byte that brings PEND
to 0, and those that land after it count into the next phase. -/
def State.landBytes (s : State) (core o n : Nat) : State :=
  let k := (s.leaf core o).pend.toNat
  if 0 < k ∧ k < n then (s.landSome core o k).landSome core o (n - k) else s.landSome core o n

/-- R376: a matrix operation completes: its status joins CSTAT, MXF falls by one, and the object is evaluated. -/
def State.mxfDone (s : State) (core o : Nat) (bits : W32) (cause : BitVec 8) : State :=
  let b := (s.leaf core o).note bits cause
  (s.setLeaf core o { b with mxf := b.mxf - 1 }).evalLeaf core o

end Sys2Proof.Machine
end

