-- ==== Sys2Proof/Machine/Timeline.lean ====
section
/-! DEFINITION. Timelines, their fault words, certification entries and memory mirrors; queue slots by queue number; launch
entries (R210, R239, R257 to R262, R462). -/

namespace Sys2Proof.Machine

/-! Atomics. -/

/-- R403: the new value of an atomic of n bytes, none when a CAS fails. -/
def amoNew (op : AmoOp) (n : Nat) (old x cmp : Word) : Option Word :=
  let m (w : Word) : Word := BitVec.ofNat 64 (w.toNat % 2 ^ (8 * n))
  let sg (w : Word) : Int := if n = 4 then (w.extractLsb' 0 32).toInt else w.toInt
  match op with
  | .add => some (m (old + x))
  | .and => some (m (old &&& x))
  | .or => some (m (old ||| x))
  | .xor => some (m (old ^^^ x))
  | .minS => some (if sg old ≤ sg x then m old else m x)
  | .maxS => some (if sg x ≤ sg old then m old else m x)
  | .xchg => some (m x)
  | .cas => if m old = m cmp then some (m x) else none

/-- R171, R403: an atomic at the home of its line: every cached copy is recalled first. The old value and the state after. -/
def State.amoAt (s : State) (pa : Nat) (op : AmoOp) (n : Nat) (x cmp : Word) : Word × State :=
  let s := s.recall (pa / 64) 1
  let old : Word := BitVec.ofNat 64 (bytesToNat ((List.range n).map (fun i => s.homeByte (pa + i))))
  match amoNew op n old x cmp with
  | some v => (old, s.putHomes pa (natToBytes n v.toNat))
  | none => (old, s)

/-- A word of control space by its byte offset; the Reset value is the caller's. -/
def State.ctlW (s : State) (d : W32) (off : Nat) : W32 := aget d (off / 4) s.ctl
def State.setCtlW (s : State) (off : Nat) (v : W32) : State := { s with ctl := aput (off / 4) v s.ctl }

/-- R491, R495: a request to the host. -/
def State.hostRequest (s : State) (r : HostReq) : State :=
  { s with host := { s.host with reqs := aput s.host.nextReq r s.host.reqs, nextReq := s.host.nextReq + 1 } }

/-- R491: the bytes of a range that one request may take. -/
def hostChunk (pa n : Nat) : Nat := Nat.min n (64 - pa % 64)

/-- Cuts bytes at 64-byte boundaries; fuel is the number of pieces at most. -/
def hostCut : Nat → Nat → List Byte → List (Nat × List Byte)
  | 0, _, _ => []
  | fuel + 1, pa, bs =>
    if bs.isEmpty then [] else
    let k := hostChunk pa bs.length
    (pa, bs.take k) :: hostCut fuel (pa + k) (bs.drop k)

/-- R92: whether an access waits because its page is being pinned or unpinned. -/
def State.pinBusy (s : State) (pa : Nat) : Bool :=
  s.clusters.any (fun c => c.2.pins.any (fun e => e.2.busy.isSome && e.2.ppn.toNat == pa / 0x10000))

/-- R496: a request that leaves once the requests named have been acknowledged, and, where it is a write into device memory, once its
page is neither pinned nor unpinned (R92). -/
def State.hostAfter (s : State) (waits : List Nat) (r : HostReq) : State :=
  if waits.isEmpty && !s.pinBusy r.addr then s.hostRequest r
  else { s with host := { s.host with later := aput s.host.nextReq (waits, r) s.host.later, nextReq := s.host.nextReq + 1 } }

/-- R496: the writes and atomics to the host that have not been acknowledged, those that have still to leave among them. -/
def State.hostWriting (s : State) (p : HostReq → Bool) : List Nat :=
  let open_ (r : HostReq) : Bool := (r.write || r.amo.isSome) && r.use != .message && p r
  ((s.host.reqs.filter (fun e => open_ e.2)).map (·.1)) ++ ((s.host.later.filter (fun e => open_ e.2.2)).map (·.1))

/-- R497: a message leaves the port. -/
def State.sendMessage (s : State) (r : HostReq) : State :=
  { s with host := { s.host with messages := s.host.messages ++ [(r.addr, BitVec.ofNat 32 (bytesToNat r.data))] } }

/-- R168, R496: a request whose turn has come leaves: a message, a write into device memory, or a request to the host. -/
def State.hostLeave (s : State) (id : Nat) (r : HostReq) : State :=
  if r.use = .message then s.sendMessage r
  else if region r.addr = .host then { s with host := { s.host with reqs := aput id r s.host.reqs } }
  else s.engineBytes r.addr r.data

/-- R92, R168, R496: what waited for requests alone leaves now that they have been acknowledged; a write into device memory is performed,
and lets what waited for it follow. Fuel is the number of requests that wait. -/
def State.hostReleaseN : Nat → List Nat → State → State
  | 0, _, s => s
  | fuel + 1, ids, s =>
    let later := s.host.later.map (fun e => (e.1, (e.2.1.filter (fun i => !ids.contains i), e.2.2)))
    let goes (e : Nat × List Nat × HostReq) : Bool := e.2.1.isEmpty && !s.pinBusy e.2.2.addr
    let s : State := { s with host := { s.host with later := later.filter (fun e => !goes e) } }
    let s := (later.filter goes).foldl (fun (s : State) e => s.hostLeave e.1 e.2.2) s
    let here := ((later.filter goes).filter (fun e => e.2.2.use != .message && region e.2.2.addr != .host)).map (·.1)
    if here.isEmpty then s else State.hostReleaseN fuel here s
def State.hostRelease (s : State) (ids : List Nat) : State := State.hostReleaseN (s.host.later.length + 1) ids s

/-- R491, R495: posted writes to the host of bytes from an address on, in the manner of a request. -/
def State.hostWritesBy (s : State) (r : HostReq) (pa : Nat) (bs : List Byte) : State :=
  (hostCut (bs.length / 64 + 2) pa bs).foldl (fun s p => s.hostRequest { r with addr := p.1, size := p.2.length, write := true, data := p.2 }) s

def State.hostWrites (s : State) (use : HostUse) (asid : BitVec 16) (pa : Nat) (bs : List Byte) : State :=
  s.hostWritesBy { asid := asid, use := use, addr := 0, size := 0, write := true, data := [] } pa bs

/-- The bytes of an engine's write where a request's manner says whose it is. -/
def State.engineWriteBy (s : State) (r : HostReq) (pa : Nat) (bs : List Byte) : State :=
  if region pa = .host then s.hostWritesBy r pa bs else s.engineBytes pa bs

/-- An engine's write of bytes that lie in one region; the host's are posted. -/
def State.engineWrite (s : State) (asid : BitVec 16) (use : HostUse) (pa : Nat) (bs : List Byte) : State :=
  if region pa = .host then s.hostWrites use asid pa bs else s.engineBytes pa bs

/-- R92, R476: the host accesses that the port has held are taken up again while the device is ACTIVE. -/
def State.resumeHeld (s : State) : State :=
  if s.power.state ≠ 0 then s
  else { s with agenda := s.host.held.map (fun a => Act.access a) ++ s.agenda, host := { s.host with held := [] } }

/-- R474, R483: whether the compute dies have power and what a power loss has left has been dealt with. -/
def State.active (s : State) : Bool := s.power.state == 0 && !s.power.lost

/-- R38: the control-space offset of a die's block, and of a core's block. -/
def dieBlock (d : Nat) : Nat := (d + 1) * 0x10000000
def coreBlock (n : Nat) : Nat := (n / 100 + 1) * 0x10000000 + (n / 10 % 10 + 1) * 0x1000000 + (n % 10 + 1) * 0x100000

/-- R262: raises a cause of FWIRQ. -/
def State.raiseFw (s : State) (bit : Nat) : State := { s with fe := { s.fe with fwirq := s.fe.fwirq ||| BitVec.ofNat 32 (2 ^ bit) } }

/-- R239: a field of a QCB of n bytes at an offset. -/
def HwSlot.field (h : HwSlot) (off n : Nat) : Nat := bytesToNat ((h.qcb.drop off).take n)
def HwSlot.setField (h : HwSlot) (off n v : Nat) : HwSlot :=
  { h with qcb := h.qcb.take off ++ natToBytes n v ++ h.qcb.drop (off + n) }

def HwSlot.rbase (h : HwSlot) : Nat := h.field 0 8
def HwSlot.mirror (h : HwSlot) : Nat := h.field 8 8
def HwSlot.asid (h : HwSlot) : BitVec 16 := BitVec.ofNat 16 (h.field 0x10 2)
def HwSlot.qnum (h : HwSlot) : Nat := h.field 0x12 2
def HwSlot.log2sz (h : HwSlot) : Nat := h.field 0x14 1
def HwSlot.scope (h : HwSlot) : Nat := h.field 0x15 1
def HwSlot.priomax (h : HwSlot) : Nat := h.field 0x16 1
def HwSlot.qflags (h : HwSlot) : Nat := h.field 0x17 1
def HwSlot.rptr (h : HwSlot) : Nat := h.field 0x18 4
def HwSlot.wptr (h : HwSlot) : Nat := h.field 0x1C 4
/-- R238: the ring's units. -/
def HwSlot.units (h : HwSlot) : Nat := 2 ^ (h.log2sz - 5)

def State.slotAt (s : State) (k : Nat) : HwSlot := aget HwSlot.reset k s.fe.slots
def State.setSlot (s : State) (k : Nat) (h : HwSlot) : State := { s with fe := { s.fe with slots := aput k h s.fe.slots } }

/-- R240: the slot a queue is mapped to. -/
def State.slotOf (s : State) (q : Nat) : Option Nat :=
  (s.fe.slots.find? (fun e => e.2.state != 0 && e.2.qnum == q)).map (·.1)

def State.tl (s : State) (t : Nat) : Timeline := aget Timeline.reset t s.fe.timelines
def State.setTl (s : State) (t : Nat) (x : Timeline) : State :=
  { s with fe := { s.fe with timelines := aput t x s.fe.timelines } }

/-- R257: the fault word after a fault under the first-fault rule. -/
def faultWord (w : W32) (cause tag : BitVec 8) : W32 :=
  if w.getLsbD 31 then w else 0x8000#16 ++ (tag ++ cause) ||| (w &&& 0x78000000#32)

/-- R257, R262: records a fault on a timeline, without its mirror. -/
def State.noteFault (s : State) (t : Nat) (cause tag : BitVec 8) : State :=
  let x := s.tl t
  let s' := s.setTl t { x with fault := faultWord x.fault cause tag }
  if x.fault.getLsbD 31 then s' else s'.raiseFw 8

/-- R168, R260, R496: one word of a mirror: it follows the words of the mirror written before it, and the last of them, VALUE, is a
release that follows every write to the host. -/
def State.mirrorPut (s : State) (t : Nat) (asid : BitVec 16) (release : Bool) (pa n v : Nat) : State :=
  let waits := s.hostWriting (fun r => release || r.use == .mirror t)
  if region pa ≠ .host ∧ waits.isEmpty = true ∧ s.pinBusy pa = false then s.engineBytes pa (natToBytes n v)
  else s.hostAfter waits { asid := asid, use := .mirror t, addr := pa, size := n, write := true, data := natToBytes n v }

/-- R260: rewrites the mirror of a queue's timeline: FAULT, RPTR, CERT, then VALUE. A write that translation refuses is dropped,
recorded in the fault word, and ends the mirror until the queue's next MAP. A queue that no slot is mapped to has no mirror. A rewrite
for VALUE, CERT or the fault word carries the RPTR written last. -/
def State.mirror (s : State) (t : Nat) : State :=
  match s.slotOf t with
  | none => s
  | some k =>
    let h := s.slotAt k
    match h.mirrorRptr with
    | none => s
    | some r =>
      if h.mirror = 0 then s else
      let x := s.tl t
      match s.translateEngine engFront h.asid (BitVec.ofNat 64 h.mirror) (.engine true) with
      | .error c => ((s.noteFault t c.1 0).setSlot k { h with mirrorRptr := none })
      | .ok l =>
        let pa := l.pa h.mirror
        let s := s.installFor (.engine engFront) h.asid h.mirror l true
        let s := s.mirrorPut t h.asid false (pa + 0x10) 4 x.fault.toNat
        let s := s.mirrorPut t h.asid false (pa + 0x14) 4 r
        let s := s.mirrorPut t h.asid false (pa + 0x08) 8 x.cert.toNat
        s.mirrorPut t h.asid true pa 8 x.value.toNat

/-- R260: the mirror's RPTR is written when the queue becomes empty, when it parks, and at every quarter of the ring. -/
def State.mirrorRptr (s : State) (k : Nat) (force : Bool) : State :=
  let h := s.slotAt k
  match h.mirrorRptr with
  | none => s
  | some r =>
    if force || h.rptr == h.wptr || decide (h.units / 4 ≤ (h.rptr + 2 ^ 32 - r) % 2 ^ 32) then
      (s.setSlot k { h with mirrorRptr := some h.rptr }).mirror h.qnum
    else s

/-- R257: records a fault on a timeline. -/
def State.recordFault (s : State) (t : Nat) (cause tag : BitVec 8) : State := (s.noteFault t cause tag).mirror t

/-- R257: sets bits of the fault word (KILLED 30, SIGMISS 29, LOSS 28, POWER 27). -/
def State.recordBit (s : State) (t bit : Nat) : State :=
  let x := s.tl t
  (s.setTl t { x with fault := x.fault ||| BitVec.ofNat 32 (2 ^ bit) }).mirror t

/-- R460: the control word of SCANCNT of a core. -/
def scanCntOff (core : Nat) : Nat := dieBlock (dieOf core) + 0x00090200 + 4 * (core % 100)
def State.scanCnt (s : State) (core : Nat) : W32 := s.ctlW 0 (scanCntOff core)

/-- R462: whether an entry is certified: every contributing core has passed a scan since, or SUSPACK treats it so. -/
def State.entryCertified (s : State) (e : CertEntry) : Bool :=
  e.cores.all (fun c => decide (c.2.toNat < (s.scanCnt c.1).toNat)) && !e.suspect

/-- R462: takes the certified entries off the head of a timeline's list; what is left, and the sum of their increments. -/
def State.takeCertified (s : State) (t : Nat) : List CertEntry → List CertEntry × Nat
  | [] => ([], 0)
  | e :: r =>
    if e.tl ≠ t then
      let x := s.takeCertified t r
      (e :: x.1, x.2)
    else if s.entryCertified e then
      let x := s.takeCertified t r
      (x.1, e.inc + x.2)
    else (e :: r, 0)

/-- R462: raises CERT by the certified entries of a timeline. -/
def State.certify (s : State) (t : Nat) : State :=
  let x := s.takeCertified t s.fe.certs
  if x.2 = 0 ∧ x.1.length = s.fe.certs.length then s else
  let s : State := { s with fe := { s.fe with certs := x.1 } }
  let y := s.tl t
  (s.setTl t { y with cert := y.cert + BitVec.ofNat 64 x.2 }).mirror t

/-- R462: whether an increment finds a certification entry, free or to merge into. -/
def State.certRoom (s : State) (t : Nat) : Bool := decide (s.fe.certs.length < 4096) || s.fe.certs.any (fun e => e.tl == t)

/-- R462: merges an increment into the youngest entry of its timeline. -/
def mergeCert (t inc : Nat) (cores : List (Nat × W32)) : List CertEntry → List CertEntry
  | [] => []
  | e :: r =>
    if e.tl = t ∧ r.all (fun x => x.tl != t) = true then
      { e with inc := e.inc + inc,
               cores := e.cores.filter (fun c => cores.all (fun d => d.1 != c.1)) ++ cores } :: r
    else e :: mergeCert t inc cores r

/-- R259, R462: VALUE rises, with a certification entry for the contributing cores. -/
def State.increment (s : State) (t inc : Nat) (cores : List Nat) (tag : BitVec 8) : State :=
  let y := s.tl t
  let s := s.setTl t { y with value := y.value + BitVec.ofNat 64 inc }
  let cs := cores.map (fun c => (c, s.scanCnt c))
  let certs := if s.fe.certs.length < 4096 then s.fe.certs ++ [{ tl := t, inc := inc, cores := cs, tag := tag, suspect := false }]
    else mergeCert t inc cs s.fe.certs
  let s : State := { s with fe := { s.fe with certs := certs } }
  (s.certify t).mirror t

/-- R258: whether a wait on a timeline is satisfied. -/
def State.tlReached (s : State) (t : Nat) (cert : Bool) (h : Word) : Bool :=
  let x := s.tl t
  decide (((if cert then x.cert else x.value) - h).toNat < 2 ^ 63)

/-- R210: the launch entry of a placement tag. -/
def tagEntry (tag : Word) : Nat := (tag.extractLsb' 0 11).toNat

/-- R210: counts one continuation out of its launch entry; when none is left the packet has nothing more to wait for but its
writes. -/
def State.countOut (s : State) (tag : Word) : State :=
  match alook (tagEntry tag) s.fe.entries with
  | none => s
  | some e =>
    let s : State := { s with fe := { s.fe with entries := aput (tagEntry tag) { e with live := e.live - 1 } s.fe.entries } }
    if e.live ≤ 1 then
      match alook e.pkt s.fe.packets with
      | some p => { s with fe := { s.fe with packets := aput e.pkt { p with done := true } s.fe.packets } }
      | none => s
    else s

/-- R257, R439: the fault of a continuation on the timeline of the queue whose launch created it. -/
def State.entryFault (s : State) (tag : Word) (cause : BitVec 8) : State :=
  match alook (tagEntry tag) s.fe.entries with
  | none => s
  | some e => s.recordFault e.queue cause e.tag

/-- R257: the task of a continuation that a kill ended records KILLED, and its cause 0x59 under the first-fault rule. -/
def State.entryKilled (s : State) (tag : Word) : State :=
  match alook (tagEntry tag) s.fe.entries with
  | none => s
  | some e => (s.recordFault e.queue 0x59 e.tag).recordBit e.queue 30

end Sys2Proof.Machine
end

