-- ==== Sys2Proof/Machine/Array.lean ====
section
/-! DEFINITION. Runs, the layout of rows of codes, the arrival of results in registers (R222), and the accumulators: the order
of their matrix operations and moves, and what each does when its turn comes (R73 to R79, R108, R373 to R378). -/

namespace Sys2Proof.Machine

/-- Registers after placement (R206). -/
def sreg0 : SReg := { val := 0, fill := .full }
def preg0 : PReg := { val := false, fill := .full }
def vreg0 : VReg := { rows := 1, cols := 1, runs := [(0, 1)], fill := .full }

/-- A list of runs (R332). -/
abbrev Runs := List (W32 × Nat)
/-- Runs with equal neighbours joined (R333). -/
def joinRuns : Runs → Runs
  | [] => []
  | (v, n) :: r =>
    match joinRuns r with
    | [] => [(v, n)]
    | (u, m) :: t => if u = v then (v, n + m) :: t else (v, n) :: (u, m) :: t
/-- Runs built from elements by joining equal neighbours. -/
def ofElems (l : List W32) : Runs := joinRuns (l.map (fun x => (x, 1)))

/-- Appends codes of w bits each into bytes, least significant bits first; the bits fill whole bytes. -/
def packCodes (w : Nat) (l : List Nat) : List Byte :=
  if w = 32 then l.flatMap (natToBytes 4)
  else if w = 16 then l.flatMap (natToBytes 2)
  else if w = 8 then l.flatMap (natToBytes 1)
  else
    let per := if w = 4 then 2 else 4
    (chunks per l.length l).flatMap (fun g => natToBytes (per * w / 8) (g.foldr (fun x n => x + 2 ^ w * n) 0))

/-- Rows of bytes with starts in ascending order, joined where they meet or overlap; a later row keeps its bytes. -/
def mergeRows : List (Word × List Byte) → List (Word × List Byte) → List (Word × List Byte)
  | acc, [] => acc.reverse
  | [], r :: rs => mergeRows [r] rs
  | (a, bs) :: acc, (b, cs) :: rs =>
    let d := (b - a).toNat
    if d ≤ bs.length then mergeRows ((a, bs.take d ++ cs ++ bs.drop (d + cs.length)) :: acc) rs
    else mergeRows ((b, cs) :: (a, bs) :: acc) rs

/-- The whole 64-byte blocks within a run of bytes, as offsets from its start. -/
def wholeBlocks (start : Word) (n : Nat) : List Nat :=
  let lead := (64 - start.toNat % 64) % 64
  (List.range ((n - lead) / 64)).map (fun i => lead + 64 * i)

/-- The rows of a tile of codes as bytes at their starts. -/
def tileBytes (rows : List (Word × Nat)) (w : Nat) (codes : List Nat) : List (Word × List Byte) :=
  let rec go : List (Word × Nat) → List Nat → List (Word × List Byte)
    | [], _ => []
    | r :: rs, l => (r.1, packCodes w (l.take r.2)) :: go rs (l.drop r.2)
  mergeRows [] (go rows codes)

/-- R222: a register that waits for a producer takes its value. -/
def RegFile.fill (r : RegFile) (id : Nat) (reg : BitVec 6) (v : Word) : RegFile :=
  if (aget sreg0 reg.toNat r.s).fill = .pending id then { r with s := aput reg.toNat { val := v, fill := .full } r.s } else r

/-- R457: the same register of the last commit's snapshot. -/
def Seat.fillSnap (t : Seat) (id : Nat) (reg : BitVec 6) (v : Word) : Seat :=
  { t with snap := t.snap.map (fun p => { p with file := { p.file with regs := p.file.regs.fill id reg v } }) }

/-- R235, R421, R445: the registers held in save frames that wait for an engine command: its value, or none where it has been
cancelled, and the state byte go to the frame. -/
def State.fillFrames (s : State) (id : Nat) (v : Option Word) : State :=
  let frames : List FrameRef := s.dies.flatMap (fun d => d.2.pool.filterMap (fun e => match e.item with
    | .frame f => if f.waits.any (fun w => w.2.2 == id) then some f else none
    | .record _ => none))
  let put (s : State) (f : FrameRef) : State := f.waits.foldl (fun (s : State) w =>
    if w.2.2 = id then
      let at_ := f.addr + 0x1000 + 0x1000 * w.1
      let s : State := match v with
        | some v => s.engineBytes (at_ + 8 * w.2.1) (natToBytes 8 v.toNat)
        | none => s
      s.engineBytes (at_ + 0x200 + w.2.1) [if v.isSome then 63 else 0xBF]
    else s) s
  let drop (f : FrameRef) : FrameRef :=
    { f with waits := f.waits.filter (fun w => w.2.2 != id),
             rest := f.rest.map (fun r => (r.1, match v with
               | some v => f.waits.foldl (fun t w => if w.2.2 = id ∧ w.1 = r.1 then t.fillSnap id (BitVec.ofNat 6 w.2.1) v else t) r.2
               | none => r.2)) }
  if frames.isEmpty then s else
  let s : State := frames.foldl put s
  { s with dies := s.dies.map (fun d => (d.1, { d.2 with pool := d.2.pool.map (fun e => match e.item with
      | .frame f => { e with item := .frame (drop f) }
      | .record _ => e) })) }

/-- R222: a producer fills its scalar register, if the register still waits for it, wherever its context is. -/
def State.fillS (s : State) (core x id : Nat) (reg : BitVec 6) (v : Word) : State :=
  (s.modSeat core x (fun t =>
    { t with file := { t.file with regs := t.file.regs.fill id reg v } }.fillSnap id reg v)).fillFrames id (some v)

/-- R222: a producer fills its vector register. -/
def State.fillV (s : State) (core x id k : Nat) (f : VReg → VReg) : State :=
  s.modSeat core x (fun t =>
    let v := aget vreg0 k t.file.regs.v
    if v.fill = .pending id then
      { t with file := { t.file with regs := { t.file.regs with v := aput k (f v) t.file.regs.v } } }
    else t)

/-- R62: flags that arrive with an operation's completion. -/
def State.lateFlags (s : State) (core x : Nat) (f : VF) : State :=
  s.modSeat core x (fun t => { t with file := { t.file with ctl := { t.file.ctl with vflags := t.file.ctl.vflags ||| f.zeroExtend 32 } } })

/-- R62: flags that arrive when the seat's bundle n may read their result. -/
def State.flagsAt (s : State) (core x n : Nat) (f : VF) : State :=
  s.modSeat core x (fun t => { t with vfPend := t.vfPend ++ [(n, f.zeroExtend 32)] })

/-! Accumulators. -/

/-- R108: element (i, j) of an accumulator, by 64i + j. -/
def Core.accElem (c : Core) (acc k : Nat) : W32 := aget 0 (4096 * acc + k) c.acc

/-- Consecutive elements of an accumulator written. -/
def Core.accPut (c : Core) (acc : Nat) : Nat → List W32 → Core
  | _, [] => c
  | k, x :: xs => ({ c with acc := aputD 0 (4096 * acc + k) x c.acc }).accPut acc (k + 1) xs

/-- R459: in the present phase of seat x, seat y changes an accumulator. -/
def State.noteChange (s : State) (core x y acc : Nat) : State :=
  if (s.seatAt core x).file.ctl.phaseEn && !(s.core core).accPhase.contains (x, y, acc) then
    s.modCore core (fun c => { c with accPhase := c.accPhase ++ [(x, y, acc)] })
  else s

/-- R457: the value of an accumulator before the first change that the present phase of seat x makes. -/
def State.saveAcc (s : State) (core x acc : Nat) : State :=
  s.modCore core (fun c =>
    if c.accSaves.any (fun e => e.seat == x && e.acc == acc) then c
    else { c with accSaves := c.accSaves ++ [{ seat := x, acc := acc, elems := c.acc.filter (fun e => e.1 / 4096 == acc) }] })

/-- R457, R459: an operation of seat x is about to change an accumulator; one of an earlier phase of the seat is no change of its present
one. -/
def State.noteAcc (s : State) (core x acc id : Nat) : State :=
  let s := s.noteChange core (1 - x) x acc
  match (s.seatAt core x).file.ctl.phaseEn, (s.seatAt core x).snap with
  | true, some p => if id < p.ops then s else (s.noteChange core x x acc).saveAcc core x acc
  | _, _ => s

/-- R377: an accumulator read delivers 16 rows; its register is full 8 bundles on. -/
def State.deliverAcc (s : State) (core id : Nat) (o : AccReadOp) : State :=
  let c := s.core core
  let es := (List.range 1024).map (fun k => c.accElem o.acc (1024 * o.rg + k))
  let rs := if o.int then es.map cvtIf else es.map (fun x => (x, 0))
  let n := (s.seatAt core o.seat).issued
  let s := s.modCore core (fun c => { c with ops := adel id c.ops, opLent := adel id c.opLent })
  let s := s.fillV core o.seat id o.reg (fun _ => { rows := 16, cols := 64, runs := ofElems (rs.map (·.1)), fill := .soon (n + 8) })
  s.flagsAt core o.seat (n + 8) ((rs.foldl (fun f r => f ||| r.2) 0) &&& fNX)

/-- R70, R378: the code of an accumulator element in the format of an ACCST. -/
def AccstOp.codeOf (o : AccstOp) (x : W32) : Nat :=
  let t : FmtCtx := { efr := o.efr, l6q := o.l6q, table := o.table }
  if o.int then
    if codeInt o.code then (if o.scale = 0xFF then 0 else encodeIntCode o.efr (codeWidth o.code) (Num.ofInt x.toInt))
    else if o.code = 0x00 then (Num.ofInt x.toInt).toF32.1.toNat
    else encodeElem t o.code o.scale (Num.ofInt x.toInt)
  else if o.code = 0x00 then x.toNat
  else encodeElem t o.code o.scale (Num.ofF32 x)

/-- R378: the rows of an ACCST as bytes, from the accumulator as it stands. -/
def AccstOp.sample (o : AccstOp) (c : Core) : AccstOp :=
  let es := (List.range o.rows).flatMap (fun i => (List.range o.cols).map (fun j =>
    o.codeOf (c.accElem o.acc (64 * (o.row0 + i) + o.col0 + j))))
  { o with data := some (tileBytes o.rowsAt (codeWidth o.code) es) }

/-- R108, R375: what of an accumulator an operation in flight uses in order: every matrix operation, and the moves that have
not taken effect. -/
def Op.accNo : Op → Option Nat
  | .mma o => some o.acc
  | .accRead o => some o.acc
  | .accWrite o => some o.acc
  | .accst o => if o.data.isNone then some o.acc else none
  | _ => none

/-- R108: whether an operation before a given one uses an accumulator. -/
def Core.accBusy (c : Core) (acc id : Nat) : Bool := c.ops.any (fun e => decide (e.1 < id) && e.2.accNo == some acc)

/-- R108: the moves whose turn has come take effect, in issue order. -/
def State.settleAcc (s : State) (core : Nat) : State :=
  let r := (s.core core).ops.foldl (fun (st : State × List Nat) e =>
    match e.2 with
    | .mma o => (st.1, o.acc :: st.2)
    | .accRead o => if st.2.contains o.acc then st else (st.1.deliverAcc core e.1 o, st.2)
    | .accWrite o =>
      if st.2.contains o.acc then st else
      let s := st.1.noteAcc core o.seat o.acc e.1
      (s.modCore core (fun c => ({ c with ops := adel e.1 c.ops, opLent := adel e.1 c.opLent }).accPut o.acc o.lo o.elems), st.2)
    | .accst o =>
      if st.2.contains o.acc || o.data.isSome then st
      else (st.1.modCore core (fun c => { c with ops := aput e.1 (.accst (o.sample c)) c.ops }), st.2)
    | _ => st) (s, [])
  r.1

/-! Matrix operations. -/

def Core.slot (c : Core) (n : Nat) : OpSlot := aget OpSlot.reset n c.slots
def Core.modSlot (c : Core) (n : Nat) (f : OpSlot → OpSlot) : Core := { c with slots := aput n (f (c.slot n)) c.slots }

/-- R104: the tag of block b of row i of a slot. -/
def OpSlot.tag (o : OpSlot) (i b : Nat) : BitVec 16 := aget 0 (3 * i + b) o.tags
def tagFmt (t : BitVec 16) : Nat := (t.extractLsb' 0 8).toNat
def tagScale (t : BitVec 16) : BitVec 8 := t.extractLsb' 8 8

/-- R374: FADDR of a format cause in a slot. -/
def slotAddr (n k : Nat) : Word := BitVec.ofNat 64 (n * 256 + k % 3 * 64 + k / 3)

/-- R49, R77: the element count of a 192-byte row. -/
def rowCount (c : Nat) : Nat := 192 * 8 / codeWidth c

/-- R374: FADDR of a disagreement between two operands, of which the rule does not say which one or which place it names: a slot of the
two, a block and a row, free. -/
def pairAddr (a b n : Nat) : Word :=
  let f := Config.freeW32 n
  slotAddr (if f.getLsbD 31 then a else b) (f.toNat % 192)

/-- R58, R59, R374: the format checks of a matrix operation over the used rows of its operands: the cause and FADDR of the
first failure; n is the count of free values taken. -/
def Core.mmaCheck (c : Core) (a b rows cols n : Nat) : Option Cause :=
  let find (n rs : Nat) (p : Nat → BitVec 16 → Bool) : Option Nat :=
    (List.range (3 * rs)).find? (fun k => p k (aget 0 k (c.slot n).tags))
  let fa := tagFmt ((c.slot a).tag 0 0)
  let fb := tagFmt ((c.slot b).tag 0 0)
  let bad1 (n rs : Nat) : Option Cause := (find n rs (fun _ t => !codeReadable (tagFmt t))).map (fun k => (0x30#8, slotAddr n k))
  let bad2 (n rs f : Nat) : Option Cause := (find n rs (fun _ t => tagFmt t != f)).map (fun k => (0x31#8, slotAddr n k))
  let bad4 (n rs f : Nat) : Option Cause :=
    (find n rs (fun k t => tagScale t == 0xFF && (!codeSix f || k % 3 == 0))).map (fun k => (0x33#8, slotAddr n k))
  let chk3 : Option Cause := if rowCount fa = rowCount fb then none else some (0x32#8, pairAddr a b n)
  let chk4 : Option Cause := if codeInt fa && codeInt fb then (bad4 a rows fa).or (bad4 b cols fb) else none
  (bad1 a rows).or ((bad1 b cols).or ((bad2 a rows fa).or ((bad2 b cols fb).or (chk3.or chk4))))

/-- R104: the bytes of a row of a slot. -/
def OpSlot.row (o : OpSlot) (i : Nat) : List Byte := (List.range 192).map (fun k => aget 0 (192 * i + k) o.data)

/-- The codes of a row. -/
def rowCodes (w : Nat) (bs : List Byte) : List Nat :=
  let n := bytesToNat bs
  (List.range (1536 / w)).map (fun k => n / 2 ^ (w * k) % 2 ^ w)

/-- R51, R53, R57, R58: the scale of element k of a row of format f: its block's, or the first block's of a triple; 127 for a
raw block. -/
def OpSlot.scale (o : OpSlot) (f i k : Nat) : BitVec 8 :=
  if f = 0 then 127 else tagScale (o.tag i (if codeSix f then 0 else codeWidth f * k / 512))

/-- R72, R73: a row's elements in a float context. -/
def OpSlot.nums (o : OpSlot) (t : FmtCtx) (f i : Nat) : List Num :=
  let cs := rowCodes (codeWidth f) (o.row i)
  ((List.range cs.length).zip cs).map (fun x => decodeElem t f (o.scale f i x.1) x.2)

/-- R69, R376: a row's elements in an integer context; none where one is a POISON-mode most-negative code. -/
def OpSlot.ints (o : OpSlot) (efr : BitVec 13) (f i : Nat) : Option (List Int) :=
  (rowCodes (codeWidth f) (o.row i)).mapM (fun x => decodeIntCode efr (codeWidth f) x)

/-- R77 to R79, R373, R397: the elements of the accumulator after a matrix operation, row by row with the index of their
first; none where a POISON-mode code keeps it from being performed. -/
def Core.mmaResult (c : Core) (o : MmaOp) : Option (List (Nat × List W32)) :=
  let a := c.slot o.sa
  let b := c.slot o.sb
  let fa := tagFmt (a.tag 0 0)
  let fb := tagFmt (b.tag 0 0)
  let t : FmtCtx := { efr := o.efr, l6q := o.l6q, table := c.codeTable }
  let old (i j : Nat) : W32 := if o.zero then 0 else c.accElem o.acc (64 * i + j)
  if codeInt fa && codeInt fb then
    match (List.range o.rows).mapM (a.ints o.efr fa), (List.range o.cols).mapM (b.ints o.efr fb) with
    | some as_, some bs =>
      some (((List.range o.rows).zip as_).map (fun x => (64 * x.1,
        ((List.range o.cols).zip bs).map (fun y => dotInt (efrSat o.efr) (old x.1 y.1) x.2 y.2))))
    | _, _ => none
  else
    let bs := (List.range o.cols).map (b.nums t fb)
    some ((List.range o.rows).map (fun i =>
      let ai := a.nums t fa i
      (64 * i, ((List.range o.cols).zip bs).map (fun y => dotFloat (old i y.1) ai y.2))))

/-- R453, R376: whether a used row of an operand carries an ECC-poisoned block. -/
def Core.mmaPoison (c : Core) (o : MmaOp) : Bool :=
  let hit (n rs : Nat) : Bool := (c.slot n).poison.any (fun e => e.2 && decide (e.1 < 3 * rs))
  hit o.sa o.rows || hit o.sb o.cols

/-- R376: an uncorrectable error met by the array: every element of the accumulator becomes the canonical NaN. -/
def Core.accNan (c : Core) (acc : Nat) : Core := c.accPut acc 0 (List.replicate 4096 qnan)

end Sys2Proof.Machine
end

