-- ==== Sys2Proof/Machine/KvStore.lean ====
section
/-! DEFINITION. Pool rings (R175, R176, R441), and the KV store's records in memory: sequences, paths, nodes, layer tables,
references and stages (R172 to R188, R202, R550). -/

namespace Sys2Proof.Machine

/-! Pool rings. -/

/-- A field of a record in memory at a physical address. -/
def State.memN (s : State) (pa n : Nat) : Nat := s.viewNat pa n
/-- An engine's write of a little-endian field. -/
def State.putMemN (s : State) (pa n v : Nat) : State := s.engineBytes pa (natToBytes n v)

/-- R175: the head of the allocation ring of the pool whose descriptor stands at a physical address. -/
def State.poolHead (s : State) (desc : Nat) : Option Nat :=
  let head := s.memN (desc + 0x10) 4
  if head = s.memN (desc + 0x14) 4 then none
  else some (s.memN (s.memN desc 8 + 8 * (head % 2 ^ s.memN (desc + 0x20) 1)) 8)

/-- R175: takes the head entry: AHEAD advances. -/
def State.poolTake (s : State) (desc : Nat) : State := s.putMemN (desc + 0x10) 4 (s.memN (desc + 0x10) 4 + 1)

/-- R176: the entries of an allocation ring that are free. -/
def State.poolAvail (s : State) (desc : Nat) : Nat := (s.memN (desc + 0x14) 4 + 2 ^ 32 - s.memN (desc + 0x10) 4) % 2 ^ 32

/-- R176, R262: the policy core is told that a pool's ring is empty or full. -/
def State.poolEvent (s : State) (n : Nat) : State :=
  let s := s.raiseFw 4
  { s with fe := { s.fe with poolInfo := BitVec.ofNat 8 n } }

/-- R175: whether the return ring has room. -/
def State.poolRoom (s : State) (desc : Nat) : Bool :=
  decide ((s.memN (desc + 0x1C) 4 + 2 ^ 32 - s.memN (desc + 0x18) 4) % 2 ^ 32 < 2 ^ s.memN (desc + 0x20) 1)

/-- R175: writes a return entry; RTAIL advances. -/
def State.poolPut (s : State) (desc addr count kind flags : Nat) : State :=
  let tail := s.memN (desc + 0x1C) 4
  let e := s.memN (desc + 8) 8 + 16 * (tail % 2 ^ s.memN (desc + 0x20) 1)
  let s := s.putMemN e 8 addr
  let s := s.putMemN (e + 8) 4 count
  let s := s.putMemN (e + 12) 2 kind
  let s := s.putMemN (e + 14) 2 flags
  s.putMemN (desc + 0x1C) 4 (tail + 1)

/-- R183: whether a KV operation reads blocks after its step. -/
def KvKind.reads : KvKind → Bool
  | .attq _ => true
  | .repairM => true
  | .repairI => true
  | _ => false

/-- R183: whether KV reads of a sequence hold a return back. -/
def State.readHeld (s : State) (r : PoolReturn) : Bool :=
  match r.readers with
  | none => false
  | some (rcd, before) => s.cores.any (fun c => c.2.ops.any (fun e => match e.2 with
      | .kv o => o.rcd == rcd && o.kind.reads && decide (e.1 < before)
      | _ => false))

/-- R175, R176, R183: a return, or its wait: for the KV reads of a sequence, then for room, which is reported when it begins. -/
def State.poolGive (s : State) (r : PoolReturn) (waited : Bool) : State :=
  let keep (r : PoolReturn) : State := { s with fe := { s.fe with returns := s.fe.returns ++ [r] } }
  if s.readHeld r then keep r
  else if s.poolRoom r.desc then s.poolPut r.desc r.addr r.count r.kind r.flags
  else if waited && r.readers.isNone then keep r
  else (keep { r with readers := none }).poolEvent r.pool

/-- R176, R183: makes the returns that need wait no longer. -/
def State.flushReturns (s : State) : State :=
  s.fe.returns.foldl (fun s r => s.poolGive r true) { s with fe := { s.fe with returns := [] } }

/-- A return that no KV read holds back. -/
def State.poolReturn (s : State) (desc n addr count kind flags : Nat) : State :=
  s.poolGive { desc := desc, pool := n, addr := addr, count := count, kind := kind, flags := flags, readers := none } false

/-- R441: the save-frame pool descriptor of a die. -/
def State.sfpd (s : State) (d : Nat) : Nat :=
  ((s.ctlW 0 (dieBlock d + 0x00080014)).toNat % 0x10000 * 2 ^ 32 + (s.ctlW 0 (dieBlock d + 0x00080010)).toNat) / 64 * 64

/-- R441: a save frame goes back to its pool. -/
def State.returnFrame (s : State) (d addr flags : Nat) : State := s.poolReturn (s.sfpd d) 9 addr 1 2 flags

/-! Sequences (R172, R173). -/

/-- A 64-bit register of control space by its byte offset. -/
def State.ctlD (s : State) (off : Nat) : Nat := (s.ctlW 0 (off + 4)).toNat * 2 ^ 32 + (s.ctlW 0 off).toNat

/-- R172: the sequence table and the pool table. -/
def State.kvstb (s : State) : Nat := s.ctlD 0x00F00100 / 0x10000 * 0x10000 % 2 ^ 48
def State.kvEnabled (s : State) : Bool := (s.ctlW 0 0x00F00100).getLsbD 0
def State.kvPool (s : State) (n : Nat) : Nat := s.ctlD 0x00F00108 / 64 * 64 % 2 ^ 48 + 64 * n
/-- R172: the record of a handle. -/
def State.kvRecord (s : State) (h : W32) : Nat := s.kvstb + 64 * (h.toNat % 2 ^ 20)

/-- R173: fields of a sequence record. -/
def State.qCommit (s : State) (q : Nat) : Nat := s.memN q 4
def State.qStcnt (s : State) (q : Nat) : Nat := s.memN (q + 4) 2
def State.qLayers (s : State) (q : Nat) : Nat := s.memN (q + 6) 1
def State.qFlags (s : State) (q : Nat) : Nat := s.memN (q + 7) 1
def State.qValid (s : State) (q : Nat) : Bool := s.qFlags q % 2 == 1
def State.qBusy (s : State) (q : Nat) : Bool := s.qFlags q / 2 % 2 == 1
def State.qAsid (s : State) (q : Nat) : Nat := s.memN (q + 8) 2
def State.qPool (s : State) (q : Nat) : Nat := s.memN (q + 0xA) 1
def State.qModel (s : State) (q : Nat) : Nat := s.memN (q + 0xB) 1
def State.qFront (s : State) (q : Nat) : Nat := s.memN (q + 0xC) 2
def State.qNpath (s : State) (q : Nat) : Nat := s.memN (q + 0xE) 2
def State.qPath (s : State) (q : Nat) : Nat := s.memN (q + 0x10) 8
def State.qStmask (s : State) (q : Nat) : Nat := s.memN (q + 0x18) 16
def State.qRlist (s : State) (q : Nat) : Nat := s.memN (q + 0x28) 8
def State.qRcnt (s : State) (q : Nat) : Nat := s.memN (q + 0x30) 4
def State.qRdone (s : State) (q : Nat) : Nat := s.memN (q + 0x34) 4
def State.qRot (s : State) (q : Nat) : Nat := s.memN (q + 0x38) 8

def State.setCommit (s : State) (q v : Nat) : State := s.putMemN q 4 v
def State.setFront (s : State) (q v : Nat) : State := s.putMemN (q + 0xC) 2 v
def State.setRcnt (s : State) (q v : Nat) : State := s.putMemN (q + 0x30) 4 v
def State.setRdone (s : State) (q v : Nat) : State := s.putMemN (q + 0x34) 4 v
/-- R195: REPBUSY set or cleared. -/
def State.setBusy (s : State) (q : Nat) (b : Bool) : State :=
  let f := s.qFlags q
  s.putMemN (q + 7) 1 (f - f / 2 % 2 * 2 + (if b then 2 else 0))

/-- R192: entry i of the repair list. -/
def State.repairPos (s : State) (q i : Nat) : Nat := s.memN (s.qRlist q + 4 * i) 4
def State.repairList (s : State) (q : Nat) : List Nat := (List.range (s.qRcnt q)).map (s.repairPos q)

/-- R175, R177: the geometry of a block pool. -/
structure KvGeom where
  heads : Nat
  dim : Nat
  efmt : Nat
  /-- Bytes of an element. -/
  es : Nat
  stride : Nat
  deriving DecidableEq, Repr

/-- R176: the geometry of a pool, or none for a malformed descriptor. -/
def State.kvGeom (s : State) (pool : Nat) : Option KvGeom :=
  if 7 < pool then none else
  let p := s.kvPool pool
  let h := s.memN (p + 0x21) 1
  let ld := s.memN (p + 0x22) 1
  let f := s.memN (p + 0x23) 1
  let st := s.memN (p + 0x24) 4
  let es := codeWidth f / 8
  if (f = 0x01 ∨ f = 0x02 ∨ f = 0x10) ∧ 1 ≤ h ∧ h ≤ 16 ∧ 5 ≤ ld ∧ ld ≤ 8 ∧ st = 64 + 64 * h * 2 ^ ld * es then
    some { heads := h, dim := 2 ^ ld, efmt := f, es := es, stride := st }
  else none

/-- R202: FADDR of the causes 0x40 to 0x43. -/
def kvFaddr (reason : Nat) (h : W32) (pos : Nat) : Word := BitVec.ofNat 64 (reason * 2 ^ 56 + h.toNat % 2 ^ 20 * 2 ^ 32 + pos % 2 ^ 32)
/-- R202: KV_UNMAPPED with a reason. -/
def kvUnmapped (reason : Nat) (h : W32) (pos : Nat) : Cause := (0x40#8, kvFaddr reason h pos)

/-- R173, R176, R184: the record and the geometry of the sequence of a handle for an issuer, or the cause. -/
def State.kvServe (s : State) (asid : BitVec 16) (h : W32) : Except Cause (Nat × KvGeom) :=
  let q := s.kvRecord h
  if 2 ^ 20 ≤ h.toNat ∨ !s.kvEnabled then .error (kvUnmapped 1 h 0)
  else if !s.qValid q ∨ !(s.qAsid q == asid.toNat || asid == 0xFFFF#16) then .error (kvUnmapped 1 h 0)
  else match s.kvGeom (s.qPool q) with
    | none => .error (kvUnmapped 0xA h 0)
    | some g => .ok (q, g)

/-! Paths (R174). -/

def State.pathCap (s : State) (q : Nat) : Nat := s.memN (s.qPath q) 4
def State.pathAt (s : State) (q i : Nat) : Nat := s.memN (s.qPath q + 8 + 8 * i) 8
def State.setPathAt (s : State) (q i n : Nat) : State := s.putMemN (s.qPath q + 8 + 8 * i) 8 n
def State.pathNodes (s : State) (q : Nat) : List Nat := (List.range (s.qNpath q)).map (s.pathAt q)
/-- The path becomes a list of nodes. -/
def State.setPath (s : State) (q : Nat) (ns : List Nat) : State :=
  let s : State := ((List.range ns.length).zip ns).foldl (fun s e => s.setPathAt q e.1 e.2) s
  s.putMemN (q + 0xE) 2 ns.length

/-! Nodes (R179 to R182). -/

def State.nStart (s : State) (n : Nat) : Nat := s.memN n 4
def State.nLen (s : State) (n : Nat) : Nat := s.memN (n + 4) 4
def State.nParent (s : State) (n : Nat) : Nat := s.memN (n + 8) 8
def State.nChild (s : State) (n : Nat) : Nat := s.memN (n + 0x10) 8
def State.nHash (s : State) (n : Nat) : Nat := s.memN (n + 0x18) 8
def State.nRef (s : State) (n : Nat) : Nat := s.memN (n + 0x20) 4
def State.nFlags (s : State) (n : Nat) : Nat := s.memN (n + 0x24) 2
def State.nChildren (s : State) (n : Nat) : Nat := s.memN (n + 0x26) 2
def State.nTable (s : State) (n : Nat) : Nat := s.memN (n + 0x28) 8
def State.nProv (s : State) (n : Nat) : List Byte := s.viewBytes (n + 0x30) 16
def State.nFlag (s : State) (n bit : Nat) : Bool := (s.nFlags n).testBit bit
def State.setStart (s : State) (n v : Nat) : State := s.putMemN n 4 v
def State.setLen (s : State) (n v : Nat) : State := s.putMemN (n + 4) 4 v
/-- R179: a flag of a node set or cleared. -/
def State.setFlag (s : State) (n bit : Nat) (b : Bool) : State :=
  let f := s.nFlags n
  s.putMemN (n + 0x24) 2 (f - (if f.testBit bit then 2 ^ bit else 0) + (if b then 2 ^ bit else 0))
/-- R179: REFCNT, with SHARED kept equal to REFCNT > 1. -/
def State.setRef (s : State) (n v : Nat) : State := (s.putMemN (n + 0x20) 4 v).setFlag n 0 (decide (1 < v))

/-- R181: the current version of a model slot. -/
def State.mverOf (s : State) (model : Nat) : W32 := aget 0 model s.resole.mver
/-- R181: whether a node is stale for a sequence. -/
def State.stale (s : State) (n q : Nat) : Bool :=
  s.memN (n + 0x3F) 1 != s.qModel q || s.memN (n + 0x38) 4 != (s.mverOf (s.qModel q)).toNat

/-- R182: a layer table. -/
def State.tRef (s : State) (t : Nat) : Nat := s.memN t 4
def State.setTRef (s : State) (t v : Nat) : State := s.putMemN t 4 v
def State.tBlocks (s : State) (t : Nat) : Nat := s.memN (t + 4) 4
def State.tSrc (s : State) (t : Nat) : Nat := s.memN (t + 8) 8
def State.tEntry (s : State) (t l : Nat) : Nat := s.memN (t + 0x10 + 8 * (l - 1)) 8
def State.setEntry (s : State) (t l v : Nat) : State := s.putMemN (t + 0x10 + 8 * (l - 1)) 8 v
def entryV (e : Nat) : Bool := e.testBit 0
def entryB (e : Nat) : Bool := e.testBit 1
def entryAddr (e : Nat) : Nat := e % 2 ^ 48 / 64 * 64

/-- R179, R182: what a node that the welt creates holds. -/
structure NewNode where
  start : Nat
  len : Nat
  parent : Nat
  hash : Nat
  flags : Nat
  prov : List Byte
  deriving DecidableEq, Repr

/-- R179, R550: a node record in a frame, held by one path. Its table is another's, whose LREF rises by one, or with 0 the
frame's own, with one reference and NBLK blocks per run. -/
def State.makeNode (s : State) (frame table nblk src : Nat) (n : NewNode) : State :=
  let own := table == 0
  let rec_ := natToBytes 4 n.start ++ natToBytes 4 n.len ++ natToBytes 8 n.parent ++ natToBytes 8 0 ++ natToBytes 8 n.hash ++
    natToBytes 4 1 ++ natToBytes 2 n.flags ++ natToBytes 2 0 ++ natToBytes 8 (if own then frame + 0x80 else table) ++ n.prov ++
    List.replicate 64 0
  let head := natToBytes 4 (if own then 1 else 0) ++ natToBytes 4 (if own then nblk else 0) ++ natToBytes 8 (if own then src else 0)
  let s := s.engineBytes frame (rec_ ++ head ++ List.replicate 1024 0)
  if own then (if src = 0 then s else s.setTRef src (s.tRef src + 1)) else s.setTRef table (s.tRef table + 1)

/-! References (R183). -/

/-- A return of the sequence's storage. -/
def State.kvReturn (s : State) (q pool addr count kind flags : Nat) : State :=
  s.poolGive { desc := s.kvPool pool, pool := pool, addr := addr, count := count, kind := kind, flags := flags,
               readers := some (q, s.nextOp) } false

/-- R183, R550: a node frame whose node and embedded table have no reference goes back, with its child table's frame. -/
def State.freeFrame (s : State) (q frame : Nat) : State :=
  if s.nRef frame ≠ 0 ∨ s.tRef (frame + 0x80) ≠ 0 then s else
  let child := s.nChild frame
  let s := s.kvReturn q 8 frame 1 1 (if s.nFlag frame 2 then 1 else 0)
  if child = 0 then s else s.kvReturn q 8 child 1 1 0

/-- R183: a layer table loses a reference; with the last one its own runs go back and its source loses one in turn. The fuel
bounds the chain of sources. -/
def State.dropTable (s : State) (q : Nat) (demoted : Bool) : Nat → Nat → State
  | 0, _ => s
  | fuel + 1, t =>
    let n := s.tRef t
    let s := s.setTRef t (n - 1)
    if n ≠ 1 then s else
    let runs := ((List.range (s.qLayers q)).map (fun i => s.tEntry t (i + 1))).filter (fun e => entryV e && !entryB e)
    let nblk := s.tBlocks t
    let s : State := runs.foldl (fun s e => s.kvReturn q (s.qPool q) (entryAddr e) nblk 0 (if demoted then 1 else 0)) s
    let src := s.tSrc t
    let s := s.freeFrame q (t - 0x80)
    if src = 0 then s else s.dropTable q demoted fuel src

/-- R183, R190: a path gives up a node. -/
def State.dropNode (s : State) (q n : Nat) : State :=
  let r := s.nRef n
  let s := s.setRef n (r - 1)
  if r ≠ 1 then s else
  let t := s.nTable n
  let s := s.dropTable q (s.nFlag n 2) 65536 t
  if t = n + 0x80 then s else s.freeFrame q n

/-! Resolution (R184). -/

/-- R184: the place of the path node that covers a position. -/
def State.nodeAt (s : State) (q : Nat) (h : W32) (p : Nat) : Except Cause Nat :=
  match ((s.pathNodes q).filter (fun n => decide (s.nStart n ≤ p))).getLast? with
  | none => .error (kvUnmapped 4 h p)
  | some n => if s.nStart n + s.nLen n ≤ p then .error (kvUnmapped 4 h p) else .ok n

/-- R184: walk_kv for a served sequence: the node, its layer entry's block for the position, and the offset in the node. -/
def State.walkKv (s : State) (q : Nat) (g : KvGeom) (h : W32) (p l : Nat) : Except Cause (Nat × Nat × Nat) :=
  if l < 1 ∨ s.qLayers q < l then .error (kvUnmapped 2 h l)
  else if s.qCommit q ≤ p then .error (kvUnmapped 3 h p)
  else match s.nodeAt q h p with
    | .error c => .error c
    | .ok n =>
      if s.stale n q then .error (0x41#8, kvFaddr 0 h (s.nStart n)) else
      let off := p - s.nStart n
      let e := s.tEntry (s.nTable n) l
      if !entryV e then .error (kvUnmapped 9 h p) else .ok (n, entryAddr e + off / 32 * g.stride, off)

/-! Stages (R186, R188). -/

/-- R188: the listed stage of a sequence. -/
def State.stageOf (s : State) (q : Nat) : Option Stage := s.clusters.findSome? (fun c => c.2.stages.find? (fun x => x.record == q))
def State.unlistStage (s : State) (q : Nat) : State :=
  { s with clusters := s.clusters.map (fun c => (c.1, { c.2 with stages := c.2.stages.filter (fun x => x.record != q) })) }

/-- R188: a stage is discarded: STCNT and STMASK become 0, and a pending node is freed. -/
def State.discardStage (s : State) (q : Nat) : State :=
  let st := s.stageOf q
  let s := (s.putMemN (q + 4) 2 0).putMemN (q + 0x18) 16 0
  let s := s.unlistStage q
  match st with
  | some x => if x.pending then s.dropNode q x.node else s
  | none => s

/-- R141, R188: the stages of an ASID are discarded. -/
def State.killStages (s : State) (asid : BitVec 16) : State :=
  let qs := s.clusters.flatMap (fun c => (c.2.stages.filter (fun x => x.asid == asid)).map (·.record))
  qs.foldl (fun s q => s.discardStage q) s

end Sys2Proof.Machine
end

