-- ==== Sys2Proof/Machine/Kill.lean ====
section
/-! DEFINITION. The end of operations in flight that are cancelled, and the revocation of an
ASID, which is the first step of a kill (R140, R141). -/

namespace Sys2Proof.Machine

/-- R225: the registers of a seat that wait for a producer that has ceased to exist become orphaned. -/
def orphanFill (id : Nat) : Fill → Fill
  | .pending t => if t = id then .orphaned else .pending t
  | f => f

def RegFile.orphan (id : Nat) (r : RegFile) : RegFile :=
  { s := r.s.map (fun e => (e.1, { e.2 with fill := orphanFill id e.2.fill })),
    p := r.p.map (fun e => (e.1, { e.2 with fill := orphanFill id e.2.fill })),
    v := r.v.map (fun e => (e.1, { e.2 with fill := orphanFill id e.2.fill })) }

def State.orphan (s : State) (core x id : Nat) : State :=
  (s.modSeat core x (fun t => { t with file := { t.file with regs := t.file.regs.orphan id } })).fillFrames id none

/-- An operation leaves a core's list of operations in flight. -/
def State.dropOp (s : State) (core id : Nat) : State :=
  s.modCore core (fun c => { c with ops := adel id c.ops, opLent := adel id c.opLent })

/-- R372: whether an operation in flight names an operand slot. -/
def Op.namesSlot (n : Nat) : Op → Bool
  | .mma o => o.sa == n || o.sb == n
  | .copy o => (match o.src with
      | .slot m _ => m == n
      | _ => false) || (match o.dst with
      | .slot m _ => m == n
      | _ => false)
  | _ => false

/-- R383, R385: the follow-on of a copy that ends early is cancelled: the bits go to its object and MXF falls by one. -/
def State.cancelFollow (s : State) (core id : Nat) (bits : W32) (cause : BitVec 8) : State :=
  (s.core core).ops.foldl (fun s e => match e.2 with
    | .mma o => if o.waits = some id then ((s.dropOp core e.1).mxfDone core o.bar bits cause).settleAcc core else s
    | _ => s) s

/-- R113, R383: a copy that ends before its last byte has landed: its unlanded bytes leave PEND, and the bit and the cause go
to its object. -/
def State.endCopy (s : State) (core id : Nat) (o : CopyOp) (total : Nat) (bits : W32) (cause : BitVec 8) : State :=
  let s := s.dropOp core id
  let s := match o.bar with
    | some b =>
      let s := s.setLeaf core b ((s.leaf core b).note bits cause)
      s.landBytes core b (if o.counts then total - o.landed else 0)
    | none => s
  s.cancelFollow core id bits cause

/-- R382, R384: the destination bytes of a copy. -/
def fselBits (f : BitVec 4) : Nat :=
  match f.toNat with
  | 0 => 32
  | 1 => 16
  | 2 => 8
  | 3 => 6
  | 4 => 8
  | 5 => 6
  | 6 => 4
  | 7 => 8
  | 8 => 6
  | _ => 32
def CopyOp.rowBytes (o : CopyOp) : Nat :=
  match o.convert with
  | some c => (o.cols * fselBits c.fsel + 7) / 8
  | none => o.cols
def CopyOp.total (o : CopyOp) : Nat := o.rows * o.rowBytes

/-- R421: a KV operation is cancelled: a REPAIR keeps its installs, gives up its locks and frames and clears REPBUSY. -/
def State.cancelKv (s : State) (core id : Nat) (o : KvOp) : State :=
  let s := (s.dropOp core id).orphan core o.seat id
  let s : State := o.got.foldl (fun s f => s.kvReturn o.rcd 8 f 1 1 0) s
  let s := if o.kind = .repairM ∨ o.kind = .repairI then
      (o.locks.foldl (fun (s : State) n => s.setFlag n 5 false) s).setBusy o.rcd false
    else s
  s.flushReturns

/-- R176: a seat gives up the node frames that a KV operation took while it waited. -/
def State.dropHeld (s : State) (core x : Nat) : State :=
  match (s.seatAt core x).kvHeld with
  | some o => (o.got.foldl (fun (s : State) f => s.poolReturn (s.kvPool 8) 8 f 1 1 0) s).modSeat core x (fun t => { t with kvHeld := none })
  | none => s

/-- R141: the fate of one operation in flight of a killed ASID. Matrix operations that have their operands run on; pending
loads are discarded; copies, stores of the matrix path and engine commands are cancelled. -/
def State.cancelOp (s : State) (core id : Nat) : Op → State
  | .load o => (s.dropOp core id).orphan core o.seat id
  | .vload o => (s.dropOp core id).orphan core o.seat id
  | .accRead o => (s.dropOp core id).orphan core o.seat id
  | .accWrite _ => s
  | .mma _ => s
  | .copy o => s.endCopy core id o o.total 0x80#32 0x59
  | .accst o =>
    let s := s.dropOp core id
    match o.bar with
    | some b => (s.setLeaf core b ((s.leaf core b).note 0x80#32 0x59)).landBytes core b (o.count)
    | none => s
  | .kv o => s.cancelKv core id o
  | .coll o => (s.dropOp core id).orphan core o.seat id
  | .resole o => (s.dropOp core id).orphan core o.seat id

/-- The ASID under which an operation in flight was issued. -/
def Op.asid : Op → BitVec 16
  | .load o => o.asid
  | .vload o => o.asid
  | .accRead o => o.asid
  | .accWrite o => o.asid
  | .mma o => o.asid
  | .copy o => o.asid
  | .accst o => o.asid
  | .kv o => o.asid
  | .coll o => o.asid
  | .resole o => o.asid

/-- The seat that issued an operation in flight. -/
def Op.seat : Op → Nat
  | .load o => o.seat
  | .vload o => o.seat
  | .accRead o => o.seat
  | .accWrite o => o.seat
  | .mma o => o.seat
  | .copy o => o.seat
  | .accst o => o.seat
  | .kv o => o.seat
  | .coll o => o.seat
  | .resole o => o.seat

/-- R105, R107: a seat's claimed slots pass to RELEASING. -/
def Core.releaseSlots (c : Core) (x : Nat) : Core :=
  { c with slots := c.slots.map (fun e => (e.1, if e.2.state = .claimed x then { e.2 with state := .releasing } else e.2)) }

/-- R103: the pages of a window remember the ASID that occupies them. -/
def Core.ownPages (c : Core) (w : W32) (asid : BitVec 16) : Core :=
  let base := (w.extractLsb' 8 8).toNat
  { c with spadOwner := (List.range (w.extractLsb' 0 8).toNat).foldl (fun m i => aput (base + i) asid m) c.spadOwner }

/-- R141, R456: what buffer-phase tracking keeps of a seat is discarded: its phase store queue, its saved accumulators and its copy
log. -/
def Core.dropPhase (c : Core) (x : Nat) : Core :=
  { c with held := c.held.filter (fun e => e.1 != x), accPhase := c.accPhase.filter (fun e => e.1 != x),
           accSaves := c.accSaves.filter (fun e => e.seat != x), copyLog := c.copyLog.filter (fun e => e.seat != x),
           reissue := c.reissue.filter (fun o => o.seat != x), arrivals := c.arrivals.filter (fun e => e.1 != x) }

/-- R328, R103: a seat becomes idle; the pages of its window remember its ASID. -/
def State.idleSeat (s : State) (core x : Nat) : State :=
  let s := s.dropHeld core x
  let t := s.seatAt core x
  let s := s.modCore core (fun c => ((c.releaseSlots x).dropPhase x).ownPages t.file.ctl.spwin t.file.ctl.asid)
  let s := s.setSeat core x Seat.reset
  match t.pair with
  | some (p, true) => s.setSeat p x Seat.reset
  | _ => s

/-- R466: whether a seat runs as the shadow of a pair. -/
def Seat.shadow (t : Seat) : Bool :=
  match t.pair with
  | some (_, false) => true
  | _ => false

/-- R141, R397: ends the continuation of a seat; a SEQ.MMA that it has not finished is counted as cancelled. -/
def State.killSeat (s : State) (core x : Nat) : State :=
  let s : State := match (s.seatAt core x).seq with
    | some q => if q.kind = 1 then s.mxfDone core ((nth 0 3 q.block).extractLsb' 16 4).toNat 0x80#32 0x59 else s
    | none => s
  let tag := (s.seatAt core x).cont.tag
  ((s.entryKilled tag).countOut tag).idleSeat core x

/-- Whether a seat holds a continuation. -/
def Seat.busy (t : Seat) : Bool := t.run != .idle

/-- R428: a kill of the owner aborts a transaction whose commit record has not been written; its journal is discarded. -/
def ResoleTx.killed (t : ResoleTx) : ResoleTx :=
  if t.state = 1 ∨ t.state = 2 ∨ t.state = 5 then { t with state := 4, reason := 9, pages := [], lines := [], committer := none } else t

/-- R141: the pool items that survive the revocation of an ASID. -/
def PoolItem.asid : PoolItem → BitVec 16
  | .record c => c.w1.extractLsb' 48 16
  | .frame f => f.asid

/-- R141, R447: ends what a pool holds of an ASID. -/
def State.killPool (s : State) (d : Nat) (asid : BitVec 16) : State :=
  let ended := (s.die d).pool.filter (fun e => e.item.asid == asid)
  let s := s.modDie d (fun x => { x with pool := x.pool.filter (fun e => e.item.asid != asid) })
  ended.foldl (fun s e => match e.item with
    | .record c => (s.entryKilled c.tag).countOut c.tag
    | .frame f => (f.conts.foldl (fun s c => (s.entryKilled c.tag).countOut c.tag) s).returnFrame d f.addr 0) s

/-- R141: ends what a wait table holds of an ASID. -/
def State.killWaits (s : State) (d : Nat) (asid : BitVec 16) : State :=
  let ended := (s.die d).waits.filter (fun e => e.2.cont.w1.extractLsb' 48 16 == asid)
  let s := s.modDie d (fun x => { x with waits := x.waits.filter (fun e => e.2.cont.w1.extractLsb' 48 16 != asid) })
  ended.foldl (fun s e => (s.entryKilled e.2.cont.tag).countOut e.2.cont.tag) s

/-- R449: a stop of a core is abandoned: the frame of a save goes back marked, and a request of PRECMD ends with OUTCOME 3. -/
def State.dropSave (s : State) (core : Nat) : State :=
  let d := dieOf core
  let stop := (s.core core).stopping
  let s := s.modCore core (fun c => { c with stopping := none })
  match stop with
  | some (.preempt frame fromCmd _) =>
    let s := (s.putMemN frame 1 2).returnFrame d frame 2
    if fromCmd then s.modDie d (fun x => { x with preBusy := false, preOutcome := 3, preDone := x.preDone + 1 }) else s
  | _ => s

/-- R449, R451: a save in progress of the ASID is abandoned. -/
def State.killSave (s : State) (core : Nat) (asid : BitVec 16) : State :=
  match (s.core core).stopping with
  | some (.preempt _ _ _) =>
    if (s.seatAt core 0).file.ctl.asid = asid ∨ (s.seatAt core 1).file.ctl.asid = asid then s.dropSave core else s
  | _ => s

/-- R515: a stream stops without a record; its SEND packets have nothing more to wait for. -/
def State.endStream (s : State) (k : Nat) : State :=
  let x := aget Stream.reset k s.streams
  let ids := x.sends.map (fun (e : Nat × Nat) => e.2)
  { s with streams := aput k { Stream.reset with counters := x.counters } s.streams
           fe := { s.fe with packets := s.fe.packets.map (fun e => (e.1, if ids.contains e.1 then { e.2 with done := true, fault := e.2.fault.or (some 0x59) } else e.2)) } }

/-- R141: the host port keeps back the writes of a task of the ASID that have still to leave. -/
def State.dropLater (s : State) (asid : BitVec 16) : State :=
  let gone := s.host.later.filter (fun e => e.2.2.asid == asid && (e.2.2.lent.isSome || e.2.2.pkt.isSome))
  let s : State := { s with host := { s.host with
    later := s.host.later.filter (fun e => !(e.2.2.asid == asid && (e.2.2.lent.isSome || e.2.2.pkt.isSome))) } }
  s.hostRelease (gone.map (·.1))

/-- R137, R139, R141: the translations that a test names leave every TLB, engine TLB and walker cache. -/
def State.dropXlat (s : State) (leaf : TlbEntry → Bool) (node : WalkEntry → Bool) : State :=
  { s with
    cores := s.cores.map (fun e => (e.1, { e.2 with tlb := e.2.tlb.filter (fun x => !leaf x) }))
    -- a bundle that has still to begin translates anew
    seats := s.seats.map (fun e => (e.1, if !e.2.firm && e.2.keep.any (·.any leaf) then { e.2 with keep := none } else e.2))
    engTlb := s.engTlb.map (fun e => (e.1, e.2.filter (fun x => !leaf x)))
    walkers := s.walkers.map (fun e => (e.1, e.2.filter (fun x => !node x))) }

/-- R484: the header of a handle in a die's journal. -/
def headerAt (d h : Nat) : Nat := 0x11000000000 + d * 0x10000000 + (h - 1) * 0x1000

/-- R484: what a header holds: the transaction's state and reason, its model slot, whether the commit record is written, the version it
gives, and the apply cursor. Where they stand in it is the model's choice (assumption log entry 75). -/
def ResoleTx.header (t : ResoleTx) (version cursor : Nat) : List Byte :=
  natToBytes 1 t.state ++ natToBytes 1 t.reason ++ natToBytes 1 t.slot ++ natToBytes 1 (if t.state = 3 then 1 else 0) ++
  natToBytes 4 version ++ natToBytes 4 cursor

/-- R480, R484: the header of a handle is written in every die's journal: into the copy that the select byte does not name, and the select
byte follows. -/
def State.putHeader (s : State) (h : Nat) : State :=
  match alook h s.resole.txs with
  | none => s
  | some t =>
    let cursor := ((aget [] h s.resole.applying).filter (fun l => l.applied || l.stuck)).length
    (List.range 4).foldl (fun (s : State) d =>
      let sel := (s.homeByte (headerAt d h + 0x80)).toNat % 2
      (s.putHomes (headerAt d h + 0x40 * (1 - sel)) (t.header (s.mverOf t.slot).toNat cursor)).putHome (headerAt d h + 0x80) (BitVec.ofNat 8 (1 - sel))) s

/-- R141: the revocation of an ASID at every point. -/
def State.revoke (s : State) (asid : BitVec 16) : State :=
  let cores := s.cores.map (·.1)
  let seats := s.seats.filter (fun e => e.2.busy && !e.2.shadow && e.2.file.ctl.asid == asid) |>.map (·.1)
  let s : State := cores.foldl (fun s n => s.killSave n asid) s
  let s : State := seats.foldl (fun s k => s.killSeat (k / 2) (k % 2)) s
  let s : State := cores.foldl (fun s n => (s.core n).ops.foldl (fun (s : State) e => if e.2.asid = asid then s.cancelOp n e.1 e.2 else s) s) s
  let dies := s.dies.map (·.1)
  let s : State := dies.foldl (fun s d => (s.killPool d asid).killWaits d asid) s
  let s : State := dies.foldl (fun s d => s.modDie d (fun x =>
    { x with bte := x.bte.map (fun e => (e.1, if e.2.asid = asid ∧ e.2.phys = false then { e.2 with cancelled := true } else e.2)) })) s
  let s := s.dropXlat (fun x => x.asid == asid && !pteG x.leaf) (fun x => x.asid == asid)
  let s : State := { s with cores := s.cores.map (fun e => (e.1, { e.2 with suspended := e.2.suspended.filter (fun x => x.2 != asid) }))
                            net := { s.net with inbox := s.net.inbox.filter (fun e => e.2.chunk.asid != asid) }
                            fe := { s.fe with revoked := asid :: s.fe.revoked.filter (· != asid) } }
  let s := s.killStages asid
  let s := s.dropLater asid
  let s : State := { s with resole := { s.resole with txs := s.resole.txs.map (fun e => (e.1, if e.2.asid = asid then e.2.killed else e.2)) } }
  let s : State := (s.resole.txs.filter (fun e => e.2.asid == asid)).foldl (fun (s : State) e => s.putHeader e.1) s
  let opens := s.streams.filter (fun e => e.2.isOpen && e.2.asid == asid) |>.map (·.1)
  opens.foldl (fun (s : State) k => s.endStream k |>.recordBit (0x400 + k) 30) s

/-- R140, R144: a kill starts, or joins the one in progress. -/
def State.startKill (s : State) (asid : BitVec 16) (pkt : Option Nat) : State :=
  if s.fe.kills.any (fun k => k.asid == asid) then
    { s with fe := { s.fe with kills := s.fe.kills.map (fun k =>
        if k.asid = asid then { k with pkts := k.pkts ++ pkt.toList } else k) } }
  else
    let s : State := { s with fe := { s.fe with kills := s.fe.kills ++ [{ asid := asid, pkts := pkt.toList }] } }
    s.revoke asid

/-- R430 mark F, R439: a fatal cause of a seat: the launching queue's timeline records it with KILLED, and the context's ASID
is killed. -/
def State.fatal (s : State) (core x : Nat) (cause : BitVec 8) : State :=
  let t := s.seatAt core x
  let s := s.entryFault t.cont.tag cause
  s.startKill t.file.ctl.asid none

end Sys2Proof.Machine
end

