-- ==== Sys2Proof/Machine/Debug.lean ====
section
/-! DEFINITION. The trace buffer with its triggers (R519 to R522) and the monitors (R523). -/

namespace Sys2Proof.Machine

/-- R519: a trace record of four words: TIME, KIND and SEAT, DATA. -/
def traceRecord (cycle seat kind : Nat) (data : Word) : List W32 :=
  [BitVec.ofNat 32 cycle, BitVec.ofNat 32 (cycle / 2 ^ 32 % 256 + (kind + 8 * seat) * 256), data.extractLsb' 0 32,
   data.extractLsb' 32 32]

/-- R521: whether a trigger matches a record. -/
def triggerHit (tr : Word) (kind : Nat) (data : Word) : Bool :=
  tr.getLsbD 63 && (tr.extractLsb' 59 3).toNat == kind &&
  (if kind = 1 then true
   else if kind = 5 then data.extractLsb' 0 8 == tr.extractLsb' 0 8
   else data.extractLsb' 6 49 == tr.extractLsb' 6 49)

/-- R521, R522: the triggers that match, the lowest first. -/
def Core.triggered (c : Core) (kind : Nat) (data : Word) : List Nat :=
  (List.range 4).filter (fun n => triggerHit (aget 0 n c.triggers) kind data)

/-- Writes a record at PTR. -/
def Core.putRecord (c : Core) (r : List W32) : Core :=
  { c with trace := aput c.tracePtr r c.trace, tracePtr := (c.tracePtr + 1) % 4096 }

/-- R519 to R522: an event of a seat. DEBUG_TRAP is raised where any of the triggers that match has TRAP = 1, and names the lowest that
matches. -/
def State.trace (s : State) (core x kind : Nat) (data : Word) : State :=
  let c := s.core core
  if !c.traceEn.getLsbD 0 || !c.traceEn.getLsbD (1 + kind) || c.frozen then s
  else if 2 ≤ c.traceNow then s.setCore core { c with traceDropped := c.traceDropped + 1 }
  else
    let c' := { c.putRecord (traceRecord s.cycle x kind data) with traceNow := c.traceNow + 1 }
    match c.triggered kind data with
    | [] => s.setCore core c'
    | n :: r =>
      let s : State := s.setCore core { c' with frozen := true }
      let t := s.seatAt core x
      if (n :: r).any (fun m => (aget 0 m c.triggers).getLsbD 62) && t.file.ctl.trapvec.extractLsb' 4 51 != 0 then
        s.setSeat core x { t with async := t.async ++ [(0x07#8, BitVec.ofNat 64 n)] }
      else s

/-- R519: at the end of a cycle the dropped events leave one KIND 6 record. -/
def State.traceFlush (s : State) (core : Nat) : State :=
  let c := s.core core
  if c.traceDropped = 0 then s.setCore core { c with traceNow := 0 }
  else
    let c := if c.frozen then c else c.putRecord (traceRecord s.cycle 0 6 (BitVec.ofNat 64 c.traceDropped))
    s.setCore core { c with traceNow := 0, traceDropped := 0 }

/-- R523: CLR. -/
def Monitor.clear (m : Monitor) : Monitor := { Monitor.reset with ctl := m.ctl }

end Sys2Proof.Machine
end

