-- ==== Sys2Proof/Machine/Ops.lean ====
section
/-! DEFINITION. The named operations over the seat in focus and its registers; taking an exception (R321, R322, R433 to R437)
and returning from one (R326, R438); the start of leaving a program (R208, R327, R328). -/

namespace Sys2Proof.Machine

/-! The seat in focus. -/

def State.fseat (s : State) : Seat := s.seatAt s.focus.core s.focus.seat
def State.setF (s : State) (t : Seat) : State := s.setSeat s.focus.core s.focus.seat t
def State.modF (s : State) (f : Seat → Seat) : State := s.setF (f s.fseat)
def State.fcore (s : State) : Core := s.core s.focus.core
def State.modFcore (s : State) (f : Core → Core) : State := s.modCore s.focus.core f

/-- R301: the files that the slots of a bundle read: as they stood before the bundle. -/
def State.src (s : State) : SeatFile := s.fseat.latch.getD s.fseat.file

/-- R325, R326: the trap mask that the slots of a bundle read: as it stood before the bundle. -/
def State.srcTm (s : State) : Bool := s.fseat.tmWas.getD s.fseat.tm

/-- R118: the ASID of the seat in focus. -/
def State.fasid (s : State) : BitVec 16 := s.src.ctl.asid

/-- R213: whether the seat's continuation is a persistent kernel. -/
def Seat.pers (t : Seat) : Bool := t.cont.w0.getLsbD 1

/-! Control-register fields. -/

def stageAct (st : Word) : Bool := st.getLsbD 63
def stageSm1 (st : Word) : Nat := (st.extractLsb' 60 3).toNat
def stageIter (st : Word) : Nat := (st.extractLsb' 24 25).toNat
def stageCnt (st : Word) : Nat := (st.extractLsb' 0 24).toNat
/-- R285: STAGE from its fields. -/
def mkStage (act : Bool) (sm1 iter cnt : Nat) : Word :=
  (if act then 1#1 else 0#1) ++ (BitVec.ofNat 3 sm1 ++ (0#11 ++ (BitVec.ofNat 25 iter ++ BitVec.ofNat 24 cnt)))
def loopLen (lb : Word) : Nat := (lb.extractLsb' 51 13).toNat
def loopStart (lb : Word) : BitVec 51 := lb.extractLsb' 0 51
def rotRb (r : W32) : Nat := (r.extractLsb' 8 4).toNat
def rotSize (r : W32) : Nat := (r.extractLsb' 0 5).toNat
def mkRot (rb size : Nat) : W32 := BitVec.ofNat 32 (rb % 16 * 256 + size)

/-- R286: a stage predicate p8 + j. -/
def stagePred (st : Word) (j : Nat) : Bool :=
  stageAct st && decide (j ≤ stageIter st) && decide (stageIter st - j < stageCnt st)

/-- R283: the physical register a vector register name denotes. -/
def vphys (rot : W32) (k : Nat) : Nat :=
  let size := rotSize rot
  if 16 ≤ k ∧ k < 16 + size then 16 + (k - 16 + rotRb rot) % size else k

/-- The virtual address of a bundle position. -/
def pcVa (pc : BitVec 51) : Nat := 16 * pc.toNat
def pcWord (pc : BitVec 51) : Word := BitVec.ofNat 64 (16 * pc.toNat)

/-! Reading registers. -/

/-- R281: a scalar register as a source; s0 reads 0. -/
def State.rS (s : State) (i : BitVec 6) : Word := if i = 0 then 0 else (aget sreg0 i.toNat s.src.regs.s).val

/-- R281, R286: a predicate as a source; p0 reads true, p8 to p15 are the stage predicates. -/
def State.rP (s : State) (i : BitVec 4) : Bool :=
  if i = 0 then true
  else if 8 ≤ i.toNat then stagePred s.src.ctl.stage (i.toNat - 8)
  else (aget preg0 i.toNat s.src.regs.p).val

/-- R283: a vector register as a source. -/
def State.rV (s : State) (i : BitVec 5) : VReg := aget vreg0 (vphys s.src.ctl.rot i.toNat) s.src.regs.v

/-! Writing registers. -/

/-- R303: the fill of a result of a fixed distance, for the bundle that issues now. -/
def State.after (s : State) (dist : Nat) : Fill := if dist ≤ 1 then .full else .soon (s.fseat.issued + dist)

/-- R276: writes a scalar register; s0 discards it. -/
def State.wS (s : State) (d : BitVec 6) (v : Word) (f : Fill) : State :=
  if d = 0 then s else
  s.modF (fun t => { t with file := { t.file with regs := { t.file.regs with s := aput d.toNat { val := v, fill := f } t.file.regs.s } } })

/-- R222: marks a scalar register empty with a producer; its value stays. -/
def State.pendS (s : State) (d : BitVec 6) (id : Nat) : State :=
  s.wS d (aget sreg0 d.toNat s.fseat.file.regs.s).val (.pending id)

/-- R276: writes a predicate; p0 discards it. -/
def State.wP (s : State) (d : BitVec 3) (v : Bool) : State :=
  if d = 0 then s else
  s.modF (fun t => { t with file := { t.file with regs := { t.file.regs with p := aput d.toNat { val := v, fill := .full } t.file.regs.p } } })

/-- Writes a vector register under its name. -/
def State.wV (s : State) (d : BitVec 5) (v : VReg) : State :=
  let k := vphys s.src.ctl.rot d.toNat
  s.modF (fun t => { t with file := { t.file with regs := { t.file.regs with v := aput k v t.file.regs.v } } })

/-- R222: marks a vector register empty with a producer; its contents stay. -/
def State.pendV (s : State) (d : BitVec 5) (id : Nat) : State :=
  let k := vphys s.src.ctl.rot d.toNat
  s.wV d { aget vreg0 k s.fseat.file.regs.v with fill := .pending id }

/-- R288: a V-slot operation or a load from scratchpad has issued, with its destination register and its distance. -/
def State.noteV (s : State) (r : BitVec 8) (dist : Nat) : State :=
  s.modF (fun t => { t with vBusy := t.vBusy.filter (fun e => decide (t.issued < e.2)) ++ [(r, t.issued + dist)] })

/-- The name of a physical vector register. -/
def vname (rot : W32) (k : Nat) : Nat := ((List.range 32).find? (fun n => vphys rot n == k)).getD k

/-- R225: the number of a physical vector register. -/
def vnum (k : Nat) : BitVec 8 := 2#2 ++ BitVec.ofNat 6 k

/-- Changes a control register of the seat in focus. -/
def State.modCtl (s : State) (f : CtlRegs → CtlRegs) : State :=
  s.modF (fun t => { t with file := { t.file with ctl := f t.file.ctl } })

/-- R462, R466: the cores that have run the continuation of a seat of a core since its placement, this one and its partner's included. -/
def Seat.runsOn (t : Seat) (core : Nat) : List Nat :=
  let cores := match t.pair with
    | some (q, _) => [core, q]
    | none => [core]
  cores.foldl (fun l c => if l.contains c then l else l ++ [c]) t.ranOn

/-- An operation in flight begins at a core: its identity, and the state that holds it. -/
def State.newOp (s : State) (core : Nat) (o : Op) : State :=
  let lent := tagEntry (s.seatAt core o.seat).cont.tag
  let s : State := s.modCore core (fun c => { c with ops := aput s.nextOp o c.ops, opLent := aput s.nextOp lent c.opLent })
  { s with nextOp := s.nextOp + 1 }

/-! Fill. -/

/-- R223: whether a fill is empty with its producer in existence, for a seat that has issued n bundles. -/
def Fill.empty (n : Nat) : Fill → Bool
  | .full => false
  | .soon b => decide (n < b)
  | .pending _ => true
  | .orphaned => false
  | .faulted _ _ => false
  | .lateFault b _ _ => decide (n < b)

/-- A result of a fixed distance has arrived. -/
def Fill.settle : Fill → Fill
  | .soon _ => .full
  | .lateFault _ c f => .faulted c f
  | f => f

def RegFile.settle (r : RegFile) : RegFile :=
  { s := r.s.map (fun e => (e.1, { e.2 with fill := e.2.fill.settle })),
    p := r.p.map (fun e => (e.1, { e.2 with fill := e.2.fill.settle })),
    v := r.v.map (fun e => (e.1, { e.2 with fill := e.2.fill.settle })) }

/-- R62: the flags of the results that are full by the seat's bundle n have arrived. -/
def Seat.landFlags (t : Seat) (n : Nat) : Seat :=
  let vf := (t.vfPend.filter (fun e => decide (e.1 ≤ n))).foldl (fun v e => v ||| e.2) t.file.ctl.vflags
  { t with vfPend := t.vfPend.filter (fun e => decide (n < e.1)), file := { t.file with ctl := { t.file.ctl with vflags := vf } } }

/-- The bundle for which a result of a fixed distance is due. -/
def Fill.due : Fill → Nat
  | .soon b => b
  | .lateFault b _ _ => b
  | _ => 0

/-- R212, R328: every result of a fixed distance of a seat that waits for all of them has arrived. -/
def Seat.settle (t : Seat) : Seat :=
  let t := t.landFlags (t.vfPend.foldl (fun m e => Nat.max m e.1) 0)
  { t with file := { t.file with regs := t.file.regs.settle }, divFree := 0 }

/-- R223, R224: the register for which a seat stalls, in the layout of R225: a result of a fixed distance arrives there while the
seat waits for it. The distances of the others go on counting in the seat's own bundles (R7). -/
def Seat.settleReg (t : Seat) (r : BitVec 8) : Seat :=
  let k := (r.extractLsb' 0 6).toNat
  let regs := t.file.regs
  let regs : RegFile :=
    if r.extractLsb' 6 2 = 0 then
      { regs with s := aput k { aget sreg0 k regs.s with fill := (aget sreg0 k regs.s).fill.settle } regs.s }
    else if r.extractLsb' 6 2 = 1 then
      { regs with p := aput k { aget preg0 k regs.p with fill := (aget preg0 k regs.p).fill.settle } regs.p }
    else
      let k := vphys t.file.ctl.rot k
      { regs with v := aput k { aget vreg0 k regs.v with fill := (aget vreg0 k regs.v).fill.settle } regs.v }
  let due := if r.extractLsb' 6 2 = 2 then (aget vreg0 (vphys t.file.ctl.rot k) t.file.regs.v).fill.due else 0
  { t with file := { t.file with regs := regs } }.landFlags due

/-- R225: whether a seat stalls for a scalar register, or for a physical vector register. -/
def Seat.awaitsS (t : Seat) (i : Nat) : Bool := (t.stall.bind (·.reg)) == some (BitVec.ofNat 8 i)
def Seat.awaitsV (t : Seat) (k : Nat) : Bool :=
  match t.stall.bind (·.reg) with
  | some r => r.extractLsb' 6 2 == 2 && vphys t.file.ctl.rot (r.extractLsb' 0 6).toNat == k
  | none => false

/-- R235: whether a stop of the core keeps its seats from issuing. -/
def halted (c : Core) : Bool :=
  match c.stopping with
  | some (.preempt _ _ _) => true
  | some (.fallback _) => true
  | _ => false

/-- R315, R363, R404: whether a result that is full after no fewer than some bundles may arrive: they have issued, or the seat stalls for
the register, or for all of them before it leaves or is saved, or for s56 to s63 before a trap entry (R435). -/
def Seat.mayArrive (t : Seat) (least : Nat) (awaited halt high : Bool) : Bool :=
  decide (least ≤ t.issued) || awaited || halt || (match t.run with
    | .running => false
    | .entering _ => high
    | _ => true)

/-- R435 item 2: the results of a fixed distance of s56 to s63 have arrived before a trap entry. -/
def Seat.settleHigh (t : Seat) : Seat :=
  { t with file := { t.file with regs := { t.file.regs with
      s := t.file.regs.s.map (fun e => (e.1, if 56 ≤ e.1 then { e.2 with fill := e.2.fill.settle } else e.2)) } } }

/-- R212, R328: whether every destination register of the seat's issued instructions is full (or orphaned, or faulted). -/
def RegFile.quiet (r : RegFile) : Bool :=
  let ok : Fill → Bool := fun f => match f with
    | .pending _ => false
    | _ => true
  r.s.all (fun e => ok e.2.fill) && r.p.all (fun e => ok e.2.fill) && r.v.all (fun e => ok e.2.fill)

/-- R71: pending EFR writes take effect. -/
def Seat.flushEfr (t : Seat) : Seat :=
  match t.efrPend.getLast? with
  | some e => { t with efrPend := [], file := { t.file with ctl := { t.file.ctl with efr := e.2 } } }
  | none => t

/-! The snapshot. -/

/-- R437: the tag of a producer in flight, 0 to 62; the spec gives no rule for which. -/
def producerTag (id : Nat) : Nat := Nat.min (Config.freeTag id).toNat 62

/-- R437: a state byte. -/
def Fill.stateByte (n : Nat) : Fill → Byte
  | .full => 63
  | .soon b => if n < b then BitVec.ofNat 8 (0x80 + producerTag b) else 63
  | .pending t => BitVec.ofNat 8 (0x80 + producerTag t)
  | .orphaned => 0xBF
  | .faulted _ _ => 0x7F
  | .lateFault b _ _ => if n < b then BitVec.ofNat 8 (0x80 + producerTag b) else 0x7F

/-- R437: the sequencer's fields, 0xD0 to 0xFF. -/
def seqBytes : Option Sequencer → List Byte
  | none => List.replicate 48 0
  | some q =>
    natToBytes 8 q.a.toNat ++ natToBytes 8 q.b.toNat ++ natToBytes 4 q.c.toNat ++ natToBytes 4 q.next ++
    (List.range 4).flatMap (fun i => natToBytes 4 (nth 0 i q.block).toNat) ++
    [BitVec.ofNat 8 q.kind, BitVec.ofNat 8 q.l6q.toNat] ++ natToBytes 2 q.efr.toNat ++ natToBytes 4 0

/-- R437: the state bytes of s0 to s63, of v0 to v31 and of p0 to p7. -/
def Seat.sBytes (t : Seat) : List Byte :=
  (List.range 64).map (fun i => (aget sreg0 i t.file.regs.s).fill.stateByte t.issued)
def Seat.vBytes (t : Seat) : List Byte :=
  (List.range 32).map (fun i => (aget vreg0 i t.file.regs.v).fill.stateByte t.issued)
def Seat.pBytes (t : Seat) : List Byte :=
  (List.range 8).map (fun i => (aget preg0 i t.file.regs.p).fill.stateByte t.issued)

/-- R290: the value of CAUSE. -/
def mkCause (code : BitVec 8) (slot : Nat) (pblk : Bool) : W32 :=
  BitVec.ofNat 32 (slot * 1024 + (if pblk then 512 else 0) + code.toNat)

/-- R437: the 256 bytes of a snapshot of a seat for a cause. -/
def snapshotBytes (t : Seat) (e : Entry) : List Byte :=
  natToBytes 8 (pcVa e.epc) ++ natToBytes 8 e.faddr.toNat ++ natToBytes 4 (mkCause e.cause e.slot e.pblk).toNat ++
  natToBytes 1 (rotRb t.file.ctl.rot) ++ natToBytes 3 0 ++ natToBytes 8 t.file.ctl.stage.toNat ++
  natToBytes 8 t.file.ctl.loopb.toNat ++
  (List.range 8).flatMap (fun i => natToBytes 8 (aget sreg0 (56 + i) t.file.regs.s).val.toNat) ++
  t.sBytes ++ t.vBytes ++ t.pBytes ++ seqBytes t.seq

/-! Taking an exception. -/

/-- R235, R399: whether a trap entry or a pre-emption finds the sequencer stopped: before a matrix step of SEQ.MMA, a step of SEQ.CPY or
a step that has faulted. -/
def Seat.seqStopped (t : Seat) : Bool :=
  match t.seq with
  | some q => q.kind != 1 || q.next % 3 == 2 || q.stuck
  | none => true

/-- R399, R435 item 2: whether the sequencer has stopped and no producer of s56 to s63 remains in flight. -/
def Seat.trapReady (t : Seat) : Bool :=
  t.seqStopped && (List.range 8).all (fun i => match (aget sreg0 (56 + i) t.file.regs.s).fill with
    | .pending _ => false
    | _ => true)

/-- R322, R434: whether a cause raised now is a double fault. -/
def Seat.trapBarred (t : Seat) : Bool := t.tm || t.file.ctl.trapvec.extractLsb' 4 51 == 0

/-- R435: the entry itself, once the seat is ready for it: the snapshot into the live buffer, CAUSE, FADDR and EPC written,
TM set, and the next bundle at TRAPVEC. -/
def Seat.enterTrap (t : Seat) (e : Entry) : Seat :=
  let t := (t.flushEfr).settleHigh
  { t with
    run := .running
    live := some (snapshotBytes t e)
    snapDone := false
    tm := true
    tmWas := none
    seq := none
    stall := none
    deferred := none
    latch := none
    hostWait := none
    hostData := []
    kvHeld := none
    kvDone := none
    keep := none
    firm := false
    taken := false
    pc := t.file.ctl.trapvec.extractLsb' 4 51
    npc := t.file.ctl.trapvec.extractLsb' 4 51
    snap := t.snap.map (fun p => { p with trapped := true })
    file := { t.file with ctl := { t.file.ctl with cause := mkCause e.cause e.slot e.pblk, faddr := e.faddr, epc := pcWord e.epc } } }

/-- R433: a HALT, SUSPEND or YIELD has issued with its bundle, and takes place after the handler of a cause that comes before it; a wait has
not issued, and its bundle issues again. -/
def Seat.deferLeave (t : Seat) : Seat :=
  match t.run with
  | .leaving (.wait _ _) => t
  | .leaving l => { t with leave := some (l, t.pc) }
  | _ => t

/-- R321, R322, R435, R439: a seat takes a cause. With TM set or no handler it is a double fault, which kills the context;
while a producer of s56 to s63 is in flight the seat waits; else it enters its handler. -/
def State.takeCause (s : State) (core x : Nat) (e : Entry) : State :=
  let s := s.dropHeld core x
  let t := (s.seatAt core x).deferLeave
  if t.trapBarred then s.fatal core x 0x50
  else if t.trapReady then (s.setSeat core x (t.enterTrap e)).trace core x 5 (((mkCause e.cause e.slot e.pblk)).zeroExtend 64)
  else s.setSeat core x { t with run := .entering e, latch := none, tmWas := none }

/-! Returning from an exception. -/

/-- R438: the check of a snapshot against the ROT in effect. A state byte of s56 to s63 that is not zero names tag 63. -/
def snapOk (rot : W32) (b : List Byte) : Bool :=
  let at_ := fun i => nth 0 i b
  let st : Word := BitVec.ofNat 64 (bytesToNat ((b.drop 0x18).take 8))
  let lb : Word := BitVec.ofNat 64 (bytesToNat ((b.drop 0x20).take 8))
  decide ((at_ 0x14).toNat < 16) && at_ 0x15 == 0 && at_ 0x16 == 0 && at_ 0x17 == 0 &&
  decide ((at_ 0xF8).toNat ≤ 2) && decide ((at_ 0xF9).toNat < 4) && decide ((at_ 0xFB).toNat < 32) &&
  at_ 0xFC == 0 && at_ 0xFD == 0 && at_ 0xFE == 0 && at_ 0xFF == 0 &&
  (List.range 8).all (fun i => let y := at_ (0x68 + 56 + i); y == 0 || y.extractLsb' 0 6 == 63#6) &&
  (rotSize rot == 0 || decide ((at_ 0x14).toNat < rotSize rot)) &&
  !(stageAct st && loopLen lb == 0)

/-- R437: the sequencer that a snapshot holds. -/
def seqOf (b : List Byte) : Option Sequencer :=
  let n := fun off k => bytesToNat ((b.drop off).take k)
  let kind := n 0x28 1
  if kind = 0 then none else
  some { kind := kind, a := BitVec.ofNat 64 (n 0 8), b := BitVec.ofNat 64 (n 8 8), c := BitVec.ofNat 32 (n 0x10 4),
         next := n 0x14 4, block := [0, 1, 2, 3].map (fun i => BitVec.ofNat 32 (n (0x18 + 4 * i) 4)),
         l6q := BitVec.ofNat 2 (n 0x29 1), efr := BitVec.ofNat 13 (n 0x2A 2), stuck := false }

/-- R326, R438: restores s56 to s63 with their state bytes, STAGE, LOOPB, ROT.RB and the sequencer from a snapshot. -/
def Seat.restore (t : Seat) (b : List Byte) : Seat :=
  let n := fun off k => bytesToNat ((b.drop off).take k)
  let put := fun (m : Assoc SReg) (i : Nat) =>
    let y := nth 0 (0x68 + 56 + i) b
    aput (56 + i) { val := BitVec.ofNat 64 (n (0x28 + 8 * i) 8), fill := if y.getLsbD 7 then .orphaned else .full } m
  { t with
    seq := seqOf (b.drop 0xD0)
    file := { t.file with
      regs := { t.file.regs with s := (List.range 8).foldl put t.file.regs.s }
      ctl := { t.file.ctl with
        stage :=
          let w : Word := BitVec.ofNat 64 (n 0x18 8)
          mkStage (stageAct w) (stageSm1 w) (stageIter w) (stageCnt w)
        loopb := BitVec.ofNat 64 (n 0x20 8)
        rot := mkRot (n 0x14 1) (rotSize t.file.ctl.rot) } } }

/-- R326, R433: the return to a bundle address: TM clears and the live buffer becomes empty; a seat that was about to leave its program
there leaves it. -/
def Seat.leaveTrap (t : Seat) (tgt : BitVec 51) : Seat :=
  let t := { t with tm := false, live := none, snapDone := false, npc := tgt, taken := true }
  match t.leave with
  | some (l, pc) => if pc = tgt then { t with run := .leaving l, leave := none } else t
  | none => t

/-! Leaving a program. -/

/-- R208, R212, R327, R328: the seat stops issuing after this bundle, whose other slots take effect, and waits for its registers. -/
def State.beginLeave (s : State) (core x : Nat) (l : Leave) : State :=
  s.modSeat core x (fun t => { t with run := .leaving l, stall := none })

end Sys2Proof.Machine
end

