-- ==== Sys2Proof/Machine/Operands.lean ====
section
/-! DEFINITION. The operand forms: sources with their full/empty bits and trap bits, guards, destinations, parameter blocks
with their substitution markers, and the one wrapper through which every slot instruction runs (R222 to R225, R266 to R280,
R433). -/

namespace Sys2Proof.Machine

/-- Why a slot instruction has no effect: it raises a cause, its seat does not issue, or its seat suspends. -/
inductive Stop where
  | raise (cls : CauseClass) (cause : BitVec 8) (faddr : Word) (pblk : Bool)
  | stall (w : Stall)
  | suspend (key : WaitKey) (timeout : Nat) (faddr : Word)
  /-- The seat does not issue, and has started something it waits for (a host request, a KV operation, a drain); `last` where that
changes memory (R127: it starts only once the rest of the bundle can issue). -/
  | hold (s : State) (w : Stall) (last : Bool)
  /-- A cause of execution that also changes the state it is taken from (R495). -/
  | raiseIn (s : State) (cause : BitVec 8) (faddr : Word)
  deriving DecidableEq, Repr

/-- What a slot instruction does: a state, or why it has no effect. -/
abbrev Run := Except Stop State

/-- A cause of execution at issue (R433). -/
def raiseX {α : Type} (cause : BitVec 8) (faddr : Word) : Except Stop α := .error (.raise .exec cause faddr false)
/-- A stall with no register to wait for. -/
def stallX {α : Type} : Except Stop α := .error (.stall { reg := none, waitv := none })
/-- R111: a stall for an entry of the scoreboard. -/
def stallScore {α : Type} : Except Stop α := .error (.stall { reg := none, waitv := none, score := true })
def noReg : Stall := { reg := none, waitv := none }
/-- A stall that keeps what the instruction has started. -/
def holdX {α : Type} (s : State) : Except Stop α := .error (.hold s noReg false)
/-- A translation fault as a cause of execution. -/
def liftC {α : Type} (r : Except Cause α) : Except Stop α :=
  match r with
  | .ok a => .ok a
  | .error c => raiseX c.1 c.2

/-- A source register of a slot instruction (R268). -/
inductive Src where
  | s (i : BitVec 6)
  | p (i : BitVec 4)
  | v (i : BitVec 5)
  deriving DecidableEq, Repr

/-- R225: the number of a register. -/
def Src.num : Src → BitVec 8
  | .s i => 0#2 ++ i
  | .p i => 1#2 ++ (0#2 ++ i)
  | .v i => 2#2 ++ (0#1 ++ i)

/-- The fill of a source; s0, p0 and p8 to p15 are always full. -/
def State.srcFill (s : State) : Src → Fill
  | .s i => if i = 0 then .full else (aget sreg0 i.toNat s.src.regs.s).fill
  | .p i => if i = 0 ∨ 8 ≤ i.toNat then .full else (aget preg0 i.toNat s.src.regs.p).fill
  | .v i => (s.rV i).fill

/-- R223: whether a source is empty with its producer in existence. -/
def State.srcEmpty (s : State) (r : Src) : Bool := (s.srcFill r).empty s.fseat.issued

/-- The register of R225 for a stall. -/
def stallReg (r : Src) : Stop := .stall { reg := some r.num, waitv := none }

/-- R223: the trap bit of the source of an index (0 a, 1 b, 2 c). -/
def trapBit (traps : BitVec 3) (i : Nat) : Bool := traps.getLsbD (2 - i) && decide (i < 3)

/-- R223: a stall for the first empty source that does not trap. -/
def State.stallSrcs (s : State) : Nat → List Src → Except Stop Unit
  | _, [] => .ok ()
  | i, r :: rs => if s.srcEmpty r && !trapBit s.focus.traps i then .error (stallReg r) else s.stallSrcs (i + 1) rs

/-- R268: a stall for the first empty source of those that never trap (guards, selectors, marker registers). -/
def State.stallAlways (s : State) : List Src → Except Stop Unit
  | [] => .ok ()
  | r :: rs => if s.srcEmpty r then .error (stallReg r) else s.stallAlways rs

/-- R224: a stall for a destination that is still empty. -/
def State.destEmpty (s : State) : RegName → Bool
  | .s i => if i = 0 then false else (aget sreg0 i.toNat s.src.regs.s).fill.empty s.fseat.issued
  | .p i => if i = 0 then false else (aget preg0 i.toNat s.src.regs.p).fill.empty s.fseat.issued
  | .v i => (s.rV i).fill.empty s.fseat.issued

/-- R225: the number of a destination register. -/
def regNum : RegName → BitVec 8
  | .s i => 0#2 ++ i
  | .p i => 1#2 ++ (0#3 ++ i)
  | .v i => 2#2 ++ (0#1 ++ i)

def State.stallDests (s : State) : List RegName → Except Stop Unit
  | [] => .ok ()
  | r :: rs => if s.destEmpty r then .error (.stall { reg := some (regNum r), waitv := none }) else s.stallDests rs

/-- R223, R225, R362: the register-read causes, in the order of the sources: EMPTY_READ, ORPHANED_WAIT, or a faulted
register's recorded cause. -/
def State.readCauses (s : State) : List Src → Except Stop Unit
  | [] => .ok ()
  | r :: rs =>
    if s.srcEmpty r then .error (.raise .regs 0x10 (r.num.zeroExtend 64) false) else
    match s.srcFill r with
    | .orphaned => .error (.raise .regs 0x11 (r.num.zeroExtend 64) false)
    | .faulted c f => .error (.raise .regs c f false)
    | .lateFault _ c f => .error (.raise .regs c f false)
    | _ => s.readCauses rs

/-! Parameter blocks. -/

/-- R279: a substitution marker, and the register it names. -/
def isMarker (w : W32) : Bool := w.extractLsb' 26 6 == 0x3E#6
def markerReg (w : W32) : BitVec 6 := w.extractLsb' 0 6
def markerSrcs (ws : List W32) : List Src := (ws.filter isMarker).map (fun w => .s (markerReg w))

/-- R280: PARAM_BLOCK at the parameter position. -/
def State.paramFault {α : Type} (s : State) : Except Stop α :=
  .error (.raise .params 0x03 (BitVec.ofNat 64 s.focus.blockAddr) true)

/-- R279: a word of the block after substitution. -/
def State.subst (s : State) (w : W32) : Except Stop W32 :=
  if isMarker w then
    if w.extractLsb' 6 20 = 0 then .ok ((s.rS (markerReg w)).extractLsb' 0 32) else s.paramFault
  else .ok w

/-- R278: the fields of a parameter block. -/
structure Params where
  rows : Nat
  cols : Nat
  stride : Nat
  aux : W32
  scale : BitVec 8
  fsel : BitVec 4
  bar : Nat
  nobar : Bool
  flg : BitVec 8
  words : List W32
  deriving DecidableEq, Repr

/-- R278: the fields of four words. -/
def mkParams (w0 w1 w2 w3 : W32) : Params :=
  { rows := (w0.extractLsb' 16 16).toNat, cols := (w0.extractLsb' 0 16).toNat, stride := w1.toNat, aux := w2,
    scale := w3.extractLsb' 24 8, fsel := w3.extractLsb' 20 4, bar := (w3.extractLsb' 16 4).toNat,
    nobar := w3.getLsbD 15, flg := w3.extractLsb' 0 8, words := [w0, w1, w2, w3] }

/-- R279, R280: the parameter block of the instruction in focus, after substitution and the checks that do not depend on the
instruction. A marker that names an orphaned register substitutes the value that the register still holds, and a field out of its range is
then PARAM_BLOCK before the register's ORPHANED_WAIT: R279 names no value there (the model's choice: log entry 157). -/
def State.params (s : State) : Except Stop Params := do
  let ws := s.focus.block
  let w0 ← s.subst (nth 0 0 ws)
  let w1 ← s.subst (nth 0 1 ws)
  let w2 ← s.subst (nth 0 2 ws)
  let w3 ← s.subst (nth 0 3 ws)
  if w3.extractLsb' 8 7 ≠ 0 ∨ 9 < (w3.extractLsb' 20 4).toNat then s.paramFault
  else .ok (mkParams w0 w1 w2 w3)

/-- R280: a limit that the owning instruction states. -/
def State.limit (s : State) (ok : Bool) : Except Stop Unit := if ok then .ok () else s.paramFault

/-- R391: the leaf object that a block counts into, unless NOBAR = 1. -/
def Params.leaf (p : Params) : Option Nat := if p.nobar then none else some p.bar

/-! The wrapper. -/

/-- R281, R222 to R225, R271, R433: what a slot instruction with a guard does: nothing under a false guard; else the stalls
for its registers, the checks of its parameter block, the register-read causes, and its body. -/
def slotRun (g : BitVec 4) (srcs also : List Src) (dsts : List RegName) (pre : State → Except Stop Unit)
    (body : State → Run) (s : State) : Run :=
  if s.srcEmpty (.p g) then .error (stallReg (.p g)) else
  if s.rP g = false then .ok s else do
    s.stallAlways also
    s.stallSrcs 0 srcs
    s.stallDests dsts
    pre s
    s.readCauses srcs
    s.readCauses also
    body s

/-- R208, R209: the seat suspends at the waiting bundle. -/
def State.suspendF (s : State) (key : WaitKey) (timeout : Nat) : State :=
  s.beginLeave s.focus.core s.focus.seat (.wait key timeout)

/-- R220, R223: a seat that does not issue: what it waits for is noted; a result of a fixed distance that it waits for arrives. -/
def Seat.stalled (t : Seat) (w : Stall) : Seat :=
  match w.reg with
  | some r => { t.settleReg r with stall := some w }
  | none => { t with stall := some w }
def State.stallF (s : State) (w : Stall) : State := s.modF (fun t => t.stalled w)

def State.setStatus (s : State) (st : Status) : State := { s with focus := { s.focus with status := st } }

/-- R433: the entry of a cause of the instruction in focus: EPC names its bundle. -/
def State.causeEntry (s : State) (cause : BitVec 8) (faddr : Word) (pblk : Bool) : Entry :=
  { cause := cause, faddr := faddr, slot := s.focus.slot, pblk := pblk, epc := s.fseat.pc }

/-- What comes of a slot instruction: its effect, or the trap, the stall or the suspension from the state before it. -/
def settle (s : State) : Run → State
  | .ok t => t.setStatus .issued
  | .error (.raise cls c f p) =>
    let e := s.causeEntry c f p
    (s.takeCause s.focus.core s.focus.seat e).setStatus (.raised cls e)
  | .error (.stall w) => (s.stallF w).setStatus (.stalled w)
  | .error (.raiseIn t c f) =>
    let e := s.causeEntry c f false
    (t.takeCause s.focus.core s.focus.seat e).setStatus (.raised .exec e)
  | .error (.hold t w last) => (t.stallF w).setStatus (.holding w last)
  | .error (.suspend k t f) => (s.suspendF k t).setStatus (.suspended k t f)

/-- A slot instruction without a parameter block. -/
def slotOp (g : BitVec 4) (srcs : List Src) (dsts : List RegName) (body : State → Run) (s : State) :
    Host.Outcome State Fault Refusal :=
  .next (settle s (slotRun g srcs [] dsts (fun _ => .ok ()) body s))

/-- A slot instruction with sources that never trap. -/
def slotOpA (g : BitVec 4) (srcs also : List Src) (dsts : List RegName) (body : State → Run) (s : State) :
    Host.Outcome State Fault Refusal :=
  .next (settle s (slotRun g srcs also dsts (fun _ => .ok ()) body s))

/-- A slot instruction that owns a parameter block: the block is checked, then the body gets its fields. -/
def blockOp (g : BitVec 4) (srcs : List Src) (dsts : List RegName) (limits : State → Params → Except Stop Unit)
    (body : Params → State → Run) (s : State) : Host.Outcome State Fault Refusal :=
  .next (settle s (slotRun g srcs (markerSrcs s.focus.block) dsts
    (fun s => do
      let p ← s.params
      limits s p)
    (fun s => do
      let p ← s.params
      body p s) s))

end Sys2Proof.Machine
end

