-- ==== Sys2Proof/Machine/Scratch.lean ====
section
/-! DEFINITION. Scratchpad windows (R100 to R103), the scoreboard (R110 to R114), and the places of copies (R382, R384, R386). -/

namespace Sys2Proof.Machine

/-! Scratchpad. -/

/-- R100: the window of a SPWIN value. -/
def windowOf (w : W32) : Window :=
  { base := (w.extractLsb' 8 8).toNat, size := (w.extractLsb' 0 8).toNat, dbl := w.getLsbD 16, half := w.getLsbD 17 }

/-- R101: the least power of two not below W, or 1. -/
def pow2Above (w : Nat) : Nat := if w ≤ 1 then 1 else 2 ^ ((w - 1).log2 + 1)

/-- R101: the scratchpad byte an offset names, or none out of the window. -/
def Window.map (w : Window) (o : Word) : Option Nat :=
  let size := w.size * 4096
  let x := o.toNat % pow2Above size
  if size ≤ x then none
  else
    let x := if w.dbl && w.half then (x + size / 2) % size else x
    some (w.base * 4096 + x)

/-- R101: the bytes an access of n bytes at an offset names. -/
def Window.maps (w : Window) (o : Word) (n : Nat) : List (Option Nat) := (List.range n).map (fun i => w.map (o + BitVec.ofNat 64 i))

/-- The window of the seat in focus. -/
def State.window (s : State) : Window := windowOf s.src.ctl.spwin

/-- R101: SPOVR is set when a byte is out of the window. -/
def State.spovr (s : State) (core x : Nat) (ms : List (Option Nat)) : State :=
  if ms.any (·.isNone) then
    s.modSeat core x (fun t => { t with file := { t.file with ctl := { t.file.ctl with spwin := t.file.ctl.spwin ||| 0x80000000#32 } } })
  else s

def Core.spByte (c : Core) (m : Option Nat) : Byte :=
  match m with
  | some a => aget 0 a c.spad
  | none => 0
/-- Writes bytes at mapped places; out-of-window bytes are dropped. -/
def Core.spPut (c : Core) : List (Option Nat) → List Byte → Core
  | some a :: ms, b :: bs => ({ c with spad := aput a b c.spad }).spPut ms bs
  | none :: ms, _ :: bs => c.spPut ms bs
  | _, _ => c

/-- R453: whether a mapped byte stands in an ECC-poisoned block. -/
def Core.spPoisoned (c : Core) (m : Option Nat) : Bool :=
  match m with
  | some a => aget false (a / 64) c.spadPoison
  | none => false

/-- R101: the tag of the block of 64 offsets that starts at an offset: read only when all 64 bytes map inside. -/
def Core.spTag (c : Core) (w : Window) (o : Word) : BitVec 16 :=
  if (w.maps o 64).any (·.isNone) then 0
  else match w.map o with
    | some a => aget 0 (a / 64) c.spadTags
    | none => 0
def Core.spPutTag (c : Core) (w : Window) (o : Word) (t : BitVec 16) : Core :=
  if (w.maps o 64).any (·.isNone) then c
  else match w.map o with
    | some a => { c with spadTags := aput (a / 64) t c.spadTags }
    | none => c

/-- R47, R453: a block written whole: its tag, and no poison. -/
def Core.spWhole (c : Core) (w : Window) (o : Word) (t : BitVec 16) : Core :=
  let c := c.spPutTag w o t
  match w.map o with
  | some a => { c with spadPoison := adel (a / 64) c.spadPoison }
  | none => c

/-! The scoreboard. -/

/-- R101: where the offsets x to x + n - 1 of a window stand after the reduction modulo P, cut at W: ranges of reduced offsets, upper
ends not included. -/
def Window.reduced (w : Window) (o n : Nat) : List (Nat × Nat) :=
  let size := w.size * 4096
  let p := pow2Above size
  let x := o % p
  let parts := if p ≤ n then [(0, p)] else if x + n ≤ p then [(x, x + n)] else [(x, p), (0, x + n - p)]
  (parts.map (fun r => (r.1, Nat.min r.2 size))).filter (fun r => decide (r.1 < r.2))

/-- R101: the ranges of scratchpad bytes that n bytes at an offset name, upper ends not included. -/
def Window.spans (w : Window) (o : Word) (n : Nat) : List (Nat × Nat) :=
  let half := w.size * 2048
  let turn (r : Nat × Nat) : List (Nat × Nat) :=
    if w.dbl && w.half then
      (if r.2 ≤ half then [(r.1 + half, r.2 + half)] else if half ≤ r.1 then [(r.1 - half, r.2 - half)]
       else [(r.1 + half, 2 * half), (0, r.2 - half)])
    else [r]
  ((if n = 0 then [] else w.reduced o.toNat n).flatMap turn).map (fun r => (w.base * 4096 + r.1, w.base * 4096 + r.2))

/-- Whether ranges meet in one. -/
def contiguous : List (Nat × Nat) → Bool
  | [] => true
  | [_] => true
  | [a, b] => a.2 == b.1 || b.2 == a.1
  | _ => false

/-- The smallest range that covers ranges; the upper end is included in the entry. -/
def hull (rs : List (Nat × Nat)) : Score :=
  match rs with
  | [] => .nothing
  | r :: t => .bytes (t.foldl (fun m x => Nat.min m x.1) r.1) (t.foldl (fun m x => Nat.max m x.2) r.2 - 1)

/-- R110: the entry of a scratchpad destination given row by row: the smallest range that covers its mapped bytes; the whole window when
the mapping of its range of offsets is not contiguous. Bytes out of the window are not recorded. -/
def spadScore (w : Window) (rows : List (Word × Nat)) : Score :=
  let rows := rows.filter (fun r => r.2 != 0)
  let lo := rows.foldl (fun m r => Nat.min m r.1.toNat) (2 ^ 64)
  let hi := rows.foldl (fun m r => Nat.max m (r.1.toNat + r.2)) 0
  let spans := rows.flatMap (fun r => w.spans r.1 r.2)
  if spans.isEmpty then .nothing
  else if contiguous (w.spans (BitVec.ofNat 64 lo) (hi - lo)) then hull spans
  else .bytes (w.base * 4096) (w.base * 4096 + w.size * 4096 - 1)

/-! Copies: places and issue (R382, R384, R386). -/

/-- The place of a value in an endpoint: an address, an offset, or a byte of a slot by 192 × row + column. -/
def Endpoint.base : Endpoint → Word
  | .virt a => a
  | .spad o => o
  | .slot _ row => BitVec.ofNat 64 (192 * row)

/-- R382, R386: where row i starts, at a stride, through indices. -/
def rowAt (base : Word) (stride : Nat) (idx : Option (List Nat)) (i : Nat) : Word :=
  base + BitVec.ofNat 64 ((match idx with
    | some l => nth 0 i l
    | none => i) * stride)

/-- The step from row to row: a slot's rows follow each other. -/
def Endpoint.step (e : Endpoint) (stride : Nat) : Nat :=
  match e with
  | .slot _ _ => 192
  | _ => stride

/-- R382, R386: where source row i and destination row i start. -/
def CopyOp.srcRow (o : CopyOp) (i : Nat) : Word :=
  rowAt o.src.base (o.src.step o.srcStride) (if o.scatter then none else o.index) i
def CopyOp.dstRow (o : CopyOp) (i : Nat) : Word :=
  rowAt o.dst.base (o.dst.step o.dstStride) (if o.scatter then o.index else none) i

/-- R384: the bytes of source row i. -/
def CopyOp.srcBytes (o : CopyOp) (i : Nat) : Nat :=
  match o.convert with
  | some _ => nth 0 i o.lens
  | none => o.cols

/-- The rows of a copy with their starts and lengths in bytes. -/
def CopyOp.srcRows (o : CopyOp) : List (Word × Nat) := (List.range o.rows).map (fun i => (o.srcRow i, o.srcBytes i))
def CopyOp.dstRows (o : CopyOp) : List (Word × Nat) := (List.range o.rows).map (fun i => (o.dstRow i, o.rowBytes))

/-- The blocks that rows touch, by block number. -/
def rowBlocks (rows : List (Word × Nat)) : List Nat :=
  rows.flatMap (fun r => if r.2 = 0 then [] else
    (List.range ((r.1.toNat % 64 + r.2 + 63) / 64)).map (fun i => r.1.toNat / 64 + i))

/-- R57, R384: the blocks whose tags a copy's source may need: those of the triples that a converting one touches. -/
def CopyOp.srcBlocks (o : CopyOp) : List Nat :=
  match o.convert with
  | none => rowBlocks o.srcRows
  | some _ => rowBlocks (o.srcRows.map (fun r =>
      let lo := r.1.toNat % 192
      (r.1 - BitVec.ofNat 64 lo, (lo + r.2 + 191) / 192 * 192)))

/-- R102, R381: a copy is issued: a scratchpad or slot source is read in the order of issue. -/
def State.startCopy (s : State) (core : Nat) (o : CopyOp) : State :=
  let c := s.core core
  match o.src with
  | .virt _ => s.newOp core (.copy o)
  | .spad _ =>
    let ms := o.srcRows.flatMap (fun r => o.win.maps r.1 r.2)
    let tags := o.srcBlocks.foldl (fun (m : Assoc (BitVec 16 × Bool)) b =>
      let at_ : Word := BitVec.ofNat 64 (64 * b)
      aput b (c.spTag o.win at_, c.spPoisoned (o.win.map at_)) m) []
    let s : State := s.spovr core o.seat ms
    s.newOp core (.copy { o with local_ := some (ms.map c.spByte), localTags := tags })
  | .slot n _ =>
    let q := c.slot n
    let bs := o.srcRows.flatMap (fun r => (List.range r.2).map (fun k => aget 0 (r.1.toNat + k) q.data))
    let tags := o.srcBlocks.foldl (fun (m : Assoc (BitVec 16 × Bool)) b => aput b (aget 0 b q.tags, aget false b q.poison) m) []
    s.newOp core (.copy { o with local_ := some bs, localTags := tags })

/-- R110: the scoreboard entry of a copy. -/
def CopyOp.score (o : CopyOp) : Score :=
  match o.dst with
  | .virt _ => .nothing
  | .spad _ => spadScore o.win o.dstRows
  | .slot n row => if o.rows = 0 then .nothing else .rows n row (row + o.rows - 1)

/-- R110, R112: whether an operation in flight takes an entry: every copy into scratchpad or operand memory, also one without bytes, and
every ACCST to scratchpad. -/
def Op.takesEntry : Op → Bool
  | .copy o => (match o.dst with
      | .virt _ => false
      | _ => true)
  | .accst o => o.sp
  | _ => false

/-- The scoreboard entry of an operation in flight. -/
def Op.score : Op → Score
  | .copy o => o.score
  | .accst o => o.score
  | _ => .nothing

/-- R111, R114: whether two recorded ranges overlap. -/
def Score.overlaps : Score → Score → Bool
  | .bytes a b, .bytes c d => decide (a ≤ d) && decide (c ≤ b)
  | .rows n a b, .rows m c d => n == m && decide (a ≤ d) && decide (c ≤ b)
  | _, _ => false

/-- The operations in flight that a bundle finds: those of its own slots are not among them. -/
def State.opsBefore (s : State) : Assoc Op :=
  let own : Nat := match s.fseat.kvDone with
    | some d => d.1
    | none => 0
  match s.focus.opBase with
  | some b => s.fcore.ops.filter (fun e => decide (e.1 < b) && e.1 != own)
  | none => s.fcore.ops.filter (fun e => e.1 != own)

/-- R111: whether an entry of the core's scoreboard overlaps a range. -/
def State.scoreHit (s : State) (r : Score) : Bool := s.opsBefore.any (fun e => e.2.score.overlaps r)

/-- R111: a stall while a range overlaps an entry. -/
def State.awaitScore (s : State) (r : Score) : Except Stop Unit := if s.scoreHit r then stallScore else .ok ()

/-- R111: a stall while an access of n bytes at an offset overlaps an entry. -/
def State.awaitSpans (s : State) (w : Window) (o : Word) (n : Nat) : Except Stop Unit :=
  if (w.spans o n).any (fun r => s.scoreHit (.bytes r.1 (r.2 - 1))) then stallScore else .ok ()

/-- R110, R112: a stall while all 32 entries are occupied, by operations of earlier slots of the bundle too. -/
def State.awaitEntry (s : State) : Except Stop Unit :=
  if 32 ≤ (s.fcore.ops.filter (fun e => e.2.takesEntry)).length then stallX else .ok ()

end Sys2Proof.Machine
end

