-- ==== Sys2Proof/Machine/Phase.lean ====
section
/-! DEFINITION. The seat's stores with buffer-phase tracking: the phase store queue, commits and rollbacks (R456 to R459), the
seat's view of its own held stores, ECC-poisoned blocks and the consumption of an error by a seat (R453 to R455). -/

namespace Sys2Proof.Machine

/-- R453: whether the block of a physical address is ECC-poisoned. -/
def State.poisoned (s : State) (pa : Nat) : Bool := aget false (pa / 64) s.poison
/-- R453: a write of a whole block clears its poison. -/
def State.clearPoison (s : State) (pa : Nat) : State := { s with poison := adel (pa / 64) s.poison }
/-- R47, R453: the tag of a block written whole. -/
def State.wholeTag (s : State) (w : StoreWay) (pa : Nat) (t : BitVec 16) : State := (s.storeTag w pa t).clearPoison pa

/-- R456: the entries of a seat's phase store queue. -/
def Core.psq (c : Core) (x : Nat) : Nat := (c.held.filter (fun e => e.1 == x && (match e.2 with
  | .fence _ => false
  | _ => true))).length

/-- The byte at a physical address that a list of pieces writes last. -/
def partByte (pa : Nat) (ps : List (Nat × BitVec 3 × List Byte)) : Option Byte :=
  ps.foldl (fun r p => if p.1 ≤ pa ∧ pa < p.1 + p.2.2.length then p.2.2[pa - p.1]? else r) none
/-- R456: the byte a seat's held stores give a physical address. -/
def Core.heldByte (c : Core) (x pa : Nat) : Option Byte :=
  c.held.foldl (fun r e => if e.1 = x then
      (match e.2 with
        | .store _ ps _ _ => (partByte pa ps).orElse (fun _ => r)
        | _ => r) else r) none
/-- R456: the tag a seat's held stores give a block. -/
def Core.heldTag (c : Core) (x pa : Nat) : Option (BitVec 16) :=
  c.held.foldl (fun r e => if e.1 = x then
      (match e.2 with
        | .store _ _ ts _ => ts.foldl (fun r t => if t.1 / 64 = pa / 64 then some t.2.2 else r) r
        | _ => r) else r) none

/-- What a load of the seat in focus reads at a physical address: its own held stores first (R456). -/
def State.seatByte (s : State) (cp : BitVec 3) (pa : Nat) : Byte :=
  match s.fcore.heldByte s.focus.seat pa with
  | some b => b
  | none => if cp = 2 then s.homeByte pa else s.byteAt pa
def State.seatTag (s : State) (cp : BitVec 3) (pa : Nat) : BitVec 16 :=
  match s.fcore.heldTag s.focus.seat pa with
  | some t => t
  | none => s.loadTag cp pa
/-- The bytes that translated pieces give a load of the seat in focus. -/
def State.seatRead (s : State) (ps : List Piece) : List Byte :=
  ps.flatMap (fun p => (List.range p.len).map (fun i => s.seatByte (pteCp p.leaf.entry) (p.pa + i)))

/-- R146, R166, R495: the manner of a posted write to the host by a seat, on a path. -/
def State.seatPost (s : State) (core x path : Nat) (va : Word) : HostReq :=
  let t := s.seatAt core x
  { asid := t.file.ctl.asid, use := .seatWrite core x va.toNat, addr := 0, size := 0, write := true, data := [], path := some path,
    lent := some (tagEntry t.cont.tag) }

/-- R155, R495: the pieces of a store to the host are posted; where they are in order, each leaves once the host has acknowledged the one
before it. -/
def State.postParts (s : State) (r : HostReq) (inOrder : Bool) : List Nat → List (Nat × List Byte) → State
  | _, [] => s
  | waits, p :: ps =>
    let n := s.host.nextReq
    let s := (hostCut (p.2.length / 64 + 2) p.1 p.2).foldl (fun (s : State) q =>
      s.hostAfter waits { r with addr := q.1, size := q.2.length, write := true, data := q.2 }) s
    s.postParts r inOrder (if inOrder then (List.range (s.host.nextReq - n)).map (fun i => n + i) else []) ps

/-- R456, R457, R495: performs one entry of a seat's phase store queue, its bytes of the host window posted; a tag written by itself (TAGWR) leaves a poisoned block
poisoned. -/
def State.perform (s : State) (core x : Nat) : Held → State
  | .store va ps ts ord =>
    let s : State := (ps.filter (fun p => region p.1 != .host)).foldl (fun s p => s.storeBytes (storeWay core p.2.1) p.1 p.2.2) s
    let s := s.postParts (s.seatPost core x 0 va) ord.inOrder [] ((ps.filter (fun p => region p.1 == .host)).map (fun p => (p.1, p.2.2)))
    let put (s : State) (t : Nat × BitVec 3 × BitVec 16) : State :=
      if ps.isEmpty then s.storeTag (storeWay core t.2.1) t.1 t.2.2 else s.wholeTag (storeWay core t.2.1) t.1 t.2.2
    ts.foldl put s
  | .fence _ => s
  | .copy o => s.startCopy core o
  | .accst o => s.newOp core (.accst o)

/-- R457: what a commit records of a seat; n is the running number of operations. -/
def Seat.snapshot (t : Seat) (n : Nat) : PhaseSnap :=
  { file := t.file, pc := t.pc, tm := t.tm, live := t.live, snapDone := t.snapDone, trapped := false, ops := n,
    issued := t.issued, efrPend := t.efrPend, crc := t.crc }

/-- R457: a commit of a seat: its held stores and copies are performed in order, and a new phase begins. -/
def State.commit (s : State) (core x : Nat) : State :=
  let hs := (s.core core).held.filter (fun e => e.1 == x)
  let s : State := s.modCore core (fun c => { c with held := c.held.filter (fun e => e.1 != x) })
  let s : State := hs.foldl (fun s e => s.perform core x e.2) s
  let t := s.seatAt core x
  let s : State := s.modCore core (fun c => { c with
    accPhase := c.accPhase.filter (fun e => e.1 != x)
    accSaves := c.accSaves.filter (fun e => e.seat != x)
    copyLog := c.copyLog.filter (fun e => e.seat != x || decide (t.phaseNo ≤ e.phase)) })
  s.setSeat core x { t with phaseNo := t.phaseNo + 1, rerun := false, apart := false, snap := some (t.snapshot s.nextOp) }

/-- R381: the copies in flight of a core. -/
def Core.copies (c : Core) : Nat := (c.ops.filter (fun e => match e.2 with
  | .copy _ => true
  | _ => false)).length

/-- R153: whether the SO pages of a seat's copies in flight, and of a further one, let that one start: a copy from an SO page is an acquire,
one into an SO page a release. -/
def State.cpGoes (s : State) (core : Nat) (o : CopyOp) : Bool :=
  (s.core core).ops.all (fun e => match e.2 with
    | .copy q => q.seat != o.seat || !(q.soSrc || o.soDst)
    | _ => true)

/-- R159, R496: whether the host has acknowledged every write of every task: a release at SYS scope is cumulative. -/
def State.hostQuiet (s : State) : Bool := (s.hostWriting (fun r => r.lent.isSome || r.pkt.isSome)).isEmpty

/-- R153, R157, R160: whether what orders a held store or fence of a seat lets it be performed: the loads before it through SO and RC pages
are performed, and at SYS the host has acknowledged every write that may happen before it. -/
def State.mayRelease (s : State) (core x : Nat) : Option Nat → Bool
  | none => true
  | some scope => (s.core core).ops.all (fun e => match e.2 with
      | .vload o => o.seat != x || o.waits.all (fun w => w.ord == 2)
      | _ => true) && (scope != 5 || s.hostQuiet)

/-- R381, R457: whether a commit performs an entry now: a copy finds a place, and a release has nothing to wait for. -/
def State.mayPerform (s : State) (core x : Nat) : Held → Bool
  | .copy o => decide ((s.core core).copies < 64) && s.cpGoes core o
  | .store _ _ _ ord => s.mayRelease core x ord.rel
  | .fence scope => s.mayRelease core x (some scope)
  | .accst _ => true

/-- R457: performs entries in program order, under their own ordering rules, as far as they may now; and those that remain. -/
def State.performSome (core x : Nat) : List (Nat × Held) → State → State × List (Nat × Held)
  | [], s => (s, [])
  | e :: r, s => if s.mayPerform core x e.2 then performSome core x r (s.perform core x e.2) else (s, e :: r)

/-- R381, R457: a commit as far as it comes, and whether it is complete. While the copy unit is full, or a release waits for the host, the
seat stalls; a phase of which stores have been performed is not rolled back. -/
def State.commitPart (s : State) (core x : Nat) : State × Bool :=
  let hs := (s.core core).held.filter (fun e => e.1 == x)
  let r := State.performSome core x hs (s.modCore core (fun c => { c with held := c.held.filter (fun e => e.1 != x) }))
  if r.2.isEmpty then (r.1.commit core x, true) else
  let s : State := r.1.modCore core (fun c => { c with held := r.2 ++ c.held })
  ((if r.2.length = hs.length then s
    else s.modSeat core x (fun t => { t with snap := t.snap.map (fun p => { p with trapped := true }) })), false)

/-- Whether a seat has done anything since its last commit. -/
def State.needsCommit (s : State) (core x : Nat) : Bool :=
  let t := s.seatAt core x
  match t.snap with
  | none => true
  | some p => p.issued != t.issued || p.pc != t.pc || (s.core core).psq x != 0

/-! The checks of a pair (R467). -/

/-- R467: one bit of CRC-64 with the ECMA-182 polynomial. -/
def crcBit (c : Word) (b : Bool) : Word :=
  let t := c.getLsbD 63 != b
  (c <<< 1) ^^^ (if t then 0x42F0E1EBA9EA3693#64 else 0)

/-- R467: the CRC after some bytes. -/
def crcBytes (c : Word) (bs : List Byte) : Word :=
  bs.foldl (fun c b => [7, 6, 5, 4, 3, 2, 1, 0].foldl (fun c i => crcBit c (b.getLsbD i)) c) c

/-- R467: the record of a store, a held copy or a commit-point instruction: address, size, path, data and tags. -/
def crcRecord (va : Word) (path : Nat) (data : List Byte) (tags : List (BitVec 16)) : List Byte :=
  natToBytes 8 va.toNat ++ natToBytes 4 data.length ++ natToBytes 1 path ++ data ++ tags.flatMap (fun t => natToBytes 2 t.toNat)

/-- R467: both members of a pair take a record into their running CRC; the shadow issues what the primary in focus issues. -/
def State.crcNote (s : State) (r : List Byte) : State :=
  match s.fseat.pair with
  | some (p, true) =>
    let note (t : Seat) : Seat := { t with crc := crcBytes t.crc r }
    (s.modSeat p s.focus.seat note).modF note
  | _ => s

/-- R467: whether the CRCs of the members of a pair differ. -/
def State.crcApart (s : State) (core x : Nat) : Bool :=
  match (s.seatAt core x).pair with
  | some (p, true) => (s.seatAt p x).crc != (s.seatAt core x).crc
  | _ => false

/-- R457: the commit before a bundle that holds a commit-point instruction, for an instruction that runs by itself; as part of
a bundle the step has made it. -/
def State.commitF (s : State) : State :=
  if s.src.ctl.phaseEn && s.focus.phase == .probe && s.needsCommit s.focus.core s.focus.seat then
    let s := s.commit s.focus.core s.focus.seat
    -- the copies and ACCSTs that it starts issued before the bundle
    ({ s with focus := { s.focus with opBase := s.focus.opBase.map (fun _ => s.nextOp) } } : State).crcNote (crcRecord 0 0 [] [])
  else s.crcNote (crcRecord 0 0 [] [])

/-- R456: whether one more entry fits the seat's phase store queue; else PHASE_STORE_OVERFLOW with the address. -/
def State.psqRoom (s : State) (va : Word) : Except Stop Unit :=
  if s.src.ctl.phaseEn && decide (256 ≤ s.fcore.psq s.focus.seat) then raiseX 0x56 va else .ok ()

/-- Cuts bytes along translated pieces. -/
def cutPieces : List Piece → List Byte → List (Nat × BitVec 3 × List Byte)
  | [], _ => []
  | p :: ps, bs => (p.pa, pteCp p.leaf.entry, bs.take p.len) :: cutPieces ps (bs.drop p.len)

/-- A store of the seat in focus through translated pieces, with the tags of the blocks it writes whole: held while tracking
is on, else performed under the pages' policies (R93, R456). -/
def State.seatStore (s : State) (va : Word) (parts : List (Nat × BitVec 3 × List Byte))
    (tags : List (Nat × BitVec 3 × BitVec 16)) (ord : StoreOrd) : Run := do
  s.psqRoom va
  if s.src.ctl.phaseEn then
    .ok ((s.modFcore (fun c => { c with held := c.held ++ [(s.focus.seat, .store va parts tags ord)] })).crcNote
      (crcRecord va 0 (parts.flatMap (fun p => p.2.2)) (tags.map (fun t => t.2.2))))
  else .ok (s.perform s.focus.core s.focus.seat (.store va parts tags ord))

/-- R458: whether a copy's scratchpad destination lies in the half of its window that is active under HALF; without double
buffering the whole window is active. -/
def CopyOp.intoHalf (o : CopyOp) (half : Bool) : Bool :=
  match o.dst with
  | .spad _ => !o.win.dbl || (match o.dstRows.findSome? (fun r => o.win.map r.1) with
      | some a => decide (o.win.size * 2048 ≤ a - o.win.base * 4096) == half
      | none => false)
  | _ => false

/-- R458: the copies of the previous phase that a rollback re-issues: those into the window half now active. -/
def State.reissues (s : State) (core x : Nat) : List LogCopy :=
  let t := s.seatAt core x
  (s.core core).copyLog.filter (fun e => e.seat == x && e.phase + 1 == t.phaseNo && e.op.intoHalf (t.file.ctl.spwin.getLsbD 17))

/-- R458, R459: the copy log takes one more copy; of more than 64 it drops the oldest. -/
def State.logCopy (s : State) (core x : Nat) (o : CopyOp) : State :=
  let t := s.seatAt core x
  if !t.file.ctl.phaseEn then s else
  s.modCore core (fun c =>
    let kept := (c.copyLog.filter (fun e => !e.dropped)).length
    let log := if kept < 64 then c.copyLog else dropOldest c.copyLog
    { c with copyLog := log ++ [{ seat := x, phase := t.phaseNo, op := o, dropped := false }] })
where
  /-- Marks the oldest entry that is not yet dropped. -/
  dropOldest : List LogCopy → List LogCopy
    | [] => []
    | e :: r => if e.dropped then e :: dropOldest r else { e with dropped := true } :: r

/-- R459: whether the present phase of a seat can be rolled back. -/
def State.canRollback (s : State) (core x : Nat) : Bool :=
  let c := s.core core
  match (s.seatAt core x).snap with
  | none => false
  | some p => !p.trapped && (s.reissues core x).all (fun e => !e.dropped) &&
      c.accPhase.all (fun e => e.1 != x || e.2.1 != x || !(c.accPhase.contains (x, 1 - x, e.2.2)))

/-- R458: what a rollback does to an operation in flight: the seat's copies of the phase into scratchpad or a slot are
cancelled, and its matrix operations and moves of the phase do not take place. -/
def State.rollbackOp (s : State) (core x first : Nat) (e : Nat × Op) : State :=
  if e.2.seat != x || decide (e.1 < first) then s else
  match e.2 with
  | .copy o => (match o.dst with
      | .virt _ => s
      | _ => s.endCopy core e.1 o o.total 0x80#32 0x52)
  -- R397: of a SEQ.MMA the object counts the macro-op, which the rollback takes back as a whole
  | .mma o =>
    if (alook e.1 (s.core core).ops).isNone then s
    else if o.seqStep.isSome then s.dropOp core e.1
    else (s.dropOp core e.1).mxfDone core o.bar 0x80#32 0x52
  | .accWrite _ => s.dropOp core e.1
  | .accRead _ => s.dropOp core e.1
  | _ => s

/-- R397, R458: the matrix steps of SEQ.MMA that the phase has issued, by their barrier objects: a macro-op whose last step is among them,
or which the sequencer still runs, no longer counts in MXF. -/
def State.rollbackSeq (s : State) (core x first : Nat) : State :=
  let last (e : Nat × Op) : Option Nat := match e.2 with
    | .mma o => if o.seat == x && decide (first ≤ e.1) && o.seqStep.isSome && o.last then some o.bar else none
    | _ => none
  let running : List Nat := match (s.seatAt core x).seq with
    | some q => if q.kind = 1 then [((nth 0 3 q.block).extractLsb' 16 4).toNat] else []
    | none => []
  ((s.core core).ops.filterMap last ++ running).foldl (fun s o => s.mxfDone core o 0x80#32 0x52) s

/-- R381, R458: the copies that a rollback issues again start as far as the copy unit has places. -/
def State.reissueCopies (s : State) (core : Nat) : State :=
  let c := s.core core
  let room := 64 - c.copies
  let s : State := s.setCore core { c with reissue := c.reissue.drop room }
  (c.reissue.take room).foldl (fun s o => s.startCopy core o) s

/-- R458: a rollback of a seat to its last commit. -/
def State.rollback (s : State) (core x : Nat) : State :=
  let s := s.dropHeld core x
  let t := s.seatAt core x
  match t.snap with
  | none => s
  | some p =>
    let again := (s.reissues core x).map (fun e => { e.op with landed := 0 })
    let s := s.rollbackSeq core x p.ops
    let s : State := (s.core core).ops.foldl (fun s e => s.rollbackOp core x p.ops e) s
    let c := s.core core
    let saves := c.accSaves.filter (fun e => e.seat == x)
    let acc := saves.foldl (fun (m : Assoc W32) e => m.filter (fun y => y.1 / 4096 != e.acc)) c.acc
    let acc := saves.foldl (fun (m : Assoc W32) e => e.elems.foldl (fun m y => aput y.1 y.2 m) m) acc
    let s : State := s.setCore core { c with
      acc := acc, held := c.held.filter (fun e => e.1 != x), accSaves := c.accSaves.filter (fun e => e.seat != x),
      accPhase := c.accPhase.filter (fun e => e.1 != x)
      copyLog := c.copyLog.filter (fun e => e.seat != x || e.phase != t.phaseNo)
      arrivals := c.arrivals.filter (fun e => e.1 != x || decide (e.2.2 < p.ops))
      reissue := c.reissue.filter (fun o => o.seat != x) ++ again }
    let s : State := (s.settleAcc core).reissueCopies core
    let lost := (s.core core).ops.filter (fun e => decide (p.ops ≤ e.1) && e.2.seat == x && (match e.2 with
      | .kv _ => true
      | .coll _ => true
      | .resole _ => true
      | _ => false))
    let waits (r : Nat × SReg) : Bool := lost.any (fun e => r.2.fill == .pending e.1)
    -- R421: a register that still waits for an accepted KV operation or collective is orphaned
    let regs := t.file.regs.s.foldl (fun (m : Assoc SReg) r => if waits r then aput r.1 { r.2 with fill := .orphaned } m else m) p.file.regs.s
    let vs := (List.range 32).foldl (fun (m : Assoc VReg) i => aput i { aget vreg0 i t.file.regs.v with fill := .orphaned } m) t.file.regs.v
    let s : State := match t.pair with
      | some (q, true) => s.modSeat q x (fun k => { k with crc := p.crc })
      | _ => s
    s.setSeat core x { t with
      file := { regs := { p.file.regs with s := regs, v := vs }, ctl := p.file.ctl }
      pc := p.pc, npc := p.pc, tm := p.tm, tmWas := none, live := p.live, snapDone := p.snapDone, latch := none, crc := p.crc, run := .running, leave := none, keep := none, firm := false, hostWait := none, hostData := [],
      kvHeld := none, seq := none, vfPend := [], vBusy := [],
      -- R71: the writes pending at the commit count their bundles on; those of the phase are undone
      efrPend := p.efrPend.map (fun e => (e.1 - p.issued + t.issued, e.2))
      snap := some { p with issued := t.issued, efrPend := p.efrPend.map (fun e => (e.1 - p.issued + t.issued, e.2)) } }

/-- R461: an event of a die's log. -/
def State.logEvent (s : State) (core : Nat) (kind : Nat) (info : Word) : State :=
  s.modDie (dieOf core) (fun d => { d with
    events := (d.events ++ [[info.extractLsb' 0 32, info.extractLsb' 32 32, BitVec.ofNat 32 (kind + core * 0x10000),
      BitVec.ofNat 32 s.cycle]]).drop (if d.events.length < 16 then 0 else 1)
    eventCount := d.eventCount + 1 })

/-- R455: FADDR of UNCORRECTABLE. -/
def uncorrAddr (struct core loc : Nat) : Word := BitVec.ofNat 64 (struct * 2 ^ 60 + core % 512 * 2 ^ 48 + loc % 2 ^ 48)

/-- R454, R455: a seat has consumed an uncorrectable error: the cause is delivered at its next boundary. -/
def State.consume (s : State) (core x : Nat) (faddr : Word) : State :=
  s.modSeat core x (fun t => { t with async := t.async ++ [(0x52#8, faddr)] })

/-- R455: where a core's read meets a poisoned block, as STRUCT names it: in its L1, in its cluster's slice, in LPDDR-6 or in MRAM. -/
def State.poisonStruct (s : State) (core pa : Nat) : Nat :=
  let d := s.directory (pa / 64)
  if d.1.contains core then 0 else if d.2.contains (core / 10) || s.pinnedLine (pa / 64) then 5 else if isMram pa then 7 else 6

/-- R455: delivery of UNCORRECTABLE to a seat at a boundary, when it is not a trap: a rollback, or a fatal cause. None when it
is to be taken as a trap. -/
def State.deliverUncorr (s : State) (core x : Nat) (faddr : Word) : Option State :=
  let t := s.seatAt core x
  if t.file.ctl.phaseEn then
    if s.canRollback core x && !t.rerun then
      some (((s.rollback core x).modSeat core x (fun t => { t with rerun := true })).logEvent core 3 faddr)
    else some ((s.logEvent core 4 faddr).fatal core x 0x52)
  else if t.file.ctl.trapvec.extractLsb' 4 51 == 0 then some ((s.logEvent core 4 faddr).fatal core x 0x52)
  else none

end Sys2Proof.Machine
end

