-- ==== Sys2Proof/Machine/Access.lean ====
section
/-! DEFINITION. The memory accesses of a seat: translation before issue (R127), the host window (R40, R495), scratchpad
windows (R100 to R103) and the scoreboard's stalls (R110 to R114). -/

namespace Sys2Proof.Machine

/-- R160: whether no vector load of the seat in focus waits for bytes of host memory read through a page of a kind selected. -/
def State.loadsDone (s : State) (ord : BitVec 2 → Bool) : Bool :=
  s.opsBefore.all (fun e => match e.2 with
    | .vload o => o.seat != s.focus.seat || o.waits.all (fun w => !ord w.ord)
    | _ => true)

/-- R160: whether the fences of the seat in focus let a load, or a store, of it be performed. -/
def State.fenceOk (s : State) (w : Bool) : Bool :=
  let f := s.fseat.fence
  let done (id : Nat) : Bool := (alook id s.fcore.ops).isNone
  f.all.all done && (!w || (f.loads.all done && f.writes.all (fun id => (alook id s.host.reqs).isNone && (alook id s.host.later).isNone)))

/-- R160: a fence of the seat in focus: what comes before it and has still to be performed. With tracking on it stands among the held
stores too (R456). -/
def State.fenceUp (s : State) (kind : BitVec 2) (scope : Nat) : State :=
  let loads := (s.opsBefore.filter (fun e => match e.2 with
    | .vload o => o.seat == s.focus.seat && o.waits.any (fun w => w.ord != 2)
    | _ => false)).map (·.1)
  let acq : Bool := kind.getLsbD 0
  let rel : Bool := kind.getLsbD 1
  let s := s.modF (fun t => { t with fence :=
    { writes := t.fence.writes ++ (if rel && scope == 5 then s.hostWriting (fun r => r.lent.isSome || r.pkt.isSome) else [])
      loads := t.fence.loads ++ (if rel then loads else [])
      all := t.fence.all ++ (if acq then loads else []) } })
  if rel && s.src.ctl.phaseEn then s.modFcore (fun c => { c with held := c.held ++ [(s.focus.seat, .fence scope)] }) else s

/-- R135: what the TLB keeps where a translation of one of some addresses has failed. -/
def State.reviseAll (s : State) (k : Access) (vs : List Word) : State := vs.foldl (fun s v => s.revise (.core s.focus.core) s.fasid k v) s

/-- R120, R454: the poisoned block of a page table at which a translation of the seat in focus has stopped. -/
def State.faultTable (s : State) (k : Access) (c : Cause) : Option Nat :=
  if c.1 = 0x23 then s.tablePoison (.core s.focus.core) s.fasid (c.2.toNat % 2 ^ 55) k else none

/-- R454, R455: the seat in focus has consumed a poisoned entry of a page table. -/
def State.consumeTable (s : State) (pa : Nat) : State := s.consume s.focus.core s.focus.seat (uncorrAddr 9 s.focus.core pa)

/-- R120, R124, R135, R455: a translation fault of the seat in focus. A poisoned entry of a page table is consumed as well; with buffer-phase
tracking its delivery at the next boundary stands in the place of the trap. -/
def State.transStop (s : State) (k : Access) (vs : List Word) (c : Cause) : Stop :=
  let stale := vs.any (s.staleDirty (.core s.focus.core) s.fasid k)
  let t := if stale then s.reviseAll k vs else s
  match s.faultTable k c with
  | some pa => if s.src.ctl.phaseEn then .hold (t.consumeTable pa) noReg true else .raiseIn (t.consumeTable pa) c.1 c.2
  | none => if stale then .raiseIn t c.1 c.2 else .raise .exec c.1 c.2 false

/-- R124, R127: translates every page of an access of the seat in focus; a page being pinned or unpinned makes it wait (R92), and so does a
load through an SO page that the host has still to answer: it is an acquire (R153). A fence holds back what it orders after it (R160). -/
def State.segPieces (s : State) (k : Access) (gs : List Seg) : Except Stop (List Piece) :=
  match s.pieces s.focus.core s.fasid k gs with
  | .error c => .error (s.transStop k (gs.map (·.1)) c)
  | .ok ps =>
    if ps.any (fun p => s.pinBusy p.pa) || !s.loadsDone (· == 1) || (ps.any (fun p => pteOrd p.leaf.entry != 2) && !s.fenceOk k.writes) then stallX
    else .ok ps
def State.seatPieces (s : State) (va : Word) (n : Nat) (k : Access) : Except Stop (List Piece) := s.segPieces k (segs va n)

/-- R128, R146: the pages of an access that the copy unit or the matrix array makes for the seat in focus; no fence orders it. -/
def State.pathPieces (s : State) (k : Access) (va : Word) (n : Nat) : Except Stop (List Piece) :=
  match s.pieces s.focus.core s.fasid k (segs va n) with
  | .error c => .error (s.transStop k ((segs va n).map (·.1)) c)
  | .ok ps => if ps.any (fun p => s.pinBusy p.pa) then stallX else .ok ps

def anyHost (ps : List Piece) : Bool := ps.any (fun p => region p.pa == .host)
def anyControl (ps : List Piece) : Bool := ps.any (fun p => region p.pa == .control)

/-- R135: the translations of an access of the seat in focus take effect. -/
def State.install (s : State) (w : Bool) (ps : List Piece) : State := s.installPieces s.focus.core s.fasid w ps

/-- R93, R135: the same for a load, whose lines come into the caches. -/
def State.installRead (s : State) (ps : List Piece) : State := (s.install false ps).fillPieces s.focus.core ps

/-- R495: a host-window access for which the seat stalls: one request after another until the host has given n bytes, or
HOST_ERROR. Through a page whose policy caches, whole blocks are asked for (R93). -/
def State.hostGet (s : State) (k : Access) (cp : BitVec 3) (va : Word) (pa n : Nat) : Except Stop (List Byte) :=
  let t := s.fseat
  let got := (t.hostData.find? (fun e => e.1 == pa)).getD (pa, [], false)
  let have_ := got.2.1
  if got.2.2 then raiseX 0x28 (transFaddr 0 k va.toNat)
  else if n ≤ have_.length then .ok (have_.take n)
  else if t.hostWait.isSome then stallX
  else
    let at_ := pa + have_.length
    let r : HostReq := { asid := s.fasid, use := .seatRead s.focus.core s.focus.seat pa, cp := cp,
                         addr := if cp = 2 then at_ else at_ / 64 * 64, size := if cp = 2 then hostChunk at_ (n - have_.length) else 64,
                         write := false, data := [] }
    let id := s.host.nextReq
    .error (.hold ((s.hostRequest r).modF (fun t => { t with hostWait := some id })) noReg false)

def State.hostRead (s : State) (cp : BitVec 3) (va : Word) (pa n : Nat) : Except Stop (List Byte) := s.hostGet .read cp va pa n

/-- The bytes that one piece of a scalar read of the seat in focus gives: through the host port, or from memory, with the seat's held
stores. -/
def State.pieceRead (s : State) (p : Piece) : Except Stop (List Byte) :=
  if region p.pa = .host then do
    let hb ← s.hostRead (pteCp p.leaf.entry) p.va p.pa p.len
    .ok (((List.range p.len).zip hb).map (fun x => (s.fcore.heldByte s.focus.seat (p.pa + x.1)).getD x.2))
  else .ok (s.seatRead [p])

/-- The bytes of a scalar read of the seat in focus, piece by piece. -/
def State.readScalar (s : State) : List Piece → Except Stop (List Byte)
  | [] => .ok []
  | p :: ps => do
    let b ← s.pieceRead p
    let r ← s.readScalar ps
    .ok (b ++ r)

/-- R153, R155: what orders a store through translated pieces: an SO page makes it a release at SYS scope. -/
def storeOrd (rel : Option Nat) (ps : List Piece) : StoreOrd :=
  let so (p : Piece) : Bool := pteOrd p.leaf.entry == 1
  { rel := if ps.any so then some 5 else rel, inOrder := ps.all so }

/-- A store through translated pieces, as R93, R456 and R495 give. -/
def State.storeScalar (s : State) (va : Word) (ps : List Piece) (bs : List Byte)
    (tags : List (Nat × BitVec 3 × BitVec 16)) (rel : Option Nat := none) : Run :=
  s.seatStore va (cutPieces ps bs) (tags.filter (fun t => region t.1 != .host)) (storeOrd rel ps)

/-- The consumption of ECC-poisoned blocks by an access of the seat in focus (R454, R455). -/
def State.poisonHit (s : State) (ps : List Piece) : Option Nat :=
  (ps.flatMap (fun p => (List.range ((p.pa % 64 + p.len + 63) / 64)).map (fun i => p.pa / 64 * 64 + 64 * i))).find? s.poisoned
def State.consumeF (s : State) (struct pa : Nat) : State :=
  s.consume s.focus.core s.focus.seat (uncorrAddr struct s.focus.core pa)
def State.structF (s : State) (pa : Nat) : Nat := s.poisonStruct s.focus.core pa

/-! Drains. -/

/-- The path of R146 on which an operation in flight has accesses still to perform. A scalar load has sampled memory at issue, and so
has a vector load but for the bytes that the host owes. -/
def Op.path : Op → Option Nat
  | .load _ => none
  | .vload o => if o.waits.isEmpty then none else some 0
  | .accRead _ => none
  | .accWrite _ => none
  | .mma _ => none
  | .copy _ => some 1
  | .accst _ => some 2
  | .kv _ => some 3
  | .coll _ => some 4
  | .resole _ => none

/-- R496: whether a request is a posted write of a seat on a path that a filter selects. -/
def HostReq.ofSeat (r : HostReq) (core x : Nat) (path : Nat → Bool) : Bool :=
  (match r.use with
    | .seatWrite c y _ => c == core && y == x
    | _ => false) && (match r.path with
    | some p => path p
    | none => false)

/-- R496: whether the host has acknowledged every posted write of the seat in focus on the paths selected. -/
def State.hostAcked (s : State) (path : Nat → Bool) : Bool :=
  (s.hostWriting (fun r => r.ofSeat s.focus.core s.focus.seat path)).isEmpty

/-- R157, R159, R160: whether a release of the seat in focus at a scope may be performed: its earlier loads through SO and RC pages are
performed, and at SYS the host has acknowledged every write that may happen before it. -/
def State.released (s : State) (scope : Nat) : Bool := s.loadsDone (· != 2) && (scope != 5 || s.hostQuiet)

/-- R153: a store through an SO page is a release at SYS scope. -/
def State.awaitSo (s : State) (ps : List Piece) : Except Stop Unit :=
  if ps.any (fun p => pteOrd p.leaf.entry == 1) && !s.released 5 then stallX else .ok ()

/-- R388, R427: the path of block transfers of the seat in focus: the transfers that go on, the source blocks that RSWRITE has still to read
from the host, and records that the host has not acknowledged. -/
def State.bteQuiet (s : State) (scope : Nat) : Bool :=
  s.dies.all (fun d => d.2.bte.all (fun b => b.2.seat != some (s.focus.core, s.focus.seat))) &&
  s.host.reqs.all (fun r => r.2.use != .resole s.focus.core s.focus.seat) &&
  (scope != 5 || s.hostAcked (· == 5))

/-- R149, R164, R496: whether every access of the seat in focus on the paths that the filter selects has been performed at a scope; the
host's acknowledgements count at SYS alone. -/
def State.drained (s : State) (path : Nat → Bool) (scope : Nat) : Bool :=
  s.opsBefore.all (fun e => e.2.seat != s.focus.seat || (match e.2.path with
    | some p => !path p
    | none => true)) &&
  (!path 5 || s.bteQuiet scope) && (scope != 5 || s.hostAcked path)

/-- R495: a SYS-scope release after a posted store that failed raises HOST_ERROR. -/
def State.hostFailCheck (s : State) (sys : Bool) : Except Stop Unit :=
  match s.fseat.hostFailed with
  | some f => if sys then .error (.raiseIn (s.modF (fun t => { t with hostFailed := none })) 0x28 f) else .ok ()
  | none => .ok ()

end Sys2Proof.Machine
end

