-- ==== Sys2Proof/Machine/Control.lean ====
section
/-! DEFINITION. Branches, the counted loop, control registers, traps and their return, suspension, timelines and HALT: the rest
of position S (R283 to R290, R316 to R331). -/

namespace Sys2Proof.Machine

/-! Branches. -/

/-- R287: whether a position lies in the body of the loop of STAGE and LOOPB. -/
def inBody (c : CtlRegs) (pc : BitVec 51) : Bool :=
  decide ((pc - loopStart c.loopb).toNat < loopLen c.loopb)

/-- R285: STAGE with ACT cleared. -/
def stageOff (st : Word) : Word := st &&& 0x7FFFFFFFFFFFFFFF#64

/-- R316, R318, R287: a taken branch of the seat in focus to a 64-bit target. -/
def State.branchTo (s : State) (target : Word) : Run :=
  if !inRange target then raiseX 0x22 target else
  let tgt : BitVec 51 := target.extractLsb' 4 51
  let c := s.src.ctl
  let s : State := if stageAct c.stage && inBody c s.fseat.pc && !inBody c tgt then
      s.modCtl (fun r => { r with stage := stageOff r.stage }) else s
  .ok ((s.modF (fun t => { t with npc := tgt, taken := true })).trace s.focus.core s.focus.seat 0 (pcWord tgt))

/-- R316: the target of a direct branch. -/
def State.target (s : State) (off : BitVec 22) : Word := BitVec.ofInt 64 (16 * (s.fseat.pc.toNat : Int) + 16 * off.toInt)

def execBra (off : BitVec 22) (g : BitVec 4) (s : State) := slotOp g [] [] (fun s => s.branchTo (s.target off)) s
/-- R316: CALL writes the address of the bundle that would have followed. -/
def execCall (off : BitVec 22) (g : BitVec 4) (s : State) :=
  slotOp g [] [.s 62] (fun s => do
    let t ← s.branchTo (s.target off)
    .ok (t.wS 62 (pcWord s.focus.seqNext) .full)) s
/-- R317: bits 3:0 of the register are taken as zero. -/
def execBrar (a : BitVec 6) (g : BitVec 4) (s : State) :=
  slotOp g [.s a] [] (fun s => s.branchTo (s.rS a &&& 0xFFFFFFFFFFFFFFF0#64)) s
def execRet (g : BitVec 4) (s : State) :=
  slotOp g [.s 62] [] (fun s => s.branchTo (s.rS 62 &&& 0xFFFFFFFFFFFFFFF0#64)) s

/-! The counted loop. -/

/-- R284: LOOP. -/
def execLoop (a : BitVec 6) (sm1 : BitVec 3) (len : BitVec 13) (s : State) :=
  slotOp 0 [.s a] [] (fun s =>
    let c := (s.rS a).toNat
    let start := s.focus.seqNext
    if stageAct s.src.ctl.stage then raiseX 0x04 0
    else if 2 ^ 24 - 1 < c then raiseX 0x04 0
    else if c = 0 then .ok (s.modF (fun t => { t with npc := start + len.zeroExtend 51 }))
    else .ok (s.modCtl (fun r => { r with stage := mkStage true sm1.toNat 0 c, loopb := len ++ start }))) s

/-- R283: the rotation at an iteration boundary. -/
def rotate (r : W32) : W32 := if rotSize r = 0 then r else mkRot ((rotRb r + rotSize r - 1) % rotSize r) (rotSize r)

/-- R284: the iteration boundary after the body's last position. -/
def CtlRegs.boundary (c : CtlRegs) : CtlRegs × Bool :=
  let c := { c with rot := rotate c.rot }
  if stageIter c.stage + 1 < stageCnt c.stage + (stageSm1 c.stage + 1) - 1 then
    ({ c with stage := mkStage true (stageSm1 c.stage) (stageIter c.stage + 1) (stageCnt c.stage) }, true)
  else ({ c with stage := stageOff c.stage }, false)

/-! Control registers. -/

/-- R229: an entry of the LCID map. -/
def State.lcidEntry (s : State) (i : Nat) : W32 := aget (BitVec.ofNat 32 (0x80000000 + i)) i s.fe.lcid
def lcidValid (e : W32) : Bool := e.getLsbD 31
def lcidPhys (e : W32) : Nat := (e.extractLsb' 0 9).toNat
/-- R228, R229: the logical identity of a core, or none for a spare. -/
def State.lcidOf (s : State) (core : Nat) : Option Nat :=
  match s.fe.lcid.find? (fun e => lcidValid e.2 && lcidPhys e.2 == core) with
  | some e => some e.1
  | none => if (alook core s.fe.lcid).isNone && decide (core < 400) then some core else none

/-- R465: whether a core is visible. -/
def State.visible (s : State) (core : Nat) : Bool := !(aget false core s.topo.hidden)
def State.ncore (s : State) : Nat := 400 - (s.topo.hidden.filter (·.2)).length
def State.nclus (s : State) : Nat := ((List.range 40).filter (fun c => (List.range 10).any (fun k => s.visible (10 * c + k)))).length
def State.ndie (s : State) : Nat := ((List.range 4).filter (fun d => (List.range 100).any (fun k => s.visible (100 * d + k)))).length
/-- R230: the value of TOPO. -/
def State.topoWord (s : State) : Word :=
  s.topo.gen ++ (0#7 ++ (BitVec.ofNat 9 s.ncore ++ (0#10 ++ (BitVec.ofNat 6 s.nclus ++ (0#13 ++ BitVec.ofNat 3 s.ndie)))))

/-- R502: the time unit, in nanoseconds. -/
def State.ptpNs (s : State) : Nat := ((s.net.timeNs : Int) + s.net.timeOffset).toNat
/-- R290: the value of PTPTIME. -/
def State.ptpWord (s : State) : Word := BitVec.ofNat 32 (s.ptpNs / 1000000000) ++ BitVec.ofNat 32 (s.ptpNs % 1000000000)

/-- R290: the value of PHASECTL. -/
def State.phaseWord (s : State) : W32 :=
  BitVec.ofNat 32 (s.fcore.psq s.focus.seat * 256 + (if s.fseat.pair.isSome then 2 else 0) + (if s.src.ctl.phaseEn then 1 else 0))

/-- R466: the core whose identity the seat in focus has: a shadow its primary's. -/
def State.idCore (s : State) : Nat :=
  match s.fseat.pair with
  | some (n, false) => n
  | _ => s.focus.core

/-- R207: GCOORD with the current physical core and seat. -/
def State.gcoordWord (s : State) : Word :=
  (s.src.ctl.gcoord &&& 0xFFFFE00CFFFFFFFF#64) ||| BitVec.ofNat 64 (s.idCore % 512 * 2 ^ 36 + s.focus.seat % 2 * 2 ^ 32)

/-- R288, R289: the value of a control register in effect at this bundle. -/
def State.crRead (s : State) (cr : BitVec 12) : Word :=
  let c := s.src.ctl
  match cr.toNat with
  | 0x000 => c.shape.zeroExtend 64
  | 0x001 => c.efr.zeroExtend 64
  | 0x002 => c.rot.zeroExtend 64
  | 0x003 => c.role.zeroExtend 64
  | 0x004 => c.ctabsel.zeroExtend 64
  | 0x005 => c.vflags.zeroExtend 64
  | 0x006 => c.repthr.zeroExtend 64
  | 0x007 => c.kvseq.zeroExtend 64
  | 0x008 => c.stage
  | 0x009 => c.loopb
  | 0x00A => s.phaseWord.zeroExtend 64
  | 0x00B => s.fcore.age.zeroExtend 64
  | 0x010 => BitVec.ofNat 64 ((s.lcidOf s.idCore).getD 0)
  | 0x011 => s.topoWord
  | 0x012 => c.spwin.zeroExtend 64
  | 0x013 => c.asid.zeroExtend 64
  | 0x014 => s.gcoordWord
  | 0x020 => c.trapvec
  | 0x021 => c.cause.zeroExtend 64
  | 0x022 => c.faddr
  | 0x023 => c.snapbase
  | 0x024 => c.epc
  | 0x030 => BitVec.ofNat 64 s.cycle
  | 0x031 => s.ptpWord
  | _ => 0

/-- R285, R288, R289: the control registers that no seat may write. -/
def crReadOnly (cr : BitVec 12) : Bool :=
  [0x008, 0x009, 0x010, 0x011, 0x013, 0x014, 0x021, 0x022, 0x030, 0x031].contains cr.toNat

/-- R71: the EFR's writable bits. -/
def efrMask : W32 := 0x1777#32

/-- R71: an EFR write of the seat in focus, in effect from bundle b + 3. -/
def State.efrWrite (s : State) (v : W32) : State :=
  s.modF (fun t => { t with efrPend := t.efrPend ++ [(t.issued + 3, v &&& efrMask)] })

/-- R288 to R290: a write of a control register that the seat may write. -/
def State.crWrite (s : State) (cr : BitVec 12) (v : Word) : Run :=
  let w : W32 := v.extractLsb' 0 32
  match cr.toNat with
  | 0x000 =>
    let r := (w.extractLsb' 8 8).toNat
    let c := (w.extractLsb' 0 8).toNat
    if 1 ≤ r ∧ r ≤ 64 ∧ 1 ≤ c ∧ c ≤ 64 then .ok (s.modCtl (fun x => { x with shape := w &&& 0xFFFF#32 }))
    else raiseX 0x13 (BitVec.ofNat 64 (r * 65536 + c * 256))
  | 0x001 => .ok (s.efrWrite w)
  | 0x002 =>
    let size := rotSize w
    if stageAct s.src.ctl.stage ∨ !(size == 0 || size == 8 || size == 16) then raiseX 0x14 (v &&& 0xFFFFFFFF#64)
    else .ok (s.modCtl (fun x => { x with rot := mkRot 0 size }))
  | 0x003 => .ok (if w.extractLsb' 0 2 = 3 then s else s.modCtl (fun x => { x with role := w &&& 3#32 }))
  | 0x004 => .ok (s.modCtl (fun x => { x with ctabsel := w &&& 3#32 }))
  | 0x005 => .ok (s.modCtl (fun x => { x with vflags := w &&& 0x1F#32 }))
  | 0x006 => .ok (s.modCtl (fun x => { x with repthr := w }))
  | 0x007 => .ok (s.modCtl (fun x => { x with kvseq := w }))
  | 0x00A =>
    if s.fseat.pair.isSome ∨ w.getLsbD 0 = s.src.ctl.phaseEn then .ok s
    else
      let s := if s.src.ctl.phaseEn then s.commitF else s.commit s.focus.core s.focus.seat
      .ok (s.modCtl (fun x => { x with phaseEn := w.getLsbD 0 }))
  | 0x00B => .ok (s.modFcore (fun c => { c with age := if w.extractLsb' 0 8 = 0 then 1 else w.extractLsb' 0 8 }))
  | 0x012 => .ok (if w.getLsbD 31 then s.modCtl (fun x => { x with spwin := x.spwin &&& 0x7FFFFFFF#32 }) else s)
  | 0x020 => .ok (s.modCtl (fun x => { x with trapvec := v &&& 0x007FFFFFFFFFFFF0#64 }))
  | 0x023 => .ok (s.modCtl (fun x => { x with snapbase := v &&& 0x007FFFFFFFFFFFC0#64 }))
  | 0x024 => .ok (s.modCtl (fun x => { x with epc := v &&& 0x007FFFFFFFFFFFF0#64 }))
  | _ => .ok s

/-- R288: an access of VFLAGS waits for the seat's earlier V-slot operations and vector loads. -/
def State.awaitV (s : State) (cr : BitVec 12) : Except Stop Unit :=
  if cr ≠ 5 then .ok () else
  let fill (r : BitVec 8) : Fill :=
    let k := (r.extractLsb' 0 6).toNat
    if r.extractLsb' 6 2 = 2 then (aget vreg0 k s.src.regs.v).fill else (aget sreg0 k s.src.regs.s).fill
  let name (r : BitVec 8) : BitVec 8 := if r.extractLsb' 6 2 = 2 then vnum (vname s.src.ctl.rot (r.extractLsb' 0 6).toNat) else r
  let await (r : BitVec 8) : Except Stop Unit := .error (.stall { reg := some (name r), waitv := none })
  match s.fseat.vBusy.find? (fun e => (fill e.1).due == e.2 && (fill e.1).empty s.fseat.issued) with
  | some e => await e.1
  | none =>
    match s.opsBefore.findSome? (fun e => match e.2 with
      | .vload o => if o.seat = s.focus.seat then some o.reg else none
      | _ => none) with
    | some k => await (vnum k)
    | none => .ok ()

def execCtlr (d : BitVec 6) (cr : BitVec 12) (s : State) :=
  slotOp 0 [] [.s d] (fun s => do
    s.awaitV cr
    .ok (s.wS d (s.crRead cr) .full)) s
/-- R288: a write of a read-only register raises PRIVILEGED with the register's number (R431). -/
def execCtlw (a : BitVec 6) (cr : BitVec 12) (s : State) :=
  slotOp 0 [.s a] [] (fun s =>
    if crReadOnly cr then raiseX 0x02 (cr.zeroExtend 64) else s.crWrite cr (s.rS a)) s
def execCtlx (d a : BitVec 6) (cr : BitVec 12) (s : State) :=
  slotOp 0 [.s a] [.s d] (fun s => do
    if crReadOnly cr then raiseX 0x02 (cr.zeroExtend 64) else
    s.awaitV cr
    let t ← s.crWrite cr (s.rS a)
    .ok (t.wS d (s.crRead cr) .full)) s

/-! Traps. -/

/-- R323, R433 item 1: the trap is taken at the boundary that follows the bundle. -/
def execTrap (imm : BitVec 18) (g : BitVec 4) (s : State) :=
  slotOp g [] [] (fun s =>
    let e : Entry := { cause := 0x05, faddr := imm.zeroExtend 64, slot := 0, pblk := false, epc := s.focus.seqNext }
    .ok (s.modF (fun t => { t with deferred := some e }))) s

/-- The physical block addresses of a run of whole blocks. -/
def blockTags (ps : List Piece) (t : BitVec 16) : List (Nat × BitVec 3 × BitVec 16) :=
  ps.flatMap (fun p => (List.range (p.len / 64)).map (fun i => (p.pa + 64 * i, pteCp p.leaf.entry, t)))

/-- R324: stores the live buffer at SNAPBASE. -/
def execSnapst (g : BitVec 4) (s : State) :=
  slotOp g [] [] (fun s =>
    match s.fseat.live with
    | none => .ok s
    | some b => do
      let va := s.src.ctl.snapbase
      let ps ← s.seatPieces va 256 .write
      s.awaitSo ps
      let t ← (s.install true ps).storeScalar va ps b (blockTags ps 0)
      .ok ((t.modF (fun x => { x with snapDone := true })).trace s.focus.core s.focus.seat 3 va)) s

/-- R325: clears TM once a SNAPST has issued since the trap entry. -/
def execSnaprel (g : BitVec 4) (s : State) :=
  slotOp g [] [] (fun s => .ok (if s.fseat.snapDone then s.modF (fun t => { t with tm := false }) else s)) s

/-- R326, R438: the return from a handler. A register of s56 to s63 that is still empty stalls it. -/
def execEret (g : BitVec 4) (s : State) :=
  slotOp g [] ((List.range 8).map (fun i => .s (BitVec.ofNat 6 (56 + i)))) (fun s =>
    let t := s.fseat
    let base := s.src.ctl.snapbase
    if s.srcTm then
      let b := t.live.getD (List.replicate 256 0)
      if snapOk s.src.ctl.rot b then
        .ok (s.setF ((t.restore b).leaveTrap (s.src.ctl.epc.extractLsb' 4 51)))
      else raiseX 0x06 base
    else do
      let ps ← s.seatPieces base 256 .read
      let b ← s.readScalar ps
      let bad := s.poisonHit ps
      let s' := s.installRead ps
      -- R455: of a read that has consumed an error the scalar destinations s56 to s63 receive 0
      let b := if bad.isSome then b.take 0x28 ++ List.replicate 64 0 ++ b.drop 0x68 else b
      let s' := match bad with
        | some pa => s'.consumeF (s.structF pa) pa
        | none => s'
      if snapOk s.src.ctl.rot b then
        .ok (s'.setF ((s'.fseat.restore b).leaveTrap (BitVec.ofNat 51 (bytesToNat (b.take 8) / 16))))
      else raiseX 0x06 base) s

/-! Suspension and HALT. -/

/-- R213, R322: SUSPEND and YIELD have no effect, and suspend forms are stall forms. -/
def State.staysPut (s : State) : Bool := s.fseat.pers || s.srcTm

/-- R396: HALT and every suspension point wait until the sequencer has issued its last step. -/
def State.awaitOwnSeq (s : State) : Except Stop Unit := if s.fseat.seq.isSome then stallX else .ok ()

/-- R211, R327: SUSPEND writes its record to memory at s6. -/
def execSuspend (g : BitVec 4) (s : State) :=
  slotOp g [] [] (fun s =>
    if s.staysPut then .ok s else do
    s.stallAlways [.s 6]
    s.readCauses [.s 6]
    if stageAct s.src.ctl.stage then raiseX 0x04 0
    else
      let a := s.rS 6
      if a.toNat % 128 ≠ 0 then raiseX 0x26 (transFaddr 0 .write a.toNat) else do
      s.awaitOwnSeq
      let ps ← s.seatPieces a 128 .write
      s.awaitSo ps
      let p := nth { va := a, pa := 0, len := 128, leaf := { entry := 0, level := 3, at_ := 0, path := [] } } 0 ps
      let s : State := s.install true ps
      .ok (s.beginLeave s.focus.core s.focus.seat (.suspend p.pa (pteCp p.leaf.entry)))) s

/-- R327: YIELD. -/
def execYield (g : BitVec 4) (s : State) :=
  slotOp g [] [] (fun s =>
    if s.staysPut then .ok s
    else if stageAct s.src.ctl.stage then raiseX 0x04 0
    else do
      s.awaitOwnSeq
      .ok (s.beginLeave s.focus.core s.focus.seat .yield)) s

/-- R328, R495: HALT; after a failed posted store it raises HOST_ERROR, which its task records. -/
def execHalt (g : BitVec 4) (s : State) :=
  slotOp g [] [] (fun s =>
    match s.fseat.hostFailed with
    | some f => .error (.raiseIn ((s.entryFault s.fseat.cont.tag 0x28).modF (fun t => { t with hostFailed := none })) 0x28 f)
    | none => if !s.hostAcked (fun _ => true) then stallX else do
      s.awaitOwnSeq
      .ok (s.beginLeave s.focus.core s.focus.seat .halt)) s

/-! Timelines. -/

/-- R329, R258: whether a WAITTL is satisfied. -/
def State.waittlDone (s : State) (a : BitVec 6) (tl : BitVec 12) (cert : BitVec 1) : Bool :=
  s.tlReached tl.toNat (cert == 1) (s.rS a)

def execWaittl (a : BitVec 6) (tl : BitVec 12) (cert : BitVec 1) (g : BitVec 4) (s : State) :=
  slotOp g [.s a] [] (fun s => if s.waittlDone a tl cert then .ok s else stallX) s
/-- R329, R208: the suspend form. -/
def execWaittlSusp (a : BitVec 6) (tl : BitVec 12) (cert : BitVec 1) (g : BitVec 4) (s : State) :=
  slotOp g [.s a] [] (fun s =>
    if s.staysPut then (if s.waittlDone a tl cert then .ok s else stallX)
    else if stageAct s.src.ctl.stage then raiseX 0x04 0
    else if s.waittlDone a tl cert then .ok s
    else do
      s.awaitOwnSeq
      .error (.suspend (.timeline tl.toNat (cert == 1) (s.rS a)) 0 0)) s

/-- R330: SIGTL. -/
def execSigtl (a : BitVec 6) (tl : BitVec 12) (g : BitVec 4) (s : State) :=
  slotOp g [.s a] [] (fun s =>
    match (if tl.toNat < 0x400 then alook tl.toNat s.fe.owner else none) with
    | none => raiseX 0x02 (tl.zeroExtend 64)
    | some o =>
      if o.1 ≠ s.fasid then raiseX 0x02 (tl.zeroExtend 64) else do
      let inc : Nat := if a = 0 then 1 else ((s.rS a).extractLsb' 0 32).toNat
      let s := s.commitF
      if !s.drained (fun _ => true) o.2 || (o.2 == 5 && !s.hostQuiet) then holdX s else do
      s.hostFailCheck (o.2 == 5)
      if inc = 0 then .ok s
      else if !s.certRoom tl.toNat then stallX
      else
        .ok (s.increment tl.toNat inc (s.fseat.runsOn s.focus.core) 0)) s

end Sys2Proof.Machine
end

