-- ==== Sys2Proof/Machine/Vector.lean ====
section
/-! DEFINITION. The V position: run registers, the element-wise rule, arithmetic, compares, conversions, reductions, run
management, permutes and the combining of attention partials (R332 to R355). -/

namespace Sys2Proof.Machine

/-- R332: the logical length. -/
def VReg.ll (v : VReg) : Nat := v.rows * v.cols
/-- R332: the occupancy. -/
def VReg.occ (v : VReg) : Nat := v.runs.length
/-- The elements of runs laid end to end. -/
def expand (r : Runs) : List W32 := r.flatMap (fun x => List.replicate x.2 x.1)
/-- The value of element k. -/
def runAt : Runs → Nat → W32
  | [], _ => 0
  | (v, n) :: r, k => if k < n then v else runAt r (k - n)

/-- R335: RUN_OVERFLOW when a result needs more than 1,024 runs. -/
def runLimit (n : Nat) : Except Stop Unit := if 1024 < n then raiseX 0x12 (BitVec.ofNat 64 n) else .ok ()

/-- R335: FADDR of SHAPE_MISMATCH. -/
def shapeAddr (r c n : Nat) : Word := BitVec.ofNat 64 (r * 65536 + c * 256 + n)
def needShape (sh : Nat × Nat) (n : BitVec 5) (v : VReg) : Except Stop Unit :=
  if (v.rows, v.cols) = sh then .ok () else raiseX 0x13 (shapeAddr v.rows v.cols n.toNat)

/-- R290: SHAPE as rows and columns. -/
def State.shape (s : State) : Nat × Nat := ((s.src.ctl.shape.extractLsb' 8 8).toNat, (s.src.ctl.shape.extractLsb' 0 8).toNat)

/-- R62: flags are ORed into VFLAGS. -/
def State.orFlags (s : State) (f : VF) : State :=
  s.modCtl (fun c => { c with vflags := c.vflags ||| f.zeroExtend 32 })

/-- Writes a run register result of a fixed distance (R339). -/
def State.putV (s : State) (d : BitVec 5) (dist : Nat) (rows cols : Nat) (r : Runs) : State :=
  (s.wV d { rows := rows, cols := cols, runs := r, fill := s.after dist }).noteV (vnum (vphys s.src.ctl.rot d.toNat)) dist

/-- R288, R303: a scalar result of a V-slot operation, full two bundles on. -/
def State.wSV (s : State) (d : BitVec 6) (v : Word) : State := (s.wS d v (s.after 2)).noteV (0#2 ++ d) 2

/-! The element-wise rule. -/

/-- R336: the ranges between successive run boundaries of several registers, each with the values that hold there. -/
def align : Nat → List Runs → List (List W32 × Nat)
  | 0, _ => []
  | fuel + 1, rs =>
    match rs with
    | [] => []
    | r0 :: rest =>
      match r0 with
      | [] => []
      | (_, n0) :: _ =>
        let n := rest.foldl (fun m r => Nat.min m (match r with
          | (_, k) :: _ => k
          | [] => m)) n0
        let vals := rs.map (fun r => match r with
          | (v, _) :: _ => v
          | [] => 0)
        let next := rs.map (fun r => match r with
          | (v, k) :: t => if k ≤ n then t else (v, k - n) :: t
          | [] => [])
        (vals, n) :: align fuel next

/-- R336: the segments of several registers. -/
def segments_ (rs : List Runs) : List (List W32 × Nat) := align (rs.foldl (fun n r => n + r.length) 1) rs

/-- An operation on the values at a segment: its result and flags. -/
abbrev VOp := List W32 → W32 × VF

/-- R336: an element-wise instruction over its sources (register sources with their names, or constant runs), an optional
mask and the old destination for merging. -/
def ewCompute (op : VOp) (xs : List Runs) (mask : Option Runs) (old : Option Runs) : Except Stop (Runs × VF) :=
  let mr := mask.toList
  let orr := if mask.isSome then old.toList else []
  let segs := segments_ (xs ++ mr ++ orr)
  let n := xs.length
  let one (g : List W32 × Nat) : (W32 × Nat) × VF :=
    let on := match mask with
      | some _ => maskTrue (nth 0 n g.1)
      | none => true
    if on then
      let r := op (g.1.take n)
      ((r.1, g.2), r.2)
    else ((if old.isSome then nth 0 (n + 1) g.1 else 0, g.2), 0)
  match runLimit segs.length with
  | .error e => .error e
  | .ok _ =>
    let rs := segs.map one
    .ok (rs.map (·.1), rs.foldl (fun f r => f ||| r.2) 0)

/-- A mask operand (R273): vm = 0 names no mask. -/
def maskReg (vm : BitVec 5) : Option (BitVec 5) := if vm = 0 then none else some vm

/-- R336 in full: shape checks in the order of the operands, the computation, and the result under the shape. -/
def ew (op : VOp) (sh : Nat × Nat) (vd : BitVec 5) (xs : List (BitVec 5)) (more : List Runs) (vm : BitVec 5) (mz : BitVec 1)
    (dist : Nat) (s : State) : Run := do
  let mask := maskReg vm
  let merge := mask.isSome && mz == 0
  let regs := xs ++ mask.toList ++ (if merge then [vd] else [])
  regs.forM (fun n => needShape sh n (s.rV n))
  let r ← ewCompute op (xs.map (fun n => (s.rV n).runs) ++ more) (mask.map (fun n => (s.rV n).runs))
    (if merge then some (s.rV vd).runs else none)
  .ok ((s.putV vd dist sh.1 sh.2 r.1).orFlags r.2)

/-- R338: the sources of a VR or VS instruction in the positions of its trap bits, with the merged old destination. -/
def none_ : Src := .p 0
def maskSrcs (a b : Src) (vd vm : BitVec 5) (mz : BitVec 1) : List Src :=
  [a, b, if vm = 0 then none_ else .v vm] ++ (if vm != 0 && mz == 0 then [.v vd] else [])

/-- A maskable instruction of two run registers. -/
def vbin (op : W32 → W32 → W32 × VF) (dist : Nat) (vd va vb vm : BitVec 5) (mz : BitVec 1) (g : BitVec 4) (s : State) :
    Host.Outcome State Fault Refusal :=
  slotOp g (maskSrcs (.v va) (.v vb) vd vm mz) [.v vd] (fun s =>
    ew (fun x => op (nth 0 0 x) (nth 0 1 x)) s.shape vd [va, vb] [] vm mz dist s) s

/-- A maskable instruction of one run register. -/
def vun (op : W32 → W32 × VF) (dist : Nat) (vd va vm : BitVec 5) (mz : BitVec 1) (g : BitVec 4) (s : State) :
    Host.Outcome State Fault Refusal :=
  slotOp g (maskSrcs (.v va) none_ vd vm mz) [.v vd] (fun s =>
    ew (fun x => op (nth 0 0 x)) s.shape vd [va] [] vm mz dist s) s

/-- R337: a scalar-broadcast form, under the shape of va. -/
def vbc (op : W32 → W32 → W32 × VF) (dist : Nat) (vd va : BitVec 5) (sb : BitVec 6) (vm : BitVec 5) (mz : BitVec 1)
    (g : BitVec 4) (s : State) : Host.Outcome State Fault Refusal :=
  slotOp g (maskSrcs (.v va) (.s sb) vd vm mz) [.v vd] (fun s =>
    let a := s.rV va
    ew (fun x => op (nth 0 0 x) (nth 0 1 x)) (a.rows, a.cols) vd [va] [[((s.rS sb).extractLsb' 0 32, a.ll)]] vm mz dist s) s

/-- An unmasked instruction of three run registers. -/
def vtri (op : W32 → W32 → W32 → W32 × VF) (dist : Nat) (vd va vb vc : BitVec 5) (g : BitVec 4) (s : State) :
    Host.Outcome State Fault Refusal :=
  slotOp g [.v va, .v vb, .v vc] [.v vd] (fun s =>
    ew (fun x => op (nth 0 0 x) (nth 0 1 x) (nth 0 2 x)) s.shape vd [va, vb, vc] [] 0 0 dist s) s

/-- An integer or bit operation: no flags (R343). -/
def noFlag (f : W32 → W32 → W32) (a b : W32) : W32 × VF := (f a b, 0)
/-- R343: a shift amount is b[4:0]. -/
def sh5 (b : W32) : Nat := b.toNat % 32
def iAdd := noFlag (fun a b => a + b)
def iSub := noFlag (fun a b => a - b)
def iMul := noFlag (fun a b => a * b)
def iAnd := noFlag (fun a b => a &&& b)
def iOr := noFlag (fun a b => a ||| b)
def iXor := noFlag (fun a b => a ^^^ b)
def iShl := noFlag (fun a b => a <<< sh5 b)
def iShr := noFlag (fun a b => a >>> sh5 b)

/-! Moves, constants and single elements (R340). -/

def execVmov (vd va vm : BitVec 5) (mz : BitVec 1) (g : BitVec 4) (s : State) :=
  if vm = 0 then
    slotOp g [.v va] [.v vd] (fun s =>
      let a := s.rV va
      .ok (s.putV vd 2 a.rows a.cols a.runs)) s
  else vun (fun x => (x, 0)) 2 vd va vm mz g s
def execVsplat (vd : BitVec 5) (sb : BitVec 6) (vm : BitVec 5) (mz : BitVec 1) (g : BitVec 4) (s : State) :=
  slotOp g (maskSrcs none_ (.s sb) vd vm mz) [.v vd] (fun s =>
    let sh := s.shape
    ew (fun x => (nth 0 0 x, 0)) sh vd [] [[((s.rS sb).extractLsb' 0 32, sh.1 * sh.2)]] vm mz 2 s) s
def execViota (vd vm : BitVec 5) (mz : BitVec 1) (g : BitVec 4) (s : State) :=
  slotOp g (maskSrcs none_ none_ vd vm mz) [.v vd] (fun s =>
    let sh := s.shape
    ew (fun x => (nth 0 0 x, 0)) sh vd [] [(List.range (sh.1 * sh.2)).map (fun k => (BitVec.ofNat 32 k, 1))] vm mz 2 s) s
def execVextr (sd : BitVec 6) (va : BitVec 5) (sb : BitVec 6) (g : BitVec 4) (s : State) :=
  slotOp g [.v va, .s sb] [.s sd] (fun s =>
    let a := s.rV va
    let k := (s.rS sb).toNat
    .ok (s.wSV sd (if k < a.ll then (runAt a.runs k).zeroExtend 64 else 0))) s

/-- R340: the runs with element k replaced; its run splits into at most three pieces. -/
def setElem (x : W32) : Runs → Nat → Runs
  | [], _ => []
  | (v, n) :: r, k =>
    if k < n then (if k = 0 then [] else [(v, k)]) ++ [(x, 1)] ++ (if k + 1 = n then [] else [(v, n - k - 1)]) ++ r
    else (v, n) :: setElem x r (k - n)

def execVins (vd : BitVec 5) (sb sc : BitVec 6) (g : BitVec 4) (s : State) :=
  slotOp g [.v vd, .s sb, .s sc] [.v vd] (fun s => do
    let a := s.rV vd
    let k := (s.rS sb).toNat
    let r := if k < a.ll then setElem ((s.rS sc).extractLsb' 0 32) a.runs k else a.runs
    runLimit r.length
    .ok (s.putV vd 2 a.rows a.cols r)) s

/-! Arithmetic (R341 to R343). -/

def execVadd (vd va vb vm : BitVec 5) (mz : BitVec 1) (g : BitVec 4) (s : State) := vbin fAdd 3 vd va vb vm mz g s
def execVsub (vd va vb vm : BitVec 5) (mz : BitVec 1) (g : BitVec 4) (s : State) := vbin fSub 3 vd va vb vm mz g s
def execVmul (vd va vb vm : BitVec 5) (mz : BitVec 1) (g : BitVec 4) (s : State) := vbin fMul 4 vd va vb vm mz g s
def execVfma (vd va vb vc : BitVec 5) (g : BitVec 4) (s : State) := vtri fFma 4 vd va vb vc g s
def execVfms (vd va vb vc : BitVec 5) (g : BitVec 4) (s : State) := vtri fFms 4 vd va vb vc g s
def execVmin (vd va vb vm : BitVec 5) (mz : BitVec 1) (g : BitVec 4) (s : State) := vbin fMin 2 vd va vb vm mz g s
def execVmax (vd va vb vm : BitVec 5) (mz : BitVec 1) (g : BitVec 4) (s : State) := vbin fMax 2 vd va vb vm mz g s
def execVdiv (vd va vb vm : BitVec 5) (mz : BitVec 1) (g : BitVec 4) (s : State) := vbin fDiv 12 vd va vb vm mz g s
def execViadd (vd va vb vm : BitVec 5) (mz : BitVec 1) (g : BitVec 4) (s : State) := vbin iAdd 2 vd va vb vm mz g s
def execVisub (vd va vb vm : BitVec 5) (mz : BitVec 1) (g : BitVec 4) (s : State) := vbin iSub 2 vd va vb vm mz g s
def execVimul (vd va vb vm : BitVec 5) (mz : BitVec 1) (g : BitVec 4) (s : State) := vbin iMul 3 vd va vb vm mz g s
def execVand (vd va vb vm : BitVec 5) (mz : BitVec 1) (g : BitVec 4) (s : State) := vbin iAnd 2 vd va vb vm mz g s
def execVor (vd va vb vm : BitVec 5) (mz : BitVec 1) (g : BitVec 4) (s : State) := vbin iOr 2 vd va vb vm mz g s
def execVxor (vd va vb vm : BitVec 5) (mz : BitVec 1) (g : BitVec 4) (s : State) := vbin iXor 2 vd va vb vm mz g s
def execVshl (vd va vb vm : BitVec 5) (mz : BitVec 1) (g : BitVec 4) (s : State) := vbin iShl 2 vd va vb vm mz g s
def execVshr (vd va vb vm : BitVec 5) (mz : BitVec 1) (g : BitVec 4) (s : State) := vbin iShr 2 vd va vb vm mz g s

def execVaddBcast (vd va : BitVec 5) (sb : BitVec 6) (vm : BitVec 5) (mz : BitVec 1) (g : BitVec 4) (s : State) := vbc fAdd 3 vd va sb vm mz g s
def execVsubBcast (vd va : BitVec 5) (sb : BitVec 6) (vm : BitVec 5) (mz : BitVec 1) (g : BitVec 4) (s : State) := vbc fSub 3 vd va sb vm mz g s
def execVmulBcast (vd va : BitVec 5) (sb : BitVec 6) (vm : BitVec 5) (mz : BitVec 1) (g : BitVec 4) (s : State) := vbc fMul 4 vd va sb vm mz g s
def execVminBcast (vd va : BitVec 5) (sb : BitVec 6) (vm : BitVec 5) (mz : BitVec 1) (g : BitVec 4) (s : State) := vbc fMin 2 vd va sb vm mz g s
def execVmaxBcast (vd va : BitVec 5) (sb : BitVec 6) (vm : BitVec 5) (mz : BitVec 1) (g : BitVec 4) (s : State) := vbc fMax 2 vd va sb vm mz g s
def execVdivBcast (vd va : BitVec 5) (sb : BitVec 6) (vm : BitVec 5) (mz : BitVec 1) (g : BitVec 4) (s : State) := vbc fDiv 12 vd va sb vm mz g s
def execViaddBcast (vd va : BitVec 5) (sb : BitVec 6) (vm : BitVec 5) (mz : BitVec 1) (g : BitVec 4) (s : State) := vbc iAdd 2 vd va sb vm mz g s
def execVisubBcast (vd va : BitVec 5) (sb : BitVec 6) (vm : BitVec 5) (mz : BitVec 1) (g : BitVec 4) (s : State) := vbc iSub 2 vd va sb vm mz g s
def execVimulBcast (vd va : BitVec 5) (sb : BitVec 6) (vm : BitVec 5) (mz : BitVec 1) (g : BitVec 4) (s : State) := vbc iMul 3 vd va sb vm mz g s
def execVandBcast (vd va : BitVec 5) (sb : BitVec 6) (vm : BitVec 5) (mz : BitVec 1) (g : BitVec 4) (s : State) := vbc iAnd 2 vd va sb vm mz g s
def execVorBcast (vd va : BitVec 5) (sb : BitVec 6) (vm : BitVec 5) (mz : BitVec 1) (g : BitVec 4) (s : State) := vbc iOr 2 vd va sb vm mz g s
def execVxorBcast (vd va : BitVec 5) (sb : BitVec 6) (vm : BitVec 5) (mz : BitVec 1) (g : BitVec 4) (s : State) := vbc iXor 2 vd va sb vm mz g s
def execVshlBcast (vd va : BitVec 5) (sb : BitVec 6) (vm : BitVec 5) (mz : BitVec 1) (g : BitVec 4) (s : State) := vbc iShl 2 vd va sb vm mz g s
def execVshrBcast (vd va : BitVec 5) (sb : BitVec 6) (vm : BitVec 5) (mz : BitVec 1) (g : BitVec 4) (s : State) := vbc iShr 2 vd va sb vm mz g s

def execVabs (vd va vm : BitVec 5) (mz : BitVec 1) (g : BitVec 4) (s : State) := vun fAbs 2 vd va vm mz g s
def execVneg (vd va vm : BitVec 5) (mz : BitVec 1) (g : BitVec 4) (s : State) := vun fNeg 2 vd va vm mz g s
def execVrcp (vd va vm : BitVec 5) (mz : BitVec 1) (g : BitVec 4) (s : State) := vun fRcp 6 vd va vm mz g s
def execVrsq (vd va vm : BitVec 5) (mz : BitVec 1) (g : BitVec 4) (s : State) := vun fRsq 6 vd va vm mz g s
def execVsqrt (vd va vm : BitVec 5) (mz : BitVec 1) (g : BitVec 4) (s : State) := vun fSqrt 12 vd va vm mz g s
def execVexp2 (vd va vm : BitVec 5) (mz : BitVec 1) (g : BitVec 4) (s : State) := vun fExp2 6 vd va vm mz g s
def execVlog2 (vd va vm : BitVec 5) (mz : BitVec 1) (g : BitVec 4) (s : State) := vun fLog2 6 vd va vm mz g s

/-! Compare, select, convert (R344 to R346). -/

/-- R344: a compare, unmasked. -/
def vcmp (op : W32 → W32 → W32 × VF) (vd va vb : BitVec 5) (g : BitVec 4) (s : State) : Host.Outcome State Fault Refusal :=
  vbin op 2 vd va vb 0 0 g s
def execVcmpEq (vd va vb : BitVec 5) (g : BitVec 4) (s : State) := vcmp cmpEq32 vd va vb g s
def execVcmpNe (vd va vb : BitVec 5) (g : BitVec 4) (s : State) := vcmp cmpNe32 vd va vb g s
def execVcmpLt (vd va vb : BitVec 5) (g : BitVec 4) (s : State) := vcmp cmpLt32 vd va vb g s
def execVcmpLe (vd va vb : BitVec 5) (g : BitVec 4) (s : State) := vcmp cmpLe32 vd va vb g s
def execVcmpGt (vd va vb : BitVec 5) (g : BitVec 4) (s : State) := vcmp cmpGt32 vd va vb g s
def execVcmpGe (vd va vb : BitVec 5) (g : BitVec 4) (s : State) := vcmp cmpGe32 vd va vb g s
def execVcmpUn (vd va vb : BitVec 5) (g : BitVec 4) (s : State) := vcmp cmpUn32 vd va vb g s
def execVsel (vd va vb vc : BitVec 5) (g : BitVec 4) (s : State) :=
  vtri (fun a b c => (if maskTrue c then a else b, 0)) 2 vd va vb vc g s
def execVcvtFi (vd va vm : BitVec 5) (mz : BitVec 1) (g : BitVec 4) (s : State) := vun cvtFi 3 vd va vm mz g s
def execVcvtFit (vd va vm : BitVec 5) (mz : BitVec 1) (g : BitVec 4) (s : State) := vun cvtFit 3 vd va vm mz g s
def execVcvtIf (vd va vm : BitVec 5) (mz : BitVec 1) (g : BitVec 4) (s : State) := vun cvtIf 3 vd va vm mz g s
def execVcvtFb (vd va vm : BitVec 5) (mz : BitVec 1) (g : BitVec 4) (s : State) := vun cvtFb 3 vd va vm mz g s
def execVcvtFt8 (vd va vm : BitVec 5) (mz : BitVec 1) (g : BitVec 4) (s : State) := vun cvtFt8 3 vd va vm mz g s
def execVcvtFt6 (vd va vm : BitVec 5) (mz : BitVec 1) (g : BitVec 4) (s : State) := vun cvtFt6 3 vd va vm mz g s

/-! Reductions, scans and counts (R347, R348). -/

/-- R347: a reduction's combining step and identity. -/
structure Reduce where
  step : W32 → W32 → W32 × VF
  ident : W32

def redSum : Reduce := { step := fAdd, ident := 0x80000000#32 }
def redMax : Reduce := { step := fMax, ident := 0xFF800000#32 }
def redMin : Reduce := { step := fMin, ident := 0x7F800000#32 }

/-- One level of the tree. -/
def Reduce.level (r : Reduce) : List W32 → List W32 × VF
  | a :: b :: t =>
    let x := r.step a b
    let y := r.level t
    (x.1 :: y.1, x.2 ||| y.2)
  | l => (l, 0)

/-- The levels of the tree down to one value; fuel is their number at most. -/
def Reduce.levels (r : Reduce) : Nat → List W32 → VF → W32 × VF
  | 0, l, f => (nth r.ident 0 l, f)
  | fuel + 1, l, f =>
    match l with
    | [] => (r.ident, f)
    | [x] => (x, f)
    | l =>
      let y := r.level l
      r.levels fuel y.1 (f ||| y.2)

/-- The least power of two that is not below n. -/
def ceilPow2 (n : Nat) : Nat := if n ≤ 1 then 1 else 2 ^ ((n - 1).log2 + 1)

/-- R347: tree. -/
def Reduce.tree (r : Reduce) (l : List W32) : W32 × VF :=
  let y := r.levels 13 (l ++ List.replicate (ceilPow2 l.length - l.length) r.ident) 0
  let z := r.step r.ident y.1
  (z.1, y.2 ||| z.2)

/-- R347: the running values of a scan. -/
def Reduce.scan (r : Reduce) : W32 → List W32 → List W32 × VF
  | _, [] => ([], 0)
  | y, x :: t =>
    let z := r.step y x
    let w := r.scan z.1 t
    (z.1 :: w.1, z.2 ||| w.2)

/-- The rows of a register. -/
def VReg.rowsOf (v : VReg) : List (List W32) := chunks v.cols v.rows (expand v.runs)

def orAll (l : List VF) : VF := l.foldl (fun a b => a ||| b) 0

def vred (r : Reduce) (vd va : BitVec 5) (g : BitVec 4) (s : State) : Host.Outcome State Fault Refusal :=
  slotOp g [.v va] [.v vd] (fun s =>
    let x := r.tree (expand (s.rV va).runs)
    .ok ((s.putV vd 6 1 1 [(x.1, 1)]).orFlags x.2)) s
def vrrow (r : Reduce) (vd va : BitVec 5) (g : BitVec 4) (s : State) : Host.Outcome State Fault Refusal :=
  slotOp g [.v va] [.v vd] (fun s =>
    let a := s.rV va
    let rs := a.rowsOf.map r.tree
    .ok ((s.putV vd 6 a.rows 1 (ofElems (rs.map (·.1)))).orFlags (orAll (rs.map (·.2))))) s
def vscan (r : Reduce) (vd va : BitVec 5) (g : BitVec 4) (s : State) : Host.Outcome State Fault Refusal :=
  slotOp g [.v va] [.v vd] (fun s => do
    let a := s.rV va
    let rs := a.rowsOf.map (r.scan r.ident)
    let out := ofElems (rs.flatMap (·.1))
    runLimit out.length
    .ok ((s.putV vd 8 a.rows a.cols out).orFlags (orAll (rs.map (·.2))))) s

def execVredSum (vd va : BitVec 5) (g : BitVec 4) (s : State) := vred redSum vd va g s
def execVredMax (vd va : BitVec 5) (g : BitVec 4) (s : State) := vred redMax vd va g s
def execVredMin (vd va : BitVec 5) (g : BitVec 4) (s : State) := vred redMin vd va g s
def execVrrowSum (vd va : BitVec 5) (g : BitVec 4) (s : State) := vrrow redSum vd va g s
def execVrrowMax (vd va : BitVec 5) (g : BitVec 4) (s : State) := vrrow redMax vd va g s
def execVrrowMin (vd va : BitVec 5) (g : BitVec 4) (s : State) := vrrow redMin vd va g s
def execVscanSum (vd va : BitVec 5) (g : BitVec 4) (s : State) := vscan redSum vd va g s
def execVscanMax (vd va : BitVec 5) (g : BitVec 4) (s : State) := vscan redMax vd va g s
def execVscanMin (vd va : BitVec 5) (g : BitVec 4) (s : State) := vscan redMin vd va g s

def execVcnt (sd : BitVec 6) (va : BitVec 5) (g : BitVec 4) (s : State) :=
  slotOp g [.v va] [.s sd] (fun s =>
    let n := (s.rV va).runs.foldl (fun n r => if maskTrue r.1 then n + r.2 else n) 0
    .ok (s.wSV sd (BitVec.ofNat 64 n))) s
def execVocc (sd : BitVec 6) (va : BitVec 5) (g : BitVec 4) (s : State) :=
  slotOp g [.v va] [.s sd] (fun s =>
    let a := s.rV va
    .ok (s.wSV sd (BitVec.ofNat 64 (a.rows * 2 ^ 40 + a.cols * 2 ^ 32 + a.ll * 2 ^ 16 + a.occ)))) s

/-! Run management (R349, R350). -/

/-- R349: the ordinal of an FP32 value. -/
def ord32 (x : W32) : Int := if x.getLsbD 31 then -((x.extractLsb' 0 31).toNat : Int) else (x.extractLsb' 0 31).toNat
def special32 (x : W32) : Bool := x.extractLsb' 23 8 == 0xFF#8
/-- R349: whether a later run joins the group of w. -/
def coalJoin (tol : Nat) (w u : W32) : Bool :=
  u == w || (tol != 0 && !special32 u && !special32 w && decide ((ord32 u - ord32 w).natAbs ≤ tol))
def coalesce (tol : Nat) : W32 → Nat → Runs → Runs
  | w, n, [] => [(w, n)]
  | w, n, (u, c) :: r => if coalJoin tol w u then coalesce tol w (n + c) r else (w, n) :: coalesce tol u c r

def execVrcoal (vd va tol : BitVec 5) (g : BitVec 4) (s : State) :=
  slotOp g [.v va] [.v vd] (fun s =>
    let a := s.rV va
    let r := match a.runs with
      | [] => []
      | (w, n) :: t => coalesce tol.toNat w n t
    .ok (s.putV vd 2 a.rows a.cols r)) s
def execVreshape (vd va : BitVec 5) (g : BitVec 4) (s : State) :=
  slotOp g [.v va] [.v vd] (fun s =>
    let a := s.rV va
    let sh := s.shape
    if a.ll = sh.1 * sh.2 then .ok (s.putV vd 2 sh.1 sh.2 a.runs)
    else raiseX 0x13 (shapeAddr a.rows a.cols va.toNat)) s
def execVbrow (vd va : BitVec 5) (g : BitVec 4) (s : State) :=
  slotOp g [.v va] [.v vd] (fun s => do
    let a := s.rV va
    let sh := s.shape
    needShape (1, sh.2) va a
    runLimit (sh.1 * a.occ)
    .ok (s.putV vd 2 sh.1 sh.2 ((List.replicate sh.1 a.runs).flatten))) s
def execVbcol (vd va : BitVec 5) (g : BitVec 4) (s : State) :=
  slotOp g [.v va] [.v vd] (fun s => do
    let a := s.rV va
    let sh := s.shape
    needShape (sh.1, 1) va a
    .ok (s.putV vd 2 sh.1 sh.2 (a.runs.map (fun r => (r.1, r.2 * sh.2))))) s

/-! Permutes and pattern memory (R351 to R354). -/

/-- R351: fields of a header and of a segment word. -/
def patKind (h : W32) : Nat := (h.extractLsb' 28 4).toNat
def patSegs (h : W32) : Nat := (h.extractLsb' 0 7).toNat
def segSrc (w : W32) : Nat := (w.extractLsb' 12 12).toNat
def segLen (w : W32) : Nat := (w.extractLsb' 0 12).toNat + 1
/-- R352: whether a header is well formed. -/
def patHeaderOk (h : W32) : Bool :=
  h.extractLsb' 7 21 == 0 &&
  ((patKind h == 0 && decide (1 ≤ patSegs h ∧ patSegs h ≤ 64)) || (patKind h == 1 && patSegs h == 0))

/-- R352: PATLD. Where elements are missing and an earlier segment word is malformed too, FADDR names that earlier element: the rule's two
clauses both hold there (the model's choice: log entry 160). -/
def execPatld (va : BitVec 5) (pat : BitVec 6) (g : BitVec 4) (s : State) :=
  slotOp g [.v va] [] (fun s =>
    let a := s.rV va
    let h := runAt a.runs 0
    if !patHeaderOk h then raiseX 0x15 0
    else
      let n := patSegs h
      let bad := (List.range n).find? (fun i => decide (a.ll ≤ i + 1) || (runAt a.runs (i + 1)).extractLsb' 24 8 != 0)
      match bad with
      | some i => raiseX 0x15 (BitVec.ofNat 64 (i + 1))
      | none =>
        let p : Pattern := { header := h, segs := (List.range n).map (fun i => runAt a.runs (i + 1)) }
        .ok (s.modFcore (fun c => { c with patterns := aput (64 * (1 - c.bank) + pat.toNat) p c.patterns }))) s
def execPatsw (g : BitVec 4) (s : State) :=
  slotOp g [] [] (fun s => .ok (s.modFcore (fun c => { c with bank := 1 - c.bank }))) s

/-- R354: the elements a pattern gives. -/
def permute (p : Pattern) (n : BitVec 5) (a : VReg) (sh : Nat × Nat) : Except Stop (List W32) :=
  let x := expand a.runs
  if patKind p.header = 1 then
    if sh = (a.cols, a.rows) then
      .ok ((List.range a.cols).flatMap (fun j => (List.range a.rows).map (fun i => nth 0 (i * a.cols + j) x)))
    else raiseX 0x13 (shapeAddr a.rows a.cols n.toNat)
  else if p.segs.foldl (fun t w => t + segLen w) 0 ≠ sh.1 * sh.2 then raiseX 0x15 1
  else
    match (List.range p.segs.length).find? (fun k =>
        let w := nth 0 k p.segs
        decide (a.ll < segSrc w + segLen w)) with
    | some k => raiseX 0x15 (BitVec.ofNat 64 (1 + k))
    | none => .ok (p.segs.flatMap (fun w => (x.drop (segSrc w)).take (segLen w)))

def execVperm (vd va : BitVec 5) (pat : BitVec 6) (g : BitVec 4) (s : State) :=
  slotOp g [.v va] [.v vd] (fun s =>
    match alook (64 * s.fcore.bank + pat.toNat) s.fcore.patterns with
    | none => raiseX 0x15 0
    | some p => do
      let sh := s.shape
      let out ← permute p va (s.rV va) sh
      let r := ofElems out
      runLimit r.length
      .ok (s.putV vd 6 sh.1 sh.2 r)) s

/-! Attention partials (R201, R355). -/

/-- R201: a × x + b × y, exact and rounded once. -/
def lin32 (a x b y : W32) : W32 × VF :=
  let p := (Num.ofF32 a).mul (Num.ofF32 x)
  let q := (Num.ofF32 b).mul (Num.ofF32 y)
  fResult [a, x, b, y] (p.add q)

/-- R200, R201: a partial: m, l and the vector o. -/
structure Partial where
  m : W32
  l : W32
  o : List W32
  deriving DecidableEq, Repr

def negInf : W32 := 0xFF800000#32
/-- R201: the partial from which a combination starts. -/
def Partial.empty (d : Nat) : Partial := { m := negInf, l := 0, o := List.replicate d 0 }

/-- R201: the combine of two partials, with its flags. -/
def combine (a b : Partial) : Partial × VF :=
  let m := fMax a.m b.m
  if m.1 = negInf then (Partial.empty a.o.length, m.2)
  else
    let da := fSub a.m m.1
    let db := fSub b.m m.1
    let fa := fExp2 da.1
    let fb := fExp2 db.1
    let l := lin32 a.l fa.1 b.l fb.1
    let o := (a.o.zip b.o).map (fun x => lin32 x.1 fa.1 x.2 fb.1)
    ({ m := m.1, l := l.1, o := o.map (·.1) },
      m.2 ||| da.2 ||| db.2 ||| fa.2 ||| fb.2 ||| l.2 ||| orAll (o.map (·.2)))

/-- R355: a register of LL elements as a partial. -/
def partialOf (l : List W32) : Partial := { m := nth 0 0 l, l := nth 0 1 l, o := l.drop 2 }

/-- R355: the result's runs: one per segment of the aligned sources, cut also before index 1 and before index 2. -/
def attRuns (a b : Runs) (ll : Nat) (out : List W32) : Runs :=
  let segs := segments_ [a, b, [(0, 1), (0, 1), (0, ll - 2)]]
  let rec go (k : Nat) : List (List W32 × Nat) → Runs
    | [] => []
    | g :: r => (nth 0 k out, g.2) :: go (k + g.2) r
  go 0 segs

def execVattc (vd va vb : BitVec 5) (g : BitVec 4) (s : State) :=
  slotOp g [.v va, .v vb] [.v vd] (fun s => do
    let a := s.rV va
    let b := s.rV vb
    let sh := s.shape
    needShape sh va a
    if sh.1 * sh.2 < 3 then raiseX 0x13 (shapeAddr a.rows a.cols va.toNat) else
    needShape sh vb b
    let r := combine (partialOf (expand a.runs)) (partialOf (expand b.runs))
    if r.1.m = negInf then
      .ok ((s.putV vd 10 sh.1 sh.2 [(negInf, 1), (0, 1), (0, sh.1 * sh.2 - 2)]).orFlags r.2)
    else
      let runs := attRuns a.runs b.runs (sh.1 * sh.2) ([r.1.m, r.1.l] ++ r.1.o)
      runLimit runs.length
      .ok ((s.putV vd 10 sh.1 sh.2 runs).orFlags r.2)) s

end Sys2Proof.Machine
end

