-- ==== Sys2Proof/Machine/VMem.lean ====
section
/-! DEFINITION. The vector loads and stores, stored run lists and tag accesses of position M (R356 to R368), and the arrival of
load data (R315, R362, R363). -/

namespace Sys2Proof.Machine

/-! Device steps. -/

/-- A device step: it needs a unit that exists, and its rule's condition. -/
def dev (row : String) (there : Bool) (r : Option State) : Host.Outcome State Fault Refusal :=
  if !there then .fault (.noSuchUnit row) else
  match r with
  | some t => .next t
  | none => .refused (.notEnabled row)

/-- R25: whether a core exists. -/
def coreThere (n : Nat) : Bool := decide (n < 400)

/-- An operation in flight. -/
def State.op (s : State) (core id : Nat) : Option Op := alook id (s.core core).ops

/-- R315, R404: a scalar result arrives. -/
def execLoadComplete (core id : Nat) (s : State) : Host.Outcome State Fault Refusal :=
  dev "LOAD_COMPLETE" (coreThere core) (match s.op core id with
    | some (.load o) =>
      let t := s.seatAt core o.seat
      if !t.mayArrive o.least (t.awaitsS o.reg.toNat) (halted (s.core core)) (decide (56 ≤ o.reg.toNat)) then none else some ((s.dropOp core id).fillS core o.seat id o.reg o.val)
    | _ => none)

/-- R165: whether a vector load has still to be performed: the host owes it bytes. -/
def State.loadOpen (s : State) (core id : Nat) : Bool :=
  match s.op core id with
  | some (.vload o) => !o.waits.isEmpty && o.failed.isNone
  | _ => false

/-- R165: the vector load of the bundle itself that has still to be performed. -/
def State.ownLoad (s : State) : Option Nat :=
  match s.focus.opBase with
  | some b => (s.fcore.ops.find? (fun e => decide (b ≤ e.1) && e.2.seat == s.focus.seat && s.loadOpen s.focus.core e.1)).map (·.1)
  | none => none

/-- R165: the arrivals at a core whose loads have been performed take place. -/
def State.makeArrivals (s : State) (core : Nat) : State :=
  let due := (s.core core).arrivals.filter (fun e => !s.loadOpen core e.2.2)
  let s := s.modCore core (fun c => { c with arrivals := c.arrivals.filter (fun e => s.loadOpen core e.2.2) })
  due.foldl (fun s e => s.arriveAt core e.2.1) s

/-- A scalar result on its way to a register of the seat in focus, full after no fewer than some bundles. -/
def State.loadInto (s : State) (d : BitVec 6) (v : Word) (dist : Nat) : State :=
  if d = 0 then s else
  let id := s.nextOp
  (s.newOp s.focus.core (.load { seat := s.focus.seat, asid := s.fasid, reg := d, val := v, least := s.fseat.issued + dist })).pendS d id

/-! Layout of a tile (R357, R358). -/

/-- R358: the alignment of base and stride, in bytes. -/
def fmtAlign (c : Nat) : Nat := if codeWidth c = 32 then 4 else if codeWidth c = 16 then 2 else if codeWidth c = 6 then 3 else 1

/-- R357: the rows of a tile as they lie in memory: start and number of elements. Without a stride, a tile whose rows do not
end on a byte is one string. -/
def tileRows (base : Word) (stride : Option Nat) (rows cols w : Nat) : List (Word × Nat) :=
  match stride with
  | some st => (List.range rows).map (fun r => (base + BitVec.ofNat 64 (r * st), cols))
  | none =>
    if cols * w % 8 = 0 then (List.range rows).map (fun r => (base + BitVec.ofNat 64 (r * (cols * w / 8)), cols))
    else [(base, rows * cols)]

/-- R358: the misaligned row start, if there is one; for a store also the counts that keep whole bytes. A misaligned STRIDE names
base + STRIDE, with one row too, and a store whose counts alone fail names its base: the rule says neither (the model's choice: log entry
158). -/
def misaligned (c : Nat) (base : Word) (stride : Option Nat) (store : Bool) (rows cols : Nat) : Option Word :=
  let a := fmtAlign c
  let st := stride.getD 0
  let n := match stride with
    | some _ => cols
    | none => rows * cols
  if base.toNat % a ≠ 0 then some base
  else if st % a ≠ 0 then some (base + BitVec.ofNat 64 st)
  else if store ∧ ((codeWidth c = 4 ∧ n % 2 ≠ 0) ∨ (codeWidth c = 6 ∧ n % 4 ≠ 0)) then some base
  else none

/-- R358, R126: MISALIGNED with the row start, or the offset. -/
def alignCheck (sp : Bool) (k : Access) : Option Word → Except Stop Unit
  | none => .ok ()
  | some v => raiseX 0x26 (if sp then v else transFaddr 0 k v.toNat)

/-- The w bits at a bit position of a little-endian string of bytes (R55). -/
def bitsAt (bs : List Byte) (pos w : Nat) : Nat := bytesToNat ((bs.drop (pos / 8)).take 5) / 2 ^ (pos % 8) % 2 ^ w

/-! Vector loads. -/

/-- What a vector load asks for before it samples. -/
structure VLoadAsk where
  kind : Nat
  code : Nat
  rows : Nat
  cols : Nat
  perRow : Nat
  /-- Starts and lengths in bytes. -/
  ranges : List (Word × Nat)
  cap : Nat
  want : W32
  deriving DecidableEq, Repr

/-- The tags of the blocks that translated pieces touch, by virtual block number. -/
def State.pieceTags (s : State) (ps : List Piece) : List (Nat × BitVec 16) :=
  ps.flatMap (fun p => (List.range ((p.va.toNat % 64 + p.len + 63) / 64)).map (fun i =>
    (p.va.toNat / 64 + i, s.seatTag (pteCp p.leaf.entry) ((p.pa / 64 + i) * 64))))

/-- A finite map from a list of entries, later ones first. -/
def ofList {α : Type} (l : List (Nat × α)) : Assoc α := l.foldl (fun m e => aput e.1 e.2 m) []

/-- R57: the blocks of the 6-bit triples met by blocks with the given tags, but for those blocks themselves. -/
def tripleRest (tags : List (Nat × BitVec 16)) : List Nat :=
  (tags.flatMap (fun e => if codeSix (e.2.extractLsb' 0 8).toNat then [e.1 / 3 * 3, e.1 / 3 * 3 + 1, e.1 / 3 * 3 + 2] else [])).filter
    (fun b => !tags.any (fun e => e.1 == b))

/-- R57: the tags of those blocks, in virtual memory; one whose page has no translation gives none. -/
def State.restTags (s : State) (tags : List (Nat × BitVec 16)) : List (Nat × BitVec 16) :=
  (tripleRest tags).flatMap (fun b =>
    match s.pieces s.focus.core s.fasid .read [(BitVec.ofNat 64 (64 * b), 64)] with
    | .ok ps => s.pieceTags ps
    | .error _ => [])

/-- R367: the blocks that a stored run list occupies, from its first block. -/
def runListBlocks (cap : Nat) (first : List Byte) : Nat :=
  let occ := bytesToNat ((first.drop 2).take 2)
  if occ ≤ cap then (8 + 8 * occ + 63) / 64 else 1

/-- R495: bytes of a segment that the host owes: their place in host memory and in the segment, and the leaf of their page. -/
structure HostAsk where
  pa : Nat
  off : Nat
  len : Nat
  leaf : Word
  deriving DecidableEq, Repr

/-- R495: the parts of a segment's pieces that the host owes, cut at 64-byte boundaries. -/
def hostParts (ps : List Piece) : List HostAsk :=
  let rec go (off : Nat) : List Piece → List HostAsk
    | [] => []
    | p :: r =>
      (if region p.pa = .host then
        (hostCut (p.len / 64 + 2) p.pa (List.replicate p.len 0)).map (fun c =>
          ({ pa := c.1, off := off + (c.1 - p.pa), len := c.2.length, leaf := p.leaf.entry } : HostAsk))
      else []) ++ go (off + p.len) r
  go 0 ps

/-- R150, R155, R495: a vector load asks the host for a block of its parts, whole; one of a later SO page once the host has answered for
the SO pages before it. -/
def State.askBlock (s : State) (op : Nat) (parts : List HostAsk) (b : Nat) : State :=
  let leaf := ((parts.find? (fun p => p.pa / 64 == b)).map (·.leaf)).getD 0
  let so (p : HostAsk) : Bool := pteOrd p.leaf == 1 && pteOrd leaf == 1 && ptePpn p.leaf != ptePpn leaf
  let before := s.host.reqs ++ s.host.later.map (fun e => (e.1, e.2.2))
  let waits := (before.filter (fun e => e.2.use == .coreOp s.focus.core op &&
    parts.any (fun p => so p && p.pa / 64 == e.2.addr / 64))).map (·.1)
  s.hostAfter waits { asid := s.fasid, use := .coreOp s.focus.core op, addr := 64 * b, size := 64, write := false, data := [], cp := pteCp leaf }

/-- What a vector load of the seat in focus carries, from the bytes and tags that it has sampled. -/
def State.vloadOp (s : State) (v : BitVec 5) (q : VLoadAsk) (segs : List (Word × List Byte)) (tags : Assoc (BitVec 16))
    (waits : List HostPart) (nan : Bool) : VLoadOp :=
  { seat := s.focus.seat, asid := s.fasid, reg := vphys s.src.ctl.rot v.toNat, kind := q.kind, code := q.code,
    rows := q.rows, cols := q.cols, perRow := q.perRow, segs := segs, tags := tags, efr := s.src.ctl.efr.extractLsb' 0 13,
    l6q := s.src.ctl.ctabsel.extractLsb' 0 2, cap := q.cap, want := q.want, waits := waits, failed := none, nan := nan,
    least := s.fseat.issued + 16 }

/-- A vector load through translated pieces, one list per range: it samples memory now (R359, R360), asks the host for its
part (R495), and goes on its way. -/
def State.startVLoad (s : State) (v : BitVec 5) (q : VLoadAsk) (pss : List (List Piece)) (va : Word) : State :=
  let all := pss.flatten
  let segs := (q.ranges.zip pss).map (fun x => (x.1.1, s.seatRead x.2))
  let met := s.pieceTags all
  let tags := ofList (met ++ s.restTags met)
  let bad := s.poisonHit all
  let reqs := ((List.range pss.length).zip pss).flatMap (fun x => (hostParts x.2).map (fun h => (x.1, h)))
  let reqs := if q.kind = 2 then reqs.take 1 else reqs
  let blocks := (reqs.map (fun x => x.2.pa / 64)).eraseDups
  let id := s.nextOp
  let first := s.host.nextReq
  let waits := reqs.map (fun x =>
    ({ req := first + blocks.idxOf (x.2.pa / 64), at_ := x.2.pa % 64, seg := x.1, off := x.2.off, len := x.2.len, ord := pteOrd x.2.leaf,
       own := (List.range x.2.len).filterMap (fun i => (s.fcore.heldByte s.focus.seat (x.2.pa + i)).map (fun b => (i, b))) } : HostPart))
  let struct := (bad.map s.structF).getD 0
  let s := (s.fillPieces s.focus.core all)
  let s := blocks.foldl (fun s b => s.askBlock id (reqs.map (·.2)) b) s
  let s := (s.newOp s.focus.core (.vload (s.vloadOp v q segs tags waits bad.isSome))).pendV v id
  let s := match bad with
    | some pa => s.consumeF struct pa
    | none => s
  s.trace s.focus.core s.focus.seat 2 va

/-! Decoding (R360, R361, R367). -/

/-- R55: the blocks that hold the element of a width whose first bit lies in the byte at an address, with the bit's place: elements 85
and 170 of a triple lie in two. -/
def elemBlocks (w : Nat) (at_ : Word) (bit : Nat) : List Nat :=
  let b := at_.toNat / 64
  if (at_.toNat % 64) * 8 + bit + w ≤ 512 then [b] else [b, b + 1]

/-- R50, R57, R59, R360: the checks of the blocks that hold an element, or of their triple, and the scale. -/
def elemScale (tags : Assoc (BitVec 16)) (c : Nat) (at_ : Word) (bit : Nat) : Except Cause (BitVec 8) :=
  let tag (b : Nat) : BitVec 16 := aget 0 b tags
  let code (b : Nat) : Nat := ((tag b).extractLsb' 0 8).toNat
  let addr (b : Nat) : Word := BitVec.ofNat 64 (64 * b)
  let own := elemBlocks (codeWidth c) at_ bit
  let t := at_.toNat / 192 * 3
  let six := own.any (fun b => codeSix (code b))
  let met := if six then [t, t + 1, t + 2] else own
  match met.find? (fun i => !codeReadable (code i)) with
  | some i => .error (0x30#8, addr i)
  | none =>
    match met.find? (fun i => (six && code i != code t) || (code i != 0 && code i != c)) with
    | some i => .error (0x31#8, addr i)
    | none =>
      let first := if six then t else at_.toNat / 64
      .ok (if code first = 0 then 127 else (tag first).extractLsb' 8 8)

/-- R360, R361: one element as a run value. POISON_CONSUMED of an element of a 6-bit triple names the block of the element's first byte, not
the triple's first block, whose scale is the poisoned one: R362 does not say which (the model's choice: log entry 159). -/
def loadElem (t : FmtCtx) (kind c : Nat) (tags : Assoc (BitVec 16)) (at_ : Word) (bit code : Nat) : Except Cause (W32 × VF) :=
  if c = 0x00 then .ok (BitVec.ofNat 32 code, 0)
  else
    match elemScale tags c at_ bit with
    | .error e => .error e
    | .ok sc =>
      if kind = 1 ∧ codeInt c = true then
        if sc = 0xFF then .error (0x33#8, BitVec.ofNat 64 (at_.toNat / 64 * 64))
        else match decodeIntCode t.efr (codeWidth c) code with
          | some i => .ok (BitVec.ofInt 32 i, 0)
          | none => .error (0x33#8, BitVec.ofNat 64 (at_.toNat / 64 * 64))
      else
        let r := (decodeElem t c sc code).toF32
        if kind = 1 then
          let q := cvtFi r.1
          .ok (q.1, r.2 ||| q.2)
        else .ok r

/-- The elements of a sampled tile, in row-major order, or the first failing element's cause. -/
def decodeTile (t : FmtCtx) (o : VLoadOp) : Except Cause (List (W32 × VF)) :=
  let w := codeWidth o.code
  let rows := o.segs.mapM (fun sg => (List.range o.perRow).mapM (fun k =>
    loadElem t o.kind o.code o.tags (sg.1 + BitVec.ofNat 64 (w * k / 8)) (w * k % 8) (bitsAt sg.2 (w * k) w)))
  rows.map List.flatten

/-- R365: run j of a stored list; none where a field of its entry is out of its range. -/
def listRun (bs : List Byte) (j : Nat) : Option (W32 × Nat) :=
  let e := bs.drop (8 + 8 * j)
  let n := bytesToNat ((e.drop 4).take 2)
  if 1 ≤ n ∧ n ≤ 4096 ∧ bytesToNat ((e.drop 6).take 2) = 0 then some (BitVec.ofNat 32 (bytesToNat (e.take 4)), n) else none

/-- R365, R367: ROWS, COLS and OCC of a stored list, and whether its header is sound for a load. -/
def listShape (bs : List Byte) : Nat × Nat × Nat := (bytesToNat (bs.take 1), bytesToNat ((bs.drop 1).take 1), bytesToNat ((bs.drop 2).take 2))
def VLoadOp.headerOk (o : VLoadOp) (bs : List Byte) : Bool :=
  let (rows, cols, occ) := listShape bs
  decide (1 ≤ rows ∧ rows ≤ 64 ∧ 1 ≤ cols ∧ cols ≤ 64 ∧ 1 ≤ occ ∧ occ ≤ o.cap) && bytesToNat ((bs.drop 4).take 4) == 0 &&
  (o.want == 0 || o.want.toNat == rows * 65536 + cols)

/-- R365: the entries of a stored list of occ runs that stand in its block i. -/
def blockEntries (occ i : Nat) : List Nat :=
  if i = 0 then List.range (Nat.min occ 7) else (List.range (Nat.min 8 (occ - (8 * i - 1)))).map (fun k => 8 * i - 1 + k)

/-- R362, R367: what is wrong with block i of a stored list, if anything: its tag, then its fields. -/
def VLoadOp.blockCause (o : VLoadOp) (base : Word) (bs : List Byte) (i : Nat) : Option Cause :=
  let tag : BitVec 16 := aget 0 (base.toNat / 64 + i) o.tags
  let addr : Word := base + BitVec.ofNat 64 (64 * i)
  if tag.extractLsb' 0 8 != 0x40#8 then some (0x16#8, addr)
  else if tag.extractLsb' 8 8 == 0xFF#8 then some (0x33#8, addr)
  else if (i == 0 && !o.headerOk bs) || (blockEntries (listShape bs).2.2 i).any (fun j => (listRun bs j).isNone) then some (0x16#8, addr)
  else none

/-- R362, R367: a stored run list, or the cause of its first failing block; counts that do not sum to the shape are the list's, and
name its first block. -/
def decodeRunList (o : VLoadOp) : Except Cause (Nat × Nat × Runs) :=
  match o.segs with
  | [] => .error (0x16#8, 0)
  | (base, bs) :: _ =>
    match (List.range (runListBlocks o.cap bs)).findSome? (o.blockCause base bs) with
    | some c => .error c
    | none =>
      let (rows, cols, occ) := listShape bs
      let rs := (List.range occ).filterMap (listRun bs)
      if rs.foldl (fun n r => n + r.2) 0 = rows * cols then .ok (rows, cols, rs) else .error (0x16#8, base)

/-- What a vector load delivers: shape, runs and flags, or the cause that its register records. -/
def VLoadOp.result (o : VLoadOp) (table : Assoc (BitVec 16)) : Except Cause (Nat × Nat × Runs × VF) :=
  match o.failed with
  | some f => .error (0x28#8, f)
  | none =>
    if o.nan && o.kind != 2 then .ok (o.rows, o.cols, [(qnan, o.rows * o.cols)], 0)
    else if o.kind = 2 then
      match decodeRunList o with
      | .error e => .error e
      | .ok r => .ok (r.1, r.2.1, if o.nan then [(qnan, r.1 * r.2.1)] else r.2.2, 0)
    else
      match decodeTile { efr := o.efr, l6q := o.l6q, table := table } o with
      | .error e => .error e
      | .ok es =>
        let rs := ofElems (es.map (·.1))
        if 1024 < rs.length then .error (0x12#8, BitVec.ofNat 64 rs.length)
        else .ok (o.rows, o.cols, rs, orAll (es.map (·.2)))

/-- R363: the register of a load from scratchpad is full, or faulted, six bundles on, and the flags arrive then (R360). -/
def State.spDeliver (s : State) (v : BitVec 5) (o : VLoadOp) : State :=
  let n := s.fseat.issued + 6
  match o.result s.fcore.codeTable with
  | .ok r => (s.wV v { rows := r.1, cols := r.2.1, runs := r.2.2.1, fill := .soon n }).flagsAt s.focus.core s.focus.seat n r.2.2.2 |>.noteV (vnum o.reg) 6
  | .error c => (s.wV v { aget vreg0 o.reg s.fseat.file.regs.v with fill := .lateFault n c.1 c.2 }).noteV (vnum o.reg) 6

/-- The same from scratchpad (R359): out-of-window bytes read 0, the tags of the blocks are those of R101. -/
def State.startSpLoad (s : State) (v : BitVec 5) (q : VLoadAsk) : State :=
  let w := s.window
  let c := s.fcore
  let ms := q.ranges.map (fun r => (r.1, w.maps r.1 r.2))
  let segs := ms.map (fun r => (r.1, r.2.map c.spByte))
  let blocks := q.ranges.flatMap (fun r => (List.range ((r.1.toNat % 64 + r.2 + 63) / 64)).map (fun i => r.1.toNat / 64 + i))
  let tag (b : Nat) : Nat × BitVec 16 := (b, c.spTag w (BitVec.ofNat 64 (64 * b)))
  let met := blocks.map tag
  let tags := ofList (met ++ (tripleRest met).map tag)
  let all := ms.flatMap (·.2)
  -- R359: a block not wholly in the window sets SPOVR where its tag is read
  let rest := (tripleRest met).flatMap (fun b => w.maps (BitVec.ofNat 64 (64 * b)) 64)
  let bad := all.findSome? (fun m => if c.spPoisoned m then m else none)
  let s := (s.spovr s.focus.core s.focus.seat (all ++ rest)).spDeliver v (s.vloadOp v q segs tags [] bad.isSome)
  match bad with
  | some a => s.consume s.focus.core s.focus.seat (uncorrAddr 1 s.focus.core a)
  | none => s

/-- R101, R111: the first bytes of a range of a load from scratchpad. -/
def State.spPeek (s : State) (o : Word) (n : Nat) : List Byte := (s.window.maps o n).map s.fcore.spByte

/-- R367: a run list in scratchpad is read only as far as it goes, its first block before the others. -/
def State.spRanges (s : State) (q : VLoadAsk) : Except Stop (List (Word × Nat)) :=
  if q.kind = 2 then do
    let _ ← q.ranges.mapM (fun r => s.awaitSpans s.window r.1 64)
    .ok (q.ranges.map (fun r => (r.1, 64 * runListBlocks q.cap (s.spPeek r.1 64))))
  else .ok q.ranges

/-- R359: translates every range of a load in ascending order, or stalls for the scoreboard, and starts it. -/
def State.vload (s : State) (v : BitVec 5) (sp : BitVec 1) (base : Word) (q : VLoadAsk) : Run :=
  if sp = 1 then do
    let rs ← s.spRanges q
    rs.forM (fun r => s.awaitSpans s.window r.1 r.2)
    .ok (s.startSpLoad v { q with ranges := rs })
  else do
    let pss ← q.ranges.mapM (fun r => s.seatPieces r.1 r.2 .read)
    let s := s.install false pss.flatten
    -- R367: a run list is read only as far as it goes
    let pss := if q.kind = 2 then
        pss.map (fun ps => cutTo (64 * runListBlocks q.cap ((s.seatRead ps).take 64)) ps)
      else pss
    .ok (s.startVLoad v q pss base)
where
  /-- The first n bytes of pieces. -/
  cutTo : Nat → List Piece → List Piece
    | _, [] => []
    | n, p :: r => if n = 0 then [] else { p with len := Nat.min n p.len } :: cutTo (n - p.len) r

/-- R357: the limits of a parameter block of a vector load or store. -/
def vBlockOk (p : Params) (load run : Bool) (shape : Option (Nat × Nat)) : Bool :=
  (match shape with
    | some sh => (p.rows == 0 && p.cols == 0) || (p.rows, p.cols) == sh
    | none => true) &&
  (if run then decide (1 ≤ p.aux.toNat ∧ p.aux.toNat ≤ 1024) else p.aux == 0) &&
  (!load || p.scale == 0) && p.fsel == 0 && p.bar == 0 && !p.nobar && p.flg == 0

/-- R357: what a tile load asks for. -/
def State.tileAsk (s : State) (kind : Nat) (base : Word) (c : Nat) (stride : Option Nat) : VLoadAsk :=
  let sh := s.shape
  let rows := tileRows base stride sh.1 sh.2 (codeWidth c)
  let n := match rows with
    | r :: _ => r.2
    | [] => 0
  { kind := kind, code := c, rows := sh.1, cols := sh.2, perRow := n,
    ranges := rows.map (fun r => (r.1, (r.2 * codeWidth c + 7) / 8)), cap := 0, want := 0 }

/-- VLD and VLDS (R357, R358, R360). -/
def State.tileLoad (s : State) (kind : Nat) (v : BitVec 5) (a : BitVec 6) (sp : BitVec 1) (fsel : BitVec 4) (stride : Option Nat) : Run := do
  let c := fselCode fsel
  alignCheck (sp == 1) .read (misaligned c (s.rS a) stride false s.shape.1 s.shape.2)
  s.vload v sp (s.rS a) (s.tileAsk kind (s.rS a) c stride)

/-- A tile load in either form. -/
def tileLoadOp (kind : Nat) (v : BitVec 5) (a : BitVec 6) (sp : BitVec 1) (fsel : BitVec 4) (pb : BitVec 1) (g : BitVec 4)
    (s : State) : Host.Outcome State Fault Refusal :=
  if pb = 1 then
    blockOp g [.s a] [.v v] (fun s p => s.limit (vBlockOk p true false (some s.shape)))
      (fun p s => s.tileLoad kind v a sp fsel (some p.stride)) s
  else slotOp g [.s a] [.v v] (fun s => s.tileLoad kind v a sp fsel none) s

def execVld (v : BitVec 5) (a : BitVec 6) (sp : BitVec 1) (fsel : BitVec 4) (pb : BitVec 1) (g : BitVec 4) (s : State) :=
  tileLoadOp 0 v a sp fsel pb g s
def execVlds (v : BitVec 5) (a : BitVec 6) (sp : BitVec 1) (fsel : BitVec 4) (pb : BitVec 1) (g : BitVec 4) (s : State) :=
  tileLoadOp 1 v a sp fsel pb g s

/-- R367: what the load of a stored run list asks for. -/
def runAsk (base : Word) (cap : Nat) (want : W32) : VLoadAsk :=
  { kind := 2, code := 0x40, rows := 0, cols := 0, perRow := 0,
    ranges := [(base, 64 * ((8 + 8 * cap + 63) / 64))], cap := cap, want := want }

/-- R358: the same for a run list: base and STRIDE. -/
def runMisaligned (base : Word) (stride : Nat) : Option Word :=
  if base.toNat % 64 ≠ 0 then some base else if stride % 64 ≠ 0 then some (base + BitVec.ofNat 64 stride) else none

/-- R367: VLD.RUN. -/
def State.runLoad (s : State) (v : BitVec 5) (a : BitVec 6) (sp : BitVec 1) (stride cap : Nat) (want : W32) : Run := do
  let base := s.rS a
  alignCheck (sp == 1) .read (runMisaligned base stride)
  s.vload v sp base (runAsk base cap want)

def execVldRun (v : BitVec 5) (a : BitVec 6) (sp : BitVec 1) (pb : BitVec 1) (g : BitVec 4) (s : State) :=
  if pb = 1 then
    blockOp g [.s a] [.v v] (fun s p => s.limit (vBlockOk p true true none))
      (fun p s => s.runLoad v a sp p.stride p.aux.toNat (nth 0 0 p.words)) s
  else slotOp g [.s a] [.v v] (fun s => s.runLoad v a sp 0 1024 0) s

/-- R360 to R363, R367: a vector load's data is complete; its register becomes full, or faulted with its old contents. -/
def execVectorLoadComplete (core id : Nat) (s : State) : Host.Outcome State Fault Refusal :=
  dev "VECTOR_LOAD_COMPLETE" (coreThere core) (match s.op core id with
    | some (.vload o) =>
      let t := s.seatAt core o.seat
      if (!o.waits.isEmpty && o.failed.isNone) || !t.mayArrive o.least (t.awaitsV o.reg) (halted (s.core core)) false then none else
      let s' := (s.dropOp core id).makeArrivals core
      (match o.result (s.core core).codeTable with
        | .ok r => some ((s'.fillV core o.seat id o.reg (fun _ => { rows := r.1, cols := r.2.1, runs := r.2.2.1, fill := .full })).lateFlags core o.seat r.2.2.2)
        | .error c => some (s'.fillV core o.seat id o.reg (fun v => { v with fill := .faulted c.1 c.2 })))
    | _ => none)

/-! Vector stores (R364 to R366). -/

/-- A store of runs of bytes with one tag for every block written whole, in virtual memory (R47, R48, R364); a check of its own comes
after its translations (R433). -/
def State.storeTile (s : State) (va : Word) (segs : List (Word × List Byte)) (tag : BitVec 16) (check : Except Stop Unit) : Run := do
  let pss ← segs.mapM (fun r => s.seatPieces r.1 r.2.length .write)
  check
  s.awaitSo pss.flatten
  let both := segs.zip pss
  let parts := both.flatMap (fun x => cutPieces x.2 x.1.2)
  let tags := both.flatMap (fun x => x.2.flatMap (fun p =>
    (wholeBlocks p.va p.len).map (fun o => (p.pa + o, pteCp p.leaf.entry, tag))))
  let s := s.install true pss.flatten
  let s ← s.seatStore va parts (tags.filter (fun t => region t.1 != .host)) (storeOrd none (both.flatMap (fun x => x.2)))
  .ok (s.trace s.focus.core s.focus.seat 3 va)

/-- The same into scratchpad (R359, R364). -/
def State.storeTileSp (s : State) (segs : List (Word × List Byte)) (tag : BitVec 16) (check : Except Stop Unit) : Run := do
  let w := s.window
  segs.forM (fun r => s.awaitSpans w r.1 r.2.length)
  check
  let s : State := s.spovr s.focus.core s.focus.seat (segs.flatMap (fun r => w.maps r.1 r.2.length))
  let put (c : Core) (r : Word × List Byte) : Core :=
    let c := c.spPut (w.maps r.1 r.2.length) r.2
    (wholeBlocks r.1 r.2.length).foldl (fun c o => c.spWhole w (r.1 + BitVec.ofNat 64 o) tag) c
  .ok (s.modFcore (fun c => segs.foldl put c))

/-- What the seat in focus captures for decoding and encoding (R72, R73). -/
def State.fmtCtx (s : State) : FmtCtx :=
  { efr := s.src.ctl.efr.extractLsb' 0 13, l6q := s.src.ctl.ctabsel.extractLsb' 0 2, table := s.fcore.codeTable }

/-- R54, R364: the code that stores a run value. -/
def storeCode (t : FmtCtx) (c : Nat) (scale : BitVec 8) (x : W32) : Nat :=
  if c = 0x00 then x.toNat else encodeElem t c scale (Num.ofF32 x)

/-- R364: the tag of a store. -/
def storeTagOf (c : Nat) (scale : BitVec 8) : BitVec 16 := if c = 0x00 then 0 else scale ++ BitVec.ofNat 8 c

/-- R364: the bytes of a stored tile, row by row as they join. -/
def State.tileSegs (s : State) (x : VReg) (base : Word) (c : Nat) (stride : Option Nat) (scale : BitVec 8) : List (Word × List Byte) :=
  let codes := (x.runs.map (fun r => (storeCode s.fmtCtx c scale r.1, r.2))).flatMap (fun r => List.replicate r.2 r.1)
  tileBytes (tileRows base stride x.rows x.cols (codeWidth c)) (codeWidth c) codes

/-- R364: VST. -/
def State.tileStore (s : State) (v : BitVec 5) (a : BitVec 6) (sp : BitVec 1) (fsel : BitVec 4) (stride : Option Nat) (scale : BitVec 8) : Run := do
  let x := s.rV v
  let c := fselCode fsel
  let base := s.rS a
  alignCheck (sp == 1) .write (misaligned c base stride true x.rows x.cols)
  let segs := s.tileSegs x base c stride scale
  if sp = 1 then s.storeTileSp segs (storeTagOf c scale) (.ok ()) else s.storeTile base segs (storeTagOf c scale) (.ok ())

def execVst (v : BitVec 5) (a : BitVec 6) (sp : BitVec 1) (fsel : BitVec 4) (pb : BitVec 1) (g : BitVec 4) (s : State) :=
  if pb = 1 then
    blockOp g [.v v, .s a] [] (fun s p => s.limit (vBlockOk p false false (some ((s.rV v).rows, (s.rV v).cols))))
      (fun p s => s.tileStore v a sp fsel (some p.stride) p.scale) s
  else slotOp g [.v v, .s a] [] (fun s => s.tileStore v a sp fsel none 127) s

/-- R365: the bytes of a stored run list. -/
def runListBytes (x : VReg) : List Byte :=
  let body := natToBytes 1 x.rows ++ natToBytes 1 x.cols ++ natToBytes 2 x.occ ++ natToBytes 4 0 ++
    x.runs.flatMap (fun r => natToBytes 4 r.1.toNat ++ natToBytes 2 r.2 ++ natToBytes 2 0)
  body ++ List.replicate ((body.length + 63) / 64 * 64 - body.length) 0

/-- R366: VST.RUN. -/
def State.runStore (s : State) (v : BitVec 5) (a : BitVec 6) (sp : BitVec 1) (stride cap : Nat) : Run := do
  let x := s.rV v
  let base := s.rS a
  alignCheck (sp == 1) .write (runMisaligned base stride)
  let fits : Except Stop Unit := if cap < x.occ then raiseX 0x16 base else .ok ()
  let segs := [(base, runListBytes x)]
  if sp = 1 then s.storeTileSp segs 0x7F40 fits else s.storeTile base segs 0x7F40 fits

def execVstRun (v : BitVec 5) (a : BitVec 6) (sp : BitVec 1) (pb : BitVec 1) (g : BitVec 4) (s : State) :=
  if pb = 1 then
    blockOp g [.v v, .s a] [] (fun s p => s.limit (vBlockOk p false true (some ((s.rV v).rows, (s.rV v).cols))))
      (fun p s => s.runStore v a sp p.stride p.aux.toNat) s
  else slotOp g [.v v, .s a] [] (fun s => s.runStore v a sp 0 1024) s

/-! Tag accesses (R368). -/

/-- The virtual address or offset of the block that holds a byte. -/
def blockOf (v : Word) : Word := v &&& 0xFFFFFFFFFFFFFFC0#64

def execTagrd (d a : BitVec 6) (sp : BitVec 1) (g : BitVec 4) (s : State) :=
  slotOp g [.s a] [.s d] (fun s =>
    let v := s.rS a
    if sp = 1 then do
      s.awaitSpans s.window (blockOf v) 64
      let t := s.fcore.spTag s.window (blockOf v)
      let s : State := s.spovr s.focus.core s.focus.seat (s.window.maps (blockOf v) 64)
      .ok (s.wS d (t.zeroExtend 64) (s.after 4))
    else do
      let ps ← s.seatPieces v 1 .read
      let t : BitVec 16 := match ps with
        | p :: _ => s.seatTag (pteCp p.leaf.entry) p.pa
        | [] => 0
      let s := (s.installRead ps).trace s.focus.core s.focus.seat 2 v
      .ok (s.loadInto d (t.zeroExtend 64) 12)) s

def execTagwr (a b : BitVec 6) (sp : BitVec 1) (g : BitVec 4) (s : State) :=
  slotOp g [.s a, .s b] [] (fun s =>
    let v := s.rS a
    let t : BitVec 16 := (s.rS b).extractLsb' 0 16
    if sp = 1 then do
      s.awaitSpans s.window (blockOf v) 64
      let w := s.window
      let s : State := s.spovr s.focus.core s.focus.seat (w.maps (blockOf v) 64)
      .ok (s.modFcore (fun c => c.spPutTag w (blockOf v) t))
    else do
      let ps ← s.seatPieces v 1 .write
      s.awaitSo ps
      let s := (s.install true ps).trace s.focus.core s.focus.seat 3 v
      match ps with
      | p :: _ => if region p.pa = .host then .ok s else s.seatStore v [] [(p.pa / 64 * 64, pteCp p.leaf.entry, t)] (storeOrd none ps)
      | [] => .ok s) s

end Sys2Proof.Machine
end

