-- ==== Sys2Proof/Machine/Matrix.lean ====
section
/-! DEFINITION. Operand slots, matrix multiply, accumulator moves, EFRW, CTWR and SPSWAP of position M (R371 to R380, R395). -/

namespace Sys2Proof.Machine

/-! Operand slots (R105, R371, R372). -/

/-- R105: a slot becomes claimed; it is cleared where another ASID wrote it last. -/
def OpSlot.claim (o : OpSlot) (x : Nat) (asid : BitVec 16) : OpSlot :=
  let o := if o.lastAsid = asid then o else { o with data := [], tags := [], poison := [] }
  { o with state := .claimed x }

/-- R371: a claim; when the other seat holds the slot, the seat waits or the claim raises SLOT_BUSY. -/
def State.claimSlot (s : State) (tr : Bool) (os : BitVec 4) : Run :=
  match (s.fcore.slot os.toNat).state with
  | .free => .ok (s.modFcore (fun c => c.modSlot os.toNat (fun o => o.claim s.focus.seat s.fasid)))
  | .claimed y => if y = s.focus.seat then .ok s else if tr then raiseX 0x35 (os.zeroExtend 64) else stallX
  | .releasing => stallX

def execOsclaim (os : BitVec 4) (g : BitVec 4) (s : State) := slotOp g [] [] (fun s => s.claimSlot false os) s
def execOsclaimT (os : BitVec 4) (g : BitVec 4) (s : State) := slotOp g [] [] (fun s => s.claimSlot true os) s

/-- R105, R371: OSREL. -/
def execOsrel (os : BitVec 4) (g : BitVec 4) (s : State) :=
  slotOp g [] [] (fun s =>
    if (s.fcore.slot os.toNat).state = .claimed s.focus.seat then
      .ok (s.modFcore (fun c => c.modSlot os.toNat (fun o => { o with state := .releasing })))
    else raiseX 0x34 (os.zeroExtend 64)) s

/-- R397: the slots that a running SEQ.MMA uses. -/
def Sequencer.usesSlot (q : Sequencer) (n : Nat) : Bool :=
  q.kind == 1 && (let b := ((nth 0 3 q.block).extractLsb' 0 4).toNat; decide (b ≤ n ∧ n ≤ b + 3))

/-- R372: whether an operation that names a slot has still to complete: in flight, held for a commit, or a step of a
macro-op. -/
def State.slotInUse (s : State) (core n : Nat) : Bool :=
  let c := s.core core
  c.ops.any (fun e => e.2.namesSlot n) ||
  c.held.any (fun e => match e.2 with
    | .copy o => (Op.copy o).namesSlot n
    | _ => false) ||
  [0, 1].any (fun x => match (s.seatAt core x).seq with
    | some q => q.usesSlot n
    | none => false)

/-- R105, R372: the last operation naming a RELEASING slot has completed. -/
def execSlotFree (core slot : Nat) (s : State) : Host.Outcome State Fault Refusal :=
  dev "SLOT_FREE" (coreThere core && decide (slot < 16))
    (if ((s.core core).slot slot).state = .releasing ∧ s.slotInUse core slot = false then
      some (s.modCore core (fun c => c.modSlot slot (fun o => { o with state := .free })))
    else none)

/-! Matrix multiply (R373 to R376). -/

/-- R391: a leaf that awaits its root stalls the seat that names it. -/
def State.awaitLeaf (s : State) (o : Nat) : Except Stop Unit := if (s.leaf s.focus.core o).arrived then stallX else .ok ()

/-- R375: a matrix operation needs one of the array's four places. -/
def Core.arrayFull (c : Core) : Bool := decide (4 ≤ (c.ops.filter (fun e => match e.2 with
  | .mma _ => true
  | _ => false)).length)

/-- R377, R399: whether a SEQ.MMA on an accumulator has not completed. -/
def State.seqOnAcc (s : State) (core acc : Nat) : Bool :=
  [0, 1].any (fun x => match (s.seatAt core x).seq with
    | some q => q.kind == 1 && ((nth 0 3 q.block).extractLsb' 4 2).toNat == acc
    | none => false) ||
  (s.core core).ops.any (fun e => match e.2 with
    | .mma o => o.seqStep.isSome && o.acc == acc
    | _ => false)

def State.awaitSeq (s : State) (acc : Nat) : Except Stop Unit := if s.seqOnAcc s.focus.core acc then stallX else .ok ()

/-- R105, R106: a slot that an operation reads must be claimed by either seat. -/
def State.slotHeld (s : State) (n : Nat) : Except Stop Unit :=
  match (s.fcore.slot n).state with
  | .claimed _ => .ok ()
  | _ => raiseX 0x34 (BitVec.ofNat 64 n)

/-- R376, R385: the leaf counts one more matrix operation. -/
def State.mxfUp (s : State) (core o : Nat) : State :=
  s.setLeaf core o { s.leaf core o with mxf := (s.leaf core o).mxf + 1 }

/-- R373, R374: MMA and MMAZ. -/
def State.mma (s : State) (zero : Bool) (acc : BitVec 2) (sa sb bar : BitVec 4) : Run := do
  s.awaitLeaf bar.toNat
  s.awaitSeq acc.toNat
  s.awaitScore (.rows sa.toNat 0 63)
  s.awaitScore (.rows sb.toNat 0 63)
  if s.fcore.arrayFull then stallX else
  s.slotHeld sa.toNat
  s.slotHeld sb.toNat
  match s.fcore.mmaCheck sa.toNat sb.toNat 64 64 s.fresh with
  | some c => .error (.raiseIn { s with fresh := s.fresh + 1 } c.1 c.2)
  | none =>
    let o : MmaOp :=
      { seat := s.focus.seat, asid := s.fasid, acc := acc.toNat, sa := sa.toNat, sb := sb.toNat, bar := bar.toNat, zero := zero,
        rows := 64, cols := 64, efr := s.src.ctl.efr.extractLsb' 0 13, l6q := s.src.ctl.ctabsel.extractLsb' 0 2,
        waits := none, seqStep := none, last := true, failed := none, status := 0 }
    .ok ((s.mxfUp s.focus.core bar.toNat).newOp s.focus.core (.mma o))

def execMma (acc : BitVec 2) (sa sb bar g : BitVec 4) (s : State) := slotOp g [] [] (fun s => s.mma false acc sa sb bar) s
def execMmaz (acc : BitVec 2) (sa sb bar g : BitVec 4) (s : State) := slotOp g [] [] (fun s => s.mma true acc sa sb bar) s

/-- R376: what a completing matrix operation leaves in its accumulator, and the status that it ORs into its leaf. -/
def State.mmaEffect (s : State) (core id : Nat) (o : MmaOp) (err : BitVec 4) : State × W32 × BitVec 8 :=
  let c := s.core core
  let st : W32 := o.status ||| ((err.zeroExtend 32) <<< 1) ||| (if c.mmaPoison o then 4 else 0)
  match o.failed with
  | some cause => (s, 0x20, cause)
  | none =>
    if st &&& 0x1C#32 != 0 then
      ((s.noteAcc core o.seat o.acc id).modCore core (fun c => c.accNan o.acc), st, 0x52)
    else
      match c.mmaResult o with
      | none => (s, 0x20#32 ||| st, 0x33)
      | some rows =>
        ((s.noteAcc core o.seat o.acc id).modCore core (fun c => rows.foldl (fun c r => c.accPut o.acc r.1 r.2) c), st, 0)

/-- R376, R452, R461: a corrected error in an operand row is counted and logged; which slot and row it names is free. -/
def State.logOperand (s : State) (core : Nat) (err : BitVec 4) : State :=
  if err.getLsbD 0 then
    ({ s with fresh := s.fresh + 1 } : State).logEvent core 1 (uncorrAddr 2 core ((Config.freeW32 s.fresh).extractLsb' 0 12).toNat)
  else s

/-- R376, R397: the array finishes its oldest operation on an accumulator. -/
def execMmaComplete (core id : Nat) (err : BitVec 4) (s : State) : Host.Outcome State Fault Refusal :=
  dev "MMA_COMPLETE" (coreThere core) (match s.op core id with
    | some (.mma o) =>
      if o.waits.isSome || (s.core core).accBusy o.acc id then none else
      let r := (s.logOperand core err).mmaEffect core id o err
      let s' := r.1.dropOp core id
      let s' := if o.last then s'.mxfDone core o.bar r.2.1 r.2.2
        else (s'.setLeaf core o.bar ((s'.leaf core o.bar).note r.2.1 r.2.2)).evalLeaf core o.bar
      some (s'.settleAcc core)
    | _ => none)

/-! Accumulator moves (R377, R378). -/

/-- R108: a move joins the operations of its accumulator and takes effect when its turn comes. -/
def State.newMove (s : State) (o : Op) : State := (s.newOp s.focus.core o).settleAcc s.focus.core

/-- R377: ACCRD and ACCRD.I. -/
def execAccrd (v : BitVec 5) (acc rg : BitVec 2) (cls : BitVec 1) (g : BitVec 4) (s : State) :=
  slotOp g [] [.v v] (fun s => do
    s.awaitSeq acc.toNat
    let o : AccReadOp := { seat := s.focus.seat, asid := s.fasid, reg := vphys s.src.ctl.rot v.toNat, acc := acc.toNat,
                           rg := rg.toNat, int := cls == 1 }
    .ok ((s.pendV v s.nextOp).newMove (.accRead o))) s

/-- R377: ACCWR. -/
def execAccwr (v : BitVec 5) (acc rg : BitVec 2) (g : BitVec 4) (s : State) :=
  slotOp g [.v v] [] (fun s => do
    s.awaitSeq acc.toNat
    let x := s.rV v
    needShape (16, 64) v x
    let o : AccWriteOp := { seat := s.focus.seat, asid := s.fasid, acc := acc.toNat, lo := 1024 * rg.toNat, elems := expand x.runs }
    .ok (s.newMove (.accWrite o))) s

/-- R377: ACCZ. -/
def execAccz (acc : BitVec 2) (g : BitVec 4) (s : State) :=
  slotOp g [] [] (fun s => do
    s.awaitSeq acc.toNat
    let o : AccWriteOp := { seat := s.focus.seat, asid := s.fasid, acc := acc.toNat, lo := 0, elems := List.replicate 4096 0 }
    .ok (s.newMove (.accWrite o))) s

/-- R378: the limits of the parameter block of ACCST. -/
def accstOk (p : Params) : Bool :=
  decide (1 ≤ p.rows ∧ p.rows ≤ 64 ∧ 1 ≤ p.cols ∧ p.cols ≤ 64) && p.flg == 0 &&
  (p.aux &&& 0xFFFEC0C0#32) == 0 &&
  decide ((p.aux.extractLsb' 0 6).toNat + p.rows ≤ 64) && decide ((p.aux.extractLsb' 8 6).toNat + p.cols ≤ 64)

/-- R378: an ACCST before its places are known. -/
def State.accstOf (s : State) (p : Params) (acc : BitVec 2) (base : Word) (sp : Bool) : AccstOp :=
  let c := fselCode p.fsel
  { seat := s.focus.seat, asid := s.fasid, sp := sp, acc := acc.toNat, row0 := (p.aux.extractLsb' 0 6).toNat,
    col0 := (p.aux.extractLsb' 8 6).toNat, rows := p.rows, cols := p.cols, int := p.aux.getLsbD 16, code := c, scale := p.scale,
    efr := s.src.ctl.efr.extractLsb' 0 13, l6q := s.src.ctl.ctabsel.extractLsb' 0 2,
    table := if c = 0x30 ∨ c = 0x31 then s.fcore.codeTable else [],
    rowsAt := tileRows base (some p.stride) p.rows p.cols (codeWidth c), win := s.window, maps := [], tagsAt := [],
    score := .nothing, data := none, bar := p.leaf, count := p.rows * ((p.cols * codeWidth c + 7) / 8),
    ord := { rel := none, inOrder := false }, hostOut := 0 }

/-- The joined rows of an ACCST as starts and lengths. -/
def AccstOp.segs (o : AccstOp) : List (Word × Nat) :=
  (mergeRows [] (o.rowsAt.map (fun r => (r.1, List.replicate ((r.2 * codeWidth o.code + 7) / 8) 0)))).map (fun r => (r.1, r.2.length))

/-- R378, R467: ACCST. A held one must find its accumulator idle, for its value is read in the order of issue. -/
def State.accst (s : State) (p : Params) (acc : BitVec 2) (base : Word) (sp : Bool) : Run := do
  match p.leaf with
  | some b => s.awaitLeaf b
  | none => .ok ()
  s.awaitSeq acc.toNat
  let o := s.accstOf p acc base sp
  alignCheck sp .write (misaligned o.code base (some p.stride) true p.rows p.cols)
  if sp then
    let sc := spadScore o.win o.segs
    s.awaitEntry
    s.awaitScore sc
    let s : State := s.spovr s.focus.core s.focus.seat (o.segs.flatMap (fun r => o.win.maps r.1 r.2))
    .ok (s.newMove (.accst { o with score := sc }))
  else
    let pss ← o.segs.mapM (fun r => s.pathPieces .write r.1 r.2)
    let s : State := s.trace s.focus.core s.focus.seat 3 base
    let tags := pss.flatten.flatMap (fun q => (wholeBlocks q.va q.len).map (fun k => (q.pa + k, pteCp q.leaf.entry)))
    let o : AccstOp := { o with maps := pss.flatten.map (fun q => (q.pa, q.len, pteCp q.leaf.entry)), tagsAt := tags, ord := storeOrd none pss.flatten }
    if s.src.ctl.phaseEn then
      s.psqRoom base
      if s.fcore.accBusy acc.toNat s.nextOp then stallX else
      let s := s.install true pss.flatten
      let q := o.sample s.fcore
      .ok ((s.modFcore (fun c => { c with held := c.held ++ [(s.focus.seat, .accst q)] })).crcNote
        (crcRecord base 2 ((q.data.getD []).flatMap (·.2)) (tags.map (fun _ => storeTagOf o.code o.scale))))
    else .ok ((s.install true pss.flatten).newMove (.accst o))

def execAccst (acc : BitVec 2) (a : BitVec 6) (sp : BitVec 1) (g : BitVec 4) (s : State) :=
  blockOp g [.s a] [] (fun s p => s.limit (accstOk p)) (fun p s => s.accst p acc (s.rS a) (sp == 1)) s

/-- Cuts bytes along (address, length, policy) pieces. -/
def cutMaps : List (Nat × Nat × BitVec 3) → List Byte → List (Nat × List Byte)
  | [], _ => []
  | m :: ms, bs => (m.1, bs.take m.2.1) :: cutMaps ms (bs.drop m.2.1)

/-- The writes of an ACCST into its pages: those of the device's memory, and those of the host. -/
def AccstOp.writes (o : AccstOp) (segs : List (Word × List Byte)) (host : Bool) : List (Nat × List Byte) :=
  (cutMaps o.maps (segs.flatMap (·.2))).filter (fun q => (region q.1 == .host) == host)

/-- R378, R88: the writes of an ACCST land; the host's leave as requests that the operation waits for. -/
def State.landAccst (s : State) (core id : Nat) (o : AccstOp) (segs : List (Word × List Byte)) : State :=
  let tag := storeTagOf o.code o.scale
  if o.sp then
    let put (c : Core) (r : Word × List Byte) : Core :=
      let c := c.spPut (o.win.maps r.1 r.2.length) r.2
      (wholeBlocks r.1 r.2.length).foldl (fun c k => c.spWhole o.win (r.1 + BitVec.ofNat 64 k) tag) c
    s.modCore core (fun c => segs.foldl put c)
  else
    let s : State := (o.writes segs false).foldl (fun s q => s.engineBytes q.1 q.2) s
    let s : State := o.tagsAt.foldl (fun s t => if region t.1 = .host then s else s.wholeTag .through t.1 tag) s
    let n := s.host.nextReq
    let s := s.postParts { asid := o.asid, use := .coreOp core id, addr := 0, size := 0, write := true, data := [] } o.ord.inOrder []
      (o.writes segs true)
    s.modCore core (fun c => { c with ops := aput id (.accst { o with hostOut := s.host.nextReq - n }) c.ops })

/-- R378, R383: every write of an ACCST has landed. -/
def State.accstDone (s : State) (core id : Nat) (o : AccstOp) : State :=
  let s := s.dropOp core id
  match o.bar with
  | some b => s.landBytes core b o.count
  | none => s

/-- R153: whether the ordering of the matrix path lets an ACCST land: one through an SO page is a release, which the ACCSTs of its seat
before it precede. -/
def State.mxGoes (s : State) (core id : Nat) (o : AccstOp) : Bool :=
  o.ord.rel.isNone || (s.core core).ops.all (fun e => match e.2 with
    | .accst q => decide (id ≤ e.1) || q.seat != o.seat || q.sp
    | _ => true)

/-- R378, R92: ACCST_LAND; a page that is being pinned or unpinned holds it. -/
def execAccstLand (core id : Nat) (s : State) : Host.Outcome State Fault Refusal :=
  dev "ACCST_LAND" (coreThere core) (match s.op core id with
    | some (.accst o) =>
      (match o.data with
        | none => none
        | some segs =>
          if o.hostOut ≠ 0 ∨ o.maps.any (fun m => s.pinBusy m.1) ∨ !s.mxGoes core id o then none else
          let s' := s.landAccst core id o segs
          some (if o.sp || (o.writes segs true).isEmpty then s'.accstDone core id o else s'))
    | _ => none)

/-- R149, R495: the host has answered a write of an ACCST; one that has failed is a store of the seat that has. -/
def State.accstHostDone (s : State) (core id : Nat) (o : AccstOp) (ok : Bool) : State :=
  let va := (nth (0, 0) 0 o.rowsAt).1.toNat
  let s := if ok then s else s.modSeat core o.seat (fun t =>
    if t.file.ctl.asid = o.asid then { t with hostFailed := t.hostFailed.or (some (transFaddr 0 .write va)) } else t)
  if o.hostOut ≤ 1 then s.accstDone core id o
  else s.modCore core (fun c => { c with ops := aput id (.accst { o with hostOut := o.hostOut - 1 }) c.ops })

/-! Integer format, code table and buffer swap (R379, R380, R395). -/

def execEfrw (a : BitVec 6) (g : BitVec 4) (s : State) :=
  slotOp g [.s a] [] (fun s => .ok (s.efrWrite ((s.rS a).extractLsb' 0 32))) s

/-- R380: the operations that decode. -/
def Op.decodes : Op → Bool
  | .vload o => o.kind != 2
  | .mma _ => true
  | .copy o => o.convert.isSome
  | _ => false

/-- R380: consecutive entries of the code table, modulo 256. -/
def putTable (t : Assoc (BitVec 16)) (first : Nat) : List W32 → Assoc (BitVec 16)
  | [] => t
  | x :: xs => putTable (aput (first % 256) (x.extractLsb' 16 16) t) (first + 1) xs

/-- R380: a converting copy that a commit has still to issue, issued before a CTWR, decodes with the table as it stood. -/
def Held.keepTable (t : Assoc (BitVec 16)) : Held → Held
  | .copy o => .copy { o with convert := o.convert.map (fun c => { c with table := some (c.table.getD t) }) }
  | h => h

def execCtwr (v : BitVec 5) (a : BitVec 6) (g : BitVec 4) (s : State) :=
  slotOp g [.v v, .s a] [] (fun s =>
    if s.opsBefore.any (fun e => e.2.decodes) then stallX else
    .ok (s.modFcore (fun c => { c with held := c.held.map (fun e => (e.1, e.2.keepTable c.codeTable)), codeTable := putTable c.codeTable ((s.rS a).extractLsb' 0 8).toNat (expand (s.rV v).runs) }))) s

/-- R395, R457: SPSWAP. -/
def execSpswap (g : BitVec 4) (s : State) :=
  slotOp g [] [] (fun s => .ok (s.commitF.modCtl (fun c => { c with spwin := c.spwin ^^^ 0x20000#32 }))) s

end Sys2Proof.Machine
end

