-- ==== Sys2Proof/Machine/Copy.lean ====
section
/-! DEFINITION. The copy unit: CPY, CPY.MMA, CPYG, CPYS and CPYW, the landing of their bytes, and follow-on matrix operations
(R104 to R106, R111 to R113, R381 to R387, R551). -/

namespace Sys2Proof.Machine

/-! Issue. -/

/-- R382: the endpoint of a space that a register value names. -/
def endpoint (space : Nat) (v : Word) : Endpoint :=
  if space = 0 then .virt v
  else if space = 1 then .spad v
  else .slot (v.extractLsb' 0 4).toNat (v.extractLsb' 8 6).toNat

/-- R382: a register that names an operand slot holds a slot and a first row, and nothing else. -/
def endpointArg (space : Nat) (v : Word) : Except Stop Unit :=
  if space = 2 ∧ v &&& 0xFFFFFFFFFFFFC0F0#64 ≠ 0 then raiseX 0x37 v else .ok ()

def Endpoint.isVirt : Endpoint → Bool
  | .virt _ => true
  | _ => false

/-- R382: the limits of a slot endpoint: bytes of its longest row, and its rows from the first on, where the register that names it can be
read. -/
def Endpoint.fits (e : Endpoint) (known : Bool) (rows bytes : Nat) : Bool :=
  match e with
  | .slot _ row => decide (bytes ≤ 192) && decide ((if known then row else 0) + rows ≤ 64)
  | _ => true

/-- R105, R382: a source slot must be claimed by either seat. -/
def State.srcHeld (s : State) (src : Endpoint) : Except Stop Unit :=
  match src with
  | .slot n _ => s.slotHeld n
  | _ => .ok ()

/-- R106, R382: a destination slot must be claimed by the issuing seat. -/
def State.dstHeld (s : State) (dst : Endpoint) : Except Stop Unit :=
  match dst with
  | .slot n _ => if (s.fcore.slot n).state = .claimed s.focus.seat then .ok () else raiseX 0x34 (BitVec.ofNat 64 n)
  | _ => .ok ()

/-- R111: the ranges that a copy's local source reads, row by row. -/
def CopyOp.srcScores (o : CopyOp) : List Score :=
  match o.src with
  | .virt _ => []
  | .spad _ => o.srcRows.map (fun r => spadScore o.win [r])
  | .slot n row => [.rows n row (row + o.rows - 1)]

/-- R551: whether an issued matrix operation has yet to read rows of a slot. -/
def Op.readsRows (n lo hi : Nat) : Op → Bool
  | .mma o => decide (lo ≤ hi) && ((o.sa == n && decide (lo < o.rows)) || (o.sb == n && decide (lo < o.cols)))
  | _ => false

def State.awaitReaders (s : State) (o : CopyOp) : Except Stop Unit :=
  match o.dst with
  | .slot n row => if s.opsBefore.any (fun e => e.2.readsRows n row (row + o.rows - 1)) then stallX else .ok ()
  | _ => .ok ()

/-- R381: the copy unit holds 64 copies. -/
def State.awaitCopyUnit (s : State) : Except Stop Unit :=
  if 64 ≤ s.fcore.copies then stallX else .ok ()

/-- The page that holds a translated piece. -/
def pageOf (p : Piece) : PageMap :=
  let size := pageSize p.leaf.level
  { va := p.va.toNat / size * size, pa := ptePpn p.leaf.entry, size := size, cp := pteCp p.leaf.entry }

def PageMap.has (m : PageMap) (va : Nat) : Bool := decide (m.va ≤ va ∧ va < m.va + m.size)

/-- R128: every page that rows touch is translated, in the order of their bytes. -/
def State.copyPages (s : State) (k : Access) (rows : List (Word × Nat)) : Except Stop (List Piece × List PageMap) :=
  (rows.flatMap (fun r => segs r.1 r.2)).foldlM (fun (acc : List Piece × List PageMap) g =>
    if acc.2.any (fun m => m.has g.1.toNat) && inRange g.1 then .ok acc
    else do
      let ps ← s.pathPieces k g.1 g.2
      .ok (acc.1 ++ ps, acc.2 ++ ps.map pageOf)) ([], [])

/-- R387: a source byte outside LPDDR-6 ends a CPYW before it starts. -/
def onlyLpddr (ps : List Piece) : Except Stop Unit :=
  match ps.find? (fun p => region p.pa != .lpddr) with
  | some p => raiseX 0x25 (transFaddr 0 .read p.va.toNat)
  | none => .ok ()

/-- R382, R519: the value of the register that names a copy's destination, as the trace records it; of a slot that no register names, its
number (assumption log entry 146). -/
def Endpoint.word : Endpoint → Word
  | .virt a => a
  | .spad a => a
  | .slot n row => BitVec.ofNat 64 (n + 256 * row)

/-- R456, R457, R467, R519: a copy of the seat in focus is issued, or held where its destination is virtual memory and tracking is on. A
later copy that is not held reads memory without what the held ones will write, which R384 orders before it and R456 holds back (the model's
choice: log entry 147). -/
def State.issueCopy (s : State) (o : CopyOp) : Run := do
  let s := s.trace s.focus.core s.focus.seat 4 o.dst.word
  match o.dst with
  | .virt va =>
    s.psqRoom va
    if s.src.ctl.phaseEn then
      .ok ((s.modFcore (fun c => { c with held := c.held ++ [(s.focus.seat, .copy o)] })).crcNote (crcRecord va 1 [] []))
    else .ok (s.startCopy s.focus.core o)
  | .spad _ =>
    let s : State := s.spovr s.focus.core s.focus.seat (o.dstRows.flatMap (fun r => o.win.maps r.1 r.2))
    .ok ((s.logCopy s.focus.core s.focus.seat o).startCopy s.focus.core o)
  | .slot _ _ => .ok ((s.logCopy s.focus.core s.focus.seat o).startCopy s.focus.core o)

/-- R382, R383: the limits of a copy: 2^24 destination bytes, and those of its slot endpoints; the flags say whether the registers that name
them can be read, without which a first row and the tags of a converting source are not judged. -/
def CopyOp.fits (o : CopyOp) (src dst : Bool) : Bool :=
  decide (o.total ≤ 2 ^ 24) && o.src.fits src o.rows (if src || o.convert.isNone then (o.srcRows.map (·.2)).foldl Nat.max 0 else 0) &&
  o.dst.fits dst o.rows o.rowBytes

/-- R57: the pages of the other blocks of the triple that holds an address; one without a translation gives none. -/
def State.tripleMaps (s : State) (a : Word) : List PageMap :=
  let t := a.toNat / 192 * 192
  [t, t + 64, t + 128].flatMap (fun b =>
    match s.pieces s.focus.core s.fasid .read [(BitVec.ofNat 64 b, 64)] with
    | .ok ps => ps.map pageOf
    | .error _ => [])

/-- R57: the pages of the triples at the ends of the destination rows, whose first tags a poisoned block marks. -/
def State.dstTriples (s : State) (o : CopyOp) : List PageMap :=
  if o.dst.isVirt && o.convert.isNone then
    (o.dstRows.flatMap (fun r => s.tripleMaps r.1 ++ s.tripleMaps (r.1 + BitVec.ofNat 64 (r.2 - 1)))).eraseDups
  else []

/-- R125, R381 to R384: the checks of a copy, its source before its destination, and its issue; `srcArg` and `dstArg` judge the
registers that name its endpoints. -/
def State.copy (s : State) (o : CopyOp) (srcArg dstArg : Except Stop Unit) : Run := do
  match o.bar with
  | some b => s.awaitLeaf b
  | none => .ok ()
  s.awaitCopyUnit
  if o.dst.isVirt then .ok () else s.awaitEntry
  o.srcScores.forM s.awaitScore
  s.awaitScore o.score
  s.awaitReaders o
  if !o.fits true true then s.paramFault else
  srcArg
  if o.seqStep.isSome then .ok () else s.srcHeld o.src
  let rs ← if o.src.isVirt then s.copyPages .read o.srcRows else .ok ([], [])
  if o.stream then onlyLpddr rs.1 else .ok ()
  dstArg
  if o.seqStep.isSome then .ok () else s.dstHeld o.dst
  let ws ← if o.dst.isVirt then s.copyPages .write o.dstRows else .ok ([], [])
  let s := (s.install false rs.1).install true ws.1
  let so (ps : List Piece) : Bool := ps.any (fun p => pteOrd p.leaf.entry == 1)
  let o := { o with maps := o.maps ++ rs.2 ++ ws.2 ++ s.dstTriples o, soSrc := so rs.1, soDst := so ws.1 }
  if !s.cpGoes s.focus.core o then stallX else
  s.issueCopy o

/-- A copy of the seat in focus with the fields of its block. -/
def State.copyOf (s : State) (p : Params) (src dst : Endpoint) (srcStride dstStride : Nat) : CopyOp :=
  { seat := s.focus.seat, asid := s.fasid, rows := p.rows, cols := p.cols, src := src, dst := dst, srcStride := srcStride,
    dstStride := dstStride, index := none, scatter := false, convert := none, lens := [], buf := none, win := s.window, bar := p.leaf, counts := true, stream := false,
    maps := [], soSrc := false, soDst := false, landed := 0, bad := [], local_ := none, localTags := [], hostOut := none, hostData := [], seqStep := none }

/-- R383: the limits of a copy's block that do not depend on its registers; `flags` bounds FLG. -/
def copyOk (p : Params) (dslot : Bool) (flags : Nat) : Bool :=
  decide (1 ≤ p.rows ∧ 1 ≤ p.cols) && (!dslot || p.aux == 0) && decide (p.flg.toNat ≤ flags) &&
  (p.flg.getLsbD 0 || (p.scale == 0 && p.fsel == 0))

/-- R49, R384: the elements of a row of a converting copy that one block holds, or one triple of a 6-bit format: where they start in the
row, their format (a raw block's is FP32), how many they are, the bytes they take and where the row goes on. -/
structure RowPart where
  off : Nat
  code : Nat
  count : Nat
  bytes : Nat
  next : Nat
  deriving DecidableEq, Repr

/-- R46, R51, R384: what the block at an address gives of n elements, by its tag; a block that no decode reads is taken as raw here and
ends the copy when it is decoded. -/
def rowPart (t : BitVec 16) (a off n : Nat) : RowPart :=
  let c := if tagFmt t = 0 ∨ !codeReadable (tagFmt t) then 0x01 else tagFmt t
  let size := if codeSix c then 192 else 64
  let room := size - a % size
  let k := Nat.min n (room * 8 / codeWidth c)
  { off := off, code := c, count := k, bytes := (k * codeWidth c + 7) / 8, next := off + room }

/-- The parts of a row, from its start on; fuel is their number at most. -/
def rowParts (tag : Nat → BitVec 16) : Nat → Nat → Nat → Nat → List RowPart
  | 0, _, _, _ => []
  | fuel + 1, start, off, n =>
    if n = 0 then [] else
    let q := rowPart (tag (start + off)) (start + off) off n
    q :: rowParts tag fuel start q.next (n - q.count)

/-- The bytes of a row from its parts. -/
def rowLen (ps : List RowPart) : Nat :=
  match ps.getLast? with
  | some q => q.off + q.bytes
  | none => 0

/-- The tag of a place of a scratchpad or slot source at issue. -/
def State.localTag (s : State) (o : CopyOp) (a : Nat) : BitVec 16 :=
  match o.src with
  | .virt _ => 0
  | .spad _ => s.fcore.spTag o.win (BitVec.ofNat 64 (a / 64 * 64))
  | .slot n _ => aget 0 (a / 64) (s.fcore.slot n).tags

/-- R125, R384: a source row in virtual memory, translated in the order of its bytes, with the pages of its triples: the length that its
tags give it. -/
def State.rowPlan (s : State) : Nat → Word → Nat → Except Stop (List PageMap × Nat)
  | 0, _, _ => .ok ([], 0)
  | fuel + 1, a, n =>
    if n = 0 then .ok ([], 0) else do
    let first ← s.pathPieces .read a 1
    let t : BitVec 16 := match first with
      | p :: _ => s.loadTag (pteCp p.leaf.entry) p.pa
      | [] => 0
    let q := rowPart t a.toNat 0 n
    let _ ← s.pathPieces .read a q.bytes
    let r ← s.rowPlan fuel (a + BitVec.ofNat 64 q.next) (n - q.count)
    .ok ((if codeSix q.code then s.tripleMaps a else []) ++ r.1, if n ≤ q.count then q.bytes else q.next + r.2)

/-- R384: the bytes of each source row at issue, and the pages of triples. -/
def State.srcPlan (s : State) (o : CopyOp) : Except Stop (List PageMap × List Nat) :=
  match o.src with
  | .virt _ => do
    let rs ← (List.range o.rows).mapM (fun i => s.rowPlan (o.cols + 64) (o.srcRow i) o.cols)
    .ok ((rs.flatMap (·.1)).eraseDups, rs.map (·.2))
  | _ => .ok ([], (List.range o.rows).map (fun i => rowLen (rowParts (s.localTag o) (o.cols + 64) (o.srcRow i).toNat 0 o.cols)))

/-- R384: whether a source row starts in a 6-bit block. -/
def State.rowSix (s : State) (o : CopyOp) (i : Nat) : Bool :=
  match o.src with
  | .virt _ => (match s.pieces s.focus.core s.fasid .read [(o.srcRow i, 1)] with
      | .ok (p :: _) => codeSix (tagFmt (s.loadTag (pteCp p.leaf.entry) p.pa))
      | _ => false)
  | _ => codeSix (tagFmt (s.localTag o (o.srcRow i).toNat))

/-- R384: the alignment of a converting copy: its source rows, then its destination. -/
def State.copyAlign (s : State) (o : CopyOp) (fsel : BitVec 4) : Except Stop Unit := do
  let bad := (List.range o.rows).find? (fun i => (o.srcRow i).toNat % (if s.rowSix o i then 192 else 64) != 0)
  match bad with
  | some i => raiseX 0x26 (if o.src.isVirt then transFaddr 0 .read (o.srcRow i).toNat else o.srcRow i)
  | none => .ok ()
  alignCheck (!o.dst.isVirt) .write
    (misaligned (fselCode fsel) o.dst.base (some (o.dst.step o.dstStride)) true o.rows o.cols)

/-- R384: the conversion that the block of a CPY names. -/
def State.convertOf (s : State) (p : Params) : Convert :=
  { scale := p.scale, fsel := p.fsel, efr := s.src.ctl.efr.extractLsb' 0 13, l6q := s.src.ctl.ctabsel.extractLsb' 0 2, table := none }

/-- A CPY before its places are known. -/
def State.cpyOf (s : State) (p : Params) (a b : BitVec 6) (ssp dsp : BitVec 2) : CopyOp :=
  let o := s.copyOf p (endpoint ssp.toNat (s.rS a)) (endpoint dsp.toNat (s.rS b)) p.stride p.aux.toNat
  if p.flg.getLsbD 0 then { o with convert := some (s.convertOf p) } else o

/-- R384: CPY. -/
def State.cpy (s : State) (p : Params) (a b : BitVec 6) (ssp dsp : BitVec 2) : Run := do
  let srcArg := endpointArg ssp.toNat (s.rS a)
  let dstArg := endpointArg dsp.toNat (s.rS b)
  let o := s.cpyOf p a b ssp dsp
  if p.flg.getLsbD 0 then
    srcArg
    let r ← s.srcPlan o
    let o := { o with maps := r.1, lens := r.2 }
    -- R111: the tags of a local source are judged once no copy that writes them is in flight
    o.srcScores.forM s.awaitScore
    s.copyAlign o p.fsel
    s.copy o srcArg dstArg
  else s.copy o srcArg dstArg

/-- Whether a register can be read. -/
def State.fullS (s : State) (r : BitVec 6) : Bool :=
  !s.srcEmpty (.s r) && (match s.srcFill (.s r) with
    | .orphaned => false
    | .faulted _ _ => false
    | .lateFault _ _ _ => false
    | _ => true)

/-- R280, R382, R383: the limits of a CPY. -/
def State.cpyFits (s : State) (p : Params) (a b : BitVec 6) (ssp dsp : BitVec 2) : Bool :=
  let o := s.cpyOf p a b ssp dsp
  let o := if o.src.isVirt then o else { o with lens := match s.srcPlan o with
    | .ok r => r.2
    | .error _ => [] }
  o.fits (s.fullS a) (s.fullS b)

/-- R111, R433: while a copy that writes the local source of a converting CPY is in flight, its limits are not judged. -/
def State.awaitSource (s : State) (p : Params) (a b : BitVec 6) (ssp dsp : BitVec 2) : Except Stop Unit :=
  let o := s.cpyOf p a b ssp dsp
  if o.convert.isNone || o.src.isVirt || !s.fullS a then .ok () else
  match s.srcPlan o with
  | .ok r => ({ o with lens := r.2 }).srcScores.forM s.awaitScore
  | .error _ => .ok ()

def execCpy (a b : BitVec 6) (ssp dsp : BitVec 2) (g : BitVec 4) (s : State) :=
  blockOp g [.s a, .s b] [] (fun s p => do
    s.limit (copyOk p (dsp == 2) 1)
    s.awaitSource p a b ssp dsp
    s.limit (s.cpyFits p a b ssp dsp)) (fun p s => s.cpy p a b ssp dsp) s

/-- A copy between memory and a local place, before its indices are known. -/
def State.localCopy (s : State) (p : Params) (scatter : Bool) (a b : BitVec 6) (slot : BitVec 1) : CopyOp :=
  let loc := endpoint (if slot = 1 then 2 else 1) (s.rS b)
  let glob : Endpoint := .virt (s.rS a)
  if scatter then s.copyOf p loc glob p.aux.toNat p.stride else s.copyOf p glob loc p.stride p.aux.toNat

/-- R280, R382, R383: its limits. -/
def State.localFits (s : State) (p : Params) (scatter : Bool) (a b : BitVec 6) (slot : BitVec 1) : Bool :=
  (s.localCopy p scatter a b slot).fits (s.fullS b) (s.fullS b)

/-- R454, R455: a copy whose index list is poisoned: no row moves, and its object counts it as ended with the cause. -/
def State.copyFails (s : State) (o : CopyOp) (cause : BitVec 8) : State :=
  s.endCopy s.focus.core s.nextOp o o.total 0x40#32 cause

/-- R386: CPYG and CPYS: the indices are read first. -/
def State.cpyIndexed (s : State) (p : Params) (scatter : Bool) (a b c : BitVec 6) (los : BitVec 1) : Run := do
  let arg := endpointArg (if los = 1 then 2 else 1) (s.rS b)
  let ps ← s.pathPieces .read (s.rS c) (4 * p.rows)
  let bs ← s.readScalar ps
  let idx := (List.range p.rows).map (fun i => bytesToNat ((bs.drop (4 * i)).take 4))
  let s := s.installRead ps
  let o := s.localCopy p scatter a b los
  -- R454, R455: the copy unit has consumed an error in its list: no row moves, and the object records it
  if (s.poisonHit ps).isSome then .ok (s.copyFails o 0x52) else
  if scatter then s.copy { o with index := some idx, scatter := true } arg (.ok ())
  else s.copy { o with index := some idx, scatter := false } (.ok ()) arg

def execCpyg (a b c : BitVec 6) (los : BitVec 1) (g : BitVec 4) (s : State) :=
  blockOp g [.s a, .s b, .s c] []
    (fun s p => s.limit (copyOk p (los == 1) 0 && decide (p.rows ≤ 4096) && s.localFits p false a b los))
    (fun p s => s.cpyIndexed p false a b c los) s
def execCpys (a b c : BitVec 6) (los : BitVec 1) (g : BitVec 4) (s : State) :=
  blockOp g [.s a, .s b, .s c] []
    (fun s p => s.limit (copyOk p (los == 1) 0 && decide (p.rows ≤ 4096) && s.localFits p true a b los))
    (fun p s => s.cpyIndexed p true a b c los) s

/-- R387: CPYW. -/
def execCpyw (a b : BitVec 6) (dos : BitVec 1) (g : BitVec 4) (s : State) :=
  blockOp g [.s a, .s b] [] (fun s p => s.limit (copyOk p (dos == 1) 0 && s.localFits p false a b dos)) (fun p s =>
    s.copy { s.localCopy p false a b dos with stream := true } (.ok ()) (endpointArg (if dos = 1 then 2 else 1) (s.rS b))) s

/-- R385: the copy of a CPY.MMA, and its limits (R280, R382). -/
def State.mmaCopy (s : State) (p : Params) (a : BitVec 6) (dslot : BitVec 4) (ssp : BitVec 2) : CopyOp :=
  s.copyOf p (endpoint ssp.toNat (s.rS a)) (.slot dslot.toNat 0) p.stride 0
def State.mmaFits (s : State) (p : Params) (a : BitVec 6) (dslot : BitVec 4) (ssp : BitVec 2) : Bool :=
  (s.mmaCopy p a dslot ssp).fits (s.fullS a) true

/-- R385: CPY.MMA: the copy and its follow-on take their places together. -/
def State.cpyMma (s : State) (p : Params) (a : BitVec 6) (dslot oslot : BitVec 4) (acc : BitVec 2) (side z : BitVec 1)
    (ssp : BitVec 2) : Run := do
  s.awaitSeq acc.toNat
  if s.fcore.arrayFull then stallX else
  let o := s.mmaCopy p a dslot ssp
  let id := s.nextOp
  let s ← s.copy o (endpointArg ssp.toNat (s.rS a)) (.ok ())
  s.slotHeld oslot.toNat
  let m : MmaOp :=
    { seat := s.focus.seat, asid := s.fasid, acc := acc.toNat, sa := (if side = 0 then dslot else oslot).toNat,
      sb := (if side = 0 then oslot else dslot).toNat, bar := p.bar, zero := z == 1, rows := 64, cols := 64,
      efr := s.src.ctl.efr.extractLsb' 0 13, l6q := s.src.ctl.ctabsel.extractLsb' 0 2, waits := some id,
      seqStep := none, last := true, failed := none, status := 0 }
  .ok ((s.mxfUp s.focus.core p.bar).newOp s.focus.core (.mma m))

def execCpyMma (a : BitVec 6) (dslot oslot : BitVec 4) (acc : BitVec 2) (side z : BitVec 1) (ssp : BitVec 2) (g : BitVec 4)
    (s : State) :=
  blockOp g [.s a] []
    (fun s p => s.limit (copyOk p true 0 && decide (p.rows ≤ 64 ∧ p.cols ≤ 192) && !p.nobar && s.mmaFits p a dslot ssp))
    (fun p s => s.cpyMma p a dslot oslot acc side z ssp) s

/-! Landing. -/

/-- The physical byte of a virtual address of a copy in flight, and its cache policy. -/
def CopyOp.phys (o : CopyOp) (a : Nat) : Nat × BitVec 3 :=
  match o.maps.find? (fun m => m.has a) with
  | some m => (m.pa + (a - m.va), m.cp)
  | none => (0, 0)

/-- Where the k-th destination byte of a copy lies, and where the k-th byte of a copy that does not convert comes from. -/
def CopyOp.dstAt (o : CopyOp) (k : Nat) : Word := o.dstRow (k / o.rowBytes) + BitVec.ofNat 64 (k % o.rowBytes)
def CopyOp.srcAt (o : CopyOp) (k : Nat) : Word := o.srcRow (k / o.rowBytes) + BitVec.ofNat 64 (k % o.rowBytes)

/-- A byte that the host has given. -/
def hostByte (l : List (Nat × List Byte)) (pa : Nat) : Option Byte :=
  l.findSome? (fun e => if e.1 ≤ pa then e.2[pa - e.1]? else none)

/-- The tag and the ECC-poison of the source block of a place; none of a page that is not translated (R57). A CPYW reads its tags as
it reads its data, in the coherent view (R48, R87). -/
def State.copyTag (s : State) (o : CopyOp) (a : Nat) : BitVec 16 × Bool :=
  match o.local_ with
  | some _ => aget (0, false) (a / 64) o.localTags
  | none =>
    if !o.maps.any (fun m => m.has a) then (0, false) else
    let p := o.phys a
    (if o.stream then s.tagAt p.1 else s.loadTag p.2 p.1, s.poisoned p.1)

/-- R46, R384: the bytes that a source row takes under the tags that its blocks carry now; a row that has been read keeps its own. -/
def State.rowNow (s : State) (o : CopyOp) (i : Nat) : Nat :=
  if o.local_.isSome || o.convert.isNone || o.buf.isSome then o.srcBytes i
  else rowLen (rowParts (fun a => (s.copyTag o a).1) (o.cols + 64) (o.srcRow i).toNat 0 o.cols)

/-- Whether two ranges of addresses meet. -/
def meets (a b : Word × Nat) : Bool := a.2 != 0 && b.2 != 0 && (decide ((a.1 - b.1).toNat < b.2) || decide ((b.1 - a.1).toNat < a.2))

/-- R384: copies of one seat take effect in their issue order on one virtual byte: whether an earlier copy has still to move a
byte that n bytes of this one touch. -/
def State.copyBlocked (s : State) (core id : Nat) (o : CopyOp) (n : Nat) : Bool :=
  let i := o.landed / Nat.max o.rowBytes 1
  let to_ : Word × Nat := (o.dstAt o.landed, n)
  let from_ : Word × Nat := if o.convert.isSome then (o.srcRow i, s.rowNow o i) else (o.srcAt o.landed, n)
  (s.core core).ops.any (fun e => match e.2 with
    | .copy q =>
      let k := q.landed / Nat.max q.rowBytes 1
      decide (e.1 < id) && q.seat == o.seat &&
      ((q.dst.isVirt && (q.dstRows.drop k).any (fun r => (o.dst.isVirt && meets r to_) || (o.src.isVirt && meets r from_))) ||
       (q.src.isVirt && o.dst.isVirt && (q.srcRows.drop k).any (fun r => meets r to_)))
    | _ => false)

/-- R551: whether a matrix operation issued before a copy has yet to read rows that the copy writes. -/
def State.copyReaders (s : State) (core id : Nat) (o : CopyOp) : Bool :=
  match o.dst with
  | .slot n row => (s.core core).ops.any (fun e => decide (e.1 < id) && e.2.readsRows n row (row + o.rows - 1))
  | _ => false

/-- R92: whether a page that n landing bytes come from or go to is being pinned or unpinned. -/
def State.copyPinned (s : State) (o : CopyOp) (n : Nat) : Bool :=
  let i := o.landed / Nat.max o.rowBytes 1
  let src : List Word := if !o.src.isVirt then [] else
    if o.convert.isSome then (List.range (s.rowNow o i)).map (fun k => o.srcRow i + BitVec.ofNat 64 k)
    else (List.range n).map (fun k => o.srcAt (o.landed + k))
  let dst : List Word := if o.dst.isVirt then (List.range n).map (fun k => o.dstAt (o.landed + k)) else []
  (src ++ dst).any (fun a => s.pinBusy (o.phys a.toNat).1)

/-- The bytes of a source row; the host's bytes must have come. -/
def State.copyRow (s : State) (o : CopyOp) (i : Nat) : List Byte :=
  let before := ((List.range i).map o.srcBytes).foldl (· + ·) 0
  match o.local_ with
  | some l => (l.drop before).take (o.srcBytes i)
  | none => (List.range (s.rowNow o i)).map (fun k =>
      let p := o.phys (o.srcRow i + BitVec.ofNat 64 k).toNat
      if region p.1 = .host then (hostByte o.hostData p.1).getD 0
      else if o.stream then s.byteAt p.1
      else if p.2 = 2 then s.homeByte p.1 else s.byteAt p.1)

/-- R57, R384: the elements of one part of a row. -/
def convertPart (t : FmtCtx) (c : Convert) (tags : Assoc (BitVec 16)) (start : Word) (bs : List Byte) (q : RowPart) :
    Except (BitVec 8) (List Nat) :=
  let w := codeWidth q.code
  let at_ := start + BitVec.ofNat 64 q.off
  if codeSix q.code && at_.toNat % 192 != 0 then .error 0x31 else
  (List.range q.count).mapM (fun k =>
    match loadElem t 0 q.code tags (at_ + BitVec.ofNat 64 (w * k / 8)) (w * k % 8) (bitsAt (bs.drop q.off) (w * k) w) with
    | .ok x => Except.ok (storeCode t (fselCode c.fsel) c.scale x.1)
    | .error e => Except.error e.1)

/-- R46, R51, R384: a row of a converting copy as it is read, under the tags that its blocks carry now, or its cause; a row that these
tags make so long that it leaves the pages translated at issue does not agree with itself. -/
def State.convertRow (s : State) (core : Nat) (o : CopyOp) (c : Convert) (i : Nat) : Except (BitVec 8) (List Byte) :=
  let len := s.rowNow o i
  let row : CopyOp := { o with rows := 1, src := .virt (o.srcRow i), index := none, lens := [len] }
  let tags := row.srcBlocks.foldl (fun (m : Assoc (BitVec 16)) b => aput b (s.copyTag o (64 * b)).1 m) []
  let parts := rowParts (fun a => aget 0 (a / 64) tags) (o.cols + 64) (o.srcRow i).toNat 0 o.cols
  if (rowBlocks [(o.srcRow i, len)]).any (fun b => (s.copyTag o (64 * b)).2) then .error 0x52
  else if o.local_.isNone && (List.range len).any (fun k => !o.maps.any (fun m => m.has (o.srcRow i + BitVec.ofNat 64 k).toNat)) then .error 0x31
  else
    let t : FmtCtx := { efr := c.efr, l6q := c.l6q, table := c.table.getD (s.core core).codeTable }
    let bs := s.copyRow o i
    let codes := parts.mapM (convertPart t c tags (o.srcRow i) bs)
    codes.map (fun l => packCodes (codeWidth (fselCode c.fsel)) l.flatten)

/-- The row that is landing, read at once by a converting copy (R150), and its bytes from a place on, n of them. -/
def State.landing (s : State) (core : Nat) (o : CopyOp) (n : Nat) : Except (BitVec 8) (CopyOp × List Byte) :=
  let i := o.landed / o.rowBytes
  let c := o.landed % o.rowBytes
  match o.convert with
  | none => .ok (o, ((s.copyRow o i).drop c).take n)
  | some cv =>
    let row := match o.buf with
      | some bs => Except.ok bs
      | none => s.convertRow core o cv i
    row.map (fun bs => ({ o with buf := some bs }, (bs.drop c).take n))

/-- R93: a copy that reads through the caches brings its lines into them. -/
def State.copyFill (s : State) (core : Nat) (o : CopyOp) (n : Nat) : State :=
  if o.stream || !o.src.isVirt || o.local_.isSome then s else
  let i := o.landed / Nat.max o.rowBytes 1
  let at_ : List Word := if o.convert.isSome then (List.range (s.rowNow o i)).map (fun k => o.srcRow i + BitVec.ofNat 64 k)
    else (List.range n).map (fun k => o.srcAt (o.landed + k))
  let lines := (at_.map (fun a => let p := o.phys a.toNat; (p.1 / 64, p.2))).eraseDups
  (lines.foldl (fun s l => s.fillLine core l.2 l.1) s).trim

/-- R47: the position that writes an address last, over all rows of the destination. -/
def CopyOp.posOf (o : CopyOp) (x : Word) : Option Nat :=
  (List.range o.rows).reverse.findSome? (fun i =>
    let d := (x - o.dstRow i).toNat
    if d < o.rowBytes then some (i * o.rowBytes + d) else none)

/-- R47, R48: the blocks that n landing bytes write whole in one run, with the positions of their bytes. -/
def CopyOp.wholeRuns (o : CopyOp) (n : Nat) : List (Word × List Nat) :=
  ((List.range n).map (fun i => o.landed + i)).filterMap (fun k =>
    if 63 ≤ k ∧ (o.dstAt (k - 63)).toNat % 64 = 0 ∧
        (List.range 64).all (fun j => o.dstAt (k - 63 + j) == o.dstAt (k - 63) + BitVec.ofNat 64 j) = true
    then some (o.dstAt (k - 63), (List.range 64).map (k - 63 + ·)) else none)

/-- R47: the blocks that the copy's rows write whole between them, and that n landing bytes complete. -/
def CopyOp.wholeRows (o : CopyOp) (n : Nat) : List (Word × List Nat) :=
  (((List.range n).map (fun i => (o.dstAt (o.landed + i)).toNat / 64)).eraseDups).filterMap (fun b =>
    match (List.range 64).mapM (fun j => o.posOf (BitVec.ofNat 64 (64 * b + j))) with
    | some ps => if ps.all (fun p => decide (p < o.landed + n)) then some (BitVec.ofNat 64 (64 * b), ps) else none
    | none => none)

def CopyOp.wholes (o : CopyOp) (n : Nat) : List (Word × List Nat) :=
  let rows := o.wholeRows n
  (o.wholeRuns n).filter (fun r => !rows.any (fun x => x.1 == r.1)) ++ rows

/-- R47: whether bytes at positions come from one whole source block. -/
def CopyOp.fromWhole (o : CopyOp) (ps : List Nat) : Bool :=
  let a := o.srcAt (nth 0 0 ps)
  a.toNat % 64 == 0 && ((List.range 64).zip ps).all (fun x => o.srcAt x.2 == a + BitVec.ofNat 64 x.1)

/-- Whether bytes at positions come from host memory. -/
def CopyOp.fromHost (o : CopyOp) (ps : List Nat) : Bool :=
  o.src.isVirt && ps.all (fun k => region (o.phys (o.srcAt k).toNat).1 == .host)

/-- R453: marks the destination block of a place as poisoned: its SCALE becomes 0xFF, or that of the first block of its 6-bit triple
(R53). -/
def State.poisonDst (s : State) (core : Nat) (o : CopyOp) (a : Word) : State :=
  let b := blockOf a
  let first (t : BitVec 16) : Word := if codeSix (tagFmt t) then BitVec.ofNat 64 (a.toNat / 192 * 192) else b
  match o.dst with
  | .virt _ =>
    let pa := (o.phys a.toNat).1
    if region pa = .host then s else
    let f := first (s.tagAt pa)
    let fa := (o.phys f.toNat).1
    -- R57: a first block without a translation has no tag that a reader of the triple would see
    let s := if o.maps.any (fun m => m.has f.toNat) then s.engineTag fa (0xFF#8 ++ (s.tagAt fa).extractLsb' 0 8) else s
    { s with poison := aput (pa / 64) true s.poison }
  | .spad _ =>
    s.modCore core (fun c =>
      let f := first (c.spTag o.win b)
      let c := c.spPutTag o.win f (0xFF#8 ++ (c.spTag o.win f).extractLsb' 0 8)
      match o.win.map b with
      | some m => { c with spadPoison := aput (m / 64) true c.spadPoison }
      | none => c)
  | .slot n _ => s.modCore core (fun c => c.modSlot n (fun q =>
      let f := (first (aget 0 (a.toNat / 64) q.tags)).toNat / 64
      { q with poison := aput (a.toNat / 64) true q.poison, tags := aput f (0xFF#8 ++ (aget 0 f q.tags).extractLsb' 0 8) q.tags }))

/-- R47, R453: a destination block written whole: its tag (none: as it was), and no poison. -/
def State.wholeDst (s : State) (core : Nat) (o : CopyOp) (a : Word) (t : Option (BitVec 16)) : State :=
  match o.dst with
  | .virt _ =>
    let pa := (o.phys a.toNat).1
    if region pa = .host then s else (match t with
      | some t => s.wholeTag .through pa t
      | none => s.clearPoison pa)
  | .spad _ => s.modCore core (fun c => c.spWhole o.win a (t.getD (c.spTag o.win a)))
  | .slot n _ => s.modCore core (fun c => c.modSlot n (fun q =>
      { q with poison := adel (a.toNat / 64) q.poison,
               tags := (match t with
                 | some t => aput (a.toNat / 64) t q.tags
                 | none => q.tags) }))

/-- The landing bytes are written at their places (R88). -/
def State.putDst (s : State) (core : Nat) (o : CopyOp) (bs : List Byte) : State :=
  let at_ := (List.range bs.length).zip bs |>.map (fun x => (o.dstAt (o.landed + x.1), x.2))
  match o.dst with
  | .virt _ => at_.foldl (fun s x => s.engineBytes (o.phys x.1.toNat).1 [x.2]) s
  | .spad _ => s.modCore core (fun c => c.spPut (at_.map (fun x => o.win.map x.1)) bs)
  | .slot n _ => s.modCore core (fun c => c.modSlot n (fun q =>
      { q with lastAsid := o.asid, data := at_.foldl (fun (m : Assoc Byte) x => aput x.1.toNat x.2 m) q.data }))

/-- R453: the destination blocks that n landing bytes take from poisoned blocks. -/
def State.badNow (s : State) (o : CopyOp) (n : Nat) : List Word :=
  if o.convert.isSome then [] else
  (((List.range n).map (fun i => o.landed + i)).filterMap (fun k =>
    if (s.copyTag o (o.srcAt k).toNat).2 then some (blockOf (o.dstAt k)) else none)).eraseDups

/-- R47, R453: the tags and the poison that n landing bytes bring, and that earlier ones have brought. A whole block that a copy which does not convert fills from
parts of two source blocks keeps its tag: the rule gives it none (the model's choice). -/
def State.landTags (s : State) (core : Nat) (o : CopyOp) (n : Nat) : State :=
  match o.convert with
  | some c => (o.wholes n).foldl (fun s r => s.wholeDst core o r.1 (some (storeTagOf (fselCode c.fsel) c.scale))) s
  | none =>
    let s : State := (o.wholes n).foldl (fun s r =>
      let t := if o.fromHost r.2 then some 0
        else if o.fromWhole r.2 then some (s.copyTag o (o.srcAt (nth 0 0 r.2)).toNat).1 else none
      s.wholeDst core o r.1 t) s
    (o.bad ++ s.badNow o n).eraseDups.foldl (fun s a => s.poisonDst core o a) s

/-- R113, R383: n bytes have landed: PEND falls; with the last byte the copy retires. -/
def State.landed (s : State) (core id : Nat) (o : CopyOp) (n : Nat) : State :=
  let m := o.landed + n
  let s := if m < o.total then
      s.modCore core (fun c => { c with ops := aput id (.copy { o with
        landed := m, hostOut := none, hostData := if o.convert.isSome then o.hostData else [], buf := if m % o.rowBytes = 0 then none else o.buf }) c.ops })
    else s.dropOp core id
  match o.bar with
  | some b => if o.counts then s.landBytes core b n else s
  | none => s

/-- R495: the first host byte that n landing bytes still need; a copy that decodes asks for whole blocks, and keeps them (R150). -/
def State.needsHost (s : State) (o : CopyOp) (n : Nat) : Option Nat :=
  if !o.src.isVirt || o.buf.isSome then none else
  let want : List Word := match o.convert with
    | none => (List.range n).map (fun i => o.srcAt (o.landed + i))
    | some _ =>
      let i := o.landed / o.rowBytes
      (List.range (s.rowNow o i)).map (fun k => o.srcRow i + BitVec.ofNat 64 k)
  want.findSome? (fun a =>
    let pa := (o.phys a.toNat).1
    if region pa = .host ∧ (hostByte o.hostData pa).isNone = true then some pa else none)

/-- R495: a copy in flight asks the host for bytes, or gives it some. -/
def State.copyAsks (s : State) (core id : Nat) (o : CopyOp) (pa : Nat) (write : Bool) (n : Nat) (data : List Byte) : State :=
  let r : HostReq := { asid := o.asid, use := .coreOp core id, addr := pa, size := n, write := write, data := data }
  let q := s.host.nextReq
  (s.hostRequest r).modCore core (fun c => { c with ops := aput id (.copy { o with hostOut := some q }) c.ops })

/-- The landing of n bytes of one row: a whole row, or up to a destination block boundary (R48). -/
def CopyOp.mayLand (o : CopyOp) (n : Nat) : Bool :=
  let c := o.landed % o.rowBytes
  decide (1 ≤ n) && decide (c + n ≤ o.rowBytes) &&
  (c + n == o.rowBytes || (o.dstAt (o.landed + n)).toNat % 64 == 0)

/-- R92, R384, R551: whether the next n bytes of a copy have to wait. -/
def State.copyWaits (s : State) (core id : Nat) (o : CopyOp) (n : Nat) : Bool :=
  o.hostOut.isSome || s.copyBlocked core id o n || s.copyReaders core id o || s.copyPinned o n

/-- R381 to R384: COPY_LAND: the next bytes of a copy land. -/
def execCopyLand (core id count : Nat) (s : State) : Host.Outcome State Fault Refusal :=
  dev "COPY_LAND" (coreThere core) (match s.op core id with
    | some (.copy o) =>
      if !o.mayLand count || s.copyWaits core id o count then none else
      (match s.needsHost o count with
        | some pa => some (s.copyAsks core id o (if o.convert.isSome then pa / 64 * 64 else pa) false (if o.convert.isSome then 64 else hostChunk pa count) [])
        | none =>
          match s.landing core o count with
          | .error cause => some (s.endCopy core id o o.total 0x40#32 cause)
          | .ok r =>
            let s := s.copyFill core o count
            let pa := (o.phys (o.dstAt o.landed).toNat).1
            if o.dst.isVirt ∧ region pa = .host then
              let n := hostChunk pa count
              some (s.copyAsks core id r.1 pa true n (r.2.take n))
            else some (((s.putDst core o r.2).landTags core o count).landed core id { r.1 with bad := (o.bad ++ s.badNow o count).eraseDups } count))
    | _ => none)

/-- R495: the host has completed a request of a copy; an error ends the copy with CPYFLT and HOST_ERROR. -/
def State.copyHostDone (s : State) (core id : Nat) (o : CopyOp) (r : HostReq) (data : Option (List Byte)) : State :=
  match data with
  | none => s.endCopy core id o o.total 0x40#32 0x28
  | some bs =>
    if r.write then s.landed core id o r.size
    else s.modCore core (fun c => { c with ops := aput id (.copy { o with hostOut := none, hostData := o.hostData ++ [(r.addr, bs)] }) c.ops })

/-! Follow-on matrix operations (R385). -/

/-- R385: whether a scoreboard entry issued before a copy overlaps the rows that its follow-on reads. -/
def State.followBlocked (s : State) (core copy : Nat) (o : MmaOp) : Bool :=
  (s.core core).ops.any (fun e => decide (e.1 < copy) &&
    (e.2.score.overlaps (.rows o.sa 0 63) || e.2.score.overlaps (.rows o.sb 0 63)))

/-- R385: the copy unit issues a follow-on to the array; one that fails its format checks is not performed. -/
def execFollowOnMma (core id : Nat) (s : State) : Host.Outcome State Fault Refusal :=
  dev "FOLLOW_ON_MMA" (coreThere core) (match s.op core id with
    | some (.mma o) =>
      (match o.waits with
        | none => none
        | some copy =>
          if (s.op core copy).isSome || s.followBlocked core copy o then none else
          match (s.core core).mmaCheck o.sa o.sb o.rows o.cols s.fresh with
          | some c => some (((s.dropOp core id).mxfDone core o.bar 0x20#32 c.1).settleAcc core)
          | none => some (s.modCore core (fun c => { c with ops := aput id (.mma { o with waits := none }) c.ops })))
    | _ => none)

end Sys2Proof.Machine
end

