-- ==== Sys2Proof/Machine/BarOps.lean ====
section
/-! DEFINITION. The barrier instructions of position C (R389 to R394). -/

namespace Sys2Proof.Machine

/-- R392: OBJ 0 to 15 names a leaf of the core, 16 to 23 a root of its cluster. -/
def isLeaf (obj : BitVec 5) : Bool := decide (obj.toNat < 16)
def State.barObj (s : State) (obj : BitVec 5) : Barrier :=
  if isLeaf obj then s.leaf s.focus.core obj.toNat else s.root (clusterOf s.focus.core) (obj.toNat - 16)
def State.setBarObj (s : State) (obj : BitVec 5) (b : Barrier) : State :=
  if isLeaf obj then s.setLeaf s.focus.core obj.toNat b else s.setRoot (clusterOf s.focus.core) (obj.toNat - 16) b
/-- R390: evaluation after an event. -/
def State.evalObj (s : State) (obj : BitVec 5) : State :=
  if isLeaf obj then s.evalLeaf s.focus.core obj.toNat else s.evalRoot (clusterOf s.focus.core) (obj.toNat - 16)

/-- R370: BARRIER_STATE with the OBJ value. -/
def barState {α : Type} (obj : BitVec 5) : Except Stop α := raiseX 0x36 (obj.zeroExtend 64)

/-- R391: a leaf that awaits its root stalls the seat that names it. -/
def State.awaitObj (s : State) (obj : BitVec 5) : Except Stop Unit := if (s.barObj obj).arrived then stallX else .ok ()

/-- R392: whether a leaf linked to a root has arrived, one that a save frame holds among them. -/
def State.linkedArrived (s : State) (cl o : Nat) : Bool :=
  let has (l : Assoc Barrier) : Bool := l.any (fun x => x.2.link == some (cl, o) && x.2.arrived)
  s.cores.any (fun c => has c.2.leaf) || s.dies.any (fun d => d.2.pool.any (fun e => match e.item with
    | .frame f => has f.leaf
    | .record _ => false))

def execBarInit (obj : BitVec 5) (a b : BitVec 6) (g : BitVec 4) (s : State) :=
  slotOp g [.s a, .s b] [] (fun s =>
    let o := s.barObj obj
    let e := (s.rS a).extractLsb' 0 16
    if e = 0 ∨ o.mxf ≠ 0 ∨ o.arrived = true ∨
        (!isLeaf obj && s.linkedArrived (clusterOf s.focus.core) (obj.toNat - 16)) = true then barState obj
    else .ok (s.setBarObj obj { o with exp := e.toNat, pend := ((s.rS b).extractLsb' 0 32).toInt, arr := 0, cstat := 0 })) s

/-- R392: a leaf loses its link; the root counts one leaf fewer. -/
def State.unlinkLeaf (s : State) (core o : Nat) : State :=
  let b := s.leaf core o
  match b.link with
  | none => s
  | some (cl, r) =>
    let t := s.root cl r
    (s.setRoot cl r { t with links := t.links - 1 }).setLeaf core o { b with link := none }

def execBarLink (obj : BitVec 5) (a : BitVec 6) (g : BitVec 4) (s : State) :=
  slotOp g [.s a] [] (fun s =>
    let v := (s.rS a).toNat
    if !isLeaf obj ∨ (s.barObj obj).arrived = true ∨ ¬(v < 8 ∨ v = 0xFF) then barState obj
    else
      let core := s.focus.core
      let s := s.unlinkLeaf core obj.toNat
      if v = 0xFF then .ok s else
      let cl := clusterOf core
      let t := s.root cl v
      .ok ((s.setRoot cl v { t with links := t.links + 1 }).setLeaf core obj.toNat { s.leaf core obj.toNat with link := some (cl, v) })) s

/-- R392: saturation of PEND. -/
def satPend (v : Int) : Int := clampPend v

def execBarExp (obj : BitVec 5) (a : BitVec 6) (g : BitVec 4) (s : State) :=
  slotOp g [.s a] [] (fun s => do
    s.awaitObj obj
    let o := s.barObj obj
    .ok ((s.setBarObj obj { o with pend := satPend (o.pend + ((s.rS a).extractLsb' 0 32).toInt) }).evalObj obj)) s

def execBarArr (obj : BitVec 5) (g : BitVec 4) (s : State) :=
  slotOp g [] [] (fun s => do
    s.awaitObj obj
    -- R165: the flip is a release, of the loads before an arrival too; those of its own bundle let it issue and come before the arrival
    if !s.loadsDone (fun _ => true) then stallX else
    match s.ownLoad with
    | some id => .ok (s.modFcore (fun c => { c with arrivals := c.arrivals ++ [(s.focus.seat, obj.toNat, id)] }))
    | none => .ok (s.arriveAt s.focus.core obj.toNat)) s

/-- R392: whether a wait for the end of a parity is satisfied. -/
def State.barDone (s : State) (obj : BitVec 5) (a : BitVec 6) : Bool := (s.barObj obj).phase != (s.rS a).getLsbD 0

/-- R393: a satisfied wait; with TR the overrun of the completed phase is raised after the bundle. -/
def State.barPass (s : State) (obj : BitVec 5) (tr : BitVec 1) : Run :=
  let o := s.barObj obj
  if tr = 1 ∧ o.lstat.getLsbD 8 = true then
    let e : Entry := { cause := 0x38, faddr := BitVec.ofNat 64 o.excess, slot := 3, pblk := false, epc := s.focus.seqNext }
    .ok (s.modF (fun t => { t with deferred := t.deferred.or (some e) }))
  else .ok s

def execBarWait (obj : BitVec 5) (a : BitVec 6) (tr : BitVec 1) (g : BitVec 4) (s : State) :=
  slotOp g [.s a] [] (fun s => if s.barDone obj a then s.barPass obj tr else stallX) s

/-- R208: the key of a wait on an object. -/
def State.barKey (s : State) (obj : BitVec 5) (a : BitVec 6) : WaitKey :=
  if isLeaf obj then .leaf s.focus.core obj.toNat ((s.rS a).getLsbD 0)
  else .root (clusterOf s.focus.core) (obj.toNat - 16) ((s.rS a).getLsbD 0)

def execBarWaitS (obj : BitVec 5) (a : BitVec 6) (tr : BitVec 1) (g : BitVec 4) (s : State) :=
  slotOp g [.s a] [] (fun s =>
    if s.staysPut then (if s.barDone obj a then s.barPass obj tr else stallX)
    else if stageAct s.src.ctl.stage then raiseX 0x04 0
    else if s.barDone obj a then s.barPass obj tr
    else do
      s.awaitOwnSeq
      .error (.suspend (s.barKey obj a) 0 0)) s

def execBarTest (obj : BitVec 5) (a d : BitVec 6) (g : BitVec 4) (s : State) :=
  slotOp g [.s a] [.s d] (fun s => .ok (s.wS d (if s.barDone obj a then 1 else 0) (s.after 2))) s

/-- R394: the views of an object. -/
def Barrier.view (b : Barrier) (root : Bool) (v : Nat) : Word :=
  if v = 0 then BitVec.ofNat 32 b.excess ++ b.lstat
  else if v = 1 then BitVec.ofInt 32 b.pend ++ b.cstat
  else
    let link : Nat := match b.link with
      | some (_, r) => 2 ^ 61 + r * 2 ^ 58
      | none => 0
    BitVec.ofNat 64 ((if b.phase then 2 ^ 63 else 0) + (if b.arrived then 2 ^ 62 else 0) + link + b.mxf % 256 * 2 ^ 40 +
      (if root then b.links % 256 * 2 ^ 32 else 0) + b.arr % 65536 * 65536 + b.exp % 65536)

def execBarStat (obj : BitVec 5) (a d : BitVec 6) (g : BitVec 4) (s : State) :=
  slotOp g [.s a] [.s d] (fun s =>
    let v := ((s.rS a).extractLsb' 0 2).toNat
    if v = 3 then barState obj else .ok (s.wS d ((s.barObj obj).view (!isLeaf obj) v) (s.after 2))) s

end Sys2Proof.Machine
end

