-- ==== Sys2Proof/Machine/Bte.lean ====
section
/-! DEFINITION. The block-transfer engines: the BTE instruction, the end of a transfer, and completion records (R31, R39, R129,
R255, R256, R388). -/

namespace Sys2Proof.Machine

/-! Accesses of an engine by virtual or physical address. -/

/-- Where an engine's access of a byte goes: the physical address and, for a virtual one, the leaf, with what it takes to install it. -/
structure EngAt where
  pa : Nat
  leaf : Option Leaf
  eng : Nat
  asid : BitVec 16
  va : Nat
  deriving DecidableEq, Repr

/-- R31, R39, R124, R133: where an access of an engine (numbered as Xlat numbers them) goes; a device physical address is checked against
the map. R36 gives loads of the journal through resole-only pages alone, and R42 lists it for physical addresses without saying what a read
comes to: an engine's read of the journal by a physical address goes through (the model's choice: log entry 152). -/
def State.engineAt (s : State) (eng : Nat) (asid : BitVec 16) (phys : Bool) (v : Word) (w : Bool) : Except Cause EngAt :=
  let k : Access := .engine w
  let f := transFaddr 0 k v.toNat
  let at_ (pa : Nat) (l : Option Leaf) : EngAt := { pa := pa, leaf := l, eng := eng, asid := asid, va := v.toNat }
  if phys then
    match region v.toNat with
    | .hole => .error (0x20#8, f)
    | .control => .error (0x25#8, f)
    | .lpddr => .ok (at_ v.toNat none)
    | .host => .ok (at_ v.toNat none)
    | _ => if w then .error (0x24#8, f) else .ok (at_ v.toNat none)
  else (s.translateEngine eng asid v k).map (fun l => at_ (l.pa v.toNat) (some l))

/-- R133, R135: an engine's access takes effect on its TLB, its walker's cache and the leaf's A and D bits. -/
def State.markAt (s : State) (p : EngAt) (w : Bool) : State :=
  match p.leaf with
  | some l => s.installFor (.engine p.eng) p.asid p.va l w
  | none => s

/-- R135: what an engine's TLB keeps where a write has failed. -/
def State.engineFail (s : State) (eng : Nat) (asid : BitVec 16) (phys : Bool) (v : Word) (w : Bool) : State :=
  if phys then s else s.revise (.engine eng) asid (.engine w) v

/-- The bytes that an engine reads at a place under the leaf's policy. -/
def State.engineRead (s : State) (p : EngAt) (n : Nat) : List Byte :=
  s.loadBytes (match p.leaf with
    | some l => pteCp l.entry
    | none => 2) p.pa n

/-- R502: the 80-bit time: seconds above 32 bits of nanoseconds. -/
def State.time80 (s : State) : List Byte := natToBytes 10 (s.ptpNs / 1000000000 * 2 ^ 32 + s.ptpNs % 1000000000)

/-! Completion ring descriptors (R255, R256). -/

/-- R255: a descriptor's bytes are well formed, for rings of 2^lo to 2^hi records of a size. -/
def ringOk (addr : Word) (b : List Byte) (lo hi size : Nat) : Bool :=
  let n := fun o k => bytesToNat ((b.drop o).take k)
  addr.toNat % 32 == 0 && decide (lo ≤ n 8 1 ∧ n 8 1 ≤ hi) && decide (n 0 8 % (size * 2 ^ n 8 1) = 0) &&
  n 9 3 == 0 && n 0x14 12 == 0

/-- R255, R388: the check of a descriptor before a BTE instruction issues. -/
def State.checkCrd (s : State) (crd : Word) : Except Stop State :=
  if crd = 0 then .ok s
  else if crd.toNat % 32 ≠ 0 then raiseX 0x37 crd
  else do
    let r ← liftC (s.engineAt (dieOf s.focus.core) s.fasid false crd false)
    if s.pinBusy r.pa then stallX else
    let b ← if region r.pa = .host then s.hostRead 2 crd r.pa 32 else .ok (s.engineRead r 32)
    if ringOk crd b 4 16 32 then .ok (s.markAt r false) else raiseX 0x37 crd

/-! BTE. -/

/-- A transfer begins at a die's engine. -/
def State.startBte (s : State) (d : Nat) (o : BteOp) : State :=
  let id := s.nextOp
  let s : State := s.modDie d (fun x => { x with bte := aput id o x.bte })
  { s with nextOp := id + 1 }

/-- R388: BTE. -/
def execBte (a b : BitVec 6) (c : BitVec 5) (tag : BitVec 8) (s : State) :=
  let cl : BitVec 6 := c ++ 0#1
  let ch : BitVec 6 := c ++ 1#1
  slotOpA 0 [.s a, .s b, .s cl] [.s ch] [] (fun s => do
    let n := (s.rS cl).toNat
    if n = 0 ∨ 2 ^ 40 < n then raiseX 0x37 (s.rS cl) else
    if 64 ≤ (s.die (dieOf s.focus.core)).bte.length then stallX else
    let s ← s.checkCrd (s.rS ch)
    let o : BteOp :=
      { asid := s.fasid, phys := false, src := s.rS a, dst := s.rS b, bytes := n, crd := s.rS ch, tag := tag, qnum := 0xFFFF,
        pkt := none, seat := some (s.focus.core, s.focus.seat), lent := tagEntry s.fseat.cont.tag, cancelled := false, pos := 0,
        ended := none, time := [], tail := none, recOut := 0, hostOut := none, hostData := [] }
    .ok (s.commitF.startBte (dieOf s.focus.core) o)) s

/-! The transfer. -/

/-- What one piece of a transfer comes to. -/
inductive BtePiece where
  | more (s : State) (o : BteOp)
  | ended (s : State) (o : BteOp) (status : Nat) (fault : BitVec 8)
  /-- A request to the host is outstanding. -/
  | asked (s : State) (o : BteOp)
  /-- R92: a page is being pinned or unpinned. -/
  | waits (s : State) (o : BteOp)
  deriving DecidableEq, Repr

/-- The bytes up to the end of a 64 KiB page. -/
def pageRoom (v : Word) : Nat := 0x10000 - v.toNat % 0x10000

/-- R47, R453: the tags of the destination blocks that a piece of n bytes completes, of a transfer that has moved pos bytes before it:
the source block's where the transfer moves whole blocks, 0x0000 from host memory, and otherwise the tag that stood there. -/
def State.bteTags (s : State) (pos src dst n : Nat) : State :=
  ((List.range (n / 64 + 2)).map (fun i => (dst / 64 + i) * 64)).foldl (fun s e =>
    if dst < e ∧ e ≤ dst + n ∧ dst + 64 ≤ e + pos then
      if region src = .host then s.wholeTag .through (e - 64) 0
      else if (src + e - dst) % 64 = 0 then s.wholeTag .through (e - 64) (s.tagAt (src + e - dst - 64))
      else s.clearPoison (e - 64)
    else s) s

/-- R119: whether an engine's access goes through an SO page. -/
def EngAt.so (p : EngAt) : Bool :=
  match p.leaf with
  | some l => pteOrd l.entry == 1
  | none => false

/-- R153: whether the ordering of the transfers of one seat holds back a piece of one: into an SO page it is a release, which the earlier
transfers precede, and from an SO page an acquire, which the later ones follow. -/
def State.bteHeld (s : State) (die id : Nat) (o : BteOp) (rd : EngAt) : Bool :=
  o.seat.isSome && ((s.die die).bte.filter (fun e => decide (e.1 < id) && e.2.seat == o.seat && e.2.ended.isNone)).any (fun e =>
    rd.so || (match s.engineAt die e.2.asid e.2.phys (e.2.src + BitVec.ofNat 64 e.2.pos) false with
      | .ok p => p.so
      | .error _ => false))

/-- R129, R255: the next piece of a transfer: within one page on either side; the host's bytes come and go in requests. -/
def State.btePiece (s : State) (die id : Nat) (o : BteOp) : BtePiece :=
  let sv := o.src + BitVec.ofNat 64 o.pos
  let dv := o.dst + BitVec.ofNat 64 o.pos
  match s.engineAt die o.asid o.phys sv false with
  | .error c => .ended s o 2 c.1
  | .ok rs =>
    match s.engineAt die o.asid o.phys dv true with
    | .error c => .ended (s.engineFail die o.asid o.phys dv true) o 2 c.1
    | .ok rd =>
      if s.pinBusy rs.pa || s.pinBusy rd.pa || s.bteHeld die id o rd then .waits s o else
      let n := Nat.min (o.bytes - o.pos) (Nat.min (pageRoom sv) (pageRoom dv))
      let n := if region rs.pa = .host then hostChunk rs.pa n else n
      let n := if region rd.pa = .host then hostChunk rd.pa n else n
      let ask (w : Bool) (pa : Nat) (data : List Byte) : BtePiece :=
        let r : HostReq := { asid := o.asid, use := .bte die id, addr := pa, size := n, write := w, data := data }
        .asked (s.hostRequest r) { o with hostOut := some s.host.nextReq }
      if region rs.pa = .host ∧ (hostByte o.hostData rs.pa).isNone = true then ask false rs.pa [] else
      -- R455: the bytes before a poisoned block move, and the transfer ends there
      let bad := ((List.range ((rs.pa % 64 + n + 63) / 64)).map (fun i => (rs.pa / 64 + i) * 64)).find? (fun p => region p != .host && s.poisoned p)
      let n := match bad with
        | some p => p - rs.pa
        | none => n
      let s := (s.markAt rs false).markAt rd true
      let bs := if region rs.pa = .host then (List.range n).map (fun i => (hostByte o.hostData (rs.pa + i)).getD 0) else s.engineRead rs n
      if n = 0 then .ended s o 2 0x52
      else if region rd.pa = .host then
        (let r : HostReq := { asid := o.asid, use := .bte die id, addr := rd.pa, size := n, write := true, data := bs }
         .asked (s.hostRequest r) { o with hostOut := some s.host.nextReq, hostData := [] })
      else .more ((s.engineBytes rd.pa bs).bteTags o.pos rs.pa rd.pa n) { o with pos := o.pos + n, hostData := [] }

/-- The pieces of a transfer, one after another, until it ends or asks the host. -/
def bteRun (die id : Nat) : Nat → State → BteOp → BtePiece
  | 0, s, o => .more s o
  | fuel + 1, s, o =>
    if o.bytes ≤ o.pos then .ended s o 1 0 else
    match s.btePiece die id o with
    | .more t p => bteRun die id fuel t p
    | r => r

/-- A transfer as its engine holds it. -/
def State.putBte (s : State) (die id : Nat) (o : BteOp) : State := s.modDie die (fun x => { x with bte := aput id o x.bte })

/-- A transfer leaves its engine; its packet has nothing more to wait for (R255). -/
def State.bteLeave (s : State) (die id : Nat) (o : BteOp) (fault : Option (BitVec 8)) : State :=
  let s : State := s.modDie die (fun x => { x with bte := adel id x.bte })
  -- R254, R257: a transfer that a kill has ended faults its packet
  let fault := if o.cancelled then some 0x59 else fault
  match o.pkt with
  | none => s
  | some k =>
    match alook k s.fe.packets with
    | some p => { s with fe := { s.fe with packets := aput k { p with done := true, fault := p.fault.or fault } s.fe.packets } }
    | none => s

/-- R171, R256: TAIL rises by an atomic addition, which recalls its line; the host's is asked for it. -/
def State.bteTail (s : State) (die id : Nat) (o : BteOp) (pa : Nat) : State :=
  if region pa = .host then
    let r : HostReq := { asid := o.asid, use := .bte die id, addr := pa, size := 4, write := false, data := natToBytes 8 1, amo := some .add }
    (s.hostRequest r).putBte die id { o with tail := some pa, hostOut := some s.host.nextReq }
  else
    let s := s.writeBack (pa / 64)
    (s.engineBytes pa (natToBytes 4 (s.viewNat pa 4 + 1))).bteLeave die id o none

/-- R256: the bytes of a completion record. -/
def BteOp.record (o : BteOp) (e : Nat × BitVec 8) : List Byte :=
  natToBytes 1 e.1 ++ [e.2, o.tag, 0] ++ natToBytes 2 o.qnum.toNat ++ natToBytes 2 0 ++ natToBytes 8 o.pos ++ o.time ++ List.replicate 6 0

/-- R255, R256: the record of a transfer that has ended is written, waits for room in its ring, or is dropped for a cause. TAIL follows
it, in the host window once the host has acknowledged it (R168). A descriptor in host memory is read anew each time. -/
def State.bteRecord (s : State) (die id : Nat) (o : BteOp) (e : Nat × BitVec 8) : Option State :=
  let drop (s : State) (c : BitVec 8) : Option State := some (s.bteLeave die id o (some c))
  if o.crd = 0 then some (s.bteLeave die id o none)
  else if o.crd.toNat % 32 ≠ 0 then drop s 0x3E
  else
    match s.engineAt die o.asid o.phys o.crd false with
    | .error c => drop s c.1
    | .ok rd =>
      let host := region rd.pa == .host
      if s.pinBusy rd.pa then none
      else if host && (hostByte o.hostData rd.pa).isNone then
        let r : HostReq := { asid := o.asid, use := .bte die id, addr := rd.pa, size := 32, write := false, data := [] }
        some ((s.hostRequest r).putBte die id { o with hostOut := some s.host.nextReq })
      else if !host && s.poisoned rd.pa then drop s 0x52
      else
      let b := if host then (List.range 32).map (fun i => (hostByte o.hostData (rd.pa + i)).getD 0) else s.engineRead rd 32
      let n := fun k m => bytesToNat ((b.drop k).take m)
      if !ringOk o.crd b 4 16 32 then drop s 0x3E
      else if (n 0x0C 4 + 2 ^ 32 - n 0x10 4) % 2 ^ 32 = 2 ^ n 8 1 then
        if o.cancelled then some (s.bteLeave die id o none)
        else if host then some (s.putBte die id { o with hostData := [] }) else none
      else
        let at_ : Word := BitVec.ofNat 64 (n 0 8 + 32 * (n 0x0C 4 % 2 ^ n 8 1))
        match s.engineAt die o.asid o.phys at_ true with
        | .error c => drop (s.engineFail die o.asid o.phys at_ true) c.1
        | .ok rr =>
          match s.engineAt die o.asid o.phys (o.crd + 0x0C) true with
          | .error c => drop (s.engineFail die o.asid o.phys (o.crd + 0x0C) true) c.1
          | .ok rt =>
            if s.pinBusy rr.pa then none else
            let s := (s.markAt rr true).markAt rt true
            if region rr.pa = .host then
              let k := s.host.nextReq
              let s := s.hostWritesBy { asid := o.asid, use := .bte die id, addr := 0, size := 0, write := true, data := [] } rr.pa (o.record e)
              some (s.putBte die id { o with tail := some rt.pa, recOut := s.host.nextReq - k })
            else some ((s.engineBytes rr.pa (o.record e)).bteTail die id o rt.pa)

/-- R256: a transfer has ended, at this time; its record follows. -/
def State.bteEnd (s : State) (die id : Nat) (o : BteOp) (status : Nat) (fault : BitVec 8) : State :=
  let o : BteOp := { o with ended := some (status, fault), time := s.time80, hostData := [] }
  let s := s.putBte die id o
  (s.bteRecord die id o (status, fault)).getD s

/-- R129, R256: BTE_TRANSFER_END. -/
def execBteTransferEnd (die id : Nat) (s : State) : Host.Outcome State Fault Refusal :=
  dev "BTE_TRANSFER_END" (decide (die < 4)) (match alook id (s.die die).bte with
    | none => none
    | some o =>
      if o.hostOut.isSome || o.tail.isSome then none else
      match o.ended with
      | some e => s.bteRecord die id o e
      | none =>
        if o.cancelled then some (s.bteEnd die id o 3 0x59)
        else
          match bteRun die id (o.bytes / 64 + 4) s o with
          | .more t p => some (t.putBte die id p)
          | .asked t p => some (t.putBte die id p)
          | .waits t p => if p.pos = o.pos then none else some (t.putBte die id p)
          | .ended t p st f => some (t.bteEnd die id p st f))

/-- R495: the host has completed a request of a transfer, of its record or of TAIL. -/
def State.bteHostDone (s : State) (die id : Nat) (o : BteOp) (r : HostReq) (data : Option (List Byte)) : State :=
  match data with
  | none =>
    if o.ended.isSome then s.bteLeave die id o (some 0x28)
    else s.bteEnd die id { o with hostOut := none } 2 0x28
  | some bs =>
    match o.tail with
    | some pa =>
      if r.amo.isSome then s.bteLeave die id o none
      else if o.recOut ≤ 1 then s.bteTail die id { o with recOut := 0 } pa
      else s.putBte die id { o with recOut := o.recOut - 1 }
    | none =>
      if r.write then s.putBte die id { o with hostOut := none, pos := o.pos + r.size }
      else s.putBte die id { o with hostOut := none, hostData := [(r.addr, bs)] }

end Sys2Proof.Machine
end

