-- ==== Sys2Proof/Machine/Cache.lean ====
section
/-! DEFINITION. Cache maintenance: PREF, CFLUSH and CINV (R95 to R99). -/

namespace Sys2Proof.Machine

/-- R96: at most 16 MiB are acted on. -/
def maintLen (n : Word) : Nat := Nat.min n.toNat (2 ^ 24)

/-- R96: the bytes of the lines that a range of n bytes overlaps: the address of its first line, and how many. -/
def lineSpan (a : Word) (n : Nat) : Word × Nat :=
  if n = 0 then (a, 0) else (a - BitVec.ofNat 64 (a.toNat % 64), (a.toNat % 64 + n + 63) / 64 * 64)

/-- R89, R96: a line brought into the cluster's slice alone; a slice takes no line of MRAM, of a pinned page or of a STREAM page. -/
def State.fillSlice (s : State) (core : Nat) (cp : BitVec 3) (line : Nat) : State :=
  if cp = 2 ∨ cp = 3 ∨ region (64 * line) != .lpddr ∨ s.pinnedLine line then s
  else ({ s with lines := aput line (s.cachedLine line) s.lines } : State).l2Put (core / 10) false line

/-- R96: a line brought into the core's L1 alone. -/
def State.fillOwn (s : State) (core : Nat) (cp : BitVec 3) (line : Nat) : State :=
  if cp = 2 ∨ !(region (64 * line) == .lpddr || isMram (64 * line)) then s
  else ({ s with lines := aput line (s.cachedLine line) s.lines } : State).l1Put core (cp == 3) line

/-- R96, R135: PREF of one piece: a failed translation, or a leaf with A = 0, skips it; so does a page being pinned or unpinned (R92). -/
def State.prefPiece (s : State) (slice : Bool) (g : Seg) : State :=
  match s.translate s.focus.core s.fasid g.1 .read with
  | .error _ => s
  | .ok l =>
    let pa := l.pa g.1.toNat
    if !pteA l.entry || s.pinBusy pa then s else
    let s := s.installLeaf s.focus.core s.fasid g.1.toNat l false
    (linesOf pa g.2).foldl (fun s i => if slice then s.fillSlice s.focus.core (pteCp l.entry) i
      else s.fillOwn s.focus.core (pteCp l.entry) i) s

/-- R95, R96: PREF brings the lines of a range into the core's L1 or into its cluster's slice. -/
def State.pref (s : State) (slice : Bool) (base len : BitVec 6) : State :=
  let sp := lineSpan (s.rS base) (maintLen (s.rS len))
  (segs sp.1 sp.2).foldl (fun s g => s.prefPiece slice g) s

def execPrefL1 (base len : BitVec 6) (s : State) := slotOp 0 [.s base, .s len] [] (fun s => .ok (s.pref false base len)) s
def execPrefL2 (base len : BitVec 6) (s : State) := slotOp 0 [.s base, .s len] [] (fun s => .ok (s.pref true base len)) s

/-- The cached lines that n bytes from a physical address on touch. -/
def State.cachedIn (s : State) (pa n : Nat) : List Nat :=
  (s.lines.filter (fun e => decide (64 * e.1 < pa + n ∧ pa < 64 * e.1 + 64))).map (·.1)

/-- R96, R98: CFLUSH of the lines of a translated piece: each is written back and dropped. -/
def State.flushPiece (s : State) (p : Piece) : State := (s.cachedIn p.pa p.len).foldl (fun s l => s.writeBack l) s

/-- R96, R98: CINV of the lines of a translated piece: those that lie wholly in the range are dropped, the others written
back. -/
def State.dropPiece (s : State) (p : Piece) : State :=
  (s.cachedIn p.pa p.len).foldl (fun s l => if p.pa ≤ 64 * l ∧ 64 * l + 64 ≤ p.pa + p.len then s.dropLine l else s.writeBack l) s

/-- R96: the KIND that a fault of CINV reports. -/
def asWrite (c : Cause) : Cause := if c.1 = 0x22 then c else (c.1, c.2 ||| 0x0080000000000000#64)

/-- R96, R97: the pages of a range, each checked in ascending order: CINV needs write permission, but read permission on MRAM. Control
space is checked as a register access is: maintenance has nothing to act on there. -/
def State.cinvPieces (s : State) : List Seg → Except Stop (List Piece)
  | [] => .ok []
  | g :: r => do
    let ps ← match s.seatPieces g.1 g.2 .regRead with
      | .error (.raise cl c f b) => .error (.raise cl (asWrite (c, f)).1 (asWrite (c, f)).2 b)
      | x => x
    let ps ← if ps.any (fun p => isMram p.pa) then .ok ps else s.seatPieces g.1 g.2 .regWrite
    let qs ← s.cinvPieces r
    .ok (ps ++ qs)

/-- R96 to R99: CFLUSH. -/
def execCflush (base len : BitVec 6) (s : State) :=
  slotOp 0 [.s base, .s len] [] (fun s => do
    let n := maintLen (s.rS len)
    let ps ← s.seatPieces (s.rS base) n .regRead
    .ok (ps.foldl State.flushPiece (s.commitF.install false ps))) s

/-- R96 to R99: CINV. -/
def execCinv (base len : BitVec 6) (s : State) :=
  slotOp 0 [.s base, .s len] [] (fun s => do
    let n := maintLen (s.rS len)
    let ps ← s.cinvPieces (segs (s.rS base) n)
    let s : State := (s.commitF.install true (ps.filter (fun p => !isMram p.pa))).install false (ps.filter (fun p => isMram p.pa))
    .ok (ps.foldl State.dropPiece s)) s

end Sys2Proof.Machine
end

