-- ==== Sys2Proof/Machine/KvMath.lean ====
section
/-! DEFINITION. The arithmetic of the KV path: decoding block rows (R177), the rotation of keys (R185), scores and partials
(R200, R201), and the deviation of a position (R192). -/

namespace Sys2Proof.Machine

/-! Rotation. -/

/-- The fixed-point precision of the rotation. -/
def rotBits : Nat := 256

/-- arctan (1 / n) in units of 2^-rotBits, by its series from a term on; `t` is 1 / n^(2k+1). -/
def atanInv (n : Nat) : Nat → Nat → Nat → Int
  | 0, _, _ => 0
  | fuel + 1, k, t => signed (k % 2 == 1) (t / (2 * k + 1)) + atanInv n fuel (k + 1) (t / (n * n))

/-- π in units of 2^-rotBits. -/
def piFx : Nat := (16 * atanInv 5 60 0 (2 ^ rotBits / 5) - 4 * atanInv 239 20 0 (2 ^ rotBits / 239)).toNat

/-- The alternating series of the cosine (k even) or the sine (k odd) from a term on; x2 is the square of the angle. -/
def trigFx (x2 : Nat) : Nat → Nat → Nat → Bool → Int
  | 0, _, _, _ => 0
  | fuel + 1, k, t, neg => signed neg t + trigFx x2 fuel (k + 2) (t * x2 / 2 ^ rotBits / ((k + 1) * (k + 2))) (!neg)

/-- R185: cosine and sine of u / 2^32 turns for u below a quarter turn, in units of 2^-rotBits. -/
def cosSin (u : Nat) : Int × Int :=
  if u = 0 then ((2 ^ rotBits : Nat), 0) else
  let x := 2 * piFx * u / 2 ^ 32
  let x2 := x * x / 2 ^ rotBits
  (trigFx x2 40 0 (2 ^ rotBits) false, trigFx x2 40 1 x false)

/-- The FP32 value nearest to a fixed-point number; every value but 0 and ±1 lies strictly inside its last unit. -/
def fxToF32 (v : Int) : W32 :=
  if v.natAbs = 0 then 0
  else (rne32 (decide (v < 0)) v.natAbs (-(rotBits : Int)) (v.natAbs != 2 ^ rotBits)).1

/-- R185: the nearest FP32 values of cosine and sine of t / 2^32 turns. -/
def rotPair (t : Nat) : W32 × W32 :=
  let r := cosSin (t % 2 ^ 30)
  let q := t / 2 ^ 30 % 4
  let x := if q = 0 then r else if q = 1 then (-r.2, r.1) else if q = 2 then (-r.1, -r.2) else (r.2, -r.1)
  (fxToF32 x.1, fxToF32 x.2)

/-- R185: a key rotated for a position; the elements are exact. -/
def rotateKey (freqs : List Nat) (p : Nat) : List Num → List W32
  | x0 :: x1 :: r =>
    let cs := rotPair (p * (freqs.headD 0) % 2 ^ 32)
    let c := Num.ofF32 cs.1
    let s := Num.ofF32 cs.2
    ((x0.mul c).add (x1.mul s).neg).toF32.1 :: ((x0.mul s).add (x1.mul c)).toF32.1 :: rotateKey (freqs.drop 1) p r
  | l => l.map (fun x => x.toF32.1)

/-! Rows (R177). -/

/-- KV formats take nothing from a seat. -/
def kvCtx : FmtCtx := { efr := 0, l6q := 0, table := [] }

/-- R46, R51, R53, R177: an element of a unit with a tag: KVB and raw give the pool's format under the head's scale, of which a raw unit's
own scale byte takes nothing; another format is the element's own, with the scale of the tag. An element of a format that is not as wide
as the pool's, or whose code table is a seat's, is a free value: the spec lays no such row out (the model's choice). -/
def kvElem (g : KvGeom) (tag : BitVec 16) (scale : Byte) (code : Nat) : Num :=
  if tagFmt tag = 0 then decodeElem kvCtx g.efmt scale code
  else if tagScale tag = 0xFF then .nan
  else if tagFmt tag = 0x41 then decodeElem kvCtx g.efmt scale code
  else if codeWidth (tagFmt tag) = 8 * g.es ∧ tagFmt tag ≠ 0x30 then decodeElem kvCtx (tagFmt tag) (tagScale tag) code
  else Num.ofF32 (Config.kvForeign tag code)

/-- R53, R177: a row's elements, each under the tag of its unit. -/
def kvDecode (g : KvGeom) (r : KvRow) : List Num :=
  (List.range g.dim).map (fun j => kvElem g (nth 0 (j * g.es / 64) r.tags) r.scale (bytesToNat ((r.bytes.drop (j * g.es)).take g.es)))
/-- R177, R194, R414: a row of FP32 values in the block's format under a scale. -/
def kvEncode (g : KvGeom) (scale : Byte) (xs : List W32) : List Byte :=
  xs.flatMap (fun x => natToBytes g.es (encodeElem kvCtx g.efmt scale (Num.ofF32 x)))

/-- R177: where the key or value row of a head at an offset stands in its block. -/
def kvRowAt (g : KvGeom) (value : Bool) (h i : Nat) : Nat :=
  64 + ((if value then 32 * g.heads else 0) + 32 * h + i) * g.dim * g.es

/-- R177: the scale of a head's key or value rows. -/
def State.kvScale (s : State) (blk : Nat) (value : Bool) (h : Nat) : Byte := s.byteAt (blk + (if value then 0x20 else 0x10) + h)
def State.kvRow (s : State) (g : KvGeom) (blk : Nat) (value : Bool) (h i : Nat) : KvRow :=
  let a := blk + kvRowAt g value h i
  { tags := (List.range ((g.dim * g.es + 63) / 64)).map (fun k => s.tagAt (a + 64 * k))
    scale := s.kvScale blk value h
    bytes := s.viewBytes a (g.dim * g.es) }

/-- R47, R177, R453: a write on the KV path; units written whole carry tag 0x0041 and are poisoned no longer. -/
def State.kvPut (s : State) (pa : Nat) (bs : List Byte) : State :=
  (wholeBlocks (BitVec.ofNat 64 pa) bs.length).foldl (fun s k => (s.engineTag (pa + k) 0x0041).clearPoison (pa + k)) (s.engineBytes pa bs)

/-- Writes the key and value rows of one offset from 2H rows of FP32 values under the block's scales. -/
def State.putRows (s : State) (g : KvGeom) (blk i : Nat) (vals : List W32) : State :=
  (List.range (2 * g.heads)).foldl (fun s r =>
    let value := decide (g.heads ≤ r)
    let h := r % g.heads
    s.kvPut (blk + kvRowAt g value h i) (kvEncode g (s.kvScale blk value h) ((vals.drop (r * g.dim)).take g.dim))) s

/-- The units of a block that hold its header and one position's rows. -/
def kvUnits (g : KvGeom) (blk i : Nat) : List Nat :=
  blk :: [false, true].flatMap (fun v => (List.range g.heads).flatMap (fun h =>
    (List.range ((g.dim * g.es + 63) / 64)).map (fun k => blk + kvRowAt g v h i + 64 * k)))

/-- R50: the formats that the KV walker and the ADU read. -/
def kvReads (t : BitVec 16) : Bool := codeReadable (tagFmt t) || tagFmt t == 0x41

/-- R178, R455, R50: what a KV operation that reads a position of a block finds against it: another layer, an ECC-poisoned unit, or a
unit with a format that it does not read. -/
def State.kvDefect (s : State) (g : KvGeom) (blk i l : Nat) (h : W32) (p : Nat) : Option Cause :=
  let us := kvUnits g blk i
  if s.poisoned blk then some (0x52#8, 0)
  else if s.memN blk 4 ≠ l then some (kvUnmapped 9 h p)
  else if us.any s.poisoned then some (0x52#8, 0)
  else if us.any (fun u => !kvReads (s.tagAt u)) then some (0x30#8, 0)
  else none

/-- R92: whether a page of some bytes is being pinned or unpinned. -/
def State.pinIn (s : State) (pa n : Nat) : Bool :=
  (List.range (n / 0x10000 + 2)).any (fun k => decide (0x10000 * k < pa % 0x10000 + n) && s.pinBusy (pa / 0x10000 * 0x10000 + 0x10000 * k))

/-! Scores and partials (R200, R201). -/

/-- R200: a score. -/
def score (q : List W32) (k : List W32) : W32 := dotFloat 0x80000000#32 (q.map Num.ofF32) (k.map Num.ofF32)

/-- R200: one weighted position joins l and o. -/
def weigh (m : W32) (acc : W32 × List W32) (s : W32) (v : List Num) : W32 × List W32 :=
  let w := (fExp2 (fSub s m).1).1
  ((fAdd acc.1 w).1, (acc.2.zip v).map (fun x => ((Num.ofF32 x.1).add ((Num.ofF32 w).mul x.2)).toF32.1))

/-- R200: the partial of a slice over its positions: scores with value rows, in ascending position. -/
def slicePartial (d : Nat) (l : List (W32 × List Num)) : Partial :=
  let m := l.foldl (fun m x => (fMax m x.1).1) negInf
  if m = negInf then Partial.empty d else
  let r := l.foldl (fun acc x => weigh m acc x.1 x.2) (0, List.replicate d 0)
  { m := m, l := r.1, o := r.2 }

/-- R200, R201: the attention of one query over sampled positions, slice by slice in ascending number. -/
def attend (g : KvGeom) (freqs : List Nat) (query : List W32) (head : Nat) (ps : List KvSample) : Partial :=
  (List.range 40).foldl (fun acc sl =>
    let mine := ps.filter (fun x => x.slice == sl)
    if mine.isEmpty then acc else
    let l := mine.map (fun x =>
      let r := nth ({ tags := [], scale := 0, bytes := [] }, { tags := [], scale := 0, bytes := [] }) head x.rows
      (score query (rotateKey freqs x.pos (kvDecode g r.1)), kvDecode g r.2))
    (combine acc (slicePartial g.dim l)).1) (Partial.empty g.dim)

/-! Deviation (R192). -/

/-- rne32 of the square root of a quotient of positive exact values. -/
def sqrtRatio (m1 : Nat) (e1 : Int) (m2 : Nat) (e2 : Int) : W32 :=
  let k0 : Nat := 70 + m2.log2
  let k : Nat := if (e1 - e2 - k0) % 2 = 0 then k0 else k0 + 1
  let n := m1 * 2 ^ k / m2
  let r := isqrt n (n.log2 / 2 + 1) 0
  (rne32 false r ((e1 - e2 - k) / 2) (r * r * m2 != m1 * 2 ^ k)).1

def Num.square (x : Num) : Num := x.mul x

/-- R192: the deviation of true values from stored ones. -/
def deviation (true_ stored : List Num) : W32 :=
  let num := ((true_.zip stored).map (fun x => (x.1.add x.2.neg).square)).foldl Num.add (.fin false 0 0)
  let den := (stored.map Num.square).foldl Num.add (.fin false 0 0)
  if num.isZero then 0
  else if den.isZero then 0x7F800000#32
  else match num, den with
    | .fin _ m1 e1, .fin _ m2 e2 => sqrtRatio m1 e1 m2 e2
    | .inf _, .fin _ _ _ => 0x7F800000#32
    | .fin _ _ _, .inf _ => 0
    | _, _ => qnan

/-- R192: whether a position is flagged. -/
def flagged (dev thr : W32) (true_ stored : List Num) : Bool :=
  (num2 Num.lt thr dev && !anyNan thr dev) || isNan32 dev || true_.any Num.isNan || stored.any Num.isNan

end Sys2Proof.Machine
end

