-- ==== Sys2Proof/Machine/Kv.lean ====
section
/-! DEFINITION. The KV operations: their checks and steps (R186 to R195, R410 to R420), how a seat waits for acceptance (R176,
R196, R412), and the work after the step with its completion (R192 to R194, R200, R201, R421). -/

namespace Sys2Proof.Machine

/-! Operands. -/

/-- An operation of the seat in focus before its step. -/
def State.kvOp (s : State) (kind : KvKind) (a b c : Word) (dst : Option (BitVec 6)) : KvOp :=
  { seat := s.focus.seat, asid := s.fasid, handle := s.src.ctl.kvseq, kind := kind, a := a, b := b, c := c, dst := dst,
    rows := 0, cols := 0, stride := 0, aux := 0, scale := 0, repthr := s.src.ctl.repthr, maps := [], got := [], rcd := 0,
    result := 0, failed := none, stage := 0, next := 0, flagged := [], locks := [], pool := none, sample := [], out := [],
    hostOut := none, hostData := [], writes := 0, isOver := false }
def KvOp.withParams (o : KvOp) (p : Params) : KvOp :=
  { o with rows := p.rows, cols := p.cols, stride := p.stride, aux := p.aux, scale := p.scale }

/-- R410: a register operand outside its limits. -/
def argLimit (v : Word) (bits : Nat) : Except Stop Unit := if v.toNat < 2 ^ bits then .ok () else raiseX 0x37 v

/-- What an operation comes to when it asks for its step. -/
inductive KvAnswer where
  /-- It waits; what it has taken, and the pool whose ring is empty. -/
  | waits (s : State) (o : KvOp) (pool : Option Nat)
  | fails (cause : BitVec 8) (faddr : Word)
  /-- R414, R418, R420: a limit of its parameter block that depends on the record. -/
  | params
  /-- The step is taken and the whole operation is done, or its work follows. -/
  | whole (s : State) (o : KvOp)
  | follows (s : State) (o : KvOp)
  deriving DecidableEq, Repr

/-- A cause as an answer. -/
def KvAnswer.cause (c : Cause) : KvAnswer := .fails c.1 c.2

/-- R412: whether a step of the sequence that was accepted earlier has still to complete. -/
def State.stepPending (s : State) (q : Nat) : Bool :=
  s.cores.any (fun c => c.2.ops.any (fun e => match e.2 with
    | .kv o => o.kind == .app && o.rcd == q
    | _ => false))

/-- Takes the head entry of a block or node pool that is known not to be empty. -/
def State.kvTake (s : State) (pool : Nat) : Nat × State := ((s.poolHead (s.kvPool pool)).getD 0, s.poolTake (s.kvPool pool))
def State.kvFree (s : State) (pool : Nat) : Nat := s.poolAvail (s.kvPool pool)

/-- R176: takes n node frames, those already taken first; with too few it takes what there is. -/
def State.kvFrames (s : State) (got : List Nat) (n : Nat) : List Nat × State :=
  (List.range (Nat.min (n - got.length) (s.kvFree 8))).foldl (fun (r : List Nat × State) _ =>
    let t := r.2.kvTake 8
    (r.1 ++ [t.1], t.2)) (got, s)

/-- R176: frames that an operation took while it waited and no longer needs go back to pool 8. -/
def State.spareFrames (s : State) (q : Nat) (fs : List Nat) : State := fs.foldl (fun s f => s.kvReturn q 8 f 1 1 0) s

/-! Steps. -/

/-- R413: KVWALK. -/
def State.stepWalk (s : State) (o : KvOp) (q : Nat) (g : KvGeom) : KvAnswer :=
  match s.walkKv q g o.handle o.a.toNat o.b.toNat with
  | .error c => .cause c
  | .ok (_, blk, off) => .whole s { o with result := BitVec.ofNat 64 (blk % 2 ^ 48 / 64 * 64 + off % 32) }

/-- R187: the lowest layer whose STMASK bit is clear. -/
def State.missingLayer (s : State) (q : Nat) : Option Nat :=
  ((List.range (s.qLayers q)).find? (fun i => !(s.qStmask q).testBit i)).map (· + 1)

/-- R550: a node enters its parent's child table, in a frame that is taken for it if there is none. -/
def State.enterChild (s : State) (parent node : Nat) (token : W32) : State :=
  if parent = 0 then s else
  let n := s.nChildren parent
  if 128 ≤ n then s.setFlag parent 6 true else
  let r : Nat × State := if s.nChild parent = 0 then
      let t := s.kvTake 8
      (t.1, t.2.putMemN (parent + 0x10) 8 t.1)
    else (s.nChild parent, s)
  let at_ := r.1
  let s := r.2
  let k := ((List.range n).filter (fun i => decide (s.memN (at_ + 16 * i) 4 ≤ token.toNat))).length
  let tail := s.viewBytes (at_ + 16 * k) (16 * (n - k))
  let s := s.engineBytes (at_ + 16 * k) (natToBytes 4 token.toNat ++ natToBytes 4 0 ++ natToBytes 8 node ++ tail)
  s.putMemN (parent + 0x26) 2 (n + 1)

/-- R187, R415: KVCOMMIT. -/
def State.stepCommit (s : State) (o : KvOp) (q : Nat) : KvAnswer :=
  let n := s.qStcnt q
  if n = 0 then .whole s { o with result := BitVec.ofNat 64 (s.qCommit q) } else
  match s.missingLayer q with
  | some l => .whole s { o with result := BitVec.ofNat 64 (s.qCommit q + l * 2 ^ 32) }
  | none =>
    let st := s.stageOf q
    let last := s.pathAt q (s.qNpath q - 1)
    let target := match st with
      | some x => x.node
      | none => last
    let pending := match st with
      | some x => x.pending
      | none => false
    let parent := if pending then s.nParent target else 0
    if parent ≠ 0 ∧ s.nChild parent = 0 ∧ s.kvFree 8 = 0 then .waits s o (some 8) else
    let s := (s.setCommit q (s.qCommit q + n)).setLen target (s.nLen target + n)
    let s := if pending then
        let s := s.setFlag target 3 false
        let s := s.putMemN (q + 0xE) 2 (s.qNpath q + 1)
        s.enterChild parent target (match st with
          | some x => x.ident
          | none => 0)
      else s
    let s := ((s.putMemN (q + 4) 2 0).putMemN (q + 0x18) 16 0).unlistStage q
    .whole s { o with result := BitVec.ofNat 64 (s.qCommit q) }

/-- R186: whether the tail node may take c more positions. -/
def State.tailTakes (s : State) (q c : Nat) : Bool :=
  let n := s.pathAt q (s.qNpath q - 1)
  let t := s.nTable n
  s.qNpath q != 0 && s.nRef n == 1 && !s.nFlag n 4 && s.tRef t == 1 && s.nStart n + s.nLen n == s.qCommit q &&
  decide (s.nLen n + c ≤ 32 * s.tBlocks t) &&
  (List.range (s.qLayers q)).all (fun i => let e := s.tEntry t (i + 1); entryV e && !entryB e)

/-- R181, R186: the pending node that opens a stage. -/
def State.pendingNode (s : State) (q frame : Nat) : State :=
  let np := s.qNpath q
  let prov := natToBytes 8 (Config.freeWord s.fresh).toNat ++ natToBytes 4 (s.mverOf (s.qModel q)).toNat ++
    natToBytes 2 (Config.freeWord (s.fresh + 1)).toNat ++ natToBytes 1 0 ++ natToBytes 1 (s.qModel q)
  let n : NewNode :=
    { start := s.qCommit q, len := 0, parent := if np = 0 then 0 else s.pathAt q (np - 1),
      hash := (Config.freeWord (s.fresh + 2)).toNat, flags := 8, prov := prov }
  let s := (s.makeNode frame 0 1 0 n).setPathAt q np frame
  { s with fresh := s.fresh + 3 }

/-- R177, R414: a block that a KVAPP allocates. -/
def State.newBlock (s : State) (g : KvGeom) (blk l : Nat) (scale : Byte) : State :=
  let sc := List.replicate g.heads scale ++ List.replicate (16 - g.heads) 0
  let head := natToBytes 4 l ++ natToBytes 12 0 ++ sc ++ sc ++ natToBytes 16 0
  (List.range (g.stride / 64)).foldl (fun (s : State) k =>
    let s := if k = 0 then s.engineBytes blk head else s
    (s.engineTag (blk + 64 * k) 0x0041).clearPoison (blk + 64 * k)) s

/-- R186, R414: the start of a KVAPP's step: its checks and allocations. The rows follow; the operations of the sequence wait
for them. R186 gives the failures and no order among them: LAYER, the block's STRIDE, STAGE and PATHFULL are tested in that order (the
model's choice: log entry 154). -/
def State.stepApp (s : State) (core : Nat) (o : KvOp) (q : Nat) (g : KvGeom) : KvAnswer :=
  let l := o.b.toNat
  if l < 1 ∨ s.qLayers q < l then .cause (kvUnmapped 2 o.handle l) else
  if o.stride < 8 * g.heads * g.dim then .params else
  let n := s.qStcnt q
  if n ≠ 0 ∧ n ≠ o.rows then .cause (kvUnmapped 5 o.handle (s.qCommit q)) else
  let last := s.pathAt q (s.qNpath q - 1)
  let target : Option (Nat × Bool) :=
    if n ≠ 0 then some (match s.stageOf q with
      | some x => (x.node, x.pending)
      | none => (last, false))
    else if s.tailTakes q o.rows then some (last, false) else none
  if target.isNone ∧ s.pathCap q ≤ s.qNpath q then .cause (kvUnmapped 6 o.handle (s.qCommit q)) else
  let cl := clusterOf core
  if n = 0 ∧ 256 ≤ (s.cluster cl).stages.length then .waits s o none else
  let needBlock : Bool := match target with
    | none => true
    | some t => !entryV (s.tEntry (s.nTable t.1) l)
  if target.isNone ∧ s.kvFree 8 = 0 then .waits s o (some 8) else
  if needBlock ∧ s.kvFree (s.qPool q) = 0 then .waits s o (some (s.qPool q)) else
  let r : (Nat × Bool) × State := match target with
    | some t => (t, s)
    | none =>
      let f := s.kvTake 8
      ((f.1, true), f.2.pendingNode q f.1)
  let s := r.2
  let s : State := if needBlock then
      let b := s.kvTake (s.qPool q)
      (b.2.newBlock g b.1 l o.scale).setEntry (s.nTable r.1.1) l (b.1 % 2 ^ 48 / 64 * 64 + 1)
    else s
  let s := s.putMemN (q + 4) 2 o.rows
  let st : Stage := { record := q, asid := BitVec.ofNat 16 (s.qAsid q), ident := o.aux, node := r.1.1, pending := r.1.2 }
  let s := if n = 0 then s.modCluster cl (fun c => { c with stages := c.stages ++ [st] }) else s
  .follows s { o with result := BitVec.ofNat 64 o.rows }

/-- R189, R416: KVFORK. The destination's counts become 0: a stage that it had open is discarded with them. -/
def State.stepFork (s : State) (o : KvOp) (q : Nat) : KvAnswer :=
  let dh : W32 := o.a.extractLsb' 0 32
  let d := s.kvRecord dh
  if d = q ∨ !s.qValid d ∨ s.qAsid d ≠ s.qAsid q ∨ s.qNpath d ≠ 0 ∨ s.qCommit d ≠ 0 then .cause (kvUnmapped 1 dh 0)
  else if s.pathCap d < s.qNpath q then .cause (kvUnmapped 6 dh 0)
  else
    let ns := s.pathNodes q
    let s := (s.discardStage d).setPath d ns
    let s := (s.setCommit d (s.qCommit q)).putMemN (d + 6) 1 (s.qLayers q)
    let s := ((s.putMemN (d + 0xA) 1 (s.qPool q)).putMemN (d + 0xB) 1 (s.qModel q)).putMemN (d + 0x38) 8 (s.qRot q)
    let s := ((s.setFront d 0).setRcnt d 0).setRdone d 0
    .whole (ns.foldl (fun (s : State) n => s.setRef n (s.nRef n + 1)) s) o

/-- R179, R550: what a copy of a node holds: its run, provenance and table are the node's. R190 and R191 give it FORKED and do not say
whether it keeps DEMOTED: it does not (the model's choice: log entry 155). -/
def State.copyNode (s : State) (n start len parent : Nat) : NewNode :=
  { start := start, len := len, parent := parent, hash := s.nHash n, flags := 2, prov := s.nProv n }
/-- The hash of a run that no rule gives (R179). -/
def State.freeHash (s : State) (n : NewNode) : NewNode × State :=
  ({ n with hash := (Config.freeWord s.fresh).toNat }, { s with fresh := s.fresh + 1 })

/-- R190: the path after a rollback to n positions, from the nodes in reverse order. -/
def State.rollPath (s : State) (q n : Nat) (frame : Option Nat) : List Nat → State × List Nat
  | [] => (s, [])
  | x :: r =>
    let st := s.nStart x
    if st + s.nLen x ≤ n then (s, x :: r)
    else if n ≤ st then (s.dropNode q x).rollPath q n frame r
    else if 1 < s.nRef x then
      let f := frame.getD 0
      let c := s.freeHash (s.copyNode x st (n - st) (r.headD 0))
      ((c.2.makeNode f (s.nTable x) 0 0 c.1).dropNode q x, f :: r)
    else (s.setLen x (n - st), x :: r)

/-- R190, R178: how many positions of a list have their REPMASK bit set in a layer; a block of another layer has no bit of theirs. -/
def State.repaired (s : State) (q : Nat) (g : KvGeom) (h : W32) (l : Nat) (ps : List Nat) : Nat :=
  (ps.filter (fun p => match s.nodeAt q h p with
    | .ok n =>
      let off := p - s.nStart n
      let e := s.tEntry (s.nTable n) l
      let blk := entryAddr e + off / 32 * g.stride
      entryV e && s.memN blk 4 == l && (s.memN (blk + 4) 4).testBit (off % 32)
    | .error _ => false)).length

/-- R190, R416: KVROLL. -/
def State.stepRoll (s : State) (o : KvOp) (q : Nat) (g : KvGeom) : KvAnswer :=
  let n := o.a.toNat
  if s.qBusy q then .fails 0x43 (kvFaddr 0 o.handle n)
  else if s.qCommit q < n then .cause (kvUnmapped 3 o.handle n)
  else
    let cut := (s.pathNodes q).any (fun x => decide (s.nStart x < n ∧ n < s.nStart x + s.nLen x ∧ 1 < s.nRef x))
    if cut ∧ s.kvFree 8 = 0 then .waits s o (some 8) else
    let s := s.discardStage q
    let f : Option Nat × State := if cut then
        let t := s.kvTake 8
        (some t.1, t.2)
      else (none, s)
    let r := f.2.rollPath q n f.1 (s.pathNodes q).reverse
    let s := (r.1.setPath q r.2.reverse).setCommit q n
    let list := s.repairList q
    let left := list.filter (fun p => decide (p < n))
    let s := if left.length = list.length then s else s.setRcnt q left.length
    let s := if left.isEmpty then (s.setFront q 0).setRdone q 0
      else if s.qFront q = 0 then s
      else s.setRdone q (s.repaired q g o.handle (s.qFront q) left)
    .whole s o

/-- R191: moves the nodes behind a splice; shared ones are replaced by copies in the frames given. -/
def State.shiftNodes (s : State) (q by_ parent : Nat) : List Nat → List Nat → State × List Nat
  | _, [] => (s, [])
  | fs, x :: r =>
    let st := s.nStart x + by_
    if 1 < s.nRef x then
      let f := fs.headD 0
      let t := ((s.makeNode f (s.nTable x) 0 0 (s.copyNode x st (s.nLen x) parent)).dropNode q x).shiftNodes q by_ f (fs.drop 1) r
      (t.1, f :: t.2)
    else
      let t := (s.setStart x st).shiftNodes q by_ x fs r
      (t.1, x :: t.2)

/-- R191, R193: a provenance record for the part of a node from an offset on, with a KIND. -/
def provAt (p : List Byte) (off : Nat) (kind : Option Nat) : List Byte :=
  p.take 0xC ++ natToBytes 2 (bytesToNat ((p.drop 0xC).take 2) + off) ++
  (match kind with
    | some k => natToBytes 1 k
    | none => (p.drop 0xE).take 1) ++ p.drop 0xF

/-- R191, R193: a node with a table of its own whose entries borrow another node's blocks from an offset on. -/
def State.makePiece (s : State) (q : Nat) (g : KvGeom) (frame x off len start nblk parent : Nat) (kind : Option Nat) : State :=
  let t := s.nTable x
  let c := s.freeHash { s.copyNode x start len parent with prov := provAt (s.nProv x) off kind }
  let s := c.2.makeNode frame 0 nblk t c.1
  (List.range (s.qLayers q)).foldl (fun (s : State) i =>
    let e := s.tEntry t (i + 1)
    if entryV e then s.setEntry (frame + 0x80) (i + 1) ((entryAddr e + off / 32 * g.stride) % 2 ^ 48 / 64 * 64 + 3) else s) s

/-- R191: the change of the path that a splice makes, with the frames it needs. The back piece of a split node keeps the node's KIND and its
other provenance fields but DOCPOS: the rule names none of them (the model's choice: log entry 156). -/
def State.splice (s : State) (o : KvOp) (q : Nat) (g : KvGeom) (frames : List Nat) : State :=
  let t := o.a.toNat
  let p := o.b.toNat
  let tlen := s.nLen t
  let s := s.discardStage q
  let ns := s.pathNodes q
  let front := ns.filter (fun x => decide (s.nStart x < p))
  let later := ns.filter (fun x => decide (p ≤ s.nStart x))
  let cut := front.getLast?.filter (fun x => decide (p < s.nStart x + s.nLen x))
  let before := (front.dropLast).getLast?.getD 0
  -- the node that is split keeps its front, in a copy where it is shared
  let r : State × List Nat × List Nat := match cut with
    | none => (s, front, frames)
    | some x =>
      if 1 < s.nRef x then
        let f := frames.headD 0
        let c := s.freeHash (s.copyNode x (s.nStart x) (p - s.nStart x) before)
        (c.2.makeNode f (s.nTable x) 0 0 c.1, front.dropLast ++ [f], frames.drop 1)
      else (s, front, frames)
  let fS := r.2.2.headD 0
  let s := r.1.makeNode fS (r.1.nTable t) 0 0
    { start := p, len := tlen, parent := r.2.1.getLast?.getD 0, hash := r.1.nHash t, flags := 2,
      prov := provAt (r.1.nProv t) 0 (some 2) }
  let back : State × List Nat × List Nat := match cut with
    | none => (s, [], r.2.2.drop 1)
    | some x =>
      let k := p - s.nStart x
      let f := (r.2.2.drop 1).headD 0
      let s := s.makePiece q g f x k (s.nLen x - k) (p + tlen) (s.tBlocks (s.nTable x) - k / 32) fS none
      (if 1 < s.nRef x then s.dropNode q x else s.setLen x k, [f], r.2.2.drop 2)
  let sh := back.1.shiftNodes q tlen ((fS :: back.2.1).getLast?.getD 0) back.2.2 later
  let s := (sh.1.setPath q (r.2.1 ++ fS :: back.2.1 ++ sh.2)).setCommit q (sh.1.qCommit q + tlen)
  (List.range (s.qRcnt q)).foldl (fun (s : State) i =>
    let v := s.repairPos q i
    if p ≤ v then s.putMemN (s.qRlist q + 4 * i) 4 (v + tlen) else s) s

/-- R191, R416: KVSPLICE, whose first checks stand before those of its record. -/
def State.stepSplice (s : State) (o : KvOp) (q : Nat) (g : KvGeom) : KvAnswer :=
  let t := o.a.toNat
  let p := o.b.toNat
  let fail (reason : Nat) : KvAnswer := .cause (kvUnmapped reason o.handle p)
  if !s.nFlag t 4 then fail 8
  else if s.stale t q then .fails 0x41 (kvFaddr 0 o.handle (s.nStart t))
  else if s.memN (t + 0x30) 8 ≠ o.c.toNat then .fails 0x42 (kvFaddr 0 o.handle p)
  else if s.qCommit q < p then fail 3
  else if s.qBusy q then .fails 0x43 (kvFaddr 0 o.handle p)
  else
    let ns := s.pathNodes q
    let cut := ns.find? (fun x => decide (s.nStart x < p ∧ p < s.nStart x + s.nLen x))
    let off := match cut with
      | some x => p - s.nStart x
      | none => 0
    if off % 32 ≠ 0 then fail 7
    else if s.pathCap q < ns.length + 1 + (if cut.isSome then 1 else 0) then fail 6
    else
      let shared := (ns.filter (fun x => decide (p ≤ s.nStart x ∧ 1 < s.nRef x))).length
      let need := 1 + shared + (match cut with
        | some x => if 1 < s.nRef x then 2 else 1
        | none => 0)
      let r := s.kvFrames o.got need
      if r.1.length < need then .waits r.2 { o with got := r.1 } (some 8)
      else .whole ((r.2.splice o q g r.1).spareFrames q (r.1.drop need)) { o with got := [] }

/-- R417: KVPROV reads its node; the record is written after the step. -/
def State.stepProv (s : State) (o : KvOp) (q : Nat) : KvAnswer :=
  let p := o.b.toNat
  if s.qCommit q ≤ p then .cause (kvUnmapped 3 o.handle p) else
  match s.nodeAt q o.handle p with
  | .error c => .cause c
  | .ok n =>
    let b := natToBytes 4 (s.nStart n) ++ natToBytes 4 (s.nLen n) ++ natToBytes 4 (s.nRef n) ++ natToBytes 2 (s.nFlags n) ++
      natToBytes 2 (if s.stale n q then 1 else 0) ++ s.nProv n
    .follows s { o with out := b }

/-- R192, R194, R418: the checks of a REPAIR and REPBUSY. -/
def State.stepRepair (s : State) (o : KvOp) (q : Nat) (g : KvGeom) : KvAnswer :=
  let m := o.kind == .repairM
  let a := o.aux.toNat
  if o.stride < 8 * g.heads * g.dim then .params
  else if s.qBusy q ∨ s.qFront q ≠ (if m then 0 else o.b.toNat % 2 ^ 16) then .fails 0x43 (kvFaddr 0 o.handle a)
  else
    let limit := if m then s.qCommit q else s.qRcnt q
    if limit < a + o.rows then .cause (kvUnmapped 3 o.handle (Nat.max a limit))
    else .follows (s.setBusy q true) o

/-- R419: REPSTAT. -/
def State.stepRepstat (s : State) (o : KvOp) (q : Nat) : KvAnswer :=
  let v := s.qFront q * 2 ^ 48 + s.qRcnt q % 2 ^ 13 * 2 ^ 32 + (if s.qBusy q then 2 ^ 31 else 0) + s.qRdone q % 2 ^ 13
  .whole s { o with result := BitVec.ofNat 64 v }

/-- R90, R91, R200: the slice that counts a block: the one that pins the page of its first byte, else the issuer's. -/
def State.sliceOf (s : State) (own pa : Nat) : Nat :=
  match s.clusters.find? (fun c => c.2.pins.any (fun e => e.2.valid && e.2.ppn.toNat == pa / 0x10000)) with
  | some c => c.1
  | none => own

/-- R411, R421: the parts of a status word that a cause gives. -/
def statusCause (c : Cause) : BitVec 8 × BitVec 8 × W32 :=
  let kv := decide (0x40 ≤ c.1.toNat ∧ c.1.toNat ≤ 0x43)
  (c.1, if c.1 = 0x40 then c.2.extractLsb' 56 8 else 0, if kv then c.2.extractLsb' 0 32 else 0)

/-- R178, R200, R421: the sample of an ATTQ position by position; it ends at a block that it cannot read. -/
def State.samples (s : State) (own : Nat) (g : KvGeom) (h : W32) (l : Nat) :
    List (Nat × Nat × Nat) → List KvSample → List KvSample × Option (BitVec 8 × BitVec 8 × W32)
  | [], acc => (acc.reverse, none)
  | (p, blk, off) :: r, acc =>
    match s.kvDefect g blk (off % 32) l h p with
    | some c => (acc.reverse, some (statusCause c))
    | none =>
      let row (k : Nat) := (s.kvRow g blk false k (off % 32), s.kvRow g blk true k (off % 32))
      s.samples own g h l r ({ slice := s.sliceOf own blk, pos := p, rows := (List.range g.heads).map row } :: acc)

/-- R198, R199, R420: the step of an ATTQ. -/
def State.stepAttq (s : State) (core : Nat) (o : KvOp) (ro : Bool) (q : Nat) (g : KvGeom) : KvAnswer :=
  let l := o.aux.toNat
  if l < 1 ∨ s.qLayers q < l then .cause (kvUnmapped 2 o.handle l)
  else if o.rows ≠ g.heads ∨ o.cols ≠ g.dim then .params
  else if ro ∧ 0 < s.qFront q ∧ s.qFront q ≤ l then .waits s o none
  else
    let n := s.qCommit q
    match (s.pathNodes q).find? (fun x => decide (s.nStart x < n) && s.stale x q) with
    | some x => .fails 0x41 (kvFaddr 0 o.handle (s.nStart x))
    | none =>
      match (List.range n).mapM (fun p => (s.walkKv q g o.handle p l).map (fun w => (p, w.2.1, w.2.2))) with
      | .error c => .cause c
      | .ok ws =>
        if ws.any (fun w => s.pinIn w.2.1 g.stride) then .waits s o none else
        let r := s.samples (clusterOf core) g o.handle l ws []
        .follows s { o with sample := r.1, failed := r.2, result := BitVec.ofNat 64 n }

/-- R92: whether a sequence's record, its path or the nodes and tables of that lie in a page that is being pinned or unpinned. -/
def State.kvPinned (s : State) (q : Nat) : Bool :=
  s.pinBusy q || s.pinBusy (s.qPath q) || (s.pathNodes q).any (fun n => s.pinBusy n || s.pinIn (s.nTable n) 1040)

/-- R196, R412: an operation asks for its step: its checks against the state that the earlier steps have left. -/
def State.kvStep (s : State) (core : Nat) (o : KvOp) : KvAnswer :=
  let t := o.a.toNat
  if o.kind = .splice ∧ (t % 128 ≠ 0 ∨ region t ≠ .lpddr) then .cause (kvUnmapped 8 o.handle o.b.toNat) else
  if o.kind = .splice ∧ 2 ^ 32 ≤ o.b.toNat then .fails 0x37 o.b else
  match s.kvServe o.asid o.handle with
  | .error c => .cause c
  | .ok (q, g) =>
    if s.stepPending q || s.kvPinned q then .waits s o none else
    -- R412: the step of a fork has its place in the order of its destination too
    let d := s.kvRecord (o.a.extractLsb' 0 32)
    if o.kind = .fork ∧ (s.stepPending d || s.kvPinned d) then .waits s o none else
    let o := { o with rcd := q }
    match o.kind with
    | .walk => s.stepWalk o q g
    | .app => s.stepApp core o q g
    | .commit => s.stepCommit o q
    | .fork => s.stepFork o q
    | .roll => s.stepRoll o q g
    | .splice => s.stepSplice o q g
    | .prov => s.stepProv o q
    | .repairM => s.stepRepair o q g
    | .repairI => s.stepRepair o q g
    | .repstat => s.stepRepstat o q
    | .attq ro => s.stepAttq core o ro q g

/-! Issue (R412). -/

/-- Whether an accepted operation is done with its step. -/
def KvKind.whole : KvKind → Bool
  | .app => false
  | .prov => false
  | .repairM => false
  | .repairI => false
  | .attq _ => false
  | _ => true

/-- R412, R523: an operation is accepted: unless its step is the whole of it, it is in flight from then on. -/
def State.kvAccepted (s : State) (core : Nat) (o : KvOp) : Nat × State :=
  let s := s.observe core 3
  if o.kind.whole then (0, s) else (s.nextOp, s.newOp core (.kv { o with pool := none }))

/-- R412: an accepted operation's bundle issues: its result is full 2 bundles on, or its register waits for the completion. -/
def State.kvIssued (s : State) (id : Nat) (o : KvOp) : State :=
  let s := s.modF (fun t => { t with kvHeld := none, kvDone := none })
  match o.dst with
  | some d => if o.kind.whole then s.wS d o.result (s.after 2) else s.pendS d id
  | none => s

/-- R412: an operation is accepted as its bundle issues. -/
def State.kvStarts (s : State) (o : KvOp) : State :=
  let r := s.kvAccepted s.focus.core o
  r.2.kvIssued r.1 o

/-- R176: whether a wait of the seat in focus for a pool is a new one: for another pool, or after it has taken more. -/
def State.newWait (s : State) (o : KvOp) : Bool :=
  match s.fseat.kvHeld with
  | some h => h.pool != o.pool || h.got.length != o.got.length
  | none => true

/-- R176: the frames that the seat's waiting operation has taken. -/
def State.heldFrames (s : State) : List Nat :=
  match s.fseat.kvHeld with
  | some h => h.got
  | none => []

/-- R176, R412: the seat waits for its operation's step; a pool whose ring the operation has found empty is reported. -/
def State.kvHold (s : State) (o : KvOp) (pool : Option Nat) : State :=
  let o : KvOp := { o with pool := pool }
  let u := s.modF (fun x => { x with kvHeld := some o })
  match pool with
  | some n => if s.newWait o then u.poolEvent n else u
  | none => u

/-- R127, R176, R412: an operation of the seat in focus is issued once its step is taken; until then the seat stalls. It waits for its step
only when the rest of its bundle can issue. -/
def State.kvIssue (s : State) (o : KvOp) : Run := do
  let s := s.commitF
  match s.fseat.kvDone with
  | some d => .ok (s.kvIssued d.1 d.2)
  | none =>
    match s.kvStep s.focus.core { o with got := s.heldFrames } with
    | .waits t w pool => .error (.hold (t.kvHold w pool) noReg true)
    | .fails c f => raiseX c f
    | .params => s.paramFault
    | .whole t d => .ok (t.kvStarts d)
    | .follows t d => .ok (t.kvStarts d)

/-- R126, R418, R420: the alignment of a list or an output. -/
def kvAligned (v : Word) (n : Nat) : Except Stop Unit := if v.toNat % n = 0 then .ok () else raiseX 0x26 (transFaddr 0 .write v.toNat)

def execKvwalk (a b c : BitVec 6) (g : BitVec 4) (s : State) :=
  slotOp g [.s a, .s b] [.s c] (fun s => do
    argLimit (s.rS a) 32
    argLimit (s.rS b) 8
    s.kvIssue (s.kvOp .walk (s.rS a) (s.rS b) 0 (some c))) s

/-- R414: the limits of the block of KVAPP. -/
def kvappOk (p : Params) : Bool :=
  decide (1 ≤ p.rows ∧ p.rows ≤ 32) && p.cols == 0 && p.stride % 4 == 0 && p.scale != 0xFF && p.fsel == 0 && p.bar == 0 &&
  !p.nobar && p.flg == 0

/-- R127, R414: the buffer's pages, translated before issue. -/
def State.kvappIssue (s : State) (p : Params) (a b c : BitVec 6) : Run := do
  let size := match s.kvGeom (s.qPool (s.kvRecord s.src.ctl.kvseq)) with
    | some g => 8 * g.heads * g.dim
    | none => 1
  let rows := (List.range p.rows).map (fun i => (s.rS a + BitVec.ofNat 64 (i * p.stride), size))
  let r ← s.copyPages .read rows
  let s := s.install false r.1
  s.kvIssue { (s.kvOp .app (s.rS a) (s.rS b) 0 (some c)).withParams p with maps := r.2 }

def execKvapp (a b c : BitVec 6) (g : BitVec 4) (s : State) :=
  blockOp g [.s a, .s b] [.s c] (fun s p => s.limit (kvappOk p)) (fun p s => s.kvappIssue p a b c) s
def execKvcommit (c : BitVec 6) (g : BitVec 4) (s : State) :=
  slotOp g [] [.s c] (fun s => s.kvIssue (s.kvOp .commit 0 0 0 (some c))) s
def execKvfork (a : BitVec 6) (g : BitVec 4) (s : State) :=
  slotOp g [.s a] [] (fun s => do
    argLimit (s.rS a) 20
    s.kvIssue (s.kvOp .fork (s.rS a) 0 0 none)) s
def execKvroll (a : BitVec 6) (g : BitVec 4) (s : State) :=
  slotOp g [.s a] [] (fun s => do
    argLimit (s.rS a) 32
    s.kvIssue (s.kvOp .roll (s.rS a) 0 0 none)) s
def execKvsplice (a b c : BitVec 6) (g : BitVec 4) (s : State) :=
  slotOp g [.s a, .s b, .s c] [] (fun s => s.kvIssue (s.kvOp .splice (s.rS a) (s.rS b) (s.rS c) none)) s

/-- R417: the destination is translated before issue. -/
def execKvprov (a b : BitVec 6) (g : BitVec 4) (s : State) :=
  slotOp g [.s a, .s b] [] (fun s => do
    let at_ := s.rS a &&& 0xFFFFFFFFFFFFFFE0#64
    let r ← s.copyPages .write [(at_, 32)]
    let s := s.install true r.1
    s.kvIssue { s.kvOp .prov at_ (s.rS b) 0 none with maps := r.2 }) s

/-- R418: the limits of the block of REPAIR. -/
def repairOk (p : Params) : Bool :=
  decide (1 ≤ p.rows ∧ p.rows ≤ 4096) && p.cols == 0 && p.stride % 4 == 0 && nth 0 3 p.words == 0

def execRepairM (a b c : BitVec 6) (g : BitVec 4) (s : State) :=
  blockOp g [.s a, .s b] [.s c] (fun s p => s.limit (repairOk p)) (fun p s => do
    kvAligned (s.rS b) 8
    s.kvIssue ((s.kvOp .repairM (s.rS a) (s.rS b) 0 (some c)).withParams p)) s
def execRepairI (a b c : BitVec 6) (g : BitVec 4) (s : State) :=
  blockOp g [.s a, .s b] [.s c] (fun s p => s.limit (repairOk p))
    (fun p s => s.kvIssue ((s.kvOp .repairI (s.rS a) (s.rS b) 0 (some c)).withParams p)) s
def execRepstat (c : BitVec 6) (g : BitVec 4) (s : State) :=
  slotOp g [] [.s c] (fun s => s.kvIssue (s.kvOp .repstat 0 0 0 (some c))) s

/-- R420: the limits of the block of ATTQ. -/
def attqOk (p : Params) : Bool := p.stride % 4 == 0 && nth 0 3 p.words == 0
def State.attq (s : State) (ro : Bool) (p : Params) (a b c : BitVec 6) : Run := do
  kvAligned (s.rS b) 64
  s.kvIssue ((s.kvOp (.attq ro) (s.rS a) (s.rS b) 0 (some c)).withParams p)

def execAttq (a b c : BitVec 6) (g : BitVec 4) (s : State) :=
  blockOp g [.s a, .s b] [.s c] (fun s p => s.limit (attqOk p)) (fun p s => s.attq false p a b c) s
def execAttqRo (a b c : BitVec 6) (g : BitVec 4) (s : State) :=
  blockOp g [.s a, .s b] [.s c] (fun s p => s.limit (attqOk p)) (fun p s => s.attq true p a b c) s

end Sys2Proof.Machine
end

