-- ==== Sys2Proof/Machine/KvWork.lean ====
section
/-! DEFINITION. The work of KV operations after their steps: the rows of a KVAPP, the record of a KVPROV, REPAIR and ATTQ, with
KV_ACCEPT, KV_COMPLETE and KV_POOL_WAIT_END (R176, R183, R192 to R195, R200, R412, R414, R417 to R421). -/

namespace Sys2Proof.Machine

/-! Buffers. -/

/-- Where an operation in flight stands: its core and its number there. -/
abbrev KvSite := Nat × Nat

/-- A place of a buffer: the physical address, the length, the page's policy and, where the work translates it, the access. -/
structure KvPlace where
  pa : Nat
  len : Nat
  cp : BitVec 3
  at_ : Option EngAt
  deriving DecidableEq, Repr

/-- R127, R129, R133: the places of a buffer: through the pages translated before issue, else page by page through the walker of the
cluster. -/
def State.kvPlaces (s : State) (k : KvSite) (o : KvOp) (w : Bool) (va : Word) (n : Nat) : Except Cause (List KvPlace) :=
  (segs va n).mapM (fun g =>
    match o.maps.find? (fun m => m.has g.1.toNat) with
    | some m => .ok { pa := m.pa + (g.1.toNat - m.va), len := g.2, cp := m.cp, at_ := none }
    | none => (s.engineAt (engKv (clusterOf k.1)) o.asid false g.1 w).map (fun r =>
        { pa := r.pa, len := g.2, at_ := some r, cp := (match r.leaf with
            | some l => pteCp l.entry
            | none => 0) }))

def State.markPlaces (s : State) (w : Bool) (ps : List KvPlace) : State :=
  ps.foldl (fun s p => match p.at_ with
    | some r => s.markAt r w
    | none => s) s

/-- What reading a buffer comes to. -/
inductive KvData where
  | bytes (s : State) (b : List Byte)
  | ask (pa n : Nat)
  | cause (c : Cause)
  /-- R92: a page is being pinned or unpinned. -/
  | pinned
  deriving DecidableEq, Repr

/-- R414, R495, R455: n bytes of a buffer; the host's bytes must have come, and a poisoned block ends the operation. -/
def State.kvFetch (s : State) (k : KvSite) (o : KvOp) (va : Word) (n : Nat) : KvData :=
  match s.kvPlaces k o false va n with
  | .error c => .cause c
  | .ok ps =>
    let missing := ps.findSome? (fun p => if region p.pa = .host then
        (List.range p.len).findSome? (fun i => if (hostByte o.hostData (p.pa + i)).isNone then some (p.pa + i, p.len - i) else none)
      else none)
    if ps.any (fun p => s.pinBusy p.pa) then .pinned else
    match missing with
    | some m => .ask m.1 (hostChunk m.1 m.2)
    | none =>
      if ps.any (fun p => region p.pa != .host &&
          (List.range ((p.pa % 64 + p.len + 63) / 64)).any (fun k => s.poisoned (p.pa + 64 * k))) then .cause (0x52#8, 0)
      else
        .bytes (s.markPlaces false ps) (ps.flatMap (fun p =>
          if region p.pa = .host then (List.range p.len).map (fun i => (hostByte o.hostData (p.pa + i)).getD 0)
          else s.loadBytes p.cp p.pa p.len))

/-- What a write of an operation comes to. -/
inductive KvPut where
  | done (s : State) (o : KvOp)
  | cause (s : State) (c : Cause)
  | pinned
  deriving DecidableEq, Repr

/-- R146, R495: one place of a write on the KV path; the host's bytes are posted, and the operation waits for their acknowledgement. -/
def State.kvPutAt (s : State) (k : KvSite) (o : KvOp) (pa : Nat) (bs : List Byte) : State × KvOp :=
  if region pa = .host then
    let n := s.host.nextReq
    let r : HostReq := { asid := o.asid, use := .coreOp k.1 k.2, addr := 0, size := 0, write := true, data := [], path := some 3,
                         lent := alook k.2 (s.core k.1).opLent }
    let t := s.hostWritesBy r pa bs
    (t, { o with writes := o.writes + (t.host.nextReq - n) })
  else (s.engineBytes pa bs, o)

/-- A write of an operation: through its pages, without tags. -/
def State.kvStore (s : State) (k : KvSite) (o : KvOp) (va : Word) (bs : List Byte) : KvPut :=
  match s.kvPlaces k o true va bs.length with
  | .error c => .cause (s.engineFail (engKv (clusterOf k.1)) o.asid false va true) c
  | .ok ps =>
    if ps.any (fun p => s.pinBusy p.pa) then .pinned else
    let r := ps.foldl (fun (r : (State × KvOp) × List Byte) p =>
      (r.1.1.kvPutAt k r.1.2 p.pa (r.2.take p.len), r.2.drop p.len)) ((s.markPlaces true ps, o), bs)
    .done r.1.1 r.1.2

/-- FP32 values of a row of bytes. -/
def f32s (bs : List Byte) : List W32 :=
  (List.range (bs.length / 4)).map (fun i => BitVec.ofNat 32 (bytesToNat ((bs.drop (4 * i)).take 4)))

/-! Work. -/

/-- What a part of an operation's work comes to. -/
inductive KvWork where
  | more (s : State) (o : KvOp)
  | ended (s : State) (o : KvOp)
  /-- It needs bytes from the host first. -/
  | asks (pa n : Nat)
  /-- R176: a pool's ring is empty. -/
  | waits (s : State) (o : KvOp) (pool : Nat)
  /-- R92: a page is being pinned or unpinned. -/
  | pinned (s : State) (o : KvOp)
  deriving DecidableEq, Repr

/-- R411, R421: a cause recorded after the step. -/
def KvOp.fail (o : KvOp) (c : Cause) : KvOp := { o with failed := some (statusCause c) }

/-- The next row of a buffer in the form of R192 and R414, for what is to be done with it. -/
def State.withRow (s : State) (k : KvSite) (o : KvOp) (g : KvGeom) (i : Nat) (f : State → List W32 → KvWork) : KvWork :=
  match s.kvFetch k o (o.a + BitVec.ofNat 64 (i * o.stride)) (8 * g.heads * g.dim) with
  | .cause c => .ended s (o.fail c)
  | .ask pa n => .asks pa n
  | .pinned => .pinned s o
  | .bytes t bs => f t (f32s bs)

/-- R178, R455, R50: what a KVAPP finds against the block it writes into, whose scales and REPMASK it reads. -/
def State.targetDefect (s : State) (o : KvOp) (blk l p : Nat) : Option Cause :=
  if s.poisoned blk then some (0x52#8, 0)
  else if s.memN blk 4 ≠ l then some (kvUnmapped 9 o.handle p)
  else if !kvReads (s.tagAt blk) then some (0x30#8, 0)
  else none

/-- R186, R414: a KVAPP stages its next row; after the last one its layer's STMASK bit is set. -/
def State.workApp (s : State) (k : KvSite) (o : KvOp) (g : KvGeom) : KvWork :=
  let l := o.b.toNat
  let node := match s.stageOf o.rcd with
    | some x => x.node
    | none => s.pathAt o.rcd (s.qNpath o.rcd - 1)
  if o.next < o.rows then
    s.withRow k o g o.next (fun s vals =>
      let p := s.qCommit o.rcd + o.next
      let off := p - s.nStart node
      let blk := entryAddr (s.tEntry (s.nTable node) l) + off / 32 * g.stride
      if s.pinIn blk g.stride then .pinned s o else
      match s.targetDefect o blk l p with
      | some c => .ended s (o.fail c)
      | none =>
        let s := s.putRows g blk (off % 32) vals
        let m := s.memN (blk + 4) 4
        let s := s.putMemN (blk + 4) 4 (if m.testBit (off % 32) then m - 2 ^ (off % 32) else m)
        .more s { o with next := o.next + 1 })
  else
    let m := s.qStmask o.rcd
    .ended (s.putMemN (o.rcd + 0x18) 16 (if m.testBit (l - 1) then m else m + 2 ^ (l - 1))) o

/-- R417: KVPROV writes its record. -/
def State.workProv (s : State) (k : KvSite) (o : KvOp) : KvWork :=
  match s.kvStore k o o.a o.out with
  | .cause t c => .ended t (o.fail c)
  | .pinned => .pinned s o
  | .done t o => .ended t o

/-- R420: the bytes of a head's result. -/
def attOut (g : KvGeom) (p : Partial) : List Byte :=
  let b := natToBytes 4 p.m.toNat ++ natToBytes 4 p.l.toNat ++ p.o.flatMap (fun x => natToBytes 4 x.toNat)
  b ++ List.replicate ((8 + 4 * g.dim + 63) / 64 * 64 - b.length) 0

/-- R129, R420: a head's result is written block by block, each with tag 0x7F01; the blocks before a page that faults stay written. -/
def State.putOut (s : State) (k : KvSite) (o : KvOp) : Word → List (List Byte) → KvPut
  | _, [] => .done s o
  | va, b :: r =>
    let e := engKv (clusterOf k.1)
    match s.engineAt e o.asid false va true with
    | .error c => .cause (s.engineFail e o.asid false va true) c
    | .ok p =>
      let t := (s.markAt p true).kvPutAt k o p.pa b
      (if region p.pa = .host then t.1 else t.1.wholeTag .through p.pa 0x7F01).putOut k t.2 (va + 64) r

/-- R92: whether a head's result would go to a page that is being pinned or unpinned. -/
def State.outPinned (s : State) (k : KvSite) (o : KvOp) (va : Word) (n : Nat) : Bool :=
  (segs va n).any (fun g => match s.engineAt (engKv (clusterOf k.1)) o.asid false g.1 true with
    | .ok p => s.pinBusy p.pa
    | .error _ => false)

/-- R185: the rotation table's frequencies. -/
def State.kvFreqs (s : State) (q : Nat) (g : KvGeom) : List Nat := (List.range (g.dim / 2)).map (fun i => s.memN (s.qRot q + 4 * i) 4)

/-- R200, R201, R420: an ATTQ computes and writes its next head. -/
def State.workAttq (s : State) (k : KvSite) (o : KvOp) (g : KvGeom) : KvWork :=
  if o.failed.isSome ∨ g.heads ≤ o.next then .ended s o else
  match s.kvFetch k o (o.a + BitVec.ofNat 64 (o.next * o.stride)) (4 * g.dim) with
  | .cause c => .ended s (o.fail c)
  | .ask pa n => .asks pa n
  | .pinned => .pinned s o
  | .bytes t bs =>
    let out := attOut g (attend g (t.kvFreqs o.rcd g) (f32s bs) o.next o.sample)
    let va := o.b + BitVec.ofNat 64 (o.next * out.length)
    if t.outPinned k o va out.length then .pinned s o else
    match t.putOut k o va (chunks 64 out.length out) with
    | .cause u c => .ended u (o.fail c)
    | .pinned => .pinned s o
    | .done u o => .more u { o with next := o.next + 1 }

/-- R178, R192: a position's block for a REPAIR, once it has passed the walker's checks. -/
def State.repairBlock (s : State) (o : KvOp) (g : KvGeom) (p l : Nat) : Except Cause (Nat × Nat × Nat) :=
  match s.walkKv o.rcd g o.handle p l with
  | .error c => .error c
  | .ok (n, blk, off) =>
    match s.kvDefect g blk (off % 32) l o.handle p with
    | some c => .error c
    | none => .ok (n, blk, off % 32)

/-- R92: whether the block of a position, or a structure that leads to it, lies in a page that is being pinned or unpinned. -/
def State.repairPinned (s : State) (o : KvOp) (g : KvGeom) (p l : Nat) : Bool :=
  s.kvPinned o.rcd || (match s.walkKv o.rcd g o.handle p l with
    | .ok w => s.pinIn w.2.1 g.stride
    | .error _ => false)

/-- R192: measures the next position. -/
def State.workMeasure (s : State) (k : KvSite) (o : KvOp) (g : KvGeom) : KvWork :=
  s.withRow k o g o.next (fun s vals =>
    let p := o.aux.toNat + o.next
    if s.repairPinned o g p 1 then .pinned s o else
    match s.repairBlock o g p 1 with
    | .error c => .ended s (o.fail c)
    | .ok (_, blk, i) =>
      let stored := [false, true].flatMap (fun v => (List.range g.heads).flatMap (fun h => kvDecode g (s.kvRow g blk v h i)))
      let tv := vals.map Num.ofF32
      let d := deviation tv stored
      match s.kvStore k o (o.b + BitVec.ofNat 64 (8 * o.next)) (natToBytes 4 p ++ natToBytes 4 d.toNat) with
      | .cause t c => .ended t (o.fail c)
      | .pinned => .pinned s o
      | .done s o =>
        .more s { o with next := o.next + 1, flagged := if flagged d o.repthr tv stored then o.flagged ++ [p] else o.flagged })

/-- R193: whether a node owns its blocks alone. -/
def State.ownsAlone (s : State) (q n : Nat) : Bool :=
  let t := s.nTable n
  decide (s.nRef n ≤ 1) && decide (s.tRef t ≤ 1) && (List.range (s.qLayers q)).all (fun i => !entryB (s.tEntry t (i + 1)))

/-- R193: the pieces of a node, of at most 32 positions each, in the frames given. -/
def State.makePieces (s : State) (o : KvOp) (g : KvGeom) (x : Nat) : List Nat → Nat → Nat → State
  | [], _, _ => s
  | f :: fs, off, parent =>
    (s.makePiece o.rcd g f x off (Nat.min 32 (s.nLen x - off)) (s.nStart x + off) 1 parent (some 3)).makePieces o g x fs (off + 32) f

/-- R186, R193: the pending node of a sequence's open stage, which stands behind its path. -/
def State.pendingOf (s : State) (q : Nat) : Option Nat :=
  match s.stageOf q with
  | some x => if x.pending then some x.node else none
  | none => none

/-- R193: the path after a replacement; a pending node keeps its place behind it, and with it the last piece for its parent where that was
the node replaced. -/
def State.replacePath (s : State) (q x : Nat) (ns : List Nat) : State :=
  let p := s.pendingOf q
  let s := s.setPath q ns
  match p with
  | some n =>
    let s := s.setPathAt q ns.length n
    if s.nParent n = x then s.putMemN (n + 8) 8 (ns.getLast?.getD 0) else s
  | none => s

/-- R193: replaces the next path node that holds a flagged position and does not own its blocks alone. Pieces for which the path table has
no room end the measure with PATHFULL, and so do they beside a pending node's entry: the spec gives no outcome there (log entry 129). -/
def State.workReplace (s : State) (o : KvOp) (g : KvGeom) : KvWork :=
  let q := o.rcd
  let ns := s.pathNodes q
  let want (x : Nat) : Bool := decide (o.next ≤ s.nStart x) && !s.ownsAlone q x &&
    o.flagged.any (fun p => decide (s.nStart x ≤ p ∧ p < s.nStart x + s.nLen x))
  if s.kvPinned q then .pinned s o else
  let x? := ns.find? want
  -- a node that is its sequence's alone by now gives up its lock
  let s : State := (o.locks.filter (fun y => x? != some y)).foldl (fun s y => s.setFlag y 5 false) s
  match x? with
  | none =>
    let s := s.spareFrames q o.got
    let o : KvOp := { o with got := [], locks := [] }
    if o.flagged.isEmpty then .ended s { o with result := 0 }
    else .more ((s.setFront q 1).setRdone q 0) { o with stage := 2, next := 0 }
  | some x =>
    let st := s.nStart x
    if s.nFlag x 5 ∧ s.memN (x + 0x40) 4 ≠ o.handle.toNat then .ended (s.setRcnt q 0) ({ o with locks := [] }.fail (0x43#8, kvFaddr 0 o.handle st))
    else
      let o : KvOp := { o with locks := [x] }
      let need := (s.nLen x + 31) / 32
      if s.pathCap q < ns.length - 1 + need + (if (s.pendingOf q).isSome then 1 else 0) then .ended s (o.fail (kvUnmapped 6 o.handle 0)) else
      let s := (s.setFlag x 5 true).putMemN (x + 0x40) 4 o.handle.toNat
      let r := s.kvFrames o.got need
      if r.1.length < need then .waits r.2 { o with got := r.1 } 8 else
      let mine := r.1.take need
      let front := ns.takeWhile (fun y => y != x)
      let s := (r.2.spareFrames q (r.1.drop need)).makePieces o g x mine 0 (front.getLast?.getD 0)
      let next := st + s.nLen x
      let s := (s.replacePath q x (front ++ mine ++ (ns.dropWhile (fun y => y != x)).drop 1)).setFlag x 5 false
      .more (s.dropNode q x) { o with got := [], locks := [], next := next }

/-- R194: the copy of a borrowed block, with its tags. -/
def State.copyBlock (s : State) (g : KvGeom) (src dst : Nat) : State :=
  (List.range (g.stride / 64)).foldl (fun (s : State) k =>
    let a := src + 64 * k
    let b := dst + 64 * k
    let s := (s.engineBytes b (s.viewBytes a 64)).engineTag b (s.tagAt a)
    if s.poisoned a then { s with poison := aput (b / 64) true s.poison } else s.clearPoison b) s

/-- R194: the install of one position of a layer; whether its REPMASK bit was set already. -/
def State.install1 (s : State) (o : KvOp) (g : KvGeom) (p l : Nat) (vals : List W32) : Except Cause (Option (State × Bool)) :=
  match s.repairBlock o g p l with
  | .error c => .error c
  | .ok (n, blk, i) =>
    let t := s.nTable n
    let pool := s.qPool o.rcd
    let own : Option (State × Nat) :=
      if entryB (s.tEntry t l) then
        (if s.kvFree pool = 0 then none else
          let b := s.kvTake pool
          let a := b.1 % 2 ^ 48 / 64 * 64
          some ((b.2.copyBlock g blk a).setEntry t l (a + 1), a))
      else some (s, blk)
    match own with
    | none => .ok none
    | some (s, blk) =>
      let s := s.putRows g blk i vals
      let m := s.memN (blk + 4) 4
      .ok (some (s.putMemN (blk + 4) 4 (if m.testBit i then m else m + 2 ^ i), m.testBit i))

/-- R194: FRONT moves on when every entry of its layer is installed. -/
def State.frontier (s : State) (q : Nat) : State :=
  let f := s.qFront q + 1
  let s := s.setRdone q 0
  if s.qLayers q < f then (s.setFront q 0).setRcnt q 0 else s.setFront q f

/-- R193: the measure installs the next flagged position in layer 1. -/
def State.workFirst (s : State) (k : KvSite) (o : KvOp) (g : KvGeom) : KvWork :=
  match o.flagged[o.next]? with
  | none => .ended (s.frontier o.rcd) { o with result := BitVec.ofNat 64 o.flagged.length }
  | some p =>
    s.withRow k o g (p - o.aux.toNat) (fun s vals =>
      if s.repairPinned o g p 1 then .pinned s o else
      match s.install1 o g p 1 vals with
      | .error c => .ended s (o.fail c)
      | .ok none => .waits s o (s.qPool o.rcd)
      | .ok (some (s, _)) => .more (s.setRdone o.rcd (s.qRdone o.rcd + 1)) { o with next := o.next + 1 })

/-- R194: the install form's next entry. -/
def State.workInstall (s : State) (k : KvSite) (o : KvOp) (g : KvGeom) : KvWork :=
  if o.rows ≤ o.next then .ended s { o with result := BitVec.ofNat 64 o.rows } else
  let l := o.b.toNat % 2 ^ 16
  let p := s.repairPos o.rcd (o.aux.toNat + o.next)
  s.withRow k o g o.next (fun s vals =>
    if s.repairPinned o g p l then .pinned s o else
    match s.install1 o g p l vals with
    | .error c => .ended s (o.fail c)
    | .ok none => .waits s o (s.qPool o.rcd)
    | .ok (some (s, was)) =>
      let s := if was then s else s.setRdone o.rcd (s.qRdone o.rcd + 1)
      let s := if s.qFront o.rcd = l ∧ s.qRdone o.rcd = s.qRcnt o.rcd then s.frontier o.rcd else s
      .more s { o with next := o.next + 1 })

/-- R192, R193: the measure's stages. -/
def State.workRepairM (s : State) (k : KvSite) (o : KvOp) (g : KvGeom) : KvWork :=
  if o.stage = 0 then
    if o.next < o.rows then s.workMeasure k o g
    else
      let s : State := ((List.range o.flagged.length).zip o.flagged).foldl (fun (s : State) e =>
        s.putMemN (s.qRlist o.rcd + 4 * e.1) 4 e.2) s
      .more (s.setRcnt o.rcd o.flagged.length) { o with stage := 1, next := 0 }
  else if o.stage = 1 then s.workReplace o g
  else s.workFirst k o g

/-- The next part of an operation's work. -/
def State.kvPart (s : State) (k : KvSite) (o : KvOp) : KvWork :=
  match s.kvGeom (s.qPool o.rcd) with
  | none => .ended s (o.fail (kvUnmapped 0xA o.handle 0))
  | some g =>
    match o.kind with
    | .app => s.workApp k o g
    | .prov => s.workProv k o
    | .repairM => s.workRepairM k o g
    | .repairI => s.workInstall k o g
    | .attq _ => s.workAttq k o g
    | _ => .ended s o

/-- The parts of an operation's work one after another, until it ends or must wait. -/
def kvRun (k : KvSite) : Nat → State → KvOp → KvWork
  | 0, s, o => .more s o
  | fuel + 1, s, o =>
    match s.kvPart k o with
    | .more t p => kvRun k fuel t p
    | .asks pa n => .asks pa n
    | r => r

/-- R411: the status word. -/
def KvOp.statusWord (o : KvOp) : Word :=
  match o.failed with
  | some (c, r, v) => c ++ (r ++ (0#16 ++ v))
  | none => BitVec.ofNat 64 (o.result.toNat % 2 ^ 32)

/-- R195, R412, R183: an operation ends: REPBUSY clears, its locks and frames are given up, its register is filled, and returns
that waited for it are made. -/
def State.kvEnd (s : State) (core id : Nat) (o : KvOp) : State :=
  let s := s.dropOp core id
  let s : State := o.got.foldl (fun s f => s.kvReturn o.rcd 8 f 1 1 0) s
  let s := if o.kind = .repairM ∨ o.kind = .repairI then
      (o.locks.foldl (fun (s : State) n => s.setFlag n 5 false) s).setBusy o.rcd false
    else s
  let s := match o.dst with
    | some d => s.fillS core o.seat id d o.statusWord
    | none => s
  s.flushReturns

def State.putKv (s : State) (core id : Nat) (o : KvOp) : State :=
  s.modCore core (fun c => { c with ops := aput id (.kv o) c.ops })

/-- R411, R417, R420, R495: an operation whose work is done ends once the host has acknowledged its writes. -/
def State.kvFinish (s : State) (k : KvSite) (o : KvOp) : State :=
  if o.writes = 0 then s.kvEnd k.1 k.2 o else s.putKv k.1 k.2 { o with isOver := true }

/-- R412, R421: the work of an operation goes on as far as it can; a pool whose ring it finds empty is reported (R176). -/
def State.kvGoOn (s : State) (k : KvSite) (o : KvOp) : Option State :=
  match kvRun k 65536 s { o with pool := none } with
  | .more t p => some (t.putKv k.1 k.2 p)
  | .ended t p => some (t.kvFinish k p)
  | .asks pa n =>
    let r : HostReq := { asid := o.asid, use := .coreOp k.1 k.2, addr := pa, size := n, write := false, data := [] }
    some ((s.hostRequest r).putKv k.1 k.2 { o with hostOut := some s.host.nextReq })
  | .waits t p n => some ((t.putKv k.1 k.2 { p with pool := some n }).poolEvent n)
  | .pinned t p => if p = o then none else some (t.putKv k.1 k.2 p)

/-- R412: whether the bundle of an accepted operation has still to issue. -/
def State.unissued (s : State) (k : KvSite) (o : KvOp) : Bool := ((s.seatAt k.1 o.seat).kvDone.map (·.1)) == some k.2

/-- R412, R421: KV_COMPLETE. -/
def execKvComplete (core id : Nat) (s : State) : Host.Outcome State Fault Refusal :=
  dev "KV_COMPLETE" (coreThere core) (match s.op core id with
    | some (.kv o) => if o.hostOut.isSome || o.pool.isSome || o.isOver || s.unissued (core, id) o then none else s.kvGoOn (core, id) o
    | _ => none)

/-- R495: the host has completed a request of a KV operation. A write that has failed ends it with HOST_ERROR. -/
def State.kvHostDone (s : State) (core id : Nat) (o : KvOp) (r : HostReq) (data : Option (List Byte)) : State :=
  if r.write then
    let o : KvOp := { o with writes := o.writes - 1 }
    let o : KvOp := if data.isNone then { o.fail (0x28#8, 0) with isOver := true } else o
    if o.isOver then s.kvFinish (core, id) o else s.putKv core id o
  else match data with
    | none => s.kvFinish (core, id) { o.fail (0x28#8, 0) with hostOut := none }
    | some bs => s.putKv core id { o with hostOut := none, hostData := o.hostData ++ [(r.addr, bs)] }

/-- R127, R412: the operation that a seat waits to have accepted takes its step, while the translations of its bundle hold; the bundle then
issues. -/
def State.kvAcceptHeld (s : State) (core seat : Nat) : Option State :=
  match (if (s.seatAt core seat).keep.isSome then (s.seatAt core seat).kvHeld else none) with
  | none => none
  | some o =>
    let done (t : State) (d : KvOp) : Option State :=
      let r := t.kvAccepted core d
      some (r.2.modSeat core seat (fun x => { x with kvHeld := none, kvDone := some (r.1, d), firm := true }))
    match s.kvStep core o with
    | .whole t d => done t d
    | .follows t d => done t d
    | _ => none

/-- R412: KV_ACCEPT. -/
def execKvAccept (core seat : Nat) (s : State) : Host.Outcome State Fault Refusal :=
  dev "KV_ACCEPT" (coreThere core && decide (seat < 2)) (s.kvAcceptHeld core seat)

/-- R176: an operation in flight of a seat that waits for a pool whose ring is no longer empty. -/
def State.poolWaiter (s : State) (core seat : Nat) : Option (Nat × KvOp) :=
  (s.core core).ops.findSome? (fun e => match e.2 with
    | .kv o => (match o.pool with
        | some n => if o.seat = seat ∧ s.kvFree n ≠ 0 then some (e.1, o) else none
        | none => none)
    | _ => none)

/-- R176: KV_POOL_WAIT_END: a return that waited for room is made, or an allocation that waited proceeds. -/
def execKvPoolWaitEnd (core seat : Nat) (s : State) : Host.Outcome State Fault Refusal :=
  dev "KV_POOL_WAIT_END" (coreThere core && decide (seat < 2)) (
    let t := s.flushReturns
    if t.fe.returns.length ≠ s.fe.returns.length then some t else
    match s.poolWaiter core seat with
    | some (id, o) => s.kvGoOn (core, id) o
    | none => s.kvAcceptHeld core seat)

end Sys2Proof.Machine
end

