-- ==== Sys2Proof/Machine/HostPort.lean ====
section
/-! DEFINITION. The host port: interrupts to the host (R496, R497), the record of failed accesses (R495, R498), and the log of
collectives (R507). -/

namespace Sys2Proof.Machine

/-- R497: the control-space offset of an entry of HIVT. -/
def hivtAt (v : Nat) : Nat := 0x00F81000 + 16 * v

/-- R497: the message of an entry leaves, after every write to the host that the port has still to perform. -/
def State.sendVector (s : State) (v : Nat) : State :=
  let r : HostReq := { asid := 0, use := .message, addr := s.ctlD (hivtAt v) % 2 ^ 47 / 4 * 4, size := 4, write := true,
                       data := natToBytes 4 (s.ctlW 0 (hivtAt v + 8)).toNat }
  let s : State := { s with host := { s.host with hivtPend := adel v s.host.hivtPend } }
  let waits := s.hostWriting (fun _ => true)
  if waits.isEmpty then s.sendMessage r else s.hostAfter waits r

/-- R497: a vector is raised: its message leaves, or the event is held. -/
def State.raiseVector (s : State) (v : Nat) : State :=
  if (s.ctlW 0 (hivtAt v + 0xC)).getLsbD 0 then s.sendVector v
  else { s with host := { s.host with hivtPend := aput v true s.host.hivtPend } }

/-- R40, R498: the host address of a physical address of the host window. -/
def hostAddr (pa : Nat) : Nat := pa % 2 ^ 47

/-- R498: HLERR keeps the first failure; vector 50 is raised when it is set. -/
def State.hostError (s : State) (asid : BitVec 16) (pa : Nat) : State :=
  match s.host.err with
  | some _ => s
  | none => ({ s with host := { s.host with err := some (asid, hostAddr pa) } }).raiseVector 50

/-- R507: an entry of the collective log. -/
def State.logColl (s : State) (core kind : Nat) (member : BitVec 16) (chunkId : BitVec 32) : State :=
  let e : List W32 := [member.zeroExtend 32 &&& 0x3FF#32, chunkId, BitVec.ofNat 32 (kind + core * 0x10000), BitVec.ofNat 32 s.cycle]
  let s : State := { s with net := { s.net with
    collLog := (s.net.collLog ++ [e]).drop (if s.net.collLog.length < 16 then 0 else 1)
    collCount := s.net.collCount + 1 } }
  s.raiseVector 49

end Sys2Proof.Machine
end

