-- ==== Sys2Proof/Machine/Coll.lean ====
section
/-! DEFINITION. Collectives: their instructions (R422, R424), the chunks that leave and arrive (R503 to R506), the check of a
chunk (R423), and the log (R507). -/

namespace Sys2Proof.Machine

/-! The check of a chunk (R423). -/

/-- A value in FP64, rounded to nearest even. -/
def Num.round64 : Num → Num
  | .fin n m e => let r := roundMag 53 (-1074) m e false; .fin n r.1 r.2.1
  | x => x

/-- The FP64 encoding of a finite value that FP64 holds. -/
def Num.bits64 : Num → BitVec 64
  | .fin n m e =>
    if m = 0 then 0 else
    let l := leadExp m e
    let sub := decide (l < -1022)
    let q : Int := if sub then -1074 else l - 52
    let mag := if q ≤ e then m * 2 ^ (e - q).toNat else m / 2 ^ (q - e).toNat
    BitVec.ofNat 64 ((if n then 2 ^ 63 else 0) + (if sub then mag else (l + 1022).toNat * 2 ^ 52 + mag))
  | _ => 0x7FF8000000000000#64

/-- The value of an FP64 encoding. -/
def Num.ofBits64 (b : BitVec 64) : Num :=
  let e := (b.extractLsb' 52 11).toNat
  let f := (b.extractLsb' 0 52).toNat
  if e = 2047 then .nan
  else if e = 0 then .fin (b.getLsbD 63) f (-1074)
  else .fin (b.getLsbD 63) (2 ^ 52 + f) ((e : Int) - 1075)

def Num.abs : Num → Num
  | .fin _ m e => .fin false m e
  | .inf _ => .inf false
  | .nan => .nan

/-- R422: whether the elements of an operation are floating, and their bytes. -/
def collFloat (op fsel : Nat) : Bool := decide (3 ≤ op) && decide (fsel ≤ 1)
def collWidth (op fsel : Nat) : Nat := if collFloat op fsel then (if fsel = 0 then 4 else 2) else 8

/-- The elements of a chunk as bit patterns. -/
def collElems (w : Nat) (bs : List Byte) : List Nat := (chunks w (bs.length / w) bs).map bytesToNat

/-- The FP32 bits of a floating element. -/
def collF32 (w x : Nat) : W32 := if w = 2 then BitVec.ofNat 32 (x * 2 ^ 16) else BitVec.ofNat 32 x

/-- R423: the check values that a sender computes. -/
def collCheck (op fsel : Nat) (bs : List Byte) : BitVec 64 × BitVec 64 × BitVec 64 :=
  let w := collWidth op fsel
  let es := collElems w bs
  if collFloat op fsel then
    let fin := (es.map (collF32 w)).filter (fun x => x.extractLsb' 23 8 != 0xFF#8) |>.map Num.ofF32
    let odd := es.filter (fun x => (collF32 w x).extractLsb' 23 8 == 0xFF#8)
    ((fin.foldl (fun (a x : Num) => (a.add x).round64) (Num.fin false 0 0)).bits64,
     (fin.foldl (fun (a x : Num) => (a.add x.abs).round64) (Num.fin false 0 0)).bits64,
     BitVec.ofNat 64 (odd.foldl (fun a x => a + x) 0))
  else (BitVec.ofNat 64 (es.foldl (fun a x => a + x) 0), 0, 0)

/-- R423: whether a receiver accepts a chunk. -/
def chunkOk (ch : CollChunk) : Bool :=
  let own := collCheck ch.op.toNat ch.fsel.toNat ch.data
  if collFloat ch.op.toNat ch.fsel.toNat then
    let gap := ((Num.ofBits64 own.1).add (Num.ofBits64 ch.check0).neg).abs
    let room := (Num.ofBits64 ch.check1).scale (-40)
    (gap.lt room || gap.eq room) && own.2.2 == ch.check2
  else own.1 == ch.check0

/-! Chunks that leave. -/

/-- R503: fields of the group table, and the package's member number. -/
def State.groupValid (s : State) (m : Nat) : Bool := (s.ctlW 0 (0x02000000 + 16 * m + 8)).getLsbD 0
def State.groupPorts (s : State) (m : Nat) : BitVec 16 := (s.ctlW 0 (0x02000000 + 16 * m + 4)).extractLsb' 16 16
def State.collSelf (s : State) : BitVec 16 := (s.ctlW 0 0x0200F000).extractLsb' 0 10 |>.zeroExtend 16

/-- R503: the port on which a chunk for a member leaves. -/
def State.collPort (s : State) (m : BitVec 16) : Option Nat :=
  (List.range 16).find? (fun p => (s.groupPorts m.toNat).getLsbD p && aget false p s.net.linkUp)

/-- R503: the MAC address of a member. -/
def State.memberMac (s : State) (m : Nat) : List Byte := natToBytes 6 (s.ctlD (0x02000000 + 16 * m) % 2 ^ 48)

/-- R505: the header of a fragment. -/
def chunkHeader (ch : CollChunk) (i n : Nat) : List Byte :=
  [1, ch.op, ch.fsel, 0] ++ natToBytes 2 ch.sender.toNat ++ natToBytes 2 ch.receiver.toNat ++ natToBytes 2 ch.asid.toNat ++ natToBytes 2 i ++
  natToBytes 4 ch.chunkId.toNat ++ natToBytes 8 ch.off.toNat ++ natToBytes 4 ch.len ++ natToBytes 2 n ++ natToBytes 2 0 ++
  natToBytes 8 ch.check0.toNat ++ natToBytes 8 ch.check1.toNat ++ natToBytes 8 ch.check2.toNat ++ natToBytes 8 0

/-- R505: what follows the EtherType in the frames of a chunk: a header, at most 8,192 bytes, and their tags. -/
def chunkFragments (ch : CollChunk) : List (List Byte) :=
  let n := Nat.max 1 ((ch.data.length + 8191) / 8192)
  (List.range n).map (fun i => chunkHeader ch i n ++ (ch.data.drop (8192 * i)).take 8192 ++
    ((ch.tags.drop (128 * i)).take 128).flatMap (fun t => natToBytes 2 t.toNat))

/-- R499, R505: the start of a chunk's frames: the two addresses, the 802.1Q tag with the priority, whose VLAN no rule gives, and the
EtherType. -/
def State.chunkPrefix (s : State) (ch : CollChunk) (prio : Nat) : List Byte :=
  let tci := prio * 8192 + (Config.freeW32 s.fresh).toNat % 4096
  s.memberMac ch.receiver.toNat ++ s.memberMac s.collSelf.toNat ++ [0x81, 0, BitVec.ofNat 8 (tci / 256), BitVec.ofNat 8 tci, 0x88, 0xB5]

/-- R503: a chunk leaves with the priority of CPRIO, if a link to its receiver is up. -/
def State.sendChunk (s : State) (ch : CollChunk) : Option State :=
  (s.collPort ch.receiver).map (fun p =>
    let prio := (s.ctlW 3 0x0200F004).toNat % 8
    let e : SentChunk := { port := p, prio := prio, chunk := ch, frames := (chunkFragments ch).map (s.chunkPrefix ch prio ++ ·) }
    { s with fresh := s.fresh + 1, net := { s.net with sent := s.net.sent ++ [e] } })

/-- R505: the OP of a collective's chunk. -/
def collOp (kind : Nat) : Nat := if kind ≤ 1 then kind else kind + 1

/-- R505: the chunk of a collective. -/
def State.collChunk (s : State) (id : Nat) (o : CollOp) : CollChunk :=
  let op := collOp o.kind
  let k := collCheck op o.fsel.toNat o.data
  { op := BitVec.ofNat 8 op, fsel := o.fsel.zeroExtend 8, sender := s.collSelf, receiver := o.member, asid := o.asid,
    chunkId := BitVec.ofNat 32 id, off := BitVec.ofNat 64 o.off, len := o.bytes, data := o.data, tags := o.tags,
    check0 := k.1, check1 := k.2.1, check2 := k.2.2 }

def State.putColl (s : State) (core id : Nat) (o : CollOp) : State :=
  s.modCore core (fun c => { c with ops := aput id (.coll o) c.ops })

/-- R503: a collective's chunk leaves once its bytes have come and a link is up; until then it waits. -/
def State.collGo (s : State) (core id : Nat) (o : CollOp) : State :=
  if o.left || o.ended.isSome || o.hostOut != 0 then s.putColl core id o else
  match s.sendChunk (s.collChunk id o) with
  | some t => t.putColl core id { o with left := true }
  | none => s.putColl core id o

/-! Ranges of memory. -/

/-- A place of a chunk: the access of the collective engine, and the length. -/
structure CollPlace where
  at_ : EngAt
  len : Nat
  deriving DecidableEq, Repr

def CollPlace.pa (p : CollPlace) : Nat := p.at_.pa

/-- R129, R504: the places of a range, page by page, up to the first page that faults, and its cause. -/
def State.collUpTo (s : State) (asid : BitVec 16) (w : Bool) : List Seg → List CollPlace × Option Cause
  | [] => ([], none)
  | g :: r => match s.engineAt engColl asid false g.1 w with
    | .error c => ([], some c)
    | .ok e =>
      let t := s.collUpTo asid w r
      ({ at_ := e, len := g.2 } :: t.1, t.2)

/-- The places of a range that translates as a whole. -/
def State.collPlaces (s : State) (asid : BitVec 16) (w : Bool) (va : Word) (n : Nat) : Except Cause (List CollPlace) :=
  match s.collUpTo asid w (segs va n) with
  | (ps, none) => .ok ps
  | (_, some c) => .error c

/-- R92: whether a range lies in a page that is being pinned or unpinned. -/
def State.collPinned (s : State) (asid : BitVec 16) (w : Bool) (va : Word) (n : Nat) : Bool :=
  (s.collUpTo asid w (segs va n)).1.any (fun p => s.pinBusy p.pa)

def State.markColl (s : State) (w : Bool) (ps : List CollPlace) : State := ps.foldl (fun s p => s.markAt p.at_ w) s

/-- The bytes of a range; the host's are what has come of them. -/
def State.collBytes (s : State) (host : List (Nat × List Byte)) (ps : List CollPlace) : List Byte :=
  ps.flatMap (fun p => if region p.pa = .host then (List.range p.len).map (fun i => (hostByte host (p.pa + i)).getD 0)
    else s.engineRead p.at_ p.len)

/-- R422: the tags of the blocks of a range. -/
def State.collTags (s : State) (ps : List CollPlace) : List (BitVec 16) :=
  ps.flatMap (fun p => (List.range (p.len / 64)).map (fun i => if region p.pa = .host then 0 else
    s.loadTag (match p.at_.leaf with
      | some l => pteCp l.entry
      | none => 0) (p.pa + 64 * i)))

/-- R455: whether a range holds a poisoned block. -/
def State.collPoison (s : State) (ps : List CollPlace) : Bool :=
  ps.any (fun p => region p.pa != .host && (List.range (p.len / 64)).any (fun i => s.poisoned (p.pa + 64 * i)))

/-- The requests that a range's host bytes take: physical address, offset in the chunk, length. -/
def collHostParts : Nat → List CollPlace → List (Nat × Nat × Nat)
  | _, [] => []
  | off, p :: r =>
    (if region p.pa = .host then (List.range ((p.len + 63) / 64)).map (fun i => (p.pa + 64 * i, off + 64 * i, Nat.min 64 (p.len - 64 * i)))
     else []) ++ collHostParts (off + p.len) r

/-- R422, R504: a chunk is written into a range: its bytes, and with a PUT or the data of a GET its tags. Host bytes are posted in the
manner of a request. -/
def State.collWrite (s : State) (by_ : HostReq) : List CollPlace → List Byte → Option (List (BitVec 16)) → State
  | [], _, _ => s
  | p :: r, bs, ts =>
    let s := s.markAt p.at_ true
    let s := s.engineWriteBy by_ p.pa (bs.take p.len)
    let n := p.len / 64
    let s : State := match ts with
      | some l => if region p.pa = .host then s else
          (List.range n).foldl (fun (s : State) i => s.wholeTag .through (p.pa + 64 * i) (nth 0 i l)) s
      | none => s
    s.collWrite by_ r (bs.drop p.len) (ts.map (fun l => l.drop n))

/-! Instructions. -/

/-- R422: the limits of a parameter block. -/
def collOk (kind : Nat) (p : Params) : Bool :=
  let n := p.aux.toNat
  p.rows == 0 && p.cols == 0 && p.stride == 0 && n % 64 == 0 && decide (64 ≤ n ∧ n ≤ 2 ^ 20) && p.scale == 0 && p.bar == 0 &&
  !p.nobar && p.flg == 0 &&
  (if kind ≤ 1 then p.fsel == 9 else if kind = 2 then p.fsel == 0 || p.fsel == 1 || p.fsel == 9 else p.fsel == 0 || p.fsel == 1)

/-- R422: the collectives in flight of the seat in focus. -/
def State.collCount (s : State) : Nat :=
  (s.fcore.ops.filter (fun e => match e.2 with
    | .coll o => o.seat == s.focus.seat
    | _ => false)).length

/-- R422, R424, R495, R503: a collective begins: unless it is a GET its local chunk is read, where a translation fault or a poisoned block
ends it: a chunk is applied whole or not at all (R506), so none of its bytes move. Then the chunk leaves. -/
def State.startColl (s : State) (kind : Nat) (p : Params) (va rb : Word) (dst : BitVec 6) : State :=
  let n := p.aux.toNat
  let id := s.nextOp
  let core := s.focus.core
  let o : CollOp :=
    { seat := s.focus.seat, asid := s.fasid, kind := kind, a := va, member := rb.extractLsb' 48 16, off := (rb.extractLsb' 0 48).toNat,
      bytes := n, fsel := p.fsel, dst := dst, data := [], tags := [], hostOut := 0, hostAt := [], left := false, fails := 0,
      ended := none }
  let begin_ (s : State) (o : CollOp) : State := ((s.newOp core (.coll o)).pendS dst id).collGo core id o
  if kind = 1 then begin_ s o else
  match s.collPlaces s.fasid false va n with
  | .error c => begin_ s { o with ended := some c.1 }
  | .ok ps =>
    if s.collPoison ps then begin_ (s.markColl false ps) { o with ended := some 0x52 }
    else
      let parts := collHostParts 0 ps
      let o := { o with data := s.collBytes [] ps, tags := s.collTags ps, hostOut := parts.length,
                        hostAt := parts.map (fun h => (h.1, h.2.1)) }
      let s := s.markColl false ps
      let s : State := parts.foldl (fun (s : State) h => s.hostRequest
        { asid := o.asid, use := .coreOp core id, addr := h.1, size := h.2.2, write := false, data := [] }) s
      begin_ s o

/-- R422, R503: a collective issues. -/
def State.coll (s : State) (kind : Nat) (p : Params) (a b c : BitVec 6) : Run := do
  let va := s.rS a
  let rb := s.rS b
  let m := (rb.extractLsb' 48 16).toNat
  if 16 ≤ s.collCount then stallX else
  if va.toNat % 64 ≠ 0 then raiseX 0x37 va else
  if rb.toNat % 64 ≠ 0 ∨ 1023 < m ∨ s.groupValid m = false then raiseX 0x37 rb else
  if kind ≠ 1 && s.collPinned s.fasid false va p.aux.toNat then stallX else
  .ok (s.commitF.startColl kind p va rb c)

/-- What the five forms share. -/
def collOpRun (kind : Nat) (a b c : BitVec 6) (g : BitVec 4) (s : State) : Host.Outcome State Fault Refusal :=
  blockOp g [.s a, .s b] [.s c] (fun s p => s.limit (collOk kind p)) (fun p s => s.coll kind p a b c) s

def execCollPut (a b c : BitVec 6) (g : BitVec 4) (s : State) := collOpRun 0 a b c g s
def execCollGet (a b c : BitVec 6) (g : BitVec 4) (s : State) := collOpRun 1 a b c g s
def execCollAdd (a b c : BitVec 6) (g : BitVec 4) (s : State) := collOpRun 2 a b c g s
def execCollMax (a b c : BitVec 6) (g : BitVec 4) (s : State) := collOpRun 3 a b c g s
def execCollMin (a b c : BitVec 6) (g : BitVec 4) (s : State) := collOpRun 4 a b c g s

/-! The sender's side. -/

/-- R506, R507: a chunk of a collective has failed: it is sent once more, or the collective ends with COLL_CHECK. -/
def State.collFail (s : State) (core id : Nat) (o : CollOp) : State :=
  if o.fails = 0 then
    (s.logColl core 8 o.member (BitVec.ofNat 32 id)).collGo core id { o with fails := 1, left := false }
  else (s.logColl core 9 o.member (BitVec.ofNat 32 id)).putColl core id { o with fails := o.fails + 1, ended := some 0x58 }

/-- A collective whose chunk has left and that has not ended. -/
def State.collOut (s : State) (core id : Nat) : Option CollOp :=
  match s.op core id with
  | some (.coll o) => if o.left && o.ended.isNone then some o else none
  | _ => none

/-- R506: what an ACK or a NAK does to a collective: a NAK makes it fail, an ACK ends all but a GET, which ends with its data. -/
def State.ownAnswer (s : State) (core id : Nat) (o : CollOp) (ok : Bool) : Option State :=
  if ok then (if o.kind = 1 then none else some (s.putColl core id { o with ended := some 0 })) else some (s.collFail core id o)

/-- R506: COLL_ACK. -/
def execCollAck (core id : Nat) (ok : Bool) (s : State) : Host.Outcome State Fault Refusal :=
  dev "COLL_ACK" (coreThere core) (match s.collOut core id with
    | some o => s.ownAnswer core id o ok
    | none => none)

/-- R506: the data of another member's GET that this package has sent, and how often it has failed. -/
def State.dataFor (s : State) (member : BitVec 16) (chunkId : BitVec 32) : Option (CollChunk × Nat) :=
  s.net.dataOut.find? (fun e => e.1.receiver == member && e.1.chunkId == chunkId)
def State.forgetData (s : State) (ch : CollChunk) : State :=
  { s with net := { s.net with dataOut := s.net.dataOut.filter (fun e => e.1.receiver != ch.receiver || e.1.chunkId != ch.chunkId) } }

/-- R506: the data of a GET leaves, and its answer is awaited. -/
def State.sendData (s : State) (ch : CollChunk) (fails : Nat) : State :=
  let s := s.forgetData ch
  let s : State := { s with net := { s.net with dataOut := s.net.dataOut ++ [(ch, fails)] } }
  (s.sendChunk ch).getD s

/-- R506, R507: the data of a GET has failed: it is sent once more, or is given up. -/
def State.dataFail (s : State) (e : CollChunk × Nat) : State :=
  if e.2 = 0 then (s.logColl 0 8 e.1.receiver e.1.chunkId).sendData e.1 1
  else (s.logColl 0 9 e.1.receiver e.1.chunkId).forgetData e.1

/-- R506: COLL_CHUNK_TIMEOUT. -/
def execCollChunkTimeout (chunk : ChunkRef) (id : Nat) (s : State) : Host.Outcome State Fault Refusal :=
  dev "COLL_CHUNK_TIMEOUT" (match chunk with
      | .own core => coreThere core
      | .data _ => true) (
    match chunk with
    | .own core => (s.collOut core id).map (fun o => s.collFail core id o)
    | .data m => (s.dataFor m (BitVec.ofNat 32 id)).map (fun e => s.dataFail e))

/-- R411, R422: the status word of a collective. -/
def CollOp.statusWord (o : CollOp) (c : BitVec 8) : Word := if c = 0 then BitVec.ofNat 64 o.bytes else c ++ 0#56

/-- R424: COLL_COMPLETE. -/
def execCollComplete (core id : Nat) (s : State) : Host.Outcome State Fault Refusal :=
  dev "COLL_COMPLETE" (coreThere core) (match s.op core id with
    | some (.coll o) => if o.hostOut ≠ 0 then none else
        o.ended.map (fun c => (s.dropOp core id).fillS core o.seat id o.dst (o.statusWord c))
    | _ => none)

/-- R495: the host has completed a request of a collective. -/
def State.collHostDone (s : State) (core id : Nat) (o : CollOp) (r : HostReq) (data : Option (List Byte)) : State :=
  let o := { o with hostOut := o.hostOut - 1 }
  match data with
  | none => s.putColl core id { o with ended := some 0x28 }
  | some bs =>
    if r.write then s.putColl core id o else
    match o.hostAt.find? (fun e => e.1 == r.addr) with
    | some e => s.collGo core id { o with data := o.data.take e.2 ++ bs ++ o.data.drop (e.2 + bs.length) }
    | none => s.putColl core id o

/-! The receiver's side. -/

/-- R504: the place in an ASID's collective window at which a chunk is applied. -/
def State.collWindow (s : State) (asid : BitVec 16) (off len : Nat) : Option Word :=
  let at_ (i : Nat) := 0x02008000 + 32 * i
  match (List.range 64).find? (fun i => (s.ctlW 0 (at_ i)).getLsbD 16 && (s.ctlW 0 (at_ i)).extractLsb' 0 16 == asid) with
  | none => none
  | some i => if s.ctlD (at_ i + 16) < off + len then none else some (BitVec.ofNat 64 (s.ctlD (at_ i + 8) / 64 * 64 + off))

/-- R505: an answer to a chunk: 6 ACK, 7 NAK. It is dropped where no link to its receiver is up. -/
def State.collAnswer (s : State) (op : Nat) (ch : CollChunk) : State :=
  let r : CollChunk :=
    { op := BitVec.ofNat 8 op, fsel := 0, sender := s.collSelf, receiver := ch.sender, asid := ch.asid, chunkId := ch.chunkId,
      off := ch.off, len := 0, data := [], tags := [], check0 := 0, check1 := 0, check2 := 0 }
  (s.sendChunk r).getD s

/-- R506: the chunk has been applied. -/
def State.noteApplied (s : State) (ch : CollChunk) : State :=
  { s with net := { s.net with recvLog := s.net.recvLog ++ [{ sender := ch.sender, chunkId := ch.chunkId, ofGet := ch.op == 2 }] } }
def State.wasApplied (s : State) (ch : CollChunk) : Bool :=
  s.net.recvLog.contains { sender := ch.sender, chunkId := ch.chunkId, ofGet := ch.op == 2 }

/-- R422: y op x for one element. -/
def collElem (op fsel y x : Nat) : Nat :=
  let w := collWidth op fsel
  if w = 8 then (y + x) % 2 ^ 64 else
  let a := collF32 w y
  let b := collF32 w x
  if op = 3 then
    (if w = 4 then (fAdd a b).1.toNat else ((Num.ofF32 a).add (Num.ofF32 b)).toBf16.1.toNat)
  else
    let r := if op = 4 then (fMax a b).1 else (fMin a b).1
    if w = 4 then r.toNat else r.toNat / 2 ^ 16

/-- R422: the bytes that an ADD, MAX or MIN leaves. -/
def collMix (op fsel : Nat) (old new : List Byte) : List Byte :=
  let w := collWidth op fsel
  ((collElems w old).zip (collElems w new)).flatMap (fun e => natToBytes w (collElem op fsel e.1 e.2))

/-- What a chunk that arrived comes to: it is applied, refused, or needs bytes of the host first. -/
inductive CollOutcome where
  | applied (s : State)
  | refused
  | needs (parts : List (Nat × Nat × Nat))
  deriving DecidableEq, Repr

/-- R422 to R424, R504, R506: a remote package's chunk, given the host bytes that have come. -/
def State.collApply (s : State) (ch : CollChunk) (host : List (Nat × List Byte)) : CollOutcome :=
  let op := ch.op.toNat
  -- R141: nothing of a killed ASID is applied
  if s.fe.revoked.contains ch.asid then .refused else
  let by_ : HostReq := { asid := ch.asid, use := .engine, addr := 0, size := 0, write := true, data := [], path := some 4 }
  match s.collWindow ch.asid ch.off.toNat ch.len with
  | none => .refused
  | some va =>
    match s.collPlaces ch.asid (op != 1) va ch.len with
    | .error _ => .refused
    | .ok ps =>
      let missing := (collHostParts 0 ps).filter (fun h => (hostByte host h.1).isNone)
      if op = 0 then
        if chunkOk ch && ch.data.length == ch.len then
          .applied ((s.collWrite by_ ps ch.data (some ch.tags)).noteApplied ch |>.collAnswer 6 ch)
        else .refused
      else if op = 1 then
        if s.collPoison ps then .refused
        else if !missing.isEmpty then .needs missing
        else
          let d := s.collBytes host ps
          let k := collCheck 2 ch.fsel.toNat d
          let r : CollChunk := { ch with op := 2, sender := s.collSelf, receiver := ch.sender, data := d, tags := s.collTags ps,
                                         check0 := k.1, check1 := k.2.1, check2 := k.2.2 }
          let s := s.markColl false ps
          .applied (s.sendData r 0)
      else if !(chunkOk ch && ch.data.length == ch.len) then .refused
      else if s.collPoison ps then .refused
      else if !missing.isEmpty then .needs missing
      else
        let d := collMix op ch.fsel.toNat (s.collBytes host ps) ch.data
        .applied ((s.collWrite by_ ps d none).noteApplied ch |>.collAnswer 6 ch)

/-- A chunk that may have to wait for the host. -/
def State.collServe (s : State) (k : Option Nat) (i : Inbound) : State :=
  let drop (s : State) : State := match k with
    | some k => { s with net := { s.net with inbox := adel k s.net.inbox } }
    | none => s
  match s.collApply i.chunk i.hostData with
  | .applied t => drop t
  | .refused => drop (s.collAnswer 7 i.chunk)
  | .needs parts =>
    match parts with
    | [] => drop s
    | h :: _ =>
      let k := k.getD s.host.nextReq
      let s := s.hostRequest { asid := i.chunk.asid, use := .inbound k, addr := h.1, size := h.2.2, write := false, data := [] }
      { s with net := { s.net with inbox := aput k { i with hostOut := true } s.net.inbox } }

/-- R495: the host has completed a request of a chunk that waits. -/
def State.inboundHostDone (s : State) (k : Nat) (i : Inbound) (r : HostReq) (data : Option (List Byte)) : State :=
  match data with
  | none => ({ s with net := { s.net with inbox := adel k s.net.inbox } }).collAnswer 7 i.chunk
  | some bs => s.collServe (some k) { i with hostOut := false, hostData := i.hostData ++ [(r.addr, bs)] }

/-- R505: the collective whose GET data a chunk brings. -/
def State.getOf (s : State) (ch : CollChunk) : Option (Nat × Nat × CollOp) :=
  s.cores.findSome? (fun c => c.2.ops.findSome? (fun e => match e.2 with
    | .coll o => if o.kind = 1 ∧ o.left = true ∧ o.ended = none ∧ o.member = ch.sender ∧ BitVec.ofNat 32 e.1 = ch.chunkId
        then some (c.1, e.1, o) else none
    | _ => none))

/-- R423, R506, R507: the data of a GET has failed its check; its sender sends it once more after the NAK, and a second failure ends the
collective. -/
def State.badData (s : State) (core id : Nat) (o : CollOp) : State :=
  if o.fails = 0 then (s.logColl core 8 o.member (BitVec.ofNat 32 id)).putColl core id { o with fails := 1 }
  else (s.logColl core 9 o.member (BitVec.ofNat 32 id)).putColl core id { o with fails := o.fails + 1, ended := some 0x58 }

/-- R422, R424, R506: the data of a GET. It is written page by page (R129): the bytes before a page that faults land. -/
def State.collGetData (s : State) (ch : CollChunk) : State :=
  match s.getOf ch with
  | none => if s.wasApplied ch then s.collAnswer 6 ch else s
  | some (core, id, o) =>
    if !(chunkOk ch && ch.data.length == o.bytes) then (s.collAnswer 7 ch).badData core id o
    else
      let r := s.collUpTo o.asid true (segs o.a o.bytes)
      let by_ : HostReq := { asid := o.asid, use := .coreOp core id, addr := 0, size := 0, write := true, data := [], path := some 4,
                             lent := alook id (s.core core).opLent }
      let k := s.host.nextReq
      let s := s.collWrite by_ r.1 ch.data (some ch.tags)
      let n := s.host.nextReq - k
      match r.2 with
      | some c =>
        let at_ := o.a + BitVec.ofNat 64 ((r.1.map (·.len)).foldl (· + ·) 0)
        (s.engineFail engColl o.asid false at_ true).putColl core id { o with ended := some c.1, hostOut := n }
      | none => ((s.noteApplied ch).collAnswer 6 ch).putColl core id { o with ended := some 0, hostOut := n }

/-- R506: the collective of this package that an ACK or a NAK answers. -/
def State.answered (s : State) (ch : CollChunk) : Option (Nat × Nat × CollOp) :=
  s.cores.findSome? (fun c => c.2.ops.findSome? (fun e => match e.2 with
    | .coll o => if o.left = true ∧ o.ended = none ∧ o.member = ch.sender ∧ BitVec.ofNat 32 e.1 = ch.chunkId
        then some (c.1, e.1, o) else none
    | _ => none))

/-- R506: an ACK or a NAK that arrives: of a collective's chunk, or of the data of a GET. -/
def State.collReply (s : State) (ch : CollChunk) : Option State :=
  match s.answered ch with
  | some (core, id, o) => s.ownAnswer core id o (ch.op == 6)
  | none => (s.dataFor ch.sender ch.chunkId).map (fun e => if ch.op = 6 then s.forgetData e.1 else s.dataFail e)

/-- R92: whether a chunk that arrives must wait for a page that is being pinned or unpinned. -/
def State.chunkPinned (s : State) (ch : CollChunk) : Bool :=
  if ch.op = 2 then (match s.getOf ch with
    | some g => s.collPinned g.2.2.asid true g.2.2.a g.2.2.bytes
    | none => false)
  else match s.collWindow ch.asid ch.off.toNat ch.len with
    | some va => s.collPinned ch.asid (ch.op != 1) va ch.len
    | none => false

/-- R506: what a chunk does once every fragment of it has arrived. -/
def State.collArrive (s : State) (ch : CollChunk) : Option State :=
  if s.chunkPinned ch then none
  else if ch.op = 2 then some (s.collGetData ch)
  else if 6 ≤ ch.op.toNat then s.collReply ch
  else if s.wasApplied ch then some (s.collAnswer 6 ch)
  else some (s.collServe none { chunk := ch, hostOut := false, hostData := [] })

/-- R506: COLL_CHUNK_RECEIVE. -/
def execCollChunkReceive (ch : CollChunk) (s : State) : Host.Outcome State Fault Refusal :=
  dev "COLL_CHUNK_RECEIVE" true (if s.power.state ≠ 0 ∨ 7 < ch.op.toNat then none else s.collArrive ch)

/-! Fragments (R505, R506). -/

/-- R505: the fragment that a frame's bytes behind its EtherType hold: none in a frame of another version or operation. -/
def readFragment (b : List Byte) : Option CollFrag :=
  let f (o n : Nat) : Nat := bytesToNat ((b.drop o).take n)
  let n := (b.length - 64) / 66 * 64
  if b.length < 64 ∨ f 0 1 ≠ 1 ∨ 7 < f 1 1 then none else
  some {
    chunk := {
      op := BitVec.ofNat 8 (f 1 1), fsel := BitVec.ofNat 8 (f 2 1), sender := BitVec.ofNat 16 (f 4 2), receiver := BitVec.ofNat 16 (f 6 2)
      asid := BitVec.ofNat 16 (f 8 2), chunkId := BitVec.ofNat 32 (f 0xC 4), off := BitVec.ofNat 64 (f 0x10 8), len := f 0x18 4
      data := (b.drop 64).take n, tags := (List.range (n / 64)).map (fun i => BitVec.ofNat 16 (f (64 + n + 2 * i) 2))
      check0 := BitVec.ofNat 64 (f 0x20 8), check1 := BitVec.ofNat 64 (f 0x28 8), check2 := BitVec.ofNat 64 (f 0x30 8) }
    index := f 0xA 2, count := f 0x1C 2 }

/-- Whether two fragments belong to one chunk. -/
def CollFrag.sameChunk (a b : CollFrag) : Bool :=
  a.chunk.sender == b.chunk.sender && a.chunk.chunkId == b.chunk.chunkId && a.chunk.op == b.chunk.op

/-- R506: the chunk of a list of fragments, once every one of them is there. -/
def wholeChunk (fs : List CollFrag) (last : CollFrag) : Option CollChunk :=
  ((List.range last.count).mapM (fun i => fs.find? (fun f => f.index == i))).map (fun l =>
    { last.chunk with data := l.flatMap (fun f => f.chunk.data), tags := l.flatMap (fun f => f.chunk.tags) })

/-- R506: a fragment arrives: one of a chunk applied already is acknowledged again and not applied; with the last one its chunk is
there. -/
def State.fragment (s : State) (f : CollFrag) : State :=
  if f.chunk.op.toNat < 6 ∧ f.chunk.op ≠ 1 ∧ s.wasApplied f.chunk = true then s.collAnswer 6 f.chunk else
  let mine := s.net.frags.filter (fun e => e.sameChunk f && e.index != f.index) ++ [f]
  let rest := s.net.frags.filter (fun e => !e.sameChunk f)
  match wholeChunk mine f with
  | some ch => let t : State := { s with net := { s.net with frags := rest } }
    (t.collArrive ch).getD t
  | none => { s with net := { s.net with frags := rest ++ mine } }

end Sys2Proof.Machine
end

