-- ==== Sys2Proof/Machine/Pool.lean ====
section
/-! DEFINITION. Continuation records and the pools: where a record may run, which it may not, and what its coming wakes (R203 to
R216, R464 to R468, R470, R473). -/

namespace Sys2Proof.Machine

/-- R205: fields of word 1 of a record. -/
def Cont.asid (c : Cont) : BitVec 16 := c.w1.extractLsb' 48 16
def Cont.level (c : Cont) : Nat := (c.w1.extractLsb' 45 3).toNat
def Cont.home (c : Cont) : Nat := (c.w1.extractLsb' 36 9).toNat
def Cont.seatOf (c : Cont) : Nat := (c.w1.extractLsb' 32 1).toNat
/-- R204: fields of word 0. -/
def Cont.prio (c : Cont) : Nat := (c.w0.extractLsb' 56 3).toNat
def Cont.dur (c : Cont) : Bool := c.w0.getLsbD 55
def Cont.susp (c : Cont) : Nat := (c.w0.extractLsb' 2 2).toNat
def Cont.pers (c : Cont) : Bool := c.w0.getLsbD 1
/-- R205: LEVEL 0 or 1 makes a continuation bound. -/
def Cont.bound (c : Cont) : Bool := decide (c.level ≤ 1)


/-- R281, R286: the predicates p0 to p15 of a seat as one word. -/
def Seat.predWord (t : Seat) : Word :=
  BitVec.ofNat 64 ((List.range 16).foldl (fun n i =>
    let v := if i = 0 then true else if 8 ≤ i then stagePred t.file.ctl.stage (i - 8) else (aget preg0 i t.file.regs.p).val
    if v then n + 2 ^ i else n) 0)

/-! Cores that may be given work. -/

/-- R464, R468: a bit of a die's mask registers for a core. -/
def State.coreBit (s : State) (off core : Nat) : Bool :=
  (s.ctlW 0 (dieBlock (dieOf core) + off + 4 * (core % 100 / 32))).getLsbD (core % 100 % 32)
def State.setCoreBit (s : State) (off core : Nat) : State :=
  let at_ := dieBlock (dieOf core) + off + 4 * (core % 100 / 32)
  s.setCtlW at_ (s.ctlW 0 at_ ||| BitVec.ofNat 32 (2 ^ (core % 100 % 32)))
def State.quarantined (s : State) (core : Nat) : Bool := s.coreBit 0x00090400 core
def State.retired (s : State) (core : Nat) : Bool := s.coreBit 0x00090410 core

/-- R464: whether quarantine keeps unpaired records off a core. -/
def State.barredAlone (s : State) (core : Nat) : Bool := s.topo.mode == 0 && s.quarantined core

/-- R466: the partner of a core, on its die. -/
def State.partner (s : State) (core : Nat) : Option Nat :=
  let w := s.ctlW 0 (dieBlock (dieOf core) + 0x00090600 + 4 * (core % 100))
  let p := (w.extractLsb' 0 9).toNat
  if w.getLsbD 31 && decide (p < 400) && dieOf p == dieOf core then some p else none

/-- R466: whether a continuation was created by a launch of a paired queue. -/
def State.isPaired (s : State) (c : Cont) : Bool :=
  match alook (tagEntry c.tag) s.fe.entries with
  | some e => e.paired
  | none => false

/-- R466, R469: whether a continuation runs as a pair on a core: a new one of a paired queue does; one that resumes does where the core's
PAIRTAB entry is valid. -/
def State.goesPaired (s : State) (c : Cont) (core : Nat) : Bool :=
  s.isPaired c && (c.susp == 0 || (s.partner core).isSome)

/-- R460: whether a scan runs on a core. -/
def State.scanning (s : State) (core : Nat) : Bool := (s.cluster (clusterOf core)).scanBusy == some core

/-- R212, R460, R465, R468: whether a core can run a continuation: its tile is on, it is visible, not retired, not being scanned, not stopped. -/
def State.coreServes (s : State) (core : Nat) : Bool :=
  let c := s.core core
  c.tile == .on && s.visible core && !s.retired core && !s.scanning core && c.stopping.isNone

/-- R214, R229, R464: whether a core takes work: it can run it, the LCID map names it, and where it is quarantined the work is a pair's. -/
def State.coreTakes (s : State) (core : Nat) (paired : Bool) : Bool :=
  s.coreServes core && (s.lcidOf core).isSome && (paired || !s.barredAlone core)

/-- R214: whether a level and a HOME admit a core. -/
def levelAdmits (level home core : Nat) : Bool :=
  if level ≤ 1 then home == core
  else if level = 2 then clusterOf home == clusterOf core
  else if level = 3 then dieOf home == dieOf core
  else level == 4

/-- R214: whether a record may run on a seat. -/
def Cont.admits (c : Cont) (core x : Nat) : Bool := levelAdmits c.level c.home core && (c.level != 0 || c.seatOf == x)

/-- R440: the other seat holds nothing, or a continuation of the same ASID. -/
def State.sameContext (s : State) (core x : Nat) (asid : BitVec 16) : Bool :=
  let t := s.seatAt core (1 - x)
  !t.busy || t.file.ctl.asid == asid

/-- R214, R464, R466: whether the front end reports a record as not placed. -/
def State.unplaceable (s : State) (level home : Nat) (paired : Bool) : Bool :=
  decide (4 < level) || decide (400 ≤ home) || !s.visible home ||
  (if paired then (s.partner home).isNone else s.barredAlone home)

def State.itemUnplaceable (s : State) : PoolItem → Bool
  | .record c => s.unplaceable c.level c.home (s.goesPaired c c.home)
  | .frame f => s.unplaceable f.level f.home (f.conts.any s.isPaired && (s.partner f.home).isSome)

/-- R141, R144: whether a kill of an ASID is in progress: nothing of it is placed. -/
def State.killing (s : State) (asid : BitVec 16) : Bool := s.fe.kills.any (fun k => k.asid == asid)

/-- R262: reports the records of the pools that are not placed. -/
def State.reportPools (s : State) : State :=
  if s.dies.any (fun d => d.2.pool.any (fun e => s.itemUnplaceable e.item)) then s.raiseFw 7 else s

/-- R253: whether a continuation is a member of a gang: a GANG packet created it. -/
def State.isGang (s : State) (c : Cont) : Bool :=
  match alook (tagEntry c.tag) s.fe.entries with
  | some e => (match alook e.pkt s.fe.packets with
      | some p => p.opcode == 2
      | none => false)
  | none => false

/-! Tiles. -/

/-- R470, R473, R478: a tile in RET or OFF starts to wake; one that has tripped does not. -/
def State.wakeTile (s : State) (core : Nat) : State :=
  let c := s.core core
  match c.tile with
  | .ret => s.setCore core { c with tile := .wakingRet }
  | .off => if c.tripped then s else s.setCore core { c with tile := .wakingOff }
  | _ => s

def PoolItem.level : PoolItem → Nat
  | .record c => c.level
  | .frame f => f.level
def PoolItem.home : PoolItem → Nat
  | .record c => c.home
  | .frame f => f.home
def PoolItem.prio : PoolItem → Nat
  | .record c => c.prio
  | .frame f => f.prio

/-- R214: whether two free records may run on the same cores. -/
def sameReach (level home level' home' : Nat) : Bool :=
  level == level' && (level == 4 || (if level = 3 then dieOf home == dieOf home' else clusterOf home == clusterOf home'))

/-- R473: what a runnable record, entry id of a pool, wakes: a bound record its HOME tile; a free one that finds no idle ON seat at its
level, the free records before it having taken theirs, the lowest-numbered RET tile there, or failing that the lowest-numbered OFF
tile. -/
def State.wakeFor (s : State) (level home id : Nat) : State :=
  if level ≤ 1 then s.wakeTile home else
  let cores := (List.range 400).filter (fun n => levelAdmits level home n && s.visible n && (s.lcidOf n).isSome && !s.retired n)
  let idle := ((cores.filter (fun n => (s.core n).tile == .on)).flatMap (fun n => [(n, 0), (n, 1)])).filter (fun q => !(s.seatAt q.1 q.2).busy)
  let ahead := s.dies.flatMap (fun d => d.2.pool.filter (fun e => decide (e.id < id) && sameReach level home e.item.level e.item.home))
  if ahead.length < idle.length then s
  else match cores.find? (fun n => (s.core n).tile == .ret) with
    | some n => s.wakeTile n
    | none => match cores.find? (fun n => (s.core n).tile == .off && !(s.core n).tripped) with
      | some n => s.wakeTile n
      | none => s

/-! Pools. -/

/-- A fresh number for an entry of a pool or a wait table. -/
def State.newEntry (s : State) : Nat × State := (s.fe.nextPool, { s with fe := { s.fe with nextPool := s.fe.nextPool + 1 } })

/-- R214, R215, R473: an item joins the tail of a pool; the list's order is the order in which records entered their levels. -/
def State.poolAddIf (s : State) (wakes : Bool) (d : Nat) (it : PoolItem) : State :=
  let n := s.newEntry
  let s : State := n.2.modDie d (fun x => { x with pool := x.pool ++ [{ id := n.1, item := it }] })
  if s.itemUnplaceable it then s.raiseFw 7 else if wakes then s.wakeFor it.level it.home n.1 else s
def State.poolAdd (s : State) (d : Nat) (it : PoolItem) : State := s.poolAddIf true d it

end Sys2Proof.Machine
end

