-- ==== Sys2Proof/Machine/Leave.lean ====
section
/-! DEFINITION. How a seat leaves its program once its registers are full: the record written back at a suspension point, and
the end of a continuation (R208 to R213, R327, R328); the causes a seat takes at a bundle boundary (R433 items 1 and 2, R434,
R435). -/

namespace Sys2Proof.Machine

/-- R14, R204: word 0 with SUSP and PC set; its reserved bits are 0. -/
def Cont.mark (w0 : Word) (susp : Nat) (pc : BitVec 51) : Word :=
  (w0 &&& 0x0780000000000002#64) ||| BitVec.ofNat 64 (16 * pc.toNat + 4 * susp)
/-- R205: word 1 with HOME, ROLE and SEAT set. -/
def Cont.place (w1 : Word) (home role seat : Nat) : Word :=
  (w1 &&& 0xFFFFE000FFFFFFFF#64) ||| BitVec.ofNat 64 (home % 512 * 2 ^ 36 + role % 4 * 2 ^ 34 + seat % 2 * 2 ^ 32)

/-- R210: a tag with HALF. -/
def tagHalf (tag : Word) (h : Bool) : Word := (tag &&& 0xFFFFFFFFEFFFFFFF#64) ||| (if h then 0x10000000#64 else 0)

/-- R208, R210, R212: the record and the tag of a seat that suspends; a migration in progress names its target as HOME
(R232). -/
def State.recordOf (s : State) (core x susp : Nat) : Cont :=
  let t := s.seatAt core x
  let home := match (s.core core).stopping with
    | some (.migrate tg) => tg
    | some (.fallback tg) => tg
    | _ => core
  { w0 := Cont.mark t.cont.w0 susp t.pc
    w1 := Cont.place t.cont.w1 home (t.file.ctl.role.extractLsb' 0 2).toNat x
    s := (List.range 6).map (fun i => (aget sreg0 (i + 1) t.file.regs.s).val)
    tag := tagHalf t.cont.tag (t.cont.bound && t.file.ctl.spwin.getLsbD 17)
    expired := false }

/-- The bytes of a record (R204). -/
def Cont.bytes (c : Cont) : List Byte :=
  natToBytes 8 c.w0.toNat ++ natToBytes 8 c.w1.toNat ++ c.s.flatMap (fun w => natToBytes 8 w.toNat)
/-- R211: the bytes of the block beside a suspended record. -/
def Cont.tagBytes (c : Cont) : List Byte := natToBytes 8 c.tag.toNat ++ List.replicate 56 0

/-- R232: a bound continuation that suspends while its core migrates leaves its window for the target. -/
def State.noteLeft (s : State) (core : Nat) (c : Cont) (win : W32) : State :=
  if c.bound && c.home != core then s.modCore core (fun k => { k with leftWins := k.leftWins ++ [win] }) else s

/-- R208, R211, R328: a seat whose registers are full leaves its program. -/
def State.finishLeave (s : State) (core x : Nat) (l : Leave) : State :=
  let s := s.modSeat core x (·.flushEfr)
  let s := match l with
    | .halt => s
    | _ => s.noteLeft core (s.recordOf core x 1) (s.seatAt core x).file.ctl.spwin
  match l with
  | .halt => (s.countOut (s.seatAt core x).cont.tag).idleSeat core x
  | .suspend pa cp =>
    let c := s.recordOf core x 1
    let w := storeWay core cp
    if region pa = .host then
      (s.hostWritesBy { s.seatPost core x 0 0 with use := .engine } pa (c.bytes ++ c.tagBytes)).idleSeat core x else
    let s := s.storeBytes w pa c.bytes
    let s := s.wholeTag w pa 0
    let s := s.storeBytes w (pa + 64) c.tagBytes
    let s := s.wholeTag w (pa + 64) 0
    let s : State := if c.bound then s.modCore c.home (fun k => { k with suspended := (k.suspended.filter (fun e => e.1 != pa)) ++ [(pa, c.asid)] }) else s
    s.idleSeat core x
  | .yield =>
    let c := s.recordOf core x 2
    (s.poolAdd (dieOf core) (.record c)).idleSeat core x
  | .wait key timeout =>
    let c := s.recordOf core x 3
    let n := s.newEntry
    let s : State := n.2.modDie (dieOf core) (fun d => { d with waits := aput n.1 { cont := c, key := key, timeout := timeout } d.waits })
    s.idleSeat core x

/-- R212, R328, R396: whether a seat that leaves may end. -/
def Seat.mayLeave (t : Seat) : Bool := t.file.regs.quiet && t.seq.isNone

/-- R434: DEBUG_TRAP and TOPOLOGY_CHANGE stay pending while TM = 1. -/
def asyncReady (tm : Bool) (c : BitVec 8) : Bool := !(tm && (c == 0x07#8 || c == 0x54#8))

/-- R433 item 2: the pending asynchronous cause that is taken first. -/
def Seat.nextAsync (t : Seat) : Option (BitVec 8 × Word) :=
  [0x52#8, 0x53#8, 0x51#8, 0x07#8, 0x54#8].findSome? (fun c => if asyncReady t.tm c then t.async.find? (fun e => e.1 == c) else none)

/-- Removes the first occurrence of a pending cause. -/
def dropCause (c : BitVec 8 × Word) : List (BitVec 8 × Word) → List (BitVec 8 × Word)
  | [] => []
  | e :: r => if e = c then r else e :: dropCause c r

/-- R433 items 1 and 2, R455, R522: the deferred or asynchronous cause that a seat takes at its bundle boundary, if there is one. -/
def State.dueCause (s : State) (core x : Nat) : Option State :=
  let t := s.seatAt core x
  if t.firm then none else
  match t.deferred with
  | some e => some ((s.setSeat core x { t with deferred := none }).takeCause core x { e with epc := t.pc })
  | none =>
    match t.nextAsync with
    | none => none
    | some c =>
      let s' := s.setSeat core x { t with async := dropCause c t.async }
      let e : Entry := { cause := c.1, faddr := if c.1 = 0x54 then s.topoWord else c.2, slot := 0, pblk := false, epc := t.pc }
      if c.1 = 0x52 then
        match s'.deliverUncorr core x c.2 with
        | some r => some r
        | none => some (s'.takeCause core x e)
      else if (c.1 = 0x07 ∨ c.1 = 0x54) ∧ t.file.ctl.trapvec.extractLsb' 4 51 = 0 then some s'
      else some (s'.takeCause core x e)

/-- R433, R435: what a seat takes at its bundle boundary, be its last bundle one that leaves the program or not; or a trap entry that was
waiting completes. -/
def State.boundaryCause (s : State) (core x : Nat) : Option State :=
  let t := s.seatAt core x
  match t.run with
  | .entering e => if t.trapReady then some (s.takeCause core x e) else none
  | .running => s.dueCause core x
  | .leaving _ => s.dueCause core x
  | _ => none

end Sys2Proof.Machine
end

