-- ==== Sys2Proof/Machine/Resole.lean ====
section
/-! DEFINITION. The resole: its instructions (R425 to R429), the journal, the verified write attempts, the commit record, the
redirection of reads and the background apply (R84, R484 to R488). -/

namespace Sys2Proof.Machine

/-! The journal. -/

/-- R34: the die whose banks hold an MRAM address. -/
def bankDie (pa : Nat) : Nat := (pa - 0x10000000000) / 0xA000000 / 100

/-- R36, R484: the first journal entry of a die, and the number of its entries. -/
def journalBase (d : Nat) : Nat := 0x11000000000 + d * 0x10000000 + 0x10000
def journalEntries : Nat := 2096640

/-- The journal entries in use. -/
def State.usedEntries (s : State) : List Nat :=
  s.resole.txs.flatMap (fun e => e.2.lines.map (·.entry)) ++ s.resole.applying.flatMap (fun e => e.2.map (·.entry)) ++ s.resole.stuck

/-- R484: a free entry of a die; nothing says which. -/
def State.freeEntry (s : State) (d : Nat) : Option Nat :=
  let used := s.usedEntries
  let start := Config.freeVictim s.fresh
  ((List.range (Nat.min (used.length + 1) journalEntries)).map (fun i => journalBase d + 128 * ((start + i) % journalEntries))).find?
    (fun a => !used.contains a)

def State.tx (s : State) (h : Nat) : Option ResoleTx := alook h s.resole.txs

def State.putTx (s : State) (h : Nat) (t : ResoleTx) : State :=
  ({ s with resole := { s.resole with txs := aput h t s.resole.txs } } : State).putHeader h

/-- R486: an attempt on a page counts. -/
def State.wear (s : State) (pa : Nat) : State :=
  let n := aget 0 (pa / 4096) s.resole.wear
  { s with resole := { s.resole with wear := aput (pa / 4096) (Nat.min (n + 1) (2 ^ 32 - 1)) s.resole.wear } }

/-- R484: the bytes of an entry. -/
def ResoleLine.bytes (l : ResoleLine) (h flags : Nat) : List Byte :=
  l.data ++ natToBytes 8 l.pa ++ natToBytes 2 l.tag.toNat ++ natToBytes 1 h ++ natToBytes 1 flags ++ natToBytes 4 l.seqNo ++
  List.replicate 48 0

/-- R484, R485: an entry stands in the journal with its flags; the block's tag goes with its data. -/
def State.putEntry (s : State) (h : Nat) (l : ResoleLine) (flags : Nat) : State :=
  (s.putHomes l.entry (l.bytes h flags)).putHomeTag l.entry l.tag

/-- R485: an attempt that does not verify leaves the entry's data as nothing says. -/
def State.spoilEntry (s : State) (l : ResoleLine) : State :=
  let n := s.fresh
  { s.putHomes l.entry ((List.range 64).map (fun i => Config.freeByte (n + i))) with fresh := n + 64 }

/-- A list without repeats. -/
def nub : List Nat → List Nat
  | [] => []
  | x :: r => if r.contains x then nub r else x :: nub r

/-! Causes. -/

/-- R400: RESOLE_STATE with a reason. -/
def resoleState {α : Type} (reason h : Nat) : Except Stop α := raiseX 0x39 (BitVec.ofNat 64 (reason * 2 ^ 56 + h))

/-- R425: a handle, or COMMAND_ARG. -/
def handleOf (v : Word) : Except Stop Nat := if 1 ≤ v.toNat ∧ v.toNat ≤ 8 then .ok v.toNat else raiseX 0x37 v

/-- R425: the transaction of a handle that the seat's ASID owns. -/
def State.ownTx (s : State) (h : Nat) : Except Stop ResoleTx :=
  match s.tx h with
  | some t => if t.asid = s.fasid then .ok t else resoleState 3 h
  | none => resoleState 3 h

/-! Instructions. -/

/-- R428: whether a transaction is open. -/
def ResoleTx.isOpen (t : ResoleTx) : Bool := t.state == 1 || t.state == 2

/-- R426: RSBEGIN. -/
def execRsbegin (a c : BitVec 6) (g : BitVec 4) (s : State) :=
  slotOp g [.s a] [.s c] (fun s => do
    let m := (s.rS a).toNat
    if 15 < m then raiseX 0x37 (s.rS a) else
    match (List.range 8).find? (fun i => match s.tx (i + 1) with
      | some t => !t.isOpen
      | none => true) with
    | none => resoleState 1 0
    | some i =>
      if s.resole.txs.any (fun e => e.2.isOpen && e.2.slot == m) then resoleState 2 0 else
      let s := s.commitF
      let t : ResoleTx :=
        { state := 1, reason := 0, slot := m, asid := s.fasid, pages := [], lines := [], committer := none, retried := 0, verified := 0,
          firstFail := 0 }
      .ok ((s.putTx (i + 1) t).wS c (BitVec.ofNat 64 (i + 1)) (s.after 2))) s

/-- R427: stages one line; a die without a free entry makes the transaction FAILED. -/
def State.stageLine (s : State) (h : Nat) (pa va : Nat) (data : Option (List Byte)) (tag : BitVec 16) (req : Nat) : State :=
  match s.tx h with
  | none => s
  | some t =>
    if t.state ≠ 1 then s else
    match s.freeEntry (bankDie pa) with
    | none => s.putTx h { t with state := 5, reason := 7 }
    | some e =>
      let l : ResoleLine :=
        { pa := pa, va := va, data := data.getD [], tag := tag, entry := e, seqNo := t.lines.length, ready := data.isSome,
          verified := false, tries := 0, applied := false, stuck := false, req := req, epoch := 0 }
      { s.putTx h { t with lines := t.lines ++ [l] } with fresh := s.fresh + 1 }

/-- The physical address of a byte of translated pieces. -/
def pieceAt (ps : List Piece) (va : Word) : Nat :=
  match ps.find? (fun p => decide ((va - p.va).toNat < p.len)) with
  | some p => p.pa + (va - p.va).toNat
  | none => 0

/-- The policy of the page that holds a byte of translated pieces. -/
def pieceCp (ps : List Piece) (va : Word) : BitVec 3 :=
  match ps.find? (fun p => decide ((va - p.va).toNat < p.len)) with
  | some p => pteCp p.leaf.entry
  | none => 0

/-- R427, R47: stages line i of an RSWRITE: the source block with its tag, or a request for a host block. -/
def State.stageFrom (s : State) (h : Nat) (tgt src : Word) (ts ps : List Piece) (i : Nat) : State :=
  let tv := tgt + BitVec.ofNat 64 (64 * i)
  let sv := src + BitVec.ofNat 64 (64 * i)
  let sp := pieceAt ps sv
  if region sp = .host then
    let s := s.stageLine h (pieceAt ts tv) tv.toNat none 0 s.host.nextReq
    s.hostRequest { asid := s.fasid, use := .resole s.focus.core s.focus.seat, addr := sp, size := 64, write := false, data := [] }
  else s.stageLine h (pieceAt ts tv) tv.toNat (some (s.loadBytes (pieceCp ps sv) sp 64)) (s.loadTag (pieceCp ps sv) sp) 0

/-- R427: RSWRITE. -/
def execRswrite (a b c : BitVec 6) (g : BitVec 4) (s : State) :=
  slotOp g [.s a, .s b, .s c] [] (fun s => do
    let k := s.rS c
    let n := (k.extractLsb' 0 32).toNat
    let h := (k.extractLsb' 32 8).toNat
    let tgt := s.rS a
    let src := s.rS b
    if k.extractLsb' 40 24 ≠ 0 ∨ n % 64 ≠ 0 ∨ n < 64 ∨ 2 ^ 24 < n ∨ h < 1 ∨ 8 < h then raiseX 0x37 k else
    if tgt.toNat % 64 ≠ 0 then raiseX 0x26 (transFaddr 0 .write tgt.toNat) else
    if src.toNat % 64 ≠ 0 then raiseX 0x26 (transFaddr 0 .read src.toNat) else
    let ts ← s.seatPieces tgt n .resole
    match ts.map (fun p => bankDie p.pa) with
    | [] => raiseX 0x37 k
    | d :: ds =>
      if ds.any (fun x => x != d) then raiseX 0x37 tgt else
      let ps ← s.seatPieces src n .read
      let t ← s.ownTx h
      if t.state ≠ 1 then resoleState 5 h else
      let pages := nub (ts.flatMap (fun p => (List.range ((p.pa % 4096 + p.len + 4095) / 4096)).map (fun i => p.pa / 4096 + i)))
      if s.resole.txs.any (fun e => e.1 != h && e.2.pages.any pages.contains) then resoleState 4 h else
      let s := s.commitF
      let s := (s.install true ts).install false ps
      let s := s.putTx h { t with pages := nub (t.pages ++ pages) }
      let s : State := (List.range (n / 64)).foldl (fun (s : State) i => s.stageFrom h tgt src ts ps i) s
      .ok (match s.poisonHit ps with
        | some pa => s.consumeF (s.structF pa) pa
        | none => s)) s

/-- R428: RSCOMMIT. -/
def execRscommit (a c : BitVec 6) (g : BitVec 4) (s : State) :=
  slotOp g [.s a] [.s c] (fun s => do
    let h ← handleOf (s.rS a)
    let t ← s.ownTx h
    if t.state ≠ 1 then resoleState 5 h else
    let s := s.commitF
    let id := s.nextOp
    let o : CommitOp := { seat := s.focus.seat, asid := s.fasid, handle := h, dst := c }
    .ok ((s.putTx h { t with state := 2, committer := some (s.focus.core, id) }).newOp s.focus.core (.resole o) |>.pendS c id)) s

/-- R428: RSABORT. -/
def execRsabort (a : BitVec 6) (g : BitVec 4) (s : State) :=
  slotOp g [.s a] [] (fun s => do
    let h ← handleOf (s.rS a)
    let t ← s.ownTx h
    if t.state = 1 ∨ t.state = 5 then .ok (s.commitF.putTx h { t with state := 4, pages := [], lines := [] })
    else resoleState 5 h) s

/-- R429: a view of a transaction. -/
def State.rsView (s : State) (t : ResoleTx) (view : Nat) : Word :=
  if view = 0 then
    BitVec.ofNat 64 (t.state * 2 ^ 60 + t.reason * 2 ^ 56 + t.slot * 2 ^ 52 + Nat.min t.retried (2 ^ 20 - 1) * 2 ^ 32 + t.verified % 2 ^ 32)
  else if view = 1 then BitVec.ofNat 64 (t.firstFail % 2 ^ 55)
  else BitVec.ofNat 64 ((t.lines.filter (fun l => !l.verified)).length * 2 ^ 32 + (s.mverOf t.slot).toNat)

/-- A handle that no transaction has had. -/
def ResoleTx.free (asid : BitVec 16) : ResoleTx :=
  { state := 0, reason := 0, slot := 0, asid := asid, pages := [], lines := [], committer := none, retried := 0, verified := 0,
    firstFail := 0 }

/-- R429: RSSTAT. -/
def execRsstat (a b c : BitVec 6) (g : BitVec 4) (s : State) :=
  slotOp g [.s a, .s b] [.s c] (fun s => do
    let view := (s.rS b).toNat % 4
    if view = 3 then raiseX 0x37 (s.rS b) else
    let h ← handleOf (s.rS a)
    let t := (s.tx h).getD (ResoleTx.free s.fasid)
    if t.asid ≠ s.fasid then resoleState 3 h else
    let s := s.commitF
    .ok (s.wS c (s.rsView t view) .full)) s

/-! The machinery. -/

/-- R411, R428: the RSCOMMIT of a transaction ends with a status. -/
def State.commitStatus (s : State) (t : ResoleTx) (v : Word) : State :=
  match t.committer with
  | none => s
  | some (core, id) =>
    match s.op core id with
    | some (.resole o) => (s.dropOp core id).fillS core o.seat id o.dst v
    | _ => s

/-- R485, R428: a transaction fails. -/
def State.failTx (s : State) (h : Nat) (t : ResoleTx) (reason : Nat) : State :=
  if t.state = 2 then
    (s.putTx h { t with state := 5, reason := reason, pages := [], lines := [], committer := none }).commitStatus t
      (BitVec.ofNat 64 (0x39 * 2 ^ 56 + reason * 2 ^ 48))
  else s.putTx h { t with state := 5, reason := reason }

/-- The line of a transaction with a sequence number changed. -/
def ResoleTx.modLine (t : ResoleTx) (n : Nat) (f : ResoleLine → ResoleLine) : ResoleTx :=
  { t with lines := t.lines.map (fun l => if l.seqNo = n then f l else l) }

/-- R485: JOURNAL_WRITE_ATTEMPT: the next line that waits is written to its entry and read back. -/
def execJournalWriteAttempt (handle : Nat) (ok : Bool) (s : State) : Host.Outcome State Fault Refusal :=
  dev "JOURNAL_WRITE_ATTEMPT" (decide (1 ≤ handle ∧ handle ≤ 8)) (match s.tx handle with
    | none => none
    | some t =>
      if !t.isOpen || !s.active then none else
      match t.lines.find? (fun l => l.ready && !l.verified) with
      | none => none
      | some l =>
        let s := s.wear l.entry
        if ok then
          some ((s.putEntry handle l 1).putTx handle
            { t.modLine l.seqNo (fun x => { x with verified := true }) with verified := t.verified + 1 })
        else
          let t := { t.modLine l.seqNo (fun x => { x with tries := x.tries + 1 }) with
            retried := if l.tries = 0 then t.retried + 1 else t.retried }
          let s := s.spoilEntry l
          if 3 ≤ l.tries then some (s.failTx handle { t with firstFail := if t.firstFail = 0 then l.va else t.firstFail } 6)
          else some (s.putTx handle t))

/-- R477: raises a bit of PWREVT. -/
def State.raisePower (s : State) (bit : Nat) : State := { s with power := { s.power with evt := s.power.evt ||| BitVec.ofNat 32 (2 ^ bit) } }

/-- R487: the apply of a handle ends when every entry is APPLIED or STUCK: the other entries are freed and APPLY is raised. -/
def State.applyDone (s : State) (h : Nat) (ls : List ResoleLine) : State :=
  if ls.all (fun l => l.applied || l.stuck) then
    ({ s with resole := { s.resole with applying := adel h s.resole.applying,
                                        stuck := s.resole.stuck ++ (ls.filter (fun (l : ResoleLine) => l.stuck)).map (fun (l : ResoleLine) => l.entry) } }).raisePower 5
  else ({ s with resole := { s.resole with applying := aput h ls s.resole.applying } } : State).putHeader h

/-- R84, R428, R487, R488: COMMIT_RECORD: the commit point, the new version, and the redirection of the changed lines, whose cached copies
are dropped first. -/
def execCommitRecord (handle : Nat) (s : State) : Host.Outcome State Fault Refusal :=
  dev "COMMIT_RECORD" (decide (1 ≤ handle ∧ handle ≤ 8)) (match s.tx handle with
    | none => none
    | some t =>
      if t.state ≠ 2 ∨ t.lines.any (fun l => !l.verified) ∨ (alook handle s.resole.applying).isSome ∨ s.active = false then none else
      let v := s.mverOf t.slot + 1
      let s : State := t.lines.foldl (fun s l => s.dropLine (l.pa / 64)) s
      let s : State := { s with resole := { s.resole with
        mver := aput t.slot v s.resole.mver
        commits := s.resole.commits + 1
        redirect := t.lines.foldl (fun (m : Assoc Nat) l => aput (l.pa / 64) (l.entry / 64) m) s.resole.redirect } }
      let s := (s.putTx handle { t with state := 3, pages := [], lines := [], committer := none }).applyDone handle (t.lines.map (fun l => { l with tries := 0, epoch := s.resole.commits }))
      some (s.commitStatus t (v.zeroExtend 64)))

/-- R487, R488: whether an older commit has still to write the bank line of an entry. -/
def State.applyHeld (s : State) (l : ResoleLine) : Bool :=
  s.resole.applying.any (fun e => e.2.any (fun x => x.pa == l.pa && decide (x.epoch < l.epoch) && !x.applied && !x.stuck))

/-- R485, R487: RESOLE_APPLY: the next entry of a committed transaction is written to its bank line. -/
def execResoleApply (handle : Nat) (ok : Bool) (s : State) : Host.Outcome State Fault Refusal :=
  dev "RESOLE_APPLY" (decide (1 ≤ handle ∧ handle ≤ 8)) (match alook handle s.resole.applying with
    | none => none
    | some ls =>
      match ls.find? (fun l => !l.applied && !l.stuck && !s.applyHeld l && s.active) with
      | none => none
      | some l =>
        let s := s.wear l.pa
        let mod (f : ResoleLine → ResoleLine) : List ResoleLine := ls.map (fun x => if x.seqNo = l.seqNo then f x else x)
        if ok then
          let s := ((s.putHomes l.pa l.data).putHomeTag l.pa l.tag).putEntry handle l 3
          let s : State := if alook (l.pa / 64) s.resole.redirect = some (l.entry / 64) then
              { s with resole := { s.resole with redirect := adel (l.pa / 64) s.resole.redirect } }
            else s
          some (s.applyDone handle (mod (fun x => { x with applied := true })))
        else if 3 ≤ l.tries then some ((s.putEntry handle l 5).applyDone handle (mod (fun x => { x with stuck := true })))
        else some (s.applyDone handle (mod (fun x => { x with tries := x.tries + 1 }))))

/-- R427, R495: the host has completed the read of a staged line's source; where the transaction has gone, so has the line. -/
def State.resoleHostDone (s : State) (id : Nat) (data : Option (List Byte)) : State :=
  match s.resole.txs.find? (fun e => e.2.isOpen && e.2.lines.any (fun l => !l.ready && l.req == id)) with
  | none => s
  | some (h, t) =>
    match data with
    | some bs => s.putTx h { t with lines := t.lines.map (fun l => if !l.ready && l.req == id then { l with data := bs, ready := true } else l) }
    | none => s.failTx h t 6

end Sys2Proof.Machine
end

