-- ==== Sys2Proof/Machine/Sched.lean ====
section
/-! DEFINITION. The scheduling of continuations: placement, ageing, the placement bound, wakes and timeouts of waits (R206 to
R216, R408, R409), the hang watchdog (R226, R448), and the completion of a trap entry (R435). -/

namespace Sys2Proof.Machine

/-! Placement. -/

/-- R210: fields of a placement tag. -/
def tagBase (tag : Word) : Nat := (tag.extractLsb' 20 8).toNat
def tagSize (tag : Word) : Nat := (tag.extractLsb' 11 8).toNat

/-- R206, R210: whether a continuation keeps the window it left: bound, resumed, and on its HOME core. -/
def Cont.keeps (c : Cont) (core : Nat) : Bool := c.bound && c.susp != 0 && c.home == core

/-- R100, R210: SPWIN as the front end writes it. -/
def Cont.spwin (c : Cont) (core : Nat) : W32 :=
  BitVec.ofNat 32 ((if c.keeps core && c.tag.getLsbD 28 then 2 ^ 17 else 0) + (if c.tag.getLsbD 19 then 2 ^ 16 else 0) +
    tagBase c.tag * 256 + tagSize c.tag)

/-- R103: the pages of a window that an occupant of another ASID left are cleared to zero, with their tags. -/
def Core.clearWindow (c : Core) (base size : Nat) (asid : BitVec 16) : Core :=
  let stale (pg : Nat) : Bool := decide (base ≤ pg ∧ pg < base + size) && (match alook pg c.spadOwner with
    | some a => a != asid
    | none => false)
  { c with spad := c.spad.filter (fun e => !stale (e.1 / 4096)), spadTags := c.spadTags.filter (fun e => !stale (e.1 / 64)),
           spadPoison := c.spadPoison.filter (fun e => !stale (e.1 / 64)) }

/-- R206, R207: the seat state that a placement makes. -/
def Cont.seat (c : Cont) (core x : Nat) : Seat :=
  let role := (c.w1.extractLsb' 34 2).toNat
  let regs : RegFile := { s := ((List.range 6).zip c.s).map (fun e => (e.1 + 1, { val := e.2, fill := .full })), p := [], v := [] }
  let pc := c.w0.extractLsb' 4 51
  { Seat.reset with
    run := .running
    file := { regs := regs, ctl := { CtlRegs.reset with
      role := if role = 3 then 1 else BitVec.ofNat 32 role
      asid := c.asid
      spwin := c.spwin core
      gcoord := Cont.place c.w1 core role x } }
    pc := pc
    npc := pc
    cont := c
    ranOn := [] }

/-- R103, R206, R210, R456, R466: a continuation is placed on a seat, and on its partner's seat for a pair, whose phases are tracked from the
start; it is from then on the occupant of its window. -/
def State.placeSeat (s : State) (core x : Nat) (c : Cont) : State :=
  let put (s : State) (n : Nat) (pair : Option (Nat × Bool)) : State :=
    let s : State := if c.keeps core then s else s.modCore n (fun k => k.clearWindow (tagBase c.tag) (tagSize c.tag) c.asid)
    let s : State := s.modCore n (fun k => k.ownPages (c.spwin core) c.asid)
    let t : Seat := { c.seat core x with placed := s.fe.placements, pair := pair }
    if pair.isNone then s.setSeat n x t else
    let t : Seat := { t with file := { t.file with ctl := { t.file.ctl with phaseEn := true } } }
    s.setSeat n x { t with snap := some (t.snapshot s.nextOp) }
  let s : State := match (if s.goesPaired c core then s.partner core else none) with
    | some p => put (put s core (some (p, true))) p (some (core, false))
    | none => put s core none
  -- R523: its wait in the pool
  let s := s.observe core 5
  { s with fe := { s.fe with placements := s.fe.placements + 1 } }

/-- R214, R215, R440, R464, R466: whether a record may be placed on a seat now. -/
def State.mayPlace (s : State) (c : Cont) (core x : Nat) : Bool :=
  let paired := s.goesPaired c core
  let free (n : Nat) : Bool := !(s.seatAt n x).busy && s.sameContext n x c.asid
  !s.itemUnplaceable (.record c) && !s.killing c.asid && c.admits core x && s.coreTakes core paired && free core &&
  (!paired || (match s.partner core with
    | some p => s.coreServes p && free p
    | none => false))

/-- R447, R469: whether a frame entry may be restored on a core now. -/
def State.mayRestore (s : State) (f : FrameRef) (core : Nat) : Bool :=
  let idle (n : Nat) : Bool := !(s.seatAt n 0).busy && !(s.seatAt n 1).busy
  let partner := if f.conts.any s.isPaired then s.partner core else none
  !s.itemUnplaceable (.frame f) && levelAdmits f.level f.home core && s.coreTakes core partner.isSome && idle core &&
  (match partner with
    | some p => s.coreServes p && idle p
    | none => true)

/-- R215: the items that a seat may take, with the die of their pool: those of its own die, and PKG-level records of the others
(R214). -/
def State.candidates (s : State) (core x : Nat) : List (Nat × PoolEntry) :=
  let ok (e : PoolEntry) : Bool := match e.item with
    | .record c => s.mayPlace c core x
    | .frame f => s.mayRestore f core
  let own := dieOf core
  ([own] ++ (List.range 4).filter (fun d => d != own)).flatMap (fun d =>
    ((s.die d).pool.filter (fun e => ok e && (d == own || e.item.level == 4))).map (fun e => (d, e)))

/-- R215: the head of the highest level: the first of those with the highest priority. -/
def bestItem : List (Nat × PoolEntry) → Option (Nat × PoolEntry)
  | [] => none
  | e :: r => match bestItem r with
    | some b => if b.2.item.prio ≤ e.2.item.prio then some e else some b
    | none => some e

def State.dropItem (s : State) (d id : Nat) : State := s.modDie d (fun x => { x with pool := x.pool.filter (fun e => e.id != id) })

/-- R215: CONTINUATION_PLACE. -/
def execContinuationPlace (core seat : Nat) (s : State) : Host.Outcome State Fault Refusal :=
  dev "CONTINUATION_PLACE" (coreThere core && decide (seat < 2)) (match bestItem (s.candidates core seat) with
    | some (d, e) => (match e.item with
        | .record c => some ((s.dropItem d e.id).placeSeat core seat c)
        | .frame _ => none)
    | none => none)

/-- A pool entry of a die. -/
def State.poolEntry (s : State) (d id : Nat) : Option PoolEntry := (s.die d).pool.find? (fun e => e.id == id)

/-- R204: a record with its priority raised by one. -/
def Cont.raise (c : Cont) : Cont := if c.prio = 7 then c else { c with w0 := c.w0 + 0x0100000000000000#64 }

/-- R215, R447: an item whose priority has risen by one; a frame's two records rise with it, in the frame as well. -/
def State.raiseItem (s : State) : PoolItem → State × PoolItem
  | .record c => (s, .record c.raise)
  | .frame f =>
    let up (s : State) (x : Nat) : State :=
      let at_ := f.addr + 0x20 + 16 * x
      let w : Word := BitVec.ofNat 64 (s.memN at_ 8)
      if f.seats.testBit x && decide ((w.extractLsb' 56 3).toNat < 7) then s.putMemN at_ 8 (w.toNat + 2 ^ 56) else s
    (up (up s 0) 1, .frame { f with prio := Nat.min 7 (f.prio + 1), conts := f.conts.map Cont.raise })

/-- R217: AGEINT and BOUND of a die. -/
def State.placeCtl (s : State) (d : Nat) : W32 := s.ctlW 0x00C80032#32 (dieBlock d + 0x00080000)

/-- R215: AGEING. -/
def execAgeing (die entry : Nat) (s : State) : Host.Outcome State Fault Refusal :=
  dev "AGEING" (decide (die < 4)) (match s.poolEntry die entry with
    | some e =>
      if e.item.prio = 7 ∨ (s.placeCtl die).extractLsb' 16 16 = 0 then none else
      let r := s.raiseItem e.item
      some (r.1.modDie die (fun x => { x with pool := x.pool.filter (fun y => y.id != entry) ++ [{ e with item := r.2 }] }))
    | none => none)

/-! The placement bound (R216). -/

/-- R442: a core begins to stop for a save, once a frame has been found; none when the ring is empty. -/
def State.stopWith (s : State) (core : Nat) (fromCmd : Bool) (waiting : Option (Nat × Nat)) : Option State :=
  let desc := s.sfpd (dieOf core)
  match s.poolHead desc with
  | none => none
  | some f =>
    let s := (s.poolTake desc).putMemN f 1 0
    some (s.modCore core (fun c => { c with stopping := some (.preempt f fromCmd waiting) }))

/-- R469: the cores of the primaries whose shadows run on a core, and that do not stop yet. -/
def State.heads (s : State) (core : Nat) : List Nat :=
  ([0, 1].filterMap (fun x => match (s.seatAt core x).pair with
    | some (n, false) => if (s.core n).stopping.isNone then some n else none
    | _ => none)).eraseDups

/-- R442, R469: a pre-emption of a core: where it runs shadows, their primaries are saved with it, each in its own frame. -/
def State.beginPreempt (s : State) (core : Nat) (fromCmd : Bool) (waiting : Option (Nat × Nat)) : Option State :=
  ((s.heads core).foldlM (fun (s : State) n => s.stopWith n false none) s).bind (fun s => s.stopWith core fromCmd waiting)

/-- R253: whether a member of a gang runs on a core: it is displaced by no placement, so its core is not pre-empted for one. -/
def State.gangOn (s : State) (core : Nat) : Bool := [0, 1].any (fun x => (s.seatAt core x).busy && s.isGang (s.seatAt core x).cont)

/-- R216, R464, R466: the running continuations that a waiting item could displace: core, seat, priority and age of placement. -/
def State.victims (s : State) (it : PoolItem) : List (Nat × Nat × Nat × Nat) :=
  let paired (n : Nat) : Bool := match it with
    | .record c => s.goesPaired c n
    | .frame f => f.conts.any s.isPaired && (s.partner n).isSome
  let admits (n x : Nat) : Bool := (match it with
    | .record c => c.admits n x
    | .frame f => levelAdmits f.level f.home n) &&
    (s.lcidOf n).isSome && !s.retired n && (!paired n || (s.partner n).isSome) && (paired n || !s.barredAlone n)
  s.seats.filterMap (fun e =>
    let n := e.1 / 2
    let x := e.1 % 2
    let t := e.2
    if t.busy && !t.shadow && !t.pers && !s.gangOn n && admits n x && decide (t.cont.prio < it.prio) then
      some (n, x, t.cont.prio, t.placed)
    else none)

/-- R216: the one with the lowest priority, among equals the one placed longest ago. -/
def chooseVictim : List (Nat × Nat × Nat × Nat) → Option (Nat × Nat × Nat × Nat)
  | [] => none
  | v :: r => match chooseVictim r with
    | some b => if v.2.2.1 < b.2.2.1 ∨ (v.2.2.1 = b.2.2.1 ∧ v.2.2.2 ≤ b.2.2.2) then some v else some b
    | none => some v

/-- R217: PLACELATE counts a miss. -/
def State.placeLate (s : State) (d : Nat) : State :=
  let at_ := dieBlock d + 0x00080008
  s.setCtlW at_ (s.ctlW 0 at_ + 1)

/-- R216, R236, R442: a waiting item asks for a core to be pre-empted. On a core that migrates the migration goes on by pre-emption and the
request is not performed; a core that is being saved makes room for the item if it makes room for none. -/
def State.makeRoom (s : State) (die entry n x : Nat) : State :=
  let stop (st : Stopping) : State := s.modCore n (fun c => { c with stopping := some st })
  match (s.core n).stopping with
  | some (.migrate b) => (stop (.fallback b)).placeLate die
  | some (.fallback _) => s.placeLate die
  | some (.preempt f cmd none) => stop (.preempt f cmd (some (entry, x)))
  | some (.preempt _ _ (some w)) => if w.1 = entry then s else s.placeLate die
  | none => match s.beginPreempt n false (some (entry, x)) with
    | some t => t
    | none => (s.placeLate die).poolEvent 9

/-- R216: PLACEMENT_BOUND. -/
def execPlacementBound (die entry : Nat) (s : State) : Host.Outcome State Fault Refusal :=
  dev "PLACEMENT_BOUND" (decide (die < 4)) (match s.poolEntry die entry with
    | none => none
    | some e =>
      if s.itemUnplaceable e.item then none else
      match chooseVictim (s.victims e.item) with
      | none => some (s.placeLate die)
      | some (n, x, _, _) => some (s.makeRoom die entry n x))

/-! Waits. -/

/-- R209: whether an event that can satisfy a wait has taken place; a wait on a line may be looked at again at any time
(R408). -/
def State.keyReady (s : State) : WaitKey → Bool
  | .timeline tl cert h => s.tlReached tl cert h
  | .leaf core o parity => (s.leaf core o).phase != parity
  | .root cl o parity => (s.root cl o).phase != parity
  | .line _ => true

/-- R209: a record leaves the wait table for the tail of its level. -/
def State.wake (s : State) (die entry : Nat) (c : Cont) : State :=
  (s.modDie die (fun d => { d with waits := adel entry d.waits })).poolAdd die (.record c)

/-- R209: WAIT_WAKE. -/
def execWaitWake (die entry : Nat) (s : State) : Host.Outcome State Fault Refusal :=
  dev "WAIT_WAKE" (decide (die < 4)) (match alook entry (s.die die).waits with
    | some w => if s.keyReady w.key && s.active then some (s.wake die entry w.cont) else none
    | none => none)

/-- R408, R409, R433: WAIT_TIMEOUT: a stalled WAITV raises, unless a cause that comes first is due; a parked one becomes runnable with its
deadline past. -/
def execWaitTimeout (w : WaitRef) (s : State) : Host.Outcome State Fault Refusal :=
  match w with
  | .stalled core seat => dev "WAIT_TIMEOUT" (coreThere core && decide (seat < 2)) (
      let t := s.seatAt core seat
      match t.run, t.stall with
      | .running, some { waitv := some f, .. } =>
        some ((s.boundaryCause core seat).getD (s.takeCause core seat { cause := 0x27, faddr := f, slot := 2, pblk := false, epc := t.pc }))
      | _, _ => none)
  | .parked die entry => dev "WAIT_TIMEOUT" (decide (die < 4)) (match alook entry (s.die die).waits with
      | some w => if w.timeout = 0 then none else some (s.wake die entry { w.cont with expired := true })
      | none => none)

/-! Boundary events. -/

/-- R435: TRAP_ENTRY. -/
def execTrapEntry (core seat : Nat) (s : State) : Host.Outcome State Fault Refusal :=
  dev "TRAP_ENTRY" (coreThere core && decide (seat < 2)) (
    if (s.seatAt core seat).shadow || (s.core core).tile != .on then none else s.boundaryCause core seat)

/-- R217: LIMIT of HANGWD. -/
def State.hangLimit (s : State) (d : Nat) : Nat := ((s.ctlW 100#32 (dieBlock d + 0x00080004)).extractLsb' 0 16).toNat

/-- R226, R448: WATCHDOG: the cause names the register the seat stalls on. -/
def execWatchdog (core seat : Nat) (s : State) : Host.Outcome State Fault Refusal :=
  dev "WATCHDOG" (coreThere core && decide (seat < 2)) (
    let t := s.seatAt core seat
    let f : Word := match t.stall with
      | some { reg := some r, .. } => r.zeroExtend 64
      | _ => 0
    if s.hangLimit (dieOf core) = 0 ∨ (s.core core).stopping.isSome = true ∨ t.shadow = true then none else
    match t.run with
    | .running => some (s.setSeat core seat { t with async := t.async ++ [(0x51#8, f)] })
    | .entering _ => some (s.setSeat core seat { t with async := t.async ++ [(0x51#8, f)] })
    | .leaving _ => some (s.setSeat core seat { t with async := t.async ++ [(0x51#8, f)] })
    | _ => none)

end Sys2Proof.Machine
end

