-- ==== Sys2Proof/Machine/Frame.lean ====
section
/-! DEFINITION. Pre-emption: the request, the save of a context into a frame, the save deadline, and the restoration of a frame
(R235, R236, R441 to R449). -/

namespace Sys2Proof.Machine

/-! The frame (R443 to R446). -/

/-- R443: the record of a vector register. -/
def VReg.record (v : VReg) (issued : Nat) : List Byte :=
  let c : Nat × Nat := match v.fill with
    | .faulted c f => (c.toNat, f.toNat)
    | _ => (0, 0)
  let b := natToBytes 1 v.rows ++ natToBytes 1 v.cols ++ natToBytes 2 v.runs.length ++ [v.fill.stateByte issued] ++ natToBytes 1 c.1 ++
    natToBytes 2 0 ++ natToBytes 8 c.2 ++ List.replicate 48 0 ++ v.runs.flatMap (fun r => natToBytes 4 r.1.toNat ++ natToBytes 4 r.2)
  b ++ List.replicate ((64 - b.length % 64) % 64) 0

/-- R443: the vector section of a seat. -/
def Seat.vectors (t : Seat) : List Byte := (List.range 32).flatMap (fun i => (aget vreg0 i t.file.regs.v).record t.issued)

/-- R445: the per-seat control registers as a seat reads them. -/
def State.crValues (s : State) (core x : Nat) : List Byte :=
  let s : State := { s with focus := { s.focus with core := core, seat := x } }
  (List.range 0x25).flatMap (fun i => natToBytes 8 (if i = 0x00B then 0 else (s.crRead (BitVec.ofNat 12 i)).toNat))

/-- R445: the parts of a seat section. -/
def State.seatSection (s : State) (core x : Nat) : List (Nat × List Byte) :=
  let t := s.seatAt core x
  [(0x000, (List.range 64).flatMap (fun i => natToBytes 8 (if i = 0 then 0 else (aget sreg0 i t.file.regs.s).val.toNat))),
   (0x200, t.sBytes ++ t.pBytes ++ natToBytes 8 0 ++ t.vBytes),
   (0x270, natToBytes 2 t.predWord.toNat),
   (0x278, natToBytes 1 ((if t.tm then 1 else 0) + (if t.live.isSome then 2 else 0))),
   (0x300, s.crValues core x),
   (0x500, t.live.getD (List.replicate 256 0)),
   (0x600, seqBytes t.seq)]

/-- R444: the window pages of the present seats: the first and their number. -/
def windowPages (ts : List Seat) : Nat × Nat :=
  let ws := (ts.map (fun t => windowOf t.file.ctl.spwin)).filter (fun w => w.size != 0)
  match ws with
  | [] => (0, 0)
  | w :: r =>
    let lo := r.foldl (fun m v => Nat.min m v.base) w.base
    let hi := r.foldl (fun m v => Nat.max m (v.base + v.size)) (w.base + w.size)
    (lo, hi - lo)

/-- R443: the bytes of a claimed slot: its header with the claimant seat, the state (0 FREE, 1 CLAIMED, 2 RELEASING) and the last writer's
ASID (assumption log entry 150), its rows and its tags. -/
def OpSlot.bytes (o : OpSlot) : List Byte :=
  let st : Nat × Nat := match o.state with
    | .free => (0, 0)
    | .claimed x => (x, 1)
    | .releasing => (0, 2)
  natToBytes 1 st.1 ++ natToBytes 1 st.2 ++ natToBytes 2 o.lastAsid.toNat ++ List.replicate 60 0 ++
  (List.range 64).flatMap (fun i => o.row i) ++ (List.range 192).flatMap (fun k => natToBytes 2 (aget 0 k o.tags).toNat) ++
  List.replicate 64 0

/-- R204: words 0 and 1 of the record of a seat, with its PC. -/
def Seat.creck (t : Seat) (core x : Nat) : List Byte :=
  natToBytes 8 (Cont.mark t.cont.w0 t.cont.susp t.pc).toNat ++
  natToBytes 8 (Cont.place t.cont.w1 core (t.file.ctl.role.extractLsb' 0 2).toNat x).toNat

/-- Writes parts at their offsets. -/
def State.putParts (s : State) (base : Nat) (ps : List (Nat × List Byte)) : State :=
  ps.foldl (fun (s : State) p => s.engineBytes (base + p.1) p.2) s

/-- R47, R453: the blocks of a range are written whole: without poison and with tag 0x0000. -/
def State.freshBlocks (s : State) (pa n : Nat) : State :=
  let s : State := { s with poison := s.poison.filter (fun e => !decide (pa / 64 ≤ e.1 ∧ e.1 < (pa + n) / 64)) }
  (List.range (n / 64)).foldl (fun (s : State) i => s.engineTag (pa + 64 * i) 0) s

/-- R442 to R446, R453: the context of a core is written into a frame; a poisoned block of the window is copied as one. -/
def State.writeFrame (s : State) (core f : Nat) : State :=
  let c := s.core core
  let t0 := s.seatAt core 0
  let t1 := s.seatAt core 1
  let present := (if t0.busy then [0] else []) ++ (if t1.busy then [1] else [])
  let v0 := if t0.busy then t0.vectors else []
  let v1 := if t1.busy then t1.vectors else []
  let claimed := (List.range 16).filter (fun n => match (c.slot n).state with
    | .claimed _ => true
    | _ => false)
  let win := windowPages (present.map (s.seatAt core))
  let offV1 := 0x1BC00 + v0.length
  let offSlot := offV1 + v1.length
  let offWin := offSlot + 12800 * claimed.length
  let used := offWin + 4096 * win.2
  let asid := if t0.busy then t0.file.ctl.asid else t1.file.ctl.asid
  let s : State := (s.engineBytes f (List.replicate used 0)).freshBlocks f used
  let s := s.putParts f
    [(0x001, natToBytes 1 ((if t0.busy then 1 else 0) + (if t1.busy then 2 else 0))), (0x002, natToBytes 2 asid.toNat),
     (0x004, natToBytes 2 core), (0x006, natToBytes 2 ((s.lcidOf core).getD 0)), (0x008, natToBytes 4 used),
     (0x00C, natToBytes 4 offV1), (0x010, natToBytes 4 offSlot), (0x014, natToBytes 4 offWin),
     (0x018, natToBytes 2 (claimed.foldl (fun m n => m + 2 ^ n) 0)), (0x01A, natToBytes 1 win.1), (0x01B, natToBytes 1 win.2),
     (0x01C, natToBytes 1 c.age.toNat), (0x01D, natToBytes 1 c.bank)]
  let s : State := present.foldl (fun (s : State) x =>
    let t := s.seatAt core x
    let s := s.putParts (f + 0x1000 + 0x1000 * x) (s.seatSection core x)
    s.putParts f [(0x020 + 16 * x, t.creck core x), (0x040 + 8 * x, natToBytes 8 t.cont.tag.toNat)]) s
  let s : State := c.acc.foldl (fun (s : State) e => s.engineBytes (f + 0x3000 + 4 * e.1) (natToBytes 4 e.2.toNat)) s
  let s : State := c.codeTable.foldl (fun (s : State) e => s.engineBytes (f + 0x13000 + 2 * e.1) (natToBytes 2 e.2.toNat)) s
  let s : State := (List.range 16).foldl (fun (s : State) o => s.engineBytes (leafAt f o) (aget Barrier.reset o c.leaf).bytes) s
  let s : State := c.patterns.foldl (fun (s : State) e => s.engineBytes (f + 0x13400 + 272 * e.1)
    ((e.2.header :: e.2.segs).flatMap (fun w => natToBytes 4 w.toNat))) s
  let s := s.putParts f [(0x1BC00, v0), (offV1, v1)]
  let s : State := ((List.range claimed.length).zip claimed).foldl (fun (s : State) e =>
    let at_ := f + offSlot + 12800 * e.1
    let o := c.slot e.2
    -- R453: a poisoned block of a slot stays poisoned in the frame
    o.poison.foldl (fun (s : State) p => if p.2 then { s with poison := aput (at_ / 64 + 1 + p.1) true s.poison } else s)
      (s.engineBytes at_ o.bytes)) s
  let s : State := (List.range (64 * win.2)).foldl (fun (s : State) i =>
    let k := 64 * win.1 + i
    let at_ := f + offWin + 64 * i
    let s := (s.engineBytes at_ ((List.range 64).map (fun j => aget 0 (64 * k + j) c.spad))).engineTag at_ (aget 0 k c.spadTags)
    if aget false k c.spadPoison then { s with poison := aput (at_ / 64) true s.poison } else s) s
  s.putMemN f 1 1

/-! Restoration (R447). -/

/-- R437: the fill that a state byte names; a producer still in flight is the one the frame's entry lists. -/
def fillOf (y : Byte) (cause : BitVec 8) (faddr : Word) (op : Option Nat) : Fill :=
  if y.getLsbD 6 then .faulted cause faddr
  else if y.getLsbD 7 then (match op with
    | some id => .pending id
    | none => .orphaned)
  else .full

/-- R443: the vector register at a place of a frame, and the length of its record. -/
def State.readVector (s : State) (a : Nat) : VReg × Nat :=
  let n := s.memN (a + 2) 2
  ({ rows := s.memN a 1, cols := s.memN (a + 1) 1,
     runs := (List.range n).map (fun j => (BitVec.ofNat 32 (s.memN (a + 64 + 8 * j) 4), s.memN (a + 68 + 8 * j) 2)),
     fill := fillOf (s.byteAt (a + 4)) (s.byteAt (a + 5)) (BitVec.ofNat 64 (s.memN (a + 8) 8)) none },
   (64 + 8 * n + 63) / 64 * 64)

/-- R443: the vector registers of a section. -/
def State.readVectors (s : State) : Nat → Nat → Nat → Assoc VReg
  | 0, _, _ => []
  | fuel + 1, a, i =>
    let v := s.readVector a
    (i, v.1) :: s.readVectors fuel (a + v.2) (i + 1)

/-- R445: the control registers of a seat section. -/
def State.readCtl (s : State) (a : Nat) : CtlRegs :=
  let d (cr : Nat) : Word := BitVec.ofNat 64 (s.memN (a + 0x300 + 8 * cr) 8)
  let w (cr : Nat) : W32 := (d cr).extractLsb' 0 32
  { shape := w 0, efr := w 1, rot := w 2, role := w 3, ctabsel := w 4, vflags := w 5, repthr := w 6, kvseq := w 7, stage := d 8,
    loopb := d 9, phaseEn := (w 0xA).getLsbD 0, spwin := w 0x12, asid := (w 0x13).extractLsb' 0 16, gcoord := d 0x14,
    trapvec := d 0x20, cause := w 0x21, faddr := d 0x22, snapbase := d 0x23, epc := d 0x24 }

/-- R445, R447: a seat as a frame holds it. -/
def State.readSeat (s : State) (f : FrameRef) (core x : Nat) : Seat :=
  let a := f.addr + 0x1000 + 0x1000 * x
  let t := aget Seat.reset x f.rest
  let op (r : Nat) : Option Nat := (f.waits.find? (fun w => w.1 == x && w.2.1 == r)).map (fun w => w.2.2)
  let sreg (i : Nat) : SReg :=
    { val := BitVec.ofNat 64 (s.memN (a + 8 * i) 8), fill := fillOf (s.byteAt (a + 0x200 + i)) 0 0 (op i) }
  let sr := (List.range 63).map (fun i => (i + 1, sreg (i + 1)))
  let pw := s.memN (a + 0x270) 2
  let preg (i : Nat) : PReg := { val := pw.testBit i, fill := fillOf (s.byteAt (a + 0x240 + i)) 0 0 none }
  let pr := (List.range 7).map (fun i => (i + 1, preg (i + 1)))
  let vat := if x = 0 then 0x1BC00 else s.memN (f.addr + 0xC) 4
  let flags := s.memN (a + 0x278) 1
  let w0 : Word := BitVec.ofNat 64 (s.memN (f.addr + 0x20 + 16 * x) 8)
  let w1 : Word := BitVec.ofNat 64 (s.memN (f.addr + 0x28 + 16 * x) 8)
  let pc := w0.extractLsb' 4 51
  { t with
    run := .running
    file := { regs := { s := sr, p := pr, v := s.readVectors 32 (f.addr + vat) 0 }, ctl := s.readCtl a }
    latch := none
    pc := pc
    npc := pc
    taken := false
    judged := false
    tm := flags.testBit 0
    live := if flags.testBit 1 then some (s.viewBytes (a + 0x500) 256) else none
    seq := seqOf (s.viewBytes (a + 0x600) 48)
    stall := none
    cont := { t.cont with w0 := w0, w1 := Cont.place w1 core ((w1.extractLsb' 34 2).toNat) x,
                          tag := BitVec.ofNat 64 (s.memN (f.addr + 0x40 + 8 * x) 8) }
    placed := s.fe.placements }

/-- R443, R453: the core's part of a frame. No loaded pattern has a header of 0 (R351), which is what an empty entry was saved as. -/
def State.readCore (s : State) (f : FrameRef) (c : Core) : Core :=
  let a := f.addr
  let n (o k : Nat) : Nat := s.memN (a + o) k
  let slots := (List.range 16).filter (fun i => (n 0x18 2).testBit i)
  let w0 := n 0x1A 1
  let wn := n 0x1B 1
  let offW := n 0x14 4
  let slot (k : Nat) : OpSlot :=
    let h := n 0x10 4 + 12800 * k
    let b := h + 64
    { state := if n (h + 1) 1 = 1 then .claimed (n h 1 % 2) else if n (h + 1) 1 = 2 then .releasing else .free
      lastAsid := BitVec.ofNat 16 (n (h + 2) 2)
      poison := ((List.range 192).filter (fun j => s.poisoned (a + b + 64 * j))).map (fun j => (j, true))
      data := ofList ((List.range 12288).map (fun j => (j, s.byteAt (a + b + j))))
      tags := ofList ((List.range 192).map (fun j => (j, BitVec.ofNat 16 (n (b + 12288 + 2 * j) 2)))) }
  let pattern (i : Nat) : Pattern :=
    let b := 0x13400 + 272 * i
    let h : W32 := BitVec.ofNat 32 (n b 4)
    { header := h, segs := (List.range (patSegs h)).map (fun j => BitVec.ofNat 32 (n (b + 4 + 4 * j) 4)) }
  { c with
    age := BitVec.ofNat 8 (n 0x1C 1)
    bank := n 0x1D 1
    acc := ofList ((List.range 16384).map (fun i => (i, BitVec.ofNat 32 (n (0x3000 + 4 * i) 4))))
    codeTable := ofList ((List.range 256).map (fun i => (i, BitVec.ofNat 16 (n (0x13000 + 2 * i) 2))))
    patterns := ofList (((List.range 128).map (fun i => (i, pattern i))).filter (fun e => e.2.header != 0))
    slots := ((List.range slots.length).zip slots).foldl (fun m e => aput e.2 (slot e.1) m) c.slots
    spad := (List.range (4096 * wn)).foldl (fun m i => aput (4096 * w0 + i) (s.byteAt (a + offW + i)) m) c.spad
    spadTags := (List.range (64 * wn)).foldl (fun m i => aput (64 * w0 + i) (s.tagAt (a + offW + 64 * i)) m) c.spadTags
    spadPoison := (List.range (64 * wn)).foldl (fun m i =>
      if s.poisoned (a + offW + 64 * i) then aput (64 * w0 + i) true m else adel (64 * w0 + i) m) c.spadPoison
    leaf := ofList ((List.range 16).map (fun o =>
      (o, Barrier.ofBytes (((aget Barrier.reset o f.leaf).link.map (·.1)).getD (clusterOf f.home)) (s.viewBytes (leafAt a o) 32))))
    held := f.held
    accPhase := f.accPhase
    accSaves := f.accSaves
    copyLog := f.copyLog }

/-- R233, R421: engine commands in flight of a context that resumes on another core belong to that core from then on: what they fill, and what
they ask for. -/
def State.rehome (s : State) (ids : List Nat) (core : Nat) : State :=
  let mine (id : Nat) : Bool := ids.contains id
  let ops := s.cores.flatMap (fun c => c.2.ops.filter (fun o => mine o.1))
  let lent := s.cores.flatMap (fun c => c.2.opLent.filter (fun o => mine o.1))
  let use_ : HostUse → HostUse := fun u => match u with
    | .coreOp c id => .coreOp (if mine id then core else c) id
    | u => u
  let req (r : HostReq) : HostReq := { r with use := use_ r.use }
  let s : State := { s with cores := s.cores.map (fun c => (c.1, { c.2 with
    ops := c.2.ops.filter (fun o => !mine o.1), opLent := c.2.opLent.filter (fun o => !mine o.1) })) }
  let s := s.modCore core (fun c => { c with
    ops := ops.foldl (fun m e => aput e.1 e.2 m) c.ops, opLent := lent.foldl (fun m e => aput e.1 e.2 m) c.opLent })
  { s with
    host := { s.host with reqs := s.host.reqs.map (fun e => (e.1, req e.2)), later := s.host.later.map (fun e => (e.1, (e.2.1, req e.2.2))) }
    resole := { s.resole with txs := s.resole.txs.map (fun e =>
      (e.1, { e.2 with committer := e.2.committer.map (fun q => if mine q.2 then (core, q.2) else q) })) } }

/-- R421, R447: a frame's context is restored on a core, with its engine commands, and the frame goes back. -/
def State.restoreFrame (s : State) (d core : Nat) (f : FrameRef) : State :=
  let s := s.rehome f.ops core
  let xs := [0, 1].filter (fun x => f.seats.testBit x)
  let s := s.modCore core (fun c => s.readCore f c)
  let s : State := xs.foldl (fun (s : State) x =>
    let t := s.readSeat f core x
    match (if s.isPaired t.cont then s.partner core else none) with
    | some p => (s.setSeat core x { t with pair := some (p, true) }).setSeat p x { t with pair := some (core, false) }
    | none => s.setSeat core x { t with pair := none }) s
  let s := s.modCore core (fun c => xs.foldl (fun c x => c.ownPages (s.seatAt core x).file.ctl.spwin f.asid) c)
  let s : State := { s with fe := { s.fe with placements := s.fe.placements + 1 } }
  s.returnFrame d f.addr 0

/-! The save (R235). -/

/-- R235 item 4, R421: an engine command whose register is saved empty. -/
def Op.isEngine : Op → Bool
  | .kv _ => true
  | .coll _ => true
  | .resole _ => true
  | _ => false

/-- R235 items 2 to 4, R451: whether a seat is ready to be saved or moved: at a bundle boundary with no trap due, its sequencer stopped, and its
registers full, but for the destinations of engine commands. -/
def State.seatStill (s : State) (core x : Nat) : Bool :=
  let t := s.seatAt core x
  let engine (id : Nat) : Bool := (s.core core).ops.any (fun e => e.1 == id && e.2.isEngine)
  let ok : Fill → Bool := fun f => match f with
    | .pending id => engine id
    | _ => true
  t.run == .idle || !t.shadow &&
  ((t.run == .running || t.run == .stopped) && t.seqStopped && !t.firm && t.hostWait.isNone && (t.run == .stopped || t.judged) && (s.boundaryCause core x).isNone &&
   t.file.regs.s.all (fun e => ok e.2.fill) && t.file.regs.p.all (fun e => ok e.2.fill) && t.file.regs.v.all (fun e => ok e.2.fill))

/-- R235 item 3: whether the copies, matrix operations and loads of the core have run to completion. -/
def State.coreDrained (s : State) (core : Nat) : Bool := (s.core core).ops.all (fun e => e.2.isEngine) && (s.core core).reissue.isEmpty

/-- The engine commands that a seat's registers wait for. -/
def Seat.waits (t : Seat) (x : Nat) : List (Nat × Nat × Nat) :=
  t.file.regs.s.filterMap (fun e => match e.2.fill with
    | .pending id => some (x, e.1, id)
    | _ => none)

/-- R447: the higher PRIO and the lower LEVEL of the records. -/
def frameOf (addr core : Nat) (c : Core) (ts : List (Nat × Seat)) : FrameRef :=
  let conts := ts.map (fun e => e.2.cont)
  { addr := addr
    asid := (ts.map (fun e => e.2.file.ctl.asid)).headD 0
    home := core
    prio := conts.foldl (fun m k => Nat.max m k.prio) 0
    level := conts.foldl (fun m k => Nat.min m k.level) 7
    pers := conts.any Cont.pers
    seats := ts.foldl (fun m e => m + 2 ^ e.1) 0
    conts := conts
    waits := ts.flatMap (fun e => e.2.waits e.1)
    leaf := c.leaf
    ops := (c.ops.filter (fun e => e.2.isEngine && ts.any (fun t => t.1 == e.2.seat))).map (·.1)
    rest := ts
    held := c.held
    accPhase := c.accPhase
    accSaves := c.accSaves
    copyLog := c.copyLog }

/-- R107, R235: the core gives up a context that has been saved or moved. -/
def Core.vacate (c : Core) (ts : List Seat) : Core :=
  let c := ts.foldl (fun c t => c.ownPages t.file.ctl.spwin t.file.ctl.asid) c
  { c with slots := c.slots.map (fun e => (e.1, match e.2.state with
             | .claimed _ => { e.2 with state := .free }
             | _ => e.2))
           leaf := [], held := [], accPhase := [], accSaves := [], copyLog := [], stopping := none }

/-- R216: the waiting item takes the freed seat. -/
def State.placeWaiting (s : State) (core : Nat) : Option (Nat × Nat) → State
  | none => s
  | some (entry, x) =>
    match (List.range 4).findSome? (fun d => (s.poolEntry d entry).map (fun e => (d, e))) with
    | some (d, e) => (match e.item with
        | .record c => if s.mayPlace c core x then (s.dropItem d e.id).placeSeat core x c else s
        | .frame f => if s.mayRestore f core then (s.dropItem d e.id).restoreFrame d core f else s)
    | none => s

/-- R441: PRESTAT after a request from PRECMD. -/
def State.preEnd (s : State) (d : Nat) (outcome : BitVec 2) : State :=
  s.modDie d (fun x => { x with preBusy := false, preOutcome := outcome, preDone := x.preDone + 1 })

/-- R235, R447, R469: a context that is still is saved, and enters its die's pool as a frame entry. Where it has ended meanwhile, or was a
shadow's that has gone with its primary, the frame goes back unused (assumption log entry 149). -/
def State.saveContext (s : State) (core f : Nat) (fromCmd : Bool) (waiting : Option (Nat × Nat)) : State :=
  let s := (s.dropHeld core 0).dropHeld core 1
  let s : State := [0, 1].foldl (fun (s : State) x => s.modSeat core x (fun t => t.flushEfr.settle)) s
  let ts := ([0, 1].filter (fun x => (s.seatAt core x).busy)).map (fun x => (x, s.seatAt core x))
  if ts.isEmpty then
    let s : State := (s.modCore core (fun c => { c with stopping := none })).returnFrame (dieOf core) f 0
    (if fromCmd then s.preEnd (dieOf core) 0 else s).placeWaiting core waiting
  else
  let fr := frameOf f core (s.core core) ts
  let s := s.writeFrame core f
  let s := s.modCore core (fun c => c.vacate (ts.map (fun e => e.2)))
  let s : State := ts.foldl (fun (s : State) e =>
    let s := s.setSeat core e.1 Seat.reset
    match e.2.pair with
    | some (p, true) => s.setSeat p e.1 Seat.reset
    | _ => s) s
  let s := s.poolAdd (dieOf core) (.frame fr)
  let s := if fromCmd then s.preEnd (dieOf core) 0 else s
  s.placeWaiting core waiting

/-- R235: PREEMPT_SAVE_COMPLETE. -/
def execPreemptSaveComplete (core : Nat) (s : State) : Host.Outcome State Fault Refusal :=
  dev "PREEMPT_SAVE_COMPLETE" (coreThere core) (match (s.core core).stopping with
    | some (.preempt f cmd w) =>
      if s.seatStill core 0 && s.seatStill core 1 && s.coreDrained core then some (s.saveContext core f cmd w) else none
    | _ => none)

/-! The request (R441, R442). -/

/-- R236, R441: PRECMD of a die for a logical core; on a core that migrates it is not performed, and the migration goes on by pre-emption. -/
def State.preCmd (s : State) (d lcid : Nat) : State :=
  if (s.die d).preBusy then s else
  let e := s.lcidEntry lcid
  let n := lcidPhys e
  if 400 ≤ lcid ∨ lcidValid e = false ∨ dieOf n ≠ d ∨ ((s.seatAt n 0).busy = false ∧ (s.seatAt n 1).busy = false) then s.preEnd d 1
  else match (s.core n).stopping with
    | some (.preempt f false w) =>
      (s.modCore n (fun c => { c with stopping := some (.preempt f true w) })).modDie d (fun x => { x with preBusy := true })
    | some (.preempt _ true _) => s
    | some (.migrate b) => (s.modCore n (fun c => { c with stopping := some (.fallback b) })).preEnd d 2
    | some (.fallback _) => s.preEnd d 2
    | none => match s.beginPreempt n true none with
      | some t => t.modDie d (fun x => { x with preBusy := true })
      | none => (s.preEnd d 2).poolEvent 9

/-- R441: PREEMPT_REQUEST, made at the die of the core that the logical core names. -/
def execPreemptRequest (lcid : Nat) (s : State) : Host.Outcome State Fault Refusal :=
  dev "PREEMPT_REQUEST" (decide (lcid < 512)) (some (s.preCmd (dieOf (lcidPhys (s.lcidEntry lcid)) % 4) lcid))

/-! The deadline (R449). -/

/-- R439, R449: the contexts of a core end with SAVE_DEADLINE, and their ASID is killed. -/
def State.saveLate (s : State) (core : Nat) : State :=
  let ts := ([0, 1].filter (fun x => (s.seatAt core x).busy)).map (fun x => s.seatAt core x)
  let s : State := ts.foldl (fun (s : State) t => s.entryFault t.cont.tag 0x55) s
  match ts with
  | [] => s.dropSave core
  | t :: _ => s.startKill t.file.ctl.asid none

/-- R449: SAVE_DEADLINE of a save, or of a migration that goes on by pre-emption. -/
def execSaveDeadline (core : Nat) (s : State) : Host.Outcome State Fault Refusal :=
  dev "SAVE_DEADLINE" (coreThere core) (match (s.core core).stopping with
    | some (.preempt _ _ _) => some (s.saveLate core)
    | some (.fallback _) =>
      let s := (s.modCore core (fun c => { c with stopping := none })).saveLate core
      some (({ s with fe := { s.fe with migBusy := none, migOutcome := 3, migDone := s.fe.migDone + 1 } }).raiseFw 6)
    | _ => none)

/-- R447: FRAME_RESTORE. -/
def execFrameRestore (die entry core : Nat) (s : State) : Host.Outcome State Fault Refusal :=
  dev "FRAME_RESTORE" (decide (die < 4) && coreThere core) (match bestItem (s.candidates core 0) with
    | some (d, e) =>
      if d = die ∧ e.id = entry then (match e.item with
        | .frame f => some ((s.dropItem d e.id).restoreFrame d core f)
        | .record _ => none)
      else none
    | none => none)

end Sys2Proof.Machine
end

