-- ==== Sys2Proof/Machine/Migrate.lean ====
section
/-! DEFINITION. Migration: the request with its rejections, the stop at safe points, the transfer of a core's state and of its
operations in flight, and the fallback (R229 to R234). -/

namespace Sys2Proof.Machine

/-- R229: a write of an LCID map entry; one that would give a core two LCIDs leaves the entry unchanged. -/
def State.setLcid (s : State) (lcid : Nat) (v : W32) : State :=
  let v := v &&& 0x800001FF#32
  let twice : Bool := lcidValid v && (match s.lcidOf (lcidPhys v) with
    | some i => i != lcid
    | none => false)
  if twice then s else { s with fe := { s.fe with lcid := aput lcid v s.fe.lcid } }

/-- R229: LCID_MAP_WRITE, by the policy core. -/
def execLcidMapWrite (lcid : Nat) (v : BitVec 32) (s : State) : Host.Outcome State Fault Refusal :=
  dev "LCID_MAP_WRITE" (decide (lcid < 400)) (some (s.setLcid lcid v))

/-- R231: a request has ended. -/
def State.migEnd (s : State) (outcome : BitVec 2) : State :=
  ({ s with fe := { s.fe with migOutcome := outcome, migDone := s.fe.migDone + 1 } }).raiseFw 6

/-- R229, R469: whether the core that would take the shadows of a source core is no spare: it has an LCID, or it runs something else. -/
def State.shadowBarred (s : State) (n target : Nat) : Bool :=
  match s.partner target with
  | some q => (s.lcidOf q).isSome || [0, 1].any (fun x => (s.seatAt q x).busy && (s.seatAt q x).pair != some (n, false))
  | none => false

/-- R231, R469: whether a request is rejected. A core that runs a shadow moves with its primary's alone (assumption log entry 148). -/
def State.migRejects (s : State) (lcid target : Nat) : Bool :=
  let e := s.lcidEntry lcid
  let n := lcidPhys e
  let c := s.core target
  let paired := [0, 1].any (fun x => (s.seatAt n x).pair.isSome)
  s.fe.migBusy.isSome || decide (400 ≤ lcid) || !lcidValid e || decide (400 ≤ target) || (s.lcidOf target).isSome ||
  dieOf n != dieOf target || !s.visible target || s.retired target || (c.tile == .off && c.tripped) || (s.quarantined target && !paired) ||
  [0, 1].any (fun x => (s.seatAt n x).shadow) || (paired && s.shadowBarred n target)

/-- R236, R441: how a core stops for a migration: at safe points, or by pre-emption where one is in progress, which the migration takes
over. -/
def State.stopFor (s : State) (core target : Nat) : State :=
  let go (s : State) (st : Stopping) : State := s.modCore core (fun c => { c with stopping := some st, leftWins := [] })
  match (s.core core).stopping with
  | some (.preempt f cmd _) =>
    let s := ((go s (.fallback target)).putMemN f 1 2).returnFrame (dieOf core) f 0
    if cmd then s.preEnd (dieOf core) 2 else s
  | _ => go s (.migrate target)

/-- R231, R232, R234: MIGCMD GO: the source starts to stop and the target to wake. -/
def State.migrate (s : State) (lcid target : Nat) : State :=
  if s.migRejects lcid target then s.migEnd 2 else
  let n := lcidPhys (s.lcidEntry lcid)
  let paired := [0, 1].any (fun x => (s.seatAt n x).pair.isSome)
  let s := (s.stopFor n target).wakeTile target
  let s : State := match (if paired then s.partner target else none) with
    | some q => s.wakeTile q
    | none => s
  { s with fe := { s.fe with migBusy := some (lcid, target) } }

/-- R231: MIGRATION_REQUEST. -/
def execMigrationRequest (lcid target : Nat) (s : State) : Host.Outcome State Fault Refusal :=
  dev "MIGRATION_REQUEST" (decide (lcid < 512 ∧ target < 512)) (some (s.migrate lcid target))

/-! The transfer (R232, R233). -/

/-- R232: the window pages of the seats, and those that bound continuations have left at their suspension points, as another core's
scratchpad takes them. -/
def moveWindow (src dst : Core) (ts : List Seat) : Core :=
  let ws := (ts.map (fun t => t.file.ctl.spwin) ++ src.leftWins).map windowOf
  let page (p : Nat) : Bool := ws.any (fun w => decide (w.base ≤ p ∧ p < w.base + w.size))
  let copy {α : Type} (per : Nat) (a b : Assoc α) : Assoc α :=
    (a.filter (fun e => page (e.1 / per))).foldl (fun m e => aput e.1 e.2 m) (b.filter (fun e => !page (e.1 / per)))
  { dst with spad := copy 4096 src.spad dst.spad, spadTags := copy 64 src.spadTags dst.spadTags,
             spadPoison := copy 64 src.spadPoison dst.spadPoison }

/-- R107, R232: the slots that move: those that are not free, the RELEASING ones with the copies that name them. -/
def Core.heldSlots (c : Core) : Assoc OpSlot := c.slots.filter (fun e => e.2.state != .free)

/-- R232, R233: what the target core holds after the transfer: the source's accumulators, slots in use, tables, leaf objects and windows,
and its operations in flight, whose bytes land on the target from now on. -/
def moveCore (src dst : Core) (ts : List Seat) : Core :=
  { moveWindow src dst ts with
    age := src.age
    codeTable := src.codeTable
    patterns := src.patterns
    bank := src.bank
    acc := src.acc
    slots := src.heldSlots.foldl (fun m e => aput e.1 e.2 m) dst.slots
    leaf := src.leaf
    ops := src.ops
    opLent := src.opLent
    held := src.held
    accPhase := src.accPhase
    accSaves := src.accSaves
    copyLog := src.copyLog
    reissue := src.reissue }

/-- R233: what serves the source core serves the target. -/
def HostUse.move (a b : Nat) : HostUse → HostUse
  | .seatRead c x pa => .seatRead (if c = a then b else c) x pa
  | .seatWrite c x v => .seatWrite (if c = a then b else c) x v
  | .coreOp c id => .coreOp (if c = a then b else c) id
  | .resole c x => .resole (if c = a then b else c) x
  | u => u

/-- R208: a wait on a leaf object of the source is one on the moved object. -/
def WaitKey.move (a b : Nat) : WaitKey → WaitKey
  | .leaf c o p => .leaf (if c = a then b else c) o p
  | k => k

/-- R233: the references to the source core in the rest of the device. -/
def State.moveRefs (s : State) (a b : Nat) : State :=
  let die (d : Die) : Die :=
    { d with waits := d.waits.map (fun e => (e.1, { e.2 with key := e.2.key.move a b }))
             bte := d.bte.map (fun e => (e.1, { e.2 with seat := e.2.seat.map (fun p => (if p.1 = a then b else p.1, p.2)) })) }
  { s with
    dies := s.dies.map (fun e => (e.1, die e.2))
    host := { s.host with reqs := s.host.reqs.map (fun e => (e.1, { e.2 with use := e.2.use.move a b })),
                          later := s.host.later.map (fun e => (e.1, (e.2.1, { e.2.2 with use := e.2.2.use.move a b }))) }
    resole := { s.resole with txs := s.resole.txs.map (fun e =>
      (e.1, { e.2 with committer := e.2.committer.map (fun p => (if p.1 = a then b else p.1, p.2)) })) } }

/-- R232, R467: one seat resumes on the target at its stopping bundle, a pair with its shadow on the target's partner. -/
def State.moveSeat (s : State) (a b x : Nat) : State :=
  let t := (s.seatAt a x).flushEfr.settle
  let t := { t with run := .running, judged := false }
  let s := s.setSeat a x Seat.reset
  match t.pair with
  | some (p, true) =>
    let sh := s.seatAt p x
    let s := s.setSeat p x Seat.reset
    (match s.partner b with
      | some q => (s.setSeat b x { t with pair := some (q, true) }).setSeat q x { sh with pair := some (b, false) }
      | none => s.setSeat b x { t with pair := none })
  | _ => s.setSeat b x t

/-- R229, R232: the state moves, the LCID map entry changes in one write, and the source becomes a spare. -/
def State.transfer (s : State) (a b lcid : Nat) (outcome : BitVec 2) : State :=
  let xs := [0, 1].filter (fun x => (s.seatAt a x).busy)
  let ts := xs.map (fun x => s.seatAt a x)
  let src := s.core a
  let s := s.modCore b (fun c => ts.foldl (fun c t => c.ownPages t.file.ctl.spwin t.file.ctl.asid) (moveCore src c ts))
  let s := s.modCore a (fun c => { c.vacate ts with
    ops := [], opLent := [], paramLeft := 0, paramNext := 0, leftWins := []
    slots := c.slots.map (fun e => (e.1, { e.2 with state := .free })) })
  let s : State := xs.foldl (fun (s : State) x => s.moveSeat a b x) s
  let s := s.moveRefs a b
  let s : State := { s with fe := { s.fe with lcid := aput lcid (BitVec.ofNat 32 (0x80000000 + b)) s.fe.lcid, migBusy := none } }
  s.migEnd outcome

/-- R232 item 2: whether the matrix operations and the other work that is not carried along has completed. -/
def State.matrixDone (s : State) (core : Nat) : Bool :=
  (s.core core).ops.all (fun e => e.2.isEngine || (match e.2 with
    | .copy _ => true
    | _ => false))

/-- R232: whether a seat has stopped at a safe point. The sequencer is no part of what is transferred there: it issues its last step first
(log entry 130). -/
def State.atSafePoint (s : State) (core x : Nat) : Bool :=
  let t := s.seatAt core x
  t.run == .idle || (t.run == .stopped && t.seq.isNone && s.seatStill core x)

/-- R234, R469: whether a target's tile is on, and for a pair that of the target's partner. -/
def State.targetOn (s : State) (core b : Nat) : Bool :=
  (s.core b).tile == .on && (!([0, 1].any (fun x => (s.seatAt core x).pair.isSome)) || (match s.partner b with
    | some q => (s.core q).tile == .on
    | none => true))

/-- R232, R234: MIGRATION_STOP: both seats have stopped, the target is on, and the state is transferred. -/
def execMigrationStop (core : Nat) (s : State) : Host.Outcome State Fault Refusal :=
  dev "MIGRATION_STOP" (coreThere core) (match s.fe.migBusy, (s.core core).stopping with
    | some (lcid, _), some (.migrate b) =>
      if s.targetOn core b && s.atSafePoint core 0 && s.atSafePoint core 1 && s.matrixDone core then some (s.transfer core b lcid 0)
      else none
    | some (lcid, _), some (.fallback b) =>
      if s.targetOn core b && s.seatStill core 0 && s.seatStill core 1 && s.coreDrained core then
        some (((s.dropHeld core 0).dropHeld core 1).transfer core b lcid 1)
      else none
    | _, _ => none)

/-- R234: MIGRATION_FALLBACK. -/
def execMigrationFallback (core : Nat) (s : State) : Host.Outcome State Fault Refusal :=
  dev "MIGRATION_FALLBACK" (coreThere core) (match (s.core core).stopping with
    | some (.migrate b) =>
      if s.atSafePoint core 0 && s.atSafePoint core 1 then none
      else some (s.modCore core (fun c => { c with stopping := some (.fallback b) }))
    | _ => none)

end Sys2Proof.Machine
end

