-- ==== Sys2Proof/Machine/Queue.lean ====
section
/-! DEFINITION. Queue slots: kicks, slot commands, the fetch of the head packet and its checks, queue errors and fetch faults
(R238 to R252, R254, R509 to R511). -/

namespace Sys2Proof.Machine

/-- R242: a change of a slot's state; the QCB's STATE follows it. A packet that has not been dispatched is abandoned (R244), but for a
SIGNAL whose CAS is on its way. -/
def HwSlot.enter (h : HwSlot) (n : Nat) : HwSlot :=
  let h := h.setField 0x20 1 n
  if h.casOut then { h with state := n } else
  { h with state := n, head := none, block := 0, gangRaised := false, hostOut := none, hostData := [] }

/-- R241: the pending bit of a queue. -/
def State.kpendBit (s : State) (q : Nat) : Bool := (aget 0 (q / 32) s.fe.kpend).getLsbD (q % 32)
def State.setKpend (s : State) (q : Nat) (v : Bool) : State :=
  let m : W32 := BitVec.ofNat 32 (2 ^ (q % 32))
  let w := aget 0 (q / 32) s.fe.kpend
  { s with fe := { s.fe with kpend := aput (q / 32) (if v then w ||| m else w &&& ~~~m) s.fe.kpend } }

/-- R250: a queue error: the slot enters ERROR, and the timeline records the cause and the TAG. -/
def State.queueError (s : State) (k errptr : Nat) (cause : BitVec 8) (reason : Nat) (tag : BitVec 8) : State :=
  let h := (((s.slotAt k).setField 0x21 1 cause.toNat).setField 0x22 1 reason).setField 0x24 4 errptr
  ((s.setSlot k (h.enter 4)).raiseFw 1).recordFault h.qnum cause tag

/-- R251: a fetch fault: the slot enters FETCHFAULT. -/
def State.fetchFault (s : State) (k : Nat) (c : Cause) : State :=
  let h := ((s.slotAt k).setField 0x21 1 c.1.toNat).setField 0x28 8 c.2.toNat
  (s.setSlot k (h.enter 5)).raiseFw 2

/-- R240: an ACTIVE slot whose WPTR lies further ahead than the ring is long stops. -/
def State.overrun (s : State) (k : Nat) : State :=
  let h := s.slotAt k
  if h.state = 1 ∧ h.units < (h.wptr + 2 ^ 32 - h.rptr) % 2 ^ 32 then s.queueError k h.rptr 0x3E 0x10 0 else s

/-- R240, R241: a kick. -/
def State.kick (s : State) (q : Nat) (w : W32) : State :=
  let s : State := { s with fe := { s.fe with kick := aput q w s.fe.kick } }
  let pend : State := if s.kpendBit q then s else (s.setKpend q true).raiseFw 0
  match s.slotOf q with
  | none => pend
  | some k =>
    let h := s.slotAt k
    if h.state = 1 then (s.setSlot k { h.setField 0x1C 4 w.toNat with block := if h.block ≤ 2 then 0 else h.block }).overrun k else pend

/-- R240: KICK. -/
def execKick (q : Nat) (w : BitVec 32) (s : State) : Host.Outcome State Fault Refusal :=
  dev "KICK" (decide (q < 1024)) (some (s.kick q w))

/-! Slot commands (R243). -/

/-- R243: the defects for which MAP refuses a window. -/
def State.mapBad (s : State) (h : HwSlot) : Bool :=
  !decide (12 ≤ h.log2sz ∧ h.log2sz ≤ 24) || h.rbase % 2 ^ h.log2sz != 0 || decide (2 ^ 55 ≤ h.rbase) || h.asid == 0 ||
  decide (5 < h.scope) || decide (4 ≤ h.qflags) || decide (1023 < h.qnum) || (s.slotOf h.qnum).isSome

/-- R243: a command that the slot's state does not list. -/
def State.cmdErr (s : State) (k : Nat) : State := s.setSlot k { s.slotAt k with cmdErr := true }

/-- R243, R330: MAP. -/
def State.mapSlot (s : State) (k : Nat) : State :=
  let h := s.slotAt k
  if h.state ≠ 0 then s.cmdErr k
  else if s.mapBad h then s.setSlot k { h with mapErr := true }
  else
    let h := ({ h with casOut := false }.setField 0x1C 4 (aget 0 h.qnum s.fe.kick).toNat).enter 1
    let s := (s.setSlot k { h with mirrorRptr := some h.rptr }).setKpend h.qnum false
    let s : State := { s with fe := { s.fe with owner := aput h.qnum (h.asid, h.scope) s.fe.owner } }
    s.overrun k

/-- R243, R244: PARK; a packet that has not been dispatched is abandoned. -/
def State.parkSlot (s : State) (k : Nat) : State :=
  let h := s.slotAt k
  if h.state = 1 then s.setSlot k (h.enter 2) else s.cmdErr k

/-- R243: RESUME. -/
def State.resumeSlot (s : State) (k : Nat) : State :=
  let h := s.slotAt k
  if h.state = 4 ∨ h.state = 5 then (s.setSlot k (((h.setField 0x21 1 0).setField 0x22 1 0).enter 1)).overrun k
  else if h.state = 3 then (s.setSlot k ((h.setField 0x1C 4 (aget 0 h.qnum s.fe.kick).toNat).enter 1)).overrun k
  else s.cmdErr k

/-- R243: UNMAP: the window keeps its contents. -/
def State.unmapSlot (s : State) (k : Nat) : State :=
  let h := s.slotAt k
  if h.state = 3 ∨ h.state = 4 ∨ h.state = 5 then s.setSlot k { h.enter 0 with qcb := h.qcb } else s.cmdErr k

def execMap (slot : Nat) (s : State) : Host.Outcome State Fault Refusal := dev "MAP" (decide (slot < 32)) (some (s.mapSlot slot))
def execPark (slot : Nat) (s : State) : Host.Outcome State Fault Refusal := dev "PARK" (decide (slot < 32)) (some (s.parkSlot slot))
def execResume (slot : Nat) (s : State) : Host.Outcome State Fault Refusal :=
  dev "RESUME" (decide (slot < 32)) (some (s.resumeSlot slot))
def execUnmap (slot : Nat) (s : State) : Host.Outcome State Fault Refusal := dev "UNMAP" (decide (slot < 32)) (some (s.unmapSlot slot))

/-- R243, R260: PARK_COMPLETE: the slot reaches PARKED, and the mirror's RPTR is written. -/
def execParkComplete (slot : Nat) (s : State) : Host.Outcome State Fault Refusal :=
  dev "PARK_COMPLETE" (decide (slot < 32)) (
    let h := s.slotAt slot
    if h.state = 2 ∧ h.casOut = false then some ((s.setSlot slot (h.enter 3)).mirrorRptr slot true) else none)

/-! The front end's reads under a queue's ASID. -/

/-- What a read comes to: a fault, a wait for the host, or bytes. -/
inductive Got where
  | fault (c : Cause)
  | waits (s : State)
  | got (s : State) (b : List Byte)
  deriving DecidableEq, Repr

/-- The pieces of n bytes, cut at 64-byte boundaries; fuel is their number at most. -/
def cut64 : Nat → Word → Nat → List (Word × Nat)
  | 0, _, _ => []
  | fuel + 1, v, n =>
    if n = 0 then [] else
    let k := hostChunk v.toNat n
    (v, k) :: cut64 fuel (v + BitVec.ofNat 64 k) (n - k)

/-- R495: reads pieces for an engine; those in the host window come in requests of their own, of which one is outstanding at a
time and whose bytes are kept by address. -/
def State.engineReads (s : State) (eng : Nat) (asid : BitVec 16) (use : HostUse) (out : Option Nat) (data : List (Nat × List Byte))
    (ask : State → Nat → State) : List (Word × Nat) → Got
  | [] => .got s []
  | (v, n) :: r =>
    match s.engineAt eng asid false v false with
    | .error c => .fault c
    | .ok p =>
      let pa := p.pa
      let next (t : State) (b : List Byte) : Got := match t.engineReads eng asid use out data ask r with
        | .got u bs => .got u (b ++ bs)
        | g => g
      if s.pinBusy pa then .waits s
      else if region pa = .host then
        match data.find? (fun e => e.1 == pa) with
        | some e => if e.2.length < n then .fault (0x28, transFaddr 0 (.engine false) v.toNat) else next (s.markAt p false) (e.2.take n)
        | none =>
          if out.isSome then .waits s else
          let q : HostReq := { asid := asid, use := use, addr := pa, size := n, write := false, data := [] }
          .waits (ask (s.hostRequest q) s.host.nextReq)
      else if s.poisoned pa then .fault (0x52, transFaddr 0 (.engine false) v.toNat)
      else next (s.markAt p false) (s.engineRead p n)

/-- R238, R251: the front end's reads for a slot. -/
def State.feRead (s : State) (k : Nat) (l : List (Word × Nat)) : Got :=
  let h := s.slotAt k
  s.engineReads engFront h.asid (.fetch k) h.hostOut h.hostData (fun t id => t.setSlot k { h with hostOut := some id }) l

/-- R238: the virtual address of a ring unit. -/
def HwSlot.unitVa (h : HwSlot) (i : Nat) : Word := BitVec.ofNat 64 (h.rbase + 32 * (i % h.units))
def HwSlot.unitsVa (h : HwSlot) (n : Nat) : List (Word × Nat) := (List.range n).map (fun i => (h.unitVa (h.rptr + i), 32))

/-! The checks of a packet (R249). -/

/-- A field of a packet or another record of n bytes at an offset. -/
def pf (b : List Byte) (off n : Nat) : Nat := bytesToNat ((b.drop off).take n)
def pktOp (b : List Byte) : Nat := pf b 0 1
def pktLen (b : List Byte) : Nat := pf b 1 1
def pktFlags (b : List Byte) : Nat := pf b 2 1
def pktTag (b : List Byte) : BitVec 8 := BitVec.ofNat 8 (pf b 3 1)

/-- R247: the lengths of an opcode. -/
def packetLen (op : Nat) : Option (Nat × Nat) :=
  match op with
  | 0 => some (1, 255)
  | 1 => some (3, 3)
  | 2 => some (4, 4)
  | 5 => some (2, 2)
  | 9 => some (1, 8)
  | n => if n = 3 ∨ n = 4 ∨ n = 6 ∨ n = 7 ∨ n = 8 then some (1, 1) else none

/-- Whether the bytes of ranges (offset, size) are zero. -/
def zeroAt (b : List Byte) (rs : List (Nat × Nat)) : Bool := rs.all (fun r => pf b r.1 r.2 == 0)

/-- R249 item 4: the reserved body fields are zero. The body of a NOP has no fields. -/
def reservedOk (b : List Byte) : Bool :=
  let launch := pf b 0x40 4 / 1024 == 0 && pf b 0x46 2 / 512 == 0 && pf b 0x48 4 / 2 == 0
  match pktOp b with
  | 1 => zeroAt b [(0x4C, 4), (0x58, 8)] && launch
  | 2 => zeroAt b [(4, 4), (0x4C, 4), (0x5A, 6)] && launch
  | 3 => zeroAt b [(4, 4), (0x10, 16)]
  | 4 => zeroAt b [(6, 2), (0x14, 12)] && pf b 4 2 / 4096 % 8 == 0
  | 5 => zeroAt b [(0x28, 24)] && pf b 4 4 / 2 == 0
  | 6 => zeroAt b [(6, 26)]
  | 7 => zeroAt b [(5, 27)]
  | 8 => zeroAt b [(4, 4), (0x10, 16)]
  | 9 => pf b 5 1 == 0 && pf b 6 2 / 128 % 256 == 0 && (match pf b 4 1 with
    | 0 => zeroAt b [(0x1D, 3), (0x39, 7), (0x50, 48)]
    | 1 => zeroAt b [(8, 24)]
    | 2 => zeroAt b [(0x20, 32)]
    | 3 => zeroAt b [(9, 23)]
    | _ => true)
  | _ => true

/-- R253: the visible clusters of a partition, and how many visible cores they have. -/
def State.partMask (s : State) (p : Nat) : Nat := s.ctlD (0x00400000 + 8 * p) % 2 ^ 40
def State.partCores (s : State) (p : Nat) : List Nat :=
  (List.range 400).filter (fun n => (s.partMask p).testBit (clusterOf n) && s.visible n)

/-- R252, R253: the body checks of a LAUNCH or a GANG; a reason of R249, or 0. -/
def State.launchReason (s : State) (gang : Bool) (b : List Byte) : Nat :=
  let nx := pf b 4 2
  let ny := pf b 6 2
  let pc := pf b 8 8
  let level := pf b 0x40 1 % 8
  let base := pf b 0x45 1
  let size := pf b 0x44 1
  let lcidb := pf b 0x46 2
  let parts := pf b 0x58 2
  if !gang && (nx == 0 || ny == 0) then 5
  else if 2 ^ 55 ≤ pc ∨ pc % 16 ≠ 0 then 4
  else if 4 < level then 3
  else if (pf b 0x40 1).testBit 6 ∧ level ≠ 1 then 8
  else if pf b 0x40 4 / 256 % 4 = 3 then 9
  else if 192 < base + size ∨ (pf b 0x48 1 % 2 = 1 ∧ size % 2 = 1) then 6
  else if (if !gang && decide (level ≤ 1) then decide (s.ncore < lcidb + nx * ny) else decide (s.ncore ≤ lcidb)) then 7
  else if !gang then 0
  else if parts = 0 ∨ (List.range 16).any (fun p => parts.testBit p && s.partMask p == 0) = true then 0xA
  else if (List.range 16).any (fun p =>
      let n := pf b (0x60 + 2 * p) 2
      if parts.testBit p then n == 0 || decide (2 * (s.partCores p).length < n) else n != 0) then 0xB
  else 0

/-- R509: the number of a stream: receive 0 to 127, transmit 128 to 159. -/
def streamKey (b : List Byte) : Nat := pf b 6 1 % 128 + (if pf b 6 2 / 32768 = 1 then 128 else 0)

def State.stream (s : State) (k : Nat) : Stream := aget Stream.reset k s.streams
def State.setStream (s : State) (k : Nat) (x : Stream) : State := { s with streams := aput k x s.streams }

/-- R510: the limits of an OPEN's descriptor. -/
def openOk (b : List Byte) : Bool :=
  let n := pf b
  let video := n 0x0A 1 == 8 || n 0x0A 1 == 10 || n 0x0A 1 == 12
  let portB := n 0x1C 1
  let kind := match n 8 1 with
    | 0 => decide (n 9 1 ≤ 2) && video && (n 0x0B 1 == 0 || n 0x0B 1 == 2 || (n 0x0B 1 == 1 && n 0x0A 1 == 8)) &&
        decide (1 ≤ n 0x0C 2 ∧ n 0x0C 2 ≤ 3840) && (n 9 1 != 0 || n 0x0C 2 % 2 == 0) && decide (1 ≤ n 0x0E 2 ∧ n 0x0E 2 ≤ 2160) &&
        decide (1 ≤ n 0x18 2 ∧ n 0x18 2 ≤ n 0x0E 2)
    | 1 => (n 0x0A 1 == 16 || n 0x0A 1 == 24) && decide (1 ≤ n 0x0C 2 ∧ n 0x0C 2 ≤ 16) &&
        (n 0x10 4 == 48000 || n 0x10 4 == 96000) && n 0x14 4 == 1 && decide (6 ≤ n 0x18 2 ∧ n 0x18 2 ≤ 4800)
    | 2 => true
    | _ => false
  kind && (n 8 1 == 1 || (n 0x14 4 != 0 && n 0x10 4 != 0 && decide (n 0x10 4 ≤ 60 * n 0x14 4))) &&
  decide (n 0x1A 1 ≤ 2 ∧ n 0x1B 1 ≤ 15 ∧ n 0x20 4 ≤ 1000000) && (decide (portB ≤ 15) || portB == 0xFF) && n 0x48 8 % 64 == 0

/-- RFC 4175: the pixels and the bytes of a pgroup. -/
def pgroup (d : List Byte) : Nat × Nat :=
  match pf d 9 1 == 0, pf d 0x0A 1 with
  | true, 8 => (2, 4)
  | true, 10 => (2, 5)
  | true, _ => (2, 6)
  | false, 8 => (1, 3)
  | false, 10 => (4, 15)
  | false, _ => (2, 9)
/-- The bytes of a line's pgroups. -/
def packedBytes (d : List Byte) : Nat := (pf d 0x0C 2 + (pgroup d).1 - 1) / (pgroup d).1 * (pgroup d).2
/-- R511: the bytes of a line: of the longest plane for planar forms, else of its pgroups. -/
def lineBytes (d : List Byte) : Nat :=
  let w := pf d 0x0C 2
  match pf d 8 1 with
  | 0 =>
    if pf d 0x0B 1 = 1 then w
    else if pf d 0x0B 1 = 2 then 4 * w
    else packedBytes d
  | _ => 0

/-- R509 to R511: the checks of a STREAM packet at parse. -/
def State.streamOk (s : State) (h : HwSlot) (b : List Byte) : Bool :=
  let op := pf b 4 1
  let k := streamKey b
  let x := s.stream k
  let lens := [4, 1, 2, 1]
  h.qflags.testBit 1 && decide (op ≤ 3) && lens[op]? == some (pktLen b) && decide (k < 160) &&
  (if op = 0 then !x.isOpen && openOk b else x.isOpen && x.asid == h.asid) &&
  (op != 2 || (pf b 8 8 % 64 == 0 && pf b 0x10 8 % 64 == 0 && pf b 0x18 4 % 64 == 0 && pf b 0x1C 4 % 64 == 0 &&
    decide (lineBytes x.desc ≤ pf b 0x18 4))) &&
  (op != 3 || decide (128 ≤ k))

/-- R249 item 5: the reason of the first body check that fails, or 0. -/
def State.bodyReason (s : State) (h : HwSlot) (b : List Byte) : Nat :=
  let priv := h.qflags.testBit 0
  match pktOp b with
  | 1 => s.launchReason false b
  | 2 => s.launchReason true b
  | 3 => if pf b 8 8 % 128 ≠ 0 then 4 else 0
  | 4 => if 0x49F < pf b 4 2 % 4096 then 0xE else 0
  | 5 => if pf b 4 1 % 2 = 1 ∧ priv = false then 0xC else if pf b 0x18 8 = 0 ∨ 2 ^ 40 < pf b 0x18 8 then 0xF else 0
  | 6 => if pf b 4 2 = 0 ∨ pf b 4 2 = 0xFFFF then 2 else if pf b 4 2 ≠ h.asid.toNat ∧ priv = false then 0xC else 0
  | 7 => if 5 < pf b 4 1 then 1 else 0
  | 8 => if pf b 8 8 % 16 ≠ 0 then 4 else 0
  | 9 => if s.streamOk h b then 0 else 0xD
  | _ => 0

/-- R249: the checks of a whole packet in their order: the cause and the reason of the first failure. -/
def State.packetCheck (s : State) (h : HwSlot) (b : List Byte) : Option (BitVec 8 × Nat) :=
  match packetLen (pktOp b) with
  | none => some (0x3D, 0)
  | some (lo, hi) =>
    if pktLen b < lo ∨ hi < pktLen b then some (0x3C, 0)
    else if 16 ≤ pktFlags b ∨ reservedOk b = false then some (0x3E, 1)
    else
      let r := s.bodyReason h b
      if r = 0 then none else some (0x3E, r)

def State.setBlock (s : State) (k n : Nat) : State := s.setSlot k { s.slotAt k with block := n }

/-! Which packet a fetcher takes (R244 to R248, R254). -/

/-- R248: the dispatched packets of a queue that have not completed. -/
def State.outstanding (s : State) (q : Nat) : List (Nat × Packet) := s.fe.packets.filter (fun e => e.2.qnum == q)

/-- R254: whether a WAITTL packet is satisfied. -/
def State.waittlReached (s : State) (p : Packet) : Bool :=
  s.tlReached (nth 0 0 p.arg) (nth 0 1 p.arg == 1) (BitVec.ofNat 64 (nth 0 2 p.arg))

/-- R246, R248, R254: why a checked packet waits before dispatch, as BLOCK numbers it; 0 for none. -/
def State.holdOf (s : State) (h : HwSlot) (b : List Byte) : Nat :=
  let out := s.outstanding h.qnum
  if s.fe.kills.any (fun k => k.asid == h.asid) then 7
  else if out.any (fun e => e.2.opcode == 4 && !(e.2.done || s.waittlReached e.2)) then 3
  else if out.any (fun e => e.2.opcode == 7) || ((pktFlags b).testBit 1 && !out.isEmpty) then 4
  else if 64 ≤ out.length then 6
  else 0

/-- R210: a free launch entry. -/
def State.freeLaunch (s : State) : Option Nat := (List.range 2047).find? (fun n => (alook n s.fe.entries).isNone)

/-- R92: no page is being pinned or unpinned: the accesses of the media engines wait while one is. -/
def State.pinsQuiet (s : State) : Bool := s.clusters.all (fun c => c.2.pins.all (fun e => e.2.busy.isNone))

/-- R92: whether the page of a virtual address is being pinned or unpinned. -/
def State.vaBusy (s : State) (asid : BitVec 16) (v : Nat) : Bool :=
  match s.translateEngine engFront asid (BitVec.ofNat 64 v) (.engine false) with
  | .ok l => s.pinBusy (l.pa v)
  | .error _ => false

/-- R92, R245, R515: whether a packet that may be dispatched waits all the same: for a page that is being pinned or unpinned, or, of a CLOSE,
for the frames to be sent. -/
def State.headWaits (s : State) (h : HwSlot) (b : List Byte) : Bool :=
  match pktOp b with
  | 1 => pf b 0x50 8 != 0 && s.vaBusy h.asid (pf b 0x50 8)
  | 2 => pf b 0x50 8 != 0 && s.vaBusy h.asid (pf b 0x50 8)
  | 3 => s.vaBusy h.asid (pf b 8 8)
  | 8 => s.vaBusy h.asid (pf b 8 8)
  | 9 => pf b 4 1 == 1 && (!(s.stream (streamKey b)).sends.isEmpty || (s.stream (streamKey b)).hostOut.isSome || !s.pinsQuiet)
  | _ => false

/-- R245: whether the head packet of an ACTIVE slot can proceed: it is to be fetched, or to be dispatched and nothing holds it. -/
def State.canProceed (s : State) (h : HwSlot) : Bool :=
  h.state == 1 && h.hostOut.isNone && (match h.head with
    | none => h.rptr != h.wptr && h.block == 0 && !s.vaBusy h.asid (h.unitVa h.rptr).toNat
    | some b =>
      let op := pktOp b
      s.holdOf h b == 0 && !s.headWaits h b &&
      (if op = 1 ∨ op = 2 then s.freeLaunch.isSome && (op == 1 || h.block != 5)
       else op != 5 || decide ((s.die (h.qnum % 4)).bte.length < 64)))

/-- R245: a slot's place in its fetcher's rotation, counted from the slot served last. -/
def State.turn (s : State) (k : Nat) : Nat := (k + 32 - aget (28 + k % 4) (k % 4) s.fe.lastServed - 4) % 32

/-- R245: whether another slot of the fetcher goes first: one whose PRIOMAX is higher, or equal with an earlier turn. -/
def State.servedAfter (s : State) (k : Nat) : Bool :=
  let h := s.slotAt k
  s.fe.slots.any (fun e => e.1 != k && e.1 % 4 == k % 4 && s.canProceed e.2 &&
    (decide (h.priomax < e.2.priomax) || (h.priomax == e.2.priomax && decide (s.turn e.1 < s.turn k))))

/-- R249, R251: the fetch of the head packet of an ACTIVE slot. -/
def State.fetchPacket (s : State) (k : Nat) : State :=
  let h := s.slotAt k
  if h.rptr = h.wptr then s.setBlock k 1 else
  match s.feRead k (h.unitsVa 1) with
  | .fault c => s.fetchFault k c
  | .waits t => t
  | .got t b =>
    if pktLen b = 0 ∨ h.units < pktLen b then t.queueError k h.rptr 0x3C 0 (pktTag b)
    else if (h.wptr + 2 ^ 32 - h.rptr) % 2 ^ 32 < pktLen b then t.setBlock k 2
    else
      match t.feRead k (h.unitsVa (pktLen b)) with
      | .fault c => t.fetchFault k c
      | .waits u => u
      | .got u b =>
        match u.packetCheck h b with
        | some (c, r) => u.queueError k h.rptr c r (pktTag b)
        | none => u.setSlot k { u.slotAt k with head := some b, block := 0, hostOut := none, hostData := [] }

/-- R249: PACKET_FETCH; the memory that rings lie in is served in ACTIVE (R474). -/
def execPacketFetch (slot : Nat) (s : State) : Host.Outcome State Fault Refusal :=
  dev "PACKET_FETCH" (decide (slot < 32)) (
    let h := s.slotAt slot
    if s.power.state ≠ 0 ∨ h.state ≠ 1 ∨ h.head.isSome = true ∨ h.hostOut.isSome = true ∨ s.servedAfter slot = true then none else some (s.fetchPacket slot))

end Sys2Proof.Machine
end

