-- ==== Sys2Proof/Machine/Packet.lean ====
section
/-! DEFINITION. The dispatch of packets, launches and gangs, SIGNAL, waits and fences of a queue, kills, and the completion of
packets with their increments in sequence (R140 to R144, R244 to R259, R473). -/

namespace Sys2Proof.Machine

/-! Dispatch. -/

/-- A row that dispatches a packet of an opcode, in ACTIVE (R474): it waits, with BLOCK, while something holds it, and for the slots that
its fetcher takes before it (R245). A SIGNAL whose CAS is on its way goes on in any state of its slot. -/
def dispatchRow (row : String) (slot op : Nat) (f : HwSlot → List Byte → State → Option State) (s : State) :
    Host.Outcome State Fault Refusal :=
  dev row (decide (slot < 32)) (
    let h := s.slotAt slot
    match h.head with
    | none => none
    | some b =>
      if pktOp b ≠ op ∨ h.hostOut.isSome = true ∨ s.power.state ≠ 0 then none
      else if h.casOut then (if s.killing h.asid then some (s.setBlock slot 7) else f h b s)
      else if h.state ≠ 1 then none
      else
        let w := s.holdOf h b
        if w ≠ 0 then some (s.setBlock slot w) else if s.servedAfter slot then none else f h b s)

/-- R248, R259, R260: a packet is dispatched: it takes its INC sequence number, and RPTR passes it. -/
def State.dispatch (s : State) (slot : Nat) (b : List Byte) (done : Bool) (entry : Option Nat) (arg : List Nat) : State :=
  let h := s.slotAt slot
  let inc := (pktFlags b).testBit 0
  let y := s.tl h.qnum
  let p : Packet :=
    { qnum := h.qnum, asid := h.asid, tag := pktTag b, flags := BitVec.ofNat 8 (pktFlags b), opcode := pktOp b,
      seq := if inc then some y.nextSeq else none, entry := entry, scope := h.scope, done := done, arg := arg, fault := none }
  let s := if inc then s.setTl h.qnum { y with nextSeq := y.nextSeq + 1 } else s
  let fe := { s.fe with packets := aput s.fe.nextPacket p s.fe.packets, nextPacket := s.fe.nextPacket + 1,
                        lastServed := aput (slot % 4) slot s.fe.lastServed }
  let s : State := { s with fe := fe }
  let h := h.setField 0x18 4 ((h.rptr + pktLen b) % 2 ^ 32)
  let h := { h with head := none, block := 0, gangRaised := false, hostOut := none, hostData := [], casOut := false }
  (s.setSlot slot h).mirrorRptr slot false

/-! Completion (R166, R257, R259, R262). -/

/-- R259: the increments that completed early and whose turn has come. -/
def State.drainEarly (t : Nat) : Nat → State → State
  | 0, s => s
  | fuel + 1, s =>
    let y := s.tl t
    match y.early.find? (fun e => e.1 == y.applied) with
    | some e =>
      let s := s.setTl t { y with applied := y.applied + 1, early := y.early.filter (fun x => x.1 != e.1) }
      State.drainEarly t fuel (s.increment t 1 e.2.1 e.2.2)
    | none => s

/-- R259: an INC packet's increment applies in sequence order. -/
def State.applyInc (s : State) (t seq : Nat) (cores : List Nat) (tag : BitVec 8) : State :=
  let y := s.tl t
  State.drainEarly t (y.early.length + 1) (s.setTl t { y with early := y.early ++ [(seq, cores, tag)] })

/-- R166, R496: whether the writes of a launch's task have been performed at the queue's scope: its operations and transfers in flight,
and at SYS its posted writes to the host, which the host must have acknowledged. -/
def State.taskWritten (s : State) (entry scope : Nat) : Bool :=
  s.cores.all (fun c => c.2.opLent.all (fun o => o.2 != entry)) &&
  s.dies.all (fun d => d.2.bte.all (fun o => o.2.seat.isNone || o.2.lent != entry)) &&
  (scope != 5 || (s.hostWriting (fun r => r.lent == some entry)).isEmpty)

/-- R247, R496: whether a FENCE's condition holds: every earlier packet has completed, and at SYS the host has acknowledged the writes
that the tasks of its ASID have posted. -/
def State.fenced (s : State) (id : Nat) (p : Packet) : Bool :=
  (s.outstanding p.qnum).all (fun e => decide (id ≤ e.1)) &&
  (nth 0 0 p.arg != 5 || (s.hostWriting (fun r => r.asid == p.asid && (r.lent.isSome || r.pkt.isSome))).isEmpty)

/-- R166, R247, R254: whether a packet has nothing more to wait for; its own record is written once the host has acknowledged it. -/
def State.packetReady (s : State) (id : Nat) (p : Packet) : Bool :=
  (p.done || (p.opcode == 4 && s.waittlReached p) || (p.opcode == 7 && s.fenced id p)) &&
  (s.hostWriting (fun r => r.pkt == some id)).isEmpty &&
  (match p.entry with
    | some n => s.taskWritten n p.scope
    | none => true) &&
  (match p.seq with
    | some q => q != (s.tl p.qnum).applied || s.certRoom p.qnum
    | none => true)

/-- R166: the posted writes of a launch entry that is freed name no entry any more. -/
def State.disown (s : State) (entry : Nat) : State :=
  let r (q : HostReq) : HostReq := if q.lent = some entry then { q with lent := some 0x7FF } else q
  { s with host := { s.host with reqs := s.host.reqs.map (fun e => (e.1, r e.2)), later := s.host.later.map (fun e => (e.1, (e.2.1, r e.2.2))) } }

/-- R210, R257, R259, R246: a packet completes: its launch entry frees, its fault is recorded, with KILLED where a kill has ended it, its
increment applies, and the interrupts it asks for are raised. -/
def State.finishPacket (s : State) (id : Nat) (p : Packet) : State :=
  let cores := match p.entry with
    | some n => (match alook n s.fe.entries with
      | some e => e.cores
      | none => [])
    | none => []
  let s : State := { s with fe := { s.fe with
    packets := adel id s.fe.packets
    entries := match p.entry with
      | some n => adel n s.fe.entries
      | none => s.fe.entries } }
  -- R166: what its task has posted below SYS belongs to no later task that takes the entry
  let s := match p.entry with
    | some n => s.disown n
    | none => s
  let s := match p.fault with
    | some c => if c = 0x59 then (s.recordFault p.qnum c p.tag).recordBit p.qnum 30 else s.recordFault p.qnum c p.tag
    | none => s
  let s := match p.seq with
    | some q => s.applyInc p.qnum q cores p.tag
    | none => s
  let s := if p.flags.getLsbD 2 then s.raiseVector (p.qnum % 48) else s
  if p.flags.getLsbD 3 then { s.raiseFw 9 with fe := { (s.raiseFw 9).fe with pktInfo := BitVec.ofNat 10 p.qnum } } else s

/-- R259: PACKET_COMPLETE. -/
def execPacketComplete (pkt : Nat) (s : State) : Host.Outcome State Fault Refusal :=
  dev "PACKET_COMPLETE" true (match alook pkt s.fe.packets with
    | some p => if s.packetReady pkt p && s.active then some (s.finishPacket pkt p) else none
    | none => none)

/-- A packet that completes where it is dispatched does so at once when nothing withholds its increment. -/
def State.dispatchDone (s : State) (slot : Nat) (b : List Byte) : State :=
  let id := s.fe.nextPacket
  let s := s.dispatch slot b true none []
  match alook id s.fe.packets with
  | some p => if s.packetReady id p then s.finishPacket id p else s
  | none => s

/-- R247: NOP_PACKET. -/
def execNopPacket (slot : Nat) (s : State) : Host.Outcome State Fault Refusal :=
  dispatchRow "NOP_PACKET" slot 0 (fun _ b s => some (s.dispatchDone slot b)) s

/-! LAUNCH and GANG. -/

/-- R210: the placement tag of a new record. -/
def launchTag (b : List Byte) (entry : Nat) : Word :=
  BitVec.ofNat 64 (pf b 0x45 1 * 2 ^ 20 + pf b 0x48 1 % 2 * 2 ^ 19 + pf b 0x44 1 * 2 ^ 11 + entry)

/-- R252, R253: a new record. -/
def launchCont (h : HwSlot) (b : List Byte) (gx gy home seat entry : Nat) : Cont :=
  let ctl := pf b 0x40 4
  let prio := Nat.min (ctl / 8 % 8) h.priomax
  { w0 := BitVec.ofNat 64 (prio * 2 ^ 56 + ctl / 128 % 2 * 2 ^ 55 + pf b 8 8 + ctl / 64 % 2 * 2)
    w1 := h.asid ++ BitVec.ofNat 48 (ctl % 8 * 2 ^ 45 + home * 2 ^ 36 + ctl / 256 % 4 * 2 ^ 34 + seat * 2 ^ 32 + gy * 2 ^ 16 + gx)
    s := (List.range 6).map (fun i => BitVec.ofNat 64 (pf b (0x10 + 8 * i) 8))
    tag := launchTag b entry
    expired := false }

/-- R466: whether a queue is marked as paired. -/
def State.pairedQueue (s : State) (q : Nat) : Bool := (s.ctlW 0 (0x00F03200 + 4 * (q / 32))).getLsbD (q % 32)

/-- R210: the launch entry of a packet that is being dispatched; its ASID is in use again after a kill (R144). -/
def State.takeEntry (s : State) (n : Nat) (h : HwSlot) (b : List Byte) (live : Nat) : State :=
  let e : LaunchEntry :=
    { queue := h.qnum, asid := h.asid, live := live, pkt := s.fe.nextPacket, tag := pktTag b, cores := [], paired := s.pairedQueue h.qnum }
  { s with fe := { s.fe with entries := aput n e s.fe.entries, revoked := s.fe.revoked.filter (· != h.asid) } }

/-- R473: the tiles that a mask names start to wake. -/
def State.wakeMask (s : State) (mask : Nat) : State :=
  (List.range 400).foldl (fun s n => if mask.testBit n && s.visible n && !s.retired n then s.wakeTile n else s) s

/-- R473: the tile mask of a LAUNCH or a GANG: none when TMASK is 0. -/
def State.tileMask (s : State) (slot : Nat) (b : List Byte) : Option Got :=
  let v := pf b 0x50 8
  if v = 0 then none else some (s.feRead slot (cut64 3 (BitVec.ofNat 64 v) 64))

/-- R252: the LCIDs that a LAUNCH or a GANG names are mapped. -/
def State.lcidsMapped (s : State) (b : List Byte) (n : Nat) : Bool :=
  (List.range n).all (fun i => lcidValid (s.lcidEntry (pf b 0x46 2 + i)))

/-- R252, R473: the records of a LAUNCH enter the HOME die's pool in ascending order; with a tile mask the bound ones wake nothing. -/
def State.launchAll (s : State) (h : HwSlot) (b : List Byte) (entry : Nat) : State :=
  let nx := pf b 4 2
  let bound := decide (pf b 0x40 1 % 8 ≤ 1)
  (List.range (nx * pf b 6 2)).foldl (fun s i =>
    let home := lcidPhys (s.lcidEntry (pf b 0x46 2 + (if bound then i else 0)))
    s.poolAddIf (pf b 0x50 8 == 0 || !bound) (dieOf home) (.record (launchCont h b (i % nx) (i / nx) home 0 entry))) s

/-- R252: LAUNCH. -/
def execLaunch (slot : Nat) (s : State) : Host.Outcome State Fault Refusal :=
  dispatchRow "LAUNCH" slot 1 (fun h b s =>
    let n := pf b 4 2 * pf b 6 2
    if !s.lcidsMapped b (if pf b 0x40 1 % 8 ≤ 1 then n else 1) then some (s.queueError slot h.rptr 0x3E 7 (pktTag b)) else
    match s.freeLaunch with
    | none => some (s.setBlock slot 6)
    | some e =>
      let go (s : State) : State := (((s.takeEntry e h b n).dispatch slot b false (some e) []).launchAll h b e)
      match s.tileMask slot b with
      | none => some (go s)
      | some (.fault c) => some (s.fetchFault slot c)
      | some (.waits t) => some t
      | some (.got t m) => some (go (t.wakeMask (bytesToNat m)))) s

/-- Takes an element of a list by a free choice. -/
def pickFree {α : Type} (n : Nat) (l : List α) : Option α := l[Config.freeVictim n % l.length]?

/-- R253: one member of a gang takes an idle seat of its partition; nothing says which. -/
def State.gangMember (s : State) (h : HwSlot) (b : List Byte) (entry p gy : Nat) : Option State :=
  let seats := (s.partCores p).flatMap (fun n => [(n, 0), (n, 1)])
  let cont (q : Nat × Nat) : Cont := launchCont h b p gy q.1 q.2 entry
  (pickFree s.fresh (seats.filter (fun q => s.mayPlace (cont q) q.1 q.2))).map (fun q =>
    { s with fresh := s.fresh + 1 }.placeSeat q.1 q.2 (cont q))

/-- R253: the members of the partitions, in ascending order; none if a seat is wanting. -/
def State.gangAll (s : State) (h : HwSlot) (b : List Byte) (entry : Nat) : Option State :=
  let parts := (List.range 16).filter (fun p => (pf b 0x58 2).testBit p)
  (parts.flatMap (fun p => (List.range (pf b (0x60 + 2 * p) 2)).map (fun i => (p, i)))).foldlM
    (fun s q => s.gangMember h b entry q.1 q.2) s

/-- R253: an attempt of a gang: every seat is reserved and all members are placed, or none. -/
def State.gangTry (s : State) (slot : Nat) (h : HwSlot) (b : List Byte) : State :=
  match s.freeLaunch with
  | none => s.setBlock slot 6
  | some e =>
    let n := ((List.range 16).map (fun p => pf b (0x60 + 2 * p) 2)).sum
    match (s.takeEntry e h b n).gangAll h b e with
    | some t => t.dispatch slot b false (some e) []
    | none => s.setBlock slot 5

/-- R253, R473: GANG: the tiles wake, and the first attempt is made. -/
def execGang (slot : Nat) (s : State) : Host.Outcome State Fault Refusal :=
  dispatchRow "GANG" slot 2 (fun h b s =>
    if h.block = 5 then none
    else if !s.lcidsMapped b 1 then some (s.queueError slot h.rptr 0x3E 7 (pktTag b)) else
    match s.tileMask slot b with
    | some (.fault c) => some (s.fetchFault slot c)
    | some (.waits t) => some t
    | some (.got t m) => some ((t.wakeMask (bytesToNat m)).gangTry slot h b)
    | none =>
      let parts := (List.range 16).filter (fun p => (pf b 0x58 2).testBit p)
      some ((parts.foldl (fun (s : State) p => (s.partCores p).foldl (fun (s : State) n => if s.retired n then s else s.wakeTile n) s) s).gangTry slot h b)) s

/-- R253: GANG_RETRY. -/
def execGangRetry (slot : Nat) (s : State) : Host.Outcome State Fault Refusal :=
  dispatchRow "GANG_RETRY" slot 2 (fun h b s => if h.block = 5 then some (s.gangTry slot h b) else none) s

/-- R253: GANG_BOUND. -/
def execGangBound (slot : Nat) (s : State) : Host.Outcome State Fault Refusal :=
  dev "GANG_BOUND" (decide (slot < 32)) (
    let h := s.slotAt slot
    if h.state = 1 ∧ h.block = 5 ∧ h.gangRaised = false then some ((s.setSlot slot { h with gangRaised := true }).raiseFw 3) else none)

/-! SIGNAL. -/

/-- R210, R254: whether the tag of a suspended record is one that the front end takes back. -/
def State.tagHeld (s : State) (tag : Word) (asid : BitVec 16) : Bool :=
  tag.extractLsb' 29 35 == 0 && (tagEntry tag == 0x7FF || (match alook (tagEntry tag) s.fe.entries with
    | some e => e.asid == asid
    | none => false))

/-- R254: the record of 64 bytes and its tag, as SIGNAL reads them. -/
def contOf (b : List Byte) : Cont :=
  let w (i : Nat) : Word := BitVec.ofNat 64 (pf b (8 * i) 8)
  { w0 := w 0, w1 := w 1, s := (List.range 6).map (fun i => w (i + 2)), tag := w 8, expired := false }

/-- R254: the record with SUSP 0b10. -/
def Cont.requeued (c : Cont) : Cont := { c with w0 := (c.w0 &&& 0xFFFFFFFFFFFFFFF3#64) ||| 8#64 }

/-- R14: the record as a pool takes it: its reserved bits are 0. -/
def Cont.clean (c : Cont) : Cont :=
  { c with w0 := c.w0 &&& 0x07FFFFFFFFFFFFFE#64, w1 := c.w1 &&& 0xFFFFFFFDFFFFFFFF#64, tag := c.tag &&& 0x1FFFFFFF#64 }

/-- R214, R254: the record at an address joins its HOME die's pool. -/
def State.requeue (s : State) (pa : Nat) (c : Cont) : State :=
  ({ s with cores := s.cores.map (fun e => (e.1, { e.2 with suspended := e.2.suspended.filter (fun x => x.1 != pa) })) } : State).poolAdd
    (dieOf c.home % 4) (.record c.requeued.clean)

/-- R254: SIGNAL finds no suspended record. -/
def State.sigMiss (s : State) (slot : Nat) (b : List Byte) : State :=
  (s.recordBit (s.slotAt slot).qnum 29).dispatchDone slot b

/-- R495: the key under which the old value of a host atomic of a slot is kept. -/
def amoKey (pa : Nat) : Nat := pa + 2 ^ 48

def casPlace (data : List (Nat × List Byte)) : Nat := ((data.find? (fun e => decide (2 ^ 48 ≤ e.1))).map (fun e => e.1 - 2 ^ 48)).getD 0

/-- R171, R254: SIGNAL: the record and its tag are read, and where they are as they should be the CAS of SUSP follows, at its home, which
recalls every copy first, or through the host port; only the CAS needs a page that may be written. A kill during the host's CAS holds the
packet, and may free the launch entry. -/
def State.signal (s : State) (slot : Nat) (h : HwSlot) (b : List Byte) : Option State :=
  let a : Word := BitVec.ofNat 64 (pf b 8 8)
  let stop (t : State) (c : Cause) : State :=
    (t.setSlot slot { t.slotAt slot with casOut := false }).queueError slot h.rptr c.1 0 (pktTag b)
  match s.feRead slot [(a, 64), (a + 64, 64)] with
  | .fault c => some (stop s c)
  | .waits t => if t = s then none else some t
  | .got t bs =>
    let c := contOf bs
    let old : Option (List Byte) := (h.hostData.find? (fun e => decide (2 ^ 48 ≤ e.1))).map (·.2)
    match old with
    | some v =>
      if v.length < 8 then some (stop t (0x28, transFaddr 0 (.engine true) a.toNat))
      else if bytesToNat (v.take 8) = c.w0.toNat ∧ t.tagHeld c.tag h.asid = true then some ((t.requeue (casPlace h.hostData) c).dispatchDone slot b)
      else some (t.sigMiss slot b)
    | none =>
      if !(c.susp == 1 && c.asid == h.asid && t.tagHeld c.tag h.asid) then some (t.sigMiss slot b) else
      match t.engineAt engFront h.asid false a true with
      | .error e => some (stop (t.engineFail engFront h.asid false a true) e)
      | .ok p =>
        if t.pinBusy p.pa then none else
        let t := t.markAt p true
        if region p.pa = .host then
          let q : HostReq := { asid := h.asid, use := .fetch slot, addr := p.pa, size := 8, write := false,
                               data := natToBytes 8 c.requeued.w0.toNat ++ natToBytes 8 c.w0.toNat, amo := some .cas }
          some ((t.hostRequest q).setSlot slot { t.slotAt slot with hostOut := some t.host.nextReq, casOut := true })
        else
          let r := t.amoAt p.pa .cas 8 c.requeued.w0 c.w0
          if r.1 = c.w0 then some ((r.2.requeue p.pa c).dispatchDone slot b) else some (r.2.sigMiss slot b)

/-- R254: SIGNAL. -/
def execSignal (slot : Nat) (s : State) : Host.Outcome State Fault Refusal :=
  dispatchRow "SIGNAL" slot 3 (fun h b s => s.signal slot h b) s

/-! The other packets. -/

/-- R254: WAITTL_PACKET. -/
def execWaittlPacket (slot : Nat) (s : State) : Host.Outcome State Fault Refusal :=
  dispatchRow "WAITTL_PACKET" slot 4 (fun h b s =>
    some (s.dispatch slot b false none [pf b 4 2 % 4096, pf b 4 2 / 32768, pf b 8 8, pf b 0x10 4, h.rptr, slot])) s

/-- R254: the WAITTL packet that a slot dispatched, and whose timeout may pass. -/
def State.timedWait (s : State) (slot : Nat) : Option (Nat × Packet) :=
  s.fe.packets.find? (fun e => e.2.opcode == 4 && nth 0 5 e.2.arg == slot && !e.2.done && !s.waittlReached e.2 && nth 0 3 e.2.arg != 0)

/-- R244, R254: WAITTL_PACKET_TIMEOUT: the packet completes, and the queue stops; of one that is mapped no longer the timeline records the
cause. -/
def execWaittlPacketTimeout (slot : Nat) (s : State) : Host.Outcome State Fault Refusal :=
  dev "WAITTL_PACKET_TIMEOUT" (decide (slot < 32)) (
    match s.timedWait slot with
    | some (id, p) =>
      let p := { p with done := true }
      let s : State := { s with fe := { s.fe with packets := aput id p s.fe.packets } }
      let s := if s.packetReady id p then s.finishPacket id p else s
      some (match s.slotOf p.qnum with
        | some k => s.queueError k (nth 0 4 p.arg) 0x51 0 p.tag
        | none => s.recordFault p.qnum 0x51 p.tag)
    | none => none)

/-- R254, R255: BTE_PACKET. -/
def execBtePacket (slot : Nat) (s : State) : Host.Outcome State Fault Refusal :=
  dispatchRow "BTE_PACKET" slot 5 (fun h b s =>
    let d := h.qnum % 4
    if 64 ≤ (s.die d).bte.length then none else
    let o : BteOp :=
      { asid := if pf b 4 1 % 2 = 1 then 0 else h.asid, phys := pf b 4 1 % 2 == 1, src := BitVec.ofNat 64 (pf b 8 8), dst := BitVec.ofNat 64 (pf b 0x10 8),
        bytes := pf b 0x18 8, crd := BitVec.ofNat 64 (pf b 0x20 8), tag := pktTag b, qnum := BitVec.ofNat 16 h.qnum,
        pkt := some s.fe.nextPacket, seat := none, lent := 0x7FF, cancelled := false, pos := 0, ended := none, time := [], tail := none,
        recOut := 0, hostOut := none, hostData := [] }
    some ((s.dispatch slot b false none []).startBte d o)) s

/-- R140, R254: KILL. -/
def execKill (slot : Nat) (s : State) : Host.Outcome State Fault Refusal :=
  dispatchRow "KILL" slot 6 (fun _ b s =>
    let id := s.fe.nextPacket
    some ((s.dispatch slot b false none []).startKill (BitVec.ofNat 16 (pf b 4 2)) (some id))) s

/-- R142: whether every point has acknowledged a kill: no operation, transfer, host request or chunk of the ASID remains. -/
def State.killAcked (s : State) (asid : BitVec 16) : Bool :=
  s.cores.all (fun c => c.2.ops.all (fun o => o.2.asid != asid)) &&
  s.dies.all (fun d => d.2.bte.all (fun o => o.2.phys || o.2.asid != asid)) &&
  s.host.reqs.all (fun r => r.2.asid != asid) && s.host.later.all (fun r => r.2.2.asid != asid) && s.net.inbox.all (fun i => i.2.chunk.asid != asid)

/-- R142: KILL_COMPLETE. -/
def execKillComplete (asid : BitVec 16) (s : State) : Host.Outcome State Fault Refusal :=
  dev "KILL_COMPLETE" true (match s.fe.kills.find? (fun k => k.asid == asid) with
    | some k =>
      if !s.killAcked asid then none else
      some { s with fe := { s.fe with
        kills := s.fe.kills.filter (fun x => x.asid != asid)
        packets := s.fe.packets.map (fun e => (e.1, if k.pkts.contains e.1 then { e.2 with done := true } else e.2)) } }
    | none => none)

/-- R254: FENCE_PACKET. -/
def execFencePacket (slot : Nat) (s : State) : Host.Outcome State Fault Refusal :=
  dispatchRow "FENCE_PACKET" slot 7 (fun _ b s => some (s.dispatch slot b false none [pf b 4 1])) s

/-- R254: MARKER: the record's last two bytes are not laid out. -/
def execMarker (slot : Nat) (s : State) : Host.Outcome State Fault Refusal :=
  dispatchRow "MARKER" slot 8 (fun h b s =>
    let a : Word := BitVec.ofNat 64 (pf b 8 8)
    match s.engineAt engFront h.asid false a true with
    | .error c => some ((s.engineFail engFront h.asid false a true).queueError slot h.rptr c.1 0 (pktTag b))
    | .ok p =>
      if s.pinBusy p.pa then none else
      let bytes := s.time80 ++ [pktTag b, 0] ++ natToBytes 2 h.qnum ++ [Config.freeByte s.fresh, Config.freeByte (s.fresh + 1)]
      let by_ : HostReq := { asid := h.asid, use := .engine, addr := 0, size := 0, write := true, data := [], pkt := some s.fe.nextPacket }
      some ((({ s with fresh := s.fresh + 2 }.markAt p true).engineWriteBy by_ p.pa bytes).dispatchDone slot b)) s

/-- R257: TLADD, by the policy core. -/
def State.tladd (s : State) (t : Nat) (v : Word) : State :=
  if 2 ^ 63 ≤ v.toNat then s else
  let y := s.tl t
  (s.setTl t { y with value := y.value + v, cert := y.cert + v }).mirror t

def execTladd (tl : Nat) (v : BitVec 64) (s : State) : Host.Outcome State Fault Refusal :=
  dev "TLADD" (decide (tl < 0x4A0)) (some (s.tladd tl v))

end Sys2Proof.Machine
end

