-- ==== Sys2Proof/Machine/Maintain.lean ====
section
/-! DEFINITION. Shootdowns (R137 to R139) and the pin tables of the L2 slices (R90 to R92). -/

namespace Sys2Proof.Machine

/-! Shootdowns. -/

/-- R137: whether a shootdown's range overlaps n bytes at a virtual address. -/
def Shootdown.overlaps (k : Shootdown) (va n : Nat) : Bool :=
  decide (2 ^ 24 < k.len) || decide (0 < k.len ∧ va < k.va + k.len ∧ k.va < va + n)

/-- R137: whether a shootdown names a TLB entry. -/
def Shootdown.names (k : Shootdown) (e : TlbEntry) : Bool :=
  match k.kind with
  | 0 => e.asid == k.asid && !pteG e.leaf && k.overlaps e.va e.size
  | 1 => e.asid == k.asid && !pteG e.leaf
  | 2 => pteG e.leaf && k.overlaps e.va e.size
  | _ => true

/-- R139: whether an access of an ASID to n bytes may have used an entry that a shootdown names. -/
def Shootdown.hits (k : Shootdown) (asid : BitVec 16) (va n : Nat) : Bool :=
  match k.kind with
  | 0 => asid == k.asid && k.overlaps va n
  | 1 => asid == k.asid
  | 2 => k.overlaps va n
  | _ => true

/-- R133, R137: whether a shootdown names a non-leaf entry of a walker cache: its reach meets the range. -/
def Shootdown.namesNode (k : Shootdown) (e : WalkEntry) : Bool :=
  let reach := if e.level = 1 then 2 ^ 42 else 2 ^ 29
  match k.kind with
  | 0 => e.asid == k.asid && k.overlaps (e.index * reach) reach
  | 1 => e.asid == k.asid
  | 2 => k.overlaps (e.index * reach) reach
  | _ => true

/-- R139: the same of an access whose page size the machine no longer holds: its pages are taken to be large ones, so a completion may wait
for an access that it need not wait for (assumption log entry 131). -/
def Shootdown.hitsNear (k : Shootdown) (asid : BitVec 16) (va n : Nat) : Bool :=
  k.hits asid (va / 2 ^ 29 * 2 ^ 29) ((va % 2 ^ 29 + n + 2 ^ 29 - 1) / 2 ^ 29 * 2 ^ 29)

/-- R139: whether an operation in flight still uses a translation that a shootdown names. A row of an ACCST has at most four bytes for
each element. -/
def Shootdown.usedBy (k : Shootdown) : Op → Bool
  | .copy o => o.maps.any (fun m => k.hits o.asid m.va m.size)
  | .accst o => !o.maps.isEmpty && o.rowsAt.any (fun r => k.hitsNear o.asid r.1.toNat (4 * r.2))
  | .vload o => !o.waits.isEmpty && (o.asid == k.asid || decide (2 ≤ k.kind))
  | .kv o => o.maps.any (fun m => k.hits o.asid m.va m.size)
  | .coll o => o.asid == k.asid || decide (2 ≤ k.kind)
  | _ => false

/-- R139: the same for a held store. -/
def Shootdown.usedByHeld (k : Shootdown) (asid : BitVec 16) : Held → Bool
  | .store va ps _ _ => k.hitsNear asid va.toNat (ps.map (fun p => p.2.2.length)).sum
  | .fence _ => false
  | .copy o => k.usedBy (.copy o)
  | .accst o => k.usedBy (.accst o)

/-- R137, R138: a command is accepted: the TLBs and the walker caches drop what it names; none while four are pending. A reserved
KIND is discarded. R138 has DONE advance in the order accepted and does not say whether a reserved KIND waits for the commands before it: it
counts as done at once (the model's choice: log entry 153). -/
def State.shoot (s : State) (asid : BitVec 16) (kind : Nat) : Option State :=
  if 4 ≤ s.fe.tlbi.length then none
  else if 4 ≤ kind then
    some { s with fe := { s.fe with tlbiErr := true, tlbiIssued := s.fe.tlbiIssued + 1, tlbiDone := s.fe.tlbiDone + 1 } }
  else
    let k : Shootdown := { asid := asid, kind := kind, va := s.ctlD 0x00F00008, len := s.ctlD 0x00F00010 }
    let s := s.dropXlat k.names k.namesNode
    some { s with fe := { s.fe with tlbi := s.fe.tlbi ++ [k], tlbiIssued := s.fe.tlbiIssued + 1 } }

def execTlbiRange (asid : BitVec 16) (s : State) : Host.Outcome State Fault Refusal := dev "TLBI_RANGE" true (s.shoot asid 0)
def execTlbiAsid (asid : BitVec 16) (s : State) : Host.Outcome State Fault Refusal := dev "TLBI_ASID" true (s.shoot asid 1)
def execTlbiGlobalRange (s : State) : Host.Outcome State Fault Refusal := dev "TLBI_GLOBAL_RANGE" true (s.shoot 0 2)
def execTlbiAll (s : State) : Host.Outcome State Fault Refusal := dev "TLBI_ALL" true (s.shoot 0 3)
def execTlbiReserved (kind : BitVec 3) (s : State) : Host.Outcome State Fault Refusal :=
  dev "TLBI_RESERVED" true (if kind.toNat < 4 then none else s.shoot 0 kind.toNat)

/-- R139: whether every access through an entry that a shootdown names has ended. -/
def State.shootQuiet (s : State) (k : Shootdown) : Bool :=
  s.cores.all (fun c => c.2.ops.all (fun o => !k.usedBy o.2) &&
    c.2.held.all (fun h => !k.usedByHeld (s.seatAt c.1 h.1).file.ctl.asid h.2)) &&
  s.host.reqs.all (fun r => !(decide (2 ≤ k.kind) || r.2.asid == k.asid)) &&
  s.host.later.all (fun r => !(decide (2 ≤ k.kind) || r.2.2.asid == k.asid)) &&
  s.seats.all (fun t =>
    let mine : Bool := decide (2 ≤ k.kind) || t.2.file.ctl.asid == k.asid
    !(t.2.firm && t.2.keep.any (·.any k.names)) &&
    (match t.2.run with
      | .leaving (.suspend _ _) => !mine
      | _ => true) &&
    (match t.2.leave with
      | some (.suspend _ _, _) => !mine
      | _ => true))

/-- R139: TLBI_COMPLETE: the oldest command completes. -/
def execTlbiComplete (s : State) : Host.Outcome State Fault Refusal :=
  dev "TLBI_COMPLETE" true (match s.fe.tlbi with
    | k :: r => if s.shootQuiet k then some { s with fe := { s.fe with tlbi := r, tlbiDone := s.fe.tlbiDone + 1 } } else none
    | [] => none)

/-! Pin tables. -/

def Cluster.pin (c : Cluster) (i : Nat) : PinEntry := aget PinEntry.reset i c.pins
def State.setPin (s : State) (slice i : Nat) (e : PinEntry) : State :=
  s.modCluster slice (fun c => { c with pins := aput i e c.pins })

/-- R92: whether some slice's table names a page. -/
def State.pageNamed (s : State) (ppn : W32) : Bool :=
  s.clusters.any (fun c => c.2.pins.any (fun e => (e.2.valid || e.2.busy.isSome) && e.2.ppn == ppn))

/-- R92: a write of V = 1. -/
def State.pinPage (s : State) (slice i : Nat) (ppn : W32) : State :=
  let e := (s.cluster slice).pin i
  if e.busy.isSome || e.valid || region (ppn.toNat * 0x10000) != .lpddr || s.pageNamed ppn then s
  else s.setPin slice i { valid := true, busy := some true, ppn := ppn }

/-- R92: a write of V = 0. -/
def State.unpinPage (s : State) (slice i : Nat) : State :=
  let e := (s.cluster slice).pin i
  if e.busy.isSome || !e.valid then s else s.setPin slice i { e with valid := false, busy := some false }

def pinThere (slice i : Nat) : Bool := decide (slice < 40 ∧ i < 192)

def execPin (slice entry : Nat) (ppn : BitVec 32) (s : State) : Host.Outcome State Fault Refusal :=
  dev "PIN" (pinThere slice entry) (some (s.pinPage slice entry ppn))
def execUnpin (slice entry : Nat) (s : State) : Host.Outcome State Fault Refusal :=
  dev "UNPIN" (pinThere slice entry) (some (s.unpinPage slice entry))

/-- R389, R471: a slice goes with the last tile of its cluster, and with its last pinned page. -/
def State.sliceOff (s : State) (cl : Nat) : State :=
  if (List.range 10).all (fun i => (s.core (10 * cl + i)).tile == .off) && (s.cluster cl).pins.all (fun p => !p.2.valid && p.2.busy.isNone) then
    (s.emptyL2 cl).modCluster cl (fun c => { c with root := [] })
  else s

/-- R92: PIN_COMPLETE: every copy of the page's lines has been recalled, the dirty ones written back, and BUSY clears. -/
def execPinComplete (slice entry : Nat) (s : State) : Host.Outcome State Fault Refusal :=
  dev "PIN_COMPLETE" (pinThere slice entry) (
    let e := (s.cluster slice).pin entry
    if e.busy.isNone then none else
    let s : State := (s.cachedIn (e.ppn.toNat * 0x10000) 0x10000).foldl (fun s l => s.writeBack l) s
    some ((((s.setPin slice entry { e with busy := none }).sliceOff slice).hostRelease []).resumeHeld))

end Sys2Proof.Machine
end

