-- ==== Sys2Proof/Machine/Reliab.lean ====
section
/-! DEFINITION. Scans and certification, the visible topology, and detected errors (R450, R452 to R455, R460 to R465). -/

namespace Sys2Proof.Machine

/-! Scans. -/

/-- R460: a scan command of a die for a core index; one for an index above 99 names no cluster, and its rejection is reported
nowhere. -/
def State.scanStart (s : State) (die k : Nat) : State :=
  if 99 < k then s else
  let core := 100 * die + k
  let cl := clusterOf core
  let c := s.cluster cl
  if (s.seatAt core 0).busy || (s.seatAt core 1).busy || (s.core core).stopping.isSome || c.scanBusy.isSome then
    s.modCluster cl (fun c => { c with scanOutcome := 2, scanDone := c.scanDone + 1 })
  else
    let s := s.emptyL1 core
    (s.modCore core (fun x => { x with tlb := [] })).modCluster cl (fun c => { c with scanBusy := some core, scanCore := k })

/-- R460: SCAN_REQUEST. -/
def execScanRequest (die core : Nat) (s : State) : Host.Outcome State Fault Refusal :=
  dev "SCAN_REQUEST" (decide (die < 4 ∧ core < 128)) (some (s.scanStart die core))

/-- R462: the timelines that have certification entries rise as far as they may. -/
def State.certifyAll (s : State) : State := (s.fe.certs.map (·.tl)).eraseDups.foldl (fun s t => s.certify t) s

/-- R463: the entries of a failed core become suspect, and their timelines record it. -/
def State.suspect (s : State) (core : Nat) : State :=
  let hit (e : CertEntry) : Bool := e.cores.any (fun c => c.1 == core) && !s.entryCertified e
  let hits := s.fe.certs.filter (fun e => hit e && !e.suspect)
  let s : State := { s with fe := { s.fe with certs := s.fe.certs.map (fun e => if hit e then { e with suspect := true } else e) } }
  hits.foldl (fun s e => s.recordFault e.tl 0x5B e.tag) s

/-- R460, R461, R463, R464: SCAN_COMPLETE. -/
def execScanComplete (die cluster : Nat) (pass : Bool) (s : State) : Host.Outcome State Fault Refusal :=
  dev "SCAN_COMPLETE" (decide (die < 4 ∧ cluster < 10)) (
    let cl := 10 * die + cluster
    match (s.cluster cl).scanBusy with
    | none => none
    | some core =>
      let s := s.modCluster cl (fun c => { c with scanBusy := none, scanOutcome := if pass then 0 else 1, scanDone := c.scanDone + 1 })
      some (if pass then (s.setCtlW (scanCntOff core) (s.scanCnt core + 1)).certifyAll
        else
          let s : State := { s with fresh := s.fresh + 1 }
          (((s.setCoreBit 0x00090400 core).logEvent core 7 (Config.freeWord s.fresh)).suspect core).reportPools))

/-- R463: a write of SUSPACK. -/
def State.suspAck (s : State) (t : Nat) : State :=
  let ack (e : CertEntry) : CertEntry := if e.tl = t ∧ e.suspect = true then { e with suspect := false, cores := [] } else e
  ({ s with fe := { s.fe with certs := s.fe.certs.map ack } } : State).certify t

def execSuspack (tl : Nat) (s : State) : Host.Outcome State Fault Refusal :=
  dev "SUSPACK" (decide (tl < 4096)) (some (s.suspAck tl))

/-! The visible topology. -/

/-- R465: TOPOMASK's bit of a core. -/
def State.maskBit (s : State) (core : Nat) : Bool :=
  (s.ctlW (if core / 32 = 12 then 0xFFFF#32 else 0xFFFFFFFF#32) (0x00F03100 + 4 * (core / 32))).getLsbD (core % 32)

/-- R465: whether an APPLY is refused. -/
def State.applyRefused (s : State) : Bool :=
  s.topo.mode == 0 || (List.range 400).any (fun n => !s.maskBit n &&
    ((s.seatAt n 0).busy || (s.seatAt n 1).busy || (s.core n).stopping.isSome || s.scanning n || (s.lcidOf n).isSome))

/-- R450: TOPOLOGY_CHANGE is delivered to every seat with a running continuation; changes that arrive while one is pending
coalesce. -/
def State.topologyChange (s : State) : State :=
  { s with seats := s.seats.map (fun e =>
      if e.2.busy && !e.2.async.any (fun c => c.1 == 0x54#8) then (e.1, { e.2 with async := e.2.async ++ [(0x54#8, 0)] }) else e) }

/-- R465: an APPLY. -/
def State.applyTopo (s : State) : State :=
  if s.applyRefused then { s with topo := { s.topo with err := true } } else
  let hidden : Assoc Bool := ((List.range 400).filter (fun n => !s.maskBit n)).map (fun n => (n, true))
  let t : State := { s with topo := { s.topo with hidden := hidden } }
  let same := t.ncore == s.ncore && t.nclus == s.nclus && t.ndie == s.ndie
  let t : State := if same then t else ({ t with topo := { t.topo with gen := t.topo.gen + 1 } } : State).topologyChange
  t.reportPools

def execApply (s : State) : Host.Outcome State Fault Refusal := dev "APPLY" true (some s.applyTopo)

/-! Detected errors. -/

/-- R455: the structure, and the place in it, as FADDR names them. -/
def placeOf : ErrPlace → Nat × Nat
  | .l1 _ pa => (0, pa / 64 * 64)
  | .scratchpad _ off => (1, off)
  | .operand _ slot row => (2, (slotAddr slot 0).toNat + row)
  | .accumulator _ acc => (3, acc)
  | .regfile _ _ file idx => (4, 64 * file + idx)
  | .slice _ pa => (5, pa / 64 * 64)
  | .lpddr pa => (6, pa / 64 * 64)
  | .mram pa => (7, pa / 64 * 64)
  | .queue _ => (8, 0)
  | .table _ pa => (9, pa / 64 * 64)

/-- The unit of a place exists. -/
def placeThere : ErrPlace → Bool
  | .l1 core _ => coreThere core
  | .scratchpad core off => coreThere core && decide (off < 0xC0000)
  | .operand core slot row => coreThere core && decide (slot < 16 ∧ row < 64)
  | .accumulator core acc => coreThere core && decide (acc < 4)
  | .regfile core seat file idx => coreThere core && decide (seat < 2 ∧ file < 3 ∧ idx < 64)
  | .slice cl pa => decide (cl < 40) && (region pa == .lpddr || region pa == .host)
  | .lpddr pa => region pa == .lpddr
  | .mram pa => isMram pa
  | .queue core => coreThere core
  | .table core pa => coreThere core && region pa == .lpddr

/-- R455: the core that has detected an error; nothing says which for a memory. -/
def State.detector (s : State) : ErrPlace → Nat
  | .l1 core _ => core
  | .scratchpad core _ => core
  | .operand core _ _ => core
  | .accumulator core _ => core
  | .regfile core _ _ _ => core
  | .slice cl _ => 10 * cl + Config.freeVictim s.fresh % 10
  | .lpddr pa => 100 * (pa / 4096 % 16 / 4) + Config.freeVictim s.fresh % 100
  | .mram pa => if region pa = .journal then 100 * ((pa - 0x11000000000) / 0x10000000) + Config.freeVictim s.fresh % 100
      else (pa - 0x10000000000) / 0x0A000000
  | .queue core => core
  | .table core _ => core

/-- R53, R56: the block whose SCALE a poisoned block marks: its own, or the first of its 6-bit triple; the device knows the block by its
physical address alone (assumption log entry 132). -/
def State.scaleBlock (s : State) (pa : Nat) : Nat :=
  let f := pa / 192 * 192
  if codeSix (tagFmt (s.tagAt pa)) && region f == region pa then f else pa / 64 * 64

/-- R453: a block is poisoned: its hidden state and the SCALE of its tag, or of its triple's first block. -/
def State.poisonBlock (s : State) (pa : Nat) : State :=
  let t := s.scaleBlock pa
  let s := s.engineTag t (0xFF#8 ++ (s.tagAt t).extractLsb' 0 8)
  { s with poison := aput (pa / 64) true s.poison }

/-- R93: the core whose L1 holds a physical line dirty. -/
def State.dirtyOwner (s : State) (pa : Nat) : Option Nat := (alook (pa / 64) s.lines).bind (·.owner)

/-- R453, R454: whether an error at a place poisons the block: in a dirty line or in a home, where a page-table entry stands too. -/
def State.poisons (s : State) : ErrPlace → Option Nat
  | .l1 core pa => if s.dirtyOwner pa = some core then some pa else none
  | .slice cl pa => if (s.cluster cl).pins.any (fun e => e.2.valid && e.2.ppn.toNat == pa / 0x10000) then some pa else none
  | .lpddr pa => some pa
  | .mram pa => some pa
  | .table _ pa => some pa
  | _ => none

/-- R453: an error in a clean copy of a line, in an L1 or in a slice; one that has gone since counts as clean too. -/
def State.cleanAt (s : State) : ErrPlace → Bool
  | .l1 core pa => s.dirtyOwner pa != some core
  | .slice cl pa => (s.cluster cl).pins.all (fun e => !(e.2.valid && e.2.ppn.toNat == pa / 0x10000))
  | _ => false

/-- R453: a copy that every cached view shows is read from its home again, unless an L1 holds the line dirty. -/
def State.freshLine (s : State) (line : Nat) : State :=
  match alook line s.lines with
  | some l => if l.owner.isSome then s else
      { s with lines := aput line { l with data := (List.range 64).map (fun i => s.homeByte (64 * line + i)), tag := s.homeTag (64 * line) } s.lines }
  | none => s

/-- R453: a clean copy with an uncorrectable error is invalidated, and its line read from the home again: a line of host memory at the
next access that needs it, any other at once. -/
def State.refetch (s : State) : ErrPlace → State
  | .l1 core pa => if region pa = .host then s.evictL1 core (pa / 64) else s.freshLine (pa / 64)
  | .slice cl pa => if region pa = .host then s.evictL2 cl (pa / 64) else s.freshLine (pa / 64)
  | _ => s

/-- R454: whether a read of a place by a seat of a core consumes directly. -/
def readBySeat (core seat : Nat) : ErrPlace → Bool
  | .scratchpad c _ => c == core
  | .operand c _ _ => c == core
  | .accumulator c _ => c == core
  | .regfile c x _ _ => c == core && x == seat
  | .queue c => c == core
  | _ => false

/-- R455: the destinations of an instruction that has consumed: 0 in scalar registers, 0x7FC0_0000 in every element of run
registers and accumulators. -/
def State.consumeInto (s : State) (core x : Nat) (sd : List (BitVec 6)) (vd : List (BitVec 5)) (acc : List (BitVec 2)) : State :=
  let putS (m : Assoc SReg) (d : BitVec 6) : Assoc SReg := if d = 0 then m else aput d.toNat { aget sreg0 d.toNat m with val := 0 } m
  let nan (v : VReg) : VReg := { v with runs := [(qnan, v.rows * v.cols)] }
  let s : State := s.modSeat core x (fun t =>
    let rot := t.file.ctl.rot
    let putV (m : Assoc VReg) (d : BitVec 5) : Assoc VReg := aput (vphys rot d.toNat) (nan (aget vreg0 (vphys rot d.toNat) m)) m
    { t with file := { t.file with regs := { t.file.regs with s := sd.foldl putS t.file.regs.s, v := vd.foldl putV t.file.regs.v } } })
  acc.foldl (fun s a => s.modCore core (fun c => c.accNan a.toNat)) s

/-- R455: an engine's command ends where it has consumed an error. -/
def State.consumeEngine (s : State) (core id : Nat) : Op → Option State
  | .copy o => some (s.endCopy core id o o.total 0x40#32 0x52)
  | .mma o => some (s.modCore core (fun c => { c with ops := aput id (.mma { o with status := o.status ||| 4#32 }) c.ops }))
  | .kv o => some (s.kvEnd core id (o.fail (0x52#8, 0)))
  | .coll o => some (s.modCore core (fun c => { c with ops := aput id (.coll { o with ended := some 0x52 }) c.ops }))
  | _ => none

/-- R452 to R455, R461: what becomes of a detected error. -/
def State.detect (s : State) (e : ErrorEvent) : Option State :=
  let p := placeOf e.place
  let core := s.detector e.place
  let info := uncorrAddr p.1 core p.2
  let s' : State := { s with fresh := s.fresh + 1 }
  match e.kind with
  | .corrected => (match e.place with
    | .accumulator _ _ => none
    | _ => some (s'.logEvent core 1 info))
  | .cleanCopy => if s.cleanAt e.place then some (s.refetch e.place) else none
  | .poisoned => (s.poisons e.place).map (fun pa => (s'.poisonBlock pa).logEvent core 2 info)
  | .consumedBySeat c x sd vd acc =>
    if coreThere c && decide (x < 2) && (s.seatAt c x).run == .running && readBySeat c x e.place then
      let t := (s.seatAt c x).file.ctl
      let s := if !t.phaseEn && t.trapvec.extractLsb' 4 51 != 0 then s.consumeInto c x sd vd acc else s
      some (s.consume c x info)
    else none
  | .consumedByEngine c id => (match s.op c id with
    | some o => s.consumeEngine c id o
    | none => none)

/-- R452 to R455: ERROR_DETECTED. -/
def execErrorDetected (e : ErrorEvent) (s : State) : Host.Outcome State Fault Refusal :=
  dev "ERROR_DETECTED" (placeThere e.place) (s.detect e)

end Sys2Proof.Machine
end

