-- ==== Sys2Proof/Machine/Net.lean ====
section
/-! DEFINITION. The Ethernet ports and the time unit: the consumer of a received frame, wakes by a frame, links (R476, R500 to
R503). -/

namespace Sys2Proof.Machine

/-- R475, R476: the device starts to wake, for a cause; one that wakes already keeps its own. -/
def State.startWake (s : State) (cause : Nat) : State :=
  if s.power.state = 0 ∨ 2 < s.power.state ∨ s.power.waking = true then s else { s with power := { s.power with waking := true, wcause := cause } }

/-- R476: WAKEEN. -/
def State.wakeEnabled (s : State) (bit : Nat) : Bool := (s.ctlW 7 0x05000004).getLsbD bit

/-! Frames. -/

/-- A field of a frame, in network order. -/
def netField (b : List Byte) (off n : Nat) : Nat := ((b.drop off).take n).foldl (fun v x => v * 256 + x.toNat) 0

/-- R501: the EtherType that follows any 802.1Q tag, and where its payload starts. -/
def etherType (b : List Byte) : Nat × Nat := if netField b 12 2 = 0x8100 then (netField b 16 2, 18) else (netField b 12 2, 14)

/-- The addressing of an IPv4 UDP datagram that is whole or a first fragment: source, destination, port, and where its payload
starts. -/
def udpOf (b : List Byte) : Option (Nat × Nat × Nat × Nat) :=
  let e := etherType b
  let o := e.2
  let u := o + 4 * (netField b o 1 % 16)
  if e.1 = 0x0800 ∧ netField b o 1 / 16 = 4 ∧ netField b (o + 9) 1 = 17 ∧ netField b (o + 6) 2 % 8192 = 0 then
    some (netField b (o + 12) 4, netField b (o + 16) 4, netField b (u + 2) 2, u + 8)
  else none

/-- R510: whether a packet matches a path of a stream's descriptor. -/
def pathMatch (d : List Byte) (path src dst port pt : Nat) : Bool :=
  let f (o n : Nat) : Nat := pf d o n
  let want := if path = 0 then (f 0x24 4, f 0x28 4, f 0x2C 2) else (f 0x30 4, f 0x34 4, f 0x2E 2)
  (path == 0 || f 0x1C 1 != 0xFF) && dst == want.1 && (want.2.1 == 0 || src == want.2.1) && port == want.2.2 &&
  (f 0x38 1 == 0xFF || pt == f 0x38 1)

/-- R500: whether an open receive stream accepts a frame of a port. -/
def State.streamTakes (s : State) (port : Nat) (b : List Byte) : Bool :=
  match udpOf b with
  | none => false
  | some (src, dst, udp, o) => s.streams.any (fun e => decide (e.1 < 128) && e.2.isOpen && [0, 1].any (fun p =>
      pf e.2.desc (0x1B + p) 1 == port && pathMatch e.2.desc p src dst udp (netField b (o + 1) 1 % 128)))

/-- R500: whether a frame carries a PTP message, and of which type. -/
def ptpType (b : List Byte) : Option Nat :=
  let e := etherType b
  if e.1 = 0x88F7 then some (netField b e.2 1 % 16) else
  match udpOf b with
  | some (_, _, p, o) => if p = 319 ∨ p = 320 then some (netField b o 1 % 16) else none
  | none => none

/-- R503: the package's MAC address. -/
def State.ownMac (s : State) : List Byte := s.memberMac s.collSelf.toNat

/-- R500: the consumer of a frame: 0 the time unit, 1 the collective engine, 2 the media engines, 3 the management ring. -/
def State.consumer (s : State) (port : Nat) (b : List Byte) : Nat :=
  if (match ptpType b with
    | some t => decide (t < 8)
    | none => false) then 0
  else if (etherType b).1 = 0x88B5 ∧ b.take 6 = s.ownMac then 1
  else if s.streamTakes port b then 2
  else 3

/-- R501: whether wake filter f matches a frame of a port. -/
def State.filterHits (s : State) (port : Nat) (b : List Byte) (f : Nat) : Bool :=
  let a : Word := BitVec.ofNat 64 (s.ctlD (0x0200A000 + 16 * f))
  let v := (a.extractLsb' 0 48).toNat
  a.getLsbD 63 && (s.ctlD (0x0200A008 + 16 * f)).testBit port &&
  (match (a.extractLsb' 61 2).toNat with
   | 0 => (etherType b).1 == v % 65536
   | 1 => (match udpOf b with
      | some (_, _, p, _) => p == v % 65536
      | none => false)
   | 2 => netField b 0 6 == v
   | _ => false)

/-- R476: whether a frame wakes a device in LISTEN. -/
def State.frameWakes (s : State) (port : Nat) (b : List Byte) : Bool :=
  s.wakeEnabled 1 && (s.consumer port b == 1 || s.consumer port b == 2 || (List.range 16).any (s.filterHits port b))

/-- R500, R502: a frame goes to its consumer; an event message is timestamped on its way in. -/
def State.record (s : State) (port : Nat) (b : List Byte) : State :=
  let who := s.consumer port b
  { s with net := { s.net with
      delivered := s.net.delivered ++ [(who, port, b)]
      stamps := if who = 0 then s.net.stamps ++ [(port, s.time80)] else s.net.stamps } }

/-- R505: the fragment of a frame for the collective engine. -/
def State.frameFragment (s : State) (port : Nat) (b : List Byte) : Option CollFrag :=
  if s.consumer port b = 1 then readFragment (b.drop (etherType b).2) else none

/-- R500, R505: a frame is delivered, and the collective engine takes its fragment from it. -/
def State.deliver (s : State) (port : Nat) (b : List Byte) : State :=
  match s.frameFragment port b with
  | some f => (s.record port b).fragment f
  | none => s.record port b

def State.dropFrame (s : State) (port : Nat) : State :=
  { s with net := { s.net with dropped := aput port (aget 0 port s.net.dropped + 1) s.net.dropped } }

/-- R476: a port holds a frame during the wake, up to 2 MiB. -/
def State.holdFrame (s : State) (port : Nat) (b : List Byte) : State :=
  let used := ((s.net.wakeBuf.filter (fun e => e.1 == port)).map (fun e => e.2.length)).sum
  if used + b.length ≤ 0x200000 then { s with net := { s.net with wakeBuf := s.net.wakeBuf ++ [(port, b)] } } else s.dropFrame port

/-- R476, R500, R501: ETH_FRAME_RECEIVE. In LISTEN the time unit and the policy core are powered and take their frames. -/
def execEthFrameReceive (port : Nat) (frame : List (BitVec 8)) (s : State) : Host.Outcome State Fault Refusal :=
  dev "ETH_FRAME_RECEIVE" (decide (port < 16)) (
    if frame.length < 64 ∨ 9216 < frame.length then none
    else if s.power.state = 0 then (if (s.frameFragment port frame).isSome ∧ s.pinsQuiet = false then none else some (s.deliver port frame))
    else if s.power.state ≠ 1 then none
    else if s.power.waking then some (s.holdFrame port frame)
    else if s.frameWakes port frame then some ((s.startWake 2).holdFrame port frame)
    else if s.consumer port frame = 0 ∨ s.consumer port frame = 3 then some (s.deliver port frame)
    else some (s.dropFrame port))

/-! Links. -/

/-- R503: the collectives that wait for a link try again. -/
def State.retryColls (s : State) : State :=
  s.cores.foldl (fun (s : State) c => c.2.ops.foldl (fun (s : State) e => match e.2 with
    | .coll o => s.collGo c.1 e.1 o
    | _ => s) s) s

/-- R503: ETH_LINK_CHANGE; in DORMANT and OFF the ports have no power. -/
def execEthLinkChange (port : Nat) (up : Bool) (s : State) : Host.Outcome State Fault Refusal :=
  dev "ETH_LINK_CHANGE" (decide (port < 16)) (
    if up && decide (2 ≤ s.power.state) then none
    else some (({ s with net := { s.net with linkUp := aput port up s.net.linkUp } } : State).retryColls))

/-- R502: TUSTEP, by the policy core. -/
def State.tuStep (s : State) (v : Word) : State := { s with net := { s.net with timeOffset := s.net.timeOffset + v.toInt } }

def execTustep (v : BitVec 64) (s : State) : Host.Outcome State Fault Refusal := dev "TUSTEP" true (some (s.tuStep v))

end Sys2Proof.Machine
end

