-- ==== Sys2Proof/Machine/Media.lean ====
section
/-! DEFINITION. The media engines: stream packets, the placing of received data, the start, fill and close of frames, and
transmission (R508 to R518). -/

namespace Sys2Proof.Machine

/-! Fields of a stream's descriptor (R510) and of its buffers (R511). -/

def essOf (d : List Byte) : Nat := pf d 8 1
def sampOf (d : List Byte) : Nat := pf d 9 1
def depthOf (d : List Byte) : Nat := pf d 0x0A 1
def pixOf (d : List Byte) : Nat := pf d 0x0B 1
def widthOf (d : List Byte) : Nat := pf d 0x0C 2
def heightOf (d : List Byte) : Nat := pf d 0x0E 2
def pgrpOf (d : List Byte) : Nat := pf d 0x18 2
def recOf (d : List Byte) : Word := BitVec.ofNat 64 (pf d 0x40 8)
/-- Whether a second path is in use. -/
def dualOf (d : List Byte) : Bool := pf d 0x1C 1 != 0xFF

/-- R512, R517: the groups of a frame. -/
def groupsOf (d : List Byte) : Nat :=
  match essOf d with
  | 0 => (heightOf d + pgrpOf d - 1) / pgrpOf d
  | 1 => 1
  | _ => 0

/-- R512, R517: the lines of a video frame, the samples of an audio frame. -/
def frameLines (d : List Byte) : Nat :=
  match essOf d with
  | 0 => heightOf d
  | 1 => pgrpOf d
  | _ => 0

/-- R511: the planes of a line, and the bytes of its part in each. -/
def planesOf (d : List Byte) : Nat := if pixOf d = 0 then 1 else 3
def planeWidth (d : List Byte) (p : Nat) : Nat := if sampOf d = 0 ∧ p ≠ 0 then widthOf d / 2 else widthOf d
def planeBytes (d : List Byte) (p : Nat) : Nat :=
  match pixOf d with
  | 0 => packedBytes d
  | 1 => planeWidth d p
  | _ => 4 * planeWidth d p
def mediaTag (d : List Byte) : BitVec 16 :=
  match pixOf d with
  | 0 => 0
  | 1 => 0x7F20
  | _ => 0x7F01

/-- R511: the buffer of a slot, and a line of a plane in it. -/
def slotVa (b : List Byte) (slot : Nat) : Nat := pf b 8 8 + slot * pf b 0x10 8
def lineVa (b : List Byte) (slot p l : Nat) : Word := BitVec.ofNat 64 (slotVa b slot + p * pf b 0x1C 4 + l * pf b 0x18 4)

/-! Pixels (R511, RFC 4175). -/

/-- A field of w bits, the most significant first, at a bit of a byte string. -/
def netBits (raw : Nat → Byte) (i w : Nat) : Nat :=
  (List.range w).foldl (fun v j => 2 * v + (if (raw ((i + j) / 8)).getLsbD (7 - (i + j) % 8) then 1 else 0)) 0

/-- RFC 4175: the place of a component of a pixel among the components of its line: planes in the order Y, Cb, Cr or R, G, B. -/
def compAt (d : List Byte) (p x : Nat) : Nat :=
  match sampOf d, p with
  | 0, 0 => 4 * (x / 2) + (if x % 2 = 0 then 1 else 3)
  | 0, 1 => 4 * x
  | 0, _ => 4 * x + 2
  | 1, 0 => 3 * x + 1
  | 1, 1 => 3 * x
  | 1, _ => 3 * x + 2
  | _, _ => 3 * x + p

/-- R511: the bytes of a line in a plane, from the bytes of its pgroups. -/
def planeLine (d : List Byte) (raw : Nat → Byte) (p : Nat) : List Byte :=
  let code (x : Nat) : Nat := netBits raw (compAt d p x * depthOf d) (depthOf d)
  match pixOf d with
  | 0 => (List.range (packedBytes d)).map raw
  | 1 => (List.range (planeWidth d p)).map (fun x => BitVec.ofNat 8 (code x))
  | _ => (List.range (planeWidth d p)).flatMap (fun x => natToBytes 4 (Num.ofInt (code x)).toF32.1.toNat)

/-- R513: the components of a black line, and the bytes of its pgroups. -/
def blackComp (d : List Byte) (i : Nat) : Nat :=
  let luma := match sampOf d with
    | 0 => i % 2 == 1
    | _ => i % 3 == 1
  if sampOf d = 2 then 0 else (if luma then 16 else 128) * 2 ^ (depthOf d - 8)
def blackRaw (d : List Byte) (j : Nat) : Byte :=
  let w := depthOf d
  BitVec.ofNat 8 ((List.range 8).foldl (fun v i => 2 * v + (if (blackComp d ((8 * j + i) / w)).testBit (w - 1 - (8 * j + i) % w) then 1 else 0)) 0)

/-- R517: an audio sample in FP32. -/
def audioSample (depth v : Nat) : W32 :=
  let i : Int := if 2 ^ (depth - 1) ≤ v then (v : Int) - 2 ^ depth else v
  (Num.fin (decide (i < 0)) i.natAbs (1 - (depth : Int))).toF32.1

/-! The engines' accesses under the stream's ASID. -/

/-- R511: one whole block is written with its tag; a write that translation refuses is dropped. -/
def State.mediaBlock (s : State) (asid : BitVec 16) (va : Word) (bs : List Byte) (tag : BitVec 16) : State :=
  match s.engineAt engMedia asid false va true with
  | .error _ => s.engineFail engMedia asid false va true
  | .ok p =>
    let s := (s.markAt p true).engineWrite asid .engine p.pa bs
    if region p.pa = .host then s else s.wholeTag .through p.pa tag

/-- R511: bytes are written in whole blocks, the rest of the last as 0. -/
def State.mediaPut (s : State) (asid : BitVec 16) (va : Word) (bs : List Byte) (tag : BitVec 16) : State :=
  let n := (bs.length + 63) / 64
  let bs := bs ++ List.replicate (64 * n - bs.length) 0
  (List.range n).foldl (fun s i => s.mediaBlock asid (va + BitVec.ofNat 64 (64 * i)) ((bs.drop (64 * i)).take 64) tag) s

/-- R495: the reads of a stream. -/
def State.mediaRead (s : State) (k : Nat) (l : List (Word × Nat)) : Got :=
  let x := s.stream k
  s.engineReads engMedia x.asid (.stream k) x.hostOut x.hostData (fun t id => t.setStream k { x with hostOut := some id }) l

def State.modStream (s : State) (k : Nat) (f : Stream → Stream) : State := s.setStream k (f (s.stream k))

/-- R518: a counter of a stream rises. -/
def State.streamCount (s : State) (k c n : Nat) : State :=
  s.modStream k (fun x => { x with counters := aput c (aget 0 c x.counters + BitVec.ofNat 32 n) x.counters })

/-- R508, R512: a stream's timeline rises. -/
def State.streamRise (s : State) (k n : Nat) : State :=
  let y := s.tl (0x400 + k)
  (s.setTl (0x400 + k) { y with value := y.value + BitVec.ofNat 64 n }).mirror (0x400 + k)

/-! The close of a frame (R513 to R515). -/

/-- R513: the missing lines or samples. -/
def MediaFrame.missing (f : MediaFrame) (d : List Byte) : List Nat := (List.range (frameLines d)).filter (fun l => !f.arrived.contains l)

/-- R514: whether a path has lost packets: of the sequence numbers from the lowest to the highest that the frame has seen, some
have not come on it. -/
def pathLost (all mine : List (BitVec 16)) : Bool :=
  match all with
  | [] => false
  | b :: _ =>
    let offs := all.map (fun q => (q - b).toInt)
    let lo := offs.foldl min 0
    let hi := offs.foldl max 0
    (List.range (hi - lo + 1).toNat).any (fun i => !mine.contains (b + BitVec.ofInt 16 (lo + i)))

/-- R513: the fill of one line of a plane: from the previous record's buffer, or black. -/
def State.fillMissing (s : State) (k : Nat) (x : Stream) (f : MediaFrame) (l p : Nat) : Got :=
  let d := x.desc
  let put (s : State) (bs : List Byte) : Got := .got (s.mediaPut x.asid (lineVa f.buffers f.slot p l) bs (mediaTag d)) []
  let black : List Byte := planeLine d (blackRaw d) p
  match pf d 0x1A 1, x.lastRec with
  | 0, some (slot, b) =>
    (match s.mediaRead k (cut64 (planeBytes d p / 64 + 2) (lineVa b slot p l) (planeBytes d p)) with
      | .got t bs => put t bs
      | .waits t => .waits t
      | .fault _ => put s black)
  | 2, _ => .got s []
  | _, _ => put s black

/-- R513: the fills of the missing lines. -/
def State.fillAll (s : State) (k : Nat) (x : Stream) (f : MediaFrame) : List (Nat × Nat) → Got
  | [] => .got s []
  | (l, p) :: r => match s.fillMissing k x f l p with
    | .got t _ => t.fillAll k x f r
    | g => g

/-- R513: the loss map as a run list, and whether it is coarse. -/
def lossMap (h : Nat) (miss : List Nat) : VReg × Bool :=
  let rows := (h + 63) / 64
  let fine : Runs := ofElems ((List.range (64 * rows)).map (fun i => if miss.contains i then (1#32 : W32) else 0))
  let coarse : Runs := ofElems ((List.range (64 * rows)).map (fun i => if miss.any (fun l => l / 64 == i / 64) then (1#32 : W32) else 0))
  if fine.length ≤ 1024 then ({ vreg0 with rows := rows, cols := 64, runs := fine }, false)
  else ({ vreg0 with rows := rows, cols := 64, runs := coarse }, true)

/-- The write of a frame's record; one that translation refuses is dropped. -/
def State.mediaWrite (s : State) (asid : BitVec 16) (va : Word) (bs : List Byte) : State :=
  match s.engineAt engMedia asid false va true with
  | .ok p => (s.markAt p true).engineWrite asid .engine p.pa bs
  | .error _ => s.engineFail engMedia asid false va true

/-- R171, R513: TAIL rises by an atomic addition, which recalls its line; the host's is asked for it. -/
def State.mediaTail (s : State) (asid : BitVec 16) (va : Word) : State :=
  match s.engineAt engMedia asid false va true with
  | .ok p =>
    let s := s.markAt p true
    if region p.pa = .host then
      s.hostRequest { asid := asid, use := .engine, addr := p.pa, size := 4, write := false, data := natToBytes 8 1, amo := some .add }
    else
      let s := s.writeBack (p.pa / 64)
      s.engineBytes p.pa (natToBytes 4 (s.viewNat p.pa 4 + 1))
  | .error _ => s.engineFail engMedia asid false va true

/-- R513, R514: the record of a frame, TAIL, and what the timeline is owed. -/
def State.writeRecord (s : State) (k : Nat) (x : Stream) (f : MediaFrame) (miss : List Nat) (coarse : Bool) (map : Nat) : State :=
  let d := x.desc
  let loss := !miss.isEmpty
  let bit (b : Bool) (i : Nat) : Nat := if b then 2 ^ i else 0
  let all := f.seqA ++ f.seqB
  let filled := loss && (essOf d == 1 || pf d 0x1A 1 != 2)
  let flags := bit loss 0 + bit filled 1 + bit coarse 2 + bit (pathLost all f.seqA) 3 + bit (dualOf d && pathLost all f.seqB) 4
  let n := s.fresh
  let free (m : Nat) : List Byte := (List.range m).map (fun i => Config.freeByte (n + i))
  let bytes := natToBytes 4 f.number ++ natToBytes 2 flags ++ natToBytes 1 f.slot ++ natToBytes 1 0 ++
    (match f.ts with
      | some t => natToBytes 4 t.toNat
      | none => free 4) ++ natToBytes 2 miss.length ++ natToBytes 2 0 ++
    (if f.firstTime.isEmpty then (free 14).drop 4 else f.firstTime) ++ natToBytes 6 0 ++ s.time80 ++ natToBytes 6 0 ++ natToBytes 8 map ++
    natToBytes 8 0
  let s : State := { s with fresh := n + 14 }
  let s := s.mediaWrite x.asid (BitVec.ofNat 64 (x.recBase + 64 * f.slot)) bytes
  let s := s.mediaTail x.asid (recOf d + 0x0C)
  let s := s.modStream k (fun y => { y with lastRec := some (f.slot, f.buffers) })
  let s := s.streamRise k (groupsOf d - f.groups + 1)
  if loss then ((s.recordBit (0x400 + k) 28).streamCount k 5 1).raiseVector 48 else s

/-- R513, R515, R517: the oldest open frame closes; the fill from a buffer in host memory takes reads of its own. -/
def State.closeHead (s : State) (k : Nat) : Got :=
  let x := s.stream k
  let d := x.desc
  let leave (s : State) : Got := .got (s.modStream k (fun y => { y with frames := y.frames.drop 1, hostOut := none, hostData := [] })) []
  match x.frames with
  | [] => .got s []
  | f :: _ =>
    let miss := f.missing d
    if f.skipped then leave ((s.streamRise k (groupsOf d + 1)).recordBit (0x400 + k) 28)
    else match essOf d with
      | 0 =>
        (match s.fillAll k x f (miss.flatMap (fun l => (List.range (planesOf d)).map (fun p => (l, p)))) with
          | .got t _ =>
            let m := lossMap (heightOf d) miss
            let at_ := pf d 0x48 8 + 8256 * f.slot
            let t := if miss.isEmpty then t else t.mediaPut x.asid (BitVec.ofNat 64 at_) (runListBytes m.1) 0x7F40
            leave (t.writeRecord k x f miss (m.2 && !miss.isEmpty) (if miss.isEmpty then 0 else at_))
          | g => g)
      | 1 =>
        let w := depthOf d / 8
        let samples := (List.range (pgrpOf d)).flatMap (fun i => (List.range (widthOf d)).flatMap (fun c =>
          natToBytes 4 (if miss.contains i then 0 else
            (audioSample (depthOf d) (netBits (fun j => aget 0 (65536 * i + j) f.raw) (8 * w * c) (8 * w))).toNat)))
        leave ((s.mediaPut x.asid (BitVec.ofNat 64 (slotVa f.buffers f.slot)) samples 0x7F01).writeRecord k x f miss false 0)
      | _ =>
        leave ((s.mediaPut x.asid (BitVec.ofNat 64 (slotVa f.buffers f.slot)) (f.raw.map (fun (e : Nat × Byte) => e.2)) 0).writeRecord k x f [] false 0)

/-- R512: the groups of the oldest frame that have come complete rise in order; a frame whose every line has come closes, and the
next is the oldest. -/
def State.streamAdvance (k : Nat) : Nat → State → State
  | 0, s => s
  | fuel + 1, s =>
    let x := s.stream k
    let d := x.desc
    match x.frames with
    | [] => s
    | f :: r =>
      if f.skipped || essOf d == 2 then s else
      let whole (g : Nat) : Bool := if essOf d = 1 then (f.missing d).isEmpty else
        (List.range (pgrpOf d)).all (fun i => decide (heightOf d ≤ g * pgrpOf d + i) || f.arrived.contains (g * pgrpOf d + i))
      if f.groups < groupsOf d ∧ whole f.groups = true then
        State.streamAdvance k fuel ((s.modStream k (fun y => { y with frames := { f with groups := f.groups + 1 } :: r })).streamRise k 1)
      else if (f.missing d).isEmpty then (match s.closeHead k with
        | .got t _ => State.streamAdvance k fuel t
        | _ => s)
      else s

/-- Enough rounds for every group and frame that stands open. -/
def State.advance (s : State) (k : Nat) : State :=
  let x := s.stream k
  State.streamAdvance k (x.frames.length * (groupsOf x.desc + 1)) s

/-! Rows of the receive side. -/

/-- R515: FRAME_START. An audio stream's frames follow its first packet. -/
def execFrameStart (stream : Nat) (s : State) : Host.Outcome State Fault Refusal :=
  dev "FRAME_START" (decide (stream < 128)) (
    let x := s.stream stream
    let d := x.desc
    if !x.isOpen || !s.pinsQuiet || x.hostOut.isSome || (essOf d == 1 && x.anchor.isNone && x.nextFrame != 0) then none else
    let start (s : State) (skip : Bool) (slot : Nat) : State :=
      let f : MediaFrame :=
        { number := x.nextFrame, skipped := skip, slot := slot, buffers := x.buffers, ts := none, firstTime := [], raw := [], arrived := [],
          groups := 0, seqA := [], seqB := [] }
      let s := s.modStream stream (fun y => { y with frames := y.frames ++ [f], nextFrame := (y.nextFrame + 1) % 2 ^ 32, hostOut := none, hostData := [] })
      if skip then (s.streamCount stream 4 1).raiseVector 48 else s
    if x.buffers.isEmpty || s.power.state != 0 then some (start s true 0) else
    match s.mediaRead stream (cut64 2 (recOf d + 0x0C) 8) with
    | .waits t => some t
    | .fault _ => some (start s true 0)
    | .got t b =>
      let open_ := (x.frames.filter (fun f => !f.skipped)).length
      let ahead := (pf b 0 4 + 2 ^ 32 - pf b 4 4) % 2 ^ 32
      if ahead = 2 ^ x.log2n then some (start t true 0) else some (start t false ((pf b 0 4 + open_) % 2 ^ x.log2n)))

/-- R513: FRAME_DEADLINE: the oldest open frame closes. -/
def execFrameDeadline (stream : Nat) (s : State) : Host.Outcome State Fault Refusal :=
  dev "FRAME_DEADLINE" (decide (stream < 128)) (
    let x := s.stream stream
    if !x.isOpen || !s.pinsQuiet || x.frames.isEmpty || x.hostOut.isSome || (essOf x.desc == 1 && x.anchor.isNone) then none else
    match s.closeHead stream with
    | .got t _ => some (t.advance stream)
    | .waits t => some t
    | .fault _ => none)

/-- R510: the number of the frame that a timestamp lies in. -/
def Stream.frameOf (x : Stream) (ts : W32) : Option Int :=
  match x.anchor with
  | none => none
  | some (n, t) =>
    let dt := (ts - t).toInt
    let d := x.desc
    some (n + (if essOf d = 1 then dt / (pgrpOf d : Int)
      else (2 * dt * pf d 0x10 4 + 90000 * pf d 0x14 4) / (2 * 90000 * (pf d 0x14 4 : Int))))

/-- Puts bytes into a map from an index on. -/
def putRaw (m : Assoc Byte) : Nat → List Byte → Assoc Byte
  | _, [] => m
  | i, b :: r => putRaw (aput i b m) (i + 1) r

/-- R511: a part of a line; a line that is complete lands whole. -/
def State.placePart (s : State) (x : Stream) (f : MediaFrame) (q : Nat × Nat × List Byte) : State × MediaFrame :=
  let d := x.desc
  let l := q.1
  if heightOf d ≤ l ∨ f.arrived.contains l = true then (s, f) else
  let pg := pgroup d
  let f := { f with raw := putRaw f.raw (65536 * l + q.2.1 / pg.1 * pg.2) q.2.2 }
  if (List.range (packedBytes d)).all (fun i => (alook (65536 * l + i) f.raw).isSome) then
    let raw (i : Nat) : Byte := aget 0 (65536 * l + i) f.raw
    ((List.range (planesOf d)).foldl (fun (s : State) p => s.mediaPut x.asid (lineVa f.buffers f.slot p l) (planeLine d raw p) (mediaTag d)) s,
     { f with arrived := l :: f.arrived, raw := f.raw.filter (fun e => e.1 / 65536 != l) })
  else (s, f)

/-- R512: a packet's data goes to the open frame with a number; the first packet leaves its timestamp and time. -/
def State.placeIn (s : State) (k : Nat) (n : Nat) (path : Nat) (pkt : RtpPacket) : State :=
  let x := s.stream k
  let d := x.desc
  match x.frames.find? (fun f => f.number == n) with
  | none => s
  | some f =>
    let f := { f with
      ts := match f.ts with
        | some t => some t
        | none => some pkt.ts
      firstTime := if f.firstTime.isEmpty then s.time80 else f.firstTime
      seqA := if path = 0 then f.seqA ++ [pkt.seqNo] else f.seqA
      seqB := if path = 0 then f.seqB else f.seqB ++ [pkt.seqNo] }
    let r : State × MediaFrame :=
      if f.skipped then (s, f) else
      match essOf d with
      | 0 => pkt.parts.foldl (fun (a : State × MediaFrame) q => a.1.placePart x a.2 q) (s, f)
      | 1 =>
        let w := widthOf d * (depthOf d / 8)
        let bytes := pkt.parts.flatMap (fun q => q.2.2)
        (s, (List.range (bytes.length / w)).foldl (fun (f : MediaFrame) i =>
          match x.frameOf (pkt.ts + BitVec.ofNat 32 i) with
          | some m =>
            let at_ := match x.anchor with
              | some (n0, t0) => ((pkt.ts + BitVec.ofNat 32 i - t0).toInt - (m - n0) * pgrpOf d).toNat
              | none => 0
            if m = n ∧ f.arrived.contains at_ = false then
              { f with raw := putRaw f.raw (65536 * at_) ((bytes.drop (w * i)).take w), arrived := at_ :: f.arrived }
            else f
          | none => f) f)
      | _ => (s, { f with raw := putRaw f.raw f.raw.length (pkt.parts.flatMap (fun q => q.2.2)) })
    r.1.modStream k (fun y => { y with frames := y.frames.map (fun g => if g.number = n then r.2 else g) })

/-- R510: the frames that a packet's data lies in. -/
def Stream.framesOf (x : Stream) (pkt : RtpPacket) : List Int :=
  let d := x.desc
  let last : W32 := if essOf d = 1 then
      pkt.ts + BitVec.ofNat 32 ((pkt.parts.flatMap (fun q => q.2.2)).length / (widthOf d * (depthOf d / 8)) - 1)
    else pkt.ts
  match x.frameOf pkt.ts, x.frameOf last with
  | some a, some b => (List.range (b - a + 1).toNat).map (fun (i : Nat) => a + (i : Int))
  | _, _ => []

/-- R510, R512, R513, R518: an accepted packet; none while it belongs to a frame that has not started. -/
def State.rtp (s : State) (k path : Nat) (pkt : RtpPacket) : Option State :=
  let x := s.stream k
  let s := s.streamCount k path 1
  if dualOf x.desc && x.seen.contains pkt.seqNo then
    let note (f : MediaFrame) : MediaFrame :=
      if (f.seqA ++ f.seqB).contains pkt.seqNo then
        (if path = 0 then { f with seqA := f.seqA ++ [pkt.seqNo] } else { f with seqB := f.seqB ++ [pkt.seqNo] })
      else f
    some ((s.modStream k (fun y => { y with frames := y.frames.map note })).streamCount k 2 1)
  else
    let anchor : Option (Nat × W32) := match x.anchor, x.frames.getLast? with
      | some a, _ => some a
      | none, some f => some (f.number, pkt.ts)
      | none, none => none
    let x := { x with anchor := anchor }
    match (x.framesOf pkt).getLast? with
    | none => none
    | some last =>
      if (x.nextFrame : Int) ≤ last then none else
      let s := s.modStream k (fun y => { y with anchor := anchor, seen := (pkt.seqNo :: y.seen).take 32768 })
      let ns := ((x.framesOf pkt).filter (fun n => x.frames.any (fun f => (f.number : Int) == n))).map Int.toNat
      if ns.isEmpty then some (s.streamCount k 3 1) else
      let s : State := ns.foldl (fun (s : State) n => s.placeIn k n path pkt) s
      -- the anchor follows the newest frame, so that timestamps stay near it
      let s := s.modStream k (fun y => { y with anchor := match y.anchor with
        | some (n, t) =>
          (if essOf y.desc = 1 then some (last.toNat, t + BitVec.ofInt 32 ((last - n) * pgrpOf y.desc))
           else if (n : Int) < last then some (last.toNat, pkt.ts) else some (n, t))
        | none => none })
      some (s.advance k)

/-- R512: RTP_PACKET_RECEIVE. -/
def execRtpPacketReceive (stream path : Nat) (pkt : RtpPacket) (s : State) : Host.Outcome State Fault Refusal :=
  dev "RTP_PACKET_RECEIVE" (decide (stream < 128 ∧ path < 2)) (
    let x := s.stream stream
    if !x.isOpen || !s.pinsQuiet || s.power.state != 0 || x.hostOut.isSome ||
      !pathMatch x.desc path pkt.srcIp.toNat pkt.dstIp.toNat pkt.udpPort.toNat (pkt.payloadType.toNat % 128) then none
    else s.rtp stream path pkt)

/-! Stream packets (R509, R511, R515, R516). -/

/-- R509: a check that needs memory has failed after dispatch: the packet completes, and the queue stops. -/
def State.mediaFail (s : State) (slot : Nat) (h : HwSlot) (b : List Byte) (c : BitVec 8) (reason : Nat) : State :=
  (s.dispatchDone slot b).queueError slot h.rptr c reason (pktTag b)

/-- R127: whether an engine may access a range, page by page. -/
def State.rangeOk (s : State) (asid : BitVec 16) (w : Bool) (v : Word) (n : Nat) : Except Cause Unit :=
  (segs v n).foldlM (fun _ g => (s.engineAt engMedia asid false g.1 w).map (fun _ => ())) ()

/-- R509: a STREAM packet's row takes packets of its own operation. -/
def streamRow (row : String) (slot op : Nat) (f : HwSlot → List Byte → State → Option State) (s : State) :
    Host.Outcome State Fault Refusal :=
  dispatchRow row slot 9 (fun h b s => if pf b 4 1 = op then f h b s else none) s

/-- R509, R510: OPEN. -/
def execOpen (slot : Nat) (s : State) : Host.Outcome State Fault Refusal :=
  streamRow "OPEN" slot 0 (fun h b s =>
    match s.feRead slot (cut64 2 (recOf b) 32) with
    | .waits t => some t
    | .fault c => some (s.mediaFail slot h b c.1 0)
    | .got t r =>
      if !ringOk (recOf b) r 1 4 64 then some (t.mediaFail slot h b 0x3E 0xD) else
      match t.rangeOk h.asid true (BitVec.ofNat 64 (pf b 0x48 8)) (if streamKey b < 128 ∧ essOf b = 0 then 8256 * 2 ^ pf r 8 1 else 0) with
      | .error c => some (t.mediaFail slot h b c.1 0)
      | .ok _ =>
        let x : Stream := { Stream.reset with
          isOpen := true, desc := b, queue := h.qnum, asid := h.asid, recBase := pf r 0 8, log2n := pf r 8 1
          counters := (t.stream (streamKey b)).counters }
        some ((t.setStream (streamKey b) x).dispatchDone slot b)) s

/-- R511: whether every line of every slot may be accessed. -/
def State.buffersOk (s : State) (k : Nat) (x : Stream) (b : List Byte) : Except Cause Unit :=
  let d := x.desc
  let w := decide (k < 128)
  let ranges (i : Nat) : List (Word × Nat) := match essOf d with
    | 0 => (List.range (planesOf d)).map (fun p => (lineVa b i p 0, (heightOf d - 1) * pf b 0x18 4 + (planeBytes d p + 63) / 64 * 64))
    | 1 => [(BitVec.ofNat 64 (slotVa b i), (4 * widthOf d * pgrpOf d + 63) / 64 * 64)]
    | _ => [(BitVec.ofNat 64 (slotVa b i), 64)]
  ((List.range (2 ^ x.log2n)).flatMap ranges).foldlM (fun _ r => s.rangeOk x.asid w r.1 r.2) ()

/-- R511: BUFFERS. -/
def execBuffers (slot : Nat) (s : State) : Host.Outcome State Fault Refusal :=
  streamRow "BUFFERS" slot 2 (fun h b s =>
    let k := streamKey b
    match s.buffersOk k (s.stream k) b with
    | .error c => some (s.mediaFail slot h b c.1 0)
    | .ok _ => some ((s.modStream k (fun x => { x with buffers := b })).dispatchDone slot b)) s

/-- R515: the open frames close, one after another. -/
def State.closeAll (k : Nat) : Nat → State → Got
  | 0, s => .got s []
  | fuel + 1, s => match s.closeHead k with
    | .got t _ => State.closeAll k fuel t
    | g => g

/-- R515: CLOSE; a transmit stream first sends what is queued. -/
def execClose (slot : Nat) (s : State) : Host.Outcome State Fault Refusal :=
  streamRow "CLOSE" slot 1 (fun _ b s =>
    let k := streamKey b
    let x := s.stream k
    if !x.sends.isEmpty || !s.pinsQuiet || x.hostOut.isSome then none else
    match State.closeAll k x.frames.length s with
    | .got t _ => some ((t.setStream k { Stream.reset with counters := (t.stream k).counters }).dispatchDone slot b)
    | .waits t => some t
    | .fault _ => none) s

/-- R516: SEND. -/
def execSend (slot : Nat) (s : State) : Host.Outcome State Fault Refusal :=
  streamRow "SEND" slot 3 (fun _ b s =>
    let id := s.fe.nextPacket
    some ((s.dispatch slot b false none []).modStream (streamKey b) (fun x => { x with sends := x.sends ++ [(pf b 8 1, id)] }))) s

/-- R516: the lines of a slot as they are sent; one that cannot be read is empty. -/
def State.sentLines (s : State) (k : Nat) : List (Word × Nat) → State × Option (List (List Byte))
  | [] => (s, some [])
  | (v, n) :: r =>
    let go (t : State) (b : List Byte) : State × Option (List (List Byte)) :=
      let q := t.sentLines k r
      (q.1, q.2.map (fun l => b :: l))
    match s.mediaRead k (cut64 (n / 64 + 2) v n) with
    | .got t b => go t b
    | .fault _ => go s []
    | .waits t => (t, none)

/-- R516: FRAME_TRANSMIT: the oldest queued frame is sent on its ports; how many packets it takes is not stated, nor how many bytes an
ancillary frame has. -/
def execFrameTransmit (stream : Nat) (s : State) : Host.Outcome State Fault Refusal :=
  dev "FRAME_TRANSMIT" (decide (128 ≤ stream ∧ stream < 160)) (
    let x := s.stream stream
    let d := x.desc
    if !x.isOpen || s.power.state != 0 || x.hostOut.isSome then none else
    match x.sends with
    | [] => none
    | (slot, id) :: r =>
      let lines : List (Word × Nat) := if x.buffers.isEmpty then [] else match essOf d with
        | 0 => (List.range (heightOf d)).flatMap (fun l => (List.range (planesOf d)).map (fun p => (lineVa x.buffers slot p l, planeBytes d p)))
        | 1 => [(BitVec.ofNat 64 (slotVa x.buffers slot), 4 * widthOf d * pgrpOf d)]
        | _ => [(BitVec.ofNat 64 (slotVa x.buffers slot), Config.ancillaryBytes stream id)]
      match s.sentLines stream lines with
      | (t, none) => some t
      | (t, some ls) =>
        let n := t.fresh
        let ports := pf d 0x1B 1 :: (if dualOf d then [pf d 0x1C 1] else [])
        let t := t.streamCount stream 0 (Config.freeW32 n).toNat
        let t := if dualOf d then t.streamCount stream 1 (Config.freeW32 n).toNat else t
        let t := t.modStream stream (fun y => { y with sends := r, hostOut := none, hostData := [] })
        let t : State := { t with fresh := n + 1, net := { t.net with mediaSent := t.net.mediaSent ++ [(stream, ports, slot, ls)] } }
        let t := t.streamRise stream (groupsOf d + 1)
        some (match alook id t.fe.packets with
          | some p =>
            let p := { p with done := true }
            let t : State := { t with fe := { t.fe with packets := aput id p t.fe.packets } }
            if t.packetReady id p then t.finishPacket id p else t
          | none => t))

end Sys2Proof.Machine
end

