-- ==== Sys2Proof/Machine/Power.lean ====
section
/-! DEFINITION. Tiles that go to sleep and wake, the device states, temperature and power caps, power loss and the wake after it
(R470 to R483, R489). -/

namespace Sys2Proof.Machine

/-! Tiles (R470, R471). -/

/-- R471: whether a tile is idle; a core that a scan runs on, or that a migration is to use, is not. -/
def State.tileIdle (s : State) (core : Nat) : Bool :=
  let c := s.core core
  !(s.seatAt core 0).busy && !(s.seatAt core 1).busy && c.stopping.isNone && !s.scanning core &&
  (match s.fe.migBusy with
    | some (_, t) => t != core
    | none => true) &&
  c.ops.all (fun o => match o.2 with
    | .copy _ => false
    | .mma _ => false
    | .accst _ => false
    | .accWrite _ => false
    | _ => true)

/-- R471: TILE_IDLE_RET. -/
def execTileIdleRet (core : Nat) (s : State) : Host.Outcome State Fault Refusal :=
  dev "TILE_IDLE_RET" (coreThere core) (
    if (s.core core).tile = .on ∧ s.tileIdle core = true then some (s.modCore core (fun c => { c with tile := .ret })) else none)

/-- R471: whether the scratchpad holds the window of a suspended bound continuation. -/
def State.windowKept (s : State) (core : Nat) : Bool :=
  let keeps (c : Cont) : Bool := c.bound && c.susp != 0 && c.home == core
  !(s.core core).suspended.isEmpty ||
  s.dies.any (fun d => d.2.waits.any (fun w => keeps w.2.cont) || d.2.pool.any (fun e => match e.item with
    | .record c => keeps c
    | .frame _ => false))

/-- R471: what keeps a tile out of OFF. -/
def State.keptOn (s : State) (core : Nat) : Bool :=
  let c := s.core core
  s.windowKept core || c.leaf.any (fun l => l.2.link.isSome) || c.slots.any (fun o => o.2.state != .free)

/-- R470: a tile in OFF holds nothing; whether it tripped and what its sensor reads do not belong to what it holds. -/
def State.tileOff (s : State) (core : Nat) (tripped : Bool) : State :=
  let c := s.core core
  let s := s.setCore core { Core.reset with
    tripped := tripped, throttled := c.throttled
    ops := c.ops.filter (fun o => o.2.isEngine)
    opLent := c.opLent.filter (fun e => c.ops.any (fun o => o.1 == e.1 && o.2.isEngine))
    stopping := match c.stopping with
      | some (.preempt _ _ _) => none
      | x => x }
  s.sliceOff (clusterOf core)

/-- R472: IDLEOFF of a die. -/
def State.idleOff (s : State) (d : Nat) : Nat := ((s.ctlW 0x03E80032#32 (dieBlock d + 0x000A0000)).extractLsb' 16 16).toNat

/-- R94, R471: TILE_IDLE_OFF: the dirty lines are written back first. -/
def execTileIdleOff (core : Nat) (s : State) : Host.Outcome State Fault Refusal :=
  dev "TILE_IDLE_OFF" (coreThere core) (
    let c := s.core core
    if c.tile = .ret ∧ s.tileIdle core = true ∧ s.keptOn core = false ∧ s.idleOff (dieOf core) ≠ 0 then
      some ((s.emptyL1 core).tileOff core false)
    else none)

/-- R470: TILE_WAKE_COMPLETE; the compute dies have power in ACTIVE only (R474). -/
def execTileWakeComplete (core : Nat) (s : State) : Host.Outcome State Fault Refusal :=
  dev "TILE_WAKE_COMPLETE" (coreThere core) (
    match (s.core core).tile with
    | .wakingRet => some (s.modCore core (fun c => { c with tile := .on }))
    | .wakingOff => if s.power.state = 0 then some (s.modCore core (fun c => { c with tile := .on })) else none
    | _ => none)

/-! Temperature and the cap (R477 to R479). -/

/-- R478: THERMAL_WARN. -/
def execThermalWarn (core : Nat) (s : State) : Host.Outcome State Fault Refusal :=
  dev "THERMAL_WARN" (coreThere core) (some (s.raisePower 0))

/-- R478: THERMAL_THROTTLE. -/
def execThermalThrottle (core : Nat) (s : State) : Host.Outcome State Fault Refusal :=
  dev "THERMAL_THROTTLE" (coreThere core) (
    if (s.core core).throttled then none else some ((s.modCore core (fun c => { c with throttled := true })).raisePower 1))

/-- R478: THROTTLE_END. -/
def execThrottleEnd (core : Nat) (s : State) : Host.Outcome State Fault Refusal :=
  dev "THROTTLE_END" (coreThere core) (
    if (s.core core).throttled then some (s.modCore core (fun c => { c with throttled := false })) else none)

/-- R430 mark F, R439, R478: THERMAL_TRIP: every context of the tile ends, and the tile goes OFF without write-back. -/
def execThermalTrip (core : Nat) (s : State) : Host.Outcome State Fault Refusal :=
  dev "THERMAL_TRIP" (coreThere core) (
    if (s.core core).tile = .off then none else
    -- the context of a shadow is its primary's
    let end_ (s : State) (x : Nat) : State := if !(s.seatAt core x).busy then s else match (s.seatAt core x).pair with
      | some (n, false) => s.fatal n x 0x5A
      | _ => s.fatal core x 0x5A
    let s := end_ (end_ s 0) 1
    let s := ((s.loseL1 core).tileOff core true).raisePower 2
    some { s with power := { s.power with tripCount := if s.power.tripCount = 255 then 255 else s.power.tripCount + 1 } })

/-- R478: TRIPPED_TILE_COOLED. -/
def execTrippedTileCooled (core : Nat) (s : State) : Host.Outcome State Fault Refusal :=
  dev "TRIPPED_TILE_COOLED" (coreThere core) (
    if (s.core core).tripped then some (s.modCore core (fun c => { c with tripped := false })) else none)

/-- R479: POWER_CAP. -/
def execPowerCap (s : State) : Host.Outcome State Fault Refusal :=
  dev "POWER_CAP" true (if s.power.capped then none else
    let s := s.raisePower 3
    some { s with power := { s.power with capped := true } })

/-- R479: POWER_CAP_RELEASE. -/
def execPowerCapRelease (s : State) : Host.Outcome State Fault Refusal :=
  dev "POWER_CAP_RELEASE" true (if s.power.capped then some { s with power := { s.power with capped := false } } else none)

/-! Device states (R474 to R476). -/

/-- R475: whether a request for LISTEN or DORMANT is refused. -/
def State.sleepRefused (s : State) (target : Nat) : Bool :=
  s.cores.any (fun c => c.2.tile != .off) || !s.fe.packets.isEmpty || s.dies.any (fun d => !d.2.bte.isEmpty) ||
  s.cores.any (fun c => c.2.ops.any (fun o => match o.2 with
    | .coll _ => true
    | _ => false)) ||
  s.resole.txs.any (fun t => t.2.state == 2) || !s.resole.applying.isEmpty ||
  (target == 2 && s.streams.any (fun x => x.2.isOpen))

/-- R475: a write of TARGET by the policy core. -/
def State.setTarget (s : State) (target : Nat) : State :=
  if target = 3 then s
  else if target = 0 then ({ s with power := { s.power with target := 0 } } : State).startWake 4
  else if s.sleepRefused target then { s with power := { s.power with err := true } }
  else
    let s : State := { s with power := { s.power with target := target, state := target, waking := false } }
    if target = 2 then { s with net := { s.net with linkUp := [] } } else s

/-- R475: the rows of DEVCTL's TARGET; a device that is OFF has no power. -/
def targetRow (row : String) (t : Nat) (s : State) : Host.Outcome State Fault Refusal :=
  dev row true (if s.power.state = 3 then none else some (s.setTarget t))

def execTargetActive (s : State) : Host.Outcome State Fault Refusal := targetRow "TARGET_ACTIVE" 0 s
def execTargetListen (s : State) : Host.Outcome State Fault Refusal := targetRow "TARGET_LISTEN" 1 s
def execTargetDormant (s : State) : Host.Outcome State Fault Refusal := targetRow "TARGET_DORMANT" 2 s

/-- R476: WALARM in nanoseconds. -/
def State.alarmNs (s : State) : Nat := s.ctlD 0x05000008 / 2 ^ 32 * 1000000000 + s.ctlD 0x05000008 % 2 ^ 32

/-- R476: ALARM: the time unit has reached WALARM. -/
def execAlarm (s : State) : Host.Outcome State Fault Refusal :=
  dev "ALARM" true (
    if (s.power.state = 1 ∨ s.power.state = 2) ∧ s.wakeEnabled 2 = true ∧ s.ctlD 0x05000008 ≠ 0 ∧ s.alarmNs ≤ s.ptpNs then some (s.startWake 3)
    else none)

/-! Power loss (R480, R482). -/

/-- R480: the control words that are NV: ASIDTB, SCANCNT, QMASK, RETIRED and TOPOMASK. -/
def nvWord (w : Nat) : Bool :=
  let off := 4 * w
  let die := off % 0x10000000
  (0x00F00000 ≤ off && off < 0x00F00008) || (0x00F03100 ≤ off && off < 0x00F03138) ||
  (0x10000000 ≤ off && ((0x00090200 ≤ die && die < 0x00090390) || (0x00090400 ≤ die && die < 0x00090420)))

/-- R36, R474: the bytes of device memory that survive OFF: those of the MRAM. -/
def nvByte (pa : Nat) : Bool := region pa == .mram || region pa == .journal

/-- R215, R480: a pool record that survives. -/
def durable (e : PoolEntry) : Bool :=
  match e.item with
  | .record c => c.dur
  | .frame _ => false

/-- R480: the PC and the scalar registers of the seats that hold a continuation; before the first wake after a loss, those of that loss
too. -/
def State.seatsLost (s : State) : Assoc (BitVec 51 × Assoc SReg) :=
  (s.seats.filter (fun e => e.2.busy)).foldl (fun m e => aput e.1 (e.2.pc, e.2.file.regs.s) m) s.power.nvSeats

/-- R215, R480, R483 item 5: the records of a die that survive: those of its pool, and those that wait, which come back to it. -/
def Die.durables (d : Die) : List PoolEntry :=
  d.pool.filter durable ++ (d.waits.filter (fun w => w.2.cont.dur)).map (fun w => { id := w.1, item := .record w.2.cont })

/-- R480, R482: what is left of the device. -/
def State.powerLoss (s : State) : State :=
  { State.reset with
    dies := (s.dies.map (fun d => (d.1, { Die.reset with pool := d.2.durables }))).filter (fun d => !d.2.pool.isEmpty)
    mem := s.mem.filter (fun c => nvByte c.1)
    tags := s.tags.filter (fun t => nvByte (64 * t.1))
    poison := s.poison.filter (fun t => nvByte (64 * t.1))
    ctl := s.ctl.filter (fun c => nvWord c.1)
    fe := { FrontEnd.reset with
      slots := s.fe.slots.map (fun e => (e.1, { HwSlot.reset with qcb := e.2.qcb, state := e.2.state, mirrorRptr := e.2.mirrorRptr }))
      kick := s.fe.kick, kpend := s.fe.kpend, owner := s.fe.owner, packets := s.fe.packets, nextPacket := s.fe.nextPacket
      entries := s.fe.entries, timelines := s.fe.timelines, lcid := s.fe.lcid, nextPool := s.fe.nextPool }
    resole := s.resole
    topo := { Topo.reset with gen := s.topo.gen, hidden := s.topo.hidden, mode := s.topo.mode }
    power := { Power.reset with state := 3, tripCount := s.power.tripCount, lost := true, nvSeats := s.seatsLost, lossArea := s.power.lossArea }
    sec := { Security.reset with rollctr := s.sec.rollctr, attest := s.sec.attest, active := s.sec.active, images := s.sec.images }
    net := { Net.reset with delivered := s.net.delivered, sent := s.net.sent, mediaSent := s.net.mediaSent }
    host := { HostPort.reset with messages := s.host.messages, replies := s.host.replies }
    fresh := s.fresh
    nextOp := s.nextOp
    agenda := s.agenda
    focus := s.focus }

/-- R482: POWER_LOSS. -/
def execPowerLoss (s : State) : Host.Outcome State Fault Refusal :=
  dev "POWER_LOSS" true (if s.power.state = 3 then none else some s.powerLoss)

/-! The wake (R483, R489). -/

/-- R483 item 2: an outstanding packet completes with POWER_ABORT. -/
def State.abortPacket (s : State) (id : Nat) (p : Packet) : State :=
  ((s.recordFault p.qnum 0x57 p.tag).recordBit p.qnum 27).finishPacket id { p with fault := none }

/-- R489: a journal whose commit record was not written is discarded. -/
def ResoleTx.afterLoss (t : ResoleTx) : ResoleTx :=
  if t.state = 1 ∨ t.state = 2 ∨ t.state = 5 then { t with state := 4, reason := 8, pages := [], lines := [], committer := none } else t

/-- R210, R483 item 5: the records of durable pools name no launch any more. -/
def PoolItem.afterLoss : PoolItem → PoolItem
  | .record c => .record { c with tag := (c.tag &&& 0xFFFFFFFFFFFFF800#64) ||| 0x7FF#64 }
  | .frame f => .frame f

/-- R260, R483 item 1: a queue that was mapped and had not stopped parks, and its mirror says so. -/
def State.parkLost (s : State) (k : Nat) : State :=
  let h := s.slotAt k
  if h.state = 1 ∨ h.state = 2 then (s.setSlot k (h.enter 3)).mirrorRptr k true else s

/-- R483, R489: the recovery at the first wake after a power loss. -/
def State.recover (s : State) : State :=
  let s : State := (s.fe.slots.map (·.1)).foldl State.parkLost s
  let s : State := s.fe.packets.foldl (fun (s : State) e => s.abortPacket e.1 e.2) s
  let s : State := { s with
    fe := { s.fe with entries := [] }
    resole := { s.resole with txs := s.resole.txs.map (fun e => (e.1, e.2.afterLoss)) }
    dies := s.dies.map (fun d => (d.1, { d.2 with pool := d.2.pool.map (fun e => { e with item := e.item.afterLoss }) }))
    power := { s.power with lost := false, nvSeats := [], lossArea := s.power.nvSeats.foldl (fun m e => aput e.1 e.2 m) s.power.lossArea } }
  let s : State := (s.resole.txs.map (·.1)).foldl State.putHeader s
  -- R473: what the returned records wake
  let s : State := s.dies.foldl (fun (s : State) d => d.2.pool.foldl (fun (s : State) e =>
    if s.itemUnplaceable e.item then s else s.wakeFor e.item.level e.item.home e.id) s) s
  s.reportPools

/-- R476, R477, R483, R497: WAKE_COMPLETE: the held frames go to their consumers, and the held accesses of the host are next. -/
def execWakeComplete (s : State) : Host.Outcome State Fault Refusal :=
  dev "WAKE_COMPLETE" true (
    if s.power.waking = false ∨ (!s.net.wakeBuf.isEmpty && !s.pinsQuiet) = true then none else
    let s : State := { s with power := { s.power with state := 0, waking := false } }
    let s := if s.power.lost then s.recover else s
    let frames := s.net.wakeBuf
    let s : State := { s with net := { s.net with wakeBuf := [] } }
    let s : State := frames.foldl (fun (s : State) f => s.deliver f.1 f.2) s
    let s := (s.raisePower 4).raiseVector 52
    some s.resumeHeld)

end Sys2Proof.Machine
end

