-- ==== Sys2Proof/Machine/Xmss.lean ====
section
/-! DEFINITION. XMSS-SHAKE256_20_256 (R24, R526, R530): the hash SHAKE256 with 32 bytes, the verification of a signature and its
production. The spec names the scheme; its steps are those of the published standard (assumption log entry 151). -/

namespace Sys2Proof.Machine

/-! SHAKE256. -/

/-- The lanes of the sponge's state, x + 5 y. -/
abbrev Lanes := List (BitVec 64)

def laneTurns : List Nat := [0, 1, 62, 28, 27, 36, 44, 6, 55, 20, 3, 10, 43, 25, 39, 41, 45, 15, 21, 8, 18, 2, 61, 56, 14]
def roundWords : List (BitVec 64) :=
  [0x0000000000000001#64, 0x0000000000008082#64, 0x800000000000808A#64, 0x8000000080008000#64, 0x000000000000808B#64, 0x0000000080000001#64,
   0x8000000080008081#64, 0x8000000000008009#64, 0x000000000000008A#64, 0x0000000000000088#64, 0x0000000080008009#64, 0x000000008000000A#64,
   0x000000008000808B#64, 0x800000000000008B#64, 0x8000000000008089#64, 0x8000000000008003#64, 0x8000000000008002#64, 0x8000000000000080#64,
   0x000000000000800A#64, 0x800000008000000A#64, 0x8000000080008081#64, 0x8000000000008080#64, 0x0000000080000001#64, 0x8000000080008008#64]

/-- The five steps of a round. -/
def mixColumns (a : Lanes) : Lanes :=
  let c := (List.range 5).map (fun x => (List.range 5).foldl (fun v y => v ^^^ nth 0 (x + 5 * y) a) 0)
  (List.range 25).map (fun i => nth 0 i a ^^^ nth 0 ((i + 4) % 5) c ^^^ (nth 0 ((i + 1) % 5) c).rotateLeft 1)
def turnLanes (a : Lanes) : Lanes :=
  (List.range 25).map (fun i =>
    let k := (i % 5 + 3 * (i / 5)) % 5 + 5 * (i % 5)
    (nth 0 k a).rotateLeft (nth 0 k laneTurns))
def mixRows (a : Lanes) : Lanes :=
  (List.range 25).map (fun i =>
    let beside (d : Nat) : BitVec 64 := nth 0 ((i + d) % 5 + 5 * (i / 5)) a
    nth 0 i a ^^^ (~~~(beside 1) &&& beside 2))
def keccakRound (a : Lanes) (w : BitVec 64) : Lanes :=
  match mixRows (turnLanes (mixColumns a)) with
  | [] => []
  | x :: r => (x ^^^ w) :: r

def keccak (a : Lanes) : Lanes := roundWords.foldl keccakRound a

/-- The bytes of a message with the padding of SHAKE256, in blocks of 136. -/
def shakePad (m : List Byte) : List Byte :=
  let n := 135 - m.length % 136
  m ++ (if n = 0 then [0x9F] else 0x1F :: (List.replicate (n - 1) 0 ++ [0x80]))

def absorb (a : Lanes) (block : List Byte) : Lanes :=
  keccak ((List.range 25).map (fun i => nth 0 i a ^^^ BitVec.ofNat 64 (bytesToNat ((block.drop (8 * i)).take 8))))

/-- SHAKE256 of a message, 32 bytes of it. -/
def shake256 (m : List Byte) : List Byte :=
  let p := shakePad m
  let a := (chunks 136 (p.length / 136) p).foldl absorb (List.replicate 25 0)
  (a.take 4).flatMap (fun w => natToBytes 8 w.toNat)

/-! The functions of the scheme. -/

/-- A number as bytes, the highest first. -/
def bigBytes (n v : Nat) : List Byte := (natToBytes n v).reverse
def xorBytes (a b : List Byte) : List Byte := (a.zip b).map (fun e => e.1 ^^^ e.2)

/-- A hash address: the type and the last four of the eight words; a tree of one layer leaves the others 0. -/
structure HashAddr where
  type : Nat
  w4 : Nat
  w5 : Nat
  w6 : Nat
  deriving DecidableEq, Repr

def HashAddr.bytes (a : HashAddr) (mask : Nat) : List Byte :=
  bigBytes 12 0 ++ bigBytes 4 a.type ++ bigBytes 4 a.w4 ++ bigBytes 4 a.w5 ++ bigBytes 4 a.w6 ++ bigBytes 4 mask

def xmssPrf (key m : List Byte) : List Byte := shake256 (bigBytes 32 3 ++ key ++ m)
/-- One step of a chain. -/
def chainStep (seed x : List Byte) (a : HashAddr) : List Byte :=
  shake256 (bigBytes 32 0 ++ xmssPrf seed (a.bytes 0) ++ xorBytes x (xmssPrf seed (a.bytes 1)))
/-- The parent of two nodes. -/
def nodeHash (seed l r : List Byte) (a : HashAddr) : List Byte :=
  shake256 (bigBytes 32 1 ++ xmssPrf seed (a.bytes 0) ++ xorBytes (l ++ r) (xmssPrf seed (a.bytes 1) ++ xmssPrf seed (a.bytes 2)))
def messageHash (rand root : List Byte) (idx : Nat) (m : List Byte) : List Byte :=
  shake256 (bigBytes 32 2 ++ rand ++ root ++ bigBytes 32 idx ++ m)

/-- n steps of a chain of a leaf from a step on. -/
def chainFrom (seed : List Byte) (leaf chain : Nat) (x : List Byte) (first n : Nat) : List Byte :=
  (List.range n).foldl (fun x j => chainStep seed x { type := 0, w4 := leaf, w5 := chain, w6 := first + j }) x

/-- The 67 digits of a hash: its nibbles and those of their checksum. -/
def wotsDigits (h : List Byte) : List Nat :=
  let d := h.flatMap (fun b => [b.toNat / 16, b.toNat % 16])
  let c := (d.map (15 - ·)).sum
  d ++ [c / 256 % 16, c / 16 % 16, c % 16]

/-- One level of the tree over the ends of a leaf's chains. -/
def pairLevel (seed : List Byte) (leaf h : Nat) : Nat → List (List Byte) → List (List Byte)
  | i, l :: r :: rest => nodeHash seed l r { type := 1, w4 := leaf, w5 := h, w6 := i } :: pairLevel seed leaf h (i + 1) rest
  | _, l => l
def leafTree (seed : List Byte) (leaf : Nat) : Nat → Nat → List (List Byte) → List Byte
  | 0, _, l => l.headD []
  | fuel + 1, h, l => if l.length ≤ 1 then l.headD [] else leafTree seed leaf fuel (h + 1) (pairLevel seed leaf h 0 l)

/-- The root that a leaf's node and its path of 20 nodes give. -/
def rootFrom (seed : List Byte) (idx : Nat) (node : List Byte) (path : List (List Byte)) : List Byte :=
  ((List.range path.length).zip path).foldl (fun x e =>
    let a : HashAddr := { type := 2, w4 := 0, w5 := e.1, w6 := idx / 2 ^ (e.1 + 1) }
    if (idx / 2 ^ e.1) % 2 = 0 then nodeHash seed x e.2 a else nodeHash seed e.2 x a) node

/-- R526: whether a signature of 2,820 bytes is one of a message under a public key of a root and a seed. -/
def xmssVerify (key m sig : List Byte) : Bool :=
  let root := key.take 32
  let seed := (key.drop 32).take 32
  let idx := bytesToNat ((sig.take 4).reverse)
  let h := messageHash ((sig.drop 4).take 32) root idx m
  let ends := ((List.range 67).zip (wotsDigits h)).map (fun e =>
    chainFrom seed idx e.1 ((sig.drop (36 + 32 * e.1)).take 32) e.2 (15 - e.2))
  let path := (List.range 20).map (fun k => (sig.drop (2180 + 32 * k)).take 32)
  sig.length == 2820 && decide (idx < 2 ^ 20) && rootFrom seed idx (leafTree seed idx 7 0 ends) path == root

/-! The device's own signatures (R530). The secret of each chain and the seed are the part's own; the randomizer is drawn for each. -/

def attestSeed : List Byte := (List.range 32).map Config.attestSeed
def attestSecret (leaf chain : Nat) : List Byte := (List.range 32).map (Config.attestSecret leaf chain)

def attestLeaf (leaf : Nat) : List Byte :=
  leafTree attestSeed leaf 7 0 ((List.range 67).map (fun c => chainFrom attestSeed leaf c (attestSecret leaf c) 0 15))

/-- A node of the tree at a height. -/
def attestNode : Nat → Nat → List Byte
  | 0, i => attestLeaf i
  | h + 1, i => nodeHash attestSeed (attestNode h (2 * i)) (attestNode h (2 * i + 1)) { type := 2, w4 := 0, w5 := h, w6 := i }

/-- R530: the signature of a message with a leaf and a randomizer of 32 bytes. -/
def attestSign (leaf : Nat) (rand m : List Byte) : List Byte :=
  let rand := (List.range 32).map (fun i => nth 0 i rand)
  let h := messageHash rand (attestNode 20 0) leaf m
  bigBytes 4 leaf ++ rand ++
  ((List.range 67).zip (wotsDigits h)).flatMap (fun e => chainFrom attestSeed leaf e.1 (attestSecret leaf e.1) 0 e.2) ++
  (List.range 20).flatMap (fun k => attestNode k (if (leaf / 2 ^ k) % 2 = 0 then leaf / 2 ^ k + 1 else leaf / 2 ^ k - 1))

end Sys2Proof.Machine
end

