-- ==== Sys2Proof/Machine/Security.lean ====
section
/-! DEFINITION. The security unit: the boot, its commands and the attestation report (R526 to R530). -/

namespace Sys2Proof.Machine

/-! The boot (R527). -/

/-- A byte of the tightly coupled memory, held by words at its window in control space (R263). -/
def State.tcmByte (s : State) (off : Nat) : Byte :=
  let o := 0x01000000 + off / 4 * 4
  (aget (Config.tcmWord (o / 4)) (o / 4) s.ctl).extractLsb' (off % 4 * 8) 8
def State.putTcm (s : State) (off : Nat) (b : Byte) : State :=
  let o := 0x01000000 + off / 4 * 4
  let w := aget (Config.tcmWord (o / 4)) (o / 4) s.ctl
  s.setCtlW o ((w &&& ~~~(0xFF#32 <<< (off % 4 * 8))) ||| (b.zeroExtend 32 <<< (off % 4 * 8)))

/-- R526: a field of an image's header: the magic and the SVN are 4 and 2 bytes wide. -/
def headerField (img : List Byte) (k : Nat) : Nat :=
  bytesToNat ((img.drop (Config.headerAt k)).take (match k with
    | 0 => 4
    | 1 => 2
    | _ => Config.headerWidth k))

/-- R526: an image's code, and its size: the header, the code and the signature. -/
def imageCode (img : List Byte) : List Byte := (img.drop 64).take (headerField img 2)
def imageSize (img : List Byte) : Nat := 64 + headerField img 2 + 2820

/-- R526: whether a key is the vendor's: 64 bytes whose hash is the one that the boot ROM holds. -/
def vendorKey (key : List Byte) : Bool := key.length == 64 && shake256 key == (List.range 32).map Config.vendorKeyHash

/-- R526, R527: whether an image is accepted under a key: its SVN, or the code of its rejection as BOOTSTAT gives it. One whose magic or load
address is another, or that is longer than a slot or than its bytes, is malformed (the model's choice: log entry 113). -/
def imageVerdict (key img : List Byte) (rollctr : BitVec 16) : Except Nat (BitVec 16) :=
  let n := 64 + headerField img 2
  if headerField img 0 ≠ 0x4B5A4657 ∨ headerField img 3 ≠ 0 ∨ 0x38000 < imageSize img ∨ img.length < imageSize img then .error 3
  else if (vendorKey key && xmssVerify key (img.take n) ((img.drop n).take 2820)) = false then .error 1
  else if headerField img 1 < rollctr.toNat then .error 2
  else .ok (BitVec.ofNat 16 (headerField img 1))

/-- R526: what an image slot holds. -/
def State.slotImage (s : State) (k : Nat) : List Byte := aget ((List.range 0x38000).map (Config.factoryImage k)) k s.sec.images

/-- R498: HAP0 as the security unit enables it. -/
def State.openAperture (s : State) : State := (s.setCtlW 0x00F80020 0).setCtlW 0x00F80024 0x80000000#32

/-- R527: an image's code is loaded into the tightly coupled memory from address 0 on. -/
def State.loadTcm (s : State) (img : List Byte) : State :=
  ((List.range (imageCode img).length).zip (imageCode img)).foldl (fun (s : State) e => s.putTcm e.1 e.2) s

/-- R527: firmware runs from a slot's image. -/
def State.boot (s : State) (slot : Nat) (svn : BitVec 16) (reason : Nat) : State :=
  let img := s.slotImage slot
  let t := s.loadTcm img
  { t with sec := { s.sec with booted := true, bootOk := true, slot := slot, svn := svn, reason := reason, running := img.take (imageSize img) } }

/-- R475, R527: COLD_START: the slot marked active first, then the other, each under the key presented for it. -/
def State.coldStart (s : State) (keyA keyB : List Byte) : State :=
  let s : State := { s with power := { s.power with state := 2, target := 2, wcause := 5, waking := false } }
  let check (k : Nat) : Except Nat (BitVec 16) := imageVerdict (if k = 0 then keyA else keyB) (s.slotImage k) s.sec.rollctr
  let a := s.sec.active
  match check a with
  | .ok v => s.boot a v 0
  | .error e => match check (1 - a) with
    | .ok v => s.boot (1 - a) v e
    | .error _ => ({ s with sec := { s.sec with booted := true, bootOk := false, reason := 4 } } : State).openAperture

def execColdStart (keyA keyB : List (BitVec 8)) (s : State) : Host.Outcome State Fault Refusal :=
  dev "COLD_START" true (if s.sec.booted then none else some (s.coldStart keyA keyB))

/-! Commands (R529). -/

def State.secSrc (s : State) : Nat := s.ctlD 0x04000000
def State.secDst (s : State) : Nat := s.ctlD 0x04000008

/-- R526, R530: how many bytes at SECSRC a command reads: the request of ATTEST; of an image its header, and then as many as that names,
up to a slot. -/
def SecCmd.needs (c : SecCmd) (got : List Byte) : Nat :=
  if c.cmd = 3 then 64 else if c.cmd = 1 then (if got.length < 64 then 64 else Nat.min 0x38000 (imageSize got)) else 0

/-- R495: the unit asks the host for the rest of what it reads there. -/
def State.secAsk (s : State) (c : SecCmd) : State :=
  match c.request with
  | none => { s with sec := { s.sec with busy := some c } }
  | some b =>
    let pa := s.secSrc + b.length
    if region s.secSrc = .host ∧ b.length < c.needs b then
      let r : HostReq := { asid := 0, use := .sec, addr := pa, size := hostChunk pa (c.needs b - b.length), write := false, data := [] }
      let id := s.host.nextReq
      let s := s.hostRequest r
      { s with sec := { s.sec with busy := some { c with hostOut := some id } } }
    else { s with sec := { s.sec with busy := some { c with hostOut := none } } }

/-- R529: a write of SECCMD; one while a command runs is ignored. ATTEST takes its leaf at once (R530). -/
def State.secCommand (s : State) (cmd : Nat) : State :=
  if s.sec.busy.isSome then s
  else if cmd = 0 ∨ 4 < cmd then { s with sec := { s.sec with result := 5 } }
  else
    let c : SecCmd := { cmd := cmd, leaf := s.sec.attest, request := some [], hostOut := none }
    if cmd = 3 ∧ s.sec.attest < 2 ^ 20 then
      ({ s with sec := { s.sec with attest := s.sec.attest + 1 } } : State).secAsk c
    else if cmd = 1 then s.secAsk c
    else { s with sec := { s.sec with busy := some c } }

def execInstall (s : State) : Host.Outcome State Fault Refusal := dev "INSTALL" true (some (s.secCommand 1))
def execAdvance (s : State) : Host.Outcome State Fault Refusal := dev "ADVANCE" true (some (s.secCommand 2))
def execAttest (s : State) : Host.Outcome State Fault Refusal := dev "ATTEST" true (some (s.secCommand 3))
def execTcmopen (s : State) : Host.Outcome State Fault Refusal := dev "TCMOPEN" true (some (s.secCommand 4))

/-- R495: the host has completed the unit's read. -/
def State.secHostDone (s : State) (data : Option (List Byte)) : State :=
  match s.sec.busy with
  | none => s
  | some c => match data, c.request with
    | some bs, some b => s.secAsk { c with request := some (b ++ bs), hostOut := none }
    | _, _ => { s with sec := { s.sec with busy := some { c with request := none, hostOut := none } } }

/-- R524: DEVID. -/
def devId : Word := 0x4B53040001000100#64

/-- R530: the report before its signature. -/
def State.report (s : State) (leaf : Nat) (request : List Byte) : List Byte :=
  natToBytes 8 devId.toNat ++ natToBytes 2 s.sec.svn.toNat ++ natToBytes 2 s.sec.rollctr.toNat ++ natToBytes 4 leaf ++
  shake256 s.sec.running ++ (List.range 16).flatMap (fun m => natToBytes 4 (s.mverOf m).toNat) ++ request

/-- n bytes at SECSRC: those that the host has given, or those of the device's memory; none where a part of it may not be read. -/
def State.secRead (s : State) (c : SecCmd) (n : Nat) : Option (List Byte) :=
  if region s.secSrc = .host then c.request.map (fun b => b.take n) else
  let at_ (i : Nat) : Except Cause EngAt := s.engineAt engFront 0 true (BitVec.ofNat 64 (s.secSrc + i)) false
  match at_ 0, at_ (n - 1) with
  | .ok p, .ok _ => some (s.engineRead p n)
  | _, _ => none

/-- R530: the end of an ATTEST: the report and its signature are written at SECDST, or the command is rejected where memory refuses it. -/
def State.attestEnd (s : State) (c : SecCmd) (rand : List Byte) : State × Nat :=
  if 2 ^ 20 ≤ c.leaf then (s, 4) else
  match s.secRead c 64, s.engineAt engFront 0 true (BitVec.ofNat 64 s.secDst) true, s.engineAt engFront 0 true (BitVec.ofNat 64 (s.secDst + 2995)) true with
  | some b, .ok _, .ok _ =>
    let r := s.report c.leaf b
    (s.engineWrite 0 .engine s.secDst (r ++ attestSign c.leaf rand r), 0)
  | _, _, _ => (s, 5)

/-- R526, R529: the image at SECSRC. -/
def State.secImage (s : State) (c : SecCmd) : Option (List Byte) :=
  (s.secRead c 64).bind (fun h => s.secRead c (c.needs h))

/-- R527, R529: the end of an INSTALL: the image stands in the inactive slot, which is active from now on; without firmware it
boots. An image that cannot be read is rejected. -/
def State.installEnd (s : State) (c : SecCmd) (key : List Byte) : State × Nat :=
  match s.secImage c with
  | none => (s, 5)
  | some img =>
    match imageVerdict key img s.sec.rollctr with
    | .error e => (s, e)
    | .ok svn =>
      let slot := 1 - s.sec.active
      let s : State := { s with sec := { s.sec with active := slot, images := aput slot img s.sec.images } }
      (if s.sec.bootOk then s else s.boot slot svn s.sec.reason, 0)

/-- R529: SECURITY_COMMAND_COMPLETE. -/
def execSecurityCommandComplete (key rand : List (BitVec 8)) (s : State) : Host.Outcome State Fault Refusal :=
  dev "SECURITY_COMMAND_COMPLETE" true (match s.sec.busy with
    | none => none
    | some c =>
      if c.hostOut.isSome then none else
      let r : State × Nat := match c.cmd with
        | 1 => s.installEnd c key
        | 2 => ({ s with sec := { s.sec with rollctr := if s.sec.rollctr.toNat ≤ s.sec.svn.toNat then s.sec.svn else s.sec.rollctr } }, 0)
        | 3 => s.attestEnd c rand
        | _ => ({ s with sec := { s.sec with tcmOpen := !s.sec.tcmOpen } }, 0)
      some { r.1 with sec := { r.1.sec with busy := none, result := r.2 } })

end Sys2Proof.Machine
end

