-- ==== Sys2Proof/Machine/Ctl.lean ====
section
/-! DEFINITION. Device control space: what every register reads as, who may write it, and what a write does (R12, R14, R37 to
R39, and the register tables of every chapter; R549 for writes of halves). -/

namespace Sys2Proof.Machine

def lo32 (w : Word) : W32 := w.extractLsb' 0 32
def hi32 (w : Word) : W32 := w.extractLsb' 32 32
/-- A half of a 64-bit value: the high one at an offset that is 4 above a multiple of 8. -/
def half (off : Nat) (w : Word) : W32 := if off % 8 = 0 then lo32 w else hi32 w
/-- A half of a 64-bit value replaced. -/
def setHalf (off : Nat) (w : Word) (v : W32) : Word := if off % 8 = 0 then hi32 w ++ v else v ++ lo32 w

/-! Registers that hold what is written to them. -/

/-- The registers of a compute die's die units that only hold a value: whether only the policy core writes them, the bits they
have, and the Reset value. -/
def dieReg (o : Nat) : Option (Bool × W32 × W32) :=
  if o = 0x80004 then some (true, 0xFFFF, 100)
  else if o = 0x80010 then some (true, 0xFFFFFFC0, 0)
  else if o = 0x80014 then some (true, 0xFFFF, 0)
  else if 0x90400 ≤ o ∧ o < 0x9040C then some (true, 0xFFFFFFFF, 0)
  else if o = 0x9040C then some (true, 0xF, 0)
  else if 0x90600 ≤ o ∧ o < 0x90790 then some (true, 0x800001FF, 0)
  else if o = 0xA1000 then some (true, 0xFFFFFFFF, 0)
  else if o = 0xA1004 then some (true, 0xF, 0)
  else none

/-- The same of the I/O die's registers. -/
def ioReg (o : Nat) : Option (Bool × W32 × W32) :=
  if o < 0x00400000 then none
  else if o < 0x00400080 then some (true, if o % 8 = 0 then 0xFFFFFFFF else 0xFF, 0)
  else if o = 0x00401004 then some (false, 0x3FF, 0)
  else if o = 0x00F00000 ∨ o = 0x00F00100 then some (false, 0xFFFF0001, 0)
  else if o = 0x00F00004 ∨ o = 0x00F00104 ∨ o = 0x00F0010C then some (false, 0xFFFF, 0)
  else if 0x00F00008 ≤ o ∧ o < 0x00F00018 then some (false, 0xFFFFFFFF, 0)
  else if o = 0x00F00108 then some (false, 0xFFFFFFC0, 0)
  else if 0x00F03100 ≤ o ∧ o < 0x00F03130 then some (true, 0xFFFFFFFF, 0xFFFFFFFF)
  else if o = 0x00F03130 then some (true, 0xFFFF, 0xFFFF)
  else if 0x00F03200 ≤ o ∧ o < 0x00F03280 then some (true, 0xFFFFFFFF, 0)
  else if o = 0x00F80004 then some (false, 0xFFFFFF, 10000)
  else if 0x00F81000 ≤ o ∧ o < 0x00F81400 then
    (match o % 16 with
      | 0 => some (false, 0xFFFFFFFC, 0)
      | 4 => some (false, 0x7FFF, 0)
      | 8 => some (false, 0xFFFFFFFF, 0)
      | _ => none)
  else if 0x02000000 ≤ o ∧ o < 0x02004000 then some (true, if o % 16 < 8 then 0xFFFFFFFF else if o % 16 = 8 then 1 else 0, 0)
  else if 0x02008000 ≤ o ∧ o < 0x02008800 then
    some (false, if o % 32 = 0 then 0x1FFFF else if 8 ≤ o % 32 ∧ o % 32 < 24 then 0xFFFFFFFF else 0, 0)
  else if 0x0200A000 ≤ o ∧ o < 0x0200A100 ∧ o % 16 = 8 then some (true, 0xFFFF, 0)
  else if o = 0x0200F000 then some (true, 0x3FF, 0)
  else if o = 0x0200F004 then some (false, 7, 3)
  else if o = 0x0300F000 then some (false, 0xFFFFFFFF, 0)
  else if 0x04000000 ≤ o ∧ o < 0x04000010 then some (true, 0xFFFFFFFF, 0)
  else if o = 0x05000004 then some (true, 7, 7)
  else if o = 0x05000008 ∨ o = 0x0500000C then some (true, 0xFFFFFFFF, 0)
  else if o = 0x05000014 then some (true, 0x3F, 0)
  else if o = 0x05000020 then some (true, 0xFFF, 2100)
  else none

/-- The same of a register at an offset of control space. -/
def plainReg (off : Nat) : Option (Bool × W32 × W32) :=
  if off < 0x10000000 then ioReg off
  else if off < 0x50000000 then (if off % 0x10000000 < 0x1000000 then dieReg (off % 0x10000000) else none)
  else none

/-! Reads. -/

/-- R524, R528, R548: the identification page. -/
def State.readId (s : State) (off : Nat) : W32 :=
  let rec_ : Word := match off / 8 * 8 with
    | 0x100 => 0x0000010800010001
    | 0x108 => 0x0000011000010002
    | 0x110 => 0x0000011800010003
    | 0x118 => 0x0000012000010004
    | 0x120 => 0x0000000000010005
    | 0 => devId
    | 0x10 => (if s.sec.bootOk then 0x8000000000000000#64 else 0) ||| BitVec.ofNat 64 (s.sec.slot * 2 ^ 62 + s.sec.reason * 2 ^ 48 +
        s.sec.svn.toNat * 65536 + s.sec.rollctr.toNat)
    | _ => 0
  half off rec_

/-- R242: a word of a hardware slot's block. -/
def State.readSlot (s : State) (k r : Nat) : W32 :=
  let h := s.slotAt k
  if r < 0x80 then BitVec.ofNat 32 (h.field r 4)
  else if r = 0x108 then
    BitVec.ofNat 32 ((if h.cmdErr then 2 ^ 31 else 0) + (if h.mapErr then 2 ^ 30 else 0) + h.block * 256 + h.state)
  else 0

/-- R257: a word of a timeline's block. -/
def State.readTl (s : State) (t r : Nat) : W32 :=
  let x := s.tl t
  match r with
  | 0 => lo32 x.value
  | 4 => hi32 x.value
  | 8 => lo32 x.cert
  | 0xC => hi32 x.cert
  | 0x10 => x.fault
  | 0x14 => BitVec.ofNat 32 (if t < 1024 then (s.outstanding t).length else 0)
  | _ => 0

/-- R461, R507: a word of a log of 16 entries, of which the list holds the latest. -/
def logWord (l : List (List W32)) (count r : Nat) : W32 :=
  let first := count - l.length
  let n := (List.range l.length).find? (fun i => (first + i) % 16 == r / 16)
  match n with
  | some i => nth 0 (r / 4 % 4) (nth [] i l)
  | none => 0

/-- R137, R229 to R231, R262, R465: the front end's other registers. -/
def State.readFe (s : State) (off : Nat) : W32 :=
  if off = 0x00401000 then s.fe.fwirq
  else if off = 0x00401008 then BitVec.ofNat 32 (s.fe.pktInfo.toNat * 65536 + s.fe.poolInfo.toNat)
  else if off = 0x00F00020 then s.fe.tlbiDone ++ (if s.fe.tlbiErr then 1#16 else 0#16)
  else if off = 0x00F00024 then s.fe.tlbiIssued.zeroExtend 32
  else if 0x00F01000 ≤ off ∧ off < 0x00F01640 then s.lcidEntry ((off - 0x00F01000) / 4)
  else if off = 0x00F02008 then s.fe.migDone
  else if off = 0x00F0200C then (if s.fe.migBusy.isSome then 0x80000000#32 else 0) ||| (s.fe.migOutcome ++ 0#29 : BitVec 31).zeroExtend 32
  else if off = 0x00F03000 then s.topo.mode.zeroExtend 32
  else if off = 0x00F03004 then if s.topo.err then 0x40000000#32 else 0
  else 0

/-- R263, R498: the mailbox and the host port. -/
def State.readPort (s : State) (off : Nat) : W32 :=
  if 0x01040000 ≤ off ∧ off < 0x01040080 then
    BitVec.ofNat 32 (bytesToNat ((List.range 4).map (fun i => aget 0 (off - 0x01040000 + i) s.host.mailbox)))
  else if off = 0x01040080 then s.host.h2f
  else if off = 0x01040084 then s.host.f2h
  else if off = 0x00F80000 then
    BitVec.ofNat 32 ((if s.host.modules = 0 then 0 else 2 ^ 31) + s.host.modules * 65536 + Nat.min s.host.replay 65535)
  else if off = 0x00F80008 ∨ off = 0x00F8000C then (match s.host.err with
    | some (a, h) => half off (BitVec.ofNat 64 (2 ^ 63 + a.toNat * 2 ^ 47 + h % 2 ^ 47))
    | none => 0)
  else if 0x00F80020 ≤ off ∧ off < 0x00F80040 then s.ctlW 0 off
  else if 0x00F81000 ≤ off ∧ off < 0x00F81400 ∧ off % 16 = 12 then
    (s.ctlW 0 off &&& 1) ||| (if (alook ((off - 0x00F81000) / 16) s.host.hivtPend).isSome then 2 else 0)
  else 0

/-- R501, R507, R518: the ports, the collective log and the stream counters. -/
def State.readNet (s : State) (off : Nat) : W32 :=
  if 0x02009000 ≤ off ∧ off < 0x02009100 then logWord s.net.collLog s.net.collCount (off - 0x02009000)
  else if off = 0x02009100 then BitVec.ofNat 32 s.net.collCount
  else if 0x0200A000 ≤ off ∧ off < 0x0200A100 then s.ctlW 0 off
  else if 0x03000000 ≤ off ∧ off < 0x03001000 then aget 0 (off % 32 / 4) (s.stream ((off - 0x03000000) / 32)).counters
  else if 0x03001000 ≤ off ∧ off < 0x03001400 then aget 0 (off % 32 / 4) (s.stream (128 + (off - 0x03001000) / 32)).counters
  else 0

/-- R475, R477, R478, R481, R529: power and security. -/
def State.readPower (s : State) (off : Nat) : W32 :=
  if off = 0x04000018 then BitVec.ofNat 32 ((if s.sec.busy.isSome then 2 ^ 31 else 0) + s.sec.result)
  else if off = 0x05000000 then
    BitVec.ofNat 32 ((if s.power.err then 2 ^ 31 else 0) + s.power.wcause * 256 + s.power.state % 4 * 16 + s.power.target)
  else if off = 0x05000010 then s.power.evt
  else if off = 0x05000018 then BitVec.ofNat 32 (s.power.tripCount.toNat * 65536) ||| s.ctlW 95 off
  else if 0x05000100 ≤ off ∧ off < 0x05000140 then s.mverOf ((off - 0x05000100) / 4)
  else 0

/-- R472: the two bits of a tile's state. -/
def Tile.code : Tile → Nat
  | .off => 0
  | .ret => 1
  | .on => 2
  | .wakingRet => 3
  | .wakingOff => 3

/-- R486: the wear counter that WEARSEL of a die names. -/
def State.wearVal (s : State) (d : Nat) : W32 :=
  let pa := s.ctlD (dieBlock d + 0xA1000) % 2 ^ 36 * 4096
  let own := match region pa with
    | .mram => bankDie pa == d
    | .journal => (pa - 0x11000000000) / 0x10000000 == d
    | _ => false
  if own then BitVec.ofNat 32 (aget 0 (pa / 4096) s.resole.wear) else 0xFFFFFFFF#32

/-- R217, R441, R460, R461, R472: the die units. -/
def State.readDie (s : State) (d o : Nat) : W32 :=
  let x := s.die d
  if o = 0x80000 then s.placeCtl d
  else if o = 0x80008 then s.ctlW 0 (dieBlock d + o)
  else if o = 0x80020 then x.preDone
  else if o = 0x80024 then (if x.preBusy then 0x80000000#32 else 0) ||| (x.preOutcome ++ 0#29 : BitVec 31).zeroExtend 32
  else if o = 0x90020 then BitVec.ofNat 32 x.eventCount
  else if 0x90100 ≤ o ∧ o < 0x90150 then
    let c := s.cluster (10 * d + (o - 0x90100) / 8)
    if o % 8 = 0 then c.scanDone
    else (if c.scanBusy.isSome then 0x80000000#32 else 0) ||| (c.scanOutcome ++ 0#29 : BitVec 31).zeroExtend 32 ||| BitVec.ofNat 32 c.scanCore
  else if (0x90200 ≤ o ∧ o < 0x90390) ∨ (0x90410 ≤ o ∧ o < 0x90420) then s.ctlW 0 (dieBlock d + o)
  else if 0x91000 ≤ o ∧ o < 0x91100 then logWord x.events x.eventCount (o - 0x91000)
  else if o = 0xA0000 then s.ctlW 0x03E80032#32 (dieBlock d + o)
  else if 0xA0100 ≤ o ∧ o < 0xA011C then
    let j := (o - 0xA0100) / 4
    BitVec.ofNat 32 ((List.range 16).foldl (fun n i => if 16 * j + i < 100 then n + (s.core (100 * d + 16 * j + i)).tile.code * 4 ^ i else n) 0)
  else if o = 0xA1008 then s.wearVal d
  else 0

/-- R520: TRCCTL. -/
def Core.trcctl (c : Core) : W32 :=
  (if c.frozen then 0x80000000#32 else 0) ||| BitVec.ofNat 32 (c.tracePtr * 4096) ||| (c.traceEn &&& 0x7F)

/-- R523: a word of a monitor. -/
def Monitor.word (m : Monitor) (r : Nat) : W32 :=
  if r = 0 then m.ctl
  else if r = 8 then lo32 m.count
  else if r = 0xC then hi32 m.count
  else if r = 0x10 then m.min
  else if r = 0x14 then m.max
  else if 0x80 ≤ r then aget 0 ((r - 0x80) / 4) m.bins
  else 0

/-- R519 to R523: a core's block. -/
def Core.ctlWord (c : Core) (o : Nat) : W32 :=
  if o < 0x10000 then nth 0 (o / 4 % 4) (aget [] (o / 16) c.trace)
  else if o = 0x10000 then c.trcctl
  else if 0x10100 ≤ o ∧ o < 0x10120 then half o (aget 0 ((o - 0x10100) / 8) c.triggers)
  else if 0x20000 ≤ o ∧ o < 0x20400 then (aget Monitor.reset ((o - 0x20000) / 0x100) c.monitors).word (o % 0x100)
  else 0

/-- R91: a half of a pin table entry. -/
def PinEntry.word (e : PinEntry) (off : Nat) : W32 :=
  half off (BitVec.ofNat 64 ((if e.valid then 2 ^ 63 else 0) + (if e.busy.isSome then 2 ^ 62 else 0) + e.ppn.toNat * 65536))

/-- R38: a word of a compute die's block. -/
def State.readCompute (s : State) (off : Nat) : W32 :=
  let d := off / 0x10000000 - 1
  let o := off % 0x10000000
  if o < 0x1000000 then s.readDie d o
  else
    let c := o / 0x1000000 - 1
    let r := o % 0x1000000
    if 9 < c then 0
    else if r < 0x100000 then
      (if 0x40000 ≤ r ∧ r < 0x40600 then ((s.cluster (10 * d + c)).pin ((r - 0x40000) / 8)).word off else 0)
    else if 10 < r / 0x100000 then 0
    else (s.core (100 * d + 10 * c + (r / 0x100000 - 1))).ctlWord (r % 0x100000)

/-- R12, R14, R37: what the word at an offset of control space reads as. -/
def State.readWord (s : State) (by_ : Party) (off : Nat) : W32 :=
  match plainReg off with
  | some (_, m, d) => s.ctlW d off &&& m
  | none =>
    if off < 0x00100000 then s.readId off
    else if off < 0x00102000 then (if off % 8 = 0 then aget 0 ((off - 0x00100000) / 8) s.fe.kick else 0)
    else if off < 0x00102080 then aget 0 ((off - 0x00102000) / 4) s.fe.kpend
    else if 0x00200000 ≤ off ∧ off < 0x00204000 then s.readSlot ((off - 0x00200000) / 0x200) (off % 0x200)
    else if 0x00300000 ≤ off ∧ off < 0x00309400 then s.readTl ((off - 0x00300000) / 32) (off % 32)
    else if off < 0x00F80000 then s.readFe off
    else if off < 0x01000000 then s.readPort off
    else if off < 0x01040000 then
      (if by_ == .fw || s.sec.tcmOpen then aget (Config.tcmWord (off / 4)) (off / 4) s.ctl else 0)
    else if off < 0x02000000 then s.readPort off
    else if off < 0x04000000 then s.readNet off
    else if off < 0x10000000 then s.readPower off
    else if off < 0x50000000 then s.readCompute off
    else 0

/-- R39: a read of 4 or 8 bytes. -/
def State.ctlRead (s : State) (by_ : Party) (off size : Nat) : List Byte :=
  natToBytes 4 (s.readWord by_ off).toNat ++ (if size = 8 then natToBytes 4 (s.readWord by_ (off + 4)).toNat else [])

/-! Writes. -/

/-- R242, R243: a word of a hardware slot's block is written by the policy core. -/
def State.writeSlot (s : State) (k r : Nat) (v : W32) : State :=
  let h := s.slotAt k
  if r < 0x80 then
    if (h.state = 1 ∨ h.state = 2) ∧ r < 0x40 then s
    else if 0x30 ≤ r ∧ r < 0x40 then s
    else
      let s := s.setSlot k (h.setField r 4 ((if r = 0x20 then v &&& 0x00FFFFFF else v).toNat))
      -- R260: a change of RPTR reaches the mirror
      if r = 0x18 then s.mirrorRptr k false else s
  else if r = 0x100 then
    (match (v.extractLsb' 0 3).toNat with
      | 1 => s.mapSlot k
      | 2 => s.parkSlot k
      | 3 => s.resumeSlot k
      | 4 => s.unmapSlot k
      | _ => s)
  else if r = 0x108 then s.setSlot k { h with cmdErr := h.cmdErr && !v.getLsbD 31, mapErr := h.mapErr && !v.getLsbD 30 }
  else s

/-- R257: W1C of a fault word; clearing F clears FTAG and FCAUSE. -/
def State.clearFault (s : State) (t : Nat) (v : W32) : State :=
  let x := s.tl t
  let f := x.fault &&& ~~~(v &&& 0xF8000000)
  (s.setTl t { x with fault := if v.getLsbD 31 then f &&& 0xFFFF0000 else f }).mirror t

/-- R549: the low half of a WO register, as it is held. -/
def State.heldLow (s : State) (off : Nat) : W32 := s.ctlW 0 (off / 8 * 8)

/-- R257, R549: a word of a timeline's block is written. -/
def State.writeTl (s : State) (by_ : Party) (t r off : Nat) (v : W32) : State :=
  if r = 0x10 then s.clearFault t v
  else if by_ != .fw then s
  else if r = 0x18 then s.setCtlW off v
  else if r = 0x1C then (s.setCtlW (off - 4) 0).tladd t (v ++ s.heldLow off)
  else s

/-- R229 to R231, R262, R463, R465: the front end's other registers; none while a shootdown is held (R138). -/
def State.writeFe (s : State) (by_ : Party) (off : Nat) (v : W32) : Option State :=
  let fw := by_ == .fw
  if off = 0x00401000 then some { s with fe := { s.fe with fwirq := s.fe.fwirq &&& ~~~v } }
  else if off = 0x00F00018 then s.shoot (v.extractLsb' 16 16) (v.extractLsb' 0 3).toNat
  else if off = 0x00F00020 then some { s with fe := { s.fe with tlbiErr := s.fe.tlbiErr && !v.getLsbD 0 } }
  else if 0x00F01000 ≤ off ∧ off < 0x00F01640 then some (if fw then s.setLcid ((off - 0x00F01000) / 4) v else s)
  else if off = 0x00F02000 then some (if fw then s.setCtlW off v else s)
  else if off = 0x00F02004 then
    some (if fw && v.getLsbD 31 then
      let c := s.heldLow off
      (s.setCtlW (off - 4) 0).migrate (c.extractLsb' 0 9).toNat (c.extractLsb' 16 9).toNat
    else s)
  else if !fw then some s
  else if off = 0x00F03000 then
    -- R464: what the mode bars from now on is reported
    some ({ s with topo := { s.topo with mode := v.extractLsb' 0 2 } } : State).reportPools
  else if off = 0x00F03004 then
    let s : State := if v.getLsbD 30 then { s with topo := { s.topo with err := false } } else s
    some (if v.getLsbD 31 then s.applyTopo else s)
  else if off = 0x00F03300 then some (s.suspAck (v.extractLsb' 0 12).toNat)
  else some s

/-- R263: a write of the host's doorbell: the host posts a message, firmware takes it. Without firmware the security unit takes
the message as an image (R527). -/
def State.hostBell (s : State) : State :=
  let s : State := { s with host := { s.host with h2f := 1 } }
  if s.sec.bootOk then s.raiseFw 5 else
  let at_ : Nat := bytesToNat ((List.range 8).map (fun i => aget 0 i s.host.mailbox))
  ((((s.raiseFw 5).setCtlW 0x04000000 (BitVec.ofNat 32 at_)).setCtlW 0x04000004 (BitVec.ofNat 32 (at_ / 2 ^ 32)))).secCommand 1
def State.fwBell (s : State) : State := ({ s with host := { s.host with f2h := 1 } }).raiseVector 51

/-- R498: an aperture's register; a base outside LPDDR-6 is ignored. -/
def State.setAperture (s : State) (a : Nat) (v : Word) : State :=
  let v := v &&& 0x8000FFFFC0000000#64
  if region (v.toNat % 2 ^ 48) = .lpddr then
    (s.setCtlW (0x00F80020 + 8 * a) (lo32 v)).setCtlW (0x00F80024 + 8 * a) (hi32 v)
  else s

/-- R497: EN of a vector. -/
def State.setVector (s : State) (v : Nat) (en : Bool) : State :=
  let s := s.setCtlW (hivtAt v + 0xC) (if en then 1 else 0)
  if en && (alook v s.host.hivtPend).isSome then s.sendVector v else s

/-- R263, R498: the mailbox and the host port. -/
def State.writePort (s : State) (by_ : Party) (off : Nat) (v : W32) : State :=
  let put (s : State) : State :=
    { s with host := { s.host with mailbox := ((List.range 4).zip (natToBytes 4 v.toNat)).foldl (fun m e => aput (off - 0x01040000 + e.1) e.2 m) s.host.mailbox } }
  if 0x01040000 ≤ off ∧ off < 0x01040040 then (if by_ == .host && !s.host.h2f.getLsbD 0 then put s else s)
  else if 0x01040040 ≤ off ∧ off < 0x01040080 then (if by_ == .fw && !s.host.f2h.getLsbD 0 then put s else s)
  else if off = 0x01040080 then
    (if by_ == .host && v.getLsbD 0 then s.hostBell
     else if by_ == .fw && !v.getLsbD 0 then { s with host := { s.host with h2f := 0 } } else s)
  else if off = 0x01040084 then
    (if by_ == .fw && v.getLsbD 0 then s.fwBell
     else if by_ == .host && !v.getLsbD 0 then { s with host := { s.host with f2h := 0 } } else s)
  else if off = 0x00F8000C then (if v.getLsbD 31 then { s with host := { s.host with err := none } } else s)
  else if 0x00F80020 ≤ off ∧ off < 0x00F80040 then
    (if by_ == .fw then
      let a := (off - 0x00F80020) / 8
      s.setAperture a (setHalf off (s.ctlW 0 (0x00F80024 + 8 * a) ++ s.ctlW 0 (0x00F80020 + 8 * a)) v)
    else s)
  else if 0x00F81000 ≤ off ∧ off < 0x00F81400 ∧ off % 16 = 12 then s.setVector ((off - 0x00F81000) / 16) (v.getLsbD 0)
  else s

/-- R501: a wake filter's WFLTA. -/
def State.setFilter (s : State) (off : Nat) (v : Word) : State :=
  let v := v &&& 0xE000FFFFFFFFFFFF#64
  if v.extractLsb' 61 2 = 3 then s else (s.setCtlW off (lo32 v)).setCtlW (off + 4) (hi32 v)

/-- R501, R502: the ports' and the time unit's registers. -/
def State.writeNet (s : State) (by_ : Party) (off : Nat) (v : W32) : State :=
  if 0x0200A000 ≤ off ∧ off < 0x0200A100 ∧ off % 16 < 8 then
    (if by_ == .fw then
      let o := off / 8 * 8
      s.setFilter o (setHalf off (s.ctlW 0 (o + 4) ++ s.ctlW 0 o) v)
    else s)
  else if off = 0x0300F008 then s.setCtlW off v
  else if off = 0x0300F00C then (s.setCtlW (off - 4) 0).tuStep (v ++ s.heldLow off)
  else s

/-- R475, R477, R478, R529: power and security, which the policy core alone writes. -/
def State.writePower (s : State) (by_ : Party) (off : Nat) (v : W32) : State :=
  if by_ != .fw then s
  else if off = 0x04000010 then s.secCommand v.toNat
  else if off = 0x05000000 then
    (({ s with power := { s.power with err := s.power.err && !v.getLsbD 31 } } : State).setTarget (v.extractLsb' 0 2).toNat)
  else if off = 0x05000010 then { s with power := { s.power with evt := s.power.evt &&& ~~~v } }
  else if off = 0x05000018 then s.setCtlW off (v &&& 0xFF)
  else s

/-- R217, R441, R460, R468, R472: the die units, which the policy core alone writes. -/
def State.writeDie (s : State) (by_ : Party) (d o : Nat) (v : W32) : State :=
  let at_ := dieBlock d + o
  let fw := by_ == .fw
  if !fw then s
  else if o = 0x80000 then
    let old := s.placeCtl d
    s.setCtlW at_ (v.extractLsb' 16 16 ++ (if v.extractLsb' 0 16 = 0 then old.extractLsb' 0 16 else v.extractLsb' 0 16))
  else if o = 0x80018 then (if v.getLsbD 31 then s.preCmd d (v.extractLsb' 0 9).toNat else s)
  else if o = 0x90000 then (if v.getLsbD 31 then s.scanStart d (v.extractLsb' 0 7).toNat else s)
  else if 0x90410 ≤ o ∧ o < 0x90420 then s.setCtlW at_ (s.ctlW 0 at_ &&& ~~~v)
  else if o = 0xA0000 then
    let old := s.ctlW 0x03E80032#32 at_
    s.setCtlW at_ (v.extractLsb' 16 16 ++ (if v.extractLsb' 0 16 = 0 then old.extractLsb' 0 16 else v.extractLsb' 0 16))
  else s

/-- R523: MONCTL. -/
def Monitor.write (m : Monitor) (v : W32) : Monitor :=
  let src := if v.getLsbD 3 then m.ctl &&& 0xF else v &&& 0xF
  let m : Monitor := if v.getLsbD 31 then m.clear else m
  { m with ctl := (v &&& 0x10) ||| src }

/-- R520 to R523: a core's block; a tile in OFF holds nothing (R470). -/
def Core.writeCtl (c : Core) (o : Nat) (v : W32) : Core :=
  if c.tile = .off then c
  else if o = 0x10000 then { c with frozen := c.frozen && !v.getLsbD 31, traceEn := v &&& 0x7F }
  else if 0x10100 ≤ o ∧ o < 0x10120 then
    let n := (o - 0x10100) / 8
    { c with triggers := aput n (setHalf o (aget 0 n c.triggers) (if o % 8 = 0 then v else v &&& 0xF87FFFFF)) c.triggers }
  else if 0x20000 ≤ o ∧ o < 0x20400 ∧ o % 0x100 = 0 then
    let n := (o - 0x20000) / 0x100
    { c with monitors := aput n ((aget Monitor.reset n c.monitors).write v) c.monitors }
  else c

/-- R92, R549: a half of a pin table entry: the low one is held, the high one acts. -/
def State.writePin (s : State) (cl i : Nat) (high : Bool) (v : W32) : State :=
  let e := (s.cluster cl).pin i
  let ppn : W32 := if high then v.extractLsb' 0 16 ++ e.ppn.extractLsb' 0 16 else e.ppn.extractLsb' 16 16 ++ v.extractLsb' 16 16
  if high && v.getLsbD 31 then s.pinPage cl i ppn
  else if e.busy.isSome then s
  else if e.valid then (if high then s.unpinPage cl i else s)
  else s.setPin cl i { e with ppn := ppn }

/-- R38: a word of a compute die's block. -/
def State.writeCompute (s : State) (by_ : Party) (off : Nat) (v : W32) : State :=
  let d := off / 0x10000000 - 1
  let o := off % 0x10000000
  if o < 0x1000000 then s.writeDie by_ d o v
  else
    let c := o / 0x1000000 - 1
    let r := o % 0x1000000
    if 9 < c then s
    else if r < 0x100000 then
      (if 0x40000 ≤ r ∧ r < 0x40600 then s.writePin (10 * d + c) ((r - 0x40000) / 8) (r % 8 == 4) v else s)
    else if 10 < r / 0x100000 then s
    else s.modCore (100 * d + 10 * c + (r / 0x100000 - 1)) (fun k => k.writeCtl (r % 0x100000) v)

/-- R464, R466: whether a control word is one of QMASK or PAIRTAB, by which records of the pools become unplaceable. -/
def barsRecords (off : Nat) : Bool :=
  let o := off % 0x10000000
  decide (0x10000000 ≤ off ∧ off < 0x50000000) && (decide (0x90400 ≤ o ∧ o < 0x90410) || decide (0x90600 ≤ o ∧ o < 0x90790))

/-- R12, R14, R37, R549: a write of the word at an offset of control space; none while it is held (R138). -/
def State.writeWord (s : State) (by_ : Party) (off : Nat) (v : W32) : Option State :=
  match plainReg off with
  | some (fw, m, _) =>
    some (if fw && by_ != .fw then s
      else if barsRecords off then (s.setCtlW off (v &&& m)).reportPools
      else s.setCtlW off (v &&& m))
  | none =>
    if off < 0x00100000 then some s
    else if off < 0x00102000 then
      let q := (off - 0x00100000) / 8
      -- R549: the low half is held; the register acts when its high half is stored
      some (if off % 8 = 0 then { s with fe := { s.fe with kick := aput q v s.fe.kick } } else s.kick q (aget 0 q s.fe.kick))
    else if off < 0x00102080 then
      let j := (off - 0x00102000) / 4
      some (if by_ == .fw then { s with fe := { s.fe with kpend := aput j (aget 0 j s.fe.kpend &&& ~~~v) s.fe.kpend } } else s)
    else if 0x00200000 ≤ off ∧ off < 0x00204000 then
      some (if by_ == .fw then s.writeSlot ((off - 0x00200000) / 0x200) (off % 0x200) v else s)
    else if 0x00300000 ≤ off ∧ off < 0x00309400 then some (s.writeTl by_ ((off - 0x00300000) / 32) (off % 32) off v)
    else if off < 0x00F80000 then s.writeFe by_ off v
    else if off < 0x01000000 then some (s.writePort by_ off v)
    else if off < 0x01040000 then some (if by_ == .fw then s.setCtlW off v else s)
    else if off < 0x02000000 then some (s.writePort by_ off v)
    else if off < 0x04000000 then some (s.writeNet by_ off v)
    else if off < 0x10000000 then some (s.writePower by_ off v)
    else if off < 0x50000000 then some (s.writeCompute by_ off v)
    else some s

/-- R549: the registers whose 8-byte write is judged whole: pin table entries, wake filters and apertures. -/
def State.writeWhole (s : State) (by_ : Party) (off : Nat) (v : Word) : Option State :=
  let o := off % 0x10000000
  let r := o % 0x1000000
  if 0x10000000 ≤ off ∧ off < 0x50000000 ∧ 0x1000000 ≤ o ∧ o < 0xB000000 ∧ 0x40000 ≤ r ∧ r < 0x40600 then
    let cl := 10 * (off / 0x10000000 - 1) + (o / 0x1000000 - 1)
    let i := (r - 0x40000) / 8
    let ppn : W32 := v.extractLsb' 16 32
    let e := (s.cluster cl).pin i
    some (if v.getLsbD 63 then s.pinPage cl i ppn
      else if e.valid || e.busy.isSome then s.unpinPage cl i
      else s.setPin cl i { e with ppn := ppn })
  else if 0x0200A000 ≤ off ∧ off < 0x0200A100 ∧ off % 16 = 0 then some (if by_ == .fw then s.setFilter off v else s)
  else if 0x00F80020 ≤ off ∧ off < 0x00F80040 then some (if by_ == .fw then s.setAperture ((off - 0x00F80020) / 8) v else s)
  else none

/-- R39, R549: a write of 4 or 8 bytes; none while it is held. -/
def State.ctlWrite (s : State) (by_ : Party) (off size : Nat) (v : Word) : Option State :=
  if size = 8 then
    match s.writeWhole by_ off v with
    | some t => some t
    | none => (s.writeWord by_ off (lo32 v)).bind (fun t => t.writeWord by_ (off + 4) (hi32 v))
  else s.writeWord by_ off (lo32 v)

/-! The host's reach (R493). -/

def hostMayRead (off : Nat) : Bool :=
  decide (off < 0x00102000) || decide (0x00300000 ≤ off ∧ off < 0x00309400) || decide (0x01040000 ≤ off ∧ off < 0x01040100) ||
  decide (0x00F80000 ≤ off ∧ off < 0x00F81400) || off == 0x05000000
def hostMayWrite (off : Nat) : Bool :=
  decide (0x00100000 ≤ off ∧ off < 0x00102000) || decide (0x00300000 ≤ off ∧ off < 0x00309400 ∧ off % 32 = 0x10) ||
  decide (0x01040000 ≤ off ∧ off < 0x01040100) ||
  (decide (0x00F80000 ≤ off ∧ off < 0x00F81400) && !decide (0x00F80020 ≤ off ∧ off < 0x00F80040))

/-- R493: a read by the host; words out of its reach read as 0. -/
def State.hostCtlRead (s : State) (off size : Nat) : List Byte :=
  let w (o : Nat) : List Byte := natToBytes 4 (if hostMayRead o then s.readWord .host o else 0).toNat
  w off ++ (if size = 8 then w (off + 4) else [])

/-- R493: a write by the host; words out of its reach ignore it. -/
def State.hostCtlWrite (s : State) (off size : Nat) (v : Word) : Option State :=
  if size = 8 ∧ hostMayWrite off = true ∧ hostMayWrite (off + 4) = true then s.ctlWrite .host off 8 v
  else
    let w (s : State) (o : Nat) (x : W32) : Option State := if hostMayWrite o then s.writeWord .host o x else some s
    if size = 8 then (w s off (lo32 v)).bind (fun t => w t (off + 4) (hi32 v)) else w s off (lo32 v)

/-- R12: REGISTER_WRITE. -/
def execRegisterWrite (by_ : Party) (off size : Nat) (v : BitVec 64) (s : State) : Host.Outcome State Fault Refusal :=
  dev "REGISTER_WRITE" (decide (off < 0x100000000)) (
    if (size ≠ 4 ∧ size ≠ 8) ∨ off % size ≠ 0 ∨ (by_ = .host ∧ s.power.state ≠ 0) then none
    else if by_ = .host then s.hostCtlWrite off size v
    else s.ctlWrite by_ off size v)

/-! Rows of the debug registers. -/

/-- R522: TRACE_RESUME. -/
def execTraceResume (core : Nat) (s : State) : Host.Outcome State Fault Refusal :=
  dev "TRACE_RESUME" (coreThere core) (
    if (s.core core).frozen then some (s.modCore core (fun c => { c with frozen := false })) else none)

/-- R523: a monitor of a core changed. -/
def State.modMonitor (s : State) (core m : Nat) (f : Monitor → Monitor) : State :=
  s.modCore core (fun c => { c with monitors := aput m (f (aget Monitor.reset m c.monitors)) c.monitors })

/-- R523: MONITOR_CLEAR. -/
def execMonitorClear (core mon : Nat) (s : State) : Host.Outcome State Fault Refusal :=
  dev "MONITOR_CLEAR" (coreThere core && decide (mon < 4)) (some (s.modMonitor core mon Monitor.clear))

/-- R523: MONITOR_TEMPERATURE_SAMPLE. -/
def execMonitorTemperatureSample (core mon : Nat) (temp : BitVec 32) (s : State) : Host.Outcome State Fault Refusal :=
  dev "MONITOR_TEMPERATURE_SAMPLE" (coreThere core && decide (mon < 4)) (
    let c := (aget Monitor.reset mon (s.core core).monitors).ctl
    if c.getLsbD 4 && c.extractLsb' 0 4 == 6#4 && (s.core core).tile != .off then some (s.modMonitor core mon (fun m => m.sample temp)) else none)

end Sys2Proof.Machine
end

