-- ==== Sys2Proof/Machine/HostLink.lean ====
section
/-! DEFINITION. The host link: what the host asks of the device (R490 to R494, R476), what it answers to the device (R495,
R496), its doorbells (R263) and the interrupt table (R497); the effect of an atomic (R403). -/

namespace Sys2Proof.Machine

/-! Requests of the host. -/

/-- R491: an answer to the host; none is a link error. -/
def State.answer (s : State) (r : Option (List Byte)) : State := { s with host := { s.host with replies := s.host.replies ++ [r] } }

/-- R476: an access of the host while the device is not ACTIVE: it is held, and wakes the device, or ends as a link error. -/
def State.holdAccess (s : State) (a : HostAccess) : State :=
  if s.wakeEnabled 0 then ({ s with host := { s.host with held := s.host.held ++ [a] } } : State).startWake 1 else s.answer none

/-- R493: the accesses of control space that its registers take. -/
def ctlSized (off size : Nat) : Bool := (size == 4 || size == 8) && off % size == 0

/-- R492, R494, R498: the physical address that an aperture maps a region offset to, while it is enabled. -/
def State.aperture (s : State) (off : Nat) : Option Nat :=
  let r : Word := BitVec.ofNat 64 (s.ctlD (0x00F80020 + 8 * ((off - 0x100000000) / 0x40000000)))
  if r.getLsbD 63 then some ((r.extractLsb' 30 18).toNat * 0x40000000 + off % 0x40000000) else none

/-- R494, R455: a read through an aperture; that of a poisoned block ends as an error. -/
def State.apertureRead (s : State) (off n : Nat) : Option (List Byte) :=
  match s.aperture off with
  | none => some (List.replicate n 0)
  | some pa => if s.poisoned pa then none else some ((List.range n).map (fun i => s.homeByte (pa + i)))

/-- R494, R47: a write of bytes through an aperture, each where its mask bit is set; one of a whole block writes its tag. -/
def State.apertureWrite (s : State) (off : Nat) (bytes : List (Option Byte)) : State :=
  match s.aperture off with
  | none => s
  | some pa =>
    let s : State := ((List.range bytes.length).zip bytes).foldl (fun (s : State) e => match e.2 with
      | some b => s.putHome (pa + e.1) b
      | none => s) s
    if bytes.length = 64 ∧ bytes.all (·.isSome) then s.wholeTag .home pa 0 else s

/-- The value of bytes that are all there. -/
def wordOf (bytes : List (Option Byte)) : Option Word :=
  if bytes.all (·.isSome) then some (BitVec.ofNat 64 (bytesToNat (bytes.map (fun b => b.getD 0)))) else none

/-- R491 to R494: a request of the host is performed. -/
def State.hostServe (s : State) : HostAccess → State
  | .read off size =>
    if off < 0x100000000 then (if ctlSized off size then s.answer (some (s.hostCtlRead off size)) else s.answer none)
    else s.answer (s.apertureRead off size)
  | .write off bytes =>
    if off < 0x100000000 then
      (match wordOf bytes with
        | some v => if ctlSized off bytes.length then (s.hostCtlWrite off bytes.length v).getD s else s.answer none
        | none => s.answer none)
    else s.apertureWrite off bytes
  | .atomic off size op x cmp =>
    -- R493: control space takes no atomics
    if off < 0x100000000 ∨ ctlSized off size = false then s.answer none
    else match s.aperture off with
      | none => s.answer (some (List.replicate size 0))
      | some pa =>
        if s.poisoned pa then s.answer none else
        let r := s.amoAt pa op size x cmp
        r.2.answer (some (natToBytes size r.1.toNat))

/-- Where a request of the host starts, and its bytes. -/
def askRange : HostAccess → Nat × Nat
  | .read off size => (off, size)
  | .write off bytes => (off, bytes.length)
  | .atomic off size _ _ _ => (off, size)

/-- R92: whether a request of the host waits because its page is being pinned or unpinned. -/
def State.accessBusy (s : State) (a : HostAccess) : Bool :=
  decide (0x100000000 ≤ (askRange a).1) && (match s.aperture (askRange a).1 with
    | some pa => s.pinBusy pa
    | none => false)

/-- R498: the adapter has replayed a free number of transfers, which the port counts. -/
def State.replays (s : State) : State :=
  { s with fresh := s.fresh + 1, host := { s.host with replay := Nat.min 65535 (s.host.replay + (Config.freeW32 s.fresh).toNat) } }

/-- R490 to R493, R476: what becomes of a request of the host: 1 to 64 bytes within a 64-byte block. -/
def hostAsk (row : String) (a : HostAccess) (s : State) : Host.Outcome State Fault Refusal :=
  dev row (decide ((askRange a).1 < 0x200000000)) (
    if (askRange a).2 = 0 ∨ 64 < (askRange a).1 % 64 + (askRange a).2 ∨ 2 < s.power.state then none
    else if s.power.state ≠ 0 then some (s.holdAccess a)
    else if s.host.modules = 0 then none
    else if s.accessBusy a then some { s with host := { s.host with held := s.host.held ++ [a] } }
    else some (s.replays.hostServe a))

def execHostRead (off size : Nat) (s : State) : Host.Outcome State Fault Refusal := hostAsk "HOST_READ" (.read off size) s
def execHostWrite (off : Nat) (bytes : List (Option (BitVec 8))) (s : State) : Host.Outcome State Fault Refusal :=
  hostAsk "HOST_WRITE" (.write off bytes) s
def execHostAtomic (off size : Nat) (op : AmoOp) (x cmp : BitVec 64) (s : State) : Host.Outcome State Fault Refusal :=
  hostAsk "HOST_ATOMIC" (.atomic off size op x cmp) s

/-! What the host completes. -/

/-- R495: bytes have come for a read of a seat, or it has failed. -/
def State.seatReadDone (s : State) (core x id pa : Nat) (r : HostReq) (data : Option (List Byte)) : State :=
  let t := s.seatAt core x
  if t.hostWait ≠ some id then s else
  let old := (t.hostData.find? (fun e => e.1 == pa)).getD (pa, [], false)
  let new : Nat × List Byte × Bool := match data with
    | some bs => (pa, old.2.1 ++ bs.drop (pa + old.2.1.length - r.addr), false)
    | none => (pa, old.2.1, true)
  s.setSeat core x { t with hostWait := none, hostData := t.hostData.filter (fun e => e.1 != pa) ++ [new] }

/-- R495: a posted store has been acknowledged, or has failed. -/
def State.seatWriteDone (s : State) (core x va : Nat) (asid : BitVec 16) (data : Option (List Byte)) : State :=
  let t := s.seatAt core x
  match data with
  | some _ => s
  | none =>
    if t.busy && t.file.ctl.asid == asid then
      s.setSeat core x { t with hostFailed := t.hostFailed.or (some (transFaddr 0 .write va)) }
    else s

/-- R495: the bytes of one part of a vector load, from the block that has come. -/
def VLoadOp.hostFill (bs : List Byte) (o : VLoadOp) (w : HostPart) : VLoadOp :=
  let bs := w.own.foldl (fun (l : List Byte) e => l.set e.1 e.2) ((bs.drop w.at_).take w.len)
  { o with segs := ((List.range o.segs.length).zip o.segs).map (fun e =>
      if e.1 = w.seg then (e.2.1, (e.2.2.take w.off ++ bs ++ e.2.2.drop (w.off + bs.length)).take e.2.2.length) else e.2) }

/-- R495, R362: a block has come for a vector load, or it has failed. -/
def VLoadOp.hostDone (o : VLoadOp) (id : Nat) (data : Option (List Byte)) : VLoadOp :=
  match o.waits.filter (fun w => w.req == id) with
  | [] => o
  | w :: ws =>
    let o : VLoadOp := { o with waits := o.waits.filter (fun w => w.req != id) }
    match data with
    | none => { o with failed := o.failed.or (some (transFaddr 0 .read ((nth (0, []) w.seg o.segs).1.toNat + w.off))) }
    | some bs => (w :: ws).foldl (VLoadOp.hostFill bs) o

/-- R495: an operation of a core gets its answer. -/
def State.coreOpDone (s : State) (core op id : Nat) (r : HostReq) (data : Option (List Byte)) : State :=
  match s.op core op with
  | some (.vload o) => (s.modCore core (fun c => { c with ops := aput op (.vload (o.hostDone id data)) c.ops })).makeArrivals core
  | some (.copy o) => s.copyHostDone core op o r data
  | some (.accst o) => s.accstHostDone core op o data.isSome
  | some (.kv o) => s.kvHostDone core op o r data
  | some (.coll o) => s.collHostDone core op o r data
  | _ => s

/-- R495: what a reader keeps of an answer: the bytes under their address, none of a failed read; the old value of an atomic
under a key of its own. -/
def answerOf (r : HostReq) (data : Option (List Byte)) : Nat × List Byte :=
  (if r.amo.isSome then amoKey r.addr else r.addr, data.getD [])

/-- R88, R89, R93: what the host has done with a request shows in the caches: a write updates the copies of its line, an atomic recalls
them, and a whole block that a core has read through a policy that caches comes into its caches. Every access goes to the host all the
same (R495), so no copy is ever dirty. -/
def State.hostFill (s : State) (r : HostReq) (data : Option (List Byte)) : State :=
  match data with
  | none => s
  | some bs =>
    if r.amo.isSome then s.dropLine (r.addr / 64)
    else if r.write then ((List.range r.data.length).zip r.data).foldl (fun s x => s.putCached (r.addr + x.1) x.2) s
    else match r.use.core with
      | some core => if bs.length = 64 then s.hostLine core r.cp (r.addr / 64) bs else s
      | none => s

/-- R495: who asked the host gets its answer. -/
def State.serve (s : State) (id : Nat) (r : HostReq) (data : Option (List Byte)) : State :=
  match r.use with
  | .seatRead core x pa => s.seatReadDone core x id pa r data
  | .seatWrite core x va => s.seatWriteDone core x va r.asid data
  | .coreOp core op => s.coreOpDone core op id r data
  | .bte die op => (match alook op (s.die die).bte with
      | some o => s.bteHostDone die op o r data
      | none => s)
  | .inbound k => (match alook k s.net.inbox with
      | some i => s.inboundHostDone k i r data
      | none => s)
  | .fetch k =>
    let h := s.slotAt k
    if h.hostOut = some id then s.setSlot k { h with hostOut := none, hostData := h.hostData ++ [answerOf r data] } else s
  | .stream k =>
    if (s.stream k).hostOut = some id then
      s.modStream k (fun x => { x with hostOut := none, hostData := x.hostData ++ [answerOf r data] })
    else s
  | .sec => s.secHostDone data
  | .resole _ _ => s.resoleHostDone id data
  | .policy => { s with policy := { s.policy with waiting := false, replies := s.policy.replies ++ [data] } }
  | .policyWrite => s
  | .mirror _ => s
  | .message => s
  | .engine => s

/-- R92: whether what an answer lets an engine do has to wait for a page that is being pinned or unpinned. -/
def State.answerWaits (s : State) : HostUse → Bool
  | .inbound _ => !s.pinsQuiet
  | _ => false

/-- R495, R496, R498: a request leaves the port with its answer, and what waited for it alone follows; a failure is kept in HLERR. -/
def State.hostDone (s : State) (id : Nat) (data : Option (List Byte)) : Option State :=
  match alook id s.host.reqs with
  | none => none
  | some r =>
    let bad := match data with
      | some bs => !r.write && bs.length != r.size
      | none => false
    if bad || s.answerWaits r.use then none else
    let s : State := { s with host := { s.host with reqs := adel id s.host.reqs } }
    let s := if data.isNone then s.hostError r.asid r.addr else s
    some (((s.hostRelease [id]).hostFill r data).serve id r data)

/-- R495, R496: HOST_COMPLETION: the host has answered, or the access ends with a link error. -/
def execHostCompletion (id : Nat) (data : Option (List (BitVec 8))) (s : State) : Host.Outcome State Fault Refusal :=
  dev "HOST_COMPLETION" true (if data.isSome ∧ s.host.modules = 0 then none else s.replays.hostDone id data)

/-- R495: HOST_LINK_TIMEOUT. -/
def execHostLinkTimeout (id : Nat) (s : State) : Host.Outcome State Fault Refusal :=
  dev "HOST_LINK_TIMEOUT" true (s.hostDone id none)

/-- R490, R498: HOST_LINK_TRAINING: the modules on which the link runs. -/
def execHostLinkTraining (modules : Nat) (s : State) : Host.Outcome State Fault Refusal :=
  dev "HOST_LINK_TRAINING" true (if 2 < modules then none else some { s with host := { s.host with modules := modules } })

/-- R497: HIVT_ENABLE. -/
def execHivtEnable (vec : Nat) (en : Bool) (s : State) : Host.Outcome State Fault Refusal :=
  dev "HIVT_ENABLE" (decide (vec < 64)) (some (s.setVector vec en))

/-- R263: H2FDB_WRITE: 1 by the host, 0 by firmware. -/
def execH2fdbWrite (v : BitVec 32) (s : State) : Host.Outcome State Fault Refusal :=
  dev "H2FDB_WRITE" true (some (s.writePort (if v.getLsbD 0 then .host else .fw) 0x01040080 v))

/-- R263: F2HDB_WRITE: 1 by firmware, 0 by the host. -/
def execF2hdbWrite (v : BitVec 32) (s : State) : Host.Outcome State Fault Refusal :=
  dev "F2HDB_WRITE" true (some (s.writePort (if v.getLsbD 0 then .fw else .host) 0x01040084 v))

end Sys2Proof.Machine
end

