-- ==== Sys2Proof/Machine/LoadStore.lean ====
section
/-! DEFINITION. The scalar loads and stores of position M (R312 to R315) and their accesses of control space (R39, R154,
R457). -/

namespace Sys2Proof.Machine

/-- R39: what a scalar access of n bytes is: a naturally aligned one of 4 or 8 bytes may reach control space. -/
def regAccess (w : Bool) (va : Word) (n : Nat) : Access :=
  if (n = 4 ∨ n = 8) ∧ va.toNat % n = 0 then (if w then .regWrite else .regRead) else if w then .write else .read

/-- The seat in focus as a party of control space. -/
def State.party (s : State) : Party := .seat s.focus.core s.focus.seat

/-- R154, R457: a read of control space by the seat in focus, after a commit. -/
def State.seatCtlRead (s : State) (pa n : Nat) : List Byte × State :=
  let s := s.commitF
  (s.ctlRead s.party (pa - 0x40000000000) n, s)

/-- R154, R457, R138: a write of control space by the seat in focus, after a commit; the seat waits while it is held. -/
def State.seatCtlWrite (s : State) (pa n : Nat) (v : Word) : Run :=
  let s := s.commitF
  match s.ctlWrite s.party (pa - 0x40000000000) n v with
  | some t => .ok t
  | none => holdX s

/-- R313, R454: the bytes that a scalar read of the seat in focus gives, and the state after it: through control space, the host
port or memory. A poisoned block is consumed, and the bytes are 0. -/
def State.loadScalar (s : State) (n : Nat) (ps : List Piece) : Except Stop (List Byte × State) :=
  match ps.find? (fun p => region p.pa == .control) with
  | some p =>
    let r := s.seatCtlRead p.pa n
    .ok (r.1, r.2.install false ps)
  | none => do
    let bs ← s.readScalar ps
    match s.poisonHit ps with
    | some pa => .ok (List.replicate n 0, (s.installRead ps).consumeF (s.structF pa) pa)
    | none => .ok (bs, s.installRead ps)

/-- R153, R313: a scalar write of the seat in focus: to control space, the host port or memory. -/
def State.writeScalar (s : State) (va : Word) (ps : List Piece) (bs : List Byte) (rel : Option Nat := none) : Run :=
  if let .error e := s.awaitSo ps then .error e else
  match ps.find? (fun p => region p.pa == .control) with
  | some p => (s.install true ps).seatCtlWrite p.pa bs.length (BitVec.ofNat 64 (bytesToNat bs))
  | none => (s.install true ps).storeScalar va ps bs [] rel

/-- R312: the register result of n bytes read. -/
def loadValue (n : Nat) (sx : Bool) (bs : List Byte) : Word :=
  let v := bytesToNat bs
  BitVec.ofNat 64 (if sx && v.testBit (8 * n - 1) then v + (2 ^ 64 - 2 ^ (8 * n)) else v)

/-- R314: a scalar load from scratchpad; a poisoned byte is consumed and reads as 0. -/
def State.loadSp (s : State) (o : Word) (n : Nat) : List Byte × State :=
  let ms := s.window.maps o n
  let bad := ms.findSome? (fun m => if s.fcore.spPoisoned m then m else none)
  let t : State := s.spovr s.focus.core s.focus.seat ms
  match bad with
  | some a => (List.replicate n 0, t.consume s.focus.core s.focus.seat (uncorrAddr 1 s.focus.core a))
  | none => (ms.map s.fcore.spByte, t)

/-- R312 to R315: a scalar load. -/
def scalarLoad (n : Nat) (sx : Bool) (d a : BitVec 6) (sp : BitVec 1) (imm : BitVec 13) (g : BitVec 4) (s : State) :
    Host.Outcome State Fault Refusal :=
  slotOp g [.s a] [.s d] (fun s =>
    let o := s.rS a + imm.signExtend 64
    if sp = 1 then do
      s.awaitSpans s.window o n
      let r := s.loadSp o n
      .ok (r.2.wS d (loadValue n sx r.1) (r.2.after 4))
    else do
      let ps ← s.seatPieces o n (regAccess false o n)
      let r ← s.loadScalar n ps
      .ok ((r.2.trace s.focus.core s.focus.seat 2 o).loadInto d (loadValue n sx r.1) 12)) s

/-- R312 to R314: a scalar store. -/
def scalarStore (n : Nat) (c a : BitVec 6) (sp : BitVec 1) (imm : BitVec 13) (g : BitVec 4) (s : State) :
    Host.Outcome State Fault Refusal :=
  slotOp g [.s c, .s a] [] (fun s =>
    let o := s.rS a + imm.signExtend 64
    let bs := natToBytes n (s.rS c).toNat
    if sp = 1 then do
      s.awaitSpans s.window o n
      let ms := s.window.maps o n
      .ok ((s.spovr s.focus.core s.focus.seat ms).modFcore (fun k => k.spPut ms bs))
    else do
      let ps ← s.seatPieces o n (regAccess true o n)
      let t ← s.writeScalar o ps bs
      .ok (t.trace s.focus.core s.focus.seat 3 o)) s

def execLdB (d a : BitVec 6) (sp : BitVec 1) (imm : BitVec 13) (g : BitVec 4) (s : State) := scalarLoad 1 false d a sp imm g s
def execLdBs (d a : BitVec 6) (sp : BitVec 1) (imm : BitVec 13) (g : BitVec 4) (s : State) := scalarLoad 1 true d a sp imm g s
def execLdH (d a : BitVec 6) (sp : BitVec 1) (imm : BitVec 13) (g : BitVec 4) (s : State) := scalarLoad 2 false d a sp imm g s
def execLdHs (d a : BitVec 6) (sp : BitVec 1) (imm : BitVec 13) (g : BitVec 4) (s : State) := scalarLoad 2 true d a sp imm g s
def execLdW (d a : BitVec 6) (sp : BitVec 1) (imm : BitVec 13) (g : BitVec 4) (s : State) := scalarLoad 4 false d a sp imm g s
def execLdWs (d a : BitVec 6) (sp : BitVec 1) (imm : BitVec 13) (g : BitVec 4) (s : State) := scalarLoad 4 true d a sp imm g s
def execLdD (d a : BitVec 6) (sp : BitVec 1) (imm : BitVec 13) (g : BitVec 4) (s : State) := scalarLoad 8 false d a sp imm g s
def execStB (c a : BitVec 6) (sp : BitVec 1) (imm : BitVec 13) (g : BitVec 4) (s : State) := scalarStore 1 c a sp imm g s
def execStH (c a : BitVec 6) (sp : BitVec 1) (imm : BitVec 13) (g : BitVec 4) (s : State) := scalarStore 2 c a sp imm g s
def execStW (c a : BitVec 6) (sp : BitVec 1) (imm : BitVec 13) (g : BitVec 4) (s : State) := scalarStore 4 c a sp imm g s
def execStD (c a : BitVec 6) (sp : BitVec 1) (imm : BitVec 13) (g : BitVec 4) (s : State) := scalarStore 8 c a sp imm g s

end Sys2Proof.Machine
end

