-- ==== Sys2Proof/Machine/Seq.lean ====
section
/-! DEFINITION. The sequencer: SEQ.MMA, SEQ.CPY and the issue of their steps (R396 to R399). -/

namespace Sys2Proof.Machine

/-- R396: a macro-op of the seat in focus begins. -/
def State.startSeq (s : State) (kind : Nat) (p : Params) (a b c : BitVec 6) : State :=
  let q : Sequencer :=
    { kind := kind, a := s.rS a, b := s.rS b, c := (s.rS c).extractLsb' 0 32, next := 0, block := p.words,
      l6q := s.src.ctl.ctabsel.extractLsb' 0 2, efr := s.src.ctl.efr.extractLsb' 0 13, stuck := false }
  s.modF (fun t => { t with seq := some q })

/-- R397: the limits of the block of SEQ.MMA. -/
def seqMmaOk (p : Params) : Bool :=
  decide (1 ≤ p.rows ∧ p.rows ≤ 64 ∧ 1 ≤ p.cols ∧ p.cols ≤ 64) && !p.nobar && !p.flg.getLsbD 7 &&
  decide ((p.flg.extractLsb' 0 4).toNat ≤ 12) && p.scale == 0 && p.fsel == 0

def execSeqMma (a b c : BitVec 6) (g : BitVec 4) (s : State) :=
  blockOp g [.s a, .s b, .s c] [] (fun s p => s.limit (seqMmaOk p)) (fun p s => do
    s.awaitOwnSeq
    s.awaitLeaf p.bar
    s.awaitSeq (p.flg.extractLsb' 4 2).toNat
    let n := (s.rS c).toNat
    if n = 0 ∨ 65535 < n then raiseX 0x37 (s.rS c) else
    let q := (p.flg.extractLsb' 0 4).toNat
    [q, q + 1, q + 2, q + 3].forM (fun k =>
      if (s.fcore.slot k).state = .claimed s.focus.seat then Except.ok () else raiseX 0x34 (BitVec.ofNat 64 k))
    .ok ((s.mxfUp s.focus.core p.bar).startSeq 1 p a b c)) s

/-- R398: the limits of the block of SEQ.CPY. -/
def seqCpyOk (p : Params) : Bool :=
  decide (1 ≤ p.rows ∧ p.rows ≤ 64 ∧ 1 ≤ p.cols) && (p.flg &&& 0xFA#8) == 0 && p.scale == 0 && p.fsel == 0

def execSeqCpy (a b c : BitVec 6) (g : BitVec 4) (s : State) :=
  blockOp g [.s a, .s b, .s c] [] (fun s p => s.limit (seqCpyOk p)) (fun p s => do
    s.awaitOwnSeq
    match p.leaf with
    | some o => s.awaitLeaf o
    | none => .ok ()
    let n := (s.rS c).toNat
    if n = 0 ∨ 2 ^ 24 - 1 < n then raiseX 0x37 (s.rS c) else
    .ok (s.startSeq 2 p a b c)) s

/-! Steps. -/

/-- The fields of a macro-op's block. -/
def Sequencer.params (q : Sequencer) : Params := mkParams (nth 0 0 q.block) (nth 0 1 q.block) (nth 0 2 q.block) (nth 0 3 q.block)

/-- R397: the slot pair of a chunk. -/
def Sequencer.pair (q : Sequencer) (j : Nat) : Nat := (q.params.flg.extractLsb' 0 4).toNat + 2 * (j % 2)

/-- R397: the copy of a step of SEQ.MMA: rows of A, or columns of B. -/
def State.seqMmaCopy (s : State) (q : Sequencer) (j : Nat) (ofB : Bool) : CopyOp :=
  let p := q.params
  let from_ : Word := (if ofB then q.b else q.a) + BitVec.ofNat 64 (192 * j)
  let o := s.copyOf { p with rows := if ofB then p.cols else p.rows, cols := 192 } (.virt from_)
    (.slot (q.pair j + (if ofB then 1 else 0)) 0) (if ofB then p.aux.toNat else p.stride) 0
  { o with counts := false, seqStep := some q.next }

/-- R397: the matrix operation of a chunk. -/
def State.seqMmaOp (s : State) (q : Sequencer) (j : Nat) : MmaOp :=
  let p := q.params
  let e := q.pair j
  { seat := s.focus.seat, asid := s.fasid, acc := (p.flg.extractLsb' 4 2).toNat, sa := e, sb := e + 1, bar := p.bar,
    zero := j == 0 && p.flg.getLsbD 6, rows := p.rows, cols := p.cols, efr := q.efr, l6q := q.l6q, waits := none,
    seqStep := some q.next, last := j + 1 == q.c.toNat, failed := ((s.fcore).mmaCheck e (e + 1) p.rows p.cols s.fresh).map (·.1),
    status := 0 }

/-- R397: the matrix step of a chunk: it waits for its rows to land and for a place. -/
def State.seqMmaStep (s : State) (q : Sequencer) (j : Nat) : Run := do
  let o := s.seqMmaOp q j
  s.awaitScore (.rows o.sa 0 (o.rows - 1))
  s.awaitScore (.rows o.sb 0 (o.cols - 1))
  if s.fcore.arrayFull then stallX else
  .ok (s.newOp s.focus.core (.mma o))

/-- R398: the copy of a step of SEQ.CPY. -/
def State.seqCpyCopy (s : State) (q : Sequencer) : CopyOp :=
  let p := q.params
  let done := q.next * p.rows
  let ep (local_ : Bool) (v : Word) (stride : Nat) : Endpoint :=
    let x := v + BitVec.ofNat 64 (done * stride)
    if local_ then .spad x else .virt x
  let o := s.copyOf { p with rows := Nat.min p.rows (q.c.toNat - done) } (ep (p.flg.getLsbD 0) q.a p.stride)
    (ep (p.flg.getLsbD 2) q.b p.aux.toNat) p.stride p.aux.toNat
  { o with seqStep := some q.next }

/-- R396, R397, R398: the next step of the macro-op of the seat in focus. -/
def State.seqStep (s : State) (q : Sequencer) : Run :=
  if q.kind = 2 then s.copy (s.seqCpyCopy q) (.ok ()) (.ok ())
  else
    let j := q.next / 3
    if q.next % 3 = 2 then s.seqMmaStep q j
    else s.copy (s.seqMmaCopy q j (q.next % 3 == 1)) (.ok ()) (.ok ())

/-- The number of steps of a macro-op. -/
def Sequencer.steps (q : Sequencer) : Nat :=
  if q.kind = 2 then (q.c.toNat + q.params.rows - 1) / Nat.max q.params.rows 1 else 3 * q.c.toNat

/-- R399: a step has issued; with the last one the sequencer is idle. -/
def Seat.stepDone (t : Seat) (q : Sequencer) : Seat :=
  { t with seq := if q.next + 1 < q.steps then some { q with next := q.next + 1, stuck := false } else none }

/-- R235, R399: whether the sequencer of a seat may issue its next step: a trap entry or a pre-emption lets it come to its next matrix
step. -/
def Seat.seqGoes (t : Seat) (stop : Bool) : Bool :=
  match t.run with
  | .running => !(stop && t.seqStopped)
  | .leaving _ => !(stop && t.seqStopped)
  | .stopped => !(stop && t.seqStopped)
  | .entering _ => !t.seqStopped
  | _ => false

/-- R399: a fault of a step is raised at the seat before its next bundle; one that a trap entry or a pre-emption has come before is raised
when the step issues again. -/
def State.seqFault (s : State) (core x : Nat) (cause : BitVec 8) (faddr : Word) : State :=
  let s := s.modSeat core x (fun t => { t with seq := t.seq.map (fun q => { q with stuck := true }) })
  let t := s.seatAt core x
  let e : Entry := { cause := cause, faddr := faddr, slot := 3, pblk := false, epc := t.pc }
  if halted (s.core core) then s else
  match t.run with
  | .entering _ => s
  | _ => s.setSeat core x { t with deferred := some e }

end Sys2Proof.Machine
end

