-- ==== Sys2Proof/Machine/Pair.lean ====
section
/-! DEFINITION. Redundant pairs: what a divergence of the members leads to (R466 to R468). The members hold the same values, so the state
holds them once, at the primary; the shadow's seat has its own core, TLB and errors (assumption log entry 98). -/

namespace Sys2Proof.Machine

/-- R468: FADDR of a divergence: the core, and 0 for a CRC mismatch or 1 for a one-sided cause. -/
def pairInfo (core code : Nat) : Word := BitVec.ofNat 64 (code * 0x1000 + core % 512)

/-- R468: the events of KIND 1 to 5 that a die's log holds of a core. -/
def Die.errorsOf (d : Die) (core : Nat) : Nat :=
  (d.events.filter (fun e => let w := (nth 0 2 e).toNat; decide (w / 0x10000 = core ∧ 1 ≤ w % 256 ∧ w % 256 ≤ 5))).length

/-- R468: the suspect of a pair. -/
def State.suspectOf (s : State) (primary shadow : Nat) : Nat :=
  let d := s.die (dieOf primary)
  if s.quarantined primary != s.quarantined shadow then (if s.quarantined primary then primary else shadow)
  else if d.errorsOf shadow < d.errorsOf primary then primary else shadow

/-- What serves a seat of a retired primary serves it on its partner: its own requests, and those of its operations. -/
def HostUse.takeOver (n p x : Nat) (ids : List Nat) : HostUse → HostUse
  | .seatRead c y pa => .seatRead (if c = n ∧ y = x then p else c) y pa
  | .seatWrite c y v => .seatWrite (if c = n ∧ y = x then p else c) y v
  | .coreOp c id => .coreOp (if c = n ∧ ids.contains id = true then p else c) id
  | .resole c y => .resole (if c = n ∧ y = x then p else c) y
  | u => u

/-- The references to a seat of a retired primary in the rest of the device. -/
def State.takeOverRefs (s : State) (n p x : Nat) (ids : List Nat) : State :=
  let seat (q : Nat × Nat) : Nat × Nat := if q = (n, x) then (p, x) else q
  let op (q : Nat × Nat) : Nat × Nat := if q.1 = n ∧ ids.contains q.2 = true then (p, q.2) else q
  let req (r : HostReq) : HostReq := { r with use := r.use.takeOver n p x ids }
  { s with
    dies := s.dies.map (fun d => (d.1, { d.2 with bte := d.2.bte.map (fun e => (e.1, { e.2 with seat := e.2.seat.map seat })) }))
    host := { s.host with reqs := s.host.reqs.map (fun e => (e.1, req e.2)), later := s.host.later.map (fun e => (e.1, (e.2.1, req e.2.2))) }
    resole := { s.resole with txs := s.resole.txs.map (fun e => (e.1, { e.2 with committer := e.2.committer.map op })) } }

/-- R468: the survivor goes on where the shadow ran: the values of the seat, of its window, of the accumulators, slots, tables and leaf
objects are those that the shadow holds; its LCID map entry follows it where the partner has none. -/
def State.takeOver (s : State) (n p x : Nat) : State :=
  let src := s.core n
  let t := s.seatAt n x
  let mine (o : OpSlot) : Bool := o.state == .claimed x
  let ops := src.ops.filter (fun o => o.2.seat == x)
  let ids := ops.map (·.1)
  let s := s.modCore p (fun c => { moveWindow { src with leftWins := [] } c [t] with
    acc := src.acc, codeTable := src.codeTable, patterns := src.patterns, bank := src.bank, leaf := src.leaf
    slots := (src.slots.filter (fun e => mine e.2)).foldl (fun m e => aput e.1 e.2 m) c.slots
    ops := ops.foldl (fun m e => aput e.1 e.2 m) c.ops
    opLent := (src.opLent.filter (fun e => ids.contains e.1)).foldl (fun m e => aput e.1 e.2 m) c.opLent
    copyLog := c.copyLog ++ src.copyLog.filter (fun e => e.seat == x)
    reissue := c.reissue ++ src.reissue.filter (fun o => o.seat == x) })
  let s := s.modCore n (fun c => { c with
    slots := c.slots.map (fun e => (e.1, if mine e.2 then { e.2 with state := .free } else e.2))
    ops := c.ops.filter (fun o => !ids.contains o.1), opLent := c.opLent.filter (fun e => !ids.contains e.1)
    copyLog := c.copyLog.filter (fun e => e.seat != x), reissue := c.reissue.filter (fun o => o.seat != x) })
  let s := ((s.setSeat n x Seat.reset).setSeat p x t).takeOverRefs n p x ids
  match s.lcidOf n, s.lcidOf p with
  | some l, none => { s with fe := { s.fe with lcid := aput l (BitVec.ofNat 32 (0x80000000 + p)) s.fe.lcid } }
  | _, _ => s

/-- R464, R468: the pair of a primary's seat is dissolved: the suspect's core is retired and quarantined, and the survivor continues
unpaired and takes PAIR_DIVERGENCE at its next boundary. -/
def State.dissolve (s : State) (n p x code : Nat) : State :=
  let bad := s.suspectOf n p
  let s := (((s.logEvent n 6 (pairInfo bad code)).setCoreBit 0x00090410 bad).setCoreBit 0x00090400 bad).modSeat n x (fun t =>
    { t with pair := none, async := t.async ++ [(0x53#8, pairInfo bad code)] })
  if bad = n then s.takeOver n p x else s.setSeat p x Seat.reset

/-- R466: the shadow after what the primary has done: its registers are the primary's, its TLB and its CRC its own. -/
def State.follow (s : State) (n p x : Nat) (tlb : List TlbEntry) : State :=
  let t := s.seatAt n x
  if t.pair != some (p, true) then s else
  (s.modCore p (fun c => { c with tlb := tlb })).modSeat p x (fun k =>
    { k with file := t.file, pc := t.pc, npc := t.npc, issued := t.issued, tm := t.tm, live := t.live, snapDone := t.snapDone })

/-- R458, R459, R468: a divergence of the pair whose primary is a seat, logged at the core of the member concerned: both
members roll back to their last commit; in the rerun of the same phase the pair is dissolved. A phase that cannot be rolled back ends
the context (assumption log entry 133). -/
def State.diverge (s : State) (n p x at_ code : Nat) : State :=
  let again := (s.seatAt n x).apart
  let s := (s.logEvent at_ 5 (pairInfo at_ code)).modSeat p x (fun t => { t with async := [] })
  if !s.canRollback n x then s.fatal n x 0x53
  else if again then (s.rollback n x).dissolve n p x code
  else ((s.rollback n x).modSeat n x (fun t => { t with apart := true })).follow n p x (s.core p).tlb

/-- R467: whether a pending cause of a member is an error of its own core: in a scratchpad, an operand memory, an accumulator, a register
file or a queue. An error of memory meets both members, since the shadow takes what the primary reads. -/
def ownError (c : BitVec 8 × Word) : Bool :=
  c.1 == 0x52#8 && (let k := (c.2.extractLsb' 60 4).toNat; decide (1 ≤ k ∧ k ≤ 4) || k == 8)

/-- R131: a copy of the primary's side on the shadow's core, whose own TLB translates. -/
def State.twin (s : State) (n p x : Nat) : State :=
  (s.setCore p { s.core n with tlb := (s.core p).tlb }).setSeat p x { s.seatAt n x with pair := some (n, true) }

/-! The sequencer's steps (R396 to R399), which both members of a pair take. -/

/-- R396 to R399: what a step of a seat's sequencer comes to: the state, and the cause with its FADDR that it raises. -/
def State.stepOf (s : State) (core x : Nat) (q : Sequencer) : Option (State × Option Cause) :=
  let f : Focus := { s.focus with core := core, seat := x, slot := 3, opBase := none, status := .issued }
  let s' : State := ({ s with focus := f }).modSeat core x (fun t => { t with latch := none })
  match s'.seqStep q with
  | .ok u => some ({ u.modSeat core x (fun t => t.stepDone q) with focus := s.focus }, none)
  | .error (.raise _ c a _) => some (s.seqFault core x c a, some (c, a))
  | .error (.raiseIn u c a) => some ({ u.seqFault core x c a with focus := s.focus }, some (c, a))
  | .error _ => none

/-- R131, R467: a step of the primary of a pair, with its shadow's: a cause of one of them alone is a divergence. -/
def State.stepPair (s : State) (n p x : Nat) (q : Sequencer) : Option State :=
  match s.stepOf n x q, (s.twin n p x).stepOf p x q with
  | some a, some b =>
    if a.2 = b.2 then some (a.1.follow n p x (b.1.core p).tlb)
    else some (s.diverge n p x (if a.2.isSome then n else p) 1)
  | _, _ => none

/-- R396 to R399: SEQ_STEP_ISSUE. -/
def execSeqStepIssue (core seat : Nat) (s : State) : Host.Outcome State Fault Refusal :=
  dev "SEQ_STEP_ISSUE" (coreThere core && decide (seat < 2)) (
    let t := s.seatAt core seat
    match t.seq with
    | none => none
    | some q =>
      if t.deferred.isSome || !t.seqGoes (halted (s.core core)) then none else
      match t.pair with
      | some (p, true) => s.stepPair core p seat q
      | some (_, false) => none
      | none => (s.stepOf core seat q).map (·.1))

end Sys2Proof.Machine
end

