-- ==== Sys2Proof/Machine/Scalar.lean ====
section
/-! DEFINITION. The scalar arithmetic, compare and predicate instructions of position S (R300 to R311). -/

namespace Sys2Proof.Machine

/-- R301, R303: a scalar result of two registers at a distance. -/
def alu2 (dist : Nat) (f : Word → Word → Word) (d a b : BitVec 6) (g : BitVec 4) (s : State) :
    Host.Outcome State Fault Refusal :=
  slotOp g [.s a, .s b] [.s d] (fun s => .ok (s.wS d (f (s.rS a) (s.rS b)) (s.after dist))) s

/-- R301, R303: a scalar result of one register at distance 1. -/
def alu1 (f : Word → Word) (d a : BitVec 6) (g : BitVec 4) (s : State) : Host.Outcome State Fault Refusal :=
  slotOp g [.s a] [.s d] (fun s => .ok (s.wS d (f (s.rS a)) (s.after 1))) s

/-- R304: bits 63:6 of a shift amount are ignored. -/
def shamt (b : Word) : Nat := b.toNat % 64

/-- R305: signed division truncating towards zero, with its fixed results. -/
def divS (a b : Word) : Word := if b = 0 then BitVec.allOnes 64 else BitVec.ofInt 64 (a.toInt.tdiv b.toInt)
def remS (a b : Word) : Word := if b = 0 then a else BitVec.ofInt 64 (a.toInt.tmod b.toInt)
/-- R305: unsigned division. -/
def divZ (a b : Word) : Word := if b = 0 then BitVec.allOnes 64 else BitVec.ofNat 64 (a.toNat / b.toNat)
def remZ (a b : Word) : Word := if b = 0 then a else BitVec.ofNat 64 (a.toNat % b.toNat)

/-- R303: the earlier divide of a seat completes, and its register becomes full. -/
def Seat.divDone (t : Seat) : Seat :=
  let due : Bool := (aget sreg0 t.divDst.toNat t.file.regs.s).fill == .soon t.divFree
  { (if due then t.settleReg (t.divDst.zeroExtend 8) else t) with divFree := 0 }

/-- R303: a divide or remainder; the seat's one divider must be free. -/
def divide (f : Word → Word → Word) (d a b : BitVec 6) (g : BitVec 4) (s : State) : Host.Outcome State Fault Refusal :=
  slotOp g [.s a, .s b] [.s d] (fun s =>
    -- the seat that waits for its divider lets it finish
    if s.fseat.issued < s.fseat.divFree then holdX (s.modF Seat.divDone) else
    let s' : State := s.wS d (f (s.rS a) (s.rS b)) (s.after 34)
    .ok (s'.modF (fun t => { t with divFree := t.issued + 34, divDst := d }))) s

/-- The number of consecutive bits of one value from a bit down, or up (R306). -/
def clzFrom (w : Word) : Nat → Nat
  | 0 => 0
  | n + 1 => if w.getLsbD n then 0 else 1 + clzFrom w n
def ctzFrom (w : Word) : Nat → Nat
  | 0 => 0
  | n + 1 => if w.getLsbD (63 - n) then 0 else 1 + ctzFrom w n
def popFrom (w : Word) : Nat → Nat
  | 0 => 0
  | n + 1 => (if w.getLsbD n then 1 else 0) + popFrom w n

/-- R306: the position and the width of a bit field. -/
def fieldPos (b : Word) : Nat := (b.extractLsb' 0 6).toNat
def fieldWid (b : Word) : Nat := (b.extractLsb' 8 6).toNat + 1
/-- R306: BEXT and BINS. -/
def bext (a b : Word) : Word := BitVec.ofNat 64 ((a.toNat >>> fieldPos b) % 2 ^ fieldWid b)
def bins (d a b : Word) : Word :=
  let m : Word := BitVec.ofNat 64 ((2 ^ fieldWid b - 1) * 2 ^ fieldPos b)
  (d &&& ~~~m) ||| ((a <<< fieldPos b) &&& m)

def execAdd (d a b : BitVec 6) (g : BitVec 4) (s : State) := alu2 1 (fun x y => x + y) d a b g s
def execSub (d a b : BitVec 6) (g : BitVec 4) (s : State) := alu2 1 (fun x y => x - y) d a b g s
def execAnd (d a b : BitVec 6) (g : BitVec 4) (s : State) := alu2 1 (fun x y => x &&& y) d a b g s
def execOr (d a b : BitVec 6) (g : BitVec 4) (s : State) := alu2 1 (fun x y => x ||| y) d a b g s
def execXor (d a b : BitVec 6) (g : BitVec 4) (s : State) := alu2 1 (fun x y => x ^^^ y) d a b g s
def execShl (d a b : BitVec 6) (g : BitVec 4) (s : State) := alu2 1 (fun x y => x <<< shamt y) d a b g s
def execShr (d a b : BitVec 6) (g : BitVec 4) (s : State) := alu2 1 (fun x y => x >>> shamt y) d a b g s
def execSra (d a b : BitVec 6) (g : BitVec 4) (s : State) := alu2 1 (fun x y => x.sshiftRight (shamt y)) d a b g s
def execMinS (d a b : BitVec 6) (g : BitVec 4) (s : State) := alu2 1 (fun x y => if x.toInt < y.toInt then x else y) d a b g s
def execMinZ (d a b : BitVec 6) (g : BitVec 4) (s : State) := alu2 1 (fun x y => if x.toNat < y.toNat then x else y) d a b g s
def execMaxS (d a b : BitVec 6) (g : BitVec 4) (s : State) := alu2 1 (fun x y => if y.toInt < x.toInt then x else y) d a b g s
def execMaxZ (d a b : BitVec 6) (g : BitVec 4) (s : State) := alu2 1 (fun x y => if y.toNat < x.toNat then x else y) d a b g s
def execMul (d a b : BitVec 6) (g : BitVec 4) (s : State) := alu2 3 (fun x y => x * y) d a b g s
def execMulhS (d a b : BitVec 6) (g : BitVec 4) (s : State) :=
  alu2 4 (fun x y => BitVec.ofInt 64 ((x.toInt * y.toInt).fdiv (2 ^ 64))) d a b g s
def execMulhZ (d a b : BitVec 6) (g : BitVec 4) (s : State) :=
  alu2 4 (fun x y => BitVec.ofNat 64 (x.toNat * y.toNat / 2 ^ 64)) d a b g s
def execDivS (d a b : BitVec 6) (g : BitVec 4) (s : State) := divide divS d a b g s
def execDivZ (d a b : BitVec 6) (g : BitVec 4) (s : State) := divide divZ d a b g s
def execRemS (d a b : BitVec 6) (g : BitVec 4) (s : State) := divide remS d a b g s
def execRemZ (d a b : BitVec 6) (g : BitVec 4) (s : State) := divide remZ d a b g s
def execClz (d a : BitVec 6) (g : BitVec 4) (s : State) := alu1 (fun x => BitVec.ofNat 64 (clzFrom x 64)) d a g s
def execCtz (d a : BitVec 6) (g : BitVec 4) (s : State) := alu1 (fun x => BitVec.ofNat 64 (ctzFrom x 64)) d a g s
def execPopc (d a : BitVec 6) (g : BitVec 4) (s : State) := alu1 (fun x => BitVec.ofNat 64 (popFrom x 64)) d a g s
def execBext (d a b : BitVec 6) (g : BitVec 4) (s : State) := alu2 1 bext d a b g s
/-- R306: BINS reads its destination as source a. -/
def execBins (d a b : BitVec 6) (g : BitVec 4) (s : State) :=
  slotOp g [.s d, .s a, .s b] [.s d] (fun s => .ok (s.wS d (bins (s.rS d) (s.rS a) (s.rS b)) (s.after 1))) s
/-- R307. -/
def execAddsh (d a b : BitVec 6) (sh g : BitVec 4) (s : State) := alu2 1 (fun x y => x + (y <<< sh.toNat)) d a b g s
/-- R307: the selector stalls on empty and never traps. -/
def execSel (d a b : BitVec 6) (pc g : BitVec 4) (s : State) :=
  slotOpA g [.s a, .s b] [.p pc] [.s d] (fun s => .ok (s.wS d (if s.rP pc then s.rS a else s.rS b) (s.after 1))) s
def execAddi (d a : BitVec 6) (imm : BitVec 10) (g : BitVec 4) (s : State) := alu1 (fun x => x + imm.signExtend 64) d a g s
def execAndi (d a : BitVec 6) (imm : BitVec 10) (g : BitVec 4) (s : State) := alu1 (fun x => x &&& imm.signExtend 64) d a g s
def execOri (d a : BitVec 6) (imm : BitVec 10) (g : BitVec 4) (s : State) := alu1 (fun x => x ||| imm.signExtend 64) d a g s
def execXori (d a : BitVec 6) (imm : BitVec 10) (g : BitVec 4) (s : State) := alu1 (fun x => x ^^^ imm.signExtend 64) d a g s
def execShli (d a sh : BitVec 6) (g : BitVec 4) (s : State) := alu1 (fun x => x <<< sh.toNat) d a g s
def execShri (d a sh : BitVec 6) (g : BitVec 4) (s : State) := alu1 (fun x => x >>> sh.toNat) d a g s
def execSrai (d a sh : BitVec 6) (g : BitVec 4) (s : State) := alu1 (fun x => x.sshiftRight sh.toNat) d a g s
/-- R309. -/
def execMovi (d : BitVec 6) (imm : BitVec 16) (g : BitVec 4) (s : State) :=
  slotOp g [] [.s d] (fun s => .ok (s.wS d (imm.signExtend 64) (s.after 1))) s
def execMovh (d : BitVec 6) (imm : BitVec 16) (g : BitVec 4) (s : State) :=
  slotOp g [.s d] [.s d] (fun s => .ok (s.wS d ((s.rS d <<< 16) ||| imm.zeroExtend 64) (s.after 1))) s

/-- R310: a compare into a predicate. -/
def compare (f : Word → Word → Bool) (pd : BitVec 3) (a b : BitVec 6) (g : BitVec 4) (s : State) :
    Host.Outcome State Fault Refusal :=
  slotOp g [.s a, .s b] [.p pd] (fun s => .ok (s.wP pd (f (s.rS a) (s.rS b)))) s

def execCmpEq (pd : BitVec 3) (a b : BitVec 6) (g : BitVec 4) (s : State) := compare (fun x y => x == y) pd a b g s
def execCmpNe (pd : BitVec 3) (a b : BitVec 6) (g : BitVec 4) (s : State) := compare (fun x y => x != y) pd a b g s
def execCmpLtS (pd : BitVec 3) (a b : BitVec 6) (g : BitVec 4) (s : State) := compare (fun x y => decide (x.toInt < y.toInt)) pd a b g s
def execCmpLtZ (pd : BitVec 3) (a b : BitVec 6) (g : BitVec 4) (s : State) := compare (fun x y => decide (x.toNat < y.toNat)) pd a b g s
def execCmpGeS (pd : BitVec 3) (a b : BitVec 6) (g : BitVec 4) (s : State) := compare (fun x y => decide (y.toInt ≤ x.toInt)) pd a b g s
def execCmpGeZ (pd : BitVec 3) (a b : BitVec 6) (g : BitVec 4) (s : State) := compare (fun x y => decide (y.toNat ≤ x.toNat)) pd a b g s

/-- R311: a predicate of two predicates. -/
def pred2 (f : Bool → Bool → Bool) (pd : BitVec 3) (pa pb g : BitVec 4) (s : State) : Host.Outcome State Fault Refusal :=
  slotOp g [.p pa, .p pb] [.p pd] (fun s => .ok (s.wP pd (f (s.rP pa) (s.rP pb)))) s

def execPand (pd : BitVec 3) (pa pb g : BitVec 4) (s : State) := pred2 (fun x y => x && y) pd pa pb g s
def execPor (pd : BitVec 3) (pa pb g : BitVec 4) (s : State) := pred2 (fun x y => x || y) pd pa pb g s
def execPxor (pd : BitVec 3) (pa pb g : BitVec 4) (s : State) := pred2 (fun x y => x != y) pd pa pb g s
def execPandn (pd : BitVec 3) (pa pb g : BitVec 4) (s : State) := pred2 (fun x y => x && !y) pd pa pb g s
def execPmov (pd : BitVec 3) (pa g : BitVec 4) (s : State) :=
  slotOp g [.p pa] [.p pd] (fun s => .ok (s.wP pd (s.rP pa))) s
def execPset (pd : BitVec 3) (val : BitVec 1) (g : BitVec 4) (s : State) :=
  slotOp g [] [.p pd] (fun s => .ok (s.wP pd (val == 1))) s
/-- R265: a NOP does nothing. -/
def execNop (s : State) := slotOp 0 [] [] (fun s => .ok s) s

end Sys2Proof.Machine
end

