-- ==== Sys2Proof/Machine/Sync.lean ====
section
/-! DEFINITION. Atomics, acquire loads and release stores (R401 to R404), fences (R405, R406) and waits on memory (R407 to
R409). -/

namespace Sys2Proof.Machine

/-- R401: the bytes that W names. -/
def syncBytes (w : BitVec 1) : Nat := if w = 1 then 8 else 4

/-- R402: the address check: alignment, translation and attributes. -/
def State.syncPieces (s : State) (va : Word) (n : Nat) (k : Access) : Except Stop (List Piece) :=
  if va.toNat % n ≠ 0 then raiseX 0x26 (transFaddr 0 k va.toNat) else s.seatPieces va n k

/-- R491, R495: an atomic of the seat in focus that the host performs: its old value once the host has answered. It is asked for once
the rest of the bundle can issue (R127). -/
def State.hostAmo (s : State) (va : Word) (pa n : Nat) (op : AmoOp) (x cmp : Word) : Except Stop (List Byte) :=
  let t := s.fseat
  match t.hostData.find? (fun e => e.1 == amoKey pa) with
  | some e => if e.2.2 then raiseX 0x28 (transFaddr 0 .write va.toNat) else .ok e.2.1
  | none =>
    if t.hostWait.isSome then stallX else
    let r : HostReq := { asid := s.fasid, use := .seatRead s.focus.core s.focus.seat (amoKey pa), addr := pa, size := n,
                         write := false, data := natToBytes 8 x.toNat ++ natToBytes 8 cmp.toNat, amo := some op }
    .error (.hold ((s.hostRequest r).modF (fun t => { t with hostWait := some s.host.nextReq, firm := true })) noReg true)

/-- R153, R157: whether an access through pages is a release: an SO page makes every write one, at SYS; a UN page makes none one. The
scope of the release. -/
def releaseScope (rel : Bool) (scope : BitVec 3) (ps : List Piece) : Option Nat :=
  if ps.any (fun p => pteOrd p.leaf.entry == 1) then some 5
  else if !rel || ps.any (fun p => pteOrd p.leaf.entry == 2) then none
  else some scope.toNat

/-- R157, R159: a release waits until it may be performed. -/
def State.awaitRelease (s : State) (scope : Option Nat) : Except Stop Unit :=
  match scope with
  | some n => if s.released n then .ok () else stallX
  | none => .ok ()

/-- R402, R403, R171, R457: an atomic of the seat in focus at an address: the old value and the state after. -/
def State.amo (s : State) (op : AmoOp) (rel : Bool) (scope : BitVec 3) (n : Nat) (va x cmp : Word) : Except Stop (Word × State) := do
  let ps ← s.syncPieces va n .write
  s.awaitRelease (releaseScope rel scope ps)
  match ps with
  | [] => stallX
  | p :: _ =>
    if region p.pa = .host then do
      let s := s.commitF
      let bs ← s.hostAmo va p.pa n op x cmp
      .ok (loadValue n false bs, s.install true ps)
    else
      let s := s.commitF.install true ps
      let r := s.amoAt p.pa op n x cmp
      .ok (if s.poisoned p.pa then (0, r.2.consumeF (s.structF p.pa) p.pa) else r)

/-- R401 to R404: an atomic; with .REL or .AR it is a release. -/
def amoOp (op : AmoOp) (d a b : BitVec 6) (ord : BitVec 2) (scope : BitVec 3) (w : BitVec 1) (s : State) : Host.Outcome State Fault Refusal :=
  slotOp 0 (if op = .cas then [.s d, .s a, .s b] else [.s a, .s b]) [.s d] (fun s => do
    let va := s.rS a
    let r ← s.amo op (ord == 2 || ord == 3) scope (syncBytes w) va (s.rS b) (s.rS d)
    .ok ((r.2.trace s.focus.core s.focus.seat 3 va).loadInto d r.1 40)) s

def execAmoAdd (d a b : BitVec 6) (ord : BitVec 2) (scope : BitVec 3) (w : BitVec 1) (s : State) := amoOp .add d a b ord scope w s
def execAmoAnd (d a b : BitVec 6) (ord : BitVec 2) (scope : BitVec 3) (w : BitVec 1) (s : State) := amoOp .and d a b ord scope w s
def execAmoOr (d a b : BitVec 6) (ord : BitVec 2) (scope : BitVec 3) (w : BitVec 1) (s : State) := amoOp .or d a b ord scope w s
def execAmoXor (d a b : BitVec 6) (ord : BitVec 2) (scope : BitVec 3) (w : BitVec 1) (s : State) := amoOp .xor d a b ord scope w s
def execAmoMinS (d a b : BitVec 6) (ord : BitVec 2) (scope : BitVec 3) (w : BitVec 1) (s : State) := amoOp .minS d a b ord scope w s
def execAmoMaxS (d a b : BitVec 6) (ord : BitVec 2) (scope : BitVec 3) (w : BitVec 1) (s : State) := amoOp .maxS d a b ord scope w s
def execAmoXchg (d a b : BitVec 6) (ord : BitVec 2) (scope : BitVec 3) (w : BitVec 1) (s : State) := amoOp .xchg d a b ord scope w s
def execAmoCas (d a b : BitVec 6) (ord : BitVec 2) (scope : BitVec 3) (w : BitVec 1) (s : State) := amoOp .cas d a b ord scope w s

/-- R401 to R404: LDA. -/
def execLda (d a : BitVec 6) (_scope : BitVec 3) (w : BitVec 1) (s : State) :=
  slotOp 0 [.s a] [.s d] (fun s => do
    let va := s.rS a
    let n := syncBytes w
    let ps ← s.syncPieces va n .regRead
    let r ← s.loadScalar n ps
    .ok ((r.2.trace s.focus.core s.focus.seat 2 va).loadInto d (loadValue n false r.1) 12)) s

/-- R153, R495, R496: a release by the seat in focus: it waits until it may be performed, and at SYS reports a posted store that has
failed. -/
def State.release (s : State) (scope : Option Nat) : Except Stop Unit := do
  s.awaitRelease scope
  s.hostFailCheck (scope == some 5)

/-- R401 to R404: STL. -/
def execStl (a b : BitVec 6) (scope : BitVec 3) (w : BitVec 1) (s : State) :=
  slotOp 0 [.s b, .s a] [] (fun s => do
    let va := s.rS a
    let n := syncBytes w
    let ps ← s.syncPieces va n .regWrite
    s.release (releaseScope true scope ps)
    let t ← s.writeScalar va ps (natToBytes n (s.rS b).toNat) (releaseScope true scope ps)
    .ok (t.trace s.focus.core s.focus.seat 3 va)) s

/-- R405, R160, R495: FENCE: it holds back only the accesses that it orders after it. -/
def execFence (scope : BitVec 3) (kind : BitVec 2) (g : BitVec 4) (s : State) :=
  slotOp g [] [] (fun s => do
    s.hostFailCheck (kind.getLsbD 1 && scope == 5)
    .ok (s.fenceUp kind scope.toNat)) s

/-- R406, R164, R457: XFENCE. -/
def execXfence (p1 _p2 scope : BitVec 3) (g : BitVec 4) (s : State) :=
  slotOp g [] [] (fun s =>
    let s := s.commitF
    if s.drained (fun p => p == p1.toNat) scope.toNat then .ok s else holdX s) s

/-! Waiting on memory. -/

/-- R407: the condition of a wait on n bytes. -/
def waitCond (cond : BitVec 3) (n : Nat) (v x : Word) : Bool :=
  let m := 2 ^ (8 * n)
  let v := v.toNat % m
  let x := x.toNat % m
  match cond.toNat with
  | 0 => v == x
  | 1 => v != x
  | 2 => decide (v < x)
  | 3 => decide (x ≤ v)
  | _ => decide ((v + m - x) % m < m / 2)

/-- R408: the read that decides a wait: whether it is satisfied, and the state after the read. A poisoned block ends the wait. -/
def State.waitRead (s : State) (n : Nat) (cond : BitVec 3) (x : Word) (ps : List Piece) : Except Stop (Bool × State) := do
  let r ← s.loadScalar n ps
  .ok (waitCond cond n (loadValue n false r.1) x || (s.poisonHit ps).isSome, r.2)

/-- The answers of the host are used up; the next read asks again. -/
def State.forgetHost (s : State) : State := s.modF (fun t => { t with hostData := [] })

/-- R408: the stall form. -/
def State.waitStall (s : State) (a b t : BitVec 6) (cond : BitVec 3) (w : BitVec 1) : Run := do
  let va := s.rS a
  let n := syncBytes w
  let ps ← s.syncPieces va n .regRead
  let r ← s.waitRead n cond (s.rS b) ps
  if r.1 then .ok (r.2.trace s.focus.core s.focus.seat 2 va)
  else .error (.hold r.2.forgetHost
    { reg := none, waitv := if (s.rS t).extractLsb' 0 32 = 0 then none else some (transFaddr 0 .read va.toNat) } false)

def execWaitv (a b t : BitVec 6) (cond : BitVec 3) (w : BitVec 1) (_scope : BitVec 3) (s : State) :=
  slotOp 0 [.s a, .s b, .s t] [] (fun s => s.waitStall a b t cond w) s

/-- R409: the suspend form. -/
def execWaitvS (a b t : BitVec 6) (cond : BitVec 3) (w : BitVec 1) (_scope : BitVec 3) (s : State) :=
  slotOp 0 [.s a, .s b, .s t] [] (fun s =>
    if s.staysPut then s.waitStall a b t cond w
    else if stageAct s.src.ctl.stage then raiseX 0x04 0
    else do
      let va := s.rS a
      let n := syncBytes w
      let ps ← s.syncPieces va n .regRead
      let r ← s.waitRead n cond (s.rS b) ps
      let f := transFaddr 0 .read va.toNat
      if r.1 then .ok (r.2.trace s.focus.core s.focus.seat 2 va)
      else if s.fseat.cont.expired then raiseX 0x27 f
      else do
        s.awaitOwnSeq
        .error (.suspend (.line ((nth { va := va, pa := 0, len := n, leaf := { entry := 0, level := 3, at_ := 0, path := [] } } 0 ps).pa / 64 * 64))
          ((s.rS t).extractLsb' 0 32).toNat f)) s

end Sys2Proof.Machine
end

