-- ==== Sys2Proof/Machine/Dispatch.lean ====
section
/-! DEFINITION. What each instruction does: one direct call of its meaning for every constructor of Instr. -/

namespace Sys2Proof.Machine

def exec (i : Instr) (s : State) : Host.Outcome State Fault Refusal :=
  match i with
  | .nop => Sys2Proof.Machine.execNop s
  | .add d a b g => Sys2Proof.Machine.execAdd d a b g s
  | .sub d a b g => Sys2Proof.Machine.execSub d a b g s
  | .and_ d a b g => Sys2Proof.Machine.execAnd d a b g s
  | .or_ d a b g => Sys2Proof.Machine.execOr d a b g s
  | .xor_ d a b g => Sys2Proof.Machine.execXor d a b g s
  | .shl d a b g => Sys2Proof.Machine.execShl d a b g s
  | .shr d a b g => Sys2Proof.Machine.execShr d a b g s
  | .sra d a b g => Sys2Proof.Machine.execSra d a b g s
  | .minS d a b g => Sys2Proof.Machine.execMinS d a b g s
  | .minZ d a b g => Sys2Proof.Machine.execMinZ d a b g s
  | .maxS d a b g => Sys2Proof.Machine.execMaxS d a b g s
  | .maxZ d a b g => Sys2Proof.Machine.execMaxZ d a b g s
  | .mul d a b g => Sys2Proof.Machine.execMul d a b g s
  | .mulhS d a b g => Sys2Proof.Machine.execMulhS d a b g s
  | .mulhZ d a b g => Sys2Proof.Machine.execMulhZ d a b g s
  | .divS d a b g => Sys2Proof.Machine.execDivS d a b g s
  | .divZ d a b g => Sys2Proof.Machine.execDivZ d a b g s
  | .remS d a b g => Sys2Proof.Machine.execRemS d a b g s
  | .remZ d a b g => Sys2Proof.Machine.execRemZ d a b g s
  | .clz d a g => Sys2Proof.Machine.execClz d a g s
  | .ctz d a g => Sys2Proof.Machine.execCtz d a g s
  | .popc d a g => Sys2Proof.Machine.execPopc d a g s
  | .bext d a b g => Sys2Proof.Machine.execBext d a b g s
  | .bins d a b g => Sys2Proof.Machine.execBins d a b g s
  | .addsh d a b sh g => Sys2Proof.Machine.execAddsh d a b sh g s
  | .sel d a b pc g => Sys2Proof.Machine.execSel d a b pc g s
  | .addi d a imm g => Sys2Proof.Machine.execAddi d a imm g s
  | .andi d a imm g => Sys2Proof.Machine.execAndi d a imm g s
  | .ori d a imm g => Sys2Proof.Machine.execOri d a imm g s
  | .xori d a imm g => Sys2Proof.Machine.execXori d a imm g s
  | .shli d a sh g => Sys2Proof.Machine.execShli d a sh g s
  | .shri d a sh g => Sys2Proof.Machine.execShri d a sh g s
  | .srai d a sh g => Sys2Proof.Machine.execSrai d a sh g s
  | .movi d imm g => Sys2Proof.Machine.execMovi d imm g s
  | .movh d imm g => Sys2Proof.Machine.execMovh d imm g s
  | .cmpEq pd a b g => Sys2Proof.Machine.execCmpEq pd a b g s
  | .cmpNe pd a b g => Sys2Proof.Machine.execCmpNe pd a b g s
  | .cmpLtS pd a b g => Sys2Proof.Machine.execCmpLtS pd a b g s
  | .cmpLtZ pd a b g => Sys2Proof.Machine.execCmpLtZ pd a b g s
  | .cmpGeS pd a b g => Sys2Proof.Machine.execCmpGeS pd a b g s
  | .cmpGeZ pd a b g => Sys2Proof.Machine.execCmpGeZ pd a b g s
  | .pand pd pa pb g => Sys2Proof.Machine.execPand pd pa pb g s
  | .por pd pa pb g => Sys2Proof.Machine.execPor pd pa pb g s
  | .pxor pd pa pb g => Sys2Proof.Machine.execPxor pd pa pb g s
  | .pandn pd pa pb g => Sys2Proof.Machine.execPandn pd pa pb g s
  | .pmov pd pa g => Sys2Proof.Machine.execPmov pd pa g s
  | .pset pd val g => Sys2Proof.Machine.execPset pd val g s
  | .bra off g => Sys2Proof.Machine.execBra off g s
  | .call off g => Sys2Proof.Machine.execCall off g s
  | .brar a g => Sys2Proof.Machine.execBrar a g s
  | .ret g => Sys2Proof.Machine.execRet g s
  | .loop a sm1 len => Sys2Proof.Machine.execLoop a sm1 len s
  | .ctlr d cr => Sys2Proof.Machine.execCtlr d cr s
  | .ctlw a cr => Sys2Proof.Machine.execCtlw a cr s
  | .ctlx d a cr => Sys2Proof.Machine.execCtlx d a cr s
  | .trap imm g => Sys2Proof.Machine.execTrap imm g s
  | .eret g => Sys2Proof.Machine.execEret g s
  | .snapst g => Sys2Proof.Machine.execSnapst g s
  | .snaprel g => Sys2Proof.Machine.execSnaprel g s
  | .suspend g => Sys2Proof.Machine.execSuspend g s
  | .yield g => Sys2Proof.Machine.execYield g s
  | .halt g => Sys2Proof.Machine.execHalt g s
  | .waittl a tl cert g => Sys2Proof.Machine.execWaittl a tl cert g s
  | .waittlSusp a tl cert g => Sys2Proof.Machine.execWaittlSusp a tl cert g s
  | .sigtl a tl g => Sys2Proof.Machine.execSigtl a tl g s
  | .ldB d a sp imm g => Sys2Proof.Machine.execLdB d a sp imm g s
  | .ldBs d a sp imm g => Sys2Proof.Machine.execLdBs d a sp imm g s
  | .ldH d a sp imm g => Sys2Proof.Machine.execLdH d a sp imm g s
  | .ldHs d a sp imm g => Sys2Proof.Machine.execLdHs d a sp imm g s
  | .ldW d a sp imm g => Sys2Proof.Machine.execLdW d a sp imm g s
  | .ldWs d a sp imm g => Sys2Proof.Machine.execLdWs d a sp imm g s
  | .ldD d a sp imm g => Sys2Proof.Machine.execLdD d a sp imm g s
  | .stB c a sp imm g => Sys2Proof.Machine.execStB c a sp imm g s
  | .stH c a sp imm g => Sys2Proof.Machine.execStH c a sp imm g s
  | .stW c a sp imm g => Sys2Proof.Machine.execStW c a sp imm g s
  | .stD c a sp imm g => Sys2Proof.Machine.execStD c a sp imm g s
  | .loadComplete core id => Sys2Proof.Machine.execLoadComplete core id s
  | .vmov vd va vm mz g => Sys2Proof.Machine.execVmov vd va vm mz g s
  | .vsplat vd sb vm mz g => Sys2Proof.Machine.execVsplat vd sb vm mz g s
  | .viota vd vm mz g => Sys2Proof.Machine.execViota vd vm mz g s
  | .vextr sd va sb g => Sys2Proof.Machine.execVextr sd va sb g s
  | .vins vd sb sc g => Sys2Proof.Machine.execVins vd sb sc g s
  | .vadd vd va vb vm mz g => Sys2Proof.Machine.execVadd vd va vb vm mz g s
  | .vsub vd va vb vm mz g => Sys2Proof.Machine.execVsub vd va vb vm mz g s
  | .vmul vd va vb vm mz g => Sys2Proof.Machine.execVmul vd va vb vm mz g s
  | .vfma vd va vb vc g => Sys2Proof.Machine.execVfma vd va vb vc g s
  | .vfms vd va vb vc g => Sys2Proof.Machine.execVfms vd va vb vc g s
  | .vmin vd va vb vm mz g => Sys2Proof.Machine.execVmin vd va vb vm mz g s
  | .vmax vd va vb vm mz g => Sys2Proof.Machine.execVmax vd va vb vm mz g s
  | .vdiv vd va vb vm mz g => Sys2Proof.Machine.execVdiv vd va vb vm mz g s
  | .vaddBcast vd va sb vm mz g => Sys2Proof.Machine.execVaddBcast vd va sb vm mz g s
  | .vsubBcast vd va sb vm mz g => Sys2Proof.Machine.execVsubBcast vd va sb vm mz g s
  | .vmulBcast vd va sb vm mz g => Sys2Proof.Machine.execVmulBcast vd va sb vm mz g s
  | .vminBcast vd va sb vm mz g => Sys2Proof.Machine.execVminBcast vd va sb vm mz g s
  | .vmaxBcast vd va sb vm mz g => Sys2Proof.Machine.execVmaxBcast vd va sb vm mz g s
  | .vdivBcast vd va sb vm mz g => Sys2Proof.Machine.execVdivBcast vd va sb vm mz g s
  | .viaddBcast vd va sb vm mz g => Sys2Proof.Machine.execViaddBcast vd va sb vm mz g s
  | .visubBcast vd va sb vm mz g => Sys2Proof.Machine.execVisubBcast vd va sb vm mz g s
  | .vimulBcast vd va sb vm mz g => Sys2Proof.Machine.execVimulBcast vd va sb vm mz g s
  | .vandBcast vd va sb vm mz g => Sys2Proof.Machine.execVandBcast vd va sb vm mz g s
  | .vorBcast vd va sb vm mz g => Sys2Proof.Machine.execVorBcast vd va sb vm mz g s
  | .vxorBcast vd va sb vm mz g => Sys2Proof.Machine.execVxorBcast vd va sb vm mz g s
  | .vshlBcast vd va sb vm mz g => Sys2Proof.Machine.execVshlBcast vd va sb vm mz g s
  | .vshrBcast vd va sb vm mz g => Sys2Proof.Machine.execVshrBcast vd va sb vm mz g s
  | .vabs vd va vm mz g => Sys2Proof.Machine.execVabs vd va vm mz g s
  | .vneg vd va vm mz g => Sys2Proof.Machine.execVneg vd va vm mz g s
  | .vrcp vd va vm mz g => Sys2Proof.Machine.execVrcp vd va vm mz g s
  | .vrsq vd va vm mz g => Sys2Proof.Machine.execVrsq vd va vm mz g s
  | .vsqrt vd va vm mz g => Sys2Proof.Machine.execVsqrt vd va vm mz g s
  | .vexp2 vd va vm mz g => Sys2Proof.Machine.execVexp2 vd va vm mz g s
  | .vlog2 vd va vm mz g => Sys2Proof.Machine.execVlog2 vd va vm mz g s
  | .viadd vd va vb vm mz g => Sys2Proof.Machine.execViadd vd va vb vm mz g s
  | .visub vd va vb vm mz g => Sys2Proof.Machine.execVisub vd va vb vm mz g s
  | .vimul vd va vb vm mz g => Sys2Proof.Machine.execVimul vd va vb vm mz g s
  | .vand vd va vb vm mz g => Sys2Proof.Machine.execVand vd va vb vm mz g s
  | .vor vd va vb vm mz g => Sys2Proof.Machine.execVor vd va vb vm mz g s
  | .vxor vd va vb vm mz g => Sys2Proof.Machine.execVxor vd va vb vm mz g s
  | .vshl vd va vb vm mz g => Sys2Proof.Machine.execVshl vd va vb vm mz g s
  | .vshr vd va vb vm mz g => Sys2Proof.Machine.execVshr vd va vb vm mz g s
  | .vcmpEq vd va vb g => Sys2Proof.Machine.execVcmpEq vd va vb g s
  | .vcmpNe vd va vb g => Sys2Proof.Machine.execVcmpNe vd va vb g s
  | .vcmpLt vd va vb g => Sys2Proof.Machine.execVcmpLt vd va vb g s
  | .vcmpLe vd va vb g => Sys2Proof.Machine.execVcmpLe vd va vb g s
  | .vcmpGt vd va vb g => Sys2Proof.Machine.execVcmpGt vd va vb g s
  | .vcmpGe vd va vb g => Sys2Proof.Machine.execVcmpGe vd va vb g s
  | .vcmpUn vd va vb g => Sys2Proof.Machine.execVcmpUn vd va vb g s
  | .vsel vd va vb vc g => Sys2Proof.Machine.execVsel vd va vb vc g s
  | .vcvtFi vd va vm mz g => Sys2Proof.Machine.execVcvtFi vd va vm mz g s
  | .vcvtFit vd va vm mz g => Sys2Proof.Machine.execVcvtFit vd va vm mz g s
  | .vcvtIf vd va vm mz g => Sys2Proof.Machine.execVcvtIf vd va vm mz g s
  | .vcvtFb vd va vm mz g => Sys2Proof.Machine.execVcvtFb vd va vm mz g s
  | .vcvtFt8 vd va vm mz g => Sys2Proof.Machine.execVcvtFt8 vd va vm mz g s
  | .vcvtFt6 vd va vm mz g => Sys2Proof.Machine.execVcvtFt6 vd va vm mz g s
  | .vredSum vd va g => Sys2Proof.Machine.execVredSum vd va g s
  | .vredMax vd va g => Sys2Proof.Machine.execVredMax vd va g s
  | .vredMin vd va g => Sys2Proof.Machine.execVredMin vd va g s
  | .vrrowSum vd va g => Sys2Proof.Machine.execVrrowSum vd va g s
  | .vrrowMax vd va g => Sys2Proof.Machine.execVrrowMax vd va g s
  | .vrrowMin vd va g => Sys2Proof.Machine.execVrrowMin vd va g s
  | .vscanSum vd va g => Sys2Proof.Machine.execVscanSum vd va g s
  | .vscanMax vd va g => Sys2Proof.Machine.execVscanMax vd va g s
  | .vscanMin vd va g => Sys2Proof.Machine.execVscanMin vd va g s
  | .vcnt sd va g => Sys2Proof.Machine.execVcnt sd va g s
  | .vocc sd va g => Sys2Proof.Machine.execVocc sd va g s
  | .vrcoal vd va tol g => Sys2Proof.Machine.execVrcoal vd va tol g s
  | .vreshape vd va g => Sys2Proof.Machine.execVreshape vd va g s
  | .vbrow vd va g => Sys2Proof.Machine.execVbrow vd va g s
  | .vbcol vd va g => Sys2Proof.Machine.execVbcol vd va g s
  | .vperm vd va pat g => Sys2Proof.Machine.execVperm vd va pat g s
  | .patld va pat g => Sys2Proof.Machine.execPatld va pat g s
  | .patsw g => Sys2Proof.Machine.execPatsw g s
  | .vattc vd va vb g => Sys2Proof.Machine.execVattc vd va vb g s
  | .vld v a sp fsel pb g => Sys2Proof.Machine.execVld v a sp fsel pb g s
  | .vlds v a sp fsel pb g => Sys2Proof.Machine.execVlds v a sp fsel pb g s
  | .vldRun v a sp pb g => Sys2Proof.Machine.execVldRun v a sp pb g s
  | .vectorLoadComplete core id => Sys2Proof.Machine.execVectorLoadComplete core id s
  | .vst v a sp fsel pb g => Sys2Proof.Machine.execVst v a sp fsel pb g s
  | .vstRun v a sp pb g => Sys2Proof.Machine.execVstRun v a sp pb g s
  | .tagrd d a sp g => Sys2Proof.Machine.execTagrd d a sp g s
  | .tagwr a b sp g => Sys2Proof.Machine.execTagwr a b sp g s
  | .prefL1 base len => Sys2Proof.Machine.execPrefL1 base len s
  | .prefL2 base len => Sys2Proof.Machine.execPrefL2 base len s
  | .cflush base len => Sys2Proof.Machine.execCflush base len s
  | .cinv base len => Sys2Proof.Machine.execCinv base len s
  | .osclaim os g => Sys2Proof.Machine.execOsclaim os g s
  | .osclaimT os g => Sys2Proof.Machine.execOsclaimT os g s
  | .osrel os g => Sys2Proof.Machine.execOsrel os g s
  | .slotFree core slot => Sys2Proof.Machine.execSlotFree core slot s
  | .mma acc sa sb bar g => Sys2Proof.Machine.execMma acc sa sb bar g s
  | .mmaz acc sa sb bar g => Sys2Proof.Machine.execMmaz acc sa sb bar g s
  | .mmaComplete core id err => Sys2Proof.Machine.execMmaComplete core id err s
  | .accrd v acc rg cls g => Sys2Proof.Machine.execAccrd v acc rg cls g s
  | .accwr v acc rg g => Sys2Proof.Machine.execAccwr v acc rg g s
  | .accz acc g => Sys2Proof.Machine.execAccz acc g s
  | .accst acc a sp g => Sys2Proof.Machine.execAccst acc a sp g s
  | .efrw a g => Sys2Proof.Machine.execEfrw a g s
  | .ctwr v a g => Sys2Proof.Machine.execCtwr v a g s
  | .spswap g => Sys2Proof.Machine.execSpswap g s
  | .cpy a b ssp dsp g => Sys2Proof.Machine.execCpy a b ssp dsp g s
  | .cpyMma a dslot oslot acc side z ssp g => Sys2Proof.Machine.execCpyMma a dslot oslot acc side z ssp g s
  | .cpyg a b c los g => Sys2Proof.Machine.execCpyg a b c los g s
  | .cpys a b c los g => Sys2Proof.Machine.execCpys a b c los g s
  | .cpyw a b dos g => Sys2Proof.Machine.execCpyw a b dos g s
  | .copyLand core id count => Sys2Proof.Machine.execCopyLand core id count s
  | .followOnMma core id => Sys2Proof.Machine.execFollowOnMma core id s
  | .bte a b c tag => Sys2Proof.Machine.execBte a b c tag s
  | .bteTransferEnd die id => Sys2Proof.Machine.execBteTransferEnd die id s
  | .barInit obj a b g => Sys2Proof.Machine.execBarInit obj a b g s
  | .barLink obj a g => Sys2Proof.Machine.execBarLink obj a g s
  | .barExp obj a g => Sys2Proof.Machine.execBarExp obj a g s
  | .barArr obj g => Sys2Proof.Machine.execBarArr obj g s
  | .barWait obj a tr g => Sys2Proof.Machine.execBarWait obj a tr g s
  | .barWaitS obj a tr g => Sys2Proof.Machine.execBarWaitS obj a tr g s
  | .barTest obj a d g => Sys2Proof.Machine.execBarTest obj a d g s
  | .barStat obj a d g => Sys2Proof.Machine.execBarStat obj a d g s
  | .seqMma a b c g => Sys2Proof.Machine.execSeqMma a b c g s
  | .seqCpy a b c g => Sys2Proof.Machine.execSeqCpy a b c g s
  | .seqStepIssue core seat => Sys2Proof.Machine.execSeqStepIssue core seat s
  | .amoAdd d a b ord scope w => Sys2Proof.Machine.execAmoAdd d a b ord scope w s
  | .amoAnd d a b ord scope w => Sys2Proof.Machine.execAmoAnd d a b ord scope w s
  | .amoOr d a b ord scope w => Sys2Proof.Machine.execAmoOr d a b ord scope w s
  | .amoXor d a b ord scope w => Sys2Proof.Machine.execAmoXor d a b ord scope w s
  | .amoMinS d a b ord scope w => Sys2Proof.Machine.execAmoMinS d a b ord scope w s
  | .amoMaxS d a b ord scope w => Sys2Proof.Machine.execAmoMaxS d a b ord scope w s
  | .amoXchg d a b ord scope w => Sys2Proof.Machine.execAmoXchg d a b ord scope w s
  | .amoCas d a b ord scope w => Sys2Proof.Machine.execAmoCas d a b ord scope w s
  | .lda d a scope w => Sys2Proof.Machine.execLda d a scope w s
  | .stl a b scope w => Sys2Proof.Machine.execStl a b scope w s
  | .fence scope kind g => Sys2Proof.Machine.execFence scope kind g s
  | .xfence p1 p2 scope g => Sys2Proof.Machine.execXfence p1 p2 scope g s
  | .waitv a b t cond w scope => Sys2Proof.Machine.execWaitv a b t cond w scope s
  | .waitvS a b t cond w scope => Sys2Proof.Machine.execWaitvS a b t cond w scope s
  | .waitTimeout w => Sys2Proof.Machine.execWaitTimeout w s
  | .kvwalk a b c g => Sys2Proof.Machine.execKvwalk a b c g s
  | .kvapp a b c g => Sys2Proof.Machine.execKvapp a b c g s
  | .kvcommit c g => Sys2Proof.Machine.execKvcommit c g s
  | .kvfork a g => Sys2Proof.Machine.execKvfork a g s
  | .kvroll a g => Sys2Proof.Machine.execKvroll a g s
  | .kvsplice a b c g => Sys2Proof.Machine.execKvsplice a b c g s
  | .kvprov a b g => Sys2Proof.Machine.execKvprov a b g s
  | .repairM a b c g => Sys2Proof.Machine.execRepairM a b c g s
  | .repairI a b c g => Sys2Proof.Machine.execRepairI a b c g s
  | .repstat c g => Sys2Proof.Machine.execRepstat c g s
  | .attq a b c g => Sys2Proof.Machine.execAttq a b c g s
  | .attqRo a b c g => Sys2Proof.Machine.execAttqRo a b c g s
  | .kvAccept core seat => Sys2Proof.Machine.execKvAccept core seat s
  | .kvComplete core id => Sys2Proof.Machine.execKvComplete core id s
  | .kvPoolWaitEnd core seat => Sys2Proof.Machine.execKvPoolWaitEnd core seat s
  | .collPut a b c g => Sys2Proof.Machine.execCollPut a b c g s
  | .collGet a b c g => Sys2Proof.Machine.execCollGet a b c g s
  | .collAdd a b c g => Sys2Proof.Machine.execCollAdd a b c g s
  | .collMax a b c g => Sys2Proof.Machine.execCollMax a b c g s
  | .collMin a b c g => Sys2Proof.Machine.execCollMin a b c g s
  | .collChunkReceive ch => Sys2Proof.Machine.execCollChunkReceive ch s
  | .collAck core id ok => Sys2Proof.Machine.execCollAck core id ok s
  | .collChunkTimeout chunk id => Sys2Proof.Machine.execCollChunkTimeout chunk id s
  | .collComplete core id => Sys2Proof.Machine.execCollComplete core id s
  | .rsbegin a c g => Sys2Proof.Machine.execRsbegin a c g s
  | .rswrite a b c g => Sys2Proof.Machine.execRswrite a b c g s
  | .rscommit a c g => Sys2Proof.Machine.execRscommit a c g s
  | .rsabort a g => Sys2Proof.Machine.execRsabort a g s
  | .rsstat a b c g => Sys2Proof.Machine.execRsstat a b c g s
  | .journalWriteAttempt handle ok => Sys2Proof.Machine.execJournalWriteAttempt handle ok s
  | .commitRecord handle => Sys2Proof.Machine.execCommitRecord handle s
  | .resoleApply handle ok => Sys2Proof.Machine.execResoleApply handle ok s
  | .trapEntry core seat => Sys2Proof.Machine.execTrapEntry core seat s
  | .watchdog core seat => Sys2Proof.Machine.execWatchdog core seat s
  | .continuationPlace core seat => Sys2Proof.Machine.execContinuationPlace core seat s
  | .ageing die entry => Sys2Proof.Machine.execAgeing die entry s
  | .placementBound die entry => Sys2Proof.Machine.execPlacementBound die entry s
  | .waitWake die entry => Sys2Proof.Machine.execWaitWake die entry s
  | .preemptRequest lcid => Sys2Proof.Machine.execPreemptRequest lcid s
  | .preemptSaveComplete core => Sys2Proof.Machine.execPreemptSaveComplete core s
  | .saveDeadline core => Sys2Proof.Machine.execSaveDeadline core s
  | .frameRestore die entry core => Sys2Proof.Machine.execFrameRestore die entry core s
  | .migrationRequest lcid target => Sys2Proof.Machine.execMigrationRequest lcid target s
  | .migrationStop core => Sys2Proof.Machine.execMigrationStop core s
  | .migrationFallback core => Sys2Proof.Machine.execMigrationFallback core s
  | .kick q w => Sys2Proof.Machine.execKick q w s
  | .map slot => Sys2Proof.Machine.execMap slot s
  | .park slot => Sys2Proof.Machine.execPark slot s
  | .parkComplete slot => Sys2Proof.Machine.execParkComplete slot s
  | .resume slot => Sys2Proof.Machine.execResume slot s
  | .unmap slot => Sys2Proof.Machine.execUnmap slot s
  | .packetFetch slot => Sys2Proof.Machine.execPacketFetch slot s
  | .nopPacket slot => Sys2Proof.Machine.execNopPacket slot s
  | .launch slot => Sys2Proof.Machine.execLaunch slot s
  | .gang slot => Sys2Proof.Machine.execGang slot s
  | .gangRetry slot => Sys2Proof.Machine.execGangRetry slot s
  | .gangBound slot => Sys2Proof.Machine.execGangBound slot s
  | .signal slot => Sys2Proof.Machine.execSignal slot s
  | .waittlPacket slot => Sys2Proof.Machine.execWaittlPacket slot s
  | .waittlPacketTimeout slot => Sys2Proof.Machine.execWaittlPacketTimeout slot s
  | .btePacket slot => Sys2Proof.Machine.execBtePacket slot s
  | .kill slot => Sys2Proof.Machine.execKill slot s
  | .killComplete asid => Sys2Proof.Machine.execKillComplete asid s
  | .fencePacket slot => Sys2Proof.Machine.execFencePacket slot s
  | .marker slot => Sys2Proof.Machine.execMarker slot s
  | .open_ slot => Sys2Proof.Machine.execOpen slot s
  | .close slot => Sys2Proof.Machine.execClose slot s
  | .buffers slot => Sys2Proof.Machine.execBuffers slot s
  | .send slot => Sys2Proof.Machine.execSend slot s
  | .packetComplete pkt => Sys2Proof.Machine.execPacketComplete pkt s
  | .tladd tl v => Sys2Proof.Machine.execTladd tl v s
  | .tlbiRange asid => Sys2Proof.Machine.execTlbiRange asid s
  | .tlbiAsid asid => Sys2Proof.Machine.execTlbiAsid asid s
  | .tlbiGlobalRange => Sys2Proof.Machine.execTlbiGlobalRange s
  | .tlbiAll => Sys2Proof.Machine.execTlbiAll s
  | .tlbiReserved kind => Sys2Proof.Machine.execTlbiReserved kind s
  | .tlbiComplete => Sys2Proof.Machine.execTlbiComplete s
  | .pin slice entry ppn => Sys2Proof.Machine.execPin slice entry ppn s
  | .unpin slice entry => Sys2Proof.Machine.execUnpin slice entry s
  | .pinComplete slice entry => Sys2Proof.Machine.execPinComplete slice entry s
  | .lcidMapWrite lcid v => Sys2Proof.Machine.execLcidMapWrite lcid v s
  | .scanRequest die core => Sys2Proof.Machine.execScanRequest die core s
  | .scanComplete die cluster pass => Sys2Proof.Machine.execScanComplete die cluster pass s
  | .suspack tl => Sys2Proof.Machine.execSuspack tl s
  | .apply => Sys2Proof.Machine.execApply s
  | .errorDetected e => Sys2Proof.Machine.execErrorDetected e s
  | .tileIdleRet core => Sys2Proof.Machine.execTileIdleRet core s
  | .tileIdleOff core => Sys2Proof.Machine.execTileIdleOff core s
  | .tileWakeComplete core => Sys2Proof.Machine.execTileWakeComplete core s
  | .targetActive => Sys2Proof.Machine.execTargetActive s
  | .targetListen => Sys2Proof.Machine.execTargetListen s
  | .targetDormant => Sys2Proof.Machine.execTargetDormant s
  | .wakeComplete => Sys2Proof.Machine.execWakeComplete s
  | .alarm => Sys2Proof.Machine.execAlarm s
  | .thermalWarn core => Sys2Proof.Machine.execThermalWarn core s
  | .thermalThrottle core => Sys2Proof.Machine.execThermalThrottle core s
  | .throttleEnd core => Sys2Proof.Machine.execThrottleEnd core s
  | .thermalTrip core => Sys2Proof.Machine.execThermalTrip core s
  | .powerCap => Sys2Proof.Machine.execPowerCap s
  | .powerLoss => Sys2Proof.Machine.execPowerLoss s
  | .coldStart keyA keyB => Sys2Proof.Machine.execColdStart keyA keyB s
  | .install => Sys2Proof.Machine.execInstall s
  | .advance => Sys2Proof.Machine.execAdvance s
  | .attest => Sys2Proof.Machine.execAttest s
  | .tcmopen => Sys2Proof.Machine.execTcmopen s
  | .securityCommandComplete key rand => Sys2Proof.Machine.execSecurityCommandComplete key rand s
  | .h2fdbWrite v => Sys2Proof.Machine.execH2fdbWrite v s
  | .f2hdbWrite v => Sys2Proof.Machine.execF2hdbWrite v s
  | .hostRead off size => Sys2Proof.Machine.execHostRead off size s
  | .hostWrite off bytes => Sys2Proof.Machine.execHostWrite off bytes s
  | .hostAtomic off size op x cmp => Sys2Proof.Machine.execHostAtomic off size op x cmp s
  | .hostCompletion id data => Sys2Proof.Machine.execHostCompletion id data s
  | .hostLinkTimeout id => Sys2Proof.Machine.execHostLinkTimeout id s
  | .hivtEnable vec en => Sys2Proof.Machine.execHivtEnable vec en s
  | .ethFrameReceive port frame => Sys2Proof.Machine.execEthFrameReceive port frame s
  | .tustep v => Sys2Proof.Machine.execTustep v s
  | .rtpPacketReceive stream path pkt => Sys2Proof.Machine.execRtpPacketReceive stream path pkt s
  | .frameStart stream => Sys2Proof.Machine.execFrameStart stream s
  | .frameDeadline stream => Sys2Proof.Machine.execFrameDeadline stream s
  | .frameTransmit stream => Sys2Proof.Machine.execFrameTransmit stream s
  | .traceResume core => Sys2Proof.Machine.execTraceResume core s
  | .monitorClear core mon => Sys2Proof.Machine.execMonitorClear core mon s
  | .registerWrite by_ off size v => Sys2Proof.Machine.execRegisterWrite by_ off size v s
  | .ethLinkChange port up => Sys2Proof.Machine.execEthLinkChange port up s
  | .hostLinkTraining modules => Sys2Proof.Machine.execHostLinkTraining modules s
  | .powerCapRelease => Sys2Proof.Machine.execPowerCapRelease s
  | .trippedTileCooled core => Sys2Proof.Machine.execTrippedTileCooled core s
  | .accstLand core id => Sys2Proof.Machine.execAccstLand core id s
  | .monitorTemperatureSample core mon temp => Sys2Proof.Machine.execMonitorTemperatureSample core mon temp s

end Sys2Proof.Machine
end

