-- ==== Sys2Proof/Machine/Issue.lean ====
section
/-! DEFINITION. The issue of a bundle: fetching it with its parameter positions, the order of its causes, its slots as one
whole, the loop boundary after it (R127, R130, R264 to R280, R284, R301, R433); and the merge of a core's two seats (R220). -/

namespace Sys2Proof.Machine

/-- The outcome that stops the machine. -/
abbrev Out := Host.Outcome State Fault Refusal

/-- What a seat's attempt comes to: nothing issues; a boundary event takes place (a trap entry, the end of a program); or a
bundle issues, which occupies positions and owns parameter positions. -/
inductive Attempt where
  | stalled (s : State)
  | event (s : State)
  | issued (s : State) (occupied : List Nat) (blocks : Nat)
  deriving DecidableEq, Repr

def Attempt.state : Attempt → State
  | .stalled s => s
  | .event s => s
  | .issued s _ _ => s

/-- One slot of the bundle that is to issue: its position, instruction, parameter position with its words, and the header's
presence and trap bits. -/
structure SlotPlan where
  slot : Nat
  instr : Instr
  blockAddr : Nat
  block : List W32
  header : Bool
  traps : BitVec 3
  deriving DecidableEq, Repr

/-- R71: pending EFR writes that are due at the seat's next bundle take effect. -/
def Seat.applyEfr (t : Seat) : Seat :=
  let due := t.efrPend.filter (fun e => decide (e.1 ≤ t.issued))
  match due.getLast? with
  | some e => { t with efrPend := t.efrPend.filter (fun e => decide (t.issued < e.1)),
                       file := { t.file with ctl := { t.file.ctl with efr := e.2 } } }
  | none => t

/-- The bytes of the translated pieces of a fetch by the seat in focus; those in the host window come through the host port (R40, R42). -/
def State.fetchPieces (s : State) : List Piece → Except Stop (List Byte)
  | [] => .ok []
  | p :: ps => do
    let b ← if region p.pa = .host then s.hostGet .fetch (pteCp p.leaf.entry) p.va p.pa p.len else .ok (s.readPieces [p])
    let r ← s.fetchPieces ps
    .ok (b ++ r)

/-- R124, R130: the page of a position. -/
def State.fetchPage (s : State) (pc : BitVec 51) : Except Stop (List Piece) :=
  match s.pieces s.focus.core s.fasid .fetch [(pcWord pc, 16)] with
  | .error c => .error (s.transStop .fetch [] c)
  | .ok ps => .ok ps

/-- R39, R92, R130: the seat in focus fetches the 16 bytes of a position: its bytes and the pieces that gave them. -/
def State.fetch (s : State) (pc : BitVec 51) : Except Stop (List Byte × List Piece) := do
  let ps ← s.fetchPage pc
  if ps.any (fun p => s.pinBusy p.pa) then stallX else
  let bs ← s.fetchPieces ps
  .ok (bs, ps)

/-- The four words of a parameter position. -/
def blockWords (bs : List Byte) : List W32 :=
  [0, 4, 8, 12].map (fun o => BitVec.ofNat 32 (bytesToNat ((bs.drop o).take 4)))

/-- R277: the seat in focus fetches the parameter positions of a bundle for the slots that own them, in slot order; what stops the first
that does not come, with its slot. -/
def State.fetchBlocks (s : State) : BitVec 51 → List Nat → Except (Nat × Stop) (List (Nat × Nat × List W32) × List Piece)
  | _, [] => .ok ([], [])
  | pc, k :: ks =>
    match s.fetch pc with
    | .error c => .error (k, c)
    | .ok b =>
      match s.fetchBlocks (pc + 1) ks with
      | .error e => .error e
      | .ok r => .ok ((k, pcVa pc, blockWords b.1) :: r.1, b.2 ++ r.2)

/-- The slots of a bundle that are not NOPs. -/
def plans (b : Bundle) (blocks : List (Nat × Nat × List W32)) : List SlotPlan :=
  let hdr := b.hdr.isSome
  let bits (k : Nat) : BitVec 3 := match b.hdr with
    | some h => if k = 1 then h.t1 else if k = 2 then h.t2 else if k = 3 then h.t3 else 0
    | none => 0
  let plan (k : Nat) (i : Instr) : List SlotPlan :=
    if i = .nop then [] else
    let q := (blocks.find? (fun e => e.1 == k)).getD (k, 0, [])
    [{ slot := k, instr := i, blockAddr := q.2.1, block := q.2.2, header := hdr, traps := bits k }]
  plan 0 b.s ++ plan 1 b.v ++ plan 2 b.m ++ plan 3 b.c

/-- The state in which a slot of a bundle runs. -/
def State.focusOn (s : State) (core x : Nat) (ph : Phase) (base : Option Nat) (seqNext : BitVec 51) (p : SlotPlan) : State :=
  { s with focus := { core := core, seat := x, slot := p.slot, phase := ph, blockAddr := p.blockAddr, block := p.block,
                      header := p.header, traps := p.traps, opBase := base, seqNext := seqNext, status := .issued } }

/-- What the slots of a bundle come to together: the state after those that issue, the causes raised, the first that waits for a register,
the first that has something to wait for, the first that would change memory by what it starts, the first suspension, and whether
a slot needs a commit before the bundle (R457). -/
structure Chain where
  cur : State
  raised : List (CauseClass × Nat × Entry)
  stalled : Option (SlotPlan × Stall)
  held : Option (SlotPlan × Stall)
  late : Option (SlotPlan × Stall)
  susp : Option SlotPlan
  commits : Bool
  deriving DecidableEq, Repr

def Chain.start (s : State) : Chain :=
  { cur := s, raised := [], stalled := none, held := none, late := none, susp := none, commits := false }

/-- What a slot that has run adds to the chain; one that does not issue has no effect. -/
def Chain.add (c : Chain) (core x : Nat) (p : SlotPlan) (t : State) : Chain :=
  let c := { c with commits := c.commits || (t.seatAt core x).phaseNo != (c.cur.seatAt core x).phaseNo }
  match t.focus.status with
  | .issued => { c with cur := t }
  | .raised cls e => { c with raised := c.raised ++ [(cls, p.slot, e)] }
  | .stalled w => { c with stalled := c.stalled.or (some (p, w)) }
  | .holding w last => if last then { c with late := c.late.or (some (p, w)) } else { c with held := c.held.or (some (p, w)) }
  | .suspended _ _ _ => { c with susp := c.susp.or (some p) }

/-- Runs the slots of a bundle in order. -/
def runSlots (core x : Nat) (ph : Phase) (base : Option Nat) (seqNext : BitVec 51) :
    List SlotPlan → Chain → Except Out Chain
  | [], c => .ok c
  | p :: ps, c =>
    match exec p.instr (c.cur.focusOn core x ph base seqNext p) with
    | .next t => runSlots core x ph base seqNext ps (c.add core x p t)
    | .fault r => .error (.fault r)
    | .refused r => .error (.refused r)

/-- R433: the classes of causes in their order. -/
def CauseClass.rank : CauseClass → Nat
  | .params => 0
  | .regs => 1
  | .exec => 2

/-- R433: the cause that is taken first. -/
def firstCause (l : List (CauseClass × Nat × Entry)) : Option (Nat × Entry) :=
  let best (cls : Nat) := l.find? (fun e => e.1.rank == cls)
  ((best 0).or ((best 1).or (best 2))).map (·.2)

/-- Runs one slot by itself from a state before the bundle. -/
def runAlone (s : State) (core x : Nat) (base : Option Nat) (seqNext : BitVec 51) (p : SlotPlan) : State :=
  match exec p.instr (s.focusOn core x .probe base seqNext p) with
  | .next t => t
  | _ => s

/-- R111, R523: a seat that stalled for an entry of the scoreboard does so no longer. -/
def State.scoreEnds (s : State) (core x : Nat) (before : State) : State :=
  let scoring (s : State) : Bool := match (s.seatAt core x).stall with
    | some w => w.score
    | none => false
  if scoring before && !scoring s then s.observe core 4 else s

/-- A slot that waits, run by itself from the state before the bundle: what it has started stays. -/
def waitAlone (s : State) (core x : Nat) (base : Option Nat) (seqNext : BitVec 51) (p : SlotPlan) (w : Stall) : State :=
  let t := runAlone s core x base seqNext p
  (match t.focus.status with
    | .stalled _ => t
    | .holding _ _ => t
    | _ => (s.focusOn core x .probe base seqNext p).stallF w).scoreEnds core x s

/-- R127: the translations of a bundle of which a slot begins a step hold until the bundle issues: those that its other slots have found,
and its own. -/
def State.keepXlat (s : State) (core x : Nat) (cur : State) : State :=
  let mine (e : TlbEntry) : Bool := e.asid == (s.seatAt core x).file.ctl.asid || pteG e.leaf
  let a := (cur.core core).tlb.filter mine
  let b := (s.core core).tlb.filter (fun e => mine e && !a.contains e)
  s.modSeat core x (fun t => { t with keep := some (a ++ b) })

/-- R127, R433 item 3: what keeps a bundle from issuing, from the state before it: a stall; else a cause; else what a slot starts once the
rest of the bundle can issue; else a suspension. -/
def Chain.refusal (c : Chain) (s : State) (core x : Nat) (base : Option Nat) (seqNext : BitVec 51) (ps : List SlotPlan) :
    Option Attempt :=
  match c.stalled.or c.held with
  | some (p, w) => some (.stalled (waitAlone s core x base seqNext p w))
  | none =>
    match firstCause c.raised with
    | some (k, e) =>
      let t := match ps.find? (fun p => p.slot == k) with
        | some p => runAlone s core x base seqNext p
        | none => s
      some (if t.focus.status = .raised .exec e then .event t else .event (s.takeCause core x e))
    | none =>
      match c.late with
      | some (p, w) => some (.stalled ((waitAlone s core x base seqNext p w).keepXlat core x c.cur))
      | none =>
        match c.susp with
        | some p => some (.event (runAlone s core x base seqNext p))
        | none => none

/-- R456, R457: whether the seat commits before the bundle: a slot needs it, and neither a register nor a cause keeps the bundle back. The
commit makes room for a store that finds the queue full. -/
def Chain.mustCommit (c : Chain) : Bool :=
  c.commits && c.stalled.isNone && (c.held.isSome || c.raised.all (fun e => e.2.2.cause == 0x56#8))

/-- R519: whether a slot of the bundle writes a predicate. -/
def writesPred (s : State) (p : SlotPlan) : Bool :=
  p.instr.dests.any (fun d => match d with
    | .p i => i != 0
    | _ => false) && s.rP p.instr.guard

/-- R462: the task of a seat counts the cores that have issued its bundles. -/
def State.contribute (s : State) (core x : Nat) : State :=
  let t := s.seatAt core x
  let ran := t.runsOn core
  let s := s.setSeat core x { t with ranOn := ran }
  match alook (tagEntry t.cont.tag) s.fe.entries with
  | some e =>
    let more := ran.filter (fun c => !e.cores.contains c)
    if more.isEmpty then s
    else { s with fe := { s.fe with entries := aput (tagEntry t.cont.tag) { e with cores := e.cores ++ more } s.fe.entries } }
  | none => s

/-- R7, R284, R318: the bundle has issued: its number counts, the next one follows, and an iteration boundary takes place
where the last position of a loop's body issued with no taken branch. -/
def Seat.advance (t : Seat) (before : Seat) (seqNext : BitVec 51) : Seat :=
  let c0 := before.file.ctl
  let atEnd := stageAct c0.stage && inBody c0 before.pc && !t.taken &&
    seqNext == loopStart c0.loopb + BitVec.ofNat 51 (loopLen c0.loopb)
  let t := { t with issued := t.issued + 1, latch := none, tmWas := none, stall := none, hostWait := none, hostData := [], keep := none, firm := false, judged := false,
                    cont := if t.tm then t.cont else { t.cont with expired := false } }
  if t.run != .running then { t with pc := t.npc, taken := false }
  else if atEnd then
    let r := t.file.ctl.boundary
    let tgt := if r.2 then loopStart c0.loopb else seqNext
    { t with file := { t.file with ctl := r.1 }, pc := tgt, npc := tgt, taken := false }
  else { t with pc := t.npc, taken := false }

/-- The state after a bundle has issued. -/
def State.issue (s : State) (core x : Nat) (before : State) (seqNext : BitVec 51) (ps : List SlotPlan) : State :=
  let s := s.setSeat core x ((s.seatAt core x).advance (before.seatAt core x) seqNext)
  let s := (s.scoreEnds core x before).contribute core x
  if ps.any (writesPred before) then s.trace core x 1 (s.seatAt core x).predWord else s

/-- R284: the slot whose parameter position would fall beyond the end of the body of the active loop. -/
def blockBeyond (c : CtlRegs) (pc : BitVec 51) (owners : List Nat) : Option Nat :=
  if stageAct c.stage && inBody c pc then
    let room := loopLen c.loopb - 1 - (pc - loopStart c.loopb).toNat
    owners[room]?
  else none

/-- R232: whether a migration stops the seat at this bundle. -/
def stopsAt (c : Core) (b : Bundle) : Bool :=
  match c.stopping with
  | some (.migrate _) => (match b.hdr with
      | some h => h.b == 1
      | none => false)
  | _ => false

/-- R301, R325: the slots of a bundle read the values from before it. -/
def State.latched (s : State) (core x : Nat) (seqNext : BitVec 51) : State :=
  s.modSeat core x (fun t => { t with latch := some t.file, tmWas := some t.tm, npc := seqNext, taken := false })

/-- R127, R457: a decoded bundle issues as one whole, after the commit that it needs; or what comes of it instead. -/
def State.runBundle (s : State) (core x : Nat) (seqNext : BitVec 51) (ps : List SlotPlan) (occupied : List Nat) (blocks : Nat) :
    Except Out Attempt :=
  let finish (s : State) (base : Option Nat) (c : Chain) : Attempt :=
    (c.refusal s core x base seqNext ps).getD (.issued (c.cur.issue core x s seqNext ps) occupied blocks)
  let base := some s.nextOp
  match runSlots core x .probe base seqNext ps (Chain.start (s.latched core x seqNext)) with
  | .error o => .error o
  | .ok c =>
    if !c.mustCommit then .ok (finish s base c) else
    -- R381, R457: the seat stalls while the copies that the commit issues do not all find a place
    let r := s.commitPart core x
    if !r.2 then .ok (.stalled r.1) else
    let base := some r.1.nextOp
    match runSlots core x .commit base seqNext ps (Chain.start (r.1.latched core x seqNext)) with
    | .error o => .error o
    | .ok c => .ok (finish r.1 base c)

/-- R127, R433 item 3: the attempt of a running seat to issue its next bundle. -/
def State.tryBundle (s : State) (core x : Nat) : Except Out Attempt :=
  let s : State := { s with focus := { s.focus with core := core, seat := x } }
  let t := s.seatAt core x
  let entry (cause : BitVec 8) (f : Word) (slot : Nat) (pblk : Bool) : Entry :=
    { cause := cause, faddr := f, slot := slot, pblk := pblk, epc := t.pc }
  let trap (e : Entry) : Except Out Attempt := .ok (.event (s.takeCause core x e))
  let stopped (slot : Nat) (pblk : Bool) : Stop → Except Out Attempt
    | .raise _ c f _ => trap (entry c f slot pblk)
    | .raiseIn u c f => .ok (.event (u.takeCause core x (entry c f slot pblk)))
    | .hold u _ _ => .ok (.stalled u)
    | _ => .ok (.stalled s)
  match s.fetch t.pc with
  | .error c => stopped 0 false c
  | .ok f =>
    let w : BundleBits := BitVec.ofNat 128 (bytesToNat f.1)
    let owners := blockOwners w
    match s.fetchBlocks (t.pc + 1) owners with
    | .error (k, c) => stopped k true c
    | .ok blocks =>
      match decodeBundle w with
      | .error e => trap (entry 0x01 (pcWord t.pc) e.slot false)
      | .ok b =>
        match blockBeyond t.file.ctl t.pc owners with
        | some k => trap (entry 0x04 0 k false)
        | none =>
          let pieces := f.2 ++ blocks.2
          if stopsAt (s.core core) b && !t.firm then .ok (.event (s.setSeat core x { t with run := .stopped }))
          else
            match s.poisonHit pieces with
            | some pa => .ok (.event (s.consumeF (s.structF pa) pa))
            | none =>
              let ps := plans b blocks.1
              let occupied := (if b.hdr.isSome then [0] else []) ++ ps.map (·.slot)
              (s.installPieces core t.file.ctl.asid false pieces).runBundle core x (t.pc + 1 + BitVec.ofNat 51 owners.length) ps occupied
                owners.length

def Attempt.map (f : State → State) : Attempt → Attempt
  | .stalled s => .stalled (f s)
  | .event s => .event (f s)
  | .issued s o b => .issued (f s) o b

/-- R127: the attempt of a bundle under the translations that hold for it. -/
def State.tryKept (s : State) (core x : Nat) : Except Out Attempt :=
  match (s.seatAt core x).keep with
  | none => s.tryBundle core x
  | some l =>
    let own := (s.core core).tlb
    let back (u : State) : State := u.modCore core (fun c => { c with tlb := c.tlb.filter (fun e => own.contains e || !l.contains e) })
    ((s.modCore core (fun c => { c with tlb := l ++ c.tlb })).tryBundle core x).map (Attempt.map back)

/-- R235, R451: the attempt of a seat whose core is to be pre-empted: its bundle does not issue, but a cause that is due is taken first. -/
def State.judgeBundle (s : State) (core x : Nat) : Except Out Attempt :=
  let s : State := s.modSeat core x (fun t => { t with judged := true })
  (s.tryBundle core x).map (fun a => match a with
    | .event u => (match (u.seatAt core x).run with
        | .leaving _ => .stalled s
        | .stopped => .stalled s
        | _ => .event u)
    | _ => .stalled s)

/-- R433: one attempt of a seat at its bundle boundary, by itself. -/
def State.attemptAlone (s : State) (core x : Nat) : Except Out Attempt :=
  let t := s.seatAt core x
  match t.run with
  | .leaving l =>
    match s.boundaryCause core x with
    | some r => .ok (.event r)
    | none =>
    if t.mayLeave then
      let r := if t.file.ctl.phaseEn && s.needsCommit core x then s.commitPart core x else (s, true)
      if r.2 then .ok (.event (r.1.finishLeave core x l)) else .ok (.stalled r.1)
    else .ok (.stalled (s.setSeat core x t.settle))
  | .entering _ =>
    (match s.boundaryCause core x with
      | some r => .ok (.event r)
      | none => .ok (.stalled (s.setSeat core x t.settleHigh)))
  | .running =>
    if t.shadow || (halted (s.core core) && t.judged && !t.firm) then .ok (.stalled s) else
    (match s.boundaryCause core x with
      | some r => .ok (.event r)
      | none =>
        let s := s.setSeat core x (t.applyEfr.landFlags t.issued)
        -- R381, R458: the copies that a rollback issues again come before the bundles after it
        let s := s.reissueCopies core
        if (s.core core).reissue.any (fun o => o.seat == x) then .ok (.stalled s)
        else if halted (s.core core) && !t.firm then s.judgeBundle core x else s.tryKept core x)
  | _ => .ok (.stalled s)

/-- What a member's attempt comes to, as the other's is compared with it: nothing, a bundle, or an event with its cause and FADDR. -/
def Attempt.verdict (a : Attempt) (core x : Nat) : Nat × W32 × Word :=
  match a with
  | .stalled _ => (0, 0, 0)
  | .issued _ _ _ => (1, 0, 0)
  | .event t => (2, (t.seatAt core x).file.ctl.cause, (t.seatAt core x).file.ctl.faddr)

/-- R457: whether an attempt of a seat has performed what its queue held, or has ended its phase. -/
def State.committed (s u : State) (core x : Nat) : Bool :=
  (u.seatAt core x).phaseNo != (s.seatAt core x).phaseNo || decide ((u.core core).psq x < (s.core core).psq x) ||
  !(u.seatAt core x).busy

/-- R131, R467: the attempt of the primary of a pair, with its shadow's: a cause that one of them alone raises is a divergence, and so is a
commit at which their CRCs differ. -/
def State.attemptPair (s : State) (n p x : Nat) : Except Out Attempt :=
  let t := s.seatAt n x
  if t.run == .running && (match t.nextAsync with
    | some c => ownError c
    | none => false) then
    .ok (.event ((s.setSeat n x { t with async := t.async.filter (fun c => !ownError c) }).diverge n p x n 1))
  else
    match s.attemptAlone n x with
    | .error o => .error o
    | .ok a =>
      if s.crcApart n x && s.committed a.state n x then .ok (.event (s.diverge n p x n 0)) else
      match a with
      | .stalled u => .ok (.stalled u)
      | a =>
        match (s.twin n p x).attemptAlone p x with
        | .error o => .error o
        | .ok b =>
          if a.verdict n x = b.verdict p x then .ok (a.map (fun u => u.follow n p x (b.state.core p).tlb))
          else .ok (.event (s.diverge n p x (match a with
            | .event _ => n
            | _ => p) 1))

/-- R433, R467: one attempt of a seat at its bundle boundary; a shadow moves with its primary, unless an error of its own strikes it. -/
def State.attempt (s : State) (core x : Nat) : Except Out Attempt :=
  match (s.seatAt core x).pair with
  | some (p, true) => s.attemptPair core p x
  | some (n, false) =>
    if (s.seatAt core x).async.any ownError && (s.seatAt n x).run == .running then .ok (.event (s.diverge n core x core 1)) else .ok (.stalled s)
  | none => s.attemptAlone core x

/-! The merge stage (R220). -/

/-- R220: passed[x] of a core. -/
def Core.passed (c : Core) (x : Nat) : Nat := if x = 0 then c.passed0 else c.passed1
def Core.setPassed (c : Core) (n0 n1 : Nat) : Core := { c with passed0 := n0, passed1 := n1 }

/-- R220: the primary seat of a cycle in which both are ready. -/
def State.primary (s : State) (core : Nat) : Nat :=
  let c := s.core core
  let role (x : Nat) := ((s.seatAt core x).file.ctl.role.extractLsb' 0 2).toNat
  if c.age.toNat ≤ c.passed0 then 0 else if c.age.toNat ≤ c.passed1 then 1
  else if role 1 ≤ role 0 then 0 else 1

/-- R89, R93, R220: a cycle ends: each seat that was ready and did not issue counts one more cycle passed over; a seat that has issued, and
one that was not ready, counts 0 (assumption log entry 35). The sets of the caches give up what they hold beyond their ways. -/
def State.endCycle (s : State) (core : Nat) (ready issued : Nat → Bool) : State :=
  let c := s.core core
  let up (x : Nat) : Nat := if ready x && !issued x then c.passed x + 1 else 0
  let s := s.setCore core (c.setPassed (up 0) (up 1))
  let s := (s.traceFlush core).trim
  { s with cycle := s.cycle + (if c.throttled || s.power.capped then 2 else 1) }

/-- R220, R277: the parameter positions that an issued bundle owns take cycles of their own; where both bundles of a cycle own some, the
primary's come first. -/
def State.owe (s : State) (core x n : Nat) : State :=
  if n = 0 then s else s.modCore core (fun c =>
    if c.paramLeft = 0 then { c with paramSeat := x, paramLeft := n } else { c with paramNext := n })
def Core.payParam (c : Core) : Core :=
  if c.paramLeft = 1 ∧ c.paramNext ≠ 0 then { c with paramSeat := 1 - c.paramSeat, paramLeft := c.paramNext, paramNext := 0 }
  else { c with paramLeft := c.paramLeft - 1 }

/-- R220: whether two bundles share no position. -/
def disjoint (a b : List Nat) : Bool := a.all (fun i => !b.contains i)

/-- R220: one seat issues alone. -/
def State.issueOne (core x : Nat) (a : Attempt) (ready : Nat → Bool) : State :=
  match a with
  | .issued t _ n => (t.owe core x n).endCycle core ready (fun y => y == x)
  | a => a.state.endCycle core ready (fun _ => false)

/-- R220: both seats are ready: the primary issues, and the secondary in the same cycle where no position is shared. -/
def State.issueBoth (s : State) (core : Nat) : Except Out State :=
  let x := s.primary core
  match s.attempt core x with
  | .error o => .error o
  | .ok (.issued t occ n) =>
    let t := t.owe core x n
    (match t.attempt core (1 - x) with
      | .error o => .error o
      | .ok (.issued u occ' n') =>
        if disjoint occ occ' then .ok ((u.owe core (1 - x) n').endCycle core (fun _ => true) (fun _ => true))
        else .ok (t.endCycle core (fun _ => true) (fun y => y == x))
      | .ok _ => .ok (t.endCycle core (fun _ => true) (fun y => y == x)))
  | .ok a => .ok (a.state.endCycle core (fun _ => true) (fun _ => false))

/-- R220, R221: one cycle of a core's merge stage. Boundary events of either seat take place first. -/
def State.coreCycle (s : State) (core : Nat) : Except Out State :=
  if (s.core core).tile != .on then .ok { s with cycle := s.cycle + 1 } else
  let owed := (s.core core).paramLeft
  match s.attempt core 0 with
  | .error o => .error o
  | .ok a0 =>
    let r0 := match a0 with
      | .issued _ _ _ => true
      | _ => false
    let s1 := if r0 then s else a0.state
    match s1.attempt core 1 with
    | .error o => .error o
    | .ok a1 =>
      let r1 := match a1 with
        | .issued _ _ _ => true
        | _ => false
      let s2 := if r1 then s1 else a1.state
      let ready (x : Nat) : Bool := if x = 0 then r0 else r1
      if owed != 0 then
        let p := (s2.core core).paramSeat
        .ok ((s2.modCore core Core.payParam).endCycle core ready (fun y => y == p))
      else if r0 && r1 then s2.issueBoth core
      else if r0 then
        (match s2.attempt core 0 with
          | .error o => .error o
          | .ok a => .ok (State.issueOne core 0 a ready))
      else if r1 then .ok (State.issueOne core 1 a1 ready)
      else .ok (s2.endCycle core ready (fun _ => false))

/-! Time. -/

/-- R502: the parts per 10^12 of a nanosecond that pass with some ns of the oscillator, at the offset that TUFREQ holds. -/
def State.tuParts (s : State) (ns : Nat) : Nat :=
  ((s.net.timeFrac : Int) + ns * (10 ^ 12 + (s.ctlW 0 0x0300F000).toInt)).toNat

/-- R290, R502: time passes for the clock and the time unit. -/
def State.tick (s : State) (cycles ns : Nat) : State :=
  { s with cycle := s.cycle + cycles
           net := { s.net with timeNs := s.net.timeNs + s.tuParts ns / 10 ^ 12, timeFrac := s.tuParts ns % 10 ^ 12 } }

/-- Whether a core has a seat that may move. -/
def State.coreBusy (s : State) (core : Nat) : Bool := (s.seatAt core 0).busy || (s.seatAt core 1).busy

end Sys2Proof.Machine
end

