-- ==== Sys2Proof/Machine/Policy.lean ====
section
/-! DEFINITION. The policy core as a party: its address map with the two windows (R261), and the interrupt lines it sees (R262, R477,
R539). The instructions it executes are not the spec's. -/

namespace Sys2Proof.Machine

/-- R262, R539: mip.MEIP, the external interrupt pending bit of the policy core. -/
def State.meip (s : State) : Bool := s.fe.fwirq &&& s.ctlW 0 0x00401004 != 0

/-- R477: its local interrupt 16. -/
def State.powerIrq (s : State) : Bool := s.power.evt &&& s.ctlW 0 0x05000014 != 0

/-- What an address of the policy core names (R261). -/
inductive PolicyPlace where
  | tcm (off : Nat)
  | win (n off : Nat)
  | device (pa : Nat)
  | ctl (off : Nat)
  | nothing
  deriving DecidableEq, Repr

/-- R261: the address map. -/
def State.policyPlace (s : State) (a : Nat) : PolicyPlace :=
  if a < 0x40000 then .tcm a
  else if a < 0x40010 then .win ((a - 0x40000) / 8) (a % 8)
  else if a < 0x40000000 then .nothing
  else if a < 0x60000000 then .device (s.policy.win0.toNat * 0x20000000 + a % 0x20000000)
  else if a < 0x80000000 then .device (s.policy.win1.toNat * 0x20000000 + a % 0x20000000)
  else if a < 0x100000000 then .ctl (a - 0x80000000)
  else .nothing

/-- R261: a window register, of which bits 18:0 are held. -/
def State.winReg (s : State) (n : Nat) : Word := (if n = 0 then s.policy.win0 else s.policy.win1).zeroExtend 64
def State.setWin (s : State) (n : Nat) (v : Word) : State :=
  if n = 0 then { s with policy := { s.policy with win0 := v.extractLsb' 0 19 } }
  else { s with policy := { s.policy with win1 := v.extractLsb' 0 19 } }

/-- What a load has answered. -/
def State.policyAnswer (s : State) (r : Option (List Byte)) : State :=
  { s with policy := { s.policy with replies := s.policy.replies ++ [r] } }

/-- R39: control space takes aligned accesses of 4 bytes from the policy core. -/
def State.policyCtlLoad (s : State) (off size : Nat) : State :=
  if size = 4 ∧ off % 4 = 0 then s.policyAnswer (some (s.ctlRead .fw off 4)) else s.policyAnswer none

/-- R261: a load. Device memory is read at its home (UC); a poisoned block gives bytes that nothing states. -/
def State.policyLoad (s : State) (a size : Nat) : State :=
  match s.policyPlace a with
  | .tcm o => if o + size ≤ 0x40000 then s.policyAnswer (some ((List.range size).map (fun i => s.tcmByte (o + i)))) else s.policyAnswer none
  | .win n o => s.policyAnswer (some ((natToBytes 16 ((s.winReg n).toNat)).drop o |>.take size))
  | .ctl o => s.policyCtlLoad o size
  | .nothing => s.policyAnswer none
  | .device pa =>
    match region pa with
    | .hole => s.policyAnswer none
    | .control => s.policyCtlLoad (pa - 0x40000000000) size
    | .host =>
      ({ s with policy := { s.policy with waiting := true } } : State).hostRequest
        { asid := 0, use := .policy, addr := pa, size := size, write := false, data := [] }
    | _ =>
      if s.poisoned pa then
        ({ s with fresh := s.fresh + size } : State).policyAnswer (some ((List.range size).map (fun i => Config.freeByte (s.fresh + i))))
      else s.policyAnswer (some ((List.range size).map (fun i => s.homeByte (pa + i))))

/-- R39: a store to control space. -/
def State.policyCtlStore (s : State) (off : Nat) (bs : List Byte) : Option State :=
  if bs.length = 4 ∧ off % 4 = 0 then s.ctlWrite .fw off 4 (BitVec.ofNat 64 (bytesToNat bs)) else some (s.policyAnswer none)

/-- R261, R35, R36: a store. Device memory is written at its home (UC) and keeps its tag (R47); MRAM takes no ordinary store. -/
def State.policyStore (s : State) (a : Nat) (bs : List Byte) : Option State :=
  match s.policyPlace a with
  | .tcm o =>
    if o + bs.length ≤ 0x40000 then some (((List.range bs.length).zip bs).foldl (fun (s : State) e => s.putTcm (o + e.1) e.2) s)
    else some (s.policyAnswer none)
  | .win n o =>
    let old := natToBytes 8 (s.winReg n).toNat
    some (s.setWin n (BitVec.ofNat 64 (bytesToNat ((old.take o ++ bs ++ old.drop (o + bs.length)).take 8))))
  | .ctl o => s.policyCtlStore o bs
  | .nothing => some (s.policyAnswer none)
  | .device pa =>
    match region pa with
    | .lpddr => some (s.putHomes pa bs)
    | .control => s.policyCtlStore (pa - 0x40000000000) bs
    | .host => some (s.hostWrites .policyWrite 0 pa bs)
    | _ => some (s.policyAnswer none)

/-- R153, R261: the stores of the policy core to the host have been performed: a later store is ordered after them. -/
def State.policyQuiet (s : State) : Bool := (s.hostWriting (fun r => r.use == .policyWrite)).isEmpty

/-- R261: an access of 1, 2 or 4 bytes, naturally aligned; in program order, and only while firmware runs. -/
def policyStep (a : PolicyAccess) (s : State) : Host.Outcome State Fault Refusal :=
  let ok (addr n : Nat) : Bool := (n == 1 || n == 2 || n == 4) && addr % n == 0
  dev "POLICY_ACCESS" (match a with
      | .load addr n => ok addr n
      | .store addr bs => ok addr bs.length) (
    if s.policy.waiting || !s.sec.bootOk || s.power.state == 3 then none else
    match a with
    | .load addr n => some (s.policyLoad addr n)
    | .store addr bs => if s.policyQuiet then s.policyStore addr bs else none)

end Sys2Proof.Machine
end

