-- ==== Sys2Proof/Machine/Step.lean ====
section
/-! DEFINITION. The step of the machine: the actor at the head of the agenda moves, or, with an empty agenda, the core in
focus. After it, the state in which an instruction stands where the step fetches its next one. -/

namespace Sys2Proof.Machine

/-- An outcome from a cycle of a core. -/
def ofCycle (r : Except Out State) : Host.Outcome State Fault Refusal :=
  match r with
  | .ok s => .next s
  | .error o => o

/-- R474: what can happen to a device without power. -/
def isColdStart : Instr → Bool
  | .coldStart _ _ => true
  | _ => false

/-- R93, R170: an L1 or a slice gives up a line, which it may do at any time; one that it does not hold stays away. -/
def State.evict (s : State) (l2 : Bool) (unit line : Nat) : State := if l2 then s.evictL2 unit line else s.evictL1 unit line

/-- One step. A slot instruction is no actor by itself: it runs in its bundle. -/
def step (s : State) : Host.Outcome State Fault Refusal :=
  match s.agenda with
  | .core n :: r => ofCycle (({ s with agenda := r }).coreCycle n)
  | .dev i :: r => if i.isSlot then .refused (.notEnabled "slot instruction as an actor") else
      if s.power.state = 3 ∧ !isColdStart i then .refused (.notEnabled "a device without power") else exec i { s with agenda := r }
  | .access a :: r => hostAsk "HOST_ACCESS" a { s with agenda := r }
  | .policy a :: r => policyStep a { s with agenda := r }
  | .time c n :: r => .next (({ s with agenda := r }).tick c n)
  | .evict l2 unit line :: r => .next (State.evict { s with agenda := r } l2 unit line)
  | [] => if s.coreBusy s.focus.core then ofCycle (s.coreCycle s.focus.core) else .next (s.tick 1 0)

/-- The program that withFetchWord places stands at virtual address 0x10000 of ASID 1, whose tables stand in LPDDR-6: the
ASID table at 0x100000, one table per level from 0x200000 on, and the program's page at 0x300000. -/
def progBase : Nat := 0x300000

/-- The bytes of the tables: ASID 1's entry, one entry per level, and a leaf that may be read, written and fetched. -/
def progTables : List (Nat × Nat) :=
  [(0x100008, 0x8000000000000000 + 0x20 * 0x10000), (0x200000, 0x21 * 0x10000 + 1), (0x210000, 0x22 * 0x10000 + 1),
   (0x220008, 0x30 * 0x10000 + 0x180F)]

/-- A seat of ASID 1 at the program's first bundle. -/
def progSeat : Seat :=
  { Seat.reset with run := .running, pc := 0x1000, npc := 0x1000,
                    file := { SeatFile.reset with ctl := { CtlRegs.reset with asid := 1 } } }

/-- The state with an instruction of nbits bits stored where the next step fetches: core 0 is on, seat 0 runs ASID 1 at the
program's address, walks are enabled, and nobody else is due to move. -/
def State.withFetchWord (s : State) (_nbits w : Nat) : State :=
  let s : State := progTables.foldl (fun s e => s.putHomes e.1 (natToBytes 8 e.2)) s
  let s := s.putHomes progBase (natToBytes 16 w)
  let s := (s.setCtlW 0x00F00000 0x00100001#32).setCtlW 0x00F00004 0
  let s := s.modCore 0 (fun c => { c with tile := .on })
  let s := s.setSeat 0 0 progSeat
  { s with agenda := [], power := { s.power with state := 0 }, focus := { s.focus with core := 0, seat := 0 } }

end Sys2Proof.Machine
end

