-- ==== Sys2Proof/Safety.lean ====
section
/-! DEFINITION. The terms of the claims: a step that goes on, an instruction that issues, the registers an instruction needs to
run, and what an instruction leaves alone. -/

namespace Sys2Proof.Machine

/-- A step answers a next state: neither a fault nor a refusal. -/
def Goes (s : State) : Prop := ∃ t, step s = .next t

/-- Each of the first n steps from a state goes on. -/
def GoesFor : Nat → State → Prop
  | 0, _ => True
  | n + 1, s => ∃ t, step s = .next t ∧ GoesFor n t

/-- What a slot instruction or a device step comes to is a next state. -/
def Completes (i : Instr) (s : State) : Prop := ∃ t, exec i s = .next t

/-- A slot instruction issues and leaves a state: it neither stalls, nor traps, nor suspends. -/
def Issues (i : Instr) (s t : State) : Prop := exec i s = .next t ∧ t.focus.status = .issued

/-- A slot instruction issues, and this is the state it makes. -/
def Does (i : Instr) (s t : State) : Prop := exec i s = .next (t.setStatus .issued)

/-- A slot instruction has no effect but a cause of execution, which its seat takes (R433). -/
def Raises (i : Instr) (s : State) (cause : BitVec 8) (faddr : Word) : Prop :=
  exec i s = .next ((s.takeCause s.focus.core s.focus.seat (s.causeEntry cause faddr false)).setStatus
    (.raised .exec (s.causeEntry cause faddr false)))

/-- A slot instruction does not issue: its seat stalls, and results of a fixed distance arrive meanwhile. -/
def Waits (i : Instr) (s : State) : Prop := ∃ w, exec i s = .next ((s.stallF w).setStatus (.stalled w))

/-- R222 to R225, R362: a register can be read: it is full, and it is neither orphaned nor faulted. -/
def State.readable (s : State) (r : Src) : Bool :=
  match s.srcFill r with
  | .full => true
  | .soon b => decide (b ≤ s.fseat.issued)
  | _ => false

/-- R222 to R224, R271: the registers of an instruction are ready: its guard is full and true, its sources can be read, and no
destination is still empty. -/
structure Ready (g : BitVec 4) (srcs : List Src) (dsts : List RegName) (s : State) : Prop where
  guardFull : s.srcEmpty (.p g) = false
  guardTrue : s.rP g = true
  srcs : ∀ r ∈ srcs, s.readable r = true
  dsts : ∀ d ∈ dsts, s.destEmpty d = false

/-- R93, R456, R467: a store through translated parts once the phase store queue has room: held while tracking is on, else
performed. -/
def State.stored (s : State) (va : Word) (parts : List (Nat × BitVec 3 × List Byte))
    (tags : List (Nat × BitVec 3 × BitVec 16)) (ord : StoreOrd) : State :=
  if s.src.ctl.phaseEn then
    (s.modFcore (fun c => { c with held := c.held ++ [(s.focus.seat, .store va parts tags ord)] })).crcNote
      (crcRecord va 0 (parts.flatMap (fun p => p.2.2)) (tags.map (fun t => t.2.2)))
  else s.perform s.focus.core s.focus.seat (.store va parts tags ord)

/-- R153, R381 to R384: a copy with the pages of its endpoints, and whether they hold an SO page. -/
def State.copyWith (s : State) (o : CopyOp) (rs ws : List Piece × List PageMap) : CopyOp :=
  let so (ps : List Piece) : Bool := ps.any (fun p => pteOrd p.leaf.entry == 1)
  { o with maps := o.maps ++ rs.2 ++ ws.2 ++ s.dstTriples o, soSrc := so rs.1, soDst := so ws.1 }

/-- R381 to R384, R519: a copy whose checks have passed is issued: one into virtual memory is held while tracking is on. -/
def State.copyStarted (s : State) (o : CopyOp) (rs ws : List Piece × List PageMap) : State :=
  let s := (s.install false rs.1).install true ws.1
  let o := s.copyWith o rs ws
  let s := s.trace s.focus.core s.focus.seat 4 o.dst.word
  match o.dst with
  | .virt va => if s.src.ctl.phaseEn then
        (s.modFcore (fun c => { c with held := c.held ++ [(s.focus.seat, .copy o)] })).crcNote (crcRecord va 1 [] [])
      else s.startCopy s.focus.core o
  | .spad _ =>
    let s : State := s.spovr s.focus.core s.focus.seat (o.dstRows.flatMap (fun r => o.win.maps r.1 r.2))
    (s.logCopy s.focus.core s.focus.seat o).startCopy s.focus.core o
  | .slot _ _ => (s.logCopy s.focus.core s.focus.seat o).startCopy s.focus.core o

/-- R105, R111 to R113, R128, R153, R381 to R383, R391, R456, R551: what a copy needs to be issued, its endpoints' pages being as
given. -/
structure CopyReady (s : State) (o : CopyOp) (rs ws : List Piece × List PageMap) : Prop where
  leaf : ∀ b, o.bar = some b → (s.leaf s.focus.core b).arrived = false
  unit : s.awaitCopyUnit = .ok ()
  entry : o.dst.isVirt = false → s.awaitEntry = .ok ()
  srcFree : ∀ r ∈ o.srcScores, s.awaitScore r = .ok ()
  dstFree : s.awaitScore o.score = .ok ()
  readers : s.awaitReaders o = .ok ()
  fits : o.fits true true = true
  srcHeld : o.seqStep = none → s.srcHeld o.src = .ok ()
  dstHeld : o.seqStep = none → s.dstHeld o.dst = .ok ()
  source : (if o.src.isVirt then s.copyPages .read o.srcRows else .ok ([], [])) = .ok rs
  stream : o.stream = true → ∀ p ∈ rs.1, region p.pa = .lpddr
  dest : (if o.dst.isVirt then s.copyPages .write o.dstRows else .ok ([], [])) = .ok ws
  order : let t := (s.install false rs.1).install true ws.1
    t.cpGoes s.focus.core (t.copyWith o rs ws) = true
  room : ∀ va, o.dst = .virt va → let t := (s.install false rs.1).install true ws.1
    (t.trace t.focus.core t.focus.seat 4 va).psqRoom va = .ok ()

end Sys2Proof.Machine

/-- The scalar arithmetic, compare and predicate instructions: those whose only result is their destination register. -/
def Sys2Proof.Instr.scalarOnly : Sys2Proof.Instr → Bool
  | .nop => true
  | .add _ _ _ _ => true
  | .sub _ _ _ _ => true
  | .and_ _ _ _ _ => true
  | .or_ _ _ _ _ => true
  | .xor_ _ _ _ _ => true
  | .shl _ _ _ _ => true
  | .shr _ _ _ _ => true
  | .sra _ _ _ _ => true
  | .minS _ _ _ _ => true
  | .minZ _ _ _ _ => true
  | .maxS _ _ _ _ => true
  | .maxZ _ _ _ _ => true
  | .mul _ _ _ _ => true
  | .mulhS _ _ _ _ => true
  | .mulhZ _ _ _ _ => true
  | .divS _ _ _ _ => true
  | .divZ _ _ _ _ => true
  | .remS _ _ _ _ => true
  | .remZ _ _ _ _ => true
  | .clz _ _ _ => true
  | .ctz _ _ _ => true
  | .popc _ _ _ => true
  | .bext _ _ _ _ => true
  | .bins _ _ _ _ => true
  | .addsh _ _ _ _ _ => true
  | .sel _ _ _ _ _ => true
  | .addi _ _ _ _ => true
  | .andi _ _ _ _ => true
  | .ori _ _ _ _ => true
  | .xori _ _ _ _ => true
  | .shli _ _ _ _ => true
  | .shri _ _ _ _ => true
  | .srai _ _ _ _ => true
  | .movi _ _ _ => true
  | .movh _ _ _ => true
  | .cmpEq _ _ _ _ => true
  | .cmpNe _ _ _ _ => true
  | .cmpLtS _ _ _ _ => true
  | .cmpLtZ _ _ _ _ => true
  | .cmpGeS _ _ _ _ => true
  | .cmpGeZ _ _ _ _ => true
  | .pand _ _ _ _ => true
  | .por _ _ _ _ => true
  | .pxor _ _ _ _ => true
  | .pandn _ _ _ _ => true
  | .pmov _ _ _ => true
  | .pset _ _ _ => true
  | _ => false
end

