-- ==== Sys2Proof/Certificates/Slice0/Obligations.lean ====
section
/-! DEFINITION. The statements for the provers. -/

open Sys2Proof Sys2Proof.Machine

/-- Scalar arithmetic writes the result of its operation (R301, R303, R304, R306, R307, R308, R309, R311). With its registers
ready, each of ADD, SUB, AND, OR, XOR, SHL, SHR, SRA, MIN.S, MIN.Z, MAX.S, MAX.Z, MUL, MULH.S, MULH.Z, CLZ, CTZ, POPC, BEXT,
BINS, ADDSH, SEL, ADDI, ANDI, ORI, XORI, SHLI, SHRI, SRAI, MOVI and MOVH answers the next state in which its destination holds
the result of the operation, full at the distance of R303 (1, and 3 for MUL, 4 for MULH), PAND, POR, PXOR, PANDN, PMOV and
PSET the one in which their predicate holds theirs, and NOP the state it found; nothing else changes. -/
def Obligations.ScalarArithmeticResults : Prop :=
  ∀ (d a b : BitVec 6) (g : BitVec 4) (s : State),
    (Ready g [.s a, .s b] [.s d] s →
      Does (.add d a b g) s (s.wS d (s.rS a + s.rS b) (s.after 1)) ∧
      Does (.sub d a b g) s (s.wS d (s.rS a - s.rS b) (s.after 1)) ∧
      Does (.and_ d a b g) s (s.wS d (s.rS a &&& s.rS b) (s.after 1)) ∧
      Does (.or_ d a b g) s (s.wS d (s.rS a ||| s.rS b) (s.after 1)) ∧
      Does (.xor_ d a b g) s (s.wS d (s.rS a ^^^ s.rS b) (s.after 1)) ∧
      Does (.shl d a b g) s (s.wS d (s.rS a <<< ((s.rS b).toNat % 64)) (s.after 1)) ∧
      Does (.shr d a b g) s (s.wS d (s.rS a >>> ((s.rS b).toNat % 64)) (s.after 1)) ∧
      Does (.sra d a b g) s (s.wS d ((s.rS a).sshiftRight ((s.rS b).toNat % 64)) (s.after 1)) ∧
      Does (.minS d a b g) s (s.wS d (if (s.rS a).toInt < (s.rS b).toInt then s.rS a else s.rS b) (s.after 1)) ∧
      Does (.minZ d a b g) s (s.wS d (if (s.rS a).toNat < (s.rS b).toNat then s.rS a else s.rS b) (s.after 1)) ∧
      Does (.maxS d a b g) s (s.wS d (if (s.rS b).toInt < (s.rS a).toInt then s.rS a else s.rS b) (s.after 1)) ∧
      Does (.maxZ d a b g) s (s.wS d (if (s.rS b).toNat < (s.rS a).toNat then s.rS a else s.rS b) (s.after 1)) ∧
      Does (.mul d a b g) s (s.wS d (s.rS a * s.rS b) (s.after 3)) ∧
      Does (.mulhS d a b g) s (s.wS d (BitVec.ofInt 64 (((s.rS a).toInt * (s.rS b).toInt).fdiv (2 ^ 64))) (s.after 4)) ∧
      Does (.mulhZ d a b g) s (s.wS d (BitVec.ofNat 64 ((s.rS a).toNat * (s.rS b).toNat / 2 ^ 64)) (s.after 4)) ∧
      Does (.bext d a b g) s (s.wS d (BitVec.ofNat 64 ((s.rS a).toNat / 2 ^ fieldPos (s.rS b) % 2 ^ fieldWid (s.rS b))) (s.after 1)) ∧
      (∀ sh : BitVec 4, Does (.addsh d a b sh g) s (s.wS d (s.rS a + s.rS b * BitVec.ofNat 64 (2 ^ sh.toNat)) (s.after 1)))) ∧
    (∀ pc : BitVec 4, Ready g [.s a, .s b, .p pc] [.s d] s →
      Does (.sel d a b pc g) s (s.wS d (if s.rP pc then s.rS a else s.rS b) (s.after 1))) ∧
    (Ready g [.s d, .s a, .s b] [.s d] s →
      Does (.bins d a b g) s (s.wS d (bins (s.rS d) (s.rS a) (s.rS b)) (s.after 1))) ∧
    (Ready g [.s a] [.s d] s →
      Does (.clz d a g) s (s.wS d (BitVec.ofNat 64 (clzFrom (s.rS a) 64)) (s.after 1)) ∧
      Does (.ctz d a g) s (s.wS d (BitVec.ofNat 64 (ctzFrom (s.rS a) 64)) (s.after 1)) ∧
      Does (.popc d a g) s (s.wS d (BitVec.ofNat 64 (popFrom (s.rS a) 64)) (s.after 1)) ∧
      (∀ imm : BitVec 10,
        Does (.addi d a imm g) s (s.wS d (s.rS a + imm.signExtend 64) (s.after 1)) ∧
        Does (.andi d a imm g) s (s.wS d (s.rS a &&& imm.signExtend 64) (s.after 1)) ∧
        Does (.ori d a imm g) s (s.wS d (s.rS a ||| imm.signExtend 64) (s.after 1)) ∧
        Does (.xori d a imm g) s (s.wS d (s.rS a ^^^ imm.signExtend 64) (s.after 1))) ∧
      (∀ sh : BitVec 6,
        Does (.shli d a sh g) s (s.wS d (s.rS a <<< sh.toNat) (s.after 1)) ∧
        Does (.shri d a sh g) s (s.wS d (s.rS a >>> sh.toNat) (s.after 1)) ∧
        Does (.srai d a sh g) s (s.wS d ((s.rS a).sshiftRight sh.toNat) (s.after 1)))) ∧
    (∀ imm : BitVec 16,
      (Ready g [] [.s d] s → Does (.movi d imm g) s (s.wS d (imm.signExtend 64) (s.after 1))) ∧
      (Ready g [.s d] [.s d] s → Does (.movh d imm g) s (s.wS d ((s.rS d <<< 16) ||| imm.zeroExtend 64) (s.after 1)))) ∧
    (∀ (pd : BitVec 3) (pa pb : BitVec 4) (val : BitVec 1),
      (Ready g [.p pa, .p pb] [.p pd] s →
        Does (.pand pd pa pb g) s (s.wP pd (s.rP pa && s.rP pb)) ∧
        Does (.por pd pa pb g) s (s.wP pd (s.rP pa || s.rP pb)) ∧
        Does (.pxor pd pa pb g) s (s.wP pd (s.rP pa != s.rP pb)) ∧
        Does (.pandn pd pa pb g) s (s.wP pd (s.rP pa && !s.rP pb))) ∧
      (Ready g [.p pa] [.p pd] s → Does (.pmov pd pa g) s (s.wP pd (s.rP pa))) ∧
      (Ready g [] [.p pd] s → Does (.pset pd val g) s (s.wP pd (val == 1)))) ∧
    Does .nop s s

/-- Division truncates towards zero and has fixed results where it is undefined elsewhere (R305). With its registers ready and the
seat's divider free, DIV.S, DIV.Z, REM.S and REM.Z answer the next state in which the destination holds q or r, full after 34
bundles, the divider taken until then. For a nonzero divisor the results are those of truncating division, a = q × b + r with
r of the sign of the dividend (for the signed forms but at −2^63 by −1); a zero divisor gives all ones and a, and −2^63 by −1
gives −2^63 and 0. None of them traps. -/
def Obligations.DivisionResults : Prop :=
  (∀ a b : Word,
      divS a 0 = 0xFFFFFFFFFFFFFFFF#64 ∧ divZ a 0 = 0xFFFFFFFFFFFFFFFF#64 ∧ remS a 0 = a ∧ remZ a 0 = a ∧
      divS 0x8000000000000000#64 0xFFFFFFFFFFFFFFFF#64 = 0x8000000000000000#64 ∧
      remS 0x8000000000000000#64 0xFFFFFFFFFFFFFFFF#64 = 0 ∧
      (b ≠ 0 → (divZ a b).toNat = a.toNat / b.toNat ∧ a.toNat = (divZ a b).toNat * b.toNat + (remZ a b).toNat) ∧
      (b ≠ 0 → ¬(a = 0x8000000000000000#64 ∧ b = 0xFFFFFFFFFFFFFFFF#64) →
        (divS a b).toInt = a.toInt.tdiv b.toInt ∧ a.toInt = (divS a b).toInt * b.toInt + (remS a b).toInt ∧
        ((remS a b).toInt = 0 ∨ ((remS a b).toInt < 0 ↔ a.toInt < 0)))) ∧
    (∀ (d a b : BitVec 6) (g : BitVec 4) (s : State), Ready g [.s a, .s b] [.s d] s → s.fseat.divFree ≤ s.fseat.issued →
      let busy (v : Word) : State :=
        (s.wS d v (.soon (s.fseat.issued + 34))).modF (fun t => { t with divFree := s.fseat.issued + 34, divDst := d })
      Does (.divS d a b g) s (busy (divS (s.rS a) (s.rS b))) ∧ Does (.divZ d a b g) s (busy (divZ (s.rS a) (s.rS b))) ∧
      Does (.remS d a b g) s (busy (remS (s.rS a) (s.rS b))) ∧ Does (.remZ d a b g) s (busy (remZ (s.rS a) (s.rS b))))

/-- The bit counts count leading zeros, trailing zeros and ones (R306). CLZ's count is the number of zero bits above the highest
one bit and 64 for 0; CTZ's count is the number of zero bits below the lowest one bit and 64 for 0; POPC's count is the number
of one bits. -/
def Obligations.BitCountsAreCounts : Prop :=
  ∀ w : Word,
    clzFrom w 64 ≤ 64 ∧ (∀ i, 64 - clzFrom w 64 ≤ i → w.getLsbD i = false) ∧
    (clzFrom w 64 < 64 → w.getLsbD (63 - clzFrom w 64) = true) ∧
    ctzFrom w 64 ≤ 64 ∧ (∀ i, i < ctzFrom w 64 → w.getLsbD i = false) ∧ (ctzFrom w 64 < 64 → w.getLsbD (ctzFrom w 64) = true) ∧
    popFrom w 64 = (List.range 64).countP (fun i => w.getLsbD i) ∧ (clzFrom w 64 = 64 ↔ w = 0) ∧ (ctzFrom w 64 = 64 ↔ w = 0)

/-- The compares are encoded as R310 says and write the truth of their test (R310). In the words of major 0x14 in format SK, cond
0 to 5 with pd 0 to 7 decode to CMP.EQ, NE, LT.S, LT.Z, GE.S and GE.Z with their operands, and cond 6, cond 7 and pd 8 to 15
to nothing. With its registers ready each CMP.cc writes pd with the truth of its test of a and b (equal, unequal, less and not
less, as signed or as unsigned numbers); s0 reads 0, so that b = s0 compares with zero; a destination p0 is discarded, and
nothing else changes. -/
def Obligations.CompareResults : Prop :=
  ∀ (pd : BitVec 3) (a b : BitVec 6) (c : BitVec 3) (g : BitVec 4) (s : State),
    let word (top : BitVec 1) : W32 := 0x14#6 ++ (top ++ (pd ++ (a ++ (b ++ (c ++ (0#3 ++ g))))))
    decodeS (word 0) = (match c.toNat with
      | 0 => .ok (.cmpEq pd a b g)
      | 1 => .ok (.cmpNe pd a b g)
      | 2 => .ok (.cmpLtS pd a b g)
      | 3 => .ok (.cmpLtZ pd a b g)
      | 4 => .ok (.cmpGeS pd a b g)
      | 5 => .ok (.cmpGeZ pd a b g)
      | _ => .error (.subField 0 0x14)) ∧
    decodeS (word 1) = .error (.subField 0 0x14) ∧
    (Ready g [.s a, .s b] [.p pd] s →
      Does (.cmpEq pd a b g) s (s.wP pd (decide (s.rS a = s.rS b))) ∧
      Does (.cmpNe pd a b g) s (s.wP pd (decide (s.rS a ≠ s.rS b))) ∧
      Does (.cmpLtS pd a b g) s (s.wP pd (decide ((s.rS a).toInt < (s.rS b).toInt))) ∧
      Does (.cmpLtZ pd a b g) s (s.wP pd (decide ((s.rS a).toNat < (s.rS b).toNat))) ∧
      Does (.cmpGeS pd a b g) s (s.wP pd (decide ((s.rS b).toInt ≤ (s.rS a).toInt))) ∧
      Does (.cmpGeZ pd a b g) s (s.wP pd (decide ((s.rS b).toNat ≤ (s.rS a).toNat)))) ∧
    s.rS 0 = 0 ∧ (∀ v, s.wP 0 v = s)

/-- A scalar or predicate instruction changes only its destination register (R276, R301, R302, R304, R310, R311). When an
instruction of the scalar arithmetic, compare and predicate group (NOP, ADD to MOVH, the divisions, CMP.cc, PAND to PSET)
answers a next state in which it has issued, then every part of the device but the seats is as it was (every byte of memory
and every tag, caches, cores, dies, control space, queues, the free-value count), every other seat is as it was, and in its
own seat every vector register, every control register (status, CAUSE, EPC, EFR, VFLAGS, STAGE among them), the pc, TM, the
snapshot and the sequencer are as they were, and every scalar and predicate register but its destination. -/
def Obligations.ScalarFrame : Prop :=
  ∀ (i : Instr) (s t : State), i.scalarOnly = true → Issues i s t →
    { t with seats := s.seats, focus := s.focus } = s ∧ (∀ pa, t.byteAt pa = s.byteAt pa ∧ t.homeByte pa = s.homeByte pa) ∧
    { t.focus with status := s.focus.status } = s.focus ∧
    (∀ c x, 2 * c + x ≠ 2 * s.focus.core + s.focus.seat → t.seatAt c x = s.seatAt c x) ∧
    { t.fseat with file := s.fseat.file, divFree := s.fseat.divFree, divDst := s.fseat.divDst } = s.fseat ∧
    t.fseat.file.ctl = s.fseat.file.ctl ∧ t.fseat.file.regs.v = s.fseat.file.regs.v ∧
    (∀ k, (∀ d, .s d ∈ i.dests → d = 0 ∨ d.toNat ≠ k) →
      alook k t.fseat.file.regs.s = alook k s.fseat.file.regs.s) ∧
    (∀ k, (∀ d, .p d ∈ i.dests → d = 0 ∨ d.toNat ≠ k) →
      alook k t.fseat.file.regs.p = alook k s.fseat.file.regs.p)

/-- A register reads what was written to it; s0 and p0 discard writes and read 0 and true (R276, R281, R222). A write of a scalar
register other than s0 leaves the value and its fill there and every other register alone, a write of a predicate other than
p0 likewise; a write of s0 or of p0 changes nothing; in every state s0 reads 0 and p0 reads true, and both can always be read. -/
def Obligations.RegisterWritesReadBack : Prop :=
  ∀ (s : State) (d e : BitVec 6) (v : Word) (f : Fill) (p : BitVec 3) (b : Bool),
    s.wS 0 v f = s ∧ s.wP 0 b = s ∧ s.rS 0 = 0 ∧ s.rP 0 = true ∧ s.readable (.s 0) = true ∧ s.readable (.p 0) = true ∧
    (d ≠ 0 → aget sreg0 d.toNat (s.wS d v f).fseat.file.regs.s = { val := v, fill := f }) ∧
    (d ≠ 0 → e ≠ d → aget sreg0 e.toNat (s.wS d v f).fseat.file.regs.s = aget sreg0 e.toNat s.fseat.file.regs.s) ∧
    (d ≠ 0 → s.fseat.latch = none → (s.wS d v f).rS d = v ∧ (e ≠ d → (s.wS d v f).rS e = s.rS e)) ∧
    (p ≠ 0 → s.fseat.latch = none → (s.wP p b).rP (p.zeroExtend 4) = b)

/-- Under a false guard a guarded instruction issues and does nothing (R271, R300). For every instruction of position S, V, M or C
that is guarded by a predicate other than p0, if the guard predicate is full and reads false, exec answers the state it was
given, marked issued: no stall for another register, no cause, no effect. -/
def Obligations.FalseGuardDoesNothing : Prop :=
  ∀ (i : Instr) (s : State), i.isSlot = true → i.guard ≠ 0 → s.srcEmpty (.p i.guard) = false → s.rP i.guard = false →
    Does i s s

/-- Branches continue at their target (R287, R316, R317, R318). With its registers ready and a target below 2^55, BRA and CALL
continue at PC + 16 × sext(off22), BRAR and RET at the register's value with bits 3:0 zero; CALL leaves in s62 the address of
the bundle that would have followed; a branch from inside the body of an active loop to outside clears STAGE.ACT; a target of
2^55 or more raises ADDRESS_RANGE (0x22) with the target in FADDR. -/
def Obligations.BranchesReachTheirTarget : Prop :=
  ∀ (off : BitVec 22) (a : BitVec 6) (g : BitVec 4) (s : State),
    let left (tgt : BitVec 51) : State := if stageAct s.src.ctl.stage && inBody s.src.ctl s.fseat.pc && !inBody s.src.ctl tgt then
        s.modCtl (fun r => { r with stage := stageOff r.stage }) else s
    let go (v : Word) : State := ((left (v.extractLsb' 4 51)).modF (fun t => { t with npc := v.extractLsb' 4 51, taken := true })).trace
        s.focus.core s.focus.seat 0 (pcWord (v.extractLsb' 4 51))
    let rel : Word := BitVec.ofInt 64 (16 * (s.fseat.pc.toNat : Int) + 16 * off.toInt)
    let reg (r : BitVec 6) : Word := s.rS r &&& 0xFFFFFFFFFFFFFFF0#64
    (Ready g [] [] s → rel.toNat < 2 ^ 55 → Does (.bra off g) s (go rel)) ∧
    (Ready g [] [.s 62] s → rel.toNat < 2 ^ 55 → Does (.call off g) s ((go rel).wS 62 (pcWord s.focus.seqNext) .full)) ∧
    (Ready g [.s a] [] s → (reg a).toNat < 2 ^ 55 → Does (.brar a g) s (go (reg a))) ∧
    (Ready g [.s 62] [] s → (reg 62).toNat < 2 ^ 55 → Does (.ret g) s (go (reg 62))) ∧
    (Ready g [] [] s → 2 ^ 55 ≤ rel.toNat → Raises (.bra off g) s 0x22 rel) ∧
    (Ready g [] [.s 62] s → 2 ^ 55 ≤ rel.toNat → Raises (.call off g) s 0x22 rel) ∧
    (Ready g [.s a] [] s → 2 ^ 55 ≤ (reg a).toNat → Raises (.brar a g) s 0x22 (reg a)) ∧
    (Ready g [.s 62] [] s → 2 ^ 55 ≤ (reg 62).toNat → Raises (.ret g) s 0x22 (reg 62))

/-- LOOP sets STAGE and LOOPB, skips its body for count 0, and raises LOOP_STATE (R283, R284, R285, R319). With its count register
readable: where a loop is active or the count exceeds 2^24 − 1, LOOP raises LOOP_STATE (0x04); else for count 0 the seat
continues after the body's LEN positions, and for any other count STAGE becomes active with S − 1, iteration 0 and the count,
and LOOPB the body's start and length. -/
def Obligations.LoopBeginsOrSkips : Prop :=
  ∀ (a : BitVec 6) (sm1 : BitVec 3) (len : BitVec 13) (s : State), Ready 0 [.s a] [] s →
    let n := (s.rS a).toNat
    (stageAct s.src.ctl.stage = true ∨ 2 ^ 24 - 1 < n → Raises (.loop a sm1 len) s 0x04 0) ∧
    (stageAct s.src.ctl.stage = false → n = 0 →
      Does (.loop a sm1 len) s (s.modF (fun t => { t with npc := s.focus.seqNext + len.zeroExtend 51 }))) ∧
    (stageAct s.src.ctl.stage = false → 0 < n → n ≤ 2 ^ 24 - 1 →
      Does (.loop a sm1 len) s (s.modCtl (fun r => { r with stage := mkStage true sm1.toNat 0 n, loopb := len ++ s.focus.seqNext })))

/-- CTLR reads, CTLW writes and CTLX exchanges the control registers (R71, R100, R283, R288, R289, R290, R320). With its registers
ready (and, for VFLAGS, with no vector operation or load before it to wait for) CTLR writes its destination with the value in
effect. CTLW of SHAPE (rows and columns 1 to 64), EFR, ROT (size 0, 8 or 16 outside a loop), ROLE, CTABSEL, VFLAGS, REPTHR,
KVSEQ, AGE, SPWIN, TRAPVEC, SNAPBASE and EPC writes the register's fields. CTLX of a writable register does both, its result
being the value before. -/
def Obligations.ControlRegisterAccess : Prop :=
  ∀ (d a : BitVec 6) (cr : BitVec 12) (s : State),
    let w : W32 := (s.rS a).extractLsb' 0 32
    let quiet : Prop := s.awaitV cr = .ok ()
    (Ready 0 [] [.s d] s → quiet → Does (.ctlr d cr) s (s.wS d (s.crRead cr) .full)) ∧
    (Ready 0 [.s a] [] s →
      ((1 ≤ (w.extractLsb' 8 8).toNat ∧ (w.extractLsb' 8 8).toNat ≤ 64 ∧ 1 ≤ (w.extractLsb' 0 8).toNat ∧ (w.extractLsb' 0 8).toNat ≤ 64) →
        Does (.ctlw a 0x000) s (s.modCtl (fun x => { x with shape := w &&& 0xFFFF#32 }))) ∧
      Does (.ctlw a 0x001) s (s.modF (fun t => { t with efrPend := t.efrPend ++ [(t.issued + 3, w &&& 0x1777#32)] })) ∧
      (stageAct s.src.ctl.stage = false → (rotSize w = 0 ∨ rotSize w = 8 ∨ rotSize w = 16) →
        Does (.ctlw a 0x002) s (s.modCtl (fun x => { x with rot := mkRot 0 (rotSize w) }))) ∧
      (w.extractLsb' 0 2 ≠ 3 → Does (.ctlw a 0x003) s (s.modCtl (fun x => { x with role := w &&& 3#32 }))) ∧
      Does (.ctlw a 0x004) s (s.modCtl (fun x => { x with ctabsel := w &&& 3#32 })) ∧
      Does (.ctlw a 0x005) s (s.modCtl (fun x => { x with vflags := w &&& 0x1F#32 })) ∧
      Does (.ctlw a 0x006) s (s.modCtl (fun x => { x with repthr := w })) ∧
      Does (.ctlw a 0x007) s (s.modCtl (fun x => { x with kvseq := w })) ∧
      Does (.ctlw a 0x00B) s (s.modFcore (fun c => { c with age := if w.extractLsb' 0 8 = 0 then 1 else w.extractLsb' 0 8 })) ∧
      Does (.ctlw a 0x012) s (if w.getLsbD 31 then s.modCtl (fun x => { x with spwin := x.spwin &&& 0x7FFFFFFF#32 }) else s) ∧
      Does (.ctlw a 0x020) s (s.modCtl (fun x => { x with trapvec := s.rS a &&& 0x007FFFFFFFFFFFF0#64 })) ∧
      Does (.ctlw a 0x023) s (s.modCtl (fun x => { x with snapbase := s.rS a &&& 0x007FFFFFFFFFFFC0#64 })) ∧
      Does (.ctlw a 0x024) s (s.modCtl (fun x => { x with epc := s.rS a &&& 0x007FFFFFFFFFFFF0#64 }))) ∧
    (∀ t, Ready 0 [.s a] [.s d] s → crReadOnly cr = false → quiet → s.crWrite cr (s.rS a) = .ok t →
      Does (.ctlx d a cr) s (t.wS d (s.crRead cr) .full))

/-- A write of a read-only control register raises PRIVILEGED (R285, R288, R289, R431). CTLW and CTLX of STAGE, LOOPB, LCID, TOPO,
ASID, GCOORD, CAUSE, FADDR, CYCLE or PTPTIME raise PRIVILEGED (0x02) with the register's number in FADDR, and have no other
effect. -/
def Obligations.ReadOnlyRegistersArePrivileged : Prop :=
  ∀ (d a : BitVec 6) (cr : BitVec 12) (s : State),
    cr ∈ [0x008#12, 0x009#12, 0x010#12, 0x011#12, 0x013#12, 0x014#12, 0x021#12, 0x022#12, 0x030#12, 0x031#12] →
    (Ready 0 [.s a] [] s → Raises (.ctlw a cr) s 0x02 (cr.zeroExtend 64)) ∧
    (Ready 0 [.s a] [.s d] s → Raises (.ctlx d a cr) s 0x02 (cr.zeroExtend 64))

/-- A taken cause saves the seat's state and continues at the handler (R321, R322, R435, R436, R439). For a seat that holds no KV
operation, whose TM is clear, whose TRAPVEC names a handler, whose sequencer stands at a stop and with no producer of s56 to
s63 in flight, taking a cause leaves it running at TRAPVEC with TM set, CAUSE, FADDR and EPC those of the cause, the snapshot
of the seat in the live buffer and no sequencer; its registers keep their values, STAGE, LOOPB and ROT their contents. Until
then it waits to enter; with TM set or no handler the context is killed with DOUBLE_FAULT (0x50). -/
def Obligations.TrapEntryRecordsAndRedirects : Prop :=
  ∀ (s : State) (core x : Nat) (e : Entry), (s.seatAt core x).kvHeld = none →
    let t := s.seatAt core x
    let u := (s.takeCause core x e).seatAt core x
    (t.tm = false → t.file.ctl.trapvec.extractLsb' 4 51 ≠ 0 → t.trapReady = true →
      u.run = .running ∧ u.tm = true ∧ u.pc = t.file.ctl.trapvec.extractLsb' 4 51 ∧ u.npc = u.pc ∧ u.seq = none ∧
      u.file.ctl.cause = mkCause e.cause e.slot e.pblk ∧ u.file.ctl.faddr = e.faddr ∧ u.file.ctl.epc = pcWord e.epc ∧
      u.live = some (snapshotBytes t.flushEfr.settleHigh e) ∧
      u.file.ctl.stage = t.file.ctl.stage ∧ u.file.ctl.loopb = t.file.ctl.loopb ∧ u.file.ctl.rot = t.file.ctl.rot ∧
      (∀ k, (aget sreg0 k u.file.regs.s).val = (aget sreg0 k t.file.regs.s).val) ∧
      (∀ k, (aget preg0 k u.file.regs.p).val = (aget preg0 k t.file.regs.p).val) ∧
      (∀ k, (aget vreg0 k u.file.regs.v).runs = (aget vreg0 k t.file.regs.v).runs)) ∧
    (t.tm = false → t.file.ctl.trapvec.extractLsb' 4 51 ≠ 0 → t.trapReady = false →
      s.takeCause core x e = s.setSeat core x { t.deferLeave with run := .entering e, latch := none, tmWas := none }) ∧
    (t.tm = true ∨ t.file.ctl.trapvec.extractLsb' 4 51 = 0 → s.takeCause core x e = s.fatal core x 0x50)

/-- Taking a cause leaves memory and every other seat as they were (R321, R435). Where a cause is taken as a trap (the seat holds
no KV operation, TM clear and a handler set), every byte and tag of memory, the caches, the queues, the dies and every other
seat are as they were, and so are the operations in flight of every core. -/
def Obligations.TrapEntryFrame : Prop :=
  ∀ (s : State) (core x : Nat) (e : Entry), (s.seatAt core x).kvHeld = none → (s.seatAt core x).tm = false →
    (s.seatAt core x).file.ctl.trapvec.extractLsb' 4 51 ≠ 0 →
    let u := s.takeCause core x e
    (∀ pa, u.byteAt pa = s.byteAt pa ∧ u.homeByte pa = s.homeByte pa ∧ u.tagAt pa = s.tagAt pa) ∧ u.mem = s.mem ∧ u.lines = s.lines ∧ u.l1 = s.l1 ∧ u.l2 = s.l2 ∧
   
    u.fe = s.fe ∧ u.dies = s.dies ∧ u.clusters = s.clusters ∧ u.ctl = s.ctl ∧ u.host = s.host ∧ u.focus = s.focus ∧
    (∀ c y, 2 * c + y ≠ 2 * core + x → u.seatAt c y = s.seatAt c y) ∧ (∀ c, (u.core c).ops = (s.core c).ops)

/-- ERET restores what the live buffer holds and continues at EPC (R326, R437, R438). With TM set and a live buffer that passes
the checks of R438, ERET restores s56 to s63, STAGE, LOOPB, ROT.RB and the sequencer from it, clears TM, empties the buffer
and continues at EPC; a buffer that fails a check raises SNAPSHOT_INVALID (0x06) with the snapshot address and restores
nothing. With TM clear the 256 bytes at SNAPBASE take the buffer's place and the first word that of EPC. -/
def Obligations.EretRestoresTheSnapshot : Prop :=
  ∀ (g : BitVec 4) (s : State), Ready g [] ((List.range 8).map (fun i => .s (BitVec.ofNat 6 (56 + i)))) s →
    let b := s.fseat.live.getD (List.replicate 256 0)
    let base := s.src.ctl.snapbase
    (s.srcTm = true → snapOk s.src.ctl.rot b = true →
      Does (.eret g) s (s.setF ((s.fseat.restore b).leaveTrap (s.src.ctl.epc.extractLsb' 4 51)))) ∧
    (s.srcTm = true → snapOk s.src.ctl.rot b = false → Raises (.eret g) s 0x06 base) ∧
    (∀ ps bs, s.srcTm = false → s.seatPieces base 256 .read = .ok ps → s.readScalar ps = .ok bs → s.poisonHit ps = none →
      let u := s.installRead ps
      (snapOk s.src.ctl.rot bs = true →
        Does (.eret g) s (u.setF ((u.fseat.restore bs).leaveTrap (BitVec.ofNat 51 (bytesToNat (bs.take 8) / 16))))) ∧
      (snapOk s.src.ctl.rot bs = false → Raises (.eret g) s 0x06 base))

/-- Restoring a snapshot gives back what its capture held (R326, R437). For every seat and every entry, the snapshot is 256 bytes
long, and restoring it into the seat gives back STAGE (its reserved bits 0), LOOPB, the rotation base and the values of s56 to
s63 as they were when it was captured; its first doubleword is the address of EPC and its second FADDR. -/
def Obligations.SnapshotRestoresWhatItCaptured : Prop :=
  ∀ (t : Seat) (e : Entry),
    let b := snapshotBytes t e
    let u := t.restore b
    b.length = 256 ∧ u.file.ctl.stage = t.file.ctl.stage &&& 0xF001FFFFFFFFFFFF#64 ∧ u.file.ctl.loopb = t.file.ctl.loopb ∧
    rotRb u.file.ctl.rot = rotRb t.file.ctl.rot ∧ rotSize u.file.ctl.rot = rotSize t.file.ctl.rot ∧
    (∀ i < 8, (aget sreg0 (56 + i) u.file.regs.s).val = (aget sreg0 (56 + i) t.file.regs.s).val) ∧
    bytesToNat (b.take 8) = 16 * e.epc.toNat ∧ bytesToNat ((b.drop 8).take 8) = e.faddr.toNat

/-- TRAP leaves a cause that its seat takes at the next boundary (R323, R433). TRAP issues and leaves SOFTWARE_TRAP (0x05) with
its immediate as FADDR, slot 0 and the following bundle as EPC; a running seat with such a deferred cause takes it, with its
pc as EPC, at its next bundle boundary instead of issuing. -/
def Obligations.SoftwareTrapIsTakenAfterItsBundle : Prop :=
  ∀ (imm : BitVec 18) (g : BitVec 4) (s : State),
    let own : Entry := { cause := 0x05, faddr := imm.zeroExtend 64, slot := 0, pblk := false, epc := s.focus.seqNext }
    (Ready g [] [] s → Does (.trap imm g) s (s.modF (fun t => { t with deferred := some own }))) ∧
    (∀ core x e, (s.seatAt core x).run = .running → (s.seatAt core x).pair = none → (s.core core).stopping = none →
      (s.seatAt core x).firm = false → (s.seatAt core x).deferred = some e →
      let here : Entry := { e with epc := (s.seatAt core x).pc }
      s.attempt core x = .ok (.event ((s.setSeat core x { s.seatAt core x with deferred := none }).takeCause core x here)))

/-- SNAPST stores the live buffer and SNAPREL unmasks traps (R324, R325). SNAPST with no live buffer does nothing; with one, and
with nothing that an SO page makes it wait for, it stores its 256 bytes through the translated page at SNAPBASE, with tag 0
for each block, and marks the snapshot as stored. SNAPREL clears TM where a SNAPST has issued since the trap entry, and else
has no effect. -/
def Obligations.HandlerInstructionsComplete : Prop :=
  ∀ (g : BitVec 4) (s : State), Ready g [] [] s →
    (s.fseat.live = none → Does (.snapst g) s s) ∧
    (∀ b ps, s.fseat.live = some b → s.seatPieces s.src.ctl.snapbase 256 .write = .ok ps → s.awaitSo ps = .ok () →
      (s.install true ps).psqRoom s.src.ctl.snapbase = .ok () →
      Does (.snapst g) s ((((s.install true ps).stored s.src.ctl.snapbase (cutPieces ps b)
        ((blockTags ps 0).filter (fun t => region t.1 != .host)) (storeOrd none ps)).modF (fun x => { x with snapDone := true })).trace
        s.focus.core s.focus.seat 3 s.src.ctl.snapbase)) ∧
    (s.fseat.snapDone = true → Does (.snaprel g) s (s.modF (fun t => { t with tm := false }))) ∧
    (s.fseat.snapDone = false → Does (.snaprel g) s s)

/-- SUSPEND, YIELD and HALT begin to leave; a persistent kernel and a handler stay (R208, R211, R213, R322, R327, R328). With the
sequencer idle and no loop active, YIELD and (with s6 readable and a multiple of 128 that translates for a write, and nothing
that an SO page makes it wait for) SUSPEND start the seat's leaving with the following bundle as the one to resume at; HALT,
with every posted host store acknowledged and none failed, starts its end. In a persistent kernel and while TM is set SUSPEND
and YIELD have no effect. Elsewhere an active loop makes SUSPEND and YIELD raise LOOP_STATE (0x04), and a SUSPEND at an
address that is no multiple of 128 MISALIGNED (0x26). -/
def Obligations.SeatsLeaveTheirProgram : Prop :=
  ∀ (g : BitVec 4) (s : State),
    let c := s.focus.core
    let x := s.focus.seat
    let stay : Prop := s.fseat.pers = true ∨ s.srcTm = true
    let go : Prop := s.fseat.pers = false ∧ s.srcTm = false ∧ s.fseat.seq = none ∧ stageAct s.src.ctl.stage = false
    (Ready g [] [] s →
      (stay → Does (.yield g) s s ∧ Does (.suspend g) s s) ∧ (go → Does (.yield g) s (s.beginLeave c x .yield)) ∧
      (¬stay → stageAct s.src.ctl.stage = true → Raises (.yield g) s 0x04 0) ∧
      (s.fseat.hostFailed = none → s.hostAcked (fun _ => true) = true → s.fseat.seq = none →
        Does (.halt g) s (s.beginLeave c x .halt))) ∧
    (Ready g [.s 6] [] s →
      (¬stay → stageAct s.src.ctl.stage = true → Raises (.suspend g) s 0x04 0) ∧
      (¬stay → stageAct s.src.ctl.stage = false → (s.rS 6).toNat % 128 ≠ 0 →
        Raises (.suspend g) s 0x26 (transFaddr 0 .write (s.rS 6).toNat)) ∧
      (∀ p, go → (s.rS 6).toNat % 128 = 0 → s.seatPieces (s.rS 6) 128 .write = .ok [p] → s.awaitSo [p] = .ok () →
        Does (.suspend g) s ((s.install true [p]).beginLeave c x (.suspend p.pa (pteCp p.leaf.entry)))))

/-- WAITTL issues when its timeline is reached and SIGTL adds to the seat's own queue (R208, R258, R322, R329, R330). With its
register readable, WAITTL issues where the timeline (or its certified value) has reached the threshold and stalls its seat
where not; the suspend form does so too outside a loop, and where its wait is not satisfied the seat suspends on the timeline.
SIGTL of a queue that its ASID owns, with all the seat's accesses performed at the owner's scope, raises the timeline by its
increment (1 for s0); a TLID of 0x400 or more, never mapped or of another ASID raises PRIVILEGED (0x02) with the TLID. -/
def Obligations.TimelineInstructionsComplete : Prop :=
  ∀ (a : BitVec 6) (tl : BitVec 12) (cert : BitVec 1) (g : BitVec 4) (s : State), Ready g [.s a] [] s →
    let met := s.tlReached tl.toNat (cert == 1) (s.rS a)
    (met = true → Does (.waittl a tl cert g) s s) ∧ (met = false → Waits (.waittl a tl cert g) s) ∧
    (met = true → (s.fseat.pers = true ∨ s.srcTm = true ∨ stageAct s.src.ctl.stage = false) →
      Does (.waittlSusp a tl cert g) s s) ∧
    (met = false → s.fseat.pers = false → s.srcTm = false → stageAct s.src.ctl.stage = false → s.fseat.seq = none →
      exec (.waittlSusp a tl cert g) s = .next ((s.beginLeave s.focus.core s.focus.seat
        (.wait (.timeline tl.toNat (cert == 1) (s.rS a)) 0)).setStatus
        (.suspended (.timeline tl.toNat (cert == 1) (s.rS a)) 0 0))) ∧
    (∀ scope, tl.toNat < 0x400 → alook tl.toNat s.fe.owner = some (s.fasid, scope) →
      let u := s.commitF
      u.drained (fun _ => true) scope = true → (scope = 5 → u.hostQuiet = true ∧ u.fseat.hostFailed = none) → u.certRoom tl.toNat = true →
      let inc : Nat := if a = 0 then 1 else ((s.rS a).extractLsb' 0 32).toNat
      Does (.sigtl a tl g) s (if inc = 0 then u else u.increment tl.toNat inc (u.fseat.runsOn s.focus.core) 0)) ∧
    ((0x400 ≤ tl.toNat ∨ alook tl.toNat s.fe.owner = none ∨
        (∃ o, alook tl.toNat s.fe.owner = some o ∧ o.1 ≠ s.fasid)) → Raises (.sigtl a tl g) s 0x02 (tl.zeroExtend 64))

/-- Scalar loads deliver the bytes at their address, zero- or sign-extended (R11, R312, R313, R314, R315). With its registers
ready, a scalar load from scratchpad whose range no earlier entry covers writes the value of its bytes, full after 4 bundles;
one from virtual memory whose bytes translate and can be read (loadScalar: memory, control space or the host window) puts a
load in flight that delivers the value of its bytes no earlier than 12 bundles on. From plain memory without a poisoned block
the bytes are those the seat sees there. The bytes count little-endian and the forms extend by zero or sign as named. -/
def Obligations.ScalarLoadsComplete : Prop :=
  ∀ (d a : BitVec 6) (imm : BitVec 13) (g : BitVec 4) (s : State), Ready g [.s a] [.s d] s →
    let o : Word := s.rS a + imm.signExtend 64
    let whole (n : Nat) (sx : Bool) (i : BitVec 1 → Instr) : Prop :=
      (s.awaitSpans s.window o n = .ok () →
        Does (i 1) s ((s.loadSp o n).2.wS d (loadValue n sx (s.loadSp o n).1) ((s.loadSp o n).2.after 4))) ∧
      (∀ ps r, s.seatPieces o n (regAccess false o n) = .ok ps → s.loadScalar n ps = .ok r →
        Does (i 0) s ((r.2.trace s.focus.core s.focus.seat 2 o).loadInto d (loadValue n sx r.1) 12))
    whole 1 false (fun sp => .ldB d a sp imm g) ∧ whole 1 true (fun sp => .ldBs d a sp imm g) ∧
    whole 2 false (fun sp => .ldH d a sp imm g) ∧ whole 2 true (fun sp => .ldHs d a sp imm g) ∧
    whole 4 false (fun sp => .ldW d a sp imm g) ∧ whole 4 true (fun sp => .ldWs d a sp imm g) ∧
    whole 8 false (fun sp => .ldD d a sp imm g) ∧
    (∀ n ps, anyControl ps = false → anyHost ps = false → s.poisonHit ps = none →
      s.loadScalar n ps = .ok (s.seatRead ps, s.installRead ps)) ∧
    (∀ (b : Byte) (bs : List Byte), bs.length < 8 → loadValue (bs.length + 1) false (b :: bs) =
      BitVec.ofNat 64 (b.toNat + 256 * bytesToNat bs)) ∧
    (∀ b : Byte, loadValue 1 true [b] = b.signExtend 64) ∧
    (∀ h : BitVec 16, loadValue 2 true (natToBytes 2 h.toNat) = h.signExtend 64) ∧
    (∀ w : BitVec 32, loadValue 4 true (natToBytes 4 w.toNat) = w.signExtend 64)

/-- Scalar stores write the low bytes of their register at their address (R11, R93, R101, R312, R313, R314, R456). With its
registers ready, a scalar store into scratchpad whose range no earlier entry covers writes its low bytes where the window maps
them and sets SPOVR where it does not; one into virtual memory whose bytes translate for a write, outside control space, with
nothing that an SO page makes it wait for and with room in the phase store queue, stores them through its pages (or holds them
while tracking is on). One to control space makes the register write of its party. -/
def Obligations.ScalarStoresComplete : Prop :=
  ∀ (c a : BitVec 6) (imm : BitVec 13) (g : BitVec 4) (s : State), Ready g [.s c, .s a] [] s →
    let o : Word := s.rS a + imm.signExtend 64
    let whole (n : Nat) (i : BitVec 1 → Instr) : Prop :=
      let bs := natToBytes n (s.rS c).toNat
      (s.awaitSpans s.window o n = .ok () →
        Does (i 1) s ((s.spovr s.focus.core s.focus.seat (s.window.maps o n)).modFcore (fun k => k.spPut (s.window.maps o n) bs))) ∧
      (∀ ps, s.seatPieces o n (regAccess true o n) = .ok ps → anyControl ps = false → s.awaitSo ps = .ok () → (s.install true ps).psqRoom o = .ok () →
        Does (i 0) s (((s.install true ps).stored o (cutPieces ps bs) [] (storeOrd none ps)).trace s.focus.core s.focus.seat 3 o)) ∧
      (∀ p t, s.seatPieces o n (regAccess true o n) = .ok [p] → region p.pa = .control → s.awaitSo [p] = .ok () →
        (s.install true [p]).seatCtlWrite p.pa n (BitVec.ofNat 64 (bytesToNat bs)) = .ok t →
        Does (i 0) s (t.trace s.focus.core s.focus.seat 3 o))
    whole 1 (fun sp => .stB c a sp imm g) ∧ whole 2 (fun sp => .stH c a sp imm g) ∧
    whole 4 (fun sp => .stW c a sp imm g) ∧ whole 8 (fun sp => .stD c a sp imm g)

/-- A scalar store changes no byte outside the ones it stores (R47, R93, R135, R313). When ST.B, ST.H, ST.W or ST.D to virtual
memory issues with buffer-phase tracking off and its bytes translate to device memory outside control space and the host
window, none of them (nor of the entries its walks mark) in a redirected line of MRAM or the journal line that stands in for
it, and each cached line holds 64 bytes, then every byte outside the stored ones and outside the lines of the page-table
entries whose A or D bit its walks set, and every tag outside those lines, reads as before; in a line of such an entry every
byte outside the entries is, once recalled to its home, as it was. Every seat's registers and TM, the queues, the dies, the
slices' pages and control space are as they were. -/
def Obligations.ScalarStoreFrame : Prop :=
  ∀ (n : Nat) (c a : BitVec 6) (imm : BitVec 13) (g : BitVec 4) (s t : State) (ps : List Piece),
    let o : Word := s.rS a + imm.signExtend 64
    n ∈ [1, 2, 4, 8] → s.src.ctl.phaseEn = false → s.seatPieces o n (regAccess true o n) = .ok ps → anyControl ps = false → anyHost ps = false →
    (∀ r ∈ s.resole.redirect, ∀ p ∈ ps, ∀ pa, (p.pa ≤ pa ∧ pa < p.pa + p.len) ∨ (p.leaf.at_ ≤ pa ∧ pa < p.leaf.at_ + 8) →
      pa / 64 ≠ r.1 ∧ pa / 64 ≠ r.2) → (∀ l ∈ s.lines, l.2.data.length = 64) →
    Issues (if n = 1 then .stB c a 0 imm g else if n = 2 then .stH c a 0 imm g else if n = 4 then .stW c a 0 imm g
      else .stD c a 0 imm g) s t → s.rP g = true →
    (∀ pa, (∀ p ∈ ps, ¬(p.pa ≤ pa ∧ pa < p.pa + p.len) ∧ pa / 64 ≠ p.leaf.at_ / 64) → t.byteAt pa = s.byteAt pa) ∧
    (∀ pa, (∀ p ∈ ps, (∀ i < p.len, (p.pa + i) / 64 ≠ pa / 64) ∧ ¬(p.leaf.at_ ≤ pa ∧ pa < p.leaf.at_ + 8)) →
      t.recallByte pa = s.recallByte pa) ∧
    (∀ pa, (∀ p ∈ ps, pa / 64 ≠ p.leaf.at_ / 64) → t.tagAt pa = s.tagAt pa) ∧ t.fe = s.fe ∧ t.dies = s.dies ∧ t.ctl = s.ctl ∧ t.clusters = s.clusters ∧
    (∀ k x, (t.seatAt k x).file = (s.seatAt k x).file ∧ (t.seatAt k x).tm = (s.seatAt k x).tm)

/-- Memory reads back what was stored and nothing else changes (R11, R93, R28). A byte stored at a home that no journal redirects
reads back there, and every other byte reads as before at its home; a byte stored into a cached line (each line of the caches
holding 64 bytes) reads back in the coherent view, and every other byte reads there as before; a byte written through reads
back both ways. -/
def Obligations.MemoryReadsAfterWrites : Prop :=
  ∀ (s : State) (pa qa core : Nat) (last : Bool) (b : Byte), (∀ l ∈ s.lines, l.2.data.length = 64) → s.resole.redirect = [] →
    (s.putHome pa b).homeByte pa = b ∧ (qa ≠ pa → (s.putHome pa b).homeByte qa = s.homeByte qa) ∧
    (s.storeByte (.cached core last) pa b).byteAt pa = b ∧
    (qa ≠ pa → (s.storeByte (.cached core last) pa b).byteAt qa = s.byteAt qa) ∧
    (s.storeByte (.cached core last) pa b).homeByte qa = s.homeByte qa ∧
    (s.storeByte .through pa b).byteAt pa = b ∧ (s.storeByte .through pa b).homeByte pa = b ∧
    (qa ≠ pa → (s.storeByte .through pa b).byteAt qa = s.byteAt qa) ∧
    (s.storeByte .home pa b).homeByte pa = b

/-- A scratchpad offset maps into the window, swapped by HALF, or falls outside it (R101). Let W be SIZE × 4,096 bytes and P the
least power of two not below W (1 for 0). An offset o maps with x = o mod P: where x ≥ W it is out of the window, reads 0x00,
drops writes and sets SPOVR; else x is replaced by (x + W / 2) mod W where DBL = 1 and HALF = 1, and the byte is BASE × 4096 +
x. Each byte of a wider access maps by itself. A tag is read (else 0x0000) and written only where all 64 bytes of its block
map inside. The triple of a 6-bit format is that of o before the mapping. -/
def Obligations.ScratchpadWindowMaps : Prop :=
  ∀ (w : Window) (o : Word) (c : Core) (b : Byte) (s : State) (core x : Nat) (t : BitVec 16),
    let W := w.size * 4096
    (∃ P : Nat, (∃ k, P = 2 ^ k) ∧ W ≤ P ∧ (∀ k, W ≤ 2 ^ k → P ≤ 2 ^ k) ∧
      let x := o.toNat % P
      (W ≤ x → w.map o = none) ∧
      (x < W → w.dbl = true → w.half = true → w.map o = some (w.base * 4096 + (x + W / 2) % W)) ∧
      (x < W → (w.dbl = false ∨ w.half = false) → w.map o = some (w.base * 4096 + x))) ∧
    (w.map o = none → c.spByte (w.map o) = 0 ∧ c.spPut [w.map o] [b] = c ∧
      ((s.spovr core x [w.map o]).seatAt core x).file.ctl.spwin.getLsbD 31 = true) ∧
    (∀ n, w.maps o n = (List.range n).map (fun i => w.map (o + BitVec.ofNat 64 i))) ∧
    (∀ k, w.map o = some k → c.spByte (w.map o) = aget 0 k c.spad ∧ (c.spPut [w.map o] [b]).spByte (w.map o) = b ∧
      s.spovr core x [w.map o] = s) ∧
    ((∃ i < 64, w.map (o + BitVec.ofNat 64 i) = none) → c.spTag w o = 0 ∧ c.spPutTag w o t = c) ∧
    ((∀ i < 64, w.map (o + BitVec.ofNat 64 i) ≠ none) → (c.spPutTag w o t).spTag w o = t) ∧
    (codeSix (t.extractLsb' 0 8).toNat = true →
      ∀ n, n ∈ tripleRest [(o.toNat / 64, t)] ↔ n ≠ o.toNat / 64 ∧ n / 3 = o.toNat / 192)

/-- Element-wise vector instructions of two registers, and of a register and a scalar, compute segment by segment (R62, R333,
R335, R336, R337, R338, R339, R341, R343). With its registers ready and every register operand (with the mask, and the old
destination where it merges) of the needed shape, SHAPE or, for a scalar-broadcast form, va's own, each maskable two-source
instruction (VADD, VSUB, VMUL, VMIN, VMAX, VDIV, VIADD, VISUB, VIMUL, VAND, VOR, VXOR, VSHL, VSHR) and its broadcast form
whose computation answers runs (no more than 1,024 segments) makes the state in which vd holds those runs under the shape,
full at the instruction's distance, and VFLAGS has the flags ORed in. -/
def Obligations.VectorTwoSourceCompletes : Prop :=
  ∀ (vd va vb vm : BitVec 5) (sb : BitVec 6) (mz : BitVec 1) (g : BitVec 4) (s : State) (r : Runs × VF),
    let merge : Bool := vm != 0 && mz == 0
    let mask : Option Runs := if vm = 0 then none else some (s.rV vm).runs
    let old : Option Runs := if merge then some (s.rV vd).runs else none
    let shaped (q : Nat × Nat) (n : BitVec 5) : Prop := ((s.rV n).rows, (s.rV n).cols) = q
    let masked (q : Nat × Nat) : Prop := (vm ≠ 0 → shaped q vm) ∧ (vm ≠ 0 → mz = 0 → shaped q vd)
    let out (q : Nat × Nat) (n : Nat) (r : Runs × VF) : State := (s.putV vd n q.1 q.2 r.1).orFlags r.2
    let own := ((s.rV va).rows, (s.rV va).cols)
    let two (op : W32 → W32 → W32 × VF) (k : Runs) := ewCompute (fun x => op (nth 0 0 x) (nth 0 1 x)) [(s.rV va).runs, k] mask old
    (Ready g (maskSrcs (.v va) (.v vb) vd vm mz) [.v vd] s → shaped s.shape va → shaped s.shape vb → masked s.shape →
      (two fAdd (s.rV vb).runs = .ok r → Does (.vadd vd va vb vm mz g) s (out s.shape 3 r)) ∧
      (two fSub (s.rV vb).runs = .ok r → Does (.vsub vd va vb vm mz g) s (out s.shape 3 r)) ∧
      (two fMul (s.rV vb).runs = .ok r → Does (.vmul vd va vb vm mz g) s (out s.shape 4 r)) ∧
      (two fMin (s.rV vb).runs = .ok r → Does (.vmin vd va vb vm mz g) s (out s.shape 2 r)) ∧
      (two fMax (s.rV vb).runs = .ok r → Does (.vmax vd va vb vm mz g) s (out s.shape 2 r)) ∧
      (two fDiv (s.rV vb).runs = .ok r → Does (.vdiv vd va vb vm mz g) s (out s.shape 12 r)) ∧
      (two iAdd (s.rV vb).runs = .ok r → Does (.viadd vd va vb vm mz g) s (out s.shape 2 r)) ∧
      (two iSub (s.rV vb).runs = .ok r → Does (.visub vd va vb vm mz g) s (out s.shape 2 r)) ∧
      (two iMul (s.rV vb).runs = .ok r → Does (.vimul vd va vb vm mz g) s (out s.shape 3 r)) ∧
      (two iAnd (s.rV vb).runs = .ok r → Does (.vand vd va vb vm mz g) s (out s.shape 2 r)) ∧
      (two iOr (s.rV vb).runs = .ok r → Does (.vor vd va vb vm mz g) s (out s.shape 2 r)) ∧
      (two iXor (s.rV vb).runs = .ok r → Does (.vxor vd va vb vm mz g) s (out s.shape 2 r)) ∧
      (two iShl (s.rV vb).runs = .ok r → Does (.vshl vd va vb vm mz g) s (out s.shape 2 r)) ∧
      (two iShr (s.rV vb).runs = .ok r → Does (.vshr vd va vb vm mz g) s (out s.shape 2 r))) ∧
    (Ready g (maskSrcs (.v va) (.s sb) vd vm mz) [.v vd] s → masked own →
      let k : Runs := [((s.rS sb).extractLsb' 0 32, (s.rV va).ll)]
      (two fAdd k = .ok r → Does (.vaddBcast vd va sb vm mz g) s (out own 3 r)) ∧
      (two fSub k = .ok r → Does (.vsubBcast vd va sb vm mz g) s (out own 3 r)) ∧
      (two fMul k = .ok r → Does (.vmulBcast vd va sb vm mz g) s (out own 4 r)) ∧
      (two fMin k = .ok r → Does (.vminBcast vd va sb vm mz g) s (out own 2 r)) ∧
      (two fMax k = .ok r → Does (.vmaxBcast vd va sb vm mz g) s (out own 2 r)) ∧
      (two fDiv k = .ok r → Does (.vdivBcast vd va sb vm mz g) s (out own 12 r)) ∧
      (two iAdd k = .ok r → Does (.viaddBcast vd va sb vm mz g) s (out own 2 r)) ∧
      (two iSub k = .ok r → Does (.visubBcast vd va sb vm mz g) s (out own 2 r)) ∧
      (two iMul k = .ok r → Does (.vimulBcast vd va sb vm mz g) s (out own 3 r)) ∧
      (two iAnd k = .ok r → Does (.vandBcast vd va sb vm mz g) s (out own 2 r)) ∧
      (two iOr k = .ok r → Does (.vorBcast vd va sb vm mz g) s (out own 2 r)) ∧
      (two iXor k = .ok r → Does (.vxorBcast vd va sb vm mz g) s (out own 2 r)) ∧
      (two iShl k = .ok r → Does (.vshlBcast vd va sb vm mz g) s (out own 2 r)) ∧
      (two iShr k = .ok r → Does (.vshrBcast vd va sb vm mz g) s (out own 2 r)))

/-- One-source vector instructions, conversions, compares, fused products, selects and constants compute segment by segment (R62,
R333, R335, R336, R338, R339, R340, R341, R342, R344, R345, R346). With its registers ready and every register operand (with
the mask, and the old destination where it merges) under SHAPE, each one-source instruction and conversion (VABS to VLOG2,
VCVT.k, masked VMOV), each compare, VFMA, VFMS, VSEL, VSPLAT and VIOTA whose computation answers runs (no more than 1,024
segments) makes the state in which vd holds those runs under SHAPE, full at the instruction's distance, and VFLAGS has the
flags ORed in. -/
def Obligations.VectorOneSourceCompletes : Prop :=
  ∀ (vd va vb vc vm : BitVec 5) (sb : BitVec 6) (mz : BitVec 1) (g : BitVec 4) (s : State) (r : Runs × VF),
    let merge : Bool := vm != 0 && mz == 0
    let mask : Option Runs := if vm = 0 then none else some (s.rV vm).runs
    let old : Option Runs := if merge then some (s.rV vd).runs else none
    let shaped (q : Nat × Nat) (n : BitVec 5) : Prop := ((s.rV n).rows, (s.rV n).cols) = q
    let masked (q : Nat × Nat) : Prop := (vm ≠ 0 → shaped q vm) ∧ (vm ≠ 0 → mz = 0 → shaped q vd)
    let out (q : Nat × Nat) (n : Nat) (r : Runs × VF) : State := (s.putV vd n q.1 q.2 r.1).orFlags r.2
    let sh := s.shape
    (Ready g (maskSrcs (.v va) (.p 0) vd vm mz) [.v vd] s → shaped sh va → masked sh →
      let one (op : W32 → W32 × VF) := ewCompute (fun x => op (nth 0 0 x)) [(s.rV va).runs] mask old
      (one fAbs = .ok r → Does (.vabs vd va vm mz g) s (out sh 2 r)) ∧
      (one fNeg = .ok r → Does (.vneg vd va vm mz g) s (out sh 2 r)) ∧
      (one fRcp = .ok r → Does (.vrcp vd va vm mz g) s (out sh 6 r)) ∧
      (one fRsq = .ok r → Does (.vrsq vd va vm mz g) s (out sh 6 r)) ∧
      (one fSqrt = .ok r → Does (.vsqrt vd va vm mz g) s (out sh 12 r)) ∧
      (one fExp2 = .ok r → Does (.vexp2 vd va vm mz g) s (out sh 6 r)) ∧
      (one fLog2 = .ok r → Does (.vlog2 vd va vm mz g) s (out sh 6 r)) ∧
      (one cvtFi = .ok r → Does (.vcvtFi vd va vm mz g) s (out sh 3 r)) ∧
      (one cvtFit = .ok r → Does (.vcvtFit vd va vm mz g) s (out sh 3 r)) ∧
      (one cvtIf = .ok r → Does (.vcvtIf vd va vm mz g) s (out sh 3 r)) ∧
      (one cvtFb = .ok r → Does (.vcvtFb vd va vm mz g) s (out sh 3 r)) ∧
      (one cvtFt8 = .ok r → Does (.vcvtFt8 vd va vm mz g) s (out sh 3 r)) ∧
      (one cvtFt6 = .ok r → Does (.vcvtFt6 vd va vm mz g) s (out sh 3 r)) ∧
      (vm ≠ 0 → one (fun x => (x, 0)) = .ok r → Does (.vmov vd va vm mz g) s (out sh 2 r))) ∧
    (Ready g (maskSrcs (.v va) (.v vb) vd 0 0) [.v vd] s → shaped sh va → shaped sh vb →
      let two (op : W32 → W32 → W32 × VF) := ewCompute (fun x => op (nth 0 0 x) (nth 0 1 x)) [(s.rV va).runs, (s.rV vb).runs] none none
      (two cmpEq32 = .ok r → Does (.vcmpEq vd va vb g) s (out sh 2 r)) ∧
      (two cmpNe32 = .ok r → Does (.vcmpNe vd va vb g) s (out sh 2 r)) ∧
      (two cmpLt32 = .ok r → Does (.vcmpLt vd va vb g) s (out sh 2 r)) ∧
      (two cmpLe32 = .ok r → Does (.vcmpLe vd va vb g) s (out sh 2 r)) ∧
      (two cmpGt32 = .ok r → Does (.vcmpGt vd va vb g) s (out sh 2 r)) ∧
      (two cmpGe32 = .ok r → Does (.vcmpGe vd va vb g) s (out sh 2 r)) ∧
      (two cmpUn32 = .ok r → Does (.vcmpUn vd va vb g) s (out sh 2 r))) ∧
    (Ready g [.v va, .v vb, .v vc] [.v vd] s → shaped sh va → shaped sh vb → shaped sh vc →
      let three (op : W32 → W32 → W32 → W32 × VF) := ewCompute (fun x => op (nth 0 0 x) (nth 0 1 x) (nth 0 2 x))
        [(s.rV va).runs, (s.rV vb).runs, (s.rV vc).runs] none none
      (three fFma = .ok r → Does (.vfma vd va vb vc g) s (out sh 4 r)) ∧
      (three fFms = .ok r → Does (.vfms vd va vb vc g) s (out sh 4 r)) ∧
      (three (fun a b c => (if maskTrue c then a else b, 0)) = .ok r → Does (.vsel vd va vb vc g) s (out sh 2 r))) ∧
    (Ready g (maskSrcs (.p 0) (.s sb) vd vm mz) [.v vd] s → masked sh →
      ewCompute (fun x => (nth 0 0 x, 0)) [[((s.rS sb).extractLsb' 0 32, sh.1 * sh.2)]] mask old = .ok r →
      Does (.vsplat vd sb vm mz g) s (out sh 2 r)) ∧
    (Ready g (maskSrcs (.p 0) (.p 0) vd vm mz) [.v vd] s → masked sh →
      ewCompute (fun x => (nth 0 0 x, 0)) [(List.range (sh.1 * sh.2)).map (fun k => (BitVec.ofNat 32 k, 1))] mask old = .ok r →
      Does (.viota vd vm mz g) s (out sh 2 r))

/-- The segments of the element-wise rule give each element the operation of its sources' elements (R335, R336). Where two runs
lists cover the same number of elements, with every count positive, the unmasked element-wise rule gives runs that cover as
many elements, and element k of the result is the operation on element k of each source; the result needs more than 1,024
segments exactly where it is refused, and then RUN_OVERFLOW (0x12) holds their number. -/
def Obligations.ElementwiseRuleIsPointwise : Prop :=
  ∀ (f : W32 → W32 → W32 × VF) (xs ys : Runs),
    (∀ r ∈ xs, 0 < r.2) → (∀ r ∈ ys, 0 < r.2) → (expand xs).length = (expand ys).length →
    match ewCompute (fun x => f (nth 0 0 x) (nth 0 1 x)) [xs, ys] none none with
    | .ok r => expand r.1 = List.zipWith (fun a b => (f a b).1) (expand xs) (expand ys) ∧ (segments_ [xs, ys]).length ≤ 1024
    | .error e => e = .raise .exec 0x12 (BitVec.ofNat 64 (segments_ [xs, ys]).length) false ∧ 1024 < (segments_ [xs, ys]).length

/-- Reductions, scans, counts, moves and run management complete (R201, R335, R340, R347, R348, R349, R350, R355). With its
registers ready: VMOV copies va under its shape; VEXTR and VINS read and replace element s[sb] (0, or nothing, beyond the
length); VRED, VRROW and VSCAN reduce by the fixed tree or scan each row; VCNT counts true elements and VOCC gives rows,
columns, length and occupancy; VRCOAL joins runs within its tolerance; VRESHAPE, VBROW and VBCOL give the runs under SHAPE
where their operand fits it; VATTC combines two partials of SHAPE with at least three elements. A result of more than 1,024
runs is excluded. -/
def Obligations.VectorReductionsAndMovesComplete : Prop :=
  ∀ (vd va vb tol : BitVec 5) (sd sb sc : BitVec 6) (g : BitVec 4) (s : State),
    let a := s.rV va
    let sh := s.shape
    (Ready g [.v va] [.v vd] s →
      Does (.vmov vd va 0 0 g) s (s.putV vd 2 a.rows a.cols a.runs) ∧
      (let put (r : Reduce) : State := (s.putV vd 6 1 1 [((r.tree (expand a.runs)).1, 1)]).orFlags (r.tree (expand a.runs)).2
       Does (.vredSum vd va g) s (put redSum) ∧ Does (.vredMax vd va g) s (put redMax) ∧ Does (.vredMin vd va g) s (put redMin)) ∧
      (let put (r : Reduce) : State := (s.putV vd 6 a.rows 1 (ofElems ((a.rowsOf.map r.tree).map (·.1)))).orFlags
         (orAll ((a.rowsOf.map r.tree).map (·.2)))
       Does (.vrrowSum vd va g) s (put redSum) ∧ Does (.vrrowMax vd va g) s (put redMax) ∧ Does (.vrrowMin vd va g) s (put redMin)) ∧
      (let runs (r : Reduce) : Runs := ofElems ((a.rowsOf.map (r.scan r.ident)).flatMap (·.1))
       let put (r : Reduce) : State := (s.putV vd 8 a.rows a.cols (runs r)).orFlags (orAll ((a.rowsOf.map (r.scan r.ident)).map (·.2)))
       ((runs redSum).length ≤ 1024 → Does (.vscanSum vd va g) s (put redSum)) ∧
       ((runs redMax).length ≤ 1024 → Does (.vscanMax vd va g) s (put redMax)) ∧
       ((runs redMin).length ≤ 1024 → Does (.vscanMin vd va g) s (put redMin))) ∧
      (∀ w n t, a.runs = (w, n) :: t → Does (.vrcoal vd va tol g) s (s.putV vd 2 a.rows a.cols (coalesce tol.toNat w n t))) ∧
      (a.ll = sh.1 * sh.2 → Does (.vreshape vd va g) s (s.putV vd 2 sh.1 sh.2 a.runs)) ∧
      ((a.rows, a.cols) = (1, sh.2) → sh.1 * a.occ ≤ 1024 →
        Does (.vbrow vd va g) s (s.putV vd 2 sh.1 sh.2 (List.replicate sh.1 a.runs).flatten)) ∧
      ((a.rows, a.cols) = (sh.1, 1) → Does (.vbcol vd va g) s (s.putV vd 2 sh.1 sh.2 (a.runs.map (fun r => (r.1, r.2 * sh.2)))))) ∧
    (Ready g [.v va, .s sb] [.s sd] s →
      Does (.vextr sd va sb g) s (s.wSV sd (if (s.rS sb).toNat < a.ll then (runAt a.runs (s.rS sb).toNat).zeroExtend 64 else 0))) ∧
    (Ready g [.v vd, .s sb, .s sc] [.v vd] s →
      let d := s.rV vd
      let r := if (s.rS sb).toNat < d.ll then setElem ((s.rS sc).extractLsb' 0 32) d.runs (s.rS sb).toNat else d.runs
      r.length ≤ 1024 → Does (.vins vd sb sc g) s (s.putV vd 2 d.rows d.cols r)) ∧
    (Ready g [.v va] [.s sd] s →
      Does (.vcnt sd va g) s (s.wSV sd (BitVec.ofNat 64 (a.runs.foldl (fun n r => if maskTrue r.1 then n + r.2 else n) 0))) ∧
      Does (.vocc sd va g) s (s.wSV sd (BitVec.ofNat 64 (a.rows * 2 ^ 40 + a.cols * 2 ^ 32 + a.ll * 2 ^ 16 + a.occ)))) ∧
    (Ready g [.v va, .v vb] [.v vd] s → (a.rows, a.cols) = sh → ((s.rV vb).rows, (s.rV vb).cols) = sh → 3 ≤ sh.1 * sh.2 →
      let r := combine (partialOf (expand a.runs)) (partialOf (expand (s.rV vb).runs))
      let runs : Runs := if r.1.m = negInf then [(negInf, 1), (0, 1), (0, sh.1 * sh.2 - 2)]
        else attRuns a.runs (s.rV vb).runs (sh.1 * sh.2) ([r.1.m, r.1.l] ++ r.1.o)
      runs.length ≤ 1024 → Does (.vattc vd va vb g) s ((s.putV vd 10 sh.1 sh.2 runs).orFlags r.2))

/-- PATLD, PATSW and VPERM load, switch and use the pattern memory (R351, R352, R353, R354). With its registers ready: PATLD of a
register whose first element is a well-formed header with its segment words within the length and their bits 31:24 zero stores
the pattern in the inactive bank; PATSW makes the other bank active; VPERM with a loaded pattern that fits its source and
SHAPE writes the permuted elements joined into runs. A malformed header, and a pattern never loaded, raise PATTERN_INVALID
(0x15). -/
def Obligations.PermutesComplete : Prop :=
  ∀ (vd va : BitVec 5) (pat : BitVec 6) (g : BitVec 4) (s : State),
    let a := s.rV va
    let h := runAt a.runs 0
    let word (i : Nat) : W32 := runAt a.runs (i + 1)
    (Ready g [.v va] [] s →
      (patHeaderOk h = true → (∀ i, i < patSegs h → i + 1 < a.ll ∧ (word i).extractLsb' 24 8 = 0) →
        let p : Pattern := { header := h, segs := (List.range (patSegs h)).map word }
        Does (.patld va pat g) s (s.modFcore (fun c => { c with patterns := aput (64 * (1 - c.bank) + pat.toNat) p c.patterns }))) ∧
      (patHeaderOk h = false → Raises (.patld va pat g) s 0x15 0)) ∧
    (Ready g [] [] s → Does (.patsw g) s (s.modFcore (fun c => { c with bank := 1 - c.bank }))) ∧
    (Ready g [.v va] [.v vd] s →
      (∀ p out, alook (64 * s.fcore.bank + pat.toNat) s.fcore.patterns = some p → permute p va a s.shape = .ok out →
        (ofElems out).length ≤ 1024 → Does (.vperm vd va pat g) s (s.putV vd 6 s.shape.1 s.shape.2 (ofElems out))) ∧
      (alook (64 * s.fcore.bank + pat.toNat) s.fcore.patterns = none → Raises (.vperm vd va pat g) s 0x15 0))

/-- A vector instruction changes only its destination and VFLAGS (R62, R283, R334, R336, R339). When an instruction of position V
other than PATLD and PATSW answers a next state in which it has issued, everything outside its seat is as it was, every byte
of memory among it; in its seat every vector register but the one its destination names, every scalar register but its scalar
destination, every predicate, the pc, TM, the snapshot and every control register but VFLAGS are as they were, and VFLAGS
keeps every flag it had. -/
def Obligations.VectorFrame : Prop :=
  ∀ (i : Instr) (s t : State), i.pos = some 1 → (∀ va pat g, i ≠ .patld va pat g) → (∀ g, i ≠ .patsw g) → Issues i s t →
    { t with seats := s.seats, focus := s.focus } = s ∧ (∀ pa, t.byteAt pa = s.byteAt pa) ∧
    (∀ c x, 2 * c + x ≠ 2 * s.focus.core + s.focus.seat → t.seatAt c x = s.seatAt c x) ∧
    { t.fseat with file := s.fseat.file, vBusy := s.fseat.vBusy } = s.fseat ∧
    { t.fseat.file.ctl with vflags := s.fseat.file.ctl.vflags } = s.fseat.file.ctl ∧
    s.fseat.file.ctl.vflags ||| t.fseat.file.ctl.vflags = t.fseat.file.ctl.vflags ∧
    t.fseat.file.regs.p = s.fseat.file.regs.p ∧
    (∀ k, (∀ d, .s d ∈ i.dests → d = 0 ∨ d.toNat ≠ k) → alook k t.fseat.file.regs.s = alook k s.fseat.file.regs.s) ∧
    (∀ k, (∀ d, .v d ∈ i.dests → vphys s.src.ctl.rot d.toNat ≠ k) → alook k t.fseat.file.regs.v = alook k s.fseat.file.regs.v)

/-- Special functions and compares give the values and flags of their tables at special inputs (R60, R62, R342, R344). A NaN gives
0x7FC0_0000 from VRCP, VRSQ, VSQRT, VEXP2 and VLOG2, with NV only where it is signalling; VRCP of ±0 gives ±∞ with DZ, of ±∞
±0; VRSQ of ±0 gives ±∞ with DZ; VSQRT keeps ±0; VRSQ, VSQRT and VLOG2 of a negative nonzero number give NaN with NV; VLOG2 of
±0 gives −∞ with DZ and of 1 +0; VEXP2 of −∞ gives +0 and of +∞ +∞ with OF and NX, of ±0 1. VABS and VNEG change the sign bit
alone. With a NaN operand, EQ, LT, LE, GT and GE are false, NE and UN true; the ordered tests then set NV, and EQ, NE and UN
set it only for a signalling NaN; +0 = −0. -/
def Obligations.SpecialValuesAndTheirFlags : Prop :=
  ∀ a b : W32,
    (isNan32 a = true → ∀ f ∈ [fRcp, fRsq, fSqrt, fExp2, fLog2], f a = (0x7FC00000#32, if isSnan a then fNV else 0)) ∧
    fRcp 0 = (0x7F800000#32, fDZ) ∧ fRcp 0x80000000#32 = (0xFF800000#32, fDZ) ∧
    fRcp 0x7F800000#32 = (0, 0) ∧ fRcp 0xFF800000#32 = (0x80000000#32, 0) ∧
    fRsq 0 = (0x7F800000#32, fDZ) ∧ fRsq 0x80000000#32 = (0xFF800000#32, fDZ) ∧ fRsq 0x7F800000#32 = (0, 0) ∧
    fSqrt 0 = (0, 0) ∧ fSqrt 0x80000000#32 = (0x80000000#32, 0) ∧ fSqrt 0x7F800000#32 = (0x7F800000#32, 0) ∧
    (isNan32 a = false → a.getLsbD 31 = true → a ≠ 0x80000000#32 →
      fRsq a = (0x7FC00000#32, fNV) ∧ fSqrt a = (0x7FC00000#32, fNV) ∧ fLog2 a = (0x7FC00000#32, fNV)) ∧
    fLog2 0 = (0xFF800000#32, fDZ) ∧ fLog2 0x80000000#32 = (0xFF800000#32, fDZ) ∧ fLog2 0x3F800000#32 = (0, 0) ∧
    fExp2 0xFF800000#32 = (0, 0) ∧ fExp2 0x7F800000#32 = (0x7F800000#32, fOF ||| fNX) ∧ fExp2 0 = (0x3F800000#32, 0) ∧
    ((fAbs a).1.extractLsb' 0 31 = a.extractLsb' 0 31 ∧ (fAbs a).1.getLsbD 31 = false ∧ (fAbs a).2 = 0) ∧
    ((fNeg a).1.extractLsb' 0 31 = a.extractLsb' 0 31 ∧ (fNeg a).1.getLsbD 31 = !a.getLsbD 31 ∧ (fNeg a).2 = 0) ∧
    (isNan32 a = true ∨ isNan32 b = true →
      let quiet : VF := if isSnan a || isSnan b then fNV else 0
      cmpEq32 a b = (0, quiet) ∧ cmpNe32 a b = (1, quiet) ∧ cmpUn32 a b = (1, quiet) ∧
      cmpLt32 a b = (0, fNV) ∧ cmpLe32 a b = (0, fNV) ∧ cmpGt32 a b = (0, fNV) ∧ cmpGe32 a b = (0, fNV)) ∧
    cmpEq32 0 0x80000000#32 = (1, 0)

/-- Vector loads sample their tile or run list and go on their way; arriving data fills its register (R315, R356, R357, R358,
R359, R360, R362, R363, R367). With its registers ready (its block's parameters read and within their limits), VLD and VLDS of
an aligned tile, and VLD.RUN of a 64-byte-aligned list, issue: from scratchpad where no earlier entry covers their ranges,
from virtual memory where every range (for a 6-bit format its whole triples) translates outside control space. They sample
their bytes, tags and formats and leave an operation in flight on which the destination waits. A misaligned tile raises
MISALIGNED (0x26), from scratchpad with the offset. Data that has arrived fills the register with its shape and runs and ORs
its flags, or marks it faulted with the cause; a scalar load's value fills its register once its least distance has passed. -/
def Obligations.VectorLoadsGoOnTheirWay : Prop :=
  ∀ (v : BitVec 5) (a : BitVec 6) (fsel g : BitVec 4) (p : Params) (s : State),
    let base := s.rS a
    let c := fselCode fsel
    let sh := s.shape
    let starts (i : BitVec 1 → Instr) (q : VLoadAsk) : Prop :=
      (∀ rs, s.spRanges q = .ok rs → (∀ r ∈ rs, s.awaitSpans s.window r.1 r.2 = .ok ()) →
        Does (i 1) s (s.startSpLoad v { q with ranges := rs })) ∧
      (∀ pss, q.ranges.mapM (fun r => s.seatPieces r.1 r.2 .read) = .ok pss →
        let u := s.install false pss.flatten
        Does (i 0) s (u.startVLoad v q (if q.kind = 2 then
          pss.map (fun ps => State.vload.cutTo (64 * runListBlocks q.cap ((u.seatRead ps).take 64)) ps) else pss) base))
    (Ready g [.s a] [.v v] s →
      (misaligned c base none false sh.1 sh.2 = none →
        starts (fun sp => .vld v a sp fsel 0 g) (s.tileAsk 0 base c none) ∧
        starts (fun sp => .vlds v a sp fsel 0 g) (s.tileAsk 1 base c none)) ∧
      (∀ o, misaligned c base none false sh.1 sh.2 = some o → Raises (.vld v a 1 fsel 0 g) s 0x26 o) ∧
      (base.toNat % 64 = 0 → starts (fun sp => .vldRun v a sp 0 g) (runAsk base 1024 0))) ∧
    (Ready g (markerSrcs s.focus.block ++ [.s a]) [.v v] s → s.params = .ok p →
      (vBlockOk p true false (some sh) = true → misaligned c base (some p.stride) false sh.1 sh.2 = none →
        starts (fun sp => .vld v a sp fsel 1 g) (s.tileAsk 0 base c (some p.stride)) ∧
        starts (fun sp => .vlds v a sp fsel 1 g) (s.tileAsk 1 base c (some p.stride))) ∧
      (vBlockOk p true true none = true → base.toNat % 64 = 0 → p.stride % 64 = 0 →
        starts (fun sp => .vldRun v a sp 1 g) (runAsk base p.aux.toNat (nth 0 0 p.words)))) ∧
    (∀ core id o, core < 400 → s.op core id = some (.vload o) → (o.waits = [] ∨ o.failed.isSome = true) →
      (s.seatAt core o.seat).mayArrive o.least ((s.seatAt core o.seat).awaitsV o.reg) (halted (s.core core)) false = true →
      let u := (s.dropOp core id).makeArrivals core
      exec (.vectorLoadComplete core id) s = .next (match o.result (s.core core).codeTable with
        | .ok r => (u.fillV core o.seat id o.reg
            (fun _ => { rows := r.1, cols := r.2.1, runs := r.2.2.1, fill := .full })).lateFlags core o.seat r.2.2.2
        | .error e => u.fillV core o.seat id o.reg (fun x => { x with fill := .faulted e.1 e.2 }))) ∧
    (∀ core id o, core < 400 → s.op core id = some (.load o) →
      (s.seatAt core o.seat).mayArrive o.least ((s.seatAt core o.seat).awaitsS o.reg.toNat) (halted (s.core core)) (decide (56 ≤ o.reg.toNat)) = true →
      exec (.loadComplete core id) s = .next ((s.dropOp core id).fillS core o.seat id o.reg o.val))

/-- A tile of raw words loads the words that lie there, row by row (R55, R357, R360). FSEL 9 selects the raw code 0x00, and where
a vector load of that code has sampled rows of 32-bit words, each row as long as its column count, what it decodes is exactly
those words in row-major order with no flags, whatever the tags and the table are. -/
def Obligations.RawTilesLoadTheirWords : Prop :=
  fselCode 9 = 0 ∧
  ∀ (t : FmtCtx) (o : VLoadOp) (rows : List (Word × List W32)), o.code = 0 → (∀ r ∈ rows, r.2.length = o.perRow) →
    o.segs = rows.map (fun r => (r.1, r.2.flatMap (fun w => natToBytes 4 w.toNat))) →
    decodeTile t o = .ok ((rows.flatMap (·.2)).map (fun w => (w, 0)))

/-- A run list that VST.RUN stored, VLD.RUN loads back (R365, R366, R367). For every register value with 1 to 64 rows and columns
and 1 to 1,024 runs of 1 to 4,096 elements that cover it, the bytes that VST.RUN stores decode, under blocks tagged 0x7F40, to
the same rows, columns and runs. -/
def Obligations.StoredRunListsLoadBack : Prop :=
  ∀ (x : VReg) (o : VLoadOp) (base : Word), 1 ≤ x.rows → x.rows ≤ 64 → 1 ≤ x.cols → x.cols ≤ 64 → 1 ≤ x.occ → x.occ ≤ o.cap →
    o.cap ≤ 1024 → (∀ r ∈ x.runs, 1 ≤ r.2 ∧ r.2 ≤ 4096) → x.ll = x.rows * x.cols →
    x.runs.foldl (fun n r => n + r.2) 0 = x.rows * x.cols → o.want = 0 → o.segs = [(base, runListBytes x)] →
    (∀ i, i < runListBlocks o.cap (runListBytes x) → aget 0 (base.toNat / 64 + i) o.tags = 0x7F40#16) →
    decodeRunList o = .ok (x.rows, x.cols, x.runs)

/-- Vector stores write their codes and tags; TAGRD and TAGWR read and write a block's tag (R47, R358, R359, R364, R365, R366,
R368). With its registers ready (its block's parameters read and within their limits), VST of an aligned tile and VST.RUN of a
list within its capacity write their bytes: into scratchpad where no earlier entry covers their ranges, into virtual memory
where they translate for a write, nothing that an SO page makes them wait for is left and the phase store queue has room;
every block written whole takes the store's tag, 0x7F40 for a run list. TAGRD delivers the tag of the block at its address,
TAGWR sets it. More runs than the capacity, once the places are at hand, raise RUNLIST_INVALID (0x16), and a misaligned
scratchpad tile MISALIGNED (0x26). -/
def Obligations.VectorStoresAndTagsComplete : Prop :=
  ∀ (v : BitVec 5) (a b : BitVec 6) (fsel g : BitVec 4) (p : Params) (s : State),
    let base := s.rS a
    let c := fselCode fsel
    let x := s.rV v
    let spad (i : Instr) (sg : List (Word × List Byte)) (tag : BitVec 16) : Prop :=
      (∀ r ∈ sg, s.awaitSpans s.window r.1 r.2.length = .ok ()) → ∃ t, s.storeTileSp sg tag (.ok ()) = .ok t ∧ Does i s t
    let virt (i : Instr) (sg : List (Word × List Byte)) (tag : BitVec 16) : Prop :=
      ∀ pss, sg.mapM (fun r => s.seatPieces r.1 r.2.length .write) = .ok pss → s.awaitSo pss.flatten = .ok () →
        (s.install true pss.flatten).psqRoom base = .ok () →
        Does i s (((s.install true pss.flatten).stored base ((sg.zip pss).flatMap (fun y => cutPieces y.2 y.1.2))
          (((sg.zip pss).flatMap (fun y => y.2.flatMap (fun q =>
            (wholeBlocks q.va q.len).map (fun o => (q.pa + o, pteCp q.leaf.entry, tag))))).filter (fun t => region t.1 != .host))
          (storeOrd none ((sg.zip pss).flatMap (fun y => y.2)))).trace s.focus.core s.focus.seat 3 base)
    let stores (i : BitVec 1 → Instr) (sg : List (Word × List Byte)) (tag : BitVec 16) : Prop := spad (i 1) sg tag ∧ virt (i 0) sg tag
    (Ready g [.v v, .s a] [] s →
      (misaligned c base none true x.rows x.cols = none →
        stores (fun sp => .vst v a sp fsel 0 g) (s.tileSegs x base c none 127) (storeTagOf c 127)) ∧
      (∀ o, misaligned c base none true x.rows x.cols = some o → Raises (.vst v a 1 fsel 0 g) s 0x26 o) ∧
      (base.toNat % 64 = 0 → x.occ ≤ 1024 → stores (fun sp => .vstRun v a sp 0 g) [(base, runListBytes x)] 0x7F40)) ∧
    (Ready g (markerSrcs s.focus.block ++ [.v v, .s a]) [] s → s.params = .ok p →
      (vBlockOk p false false (some (x.rows, x.cols)) = true → misaligned c base (some p.stride) true x.rows x.cols = none →
        stores (fun sp => .vst v a sp fsel 1 g) (s.tileSegs x base c (some p.stride) p.scale) (storeTagOf c p.scale)) ∧
      (vBlockOk p false true (some (x.rows, x.cols)) = true → base.toNat % 64 = 0 → p.stride % 64 = 0 →
        (x.occ ≤ p.aux.toNat → stores (fun sp => .vstRun v a sp 1 g) [(base, runListBytes x)] 0x7F40) ∧
        (p.aux.toNat < x.occ →
          (s.awaitSpans s.window base (runListBytes x).length = .ok () → Raises (.vstRun v a 1 1 g) s 0x16 base) ∧
          (∀ ps, s.seatPieces base (runListBytes x).length .write = .ok ps → Raises (.vstRun v a 0 1 g) s 0x16 base)))) ∧
    (∀ d : BitVec 6, Ready g [.s a] [.s d] s →
      (s.awaitSpans s.window (blockOf base) 64 = .ok () → ∃ t, Does (.tagrd d a 1 g) s t ∧
        t = (s.spovr s.focus.core s.focus.seat (s.window.maps (blockOf base) 64)).wS d
          ((s.fcore.spTag s.window (blockOf base)).zeroExtend 64) (s.after 4)) ∧
      (∀ q qs, s.seatPieces base 1 .read = .ok (q :: qs) →
        Does (.tagrd d a 0 g) s (((s.installRead (q :: qs)).trace s.focus.core s.focus.seat 2 base).loadInto d
          ((s.seatTag (pteCp q.leaf.entry) q.pa).zeroExtend 64) 12))) ∧
    (Ready g [.s a, .s b] [] s →
      (s.awaitSpans s.window (blockOf base) 64 = .ok () →
        Does (.tagwr a b 1 g) s ((s.spovr s.focus.core s.focus.seat (s.window.maps (blockOf base) 64)).modFcore
          (fun k => k.spPutTag s.window (blockOf base) ((s.rS b).extractLsb' 0 16)))) ∧
      (∀ q qs, s.seatPieces base 1 .write = .ok (q :: qs) → s.awaitSo (q :: qs) = .ok () → region q.pa ≠ .host →
        ((s.install true (q :: qs)).trace s.focus.core s.focus.seat 3 base).psqRoom base = .ok () →
        Does (.tagwr a b 0 g) s (((s.install true (q :: qs)).trace s.focus.core s.focus.seat 3 base).stored base []
          [(q.pa / 64 * 64, pteCp q.leaf.entry, (s.rS b).extractLsb' 0 16)] (storeOrd none (q :: qs)))) ∧
      (∀ q qs, s.seatPieces base 1 .write = .ok (q :: qs) → s.awaitSo (q :: qs) = .ok () → region q.pa = .host →
        Does (.tagwr a b 0 g) s ((s.install true (q :: qs)).trace s.focus.core s.focus.seat 3 base)))

/-- OSCLAIM claims a slot, OSREL releases it, and it becomes free when nothing names it (R105, R371, R372). Under a true guard: a
claim of a FREE slot makes it the seat's own, cleared where another ASID wrote it last; a claim of the seat's own slot has no
effect; a slot that the other seat holds stalls OSCLAIM and makes OSCLAIM.T raise SLOT_BUSY (0x35); a RELEASING one stalls
both. OSREL of the seat's own slot makes it RELEASING, any other raises SLOT_UNCLAIMED (0x34). A RELEASING slot that no
operation names becomes FREE. -/
def Obligations.OperandSlotsAreClaimedAndReleased : Prop :=
  ∀ (os g : BitVec 4) (s : State), Ready g [] [] s →
    let st := (s.fcore.slot os.toNat).state
    let claimed := s.modFcore (fun c => c.modSlot os.toNat (fun o => o.claim s.focus.seat s.fasid))
    (st = .free → Does (.osclaim os g) s claimed ∧ Does (.osclaimT os g) s claimed) ∧
    (st = .claimed s.focus.seat → Does (.osclaim os g) s s ∧ Does (.osclaimT os g) s s ∧
      Does (.osrel os g) s (s.modFcore (fun c => c.modSlot os.toNat (fun o => { o with state := .releasing })))) ∧
    (∀ y, st = .claimed y → y ≠ s.focus.seat → Waits (.osclaim os g) s ∧ Raises (.osclaimT os g) s 0x35 (os.zeroExtend 64)) ∧
    (st = .releasing → Waits (.osclaim os g) s ∧ Waits (.osclaimT os g) s) ∧
    (st ≠ .claimed s.focus.seat → Raises (.osrel os g) s 0x34 (os.zeroExtend 64)) ∧
    (∀ o : OpSlot, (o.claim s.focus.seat s.fasid).state = .claimed s.focus.seat ∧
      (o.lastAsid ≠ s.fasid → (o.claim s.focus.seat s.fasid).data = [] ∧ (o.claim s.focus.seat s.fasid).tags = [])) ∧
    (∀ core slot, core < 400 → slot < 16 → ((s.core core).slot slot).state = .releasing → s.slotInUse core slot = false →
      exec (.slotFree core slot) s = .next (s.modCore core (fun c => c.modSlot slot (fun o => { o with state := .free }))))

/-- MMA and MMAZ enter the array, and their completion takes effect in the accumulator (R106, R373, R374, R375, R376, R385). Under
a true guard, with the leaf not awaiting its root, no running SEQ.MMA on the accumulator, no earlier entry covering the
operands and a free place in the array: with both slots claimed and their tags passing the checks of R374, MMA and MMAZ issue,
the leaf counts one more matrix operation and the operation with the seat's captured formats is in flight; the first slot that
is not claimed raises SLOT_UNCLAIMED (0x34). The oldest operation on its accumulator that awaits no copy completes: its effect
is made, it leaves, its status joins its leaf, whose count falls with the last of its steps, and the moves behind it take
their turn. The effect of a sound one is its result, row by row; one met by an uncorrectable error makes every element of the
accumulator the canonical NaN, with status bits in 4:2 and cause UNCORRECTABLE (0x52). -/
def Obligations.MatrixMultiplyCompletes : Prop :=
  ∀ (acc : BitVec 2) (sa sb bar g : BitVec 4) (s : State), Ready g [] [] s →
    let held (n : BitVec 4) : Prop := ∃ y, (s.fcore.slot n.toNat).state = .claimed y
    let op (zero : Bool) : MmaOp :=
      { seat := s.focus.seat, asid := s.fasid, acc := acc.toNat, sa := sa.toNat, sb := sb.toNat, bar := bar.toNat, zero := zero,
        rows := 64, cols := 64, efr := s.src.ctl.efr.extractLsb' 0 13, l6q := s.src.ctl.ctabsel.extractLsb' 0 2,
        waits := none, seqStep := none, last := true, failed := none, status := 0 }
    let room : Prop := (s.leaf s.focus.core bar.toNat).arrived = false ∧ s.seqOnAcc s.focus.core acc.toNat = false ∧
      s.awaitScore (.rows sa.toNat 0 63) = .ok () ∧ s.awaitScore (.rows sb.toNat 0 63) = .ok () ∧ s.fcore.arrayFull = false
    let up : State := s.mxfUp s.focus.core bar.toNat
    (up.leaf s.focus.core bar.toNat).mxf = (s.leaf s.focus.core bar.toNat).mxf + 1 ∧
    (room → held sa → held sb → s.fcore.mmaCheck sa.toNat sb.toNat 64 64 s.fresh = none →
      Does (.mma acc sa sb bar g) s (up.newOp s.focus.core (.mma (op false))) ∧
      Does (.mmaz acc sa sb bar g) s (up.newOp s.focus.core (.mma (op true)))) ∧
    (room → ¬held sa → Raises (.mma acc sa sb bar g) s 0x34 (BitVec.ofNat 64 sa.toNat) ∧
      Raises (.mmaz acc sa sb bar g) s 0x34 (BitVec.ofNat 64 sa.toNat)) ∧
    (room → held sa → ¬held sb → Raises (.mma acc sa sb bar g) s 0x34 (BitVec.ofNat 64 sb.toNat) ∧
      Raises (.mmaz acc sa sb bar g) s 0x34 (BitVec.ofNat 64 sb.toNat)) ∧
    (∀ core id err o, core < 400 → s.op core id = some (.mma o) → o.waits = none → (s.core core).accBusy o.acc id = false →
      let l := s.logOperand core err
      let r := l.mmaEffect core id o err
      let u := r.1.dropOp core id
      (o.last = true → exec (.mmaComplete core id err) s = .next ((u.mxfDone core o.bar r.2.1 r.2.2).settleAcc core)) ∧
      (o.last = false → exec (.mmaComplete core id err) s =
        .next (((u.setLeaf core o.bar ((u.leaf core o.bar).note r.2.1 r.2.2)).evalLeaf core o.bar).settleAcc core)) ∧
      (o.failed = none → err = 0 → o.status = 0 → (s.core core).mmaPoison o = false → ∀ rows, (s.core core).mmaResult o = some rows →
        r = ((s.noteAcc core o.seat o.acc id).modCore core (fun c => rows.foldl (fun c r => c.accPut o.acc r.1 r.2) c), 0, 0)) ∧
      (∀ cause, o.failed = some cause → r = (l, 0x20, cause)) ∧
      (o.failed = none → (o.status ||| ((err.zeroExtend 32) <<< 1) ||| (if (s.core core).mmaPoison o then 4 else 0)) &&& 0x1C#32 ≠ 0 →
        r.2.2 = 0x52 ∧ r.2.1 &&& 0x1C#32 ≠ 0 ∧ ∀ k, k < 4096 → ((r.1.core core).accElem o.acc k) = qnan))

/-- ACCRD, ACCWR, ACCZ, ACCST and ACCST_LAND complete, and the moves of an accumulator take effect in turn (R108, R377, R378).
With its registers ready and no running SEQ.MMA on the accumulator, exec answers a next state in which the instruction has
issued: ACCRD (either class) has left an operation that reads the RG quarter, on which its destination waits, ACCWR of a 16 ×
64 register one that writes that quarter, ACCZ one that writes 0 to all 4,096 elements. Each takes effect in issue order, and
at once at a core with nothing in flight. ACCST of an aligned rectangle within its block's limits has gone on its way into
scratchpad, or through translated pieces; while tracking is on it is sampled and held. A register of another shape makes ACCWR
raise SHAPE_MISMATCH (0x13). ACCST_LAND of one that has read its accumulator, of which no page is being pinned and which no SO
page makes wait for an earlier one, writes its bytes, counts them at its leaf and ends, unless the host has still to take
some. -/
def Obligations.AccumulatorMovesComplete : Prop :=
  ∀ (v : BitVec 5) (acc rg : BitVec 2) (a : BitVec 6) (cls sp : BitVec 1) (g : BitVec 4) (p : Params) (s : State),
    let x := s.rV v
    let reads : AccReadOp := { seat := s.focus.seat, asid := s.fasid, reg := vphys s.src.ctl.rot v.toNat, acc := acc.toNat, rg := rg.toNat, int := cls == 1 }
    let write (lo : Nat) (es : List W32) : AccWriteOp := { seat := s.focus.seat, asid := s.fasid, acc := acc.toNat, lo := lo, elems := es }
    let quarter : State := s.newMove (.accWrite (write (1024 * rg.toNat) (expand x.runs)))
    let zeroed : State := s.newMove (.accWrite (write 0 (List.replicate 4096 0)))
    (s.seqOnAcc s.focus.core acc.toNat = false →
      (Ready g [] [.v v] s → exec (.accrd v acc rg cls g) s = .next (((s.pendV v s.nextOp).newMove (.accRead reads)).setStatus .issued)) ∧
      (Ready g [.v v] [] s →
        ((x.rows, x.cols) = (16, 64) → exec (.accwr v acc rg g) s = .next (quarter.setStatus .issued)) ∧
        ((x.rows, x.cols) ≠ (16, 64) → ∃ f, Raises (.accwr v acc rg g) s 0x13 f)) ∧
      (Ready g [] [] s → exec (.accz acc g) s = .next (zeroed.setStatus .issued)) ∧
      (s.fcore.ops = [] →
        (∀ k, k < 4096 → zeroed.fcore.accElem acc.toNat k = 0) ∧
        ((expand x.runs).length = 1024 → ∀ k, k < 1024 → quarter.fcore.accElem acc.toNat (1024 * rg.toNat + k) = nth 0 k (expand x.runs)) ∧
        (cls = 0 → let u := (s.pendV v s.nextOp).newMove (.accRead reads)
          aget vreg0 (vphys s.src.ctl.rot v.toNat) u.fseat.file.regs.v =
            { rows := 16, cols := 64, fill := .soon (s.fseat.issued + 8),
              runs := ofElems ((List.range 1024).map (fun k => s.fcore.accElem acc.toNat (1024 * rg.toNat + k))) })) ∧
      (Ready g (markerSrcs s.focus.block ++ [.s a]) [] s → s.params = .ok p → accstOk p = true →
        (∀ b, p.leaf = some b → (s.leaf s.focus.core b).arrived = false) →
        let o := s.accstOf p acc (s.rS a) (sp == 1)
        misaligned o.code (s.rS a) (some p.stride) true p.rows p.cols = none →
        (sp = 1 → s.awaitEntry = .ok () → s.awaitScore (spadScore o.win o.segs) = .ok () →
          exec (.accst acc a sp g) s = .next (((s.spovr s.focus.core s.focus.seat (o.segs.flatMap (fun r => o.win.maps r.1 r.2))).newMove
            (.accst { o with score := spadScore o.win o.segs })).setStatus .issued)) ∧
        (∀ pss, sp = 0 → o.segs.mapM (fun r => s.pathPieces .write r.1 r.2) = .ok pss →
          let tg := pss.flatten.flatMap (fun q => (wholeBlocks q.va q.len).map (fun k => (q.pa + k, pteCp q.leaf.entry)))
          let q : AccstOp := { o with maps := pss.flatten.map (fun q => (q.pa, q.len, pteCp q.leaf.entry)), tagsAt := tg,
                                      ord := storeOrd none pss.flatten }
          let r := s.trace s.focus.core s.focus.seat 3 (s.rS a)
          let u := r.install true pss.flatten
          (r.src.ctl.phaseEn = false → exec (.accst acc a sp g) s = .next ((u.newMove (.accst q)).setStatus .issued)) ∧
          (r.src.ctl.phaseEn = true → r.psqRoom (s.rS a) = .ok () → r.fcore.accBusy acc.toNat r.nextOp = false →
            let h := q.sample u.fcore
            exec (.accst acc a sp g) s = .next (((u.modFcore (fun c => { c with held := c.held ++ [(u.focus.seat, .accst h)] })).crcNote
              (crcRecord (s.rS a) 2 ((h.data.getD []).flatMap (·.2)) (tg.map (fun _ => storeTagOf q.code q.scale)))).setStatus .issued))))) ∧
    (∀ core id o segs, core < 400 → s.op core id = some (.accst o) → o.data = some segs → o.hostOut = 0 →
      o.maps.any (fun m => s.pinBusy m.1) = false → s.mxGoes core id o = true →
      exec (.accstLand core id) s = .next (if o.sp || (o.writes segs true).isEmpty then (s.landAccst core id o segs).accstDone core id o
        else s.landAccst core id o segs) ∧
      (∀ b, o.bar = some b → s.accstDone core id o = (s.dropOp core id).landBytes core b o.count))

/-- EFRW, CTWR, SPSWAP, the prefetches, CFLUSH and CINV have their effects (R96, R97, R98, R379, R380, R395). With its registers
ready: EFRW writes EFR with the low 32 bits of its source; CTWR, with no decoding operation of its seat in flight, writes
consecutive entries of the code table, modulo 256, from the high halves of its elements (a held copy keeps the table as it
stood); SPSWAP makes a commit and flips SPWIN.HALF; PREF.L1 and PREF.L2 issue whatever their pages are and bring lines of
their range into the L1 or the slice; CFLUSH whose first 2^24 bytes translate for a read makes a commit and writes every
cached line of the range back, CINV whose pages translate and may be written drops the lines that lie wholly in it and writes
the others back. -/
def Obligations.FormatSwapAndCacheInstructionsComplete : Prop :=
  ∀ (v : BitVec 5) (a b : BitVec 6) (g : BitVec 4) (s : State),
    (Ready g [.s a] [] s → Does (.efrw a g) s (s.efrWrite ((s.rS a).extractLsb' 0 32))) ∧
    (Ready g [.v v, .s a] [] s →
      (s.opsBefore.any (fun e => e.2.decodes) = false →
        Does (.ctwr v a g) s (s.modFcore (fun c =>
          { c with held := c.held.map (fun e => (e.1, e.2.keepTable c.codeTable)),
                   codeTable := putTable c.codeTable ((s.rS a).extractLsb' 0 8).toNat (expand (s.rV v).runs) }))) ∧
      (s.opsBefore.any (fun e => e.2.decodes) = true → Waits (.ctwr v a g) s)) ∧
    (∀ t n (w : W32), aget 0 (n % 256) (putTable t n [w]) = w.extractLsb' 16 16 ∧
      (∀ k, k ≠ n % 256 → aget 0 k (putTable t n [w]) = aget 0 k t)) ∧
    (Ready g [] [] s → Does (.spswap g) s (s.commitF.modCtl (fun c => { c with spwin := c.spwin ^^^ 0x20000#32 }))) ∧
    (Ready 0 [.s a, .s b] [] s →
      Does (.prefL1 a b) s (s.pref false a b) ∧ Does (.prefL2 a b) s (s.pref true a b) ∧
      (∀ ps, s.seatPieces (s.rS a) (maintLen (s.rS b)) .regRead = .ok ps →
        Does (.cflush a b) s (ps.foldl State.flushPiece (s.commitF.install false ps))) ∧
      (∀ ps, s.cinvPieces (segs (s.rS a) (maintLen (s.rS b))) = .ok ps →
        Does (.cinv a b) s (ps.foldl State.dropPiece ((s.commitF.install true (ps.filter (fun p => !isMram p.pa))).install false
          (ps.filter (fun p => isMram p.pa))))))

/-- CPY, CPY.MMA, CPYG, CPYS and CPYW issue and land (R105, R106, R111, R113, R381, R382, R383, R384, R385, R386, R387). With its
registers ready, its block's parameters read and within their limits, slot registers well formed, the copy unit with room, no
earlier entry in the way, every slot claimed as R105 and R106 say and every page translated, each copy instruction issues
(held while tracking is on and its destination is virtual memory); CPYG and CPYS first read their indices, CPY.MMA also leaves
a follow-on that its leaf counts, and a converting CPY, whose rows must be aligned, takes the length of each row from its
tags. A landing part of a row whose bytes are at hand, with nothing to wait for, is written with its tags and counted; one
whose conversion fails ends the copy with COPY_FAULT status 0x40. A follow-on whose copy has ended enters the array or,
failing its format checks, is counted down with status 0x20. -/
def Obligations.CopiesComplete : Prop :=
  ∀ (a b c : BitVec 6) (ssp dsp : BitVec 2) (fl z : BitVec 1) (dslot oslot : BitVec 4) (acc : BitVec 2) (g : BitVec 4) (p : Params)
    (s : State) (rs ws : List Piece × List PageMap), s.params = .ok p →
    (Ready g (markerSrcs s.focus.block ++ [.s a, .s b]) [] s → copyOk p (dsp == 2) 1 = true → s.cpyFits p a b ssp dsp = true →
      endpointArg ssp.toNat (s.rS a) = .ok () → endpointArg dsp.toNat (s.rS b) = .ok () →
      let o := s.cpyOf p a b ssp dsp
      (p.flg.getLsbD 0 = false → CopyReady s o rs ws → Does (.cpy a b ssp dsp g) s (s.copyStarted o rs ws)) ∧
      (∀ ms ls, p.flg.getLsbD 0 = true → s.srcPlan o = .ok (ms, ls) → s.copyAlign { o with maps := ms, lens := ls } p.fsel = .ok () →
        CopyReady s { o with maps := ms, lens := ls } rs ws →
        Does (.cpy a b ssp dsp g) s (s.copyStarted { o with maps := ms, lens := ls } rs ws))) ∧
    (Ready g (markerSrcs s.focus.block ++ [.s a, .s b]) [] s → copyOk p (fl == 1) 0 = true → s.localFits p false a b fl = true →
      endpointArg (if fl = 1 then 2 else 1) (s.rS b) = .ok () →
      let o := { s.localCopy p false a b fl with stream := true }
      CopyReady s o rs ws → Does (.cpyw a b fl g) s (s.copyStarted o rs ws)) ∧
    (Ready g (markerSrcs s.focus.block ++ [.s a]) [] s → copyOk p true 0 = true → p.rows ≤ 64 → p.cols ≤ 192 → p.nobar = false →
      s.mmaFits p a dslot ssp = true → endpointArg ssp.toNat (s.rS a) = .ok () → s.seqOnAcc s.focus.core acc.toNat = false →
      s.fcore.arrayFull = false →
      let o := s.mmaCopy p a dslot ssp
      let t := s.copyStarted o rs ws
      CopyReady s o rs ws → t.slotHeld oslot.toNat = .ok () →
      let m : MmaOp :=
        { seat := t.focus.seat, asid := t.fasid, acc := acc.toNat, sa := (if fl = 0 then dslot else oslot).toNat,
          sb := (if fl = 0 then oslot else dslot).toNat, bar := p.bar, zero := z == 1, rows := 64, cols := 64,
          efr := t.src.ctl.efr.extractLsb' 0 13, l6q := t.src.ctl.ctabsel.extractLsb' 0 2, waits := some s.nextOp,
          seqStep := none, last := true, failed := none, status := 0 }
      Does (.cpyMma a dslot oslot acc fl z ssp g) s ((t.mxfUp t.focus.core p.bar).newOp t.focus.core (.mma m))) ∧
    (Ready g (markerSrcs s.focus.block ++ [.s a, .s b, .s c]) [] s → copyOk p (fl == 1) 0 = true → p.rows ≤ 4096 →
      endpointArg (if fl = 1 then 2 else 1) (s.rS b) = .ok () →
      ∀ ps bs, s.pathPieces .read (s.rS c) (4 * p.rows) = .ok ps → s.readScalar ps = .ok bs →
      let idx := (List.range p.rows).map (fun i => bytesToNat ((bs.drop (4 * i)).take 4))
      let t := s.installRead ps
      let og := { t.localCopy p false a b fl with index := some idx, scatter := false }
      let os := { t.localCopy p true a b fl with index := some idx, scatter := true }
      (s.localFits p false a b fl = true →
        (t.poisonHit ps = none → CopyReady t og rs ws → Does (.cpyg a b c fl g) s (t.copyStarted og rs ws)) ∧
        (t.poisonHit ps ≠ none → Does (.cpyg a b c fl g) s (t.copyFails (t.localCopy p false a b fl) 0x52))) ∧
      (s.localFits p true a b fl = true →
        (t.poisonHit ps = none → CopyReady t os rs ws → Does (.cpys a b c fl g) s (t.copyStarted os rs ws)) ∧
        (t.poisonHit ps ≠ none → Does (.cpys a b c fl g) s (t.copyFails (t.localCopy p true a b fl) 0x52)))) ∧
    (∀ core id n o, core < 400 → s.op core id = some (.copy o) → o.mayLand n = true → s.copyWaits core id o n = false →
      s.needsHost o n = none →
      (∀ cause, s.landing core o n = .error cause → exec (.copyLand core id n) s = .next (s.endCopy core id o o.total 0x40#32 cause)) ∧
      (∀ q bs, s.landing core o n = .ok (q, bs) → (o.dst.isVirt = true → region (o.phys (o.dstAt o.landed).toNat).1 ≠ .host) →
        let u := s.copyFill core o n
        exec (.copyLand core id n) s = .next (((u.putDst core o bs).landTags core o n).landed core id
          { q with bad := (o.bad ++ u.badNow o n).eraseDups } n))) ∧
    (∀ core id o q, core < 400 → s.op core id = some (.mma o) → o.waits = some q → s.op core q = none →
      s.followBlocked core q o = false → exec (.followOnMma core id) s = .next (match (s.core core).mmaCheck o.sa o.sb o.rows o.cols s.fresh with
        | some e => ((s.dropOp core id).mxfDone core o.bar 0x20#32 e.1).settleAcc core
        | none => s.modCore core (fun k => { k with ops := aput id (.mma { o with waits := none }) k.ops })))

/-- BTE starts a transfer at its die's engine; BTE_TRANSFER_END moves its bytes, ends it and writes its record (R129, R255, R256,
R388). With its registers ready, a byte count from 1 to 2^40, a place among the engine's 64 and a completion descriptor that
is 0 or well formed, BTE makes a commit and the die's engine holds the transfer with the operands of the registers; a count of
0 or beyond 2^40 raises COMMAND_ARG (0x37). BTE_TRANSFER_END of a transfer that waits for no answer of the host ends a
cancelled one with status 3 and cause KILLED (0x59), and else moves the bytes: it goes on, or ends with the status of its last
piece. A transfer that ends is marked with status, cause and time; without a descriptor it leaves its engine; with a sound one
in device memory whose ring has room, its record of 32 bytes is written at its place in the ring before TAIL rises. -/
def Obligations.BlockTransfersComplete : Prop :=
  ∀ (a b : BitVec 6) (c : BitVec 5) (tag : BitVec 8) (s : State),
    (Ready 0 [.s (c ++ 1#1), .s a, .s b, .s (c ++ 0#1)] [] s →
      let n := s.rS (c ++ 0#1)
      ((n = 0 ∨ 2 ^ 40 < n.toNat) → Raises (.bte a b c tag) s 0x37 n) ∧
      (∀ t, n ≠ 0 → n.toNat ≤ 2 ^ 40 → (s.die (dieOf s.focus.core)).bte.length < 64 → s.checkCrd (s.rS (c ++ 1#1)) = .ok t →
        Does (.bte a b c tag) s (t.commitF.startBte (dieOf t.focus.core)
          { asid := t.fasid, phys := false, src := t.rS a, dst := t.rS b, bytes := n.toNat, crd := t.rS (c ++ 1#1), tag := tag,
            qnum := 0xFFFF, pkt := none, seat := some (t.focus.core, t.focus.seat), lent := tagEntry t.fseat.cont.tag,
            cancelled := false, pos := 0, ended := none, time := [], tail := none, recOut := 0, hostOut := none, hostData := [] })) ∧
      s.checkCrd 0 = .ok s) ∧
    (∀ die id o, die < 4 → alook id (s.die die).bte = some o → o.hostOut = none → o.tail = none →
      (o.ended = none → o.cancelled = true → exec (.bteTransferEnd die id) s = .next (s.bteEnd die id o 3 0x59)) ∧
      (o.ended = none → o.cancelled = false →
        (∀ t q st f, bteRun die id (o.bytes / 64 + 4) s o = .ended t q st f →
          exec (.bteTransferEnd die id) s = .next (t.bteEnd die id q st f)) ∧
        (∀ t q, (bteRun die id (o.bytes / 64 + 4) s o = .more t q ∨ bteRun die id (o.bytes / 64 + 4) s o = .asked t q) →
          exec (.bteTransferEnd die id) s = .next (t.putBte die id q))) ∧
      (∀ e u, o.ended = some e → s.bteRecord die id o e = some u → exec (.bteTransferEnd die id) s = .next u)) ∧
    (∀ die id o st f, o.crd = 0 →
      let q : BteOp := { o with ended := some (st, f), time := s.time80, hostData := [] }
      s.bteEnd die id o st f = (s.putBte die id q).bteLeave die id q none) ∧
    (∀ die id o e rd rr rt, o.crd ≠ 0 → o.crd.toNat % 32 = 0 → s.engineAt die o.asid o.phys o.crd false = .ok rd →
      region rd.pa ≠ .host → s.pinBusy rd.pa = false → s.poisoned rd.pa = false →
      let b := s.engineRead rd 32
      let n := fun k m => bytesToNat ((b.drop k).take m)
      ringOk o.crd b 4 16 32 = true → (n 0x0C 4 + 2 ^ 32 - n 0x10 4) % 2 ^ 32 ≠ 2 ^ n 8 1 →
      s.engineAt die o.asid o.phys (BitVec.ofNat 64 (n 0 8 + 32 * (n 0x0C 4 % 2 ^ n 8 1))) true = .ok rr →
      s.engineAt die o.asid o.phys (o.crd + 0x0C) true = .ok rt → s.pinBusy rr.pa = false → s.pinBusy rt.pa = false →
      region rr.pa ≠ .host →
      s.bteRecord die id o e = some ((((s.markAt rr true).markAt rt true).engineBytes rr.pa (o.record e)).bteTail die id o rt.pa))

/-- The barrier instructions set, count, link, test and wait for their objects (R208, R389, R390, R391, R392, R393, R394). With
its registers ready: BAR.INIT with a nonzero EXP of an object with no matrix operation counted and nothing arrived sets EXP
and PEND and clears ARR and CSTAT; BAR.LINK of a leaf joins it to root 0 to 7 or, with 0xFF, to none; BAR.EXP adds to PEND and
BAR.ARR, once the seat's earlier vector loads are performed, to ARR, saturating, and the object is evaluated (with a vector
load of its own bundle still open the arrival is left to that load's end); BAR.TEST gives 1 where the phase of the given
parity has ended, BAR.STAT its view. BAR.WAIT and BAR.WAIT.S issue where it has ended, and with TR leave PHASE_OVERRUN (0x38)
for an overrun phase; else BAR.WAIT stalls, and BAR.WAIT.S of a seat that may leave suspends. An EXP of 0 and view 3 raise
BARRIER_STATE (0x36). -/
def Obligations.BarrierInstructionsComplete : Prop :=
  ∀ (obj : BitVec 5) (a b d : BitVec 6) (tr : BitVec 1) (g : BitVec 4) (s : State),
    let o := s.barObj obj
    let ended : Prop := o.phase ≠ (s.rS a).getLsbD 0
    let pass : State := if tr = 1 ∧ o.lstat.getLsbD 8 = true then
        s.modF (fun t => { t with deferred := t.deferred.or (some
          { cause := 0x38, faddr := BitVec.ofNat 64 o.excess, slot := 3, pblk := false, epc := s.focus.seqNext }) }) else s
    (Ready g [.s a, .s b] [] s →
      ((s.rS a).extractLsb' 0 16 ≠ 0 → o.mxf = 0 → o.arrived = false → (16 ≤ obj.toNat →
          s.linkedArrived (clusterOf s.focus.core) (obj.toNat - 16) = false) →
        Does (.barInit obj a b g) s (s.setBarObj obj
          { o with exp := ((s.rS a).extractLsb' 0 16).toNat, pend := ((s.rS b).extractLsb' 0 32).toInt, arr := 0, cstat := 0 })) ∧
      ((s.rS a).extractLsb' 0 16 = 0 → Raises (.barInit obj a b g) s 0x36 (obj.zeroExtend 64))) ∧
    (Ready g [] [] s →
      (o.arrived = false → s.loadsDone (fun _ => true) = true →
        (s.ownLoad = none → Does (.barArr obj g) s (s.arriveAt s.focus.core obj.toNat)) ∧
        (∀ id, s.ownLoad = some id →
          Does (.barArr obj g) s (s.modFcore (fun c => { c with arrivals := c.arrivals ++ [(s.focus.seat, obj.toNat, id)] })))) ∧
      s.arriveAt s.focus.core obj.toNat = (s.setBarObj obj { o with arr := Nat.min (o.arr + 1) 65535 }).evalObj obj ∧
      ((o.arrived = true ∨ s.loadsDone (fun _ => true) = false) → Waits (.barArr obj g) s)) ∧
    (Ready g [.s a] [] s →
      (obj.toNat < 16 → o.arrived = false → s.rS a = 0xFF →
        Does (.barLink obj a g) s (s.unlinkLeaf s.focus.core obj.toNat)) ∧
      (obj.toNat < 16 → o.arrived = false → (s.rS a).toNat < 8 → ∃ t, Does (.barLink obj a g) s t ∧
        (t.leaf s.focus.core obj.toNat).link = some (clusterOf s.focus.core, (s.rS a).toNat)) ∧
      (16 ≤ obj.toNat → Raises (.barLink obj a g) s 0x36 (obj.zeroExtend 64)) ∧
      (o.arrived = false → Does (.barExp obj a g) s
        ((s.setBarObj obj { o with pend := satPend (o.pend + ((s.rS a).extractLsb' 0 32).toInt) }).evalObj obj)) ∧
      (ended → Does (.barWait obj a tr g) s pass) ∧ (¬ended → Waits (.barWait obj a tr g) s) ∧
      ((s.fseat.pers = true ∨ s.srcTm = true) →
        (ended → Does (.barWaitS obj a tr g) s pass) ∧ (¬ended → Waits (.barWaitS obj a tr g) s)) ∧
      (s.fseat.pers = false → s.srcTm = false →
        (stageAct s.src.ctl.stage = true → Raises (.barWaitS obj a tr g) s 0x04 0) ∧
        (stageAct s.src.ctl.stage = false → ended → Does (.barWaitS obj a tr g) s pass) ∧
        (stageAct s.src.ctl.stage = false → ¬ended → s.fseat.seq = none →
          exec (.barWaitS obj a tr g) s = .next ((s.suspendF (s.barKey obj a) 0).setStatus (.suspended (s.barKey obj a) 0 0))))) ∧
    (Ready g [.s a] [.s d] s →
      Does (.barTest obj a d g) s (s.wS d (if (o.phase != (s.rS a).getLsbD 0) = true then 1 else 0) (s.after 2)) ∧
      ((s.rS a).toNat % 4 ≠ 3 → Does (.barStat obj a d g) s (s.wS d (o.view (decide (16 ≤ obj.toNat)) ((s.rS a).toNat % 4)) (s.after 2))) ∧
      ((s.rS a).toNat % 4 = 3 → Raises (.barStat obj a d g) s 0x36 (obj.zeroExtend 64)))

/-- SEQ.MMA and SEQ.CPY load the sequencer, and its steps issue in order (R396, R397, R398, R399). With its registers and
parameters ready and the sequencer idle: SEQ.MMA with its leaf and accumulator free, a chunk count of 1 to 65,535 and its four
slots claimed by the seat loads the sequencer, its leaf counting one operation; SEQ.CPY with 1 to 2^24 − 1 rows loads it too;
a count outside raises COMMAND_ARG (0x37). A step of an unpaired seat that may go on (no fault of an earlier one waits, and no
stop of the core or trap entry has come before it) and whose copy or matrix operation finds its place issues, and with the
last one the sequencer is idle; a step of a pair is taken by both members through their own TLBs, and ends in a divergence
where one of them alone faults. -/
def Obligations.SequencerInstructionsComplete : Prop :=
  ∀ (a b c : BitVec 6) (g : BitVec 4) (p : Params) (s : State),
    let n := (s.rS c).toNat
    let q := (p.flg.extractLsb' 0 4).toNat
    (Ready g (markerSrcs s.focus.block ++ [.s a, .s b, .s c]) [] s → s.params = .ok p → s.fseat.seq = none →
      (seqMmaOk p = true → (s.leaf s.focus.core p.bar).arrived = false →
        s.seqOnAcc s.focus.core (p.flg.extractLsb' 4 2).toNat = false →
        (1 ≤ n → n ≤ 65535 → (∀ k, q ≤ k → k ≤ q + 3 → (s.fcore.slot k).state = .claimed s.focus.seat) →
          Does (.seqMma a b c g) s ((s.mxfUp s.focus.core p.bar).startSeq 1 p a b c)) ∧
        ((n = 0 ∨ 65535 < n) → Raises (.seqMma a b c g) s 0x37 (s.rS c))) ∧
      (seqCpyOk p = true → (∀ o, p.leaf = some o → (s.leaf s.focus.core o).arrived = false) →
        (1 ≤ n → n ≤ 2 ^ 24 - 1 → Does (.seqCpy a b c g) s (s.startSeq 2 p a b c)) ∧
        ((n = 0 ∨ 2 ^ 24 - 1 < n) → Raises (.seqCpy a b c g) s 0x37 (s.rS c)))) ∧
    (∀ core seat sq u, core < 400 → seat < 2 → (s.seatAt core seat).seq = some sq → (s.seatAt core seat).deferred = none →
      (s.seatAt core seat).seqGoes (halted (s.core core)) = true →
      ((s.seatAt core seat).pair = none →
        State.seqStep (({ s with focus := { s.focus with core := core, seat := seat, slot := 3, opBase := none, status := .issued } } : State).modSeat
          core seat (fun t => { t with latch := none })) sq = .ok u →
        exec (.seqStepIssue core seat) s = .next { u.modSeat core seat (fun t => t.stepDone sq) with focus := s.focus }) ∧
      (∀ p x y, (s.seatAt core seat).pair = some (p, true) → s.stepOf core seat sq = some x →
        (s.twin core p seat).stepOf p seat sq = some y →
        (x.2 = y.2 → exec (.seqStepIssue core seat) s = .next (x.1.follow core p seat (y.1.core p).tlb)) ∧
        (x.2 ≠ y.2 → exec (.seqStepIssue core seat) s = .next (s.diverge core p seat (if x.2.isSome then core else p) 1)))) ∧
    (∀ (t : Seat) (sq : Sequencer), (sq.next + 1 < sq.steps → (t.stepDone sq).seq = some { sq with next := sq.next + 1, stuck := false }) ∧
      (sq.steps ≤ sq.next + 1 → (t.stepDone sq).seq = none))

/-- Atomics return the old value and write the new one; LDA and STL load and store (R157, R159, R171, R401, R402, R403, R404).
With its registers ready, an aligned address that translates for a write and, where it is a release (.REL, .AR or an SO page),
everything done that a release waits for, each AMO makes a commit where one is due, performs its operation at the home of the
line (every cached copy recalled; in the host window the host performs it, and the seat has its answer), and its old value,
zero-extended, is on its way to the destination, no earlier than 40 bundles on; of a poisoned block it is 0 and the error is
consumed. LDA of readable bytes and STL of writable ones complete as loads and stores do; STL waits as a release does, which
at SYS includes every host write that may have happened before. A misaligned address raises MISALIGNED (0x26). -/
def Obligations.AtomicsComplete : Prop :=
  ∀ (d a b : BitVec 6) (ord : BitVec 2) (scope : BitVec 3) (w : BitVec 1) (s : State),
    let va := s.rS a
    let n := syncBytes w
    let rel : Bool := ord == 2 || ord == 3
    let may (r : Option Nat) : Prop := ∀ k, r = some k → s.released k = true
    let whole (op : AmoOp) (i : Instr) : Prop :=
      (∀ q ps, va.toNat % n = 0 → s.seatPieces va n .write = .ok (q :: ps) → may (releaseScope rel scope (q :: ps)) →
        let u := s.commitF.install true (q :: ps)
        let r := u.amoAt q.pa op n (s.rS b) (s.rS d)
        (region q.pa ≠ .host → u.poisoned q.pa = false →
          Does i s ((r.2.trace s.focus.core s.focus.seat 3 va).loadInto d r.1 40)) ∧
        (region q.pa ≠ .host → u.poisoned q.pa = true →
          Does i s (((r.2.consumeF (u.structF q.pa) q.pa).trace s.focus.core s.focus.seat 3 va).loadInto d 0 40)) ∧
        (∀ bs, region q.pa = .host → s.commitF.hostAmo va q.pa n op (s.rS b) (s.rS d) = .ok bs →
          Does i s ((u.trace s.focus.core s.focus.seat 3 va).loadInto d (loadValue n false bs) 40))) ∧
      (∀ q ps k, va.toNat % n = 0 → s.seatPieces va n .write = .ok (q :: ps) → releaseScope rel scope (q :: ps) = some k →
        s.released k = false → Waits i s) ∧
      (va.toNat % n ≠ 0 → Raises i s 0x26 (transFaddr 0 .write va.toNat))
    (Ready 0 [.s a, .s b] [.s d] s →
      whole .add (.amoAdd d a b ord scope w) ∧ whole .and (.amoAnd d a b ord scope w) ∧ whole .or (.amoOr d a b ord scope w) ∧
      whole .xor (.amoXor d a b ord scope w) ∧ whole .minS (.amoMinS d a b ord scope w) ∧
      whole .maxS (.amoMaxS d a b ord scope w) ∧ whole .xchg (.amoXchg d a b ord scope w)) ∧
    (Ready 0 [.s d, .s a, .s b] [.s d] s → whole .cas (.amoCas d a b ord scope w)) ∧
    (Ready 0 [.s a] [.s d] s →
      (va.toNat % n = 0 → ∀ ps r, s.seatPieces va n .regRead = .ok ps → s.loadScalar n ps = .ok r →
        Does (.lda d a scope w) s ((r.2.trace s.focus.core s.focus.seat 2 va).loadInto d (loadValue n false r.1) 12)) ∧
      (va.toNat % n ≠ 0 → Raises (.lda d a scope w) s 0x26 (transFaddr 0 .read va.toNat))) ∧
    (Ready 0 [.s b, .s a] [] s →
      (va.toNat % n = 0 → ∀ ps, s.seatPieces va n .regWrite = .ok ps → may (releaseScope true scope ps) →
        (releaseScope true scope ps = some 5 → s.fseat.hostFailed = none) →
        (anyControl ps = false → (s.install true ps).psqRoom va = .ok () →
          Does (.stl a b scope w) s (((s.install true ps).stored va (cutPieces ps (natToBytes n (s.rS b).toNat)) []
            (storeOrd (releaseScope true scope ps) ps)).trace s.focus.core s.focus.seat 3 va)) ∧
        (∀ q t, ps = [q] → region q.pa = .control →
          (s.install true ps).seatCtlWrite q.pa n (BitVec.ofNat 64 (bytesToNat (natToBytes n (s.rS b).toNat))) = .ok t →
          Does (.stl a b scope w) s (t.trace s.focus.core s.focus.seat 3 va))) ∧
      (va.toNat % n ≠ 0 → Raises (.stl a b scope w) s 0x26 (transFaddr 0 .write va.toNat)))

/-- An atomic's old and new values are those of R403 (R171, R403). For 4 and 8 bytes, with no redirected line, and its line, where
the caches hold it, of 64 bytes and, where clean, as its home has it, an atomic at an aligned address returns the number that
its bytes held in the coherent view and leaves there the sum, and, or, xor, signed minimum or maximum, or the source, each of
that width; a CAS leaves the source where the old value equals the comparand and else what was there; every other byte of the
coherent view reads as before. -/
def Obligations.AtomicValues : Prop :=
  ∀ (s : State) (pa n : Nat) (op : AmoOp) (x cmp : Word), (n = 4 ∨ n = 8) → pa % n = 0 → s.resole.redirect = [] →
    (∀ l, alook (pa / 64) s.lines = some l →
      l.data.length = 64 ∧ (l.owner = none → ∀ i < 64, nth 0 i l.data = s.homeByte (pa / 64 * 64 + i))) →
    let old : Word := BitVec.ofNat 64 (bytesToNat ((List.range n).map (fun i => s.byteAt (pa + i))))
    let r := s.amoAt pa op n x cmp
    let now := bytesToNat ((List.range n).map (fun i => r.2.byteAt (pa + i)))
    let m := 2 ^ (8 * n)
    let sg (v : Word) : Int := (BitVec.ofNat (8 * n) v.toNat).toInt
    r.1 = old ∧ (∀ qa, ¬(pa ≤ qa ∧ qa < pa + n) → r.2.byteAt qa = s.byteAt qa) ∧
    (op = .add → now = (old.toNat + x.toNat) % m) ∧ (op = .and → now = (old &&& x).toNat % m) ∧
    (op = .or → now = (old ||| x).toNat % m) ∧ (op = .xor → now = (old ^^^ x).toNat % m) ∧ (op = .xchg → now = x.toNat % m) ∧
    (op = .minS → now = if sg old ≤ sg x then old.toNat % m else x.toNat % m) ∧
    (op = .maxS → now = if sg x ≤ sg old then old.toNat % m else x.toNat % m) ∧
    (op = .cas → now = if old.toNat % m = cmp.toNat % m then x.toNat % m else old.toNat % m)

/-- FENCE and XFENCE order, WAITV waits for a value, and a timed-out wait traps (R160, R405, R406, R407, R408, R409). Under a true
guard FENCE issues and leaves at its seat what it holds back: with an acquire every later load and store through an SO or RC
page until the earlier loads through such pages are performed, with a release the later stores until those loads and, at SYS,
the writes to the host that may happen before it are; an access that a fence holds back stalls. A SYS release after a failed
posted store raises HOST_ERROR (0x28). XFENCE issues when the path's accesses have been performed at its scope, and else holds
its seat. With its registers ready and an aligned address whose bytes can be read, WAITV issues where the condition holds and
else holds its seat; WAITV.S does so in a persistent kernel and a handler, raises LOOP_STATE (0x04) in a loop, and of a seat
that may leave suspends it where the condition does not hold. A wait with a timeout that a seat stalls on or that is parked
ends by WAIT_TIMEOUT: the seat traps with cause 0x27, or takes a cause that comes first, the parked continuation becomes ready
marked as expired. -/
def Obligations.FencesAndWaitsComplete : Prop :=
  ∀ (a b t : BitVec 6) (cond : BitVec 3) (w : BitVec 1) (p1 p2 scope : BitVec 3) (kind : BitVec 2) (g : BitVec 4) (s : State),
    let va := s.rS a
    let n := syncBytes w
    let f := transFaddr 0 .read va.toNat
    let holds (i : Instr) (u : State) (k : Stall) : Prop := exec i s = .next ((u.stallF k).setStatus (.holding k false))
    (Ready g [] [] s →
      let sys : Bool := kind.getLsbD 1 && scope == 5
      let u := s.fenceUp kind scope.toNat
      ((sys = true → s.fseat.hostFailed = none) → Does (.fence scope kind g) s u) ∧
      (∀ v, sys = true → s.fseat.hostFailed = some v → ∃ y, exec (.fence scope kind g) s = .next (((s.modF (fun t => { t with hostFailed := none })).takeCause
        s.focus.core s.focus.seat y).setStatus (.raised .exec y)) ∧ y = s.causeEntry 0x28 v false) ∧
      { u.fseat with fence := s.fseat.fence } = s.fseat ∧ (s.src.ctl.phaseEn = false → { u with seats := s.seats } = s) ∧
      (s.loadsDone (· != 2) = false → (kind.getLsbD 0 = true → u.fenceOk false = false) ∧
        (kind.getLsbD 1 = true → u.fenceOk true = false)) ∧
      (kind.getLsbD 1 = true → scope = 5 → s.hostQuiet = false → u.fenceOk true = false) ∧
      (∀ k gs ps, s.pieces s.focus.core s.fasid k gs = .ok ps → ps.any (fun p => pteOrd p.leaf.entry != 2) = true →
        s.fenceOk k.writes = false → s.segPieces k gs = stallX) ∧
      (s.commitF.drained (fun p => p == p1.toNat) scope.toNat = true → Does (.xfence p1 p2 scope g) s s.commitF) ∧
      (s.commitF.drained (fun p => p == p1.toNat) scope.toNat = false → holds (.xfence p1 p2 scope g) s.commitF noReg)) ∧
    (Ready 0 [.s a, .s b, .s t] [] s →
      (∀ ps bs u, va.toNat % n = 0 → s.seatPieces va n .regRead = .ok ps → s.loadScalar n ps = .ok (bs, u) → s.poisonHit ps = none →
        let met := waitCond cond n (loadValue n false bs) (s.rS b)
        let k : Stall := { reg := none, waitv := if (s.rS t).extractLsb' 0 32 = 0 then none else some f }
        let stays : Prop := s.fseat.pers = true ∨ s.srcTm = true
        let lone : Prop := s.fseat.pers = false ∧ s.srcTm = false ∧ stageAct s.src.ctl.stage = false
        (met = true → Does (.waitv a b t cond w scope) s (u.trace s.focus.core s.focus.seat 2 va)) ∧
        (met = false → holds (.waitv a b t cond w scope) u.forgetHost k) ∧
        (stays → met = true → Does (.waitvS a b t cond w scope) s (u.trace s.focus.core s.focus.seat 2 va)) ∧
        (stays → met = false → holds (.waitvS a b t cond w scope) u.forgetHost k) ∧
        (lone → met = true → Does (.waitvS a b t cond w scope) s (u.trace s.focus.core s.focus.seat 2 va)) ∧
        (lone → met = false → s.fseat.cont.expired = true → Raises (.waitvS a b t cond w scope) s 0x27 f) ∧
        (lone → met = false → s.fseat.cont.expired = false → s.fseat.seq = none → ∀ q qs, ps = q :: qs →
          let key := WaitKey.line (q.pa / 64 * 64)
          let m := ((s.rS t).extractLsb' 0 32).toNat
          exec (.waitvS a b t cond w scope) s = .next ((s.suspendF key m).setStatus (.suspended key m f)))) ∧
      (s.fseat.pers = false → s.srcTm = false → stageAct s.src.ctl.stage = true →
        Raises (.waitvS a b t cond w scope) s 0x04 0)) ∧
    (∀ core seat v, core < 400 → seat < 2 → (s.seatAt core seat).run = .running →
      (s.seatAt core seat).stall.bind (·.waitv) = some v →
      exec (.waitTimeout (.stalled core seat)) s = .next ((s.boundaryCause core seat).getD (s.takeCause core seat
        { cause := 0x27, faddr := v, slot := 2, pblk := false, epc := (s.seatAt core seat).pc }))) ∧
    (∀ die e k, die < 4 → alook e (s.die die).waits = some k → k.timeout ≠ 0 →
      exec (.waitTimeout (.parked die e)) s = .next (s.wake die e { k.cont with expired := true }))

/-- The KV instructions have their operation accepted, take its step and deliver its result (R176, R195, R410, R412, R413, R414,
R415, R416, R417, R418, R419, R420). With its registers (and parameters) ready, its operands within their limits, no operation
of the seat accepted before, and its operation's step answered against the sequence's records, each KV instruction makes a
commit where one is due and issues: one whose step is the whole operation fills its destination after 2 bundles, one whose
work follows leaves the operation in flight on which the destination waits. A step that finds its record or position bad
raises its cause; one that must wait holds the seat. An operand beyond its limit raises COMMAND_ARG (0x37). With a served
handle, no earlier step pending and no page of its records being pinned, KVCOMMIT of an empty stage gives COMMIT and REPSTAT
the repair counts. KV_ACCEPT takes the step of an operation that its bundle waits for, after which nothing comes before that
bundle, KV_COMPLETE lets one in flight whose bundle has issued go on to its end, and KV_POOL_WAIT_END makes the returns that
waited or lets a waiting operation go on. -/
def Obligations.KvInstructionsComplete : Prop :=
  ∀ (a b c : BitVec 6) (g : BitVec 4) (p : Params) (s : State), s.commitF.fseat.kvDone = none →
    let answered (i : Instr) (x : State) (o : KvOp) (s : State) : Prop :=
      let s1 := x.commitF
      (∀ t d, (s1.kvStep s1.focus.core { o with got := s1.heldFrames } = .whole t d ∨
          s1.kvStep s1.focus.core { o with got := s1.heldFrames } = .follows t d) → Does i s (t.kvStarts d)) ∧
      (∀ t d k, s1.kvStep s1.focus.core { o with got := s1.heldFrames } = .waits t d k →
        exec i s = .next (((t.kvHold d k).stallF noReg).setStatus (.holding noReg true))) ∧
      (∀ cause f, s1.kvStep s1.focus.core { o with got := s1.heldFrames } = .fails cause f → Raises i s cause f)
    (Ready g [.s a, .s b] [.s c] s →
      ((s.rS a).toNat < 2 ^ 32 → (s.rS b).toNat < 2 ^ 8 →
        answered (.kvwalk a b c g) s (s.kvOp .walk (s.rS a) (s.rS b) 0 (some c)) s) ∧
      (2 ^ 32 ≤ (s.rS a).toNat → Raises (.kvwalk a b c g) s 0x37 (s.rS a))) ∧
    (Ready g [] [.s c] s →
      answered (.kvcommit c g) s (s.kvOp .commit 0 0 0 (some c)) s ∧ answered (.repstat c g) s (s.kvOp .repstat 0 0 0 (some c)) s) ∧
    (Ready g [.s a] [] s →
      ((s.rS a).toNat < 2 ^ 20 → answered (.kvfork a g) s (s.kvOp .fork (s.rS a) 0 0 none) s) ∧
      (2 ^ 20 ≤ (s.rS a).toNat → Raises (.kvfork a g) s 0x37 (s.rS a)) ∧
      ((s.rS a).toNat < 2 ^ 32 → answered (.kvroll a g) s (s.kvOp .roll (s.rS a) 0 0 none) s) ∧
      (2 ^ 32 ≤ (s.rS a).toNat → Raises (.kvroll a g) s 0x37 (s.rS a))) ∧
    (Ready g [.s a, .s b, .s c] [] s → answered (.kvsplice a b c g) s (s.kvOp .splice (s.rS a) (s.rS b) (s.rS c) none) s) ∧
    (Ready g [.s a, .s b] [] s → ∀ r, s.copyPages .write [(s.rS a &&& 0xFFFFFFFFFFFFFFE0#64, 32)] = .ok r →
      let u := s.install true r.1
      u.commitF.fseat.kvDone = none →
      answered (.kvprov a b g) u { u.kvOp .prov (s.rS a &&& 0xFFFFFFFFFFFFFFE0#64) (u.rS b) 0 none with maps := r.2 } s) ∧
    (Ready g (markerSrcs s.focus.block ++ [.s a, .s b]) [.s c] s → s.params = .ok p →
      (∀ size rows r, size = (match s.kvGeom (s.qPool (s.kvRecord s.src.ctl.kvseq)) with
          | some q => 8 * q.heads * q.dim
          | none => 1) → rows = (List.range p.rows).map (fun i => (s.rS a + BitVec.ofNat 64 (i * p.stride), size)) →
        kvappOk p = true → s.copyPages .read rows = .ok r →
        let u := s.install false r.1
        u.commitF.fseat.kvDone = none →
        answered (.kvapp a b c g) u { (u.kvOp .app (u.rS a) (u.rS b) 0 (some c)).withParams p with maps := r.2 } s) ∧
      (repairOk p = true →
        ((s.rS b).toNat % 8 = 0 → answered (.repairM a b c g) s ((s.kvOp .repairM (s.rS a) (s.rS b) 0 (some c)).withParams p) s) ∧
        answered (.repairI a b c g) s ((s.kvOp .repairI (s.rS a) (s.rS b) 0 (some c)).withParams p) s) ∧
      (attqOk p = true → (s.rS b).toNat % 64 = 0 →
        answered (.attq a b c g) s ((s.kvOp (.attq false) (s.rS a) (s.rS b) 0 (some c)).withParams p) s ∧
        answered (.attqRo a b c g) s ((s.kvOp (.attq true) (s.rS a) (s.rS b) 0 (some c)).withParams p) s)) ∧
    (∀ (t : State) (o : KvOp),
      let u := t.observe t.focus.core 3
      (o.kind.whole = true → t.kvStarts o = u.kvIssued 0 o) ∧
      (o.kind.whole = false → t.kvStarts o = (u.newOp t.focus.core (.kv { o with pool := none })).kvIssued u.nextOp o)) ∧
    (∀ q geo (o : KvOp), s.kvServe o.asid o.handle = .ok (q, geo) → s.stepPending q = false → s.kvPinned q = false →
      (o.kind = .commit → s.qStcnt q = 0 →
        s.kvStep s.focus.core o = .whole s { o with rcd := q, result := BitVec.ofNat 64 (s.qCommit q) }) ∧
      (o.kind = .repstat →
        let v := s.qFront q * 2 ^ 48 + s.qRcnt q % 2 ^ 13 * 2 ^ 32 + (if s.qBusy q then 2 ^ 31 else 0) + s.qRdone q % 2 ^ 13
        s.kvStep s.focus.core o = .whole s { o with rcd := q, result := BitVec.ofNat 64 v })) ∧
    (∀ core seat id, core < 400 → seat < 2 →
      (∀ o t d, (s.seatAt core seat).kvHeld = some o → (s.seatAt core seat).keep ≠ none → (s.kvStep core o = .whole t d ∨ s.kvStep core o = .follows t d) →
        exec (.kvAccept core seat) s = .next ((t.kvAccepted core d).2.modSeat core seat
          (fun x => { x with kvHeld := none, kvDone := some ((t.kvAccepted core d).1, d), firm := true }))) ∧
      (∀ o u, s.op core id = some (.kv o) → o.hostOut = none → o.pool = none → o.isOver = false → s.unissued (core, id) o = false →
        s.kvGoOn (core, id) o = some u → exec (.kvComplete core id) s = .next u) ∧
      (∀ o t q, kvRun (core, id) 65536 s { o with pool := none } = .ended t q → q.writes = 0 →
        s.kvGoOn (core, id) o = some (t.kvEnd core id q)) ∧
      (s.flushReturns.fe.returns.length ≠ s.fe.returns.length → exec (.kvPoolWaitEnd core seat) s = .next s.flushReturns) ∧
      (∀ k o u, s.flushReturns.fe.returns.length = s.fe.returns.length → s.poolWaiter core seat = some (k, o) →
        s.kvGoOn (core, k) o = some u → exec (.kvPoolWaitEnd core seat) s = .next u))

/-- The collectives begin, their chunks are received and answered, and they complete (R422, R423, R424, R503, R504, R505, R506).
With its registers and parameters ready and within their limits, fewer than 16 collectives of the seat in flight, addresses
that are multiples of 64, a valid member and no page of the local chunk being pinned, each COLL instruction makes a commit
where one is due and begins; a misaligned address or a bad member raises COMMAND_ARG (0x37). A chunk that arrives in ACTIVE
and touches no page being pinned is answered again where it was applied before, applied or refused with a NAK where it was
not; a sound PUT into its window writes its bytes and tags and is acknowledged. An acknowledgement ends its collective; a
negative one or a timeout sends its chunk once more and, the second time, ends it with COLL_CHECK (0x58). A collective that
has ended and waits for no answer of the host fills its destination with its status word. -/
def Obligations.CollectivesComplete : Prop :=
  ∀ (a b c : BitVec 6) (g : BitVec 4) (p : Params) (s : State),
    let va := s.rS a
    let rb := s.rS b
    let m := (rb.extractLsb' 48 16).toNat
    (Ready g (markerSrcs s.focus.block ++ [.s a, .s b]) [.s c] s → s.params = .ok p → s.collCount < 16 →
      let begins (k : Nat) (i : Instr) : Prop := collOk k p = true →
        (va.toNat % 64 = 0 → rb.toNat % 64 = 0 → m ≤ 1023 → s.groupValid m = true →
          (k = 1 ∨ s.collPinned s.fasid false va p.aux.toNat = false) → Does i s (s.commitF.startColl k p va rb c)) ∧
        (va.toNat % 64 ≠ 0 → Raises i s 0x37 va) ∧
        (va.toNat % 64 = 0 → (rb.toNat % 64 ≠ 0 ∨ 1023 < m ∨ s.groupValid m = false) → Raises i s 0x37 rb)
      begins 0 (.collPut a b c g) ∧ begins 1 (.collGet a b c g) ∧ begins 2 (.collAdd a b c g) ∧ begins 3 (.collMax a b c g) ∧
      begins 4 (.collMin a b c g)) ∧
    (∀ ch, s.power.state = 0 → s.chunkPinned ch = false →
      (ch.op.toNat < 6 → ch.op ≠ 2 → s.wasApplied ch = true → exec (.collChunkReceive ch) s = .next (s.collAnswer 6 ch)) ∧
      (ch.op.toNat < 6 → ch.op ≠ 2 → s.wasApplied ch = false →
        (∀ t, s.collApply ch [] = .applied t → exec (.collChunkReceive ch) s = .next t) ∧
        (s.collApply ch [] = .refused → exec (.collChunkReceive ch) s = .next (s.collAnswer 7 ch))) ∧
      (ch.op = 2 → exec (.collChunkReceive ch) s = .next (s.collGetData ch)) ∧
      (∀ at_ ps, ch.op = 0 → s.fe.revoked.contains ch.asid = false → s.collWindow ch.asid ch.off.toNat ch.len = some at_ →
        s.collPlaces ch.asid true at_ ch.len = .ok ps → chunkOk ch = true → ch.data.length = ch.len →
        let by_ : HostReq := { asid := ch.asid, use := .engine, addr := 0, size := 0, write := true, data := [], path := some 4 }
        s.collApply ch [] = .applied (((s.collWrite by_ ps ch.data (some ch.tags)).noteApplied ch).collAnswer 6 ch))) ∧
    (∀ core id o, core < 400 → s.collOut core id = some o →
      (o.kind ≠ 1 → exec (.collAck core id true) s = .next (s.putColl core id { o with ended := some 0 })) ∧
      exec (.collAck core id false) s = .next (s.collFail core id o) ∧
      exec (.collChunkTimeout (.own core) id) s = .next (s.collFail core id o) ∧
      (o.fails = 0 → s.collFail core id o = (s.logColl core 8 o.member (BitVec.ofNat 32 id)).collGo core id { o with fails := 1, left := false }) ∧
      (o.fails ≠ 0 → s.collFail core id o = (s.logColl core 9 o.member (BitVec.ofNat 32 id)).putColl core id
        { o with fails := o.fails + 1, ended := some 0x58 })) ∧
    (∀ ch t, s.power.state = 0 → s.chunkPinned ch = false → (ch.op = 6 ∨ ch.op = 7) → s.collReply ch = some t →
      exec (.collChunkReceive ch) s = .next t) ∧
    (∀ m k e, s.dataFor m (BitVec.ofNat 32 k) = some e →
      exec (.collChunkTimeout (.data m) k) s = .next (s.dataFail e) ∧
      (e.2 = 0 → s.dataFail e = (s.logColl 0 8 e.1.receiver e.1.chunkId).sendData e.1 1) ∧
      (e.2 ≠ 0 → s.dataFail e = (s.logColl 0 9 e.1.receiver e.1.chunkId).forgetData e.1)) ∧
    (∀ core id o cause, core < 400 → s.op core id = some (.coll o) → o.hostOut = 0 → o.ended = some cause →
      exec (.collComplete core id) s = .next ((s.dropOp core id).fillS core o.seat id o.dst
        (if cause = 0 then BitVec.ofNat 64 o.bytes else cause ++ 0#56)))

/-- The resole instructions open, stage, commit, abort and report a transaction; its lines are written, committed and applied
(R425, R426, R427, R428, R429, R485, R487, R488). With its registers ready: RSBEGIN of a slot 0 to 15 that no open transaction
holds, with a handle free, opens one and gives its handle; RSCOMMIT and RSABORT of the ASID's own open transaction commit or
abort it; RSSTAT gives its view; RSWRITE of an aligned range in one die, of the owner's open transaction, whose pages no other
transaction holds and whose source can be read, stages its lines one by one. RSBEGIN of a slot beyond 15, and RSCOMMIT of a
handle outside 1 to 8, raise COMMAND_ARG (0x37). A journal attempt that verifies writes its line's entry and marks it; one
that does not is tried again, and after the fourth fails the transaction. The commit record of a transaction whose lines are
all verified makes it COMMITTED, its version raised by one and its lines redirected to the journal; an apply that verifies
writes the line's bytes to its bank. -/
def Obligations.ResoleComplete : Prop :=
  ∀ (a b c : BitVec 6) (g : BitVec 4) (s : State),
    let h := (s.rS a).toNat
    let m := (s.rS a).toNat
    (Ready g [.s a] [.s c] s →
      (∀ i, m ≤ 15 → (List.range 8).find? (fun i => match s.tx (i + 1) with
          | some t => !t.isOpen
          | none => true) = some i → s.resole.txs.any (fun e => e.2.isOpen && e.2.slot == m) = false →
        Does (.rsbegin a c g) s ((s.commitF.putTx (i + 1)
          { state := 1, reason := 0, slot := m, asid := s.commitF.fasid, pages := [], lines := [], committer := none, retried := 0,
            verified := 0, firstFail := 0 }).wS c (BitVec.ofNat 64 (i + 1)) (s.commitF.after 2))) ∧
      (15 < m → Raises (.rsbegin a c g) s 0x37 (s.rS a)) ∧
      (∀ t, 1 ≤ h → h ≤ 8 → s.tx h = some t → t.asid = s.fasid → t.state = 1 →
        let s1 := s.commitF
        Does (.rscommit a c g) s (((s1.putTx h { t with state := 2, committer := some (s1.focus.core, s1.nextOp) }).newOp s1.focus.core
          (.resole { seat := s1.focus.seat, asid := s1.fasid, handle := h, dst := c })).pendS c s1.nextOp)) ∧
      (h = 0 ∨ 8 < h → Raises (.rscommit a c g) s 0x37 (s.rS a))) ∧
    (Ready g [.s a] [] s → ∀ t, 1 ≤ h → h ≤ 8 → s.tx h = some t → t.asid = s.fasid → (t.state = 1 ∨ t.state = 5) →
      Does (.rsabort a g) s (s.commitF.putTx h { t with state := 4, pages := [], lines := [] })) ∧
    (Ready g [.s a, .s b] [.s c] s → ∀ t, 1 ≤ h → h ≤ 8 → s.tx h = some t → t.asid = s.fasid → (s.rS b).toNat % 4 ≠ 3 →
      Does (.rsstat a b c g) s (s.commitF.wS c (s.commitF.rsView t ((s.rS b).toNat % 4)) .full)) ∧
    (Ready g [.s a, .s b] [.s c] s → 1 ≤ h → h ≤ 8 → s.tx h = none → (s.rS b).toNat % 4 ≠ 3 →
      Does (.rsstat a b c g) s (s.commitF.wS c (s.commitF.rsView (ResoleTx.free s.fasid) ((s.rS b).toNat % 4)) .full)) ∧
    (Ready g [.s a, .s b, .s c] [] s → ∀ q ts ps t,
      let k := s.rS c
      let n := (k.extractLsb' 0 32).toNat
      let hd := (k.extractLsb' 32 8).toNat
      let pages := nub ((q :: ts).flatMap (fun p => (List.range ((p.pa % 4096 + p.len + 4095) / 4096)).map (fun i => p.pa / 4096 + i)))
      k.extractLsb' 40 24 = 0 → n % 64 = 0 → 64 ≤ n → n ≤ 2 ^ 24 → 1 ≤ hd → hd ≤ 8 → (s.rS a).toNat % 64 = 0 → (s.rS b).toNat % 64 = 0 →
      s.seatPieces (s.rS a) n .resole = .ok (q :: ts) → (∀ p ∈ ts, bankDie p.pa = bankDie q.pa) →
      s.seatPieces (s.rS b) n .read = .ok ps →
      s.tx hd = some t → t.asid = s.fasid → t.state = 1 → s.resole.txs.any (fun e => e.1 != hd && e.2.pages.any pages.contains) = false →
      let u := ((s.commitF.install true (q :: ts)).install false ps).putTx hd { t with pages := nub (t.pages ++ pages) }
      let w := (List.range (n / 64)).foldl (fun (x : State) i => x.stageFrom hd (s.rS a) (s.rS b) (q :: ts) ps i) u
      Does (.rswrite a b c g) s (match w.poisonHit ps with
        | some pa => w.consumeF (w.structF pa) pa
        | none => w)) ∧
    (∀ hd t l, s.active = true → 1 ≤ hd → hd ≤ 8 → s.tx hd = some t → t.isOpen = true → t.lines.find? (fun l => l.ready && !l.verified) = some l →
      exec (.journalWriteAttempt hd true) s = .next (((s.wear l.entry).putEntry hd l 1).putTx hd
        { t.modLine l.seqNo (fun x => { x with verified := true }) with verified := t.verified + 1 }) ∧
      (let t' : ResoleTx := { t.modLine l.seqNo (fun x => { x with tries := x.tries + 1 }) with
          retried := if l.tries = 0 then t.retried + 1 else t.retried }
       (l.tries < 3 → exec (.journalWriteAttempt hd false) s = .next (((s.wear l.entry).spoilEntry l).putTx hd t')) ∧
       (3 ≤ l.tries → exec (.journalWriteAttempt hd false) s = .next (((s.wear l.entry).spoilEntry l).failTx hd
         { t' with firstFail := if t.firstFail = 0 then l.va else t.firstFail } 6)))) ∧
    (∀ hd t, s.active = true → 1 ≤ hd → hd ≤ 8 → s.tx hd = some t → t.state = 2 → t.lines.any (fun l => !l.verified) = false →
      alook hd s.resole.applying = none → ∃ u x, exec (.commitRecord hd) s = .next u ∧ u.tx hd = some x ∧ x.state = 3 ∧
        u.mverOf t.slot = s.mverOf t.slot + 1 ∧
        (∀ l ∈ t.lines, (∀ k ∈ t.lines, k.pa / 64 = l.pa / 64 → k = l) → alook (l.pa / 64) u.resole.redirect = some (l.entry / 64))) ∧
    (∀ hd ls l, s.active = true → 1 ≤ hd → hd ≤ 8 → alook hd s.resole.applying = some ls →
      ls.find? (fun l => !l.applied && !l.stuck && !s.applyHeld l) = some l →
      l.data.length = 64 → l.pa + 64 ≤ 0x11000000000 → 0x11000000000 ≤ l.entry →
      ∃ u, exec (.resoleApply hd true) s = .next u ∧ (∀ i, i < 64 → aget unlisted (l.pa + i) u.mem = nth 0 i l.data))

/-- The scheduler's device steps place, age, wake, save, restore and migrate continuations (R209, R215, R216, R226, R231, R232,
R234, R435, R441, R442, R447, R449). On an existing core, seat or die: TRAP_ENTRY takes the cause that stands at a boundary;
WATCHDOG of a running seat, with a limit set, makes HANG (0x51) pending with the register it stalls on; CONTINUATION_PLACE
takes the best item of the pools, FRAME_RESTORE the best frame; AGEING raises a pooled record below priority 7;
PLACEMENT_BOUND begins to displace the chosen running continuation or counts a late placement; WAIT_WAKE moves a satisfied
wait to its pool; PREEMPT_REQUEST and MIGRATION_REQUEST begin a save or a migration or end as refused; a stopped core whose
seats stand still and whose operations are done is saved or transferred; a save that is too late ends its contexts; a
migration not yet at safe points falls back. -/
def Obligations.SchedulingRowsComplete : Prop :=
  ∀ (core seat die : Nat) (s : State), core < 400 → seat < 2 → die < 4 →
    (∀ u, (s.seatAt core seat).shadow = false → (s.core core).tile = .on → s.boundaryCause core seat = some u →
      exec (.trapEntry core seat) s = .next u) ∧
    (∀ r w, s.hangLimit (dieOf core) ≠ 0 → (s.core core).stopping = none → (s.seatAt core seat).shadow = false →
      (s.seatAt core seat).run = .running → (s.seatAt core seat).stall = some w → w.reg = some r →
      exec (.watchdog core seat) s = .next (s.setSeat core seat
        { s.seatAt core seat with async := (s.seatAt core seat).async ++ [(0x51#8, r.zeroExtend 64)] })) ∧
    (∀ d e c, bestItem (s.candidates core seat) = some (d, e) → e.item = .record c →
      exec (.continuationPlace core seat) s = .next ((s.dropItem d e.id).placeSeat core seat c)) ∧
    (∀ e f, bestItem (s.candidates core 0) = some (die, e) → e.item = .frame f →
      exec (.frameRestore die e.id core) s = .next ((s.dropItem die e.id).restoreFrame die core f)) ∧
    (∀ id e c, s.poolEntry die id = some e → e.item = .record c → c.prio ≠ 7 → (s.placeCtl die).extractLsb' 16 16 ≠ 0 →
      exec (.ageing die id) s = .next (s.modDie die (fun x =>
        { x with pool := x.pool.filter (fun y => y.id != id) ++ [{ e with item := .record c.raise }] }))) ∧
    (∀ id e, s.poolEntry die id = some e → s.itemUnplaceable e.item = false →
      (chooseVictim (s.victims e.item) = none → exec (.placementBound die id) s = .next (s.placeLate die)) ∧
      (∀ n x p a, chooseVictim (s.victims e.item) = some (n, x, p, a) →
        exec (.placementBound die id) s = .next (s.makeRoom die id n x) ∧
        (∀ u, (s.core n).stopping = none → s.beginPreempt n false (some (id, x)) = some u → s.makeRoom die id n x = u))) ∧
    (∀ id w, s.active = true → alook id (s.die die).waits = some w → s.keyReady w.key = true →
      exec (.waitWake die id) s = .next (s.wake die id w.cont)) ∧
    (∀ lcid, lcid < 512 → exec (.preemptRequest lcid) s = .next (s.preCmd (dieOf (lcidPhys (s.lcidEntry lcid)) % 4) lcid)) ∧
    (∀ f c w, (s.core core).stopping = some (.preempt f c w) →
      (s.seatStill core 0 = true → s.seatStill core 1 = true → s.coreDrained core = true →
        exec (.preemptSaveComplete core) s = .next (s.saveContext core f c w)) ∧
      exec (.saveDeadline core) s = .next (s.saveLate core)) ∧
    (∀ lcid target, lcid < 512 → target < 512 → exec (.migrationRequest lcid target) s = .next (s.migrate lcid target)) ∧
    (∀ b lcid t, s.fe.migBusy = some (lcid, t) → (s.core core).stopping = some (.migrate b) →
      (s.targetOn core b = true → s.atSafePoint core 0 = true → s.atSafePoint core 1 = true → s.matrixDone core = true →
        exec (.migrationStop core) s = .next (s.transfer core b lcid 0)) ∧
      ((s.atSafePoint core 0 = false ∨ s.atSafePoint core 1 = false) →
        exec (.migrationFallback core) s = .next (s.modCore core (fun c => { c with stopping := some (.fallback b) }))))

/-- Kicks and slot commands move a queue's slot through its states; packets are fetched and completed, and TLADD adds (R240, R241,
R242, R243, R249, R257, R259). KICK of a queue below 1,024 keeps its word; of an ACTIVE slot it writes WPTR and ends a BLOCK
of 1 or 2, else it sets the queue's pending bit with its cause, unless that is set. MAP of an UNMAPPED slot with a good window
takes WPTR from the kick, clears the pending bit, notes the owner and makes the slot ACTIVE, with a bad one sets MAPERR. PARK
of an ACTIVE slot makes it PARKING, PARK_COMPLETE PARKED with the mirror's RPTR written, RESUME of a stopped one ACTIVE with
its error fields cleared (of a parked one with WPTR from the kick), UNMAP of one that has stopped UNMAPPED with its window
kept. A command that the state does not list sets CMDERR. An ACTIVE slot whose WPTR lies further ahead than its ring is long
stops with cause 0x3E, reason 0x10. PACKET_FETCH in ACTIVE power, of an ACTIVE slot without a head packet that its fetcher
takes next, waits with BLOCK 1 where the ring is empty and takes a packet that passes its checks as its head. A packet that
has nothing to wait for completes. TLADD adds an increment below 2^63 to VALUE and CERT and does nothing with one beyond. -/
def Obligations.QueueCommandsComplete : Prop :=
  ∀ (slot : Nat) (s : State), slot < 32 →
    let h := s.slotAt slot
    let onKick : Nat := (aget 0 h.qnum s.fe.kick).toNat
    (∀ (g : HwSlot) n, (g.enter n).state = n) ∧
    (∀ (q : Nat) (w : W32), q < 1024 →
      let u : State := { s with fe := { s.fe with kick := aput q w s.fe.kick } }
      aget 0 q u.fe.kick = w ∧
      (∀ k, s.slotOf q = some k → (s.slotAt k).state = 1 → exec (.kick q w) s = .next
        ((u.setSlot k { (s.slotAt k).setField 0x1C 4 w.toNat with block := if (s.slotAt k).block ≤ 2 then 0 else (s.slotAt k).block }).overrun k)) ∧
      ((s.slotOf q = none ∨ ∃ k, s.slotOf q = some k ∧ (s.slotAt k).state ≠ 1) →
        exec (.kick q w) s = .next (if s.kpendBit q then u else (u.setKpend q true).raiseFw 0))) ∧
    (∀ u : State, let g := u.slotAt slot
      let far := g.state = 1 ∧ g.units < (g.wptr + 2 ^ 32 - g.rptr) % 2 ^ 32
      (far → u.overrun slot = u.queueError slot g.rptr 0x3E 0x10 0) ∧ (¬far → u.overrun slot = u)) ∧
    (h.state = 0 → s.mapBad h = true → exec (.map slot) s = .next (s.setSlot slot { h with mapErr := true })) ∧
    (h.state = 0 → s.mapBad h = false →
      let g := (({ h with casOut := false } : HwSlot).setField 0x1C 4 onKick).enter 1
      let u := (s.setSlot slot { g with mirrorRptr := some g.rptr }).setKpend g.qnum false
      exec (.map slot) s = .next (({ u with fe := { u.fe with owner := aput g.qnum (g.asid, g.scope) u.fe.owner } } : State).overrun slot)) ∧
    (h.state ≠ 0 → exec (.map slot) s = .next (s.setSlot slot { h with cmdErr := true })) ∧
    (h.state = 1 → exec (.park slot) s = .next (s.setSlot slot (h.enter 2))) ∧
    (h.state ≠ 1 → exec (.park slot) s = .next (s.setSlot slot { h with cmdErr := true })) ∧
    (h.state = 2 → h.casOut = false → exec (.parkComplete slot) s = .next ((s.setSlot slot (h.enter 3)).mirrorRptr slot true)) ∧
    ((h.state = 4 ∨ h.state = 5) →
      exec (.resume slot) s = .next ((s.setSlot slot (((h.setField 0x21 1 0).setField 0x22 1 0).enter 1)).overrun slot)) ∧
    (h.state = 3 → exec (.resume slot) s = .next ((s.setSlot slot ((h.setField 0x1C 4 onKick).enter 1)).overrun slot)) ∧
    ((h.state = 3 ∨ h.state = 4 ∨ h.state = 5) →
      exec (.unmap slot) s = .next (s.setSlot slot { h.enter 0 with qcb := h.qcb })) ∧
    ((h.state ≠ 3 ∧ h.state ≠ 4 ∧ h.state ≠ 5) → exec (.resume slot) s = .next (s.setSlot slot { h with cmdErr := true }) ∧
      exec (.unmap slot) s = .next (s.setSlot slot { h with cmdErr := true })) ∧
    (s.power.state = 0 → h.state = 1 → h.head = none → h.hostOut = none → s.servedAfter slot = false →
      (h.rptr = h.wptr → exec (.packetFetch slot) s = .next (s.setSlot slot { h with block := 1 })) ∧
      (∀ t b u c, h.rptr ≠ h.wptr → s.feRead slot (h.unitsVa 1) = .got t b → pktLen b ≠ 0 → pktLen b ≤ h.units →
        pktLen b ≤ (h.wptr + 2 ^ 32 - h.rptr) % 2 ^ 32 → t.feRead slot (h.unitsVa (pktLen b)) = .got u c → u.packetCheck h c = none →
        exec (.packetFetch slot) s =
          .next (u.setSlot slot { u.slotAt slot with head := some c, block := 0, hostOut := none, hostData := [] }))) ∧
    (∀ id p, s.active = true → alook id s.fe.packets = some p → s.packetReady id p = true →
      exec (.packetComplete id) s = .next (s.finishPacket id p) ∧
      (p.entry = none → p.fault = none → p.seq = none → p.flags = 0 →
        s.finishPacket id p = { s with fe := { s.fe with packets := adel id s.fe.packets } })) ∧
    (∀ (t : Nat) (v : Word), t < 0x4A0 →
      (v.toNat < 2 ^ 63 → exec (.tladd t v) s =
        .next ((s.setTl t { s.tl t with value := (s.tl t).value + v, cert := (s.tl t).cert + v }).mirror t)) ∧
      (2 ^ 63 ≤ v.toNat → exec (.tladd t v) s = .next s))

/-- A checked packet at the head of an ACTIVE slot is dispatched with the effect of its opcode (R140, R142, R246, R247, R248,
R252, R253, R254, R509, R511, R515, R516). In ACTIVE power, for an ACTIVE slot whose head packet has the row's opcode: while
something holds it (a kill, a wait, a fence, a full table) it waits with the BLOCK that says so. Else, once its fetcher takes
it: NOP completes; LAUNCH with its LCIDs mapped, an entry free and no tile mask takes the entry and puts its records into the
pool, with an LCID unmapped it stops its queue (0x3E, reason 7), without an entry it waits with BLOCK 6; GANG wakes the tiles
of its partitions and tries, GANG_RETRY tries again, and a try places every member or waits with BLOCK 5; SIGNAL of a record
that can be read takes a suspended record of the ASID whose page may be written back into the pool, of another it records
SIGMISS; WAITTL, FENCE, BTE and KILL are outstanding until their events; MARKER writes its record of 16 bytes and completes;
OPEN of a sound ring makes the stream, CLOSE empties it once its frames have closed, BUFFERS and SEND are kept with it. A gang
past its bound is reported once; a WAITTL that times out completes and stops its queue with HANG (0x51); a kill that every
unit has acknowledged ends, and its packets are done. -/
def Obligations.PacketsComplete : Prop :=
  ∀ (slot : Nat) (s : State) (b : List Byte), slot < 32 → s.power.state = 0 →
    let h := s.slotAt slot
    let key := streamKey b
    let op := pktOp b
    (h.state = 1 → h.hostOut = none → h.casOut = false → h.head = some b →
    (s.holdOf h b ≠ 0 → ∀ i n, (i, n) ∈ [(Instr.nopPacket slot, 0), (.launch slot, 1), (.gang slot, 2), (.gangRetry slot, 2), (.signal slot, 3),
        (.waittlPacket slot, 4), (.btePacket slot, 5), (.kill slot, 6), (.fencePacket slot, 7), (.marker slot, 8), (.open_ slot, 9),
        (.close slot, 9), (.buffers slot, 9), (.send slot, 9)] → op = n → exec i s = .next (s.setSlot slot { h with block := s.holdOf h b })) ∧
    (s.holdOf h b = 0 → s.servedAfter slot = false →
      let a : Word := BitVec.ofNat 64 (pf b 8 8)
      let w : Nat := if pf b 0x40 1 % 8 ≤ 1 then pf b 4 2 * pf b 6 2 else 1
      let bad : State := s.queueError slot h.rptr 0x3E 7 (pktTag b)
      (op = 0 → exec (.nopPacket slot) s = .next (s.dispatchDone slot b)) ∧
      (op = 1 → s.lcidsMapped b w = false → exec (.launch slot) s = .next bad) ∧
      (op = 1 → s.lcidsMapped b w = true → s.freeLaunch = none → exec (.launch slot) s = .next (s.setSlot slot { h with block := 6 })) ∧
      (∀ e, op = 1 → s.lcidsMapped b w = true → s.freeLaunch = some e → pf b 0x50 8 = 0 → exec (.launch slot) s =
          .next (((s.takeEntry e h b (pf b 4 2 * pf b 6 2)).dispatch slot b false (some e) []).launchAll h b e)) ∧
      (op = 2 → h.block ≠ 5 → s.lcidsMapped b 1 = false → exec (.gang slot) s = .next bad) ∧
      (op = 2 → h.block ≠ 5 → s.lcidsMapped b 1 = true → pf b 0x50 8 = 0 → exec (.gang slot) s = .next
        ((((List.range 16).filter (fun p => (pf b 0x58 2).testBit p)).foldl (fun (s : State) p =>
          (s.partCores p).foldl (fun (s : State) n => if s.retired n then s else s.wakeTile n) s) s).gangTry slot h b)) ∧
      (op = 2 → h.block = 5 → exec (.gangRetry slot) s = .next (s.gangTry slot h b)) ∧
      (∀ t bs, op = 3 → h.hostData = [] → s.feRead slot [(a, 64), (a + 64, 64)] = .got t bs →
        let c := contOf bs
        (¬(c.susp = 1 ∧ c.asid = h.asid ∧ t.tagHeld c.tag h.asid = true) → exec (.signal slot) s = .next (t.sigMiss slot b)) ∧
        (∀ p, c.susp = 1 → c.asid = h.asid → t.tagHeld c.tag h.asid = true → t.engineAt engFront h.asid false a true = .ok p →
          t.pinBusy p.pa = false → region p.pa ≠ .host →
          let r := (t.markAt p true).amoAt p.pa .cas 8 c.requeued.w0 c.w0
          exec (.signal slot) s = .next (if r.1 = c.w0 then (r.2.requeue p.pa c).dispatchDone slot b else r.2.sigMiss slot b))) ∧
      (op = 4 → exec (.waittlPacket slot) s =
        .next (s.dispatch slot b false none [pf b 4 2 % 4096, pf b 4 2 / 32768, pf b 8 8, pf b 0x10 4, h.rptr, slot])) ∧
      (op = 5 → (s.die (h.qnum % 4)).bte.length < 64 → exec (.btePacket slot) s =
        .next ((s.dispatch slot b false none []).startBte (h.qnum % 4)
          { asid := if pf b 4 1 % 2 = 1 then 0 else h.asid, phys := pf b 4 1 % 2 == 1, src := BitVec.ofNat 64 (pf b 8 8),
            dst := BitVec.ofNat 64 (pf b 0x10 8), bytes := pf b 0x18 8, crd := BitVec.ofNat 64 (pf b 0x20 8), tag := pktTag b,
            qnum := BitVec.ofNat 16 h.qnum, pkt := some s.fe.nextPacket, seat := none, lent := 0x7FF, cancelled := false, pos := 0,
            ended := none, time := [], tail := none, recOut := 0, hostOut := none, hostData := [] })) ∧
      (op = 6 → exec (.kill slot) s =
        .next ((s.dispatch slot b false none []).startKill (BitVec.ofNat 16 (pf b 4 2)) (some s.fe.nextPacket))) ∧
      (op = 7 → exec (.fencePacket slot) s = .next (s.dispatch slot b false none [pf b 4 1])) ∧
      (∀ p, op = 8 → s.engineAt engFront h.asid false a true = .ok p → s.pinBusy p.pa = false →
        let by_ : HostReq := { asid := h.asid, use := .engine, addr := 0, size := 0, write := true, data := [], pkt := some s.fe.nextPacket }
        exec (.marker slot) s = .next (((({ s with fresh := s.fresh + 2 } : State).markAt p true).engineWriteBy by_ p.pa
          (s.time80 ++ [pktTag b, 0] ++ natToBytes 2 h.qnum ++ [Config.freeByte s.fresh, Config.freeByte (s.fresh + 1)])).dispatchDone slot b)) ∧
      (∀ t r, op = 9 → pf b 4 1 = 0 → s.feRead slot (cut64 2 (recOf b) 32) = .got t r → ringOk (recOf b) r 1 4 64 = true →
        t.rangeOk h.asid true (BitVec.ofNat 64 (pf b 0x48 8)) (if key < 128 ∧ essOf b = 0 then 8256 * 2 ^ pf r 8 1 else 0) = .ok () →
        exec (.open_ slot) s = .next ((t.setStream key { Stream.reset with
          isOpen := true, desc := b, queue := h.qnum, asid := h.asid, recBase := pf r 0 8, log2n := pf r 8 1,
          counters := (t.stream key).counters }).dispatchDone slot b)) ∧
      (∀ t l, op = 9 → pf b 4 1 = 1 → (s.stream key).sends = [] → s.pinsQuiet = true → (s.stream key).hostOut = none →
        State.closeAll key (s.stream key).frames.length s = .got t l → exec (.close slot) s =
          .next ((t.setStream key { Stream.reset with counters := (t.stream key).counters }).dispatchDone slot b)) ∧
      (op = 9 → pf b 4 1 = 2 → s.buffersOk key (s.stream key) b = .ok () → exec (.buffers slot) s =
        .next ((s.modStream key (fun x => { x with buffers := b })).dispatchDone slot b)) ∧
      (op = 9 → pf b 4 1 = 3 → exec (.send slot) s = .next ((s.dispatch slot b false none []).modStream key
        (fun x => { x with sends := x.sends ++ [(pf b 8 1, s.fe.nextPacket)] }))))) ∧
    (∀ e, s.freeLaunch = some e →
      let n := ((List.range 16).map (fun p => pf b (0x60 + 2 * p) 2)).sum
      (∀ t, (s.takeEntry e h b n).gangAll h b e = some t → s.gangTry slot h b = t.dispatch slot b false (some e) []) ∧
      ((s.takeEntry e h b n).gangAll h b e = none → s.gangTry slot h b = s.setSlot slot { h with block := 5 })) ∧
    (h.state = 1 → h.block = 5 → h.gangRaised = false →
      exec (.gangBound slot) s = .next ((s.setSlot slot { h with gangRaised := true }).raiseFw 3)) ∧
    (∀ id p, s.timedWait slot = some (id, p) →
      let t : State := { s with fe := { s.fe with packets := aput id { p with done := true } s.fe.packets } }
      let u : State := if t.packetReady id { p with done := true } then t.finishPacket id { p with done := true } else t
      (∀ k, u.slotOf p.qnum = some k →
        exec (.waittlPacketTimeout slot) s = .next (u.queueError k (nth 0 4 p.arg) 0x51 0 p.tag)) ∧
      (u.slotOf p.qnum = none → exec (.waittlPacketTimeout slot) s = .next (u.recordFault p.qnum 0x51 p.tag))) ∧
    (∀ asid k, s.fe.kills.find? (fun k => k.asid == asid) = some k → s.killAcked asid = true →
      exec (.killComplete asid) s = .next { s with fe := { s.fe with
        kills := s.fe.kills.filter (fun x => x.asid != asid)
        packets := s.fe.packets.map (fun e => (e.1, if k.pkts.contains e.1 then { e.2 with done := true } else e.2)) } })

/-- Shootdowns, pins, the core map, scans, topology changes and detected errors complete (R92, R137, R138, R139, R228, R452, R453,
R455, R460, R461, R463, R465). With fewer than four shootdowns pending each TLBI command is accepted with its range and drops
what it names from every TLB and walker cache, and one of a reserved kind is counted and its error kept; the oldest completes
once no access through what it names is left. PIN of a free entry for a page of LPDDR that no entry names and UNPIN of a valid
one make the entry BUSY, and PIN_COMPLETE clears BUSY after the page's lines have left the caches, and what waited for the
page goes on. LCID_MAP_WRITE writes an entry that names no core twice. SCAN_REQUEST of a busy core is rejected, of an idle one
empties its L1 and TLB and begins; SCAN_COMPLETE counts a passed scan and certifies, and a failed one quarantines its core, is
logged and makes its entries suspect. SUSPACK clears suspicion; APPLY sets its error or makes the mask effective, with a new
generation where the counts change. A corrected error enters the log, a block of LPDDR is poisoned and logged, an error in a
clean copy has its line read from its home again, one that a running seat consumes waits for its boundary, and one that a copy
consumes ends the copy. -/
def Obligations.MaintenanceRowsComplete : Prop :=
  ∀ (asid : BitVec 16) (kind : BitVec 3) (slice entry core die : Nat) (ppn : W32) (s : State),
    slice < 40 → entry < 192 → core < 400 → die < 4 →
    (s.fe.tlbi.length < 4 →
      (∀ a k i, (a, k, i) ∈ [(asid, 0, Instr.tlbiRange asid), (asid, 1, .tlbiAsid asid), (0, 2, .tlbiGlobalRange), (0, 3, .tlbiAll)] →
        let sh : Shootdown := { asid := a, kind := k, va := s.ctlD 0x00F00008, len := s.ctlD 0x00F00010 }
        let t := s.dropXlat sh.names sh.namesNode
        exec i s = .next { t with fe := { t.fe with tlbi := t.fe.tlbi ++ [sh], tlbiIssued := t.fe.tlbiIssued + 1 } }) ∧
      (4 ≤ kind.toNat → exec (.tlbiReserved kind) s = .next
        { s with fe := { s.fe with tlbiErr := true, tlbiIssued := s.fe.tlbiIssued + 1, tlbiDone := s.fe.tlbiDone + 1 } })) ∧
    (∀ k r, s.fe.tlbi = k :: r → s.shootQuiet k = true →
      exec .tlbiComplete s = .next { s with fe := { s.fe with tlbi := r, tlbiDone := s.fe.tlbiDone + 1 } }) ∧
    (let e := (s.cluster slice).pin entry
     (e.busy = none → e.valid = false → region (ppn.toNat * 0x10000) = .lpddr → s.pageNamed ppn = false →
       exec (.pin slice entry ppn) s = .next (s.setPin slice entry { valid := true, busy := some true, ppn := ppn })) ∧
     ((e.busy.isSome = true ∨ e.valid = true) → exec (.pin slice entry ppn) s = .next s) ∧
     (e.busy = none → e.valid = true →
       exec (.unpin slice entry) s = .next (s.setPin slice entry { e with valid := false, busy := some false })) ∧
     ((e.busy.isSome = true ∨ e.valid = false) → exec (.unpin slice entry) s = .next s) ∧
     (e.busy.isSome = true → exec (.pinComplete slice entry) s =
       .next ((((((s.cachedIn (e.ppn.toNat * 0x10000) 0x10000).foldl (fun s l => s.writeBack l) s).setPin slice entry
         { e with busy := none }).sliceOff slice).hostRelease []).resumeHeld))) ∧
    (∀ v : W32, let x := v &&& 0x800001FF#32
      ((lcidValid x = false ∨ s.lcidOf (lcidPhys x) = none ∨ s.lcidOf (lcidPhys x) = some core) →
        exec (.lcidMapWrite core v) s = .next { s with fe := { s.fe with lcid := aput core x s.fe.lcid } }) ∧
      (∀ j, lcidValid x = true → s.lcidOf (lcidPhys x) = some j → j ≠ core → exec (.lcidMapWrite core v) s = .next s)) ∧
    (∀ k, k ≤ 99 →
      let n := 100 * die + k
      let cl := clusterOf n
      let busy : Bool := (s.seatAt n 0).busy || (s.seatAt n 1).busy || (s.core n).stopping.isSome || (s.cluster cl).scanBusy.isSome
      (busy = true → exec (.scanRequest die k) s =
        .next (s.modCluster cl (fun c => { c with scanOutcome := 2, scanDone := c.scanDone + 1 }))) ∧
      (busy = false → exec (.scanRequest die k) s = .next (((s.emptyL1 n).modCore n (fun x => { x with tlb := [] })).modCluster cl
        (fun c => { c with scanBusy := some n, scanCore := k })))) ∧
    (∀ cl c, cl < 10 → (s.cluster (10 * die + cl)).scanBusy = some c →
      let ended (o : BitVec 2) : State := s.modCluster (10 * die + cl) (fun x => { x with scanBusy := none, scanOutcome := o, scanDone := x.scanDone + 1 })
      exec (.scanComplete die cl true) s = .next (((ended 0).setCtlW (scanCntOff c) ((ended 0).scanCnt c + 1)).certifyAll) ∧
      exec (.scanComplete die cl false) s = .next ((((({ ended 1 with fresh := s.fresh + 1 } : State).setCoreBit 0x00090400 c).logEvent c 7
        (Config.freeWord (s.fresh + 1))).suspect c).reportPools)) ∧
    (∀ tl, tl < 4096 → exec (.suspack tl) s = .next (({ s with fe := { s.fe with certs := s.fe.certs.map (fun e =>
      if e.tl = tl ∧ e.suspect = true then { e with suspect := false, cores := [] } else e) } } : State).certify tl)) ∧
    (s.applyRefused = true → exec .apply s = .next { s with topo := { s.topo with err := true } }) ∧
    (s.applyRefused = false →
      let t : State := { s with topo := { s.topo with hidden := ((List.range 400).filter (fun n => !s.maskBit n)).map (fun n => (n, true)) } }
      let same : Prop := t.ncore = s.ncore ∧ t.nclus = s.nclus ∧ t.ndie = s.ndie
      (same → exec .apply s = .next t.reportPools) ∧
      (¬same → exec .apply s =
        .next (({ t with topo := { t.topo with gen := t.topo.gen + 1 } } : State).topologyChange.reportPools))) ∧
    (∀ off, off < 0xC0000 → exec (.errorDetected { kind := .corrected, place := .scratchpad core off }) s =
      .next (({ s with fresh := s.fresh + 1 } : State).logEvent core 1 (uncorrAddr 1 core off))) ∧
    (∀ pa, region pa = .lpddr →
      let n := s.detector (.lpddr pa)
      exec (.errorDetected { kind := .poisoned, place := .lpddr pa }) s =
        .next ((({ s with fresh := s.fresh + 1 } : State).poisonBlock pa).logEvent n 2 (uncorrAddr 6 n (pa / 64 * 64)))) ∧
    (∀ pa, s.dirtyOwner pa ≠ some core → exec (.errorDetected { kind := .cleanCopy, place := .l1 core pa }) s = .next (s.refetch (.l1 core pa))) ∧
    (∀ seat off sd vd ac, seat < 2 → off < 0xC0000 → (s.seatAt core seat).run = .running → (s.seatAt core seat).file.ctl.phaseEn = true →
      exec (.errorDetected { kind := .consumedBySeat core seat sd vd ac, place := .scratchpad core off }) s =
        .next (s.consume core seat (uncorrAddr 1 core off))) ∧
    (∀ id o off, off < 0xC0000 → s.op core id = some (.copy o) →
      exec (.errorDetected { kind := .consumedByEngine core id, place := .scratchpad core off }) s =
        .next (s.endCopy core id o o.total 0x40#32 0x52))

/-- Tiles, temperature, the power cap, device states, power loss and the security unit act as described (R470, R471, R474, R475,
R476, R478, R479, R480, R483, R527, R529, R530). An idle tile that is ON goes to RET; one in RET with nothing kept goes OFF
once its L1 is empty, unless its die's IDLEOFF is 0; a waking one becomes ON. THERMAL_WARN raises its event; THERMAL_THROTTLE
throttles the tile and raises its own, THROTTLE_END ends that; THERMAL_TRIP of a tile that runs nothing loses its L1, turns it
OFF as tripped, raises its event and counts; a tripped tile that has cooled may wake. The cap is set with its event and
released. TARGET_ACTIVE wakes a powered device; TARGET_LISTEN and TARGET_DORMANT move it, or set the error where they are
refused. WAKE_COMPLETE of a device that lost no power and holds no frame makes it ACTIVE, raises its event and vector 52 and
lets the held accesses follow. An alarm that is set, enabled and reached starts a wake; a power loss leaves what is non-
volatile. COLD_START boots the slot marked active where its image is good under the key presented for it, else the other, else
none and opens HAP0. A security command makes the idle unit busy; INSTALL of a good image puts it into the inactive slot,
which is active from then on, and of a bad one reports why, ADVANCE raises ROLLCTR to SVN, ATTEST past its last leaf reports
4, TCMOPEN toggles access. -/
def Obligations.PowerAndSecurityRowsComplete : Prop :=
  ∀ (core : Nat) (s : State), core < 400 →
    let c := s.core core
    (c.tile = .on → s.tileIdle core = true → exec (.tileIdleRet core) s = .next (s.modCore core (fun c => { c with tile := .ret }))) ∧
    (c.tile = .ret → s.tileIdle core = true → s.keptOn core = false → s.idleOff (dieOf core) ≠ 0 →
      exec (.tileIdleOff core) s = .next ((s.emptyL1 core).tileOff core false)) ∧
    ((c.tile = .wakingRet ∨ (c.tile = .wakingOff ∧ s.power.state = 0)) →
      exec (.tileWakeComplete core) s = .next (s.modCore core (fun c => { c with tile := .on }))) ∧
    exec (.thermalWarn core) s = .next (s.raisePower 0) ∧
    (c.throttled = false → exec (.thermalThrottle core) s =
      .next ((s.modCore core (fun c => { c with throttled := true })).raisePower 1)) ∧
    (c.throttled = true → exec (.throttleEnd core) s = .next (s.modCore core (fun c => { c with throttled := false }))) ∧
    (c.tile ≠ .off → (s.seatAt core 0).busy = false → (s.seatAt core 1).busy = false →
      let t := ((s.loseL1 core).tileOff core true).raisePower 2
      exec (.thermalTrip core) s =
        .next { t with power := { t.power with tripCount := if t.power.tripCount = 255 then 255 else t.power.tripCount + 1 } }) ∧
    (c.tripped = true → exec (.trippedTileCooled core) s = .next (s.modCore core (fun c => { c with tripped := false }))) ∧
    (s.power.capped = false →
      exec .powerCap s = .next { s.raisePower 3 with power := { (s.raisePower 3).power with capped := true } }) ∧
    (s.power.capped = true → exec .powerCapRelease s = .next { s with power := { s.power with capped := false } }) ∧
    (s.power.state ≠ 3 → exec .targetActive s = .next (({ s with power := { s.power with target := 0 } } : State).startWake 4) ∧
      (∀ i n, (i, n) ∈ [(Instr.targetListen, 1), (Instr.targetDormant, 2)] →
        (s.sleepRefused n = true → exec i s = .next { s with power := { s.power with err := true } }) ∧
        (s.sleepRefused n = false → exec i s = .next
          { s with power := { s.power with target := n, state := n, waking := false }
                   net := if n = 2 then { s.net with linkUp := [] } else s.net })) ∧
      exec .powerLoss s = .next s.powerLoss) ∧
    (s.power.waking = true → s.power.lost = false → s.net.wakeBuf = [] →
      let t := (({ s with power := { s.power with state := 0, waking := false } } : State).raisePower 4).raiseVector 52
      exec .wakeComplete s =
        .next { t with agenda := t.host.held.map (fun a => Act.access a) ++ t.agenda, host := { t.host with held := [] } }) ∧
    ((s.power.state = 1 ∨ s.power.state = 2) → s.wakeEnabled 2 = true → s.ctlD 0x05000008 ≠ 0 → s.alarmNs ≤ s.ptpNs →
      exec .alarm s = .next (s.startWake 3)) ∧
    (∀ keyA keyB, s.sec.booted = false →
      let t : State := { s with power := { s.power with state := 2, target := 2, wcause := 5, waking := false } }
      let image (k : Nat) : Except Nat (BitVec 16) := imageVerdict (if k = 0 then keyA else keyB) (s.slotImage k) s.sec.rollctr
      (∀ v, image s.sec.active = .ok v → exec (.coldStart keyA keyB) s = .next (t.boot s.sec.active v 0)) ∧
      (∀ e v, image s.sec.active = .error e → image (1 - s.sec.active) = .ok v → exec (.coldStart keyA keyB) s = .next (t.boot (1 - s.sec.active) v e)) ∧
      (∀ e f, image s.sec.active = .error e → image (1 - s.sec.active) = .error f → exec (.coldStart keyA keyB) s =
        .next ({ t with sec := { t.sec with booted := true, bootOk := false, reason := 4 } } : State).openAperture) ∧
      (∀ k v e, (t.boot k v e).sec =
        { s.sec with booted := true, bootOk := true, slot := k, svn := v, reason := e, running := (s.slotImage k).take (imageSize (s.slotImage k)) })) ∧
    (s.sec.busy.isSome = true → ∀ i, i ∈ [Instr.install, .advance, .attest, .tcmopen] → exec i s = .next s) ∧
    (s.sec.busy = none →
      let c (n : Nat) : SecCmd := { cmd := n, leaf := s.sec.attest, request := some [], hostOut := none }
      exec .install s = .next (s.secAsk (c 1)) ∧
      (∀ i n, (i, n) ∈ [(Instr.advance, 2), (Instr.tcmopen, 4)] → exec i s = .next { s with sec := { s.sec with busy := some (c n) } }) ∧
      (s.sec.attest < 2 ^ 20 → exec .attest s = .next (({ s with sec := { s.sec with attest := s.sec.attest + 1 } } : State).secAsk (c 3))) ∧
      (2 ^ 20 ≤ s.sec.attest → exec .attest s = .next { s with sec := { s.sec with busy := some (c 3) } })) ∧
    (∀ c key rand, s.sec.busy = some c → c.hostOut = none →
      let ends (t : State) (n : Nat) : Prop :=
        exec (.securityCommandComplete key rand) s = .next { t with sec := { t.sec with busy := none, result := n } }
      (c.cmd = 1 →
        (s.secImage c = none → ends s 5) ∧
        (∀ k, s.secImage c = some k →
          (∀ e, imageVerdict key k s.sec.rollctr = .error e → ends s e) ∧
          (∀ v, imageVerdict key k s.sec.rollctr = .ok v →
            let n := 1 - s.sec.active
            let t : State := { s with sec := { s.sec with active := n, images := aput n k s.sec.images } }
            ends (if s.sec.bootOk then t else t.boot n v s.sec.reason) 0))) ∧
      (c.cmd = 2 → ends { s with sec := { s.sec with rollctr := if s.sec.rollctr.toNat ≤ s.sec.svn.toNat then s.sec.svn else s.sec.rollctr } } 0) ∧
      (c.cmd = 3 →
        (2 ^ 20 ≤ c.leaf → ends s 4) ∧
        (∀ b p q, c.leaf < 2 ^ 20 → s.secRead c 64 = some b → s.engineAt engFront 0 true (BitVec.ofNat 64 s.secDst) true = .ok p →
          s.engineAt engFront 0 true (BitVec.ofNat 64 (s.secDst + 2995)) true = .ok q →
          let r := s.report c.leaf b
          ends (s.engineWrite 0 .engine s.secDst (r ++ attestSign c.leaf rand r)) 0)) ∧
      (c.cmd = 4 → ends { s with sec := { s.sec with tcmOpen := !s.sec.tcmOpen } } 0))

/-- Host, network, media and debug events have their effects on the device (R263, R490, R491, R493, R494, R495, R497, R500, R502,
R512, R515, R516). In ACTIVE with a trained link a host request of 1 to 64 bytes within a block is served: a read or write
through a disabled aperture gives zeros or nothing, a read through an enabled one the bytes of the coherent memory of a block
that is not poisoned, and an atomic of control space ends as an error. A completion or a time-out of a request of no seat's or
unit's (an engine's posted write) ends it. Link training takes the modules, a vector's enable lets a held event go, and the
doorbells post and take. A frame of 64 to 9,216 bytes goes to its consumer, and an event message of the time unit leaves its
ingress time; a link change is kept and lets collectives try again; TUSTEP adds to the time. For an open stream and no page
being pinned: FRAME_START without buffers opens a frame as skipped, RTP_PACKET_RECEIVE takes a packet that matches and whose
frame has started, FRAME_DEADLINE closes the oldest frame, and FRAME_TRANSMIT of a stream without buffers sends an empty
frame, whose packet is done. A frozen trace resumes; a monitor is cleared and samples an enabled temperature; REGISTER_WRITE
writes a register of the writer's reach. -/
def Obligations.OutsideRowsComplete : Prop :=
  ∀ (s : State), s.power.state = 0 →
    (s.host.modules ≠ 0 →
      let t := s.replays
      let ends (r : Option (List Byte)) : State := { t with host := { t.host with replies := t.host.replies ++ [r] } }
      let at_ (off pa : Nat) : Prop := s.aperture off = some pa ∧ s.pinBusy pa = false
      (∀ off size, 0x100000000 ≤ off → off < 0x200000000 → 1 ≤ size → off % 64 + size ≤ 64 →
        (s.aperture off = none → exec (.hostRead off size) s = .next (ends (some (List.replicate size 0)))) ∧
        (∀ pa, at_ off pa → s.poisoned pa = false →
          exec (.hostRead off size) s = .next (ends (some ((List.range size).map (fun i => s.homeByte (pa + i)))))) ∧
        (∀ pa, at_ off pa → s.poisoned pa = true → exec (.hostRead off size) s = .next (ends none))) ∧
      (∀ off bytes, 0x100000000 ≤ off → off < 0x200000000 → 1 ≤ bytes.length → off % 64 + bytes.length ≤ 64 →
        (s.aperture off = none → exec (.hostWrite off bytes) s = .next t) ∧
        (∀ pa, at_ off pa → bytes.length < 64 → exec (.hostWrite off bytes) s =
          .next (((List.range bytes.length).zip bytes).foldl (fun (s : State) e => match e.2 with
            | some b => s.putHome (pa + e.1) b
            | none => s) t))) ∧
      (∀ off size op x y, off < 0x100000000 → 1 ≤ size → off % 64 + size ≤ 64 →
        exec (.hostAtomic off size op x y) s = .next (ends none)) ∧
      (∀ off size op x y pa, 0x100000000 ≤ off → off < 0x200000000 → (size = 4 ∨ size = 8) → off % size = 0 → at_ off pa →
        s.poisoned pa = false → exec (.hostAtomic off size op x y) s =
          .next ((t.amoAt pa op size x y).2.answer (some (natToBytes size (t.amoAt pa op size x y).1.toNat))))) ∧
    (∀ id r, alook id s.host.reqs = some r → r.use = .engine →
      let over_ (u : State) : State := { u with host := { u.host with reqs := adel id u.host.reqs } }
      exec (.hostLinkTimeout id) s = .next (((over_ s).hostError r.asid r.addr).hostRelease [id]) ∧
      exec (.hostCompletion id none) s = .next (((over_ s.replays).hostError r.asid r.addr).hostRelease [id]) ∧
      (∀ d, s.host.modules ≠ 0 → (r.write = true ∨ d.length = r.size) →
        exec (.hostCompletion id (some d)) s = .next (((over_ s.replays).hostRelease [id]).hostFill r (some d)))) ∧
    (∀ n, n ≤ 2 → exec (.hostLinkTraining n) s = .next { s with host := { s.host with modules := n } }) ∧
    (∀ v en, v < 64 →
      let t := s.setCtlW (hivtAt v + 0xC) (if en then 1 else 0)
      ((en = false ∨ alook v s.host.hivtPend = none) → exec (.hivtEnable v en) s = .next t) ∧
      (en = true → (alook v s.host.hivtPend).isSome = true → exec (.hivtEnable v en) s = .next (t.sendVector v))) ∧
    (∀ v, exec (.h2fdbWrite v) s = .next (if v.getLsbD 0 then s.hostBell else { s with host := { s.host with h2f := 0 } }) ∧
      exec (.f2hdbWrite v) s = .next (if v.getLsbD 0 then ({ s with host := { s.host with f2h := 1 } } : State).raiseVector 51
        else { s with host := { s.host with f2h := 0 } })) ∧
    (∀ p f, p < 16 → 64 ≤ f.length → f.length ≤ 9216 →
      let who := s.consumer p f
      let stamps := if who = 0 then s.net.stamps ++ [(p, s.time80)] else s.net.stamps
      let w : State := { s with net := { s.net with delivered := s.net.delivered ++ [(who, p, f)], stamps := stamps } }
      (s.frameFragment p f = none → exec (.ethFrameReceive p f) s = .next w) ∧
      (∀ g, s.frameFragment p f = some g → s.pinsQuiet = true → exec (.ethFrameReceive p f) s = .next (w.fragment g))) ∧
    (∀ p up, p < 16 → exec (.ethLinkChange p up) s =
      .next (({ s with net := { s.net with linkUp := aput p up s.net.linkUp } } : State).retryColls)) ∧
    (∀ v : BitVec 64, exec (.tustep v) s = .next { s with net := { s.net with timeOffset := s.net.timeOffset + v.toInt } }) ∧
    (∀ k, k < 128 → (s.stream k).isOpen = true → (s.stream k).hostOut = none → s.pinsQuiet = true →
      let x := s.stream k
      (x.buffers = [] → (essOf x.desc ≠ 1 ∨ x.anchor.isSome = true ∨ x.nextFrame = 0) →
        let f : MediaFrame := { number := x.nextFrame, skipped := true, slot := 0, buffers := [], ts := none, firstTime := [], raw := [], arrived := [],
                                 groups := 0, seqA := [], seqB := [] }
        exec (.frameStart k) s = .next (((s.modStream k (fun y =>
          { y with frames := y.frames ++ [f], nextFrame := (y.nextFrame + 1) % 2 ^ 32, hostOut := none, hostData := [] })).streamCount k 4 1).raiseVector 48)) ∧
      (∀ path pkt u, path < 2 → pathMatch x.desc path pkt.srcIp.toNat pkt.dstIp.toNat pkt.udpPort.toNat (pkt.payloadType.toNat % 128) = true →
        s.rtp k path pkt = some u → exec (.rtpPacketReceive k path pkt) s = .next u) ∧
      (∀ u l, x.frames ≠ [] → (essOf x.desc ≠ 1 ∨ x.anchor.isSome = true) → s.closeHead k = .got u l →
        exec (.frameDeadline k) s = .next (u.advance k))) ∧
    (∀ k slot id r, 128 ≤ k → k < 160 → (s.stream k).isOpen = true → (s.stream k).hostOut = none → (s.stream k).buffers = [] →
      (s.stream k).sends = (slot, id) :: r → dualOf (s.stream k).desc = false →
      let t := (s.streamCount k 0 (Config.freeW32 s.fresh).toNat).modStream k (fun y => { y with sends := r, hostOut := none, hostData := [] })
      let sent : Net := { t.net with mediaSent := t.net.mediaSent ++ [(k, [pf (s.stream k).desc 0x1B 1], slot, [])] }
      let u := ({ t with fresh := s.fresh + 1, net := sent } : State).streamRise k (groupsOf (s.stream k).desc + 1)
      (alook id u.fe.packets = none → exec (.frameTransmit k) s = .next u) ∧
      (∀ p, alook id u.fe.packets = some p →
        let v : State := { u with fe := { u.fe with packets := aput id { p with done := true } u.fe.packets } }
        exec (.frameTransmit k) s = .next (if v.packetReady id { p with done := true } then v.finishPacket id { p with done := true } else v))) ∧
    (∀ core, core < 400 →
      ((s.core core).frozen = true → exec (.traceResume core) s = .next (s.modCore core (fun c => { c with frozen := false }))) ∧
      (∀ m t, m < 4 → exec (.monitorClear core m) s = .next (s.modMonitor core m Monitor.clear) ∧
        (let c := (aget Monitor.reset m (s.core core).monitors).ctl
         c.getLsbD 4 = true → c.extractLsb' 0 4 = 6#4 → (s.core core).tile ≠ .off →
           exec (.monitorTemperatureSample core m t) s = .next (s.modMonitor core m (fun x => x.sample t))))) ∧
    (∀ off v u, off < 0x100000000 → off % 8 = 0 →
      (s.ctlWrite .fw off 8 v = some u → exec (.registerWrite .fw off 8 v) s = .next u) ∧
      (s.hostCtlWrite off 8 v = some u → exec (.registerWrite .host off 8 v) s = .next u) ∧
      (s.ctlWrite .fw off 4 v = some u → exec (.registerWrite .fw off 4 v) s = .next u))

/-- After reset the machine holds the values the spec gives, and its memory is in canonical form (R44, R68, R105, R218, R219,
R229, R283, R390, R432, R470, R475). After reset every seat is idle with TM clear and SHAPE 1 × 1, EFR 0x0444, ROLE 1, REPTHR
0x3D4C_CCCD and SPWIN, ROT, STAGE, LOOPB, CTABSEL, VFLAGS, CAUSE, FADDR, TRAPVEC, SNAPBASE and EPC 0; every tile is OFF, AGE
is 64, every slot is FREE, every leaf in phase 0, logical core n is physical core n, the device is DORMANT with TARGET 2 and
WCAUSE POWERUP, every tag is 0x0000, no cache, walker cache or engine TLB holds anything, no queue is mapped, no operation is
in flight, and memory is in its canonical form with nothing listed. -/
def Obligations.ResetState : Prop :=
  Memory.wf State.reset.mem ∧ State.reset.mem = [] ∧ State.reset.tags = [] ∧ State.reset.lines = [] ∧ State.reset.l1 = [] ∧
    State.reset.l2 = [] ∧ State.reset.walkers = [] ∧ State.reset.engTlb = [] ∧
    (∀ core x, let t := State.reset.seatAt core x
      t.run = .idle ∧ t.tm = false ∧ t.live = none ∧ t.file.ctl.shape = 0x0101#32 ∧ t.file.ctl.efr = 0x0444#32 ∧
      t.file.ctl.role = 1 ∧ t.file.ctl.repthr = 0x3D4CCCCD#32 ∧ t.file.ctl.spwin = 0 ∧ t.file.ctl.rot = 0 ∧ t.file.ctl.stage = 0 ∧
      t.file.ctl.loopb = 0 ∧ t.file.ctl.ctabsel = 0 ∧ t.file.ctl.vflags = 0 ∧ t.file.ctl.cause = 0 ∧ t.file.ctl.faddr = 0 ∧
      t.file.ctl.trapvec = 0 ∧ t.file.ctl.snapbase = 0 ∧ t.file.ctl.epc = 0) ∧
    (∀ core, let c := State.reset.core core
      c.tile = .off ∧ c.age = 64 ∧ c.ops = [] ∧ (∀ n, (c.slot n).state = .free) ∧ c.stopping = none) ∧
    (∀ core o, (State.reset.leaf core o).phase = false ∧ (State.reset.leaf core o).link = none) ∧
    (∀ n, n < 400 → lcidValid (State.reset.lcidEntry n) = true ∧ lcidPhys (State.reset.lcidEntry n) = n) ∧
    (∀ k, (State.reset.slotAt k).state = 0) ∧ (∀ pa, State.reset.tagAt pa = 0) ∧
    State.reset.power.state = 2 ∧ State.reset.power.target = 2 ∧ State.reset.power.wcause = 5

/-- A step runs the instruction that the bytes at the program counter decode to (R127, R130, R220, R264, R301, R433). Where the
actor that moves is a device step and the device has power, the step is exec of that device step. Where a running seat of no
pair, with no boundary event due, fetches 16 readable bytes that decode to a bundle holding one instruction without a
parameter block, its attempt runs exec of that instruction from the state before the bundle, whose registers and trap mask the
slot reads: an issue makes the state it answers, with the program counter moved on and the bundle counted; a raised cause is a
boundary event, whose state is that of the cause taken before the bundle; and one that stalls issues nothing and keeps what it
has started. Where nobody else is due to move and that seat is the only one of a powered core, the step is its attempt and the
end of the cycle. -/
def Obligations.StepRunsTheDecodedInstruction : Prop :=
  ∀ s : State,
    (∀ i r, s.agenda = .dev i :: r → i.isSlot = false → s.power.state ≠ 3 → step s = exec i { s with agenda := r }) ∧
    (∀ core x bs ps b p u, (s.seatAt core x).run = .running → (s.seatAt core x).pair = none → (s.core core).stopping = none →
      s.boundaryCause core x = none →
      let t := (s.seatAt core x).applyEfr.landFlags (s.seatAt core x).issued
      let s' := s.setSeat core x t
      let s0 : State := { s' with focus := { s'.focus with core := core, seat := x } }
      let w : BundleBits := BitVec.ofNat 128 (bytesToNat bs)
      s0.fetch t.pc = .ok (bs, ps) → s0.poisonHit ps = none → blockOwners w = [] → decodeBundle w = .ok b → plans b [] = [p] →
      let s1 := s0.installPieces core t.file.ctl.asid false ps
      let base := some s1.nextOp
      exec p.instr ((s1.latched core x (t.pc + 1)).focusOn core x .probe base (t.pc + 1) p) = .next u →
        (u.focus.status = .issued → (u.seatAt core x).phaseNo = t.phaseNo → s.attempt core x =
          .ok (.issued (u.issue core x s1 (t.pc + 1) [p]) ((if b.hdr.isSome then [0] else []) ++ [p.slot]) 0)) ∧
        (∀ cls e, u.focus.status = .raised cls e → ∃ v, s.attempt core x = .ok (.event v) ∧
          (v = s1.takeCause core x e ∨ v = runAlone s1 core x base (t.pc + 1) p)) ∧
        (∀ k, u.focus.status = .stalled k → s.attempt core x = .ok (.stalled (waitAlone s1 core x base (t.pc + 1) p k))) ∧
        (∀ k l, u.focus.status = .holding k l → (u.seatAt core x).phaseNo = t.phaseNo →
          s.attempt core x = .ok (.stalled (waitAlone s1 core x base (t.pc + 1) p k)))) ∧
    (∀ v occ, s.agenda = [] → (s.core s.focus.core).tile = .on → (s.core s.focus.core).paramLeft = 0 →
      (s.seatAt s.focus.core 0).run = .running → (s.seatAt s.focus.core 1).run = .idle → (s.seatAt s.focus.core 1).pair = none →
      s.attempt s.focus.core 0 = .ok (.issued v occ 0) →
      step s = .next (v.endCycle s.focus.core (fun y => if y = 0 then true else false) (fun y => y == 0)))

/-- Words written out from the encodings decode to the instructions they stand for (R264, R266, R272, R273, R274, R275, R295).
Words of each position, with their bits written out from the formats and the opcode map, decode to their instruction with
every field: in position S ADDI s56, s56, 256, ERET, WAITTL, in V VADD with and without a mask and VRED.SUM, in M LD.D, ST.W,
MMA, OSCLAIM and AMO.CAS.AR.D, in C CPY.MMA.Z, KVWALK and BAR.WAIT.T. -/
def Obligations.WordsDecodeAsWritten : Prop :=
  decodeTableWord 32 0x238E1000 = some (.addi 56 56 256 0) ∧ decodeTableWord 32 0x90000010 = some (.eret 0) ∧
    decodeTableWord 32 0xA0140000 = some (.waittl 1 0x400 0 0) ∧
    decodeTableWord 64 (0x10611000 * 2 ^ 32) = some (.vadd 3 1 2 0 0 0) ∧
    decodeTableWord 64 (0x10C11100 * 2 ^ 32) = some (.vadd 6 1 2 4 0 0) ∧
    decodeTableWord 64 (0x79060000 * 2 ^ 32) = some (.vredSum 8 6 0) ∧
    decodeTableWord 96 (0x1FBE8000 * 2 ^ 64) = some (.ldD 59 58 0 0 0) ∧
    decodeTableWord 96 (0x28E28000 * 2 ^ 64) = some (.stW 14 10 0 0 0) ∧
    decodeTableWord 96 (0xA1234000 * 2 ^ 64) = some (.mma 1 2 3 4 0) ∧ decodeTableWord 96 (0xC0800000 * 2 ^ 64) = some (.osclaim 2 0) ∧
    decodeTableWord 128 (0x08A23540 * 2 ^ 96) = some (.cpyMma 10 2 3 1 0 1 1 0) ∧
    decodeTableWord 96 (0x5C5187E4 * 2 ^ 64) = some (.amoCas 5 6 7 3 4 1) ∧
    decodeTableWord 128 (0x50518900 * 2 ^ 96) = some (.kvwalk 5 6 9 0) ∧
    decodeTableWord 128 (0x30800080 * 2 ^ 96) = some (.barWait 4 0 1 0)

/-- Decoding the encoding of any well-formed slot instruction gives the instruction back (R264, R266, R267, R269, R272, R273,
R274, R275, R298). For every well-formed instruction of the four slot positions, at every value of every operand that the
encoding admits, the 128 bits of the bundle that holds it alone (with a header where its memory immediate needs the lent bits)
decode to exactly that bundle, and the decoder reads from them that instruction. -/
def Obligations.DecodeReadsWhatEncodeWrites : Prop :=
  ∀ i : Instr, i.isSlot = true → i.wf = true →
    decodeBundle i.alone.encode = .ok i.alone ∧ decodeTableWord 128 i.alone.encode.toNat = some i

/-- Every step keeps memory in its canonical form (R28, R29). In every state whose device memory is in canonical form (addresses
strictly rising, no entry equal to what an unlisted address reads as), if a step answers a next state, then the memory of that
state is in canonical form: equal memories stay equal data, whatever seat, engine, host or power event wrote them. The form is
the model's own choice of representation (log entry 1). -/
def Obligations.EveryStepKeepsMemoryCanonical : Prop :=
  ∀ s t : State, Memory.wf s.mem → step s = .next t → Memory.wf t.mem
end

