-- ==== Sys2Proof/Laws/Assoc.lean ====
section
/-! SUPPORT. The finite maps: what a read after a write gives, and that writes keep the canonical form. -/

namespace Sys2Proof.Machine

@[simp] theorem alook_aput_same {α : Type} (k : Nat) (v : α) (m : Assoc α) : alook k (aput k v m) = some v := by
  induction m with
  | nil => simp [aput, alook]
  | cons e r ih =>
    obtain ⟨i, w⟩ := e
    unfold aput
    split
    · simp [alook]
    · split
      · simp [alook]
      · simp only [alook]; rw [if_neg (by omega)]; exact ih

theorem alook_aput_ne {α : Type} {j k : Nat} (h : j ≠ k) (v : α) (m : Assoc α) : alook j (aput k v m) = alook j m := by
  induction m with
  | nil => simp only [aput, alook]; rw [if_neg (by omega)]
  | cons e r ih =>
    obtain ⟨i, w⟩ := e
    unfold aput
    split
    · simp only [alook]; rw [if_neg (by omega)]
    · split
      · subst_vars; simp only [alook]; rw [if_neg (by omega), if_neg (by omega)]
      · simp only [alook]; rw [ih]

@[simp] theorem alook_adel_same {α : Type} (k : Nat) (m : Assoc α) : alook k (adel k m) = none := by
  induction m with
  | nil => rfl
  | cons e r ih =>
    obtain ⟨i, w⟩ := e
    unfold adel
    split
    · exact ih
    · simp only [alook]; rw [if_neg ‹_›]; exact ih

theorem alook_adel_ne {α : Type} {j k : Nat} (h : j ≠ k) (m : Assoc α) : alook j (adel k m) = alook j m := by
  induction m with
  | nil => rfl
  | cons e r ih =>
    obtain ⟨i, w⟩ := e
    unfold adel
    split
    · subst_vars; rw [ih]; simp only [alook]; rw [if_neg (by omega)]
    · simp only [alook]; rw [ih]

@[simp] theorem aget_aput_same {α : Type} (d : α) (k : Nat) (v : α) (m : Assoc α) : aget d k (aput k v m) = v := by
  simp [aget]

theorem aget_aput_ne {α : Type} (d : α) {j k : Nat} (h : j ≠ k) (v : α) (m : Assoc α) :
    aget d j (aput k v m) = aget d j m := by
  simp [aget, alook_aput_ne h]

/-- A read after a write to the same place gives the value written, listed or not. -/
@[simp] theorem aget_aputD_same {α : Type} [DecidableEq α] (d : α) (k : Nat) (v : α) (m : Assoc α) :
    aget d k (aputD d k v m) = v := by
  unfold aputD
  split
  · subst_vars; simp [aget]
  · simp

/-- A write leaves every other place alone. -/
theorem aget_aputD_ne {α : Type} [DecidableEq α] (d : α) {j k : Nat} (h : j ≠ k) (v : α) (m : Assoc α) :
    aget d j (aputD d k v m) = aget d j m := by
  unfold aputD
  split
  · simp [aget, alook_adel_ne h]
  · simp [aget, alook_aput_ne h]

/-! The canonical form, as a lower bound on every key: it passes through the recursion of the writes. -/

/-- Every key is above a bound, keys rise, and no value is the default. -/
def aabove {α : Type} [DecidableEq α] (d : α) : Nat → Assoc α → Prop
  | _, [] => True
  | lo, (i, v) :: r => lo ≤ i ∧ v ≠ d ∧ aabove d (i + 1) r

theorem aabove_mono {α : Type} [DecidableEq α] (d : α) {lo lo' : Nat} (h : lo' ≤ lo) :
    ∀ {m : Assoc α}, aabove d lo m → aabove d lo' m
  | [], _ => trivial
  | (_, _) :: _, ⟨h1, h2, h3⟩ => ⟨by omega, h2, h3⟩

theorem acanon_iff_above {α : Type} [DecidableEq α] (d : α) (m : Assoc α) : acanon d m = true ↔ aabove d 0 m := by
  have key : ∀ (m : Assoc α) (i : Nat) (v : α), acanon d ((i, v) :: m) = true ↔ (v ≠ d ∧ aabove d (i + 1) m) := by
    intro m
    induction m with
    | nil => intro i v; simp [acanon, arising, aabove]
    | cons e r ih =>
      intro i v
      obtain ⟨j, w⟩ := e
      have h := ih j w
      simp only [acanon, arising, aabove, List.all_cons, Bool.and_eq_true, decide_eq_true_eq, bne_iff_ne] at h ⊢
      constructor
      · rintro ⟨⟨a, b⟩, c, f⟩
        exact ⟨c, by omega, h.1 ⟨b, f⟩⟩
      · rintro ⟨c, a, f⟩
        exact ⟨⟨by omega, (h.2 f).1⟩, c, (h.2 f).2⟩
  cases m with
  | nil => simp [acanon, arising, aabove]
  | cons e r =>
    obtain ⟨i, v⟩ := e
    rw [key]; simp [aabove]

theorem aabove_aput {α : Type} [DecidableEq α] (d : α) (k : Nat) (v : α) (hv : v ≠ d) :
    ∀ {lo : Nat} {m : Assoc α}, lo ≤ k → aabove d lo m → aabove d lo (aput k v m)
  | _, [], hk, _ => ⟨hk, hv, trivial⟩
  | lo, (i, w) :: r, hk, ⟨h1, h2, h3⟩ => by
    unfold aput
    split
    · exact ⟨hk, hv, by omega, h2, h3⟩
    · split
      · subst_vars; exact ⟨hk, hv, h3⟩
      · exact ⟨h1, h2, aabove_aput d k v hv (by omega) h3⟩

theorem aabove_adel {α : Type} [DecidableEq α] (d : α) (k : Nat) :
    ∀ {lo : Nat} {m : Assoc α}, aabove d lo m → aabove d lo (adel k m)
  | _, [], _ => trivial
  | lo, (i, w) :: r, ⟨h1, h2, h3⟩ => by
    unfold adel
    split
    · exact aabove_adel d k (aabove_mono d (by omega) h3)
    · exact ⟨h1, h2, aabove_adel d k h3⟩

/-- A write keeps the canonical form. -/
theorem acanon_aputD {α : Type} [DecidableEq α] (d : α) (k : Nat) (v : α) {m : Assoc α} (h : acanon d m = true) :
    acanon d (aputD d k v m) = true := by
  rw [acanon_iff_above] at h ⊢
  unfold aputD
  split
  · exact aabove_adel d k h
  · exact aabove_aput d k v ‹_› (Nat.zero_le _) h

theorem aabove_filter {α : Type} [DecidableEq α] (d : α) (p : Nat × α → Bool) :
    ∀ {lo : Nat} {m : Assoc α}, aabove d lo m → aabove d lo (m.filter p)
  | _, [], _ => trivial
  | lo, (i, w) :: r, ⟨h1, h2, h3⟩ => by
    rw [List.filter_cons]
    split
    · exact ⟨h1, h2, aabove_filter d p h3⟩
    · exact aabove_mono d (by omega) (aabove_filter d p h3)

/-- Dropping entries keeps the canonical form. -/
theorem acanon_filter {α : Type} [DecidableEq α] (d : α) (p : Nat × α → Bool) {m : Assoc α} (h : acanon d m = true) :
    acanon d (m.filter p) = true := by
  rw [acanon_iff_above] at h ⊢
  exact aabove_filter d p h

end Sys2Proof.Machine
end

