-- ==== Sys2Proof/Laws/Decode.lean ====
section
/-! SUPPORT. The fields of an encoded word: reading a field at the place where the encoder put it gives it back (R10), one
lemma per field layout of R272 to R275, and the decoder of a position restricted to one major opcode. -/

namespace Sys2Proof.Laws

/-- A field above the low part is a field of the high part. -/
theorem field_above {w v lo n : Nat} (x : BitVec w) (y : BitVec v) (h : v ≤ lo) :
    (x ++ y).extractLsb' lo n = x.extractLsb' (lo - v) n := by
  apply BitVec.eq_of_getLsbD_eq; intro i hi
  simp only [BitVec.getLsbD_extractLsb', BitVec.getLsbD_append]
  have : ¬ (lo + i < v) := by omega
  simp [this, hi]; congr 1; omega

/-- A field inside the low part is a field of the low part. -/
theorem field_within {w v lo n : Nat} (x : BitVec w) (y : BitVec v) (h : lo + n ≤ v) :
    (x ++ y).extractLsb' lo n = y.extractLsb' lo n := by
  apply BitVec.eq_of_getLsbD_eq; intro i hi
  simp only [BitVec.getLsbD_extractLsb', BitVec.getLsbD_append]
  have : lo + i < v := by omega
  simp [this, hi]

/-- The high part itself. -/
theorem field_top {n v : Nat} (x : BitVec n) (y : BitVec v) : (x ++ y).extractLsb' v n = x := by
  rw [field_above x y (Nat.le_refl v)]; simp

/-- The whole word. -/
theorem field_all {n : Nat} (x : BitVec n) : x.extractLsb' 0 n = x := by simp

/-- A word with a major opcode other than 0 is not the all-zero word of NOP (R265). -/
theorem word_ne_zero {w : W32} {m : BitVec 6} (h : fld w 26 6 = m) (hm : m ≠ 0#6) : w ≠ 0#32 := by
  rintro rfl; exact hm (h.symm.trans (by decide))

theorem layout_6_1_3_4_4_3_1_6_4 {w : W32} (p0 : BitVec 6) (p1 : BitVec 1) (p2 : BitVec 3) (p3 : BitVec 4) (p4 : BitVec 4) (p5 : BitVec 3) (p6 : BitVec 1) (p7 : BitVec 6) (p8 : BitVec 4) (h : w = p0 ++ (p1 ++ (p2 ++ (p3 ++ (p4 ++ (p5 ++ (p6 ++ (p7 ++ (p8))))))))) :
    fld w 26 6 = p0 ∧ fld w 25 1 = p1 ∧ fld w 22 3 = p2 ∧ fld w 18 4 = p3 ∧ fld w 14 4 = p4 ∧ fld w 11 3 = p5 ∧ fld w 10 1 = p6 ∧ fld w 4 6 = p7 ∧ fld w 0 4 = p8 := by
  subst h
  exact ⟨field_top p0 (p1 ++ (p2 ++ (p3 ++ (p4 ++ (p5 ++ (p6 ++ (p7 ++ (p8)))))))),
    (field_within (v := 26) (lo := 25) (n := 1) p0 (p1 ++ (p2 ++ (p3 ++ (p4 ++ (p5 ++ (p6 ++ (p7 ++ (p8)))))))) (by decide)).trans (field_top p1 (p2 ++ (p3 ++ (p4 ++ (p5 ++ (p6 ++ (p7 ++ (p8)))))))),
    (field_within (v := 26) (lo := 22) (n := 3) p0 (p1 ++ (p2 ++ (p3 ++ (p4 ++ (p5 ++ (p6 ++ (p7 ++ (p8)))))))) (by decide)).trans ((field_within (v := 25) (lo := 22) (n := 3) p1 (p2 ++ (p3 ++ (p4 ++ (p5 ++ (p6 ++ (p7 ++ (p8))))))) (by decide)).trans (field_top p2 (p3 ++ (p4 ++ (p5 ++ (p6 ++ (p7 ++ (p8)))))))),
    (field_within (v := 26) (lo := 18) (n := 4) p0 (p1 ++ (p2 ++ (p3 ++ (p4 ++ (p5 ++ (p6 ++ (p7 ++ (p8)))))))) (by decide)).trans ((field_within (v := 25) (lo := 18) (n := 4) p1 (p2 ++ (p3 ++ (p4 ++ (p5 ++ (p6 ++ (p7 ++ (p8))))))) (by decide)).trans ((field_within (v := 22) (lo := 18) (n := 4) p2 (p3 ++ (p4 ++ (p5 ++ (p6 ++ (p7 ++ (p8)))))) (by decide)).trans (field_top p3 (p4 ++ (p5 ++ (p6 ++ (p7 ++ (p8)))))))),
    (field_within (v := 26) (lo := 14) (n := 4) p0 (p1 ++ (p2 ++ (p3 ++ (p4 ++ (p5 ++ (p6 ++ (p7 ++ (p8)))))))) (by decide)).trans ((field_within (v := 25) (lo := 14) (n := 4) p1 (p2 ++ (p3 ++ (p4 ++ (p5 ++ (p6 ++ (p7 ++ (p8))))))) (by decide)).trans ((field_within (v := 22) (lo := 14) (n := 4) p2 (p3 ++ (p4 ++ (p5 ++ (p6 ++ (p7 ++ (p8)))))) (by decide)).trans ((field_within (v := 18) (lo := 14) (n := 4) p3 (p4 ++ (p5 ++ (p6 ++ (p7 ++ (p8))))) (by decide)).trans (field_top p4 (p5 ++ (p6 ++ (p7 ++ (p8)))))))),
    (field_within (v := 26) (lo := 11) (n := 3) p0 (p1 ++ (p2 ++ (p3 ++ (p4 ++ (p5 ++ (p6 ++ (p7 ++ (p8)))))))) (by decide)).trans ((field_within (v := 25) (lo := 11) (n := 3) p1 (p2 ++ (p3 ++ (p4 ++ (p5 ++ (p6 ++ (p7 ++ (p8))))))) (by decide)).trans ((field_within (v := 22) (lo := 11) (n := 3) p2 (p3 ++ (p4 ++ (p5 ++ (p6 ++ (p7 ++ (p8)))))) (by decide)).trans ((field_within (v := 18) (lo := 11) (n := 3) p3 (p4 ++ (p5 ++ (p6 ++ (p7 ++ (p8))))) (by decide)).trans ((field_within (v := 14) (lo := 11) (n := 3) p4 (p5 ++ (p6 ++ (p7 ++ (p8)))) (by decide)).trans (field_top p5 (p6 ++ (p7 ++ (p8)))))))),
    (field_within (v := 26) (lo := 10) (n := 1) p0 (p1 ++ (p2 ++ (p3 ++ (p4 ++ (p5 ++ (p6 ++ (p7 ++ (p8)))))))) (by decide)).trans ((field_within (v := 25) (lo := 10) (n := 1) p1 (p2 ++ (p3 ++ (p4 ++ (p5 ++ (p6 ++ (p7 ++ (p8))))))) (by decide)).trans ((field_within (v := 22) (lo := 10) (n := 1) p2 (p3 ++ (p4 ++ (p5 ++ (p6 ++ (p7 ++ (p8)))))) (by decide)).trans ((field_within (v := 18) (lo := 10) (n := 1) p3 (p4 ++ (p5 ++ (p6 ++ (p7 ++ (p8))))) (by decide)).trans ((field_within (v := 14) (lo := 10) (n := 1) p4 (p5 ++ (p6 ++ (p7 ++ (p8)))) (by decide)).trans ((field_within (v := 11) (lo := 10) (n := 1) p5 (p6 ++ (p7 ++ (p8))) (by decide)).trans (field_top p6 (p7 ++ (p8)))))))),
    (field_within (v := 26) (lo := 4) (n := 6) p0 (p1 ++ (p2 ++ (p3 ++ (p4 ++ (p5 ++ (p6 ++ (p7 ++ (p8)))))))) (by decide)).trans ((field_within (v := 25) (lo := 4) (n := 6) p1 (p2 ++ (p3 ++ (p4 ++ (p5 ++ (p6 ++ (p7 ++ (p8))))))) (by decide)).trans ((field_within (v := 22) (lo := 4) (n := 6) p2 (p3 ++ (p4 ++ (p5 ++ (p6 ++ (p7 ++ (p8)))))) (by decide)).trans ((field_within (v := 18) (lo := 4) (n := 6) p3 (p4 ++ (p5 ++ (p6 ++ (p7 ++ (p8))))) (by decide)).trans ((field_within (v := 14) (lo := 4) (n := 6) p4 (p5 ++ (p6 ++ (p7 ++ (p8)))) (by decide)).trans ((field_within (v := 11) (lo := 4) (n := 6) p5 (p6 ++ (p7 ++ (p8))) (by decide)).trans ((field_within (v := 10) (lo := 4) (n := 6) p6 (p7 ++ (p8)) (by decide)).trans (field_top p7 (p8)))))))),
    (field_within (v := 26) (lo := 0) (n := 4) p0 (p1 ++ (p2 ++ (p3 ++ (p4 ++ (p5 ++ (p6 ++ (p7 ++ (p8)))))))) (by decide)).trans ((field_within (v := 25) (lo := 0) (n := 4) p1 (p2 ++ (p3 ++ (p4 ++ (p5 ++ (p6 ++ (p7 ++ (p8))))))) (by decide)).trans ((field_within (v := 22) (lo := 0) (n := 4) p2 (p3 ++ (p4 ++ (p5 ++ (p6 ++ (p7 ++ (p8)))))) (by decide)).trans ((field_within (v := 18) (lo := 0) (n := 4) p3 (p4 ++ (p5 ++ (p6 ++ (p7 ++ (p8))))) (by decide)).trans ((field_within (v := 14) (lo := 0) (n := 4) p4 (p5 ++ (p6 ++ (p7 ++ (p8)))) (by decide)).trans ((field_within (v := 11) (lo := 0) (n := 4) p5 (p6 ++ (p7 ++ (p8))) (by decide)).trans ((field_within (v := 10) (lo := 0) (n := 4) p6 (p7 ++ (p8)) (by decide)).trans ((field_within (v := 4) (lo := 0) (n := 4) p7 (p8) (by decide)).trans (field_all p8))))))))⟩

theorem layout_6_1_3_6_6_3_3_4 {w : W32} (p0 : BitVec 6) (p1 : BitVec 1) (p2 : BitVec 3) (p3 : BitVec 6) (p4 : BitVec 6) (p5 : BitVec 3) (p6 : BitVec 3) (p7 : BitVec 4) (h : w = p0 ++ (p1 ++ (p2 ++ (p3 ++ (p4 ++ (p5 ++ (p6 ++ (p7)))))))) :
    fld w 26 6 = p0 ∧ fld w 25 1 = p1 ∧ fld w 22 3 = p2 ∧ fld w 16 6 = p3 ∧ fld w 10 6 = p4 ∧ fld w 7 3 = p5 ∧ fld w 4 3 = p6 ∧ fld w 0 4 = p7 := by
  subst h
  exact ⟨field_top p0 (p1 ++ (p2 ++ (p3 ++ (p4 ++ (p5 ++ (p6 ++ (p7))))))),
    (field_within (v := 26) (lo := 25) (n := 1) p0 (p1 ++ (p2 ++ (p3 ++ (p4 ++ (p5 ++ (p6 ++ (p7))))))) (by decide)).trans (field_top p1 (p2 ++ (p3 ++ (p4 ++ (p5 ++ (p6 ++ (p7))))))),
    (field_within (v := 26) (lo := 22) (n := 3) p0 (p1 ++ (p2 ++ (p3 ++ (p4 ++ (p5 ++ (p6 ++ (p7))))))) (by decide)).trans ((field_within (v := 25) (lo := 22) (n := 3) p1 (p2 ++ (p3 ++ (p4 ++ (p5 ++ (p6 ++ (p7)))))) (by decide)).trans (field_top p2 (p3 ++ (p4 ++ (p5 ++ (p6 ++ (p7))))))),
    (field_within (v := 26) (lo := 16) (n := 6) p0 (p1 ++ (p2 ++ (p3 ++ (p4 ++ (p5 ++ (p6 ++ (p7))))))) (by decide)).trans ((field_within (v := 25) (lo := 16) (n := 6) p1 (p2 ++ (p3 ++ (p4 ++ (p5 ++ (p6 ++ (p7)))))) (by decide)).trans ((field_within (v := 22) (lo := 16) (n := 6) p2 (p3 ++ (p4 ++ (p5 ++ (p6 ++ (p7))))) (by decide)).trans (field_top p3 (p4 ++ (p5 ++ (p6 ++ (p7))))))),
    (field_within (v := 26) (lo := 10) (n := 6) p0 (p1 ++ (p2 ++ (p3 ++ (p4 ++ (p5 ++ (p6 ++ (p7))))))) (by decide)).trans ((field_within (v := 25) (lo := 10) (n := 6) p1 (p2 ++ (p3 ++ (p4 ++ (p5 ++ (p6 ++ (p7)))))) (by decide)).trans ((field_within (v := 22) (lo := 10) (n := 6) p2 (p3 ++ (p4 ++ (p5 ++ (p6 ++ (p7))))) (by decide)).trans ((field_within (v := 16) (lo := 10) (n := 6) p3 (p4 ++ (p5 ++ (p6 ++ (p7)))) (by decide)).trans (field_top p4 (p5 ++ (p6 ++ (p7))))))),
    (field_within (v := 26) (lo := 7) (n := 3) p0 (p1 ++ (p2 ++ (p3 ++ (p4 ++ (p5 ++ (p6 ++ (p7))))))) (by decide)).trans ((field_within (v := 25) (lo := 7) (n := 3) p1 (p2 ++ (p3 ++ (p4 ++ (p5 ++ (p6 ++ (p7)))))) (by decide)).trans ((field_within (v := 22) (lo := 7) (n := 3) p2 (p3 ++ (p4 ++ (p5 ++ (p6 ++ (p7))))) (by decide)).trans ((field_within (v := 16) (lo := 7) (n := 3) p3 (p4 ++ (p5 ++ (p6 ++ (p7)))) (by decide)).trans ((field_within (v := 10) (lo := 7) (n := 3) p4 (p5 ++ (p6 ++ (p7))) (by decide)).trans (field_top p5 (p6 ++ (p7))))))),
    (field_within (v := 26) (lo := 4) (n := 3) p0 (p1 ++ (p2 ++ (p3 ++ (p4 ++ (p5 ++ (p6 ++ (p7))))))) (by decide)).trans ((field_within (v := 25) (lo := 4) (n := 3) p1 (p2 ++ (p3 ++ (p4 ++ (p5 ++ (p6 ++ (p7)))))) (by decide)).trans ((field_within (v := 22) (lo := 4) (n := 3) p2 (p3 ++ (p4 ++ (p5 ++ (p6 ++ (p7))))) (by decide)).trans ((field_within (v := 16) (lo := 4) (n := 3) p3 (p4 ++ (p5 ++ (p6 ++ (p7)))) (by decide)).trans ((field_within (v := 10) (lo := 4) (n := 3) p4 (p5 ++ (p6 ++ (p7))) (by decide)).trans ((field_within (v := 7) (lo := 4) (n := 3) p5 (p6 ++ (p7)) (by decide)).trans (field_top p6 (p7))))))),
    (field_within (v := 26) (lo := 0) (n := 4) p0 (p1 ++ (p2 ++ (p3 ++ (p4 ++ (p5 ++ (p6 ++ (p7))))))) (by decide)).trans ((field_within (v := 25) (lo := 0) (n := 4) p1 (p2 ++ (p3 ++ (p4 ++ (p5 ++ (p6 ++ (p7)))))) (by decide)).trans ((field_within (v := 22) (lo := 0) (n := 4) p2 (p3 ++ (p4 ++ (p5 ++ (p6 ++ (p7))))) (by decide)).trans ((field_within (v := 16) (lo := 0) (n := 4) p3 (p4 ++ (p5 ++ (p6 ++ (p7)))) (by decide)).trans ((field_within (v := 10) (lo := 0) (n := 4) p4 (p5 ++ (p6 ++ (p7))) (by decide)).trans ((field_within (v := 7) (lo := 0) (n := 4) p5 (p6 ++ (p7)) (by decide)).trans ((field_within (v := 4) (lo := 0) (n := 4) p6 (p7) (by decide)).trans (field_all p7)))))))⟩

theorem layout_6_2_4_4_4_8_4 {w : W32} (p0 : BitVec 6) (p1 : BitVec 2) (p2 : BitVec 4) (p3 : BitVec 4) (p4 : BitVec 4) (p5 : BitVec 8) (p6 : BitVec 4) (h : w = p0 ++ (p1 ++ (p2 ++ (p3 ++ (p4 ++ (p5 ++ (p6))))))) :
    fld w 26 6 = p0 ∧ fld w 24 2 = p1 ∧ fld w 20 4 = p2 ∧ fld w 16 4 = p3 ∧ fld w 12 4 = p4 ∧ fld w 4 8 = p5 ∧ fld w 0 4 = p6 := by
  subst h
  exact ⟨field_top p0 (p1 ++ (p2 ++ (p3 ++ (p4 ++ (p5 ++ (p6)))))),
    (field_within (v := 26) (lo := 24) (n := 2) p0 (p1 ++ (p2 ++ (p3 ++ (p4 ++ (p5 ++ (p6)))))) (by decide)).trans (field_top p1 (p2 ++ (p3 ++ (p4 ++ (p5 ++ (p6)))))),
    (field_within (v := 26) (lo := 20) (n := 4) p0 (p1 ++ (p2 ++ (p3 ++ (p4 ++ (p5 ++ (p6)))))) (by decide)).trans ((field_within (v := 24) (lo := 20) (n := 4) p1 (p2 ++ (p3 ++ (p4 ++ (p5 ++ (p6))))) (by decide)).trans (field_top p2 (p3 ++ (p4 ++ (p5 ++ (p6)))))),
    (field_within (v := 26) (lo := 16) (n := 4) p0 (p1 ++ (p2 ++ (p3 ++ (p4 ++ (p5 ++ (p6)))))) (by decide)).trans ((field_within (v := 24) (lo := 16) (n := 4) p1 (p2 ++ (p3 ++ (p4 ++ (p5 ++ (p6))))) (by decide)).trans ((field_within (v := 20) (lo := 16) (n := 4) p2 (p3 ++ (p4 ++ (p5 ++ (p6)))) (by decide)).trans (field_top p3 (p4 ++ (p5 ++ (p6)))))),
    (field_within (v := 26) (lo := 12) (n := 4) p0 (p1 ++ (p2 ++ (p3 ++ (p4 ++ (p5 ++ (p6)))))) (by decide)).trans ((field_within (v := 24) (lo := 12) (n := 4) p1 (p2 ++ (p3 ++ (p4 ++ (p5 ++ (p6))))) (by decide)).trans ((field_within (v := 20) (lo := 12) (n := 4) p2 (p3 ++ (p4 ++ (p5 ++ (p6)))) (by decide)).trans ((field_within (v := 16) (lo := 12) (n := 4) p3 (p4 ++ (p5 ++ (p6))) (by decide)).trans (field_top p4 (p5 ++ (p6)))))),
    (field_within (v := 26) (lo := 4) (n := 8) p0 (p1 ++ (p2 ++ (p3 ++ (p4 ++ (p5 ++ (p6)))))) (by decide)).trans ((field_within (v := 24) (lo := 4) (n := 8) p1 (p2 ++ (p3 ++ (p4 ++ (p5 ++ (p6))))) (by decide)).trans ((field_within (v := 20) (lo := 4) (n := 8) p2 (p3 ++ (p4 ++ (p5 ++ (p6)))) (by decide)).trans ((field_within (v := 16) (lo := 4) (n := 8) p3 (p4 ++ (p5 ++ (p6))) (by decide)).trans ((field_within (v := 12) (lo := 4) (n := 8) p4 (p5 ++ (p6)) (by decide)).trans (field_top p5 (p6)))))),
    (field_within (v := 26) (lo := 0) (n := 4) p0 (p1 ++ (p2 ++ (p3 ++ (p4 ++ (p5 ++ (p6)))))) (by decide)).trans ((field_within (v := 24) (lo := 0) (n := 4) p1 (p2 ++ (p3 ++ (p4 ++ (p5 ++ (p6))))) (by decide)).trans ((field_within (v := 20) (lo := 0) (n := 4) p2 (p3 ++ (p4 ++ (p5 ++ (p6)))) (by decide)).trans ((field_within (v := 16) (lo := 0) (n := 4) p3 (p4 ++ (p5 ++ (p6))) (by decide)).trans ((field_within (v := 12) (lo := 0) (n := 4) p4 (p5 ++ (p6)) (by decide)).trans ((field_within (v := 4) (lo := 0) (n := 4) p5 (p6) (by decide)).trans (field_all p6))))))⟩

theorem layout_6_2_6_1_13_4 {w : W32} (p0 : BitVec 6) (p1 : BitVec 2) (p2 : BitVec 6) (p3 : BitVec 1) (p4 : BitVec 13) (p5 : BitVec 4) (h : w = p0 ++ (p1 ++ (p2 ++ (p3 ++ (p4 ++ (p5)))))) :
    fld w 26 6 = p0 ∧ fld w 24 2 = p1 ∧ fld w 18 6 = p2 ∧ fld w 17 1 = p3 ∧ fld w 4 13 = p4 ∧ fld w 0 4 = p5 := by
  subst h
  exact ⟨field_top p0 (p1 ++ (p2 ++ (p3 ++ (p4 ++ (p5))))),
    (field_within (v := 26) (lo := 24) (n := 2) p0 (p1 ++ (p2 ++ (p3 ++ (p4 ++ (p5))))) (by decide)).trans (field_top p1 (p2 ++ (p3 ++ (p4 ++ (p5))))),
    (field_within (v := 26) (lo := 18) (n := 6) p0 (p1 ++ (p2 ++ (p3 ++ (p4 ++ (p5))))) (by decide)).trans ((field_within (v := 24) (lo := 18) (n := 6) p1 (p2 ++ (p3 ++ (p4 ++ (p5)))) (by decide)).trans (field_top p2 (p3 ++ (p4 ++ (p5))))),
    (field_within (v := 26) (lo := 17) (n := 1) p0 (p1 ++ (p2 ++ (p3 ++ (p4 ++ (p5))))) (by decide)).trans ((field_within (v := 24) (lo := 17) (n := 1) p1 (p2 ++ (p3 ++ (p4 ++ (p5)))) (by decide)).trans ((field_within (v := 18) (lo := 17) (n := 1) p2 (p3 ++ (p4 ++ (p5))) (by decide)).trans (field_top p3 (p4 ++ (p5))))),
    (field_within (v := 26) (lo := 4) (n := 13) p0 (p1 ++ (p2 ++ (p3 ++ (p4 ++ (p5))))) (by decide)).trans ((field_within (v := 24) (lo := 4) (n := 13) p1 (p2 ++ (p3 ++ (p4 ++ (p5)))) (by decide)).trans ((field_within (v := 18) (lo := 4) (n := 13) p2 (p3 ++ (p4 ++ (p5))) (by decide)).trans ((field_within (v := 17) (lo := 4) (n := 13) p3 (p4 ++ (p5)) (by decide)).trans (field_top p4 (p5))))),
    (field_within (v := 26) (lo := 0) (n := 4) p0 (p1 ++ (p2 ++ (p3 ++ (p4 ++ (p5))))) (by decide)).trans ((field_within (v := 24) (lo := 0) (n := 4) p1 (p2 ++ (p3 ++ (p4 ++ (p5)))) (by decide)).trans ((field_within (v := 18) (lo := 0) (n := 4) p2 (p3 ++ (p4 ++ (p5))) (by decide)).trans ((field_within (v := 17) (lo := 0) (n := 4) p3 (p4 ++ (p5)) (by decide)).trans ((field_within (v := 4) (lo := 0) (n := 4) p4 (p5) (by decide)).trans (field_all p5)))))⟩

theorem layout_6_3_2_17_4 {w : W32} (p0 : BitVec 6) (p1 : BitVec 3) (p2 : BitVec 2) (p3 : BitVec 17) (p4 : BitVec 4) (h : w = p0 ++ (p1 ++ (p2 ++ (p3 ++ (p4))))) :
    fld w 26 6 = p0 ∧ fld w 23 3 = p1 ∧ fld w 21 2 = p2 ∧ fld w 4 17 = p3 ∧ fld w 0 4 = p4 := by
  subst h
  exact ⟨field_top p0 (p1 ++ (p2 ++ (p3 ++ (p4)))),
    (field_within (v := 26) (lo := 23) (n := 3) p0 (p1 ++ (p2 ++ (p3 ++ (p4)))) (by decide)).trans (field_top p1 (p2 ++ (p3 ++ (p4)))),
    (field_within (v := 26) (lo := 21) (n := 2) p0 (p1 ++ (p2 ++ (p3 ++ (p4)))) (by decide)).trans ((field_within (v := 23) (lo := 21) (n := 2) p1 (p2 ++ (p3 ++ (p4))) (by decide)).trans (field_top p2 (p3 ++ (p4)))),
    (field_within (v := 26) (lo := 4) (n := 17) p0 (p1 ++ (p2 ++ (p3 ++ (p4)))) (by decide)).trans ((field_within (v := 23) (lo := 4) (n := 17) p1 (p2 ++ (p3 ++ (p4))) (by decide)).trans ((field_within (v := 21) (lo := 4) (n := 17) p2 (p3 ++ (p4)) (by decide)).trans (field_top p3 (p4)))),
    (field_within (v := 26) (lo := 0) (n := 4) p0 (p1 ++ (p2 ++ (p3 ++ (p4)))) (by decide)).trans ((field_within (v := 23) (lo := 0) (n := 4) p1 (p2 ++ (p3 ++ (p4))) (by decide)).trans ((field_within (v := 21) (lo := 0) (n := 4) p2 (p3 ++ (p4)) (by decide)).trans ((field_within (v := 4) (lo := 0) (n := 4) p3 (p4) (by decide)).trans (field_all p4))))⟩

theorem layout_6_3_3_3_13_4 {w : W32} (p0 : BitVec 6) (p1 : BitVec 3) (p2 : BitVec 3) (p3 : BitVec 3) (p4 : BitVec 13) (p5 : BitVec 4) (h : w = p0 ++ (p1 ++ (p2 ++ (p3 ++ (p4 ++ (p5)))))) :
    fld w 26 6 = p0 ∧ fld w 23 3 = p1 ∧ fld w 20 3 = p2 ∧ fld w 17 3 = p3 ∧ fld w 4 13 = p4 ∧ fld w 0 4 = p5 := by
  subst h
  exact ⟨field_top p0 (p1 ++ (p2 ++ (p3 ++ (p4 ++ (p5))))),
    (field_within (v := 26) (lo := 23) (n := 3) p0 (p1 ++ (p2 ++ (p3 ++ (p4 ++ (p5))))) (by decide)).trans (field_top p1 (p2 ++ (p3 ++ (p4 ++ (p5))))),
    (field_within (v := 26) (lo := 20) (n := 3) p0 (p1 ++ (p2 ++ (p3 ++ (p4 ++ (p5))))) (by decide)).trans ((field_within (v := 23) (lo := 20) (n := 3) p1 (p2 ++ (p3 ++ (p4 ++ (p5)))) (by decide)).trans (field_top p2 (p3 ++ (p4 ++ (p5))))),
    (field_within (v := 26) (lo := 17) (n := 3) p0 (p1 ++ (p2 ++ (p3 ++ (p4 ++ (p5))))) (by decide)).trans ((field_within (v := 23) (lo := 17) (n := 3) p1 (p2 ++ (p3 ++ (p4 ++ (p5)))) (by decide)).trans ((field_within (v := 20) (lo := 17) (n := 3) p2 (p3 ++ (p4 ++ (p5))) (by decide)).trans (field_top p3 (p4 ++ (p5))))),
    (field_within (v := 26) (lo := 4) (n := 13) p0 (p1 ++ (p2 ++ (p3 ++ (p4 ++ (p5))))) (by decide)).trans ((field_within (v := 23) (lo := 4) (n := 13) p1 (p2 ++ (p3 ++ (p4 ++ (p5)))) (by decide)).trans ((field_within (v := 20) (lo := 4) (n := 13) p2 (p3 ++ (p4 ++ (p5))) (by decide)).trans ((field_within (v := 17) (lo := 4) (n := 13) p3 (p4 ++ (p5)) (by decide)).trans (field_top p4 (p5))))),
    (field_within (v := 26) (lo := 0) (n := 4) p0 (p1 ++ (p2 ++ (p3 ++ (p4 ++ (p5))))) (by decide)).trans ((field_within (v := 23) (lo := 0) (n := 4) p1 (p2 ++ (p3 ++ (p4 ++ (p5)))) (by decide)).trans ((field_within (v := 20) (lo := 0) (n := 4) p2 (p3 ++ (p4 ++ (p5))) (by decide)).trans ((field_within (v := 17) (lo := 0) (n := 4) p3 (p4 ++ (p5)) (by decide)).trans ((field_within (v := 4) (lo := 0) (n := 4) p4 (p5) (by decide)).trans (field_all p5)))))⟩

theorem layout_6_4_1_17_4 {w : W32} (p0 : BitVec 6) (p1 : BitVec 4) (p2 : BitVec 1) (p3 : BitVec 17) (p4 : BitVec 4) (h : w = p0 ++ (p1 ++ (p2 ++ (p3 ++ (p4))))) :
    fld w 26 6 = p0 ∧ fld w 22 4 = p1 ∧ fld w 21 1 = p2 ∧ fld w 4 17 = p3 ∧ fld w 0 4 = p4 := by
  subst h
  exact ⟨field_top p0 (p1 ++ (p2 ++ (p3 ++ (p4)))),
    (field_within (v := 26) (lo := 22) (n := 4) p0 (p1 ++ (p2 ++ (p3 ++ (p4)))) (by decide)).trans (field_top p1 (p2 ++ (p3 ++ (p4)))),
    (field_within (v := 26) (lo := 21) (n := 1) p0 (p1 ++ (p2 ++ (p3 ++ (p4)))) (by decide)).trans ((field_within (v := 22) (lo := 21) (n := 1) p1 (p2 ++ (p3 ++ (p4))) (by decide)).trans (field_top p2 (p3 ++ (p4)))),
    (field_within (v := 26) (lo := 4) (n := 17) p0 (p1 ++ (p2 ++ (p3 ++ (p4)))) (by decide)).trans ((field_within (v := 22) (lo := 4) (n := 17) p1 (p2 ++ (p3 ++ (p4))) (by decide)).trans ((field_within (v := 21) (lo := 4) (n := 17) p2 (p3 ++ (p4)) (by decide)).trans (field_top p3 (p4)))),
    (field_within (v := 26) (lo := 0) (n := 4) p0 (p1 ++ (p2 ++ (p3 ++ (p4)))) (by decide)).trans ((field_within (v := 22) (lo := 0) (n := 4) p1 (p2 ++ (p3 ++ (p4))) (by decide)).trans ((field_within (v := 21) (lo := 0) (n := 4) p2 (p3 ++ (p4)) (by decide)).trans ((field_within (v := 4) (lo := 0) (n := 4) p3 (p4) (by decide)).trans (field_all p4))))⟩

theorem layout_6_5_2_2_1_12_4 {w : W32} (p0 : BitVec 6) (p1 : BitVec 5) (p2 : BitVec 2) (p3 : BitVec 2) (p4 : BitVec 1) (p5 : BitVec 12) (p6 : BitVec 4) (h : w = p0 ++ (p1 ++ (p2 ++ (p3 ++ (p4 ++ (p5 ++ (p6))))))) :
    fld w 26 6 = p0 ∧ fld w 21 5 = p1 ∧ fld w 19 2 = p2 ∧ fld w 17 2 = p3 ∧ fld w 16 1 = p4 ∧ fld w 4 12 = p5 ∧ fld w 0 4 = p6 := by
  subst h
  exact ⟨field_top p0 (p1 ++ (p2 ++ (p3 ++ (p4 ++ (p5 ++ (p6)))))),
    (field_within (v := 26) (lo := 21) (n := 5) p0 (p1 ++ (p2 ++ (p3 ++ (p4 ++ (p5 ++ (p6)))))) (by decide)).trans (field_top p1 (p2 ++ (p3 ++ (p4 ++ (p5 ++ (p6)))))),
    (field_within (v := 26) (lo := 19) (n := 2) p0 (p1 ++ (p2 ++ (p3 ++ (p4 ++ (p5 ++ (p6)))))) (by decide)).trans ((field_within (v := 21) (lo := 19) (n := 2) p1 (p2 ++ (p3 ++ (p4 ++ (p5 ++ (p6))))) (by decide)).trans (field_top p2 (p3 ++ (p4 ++ (p5 ++ (p6)))))),
    (field_within (v := 26) (lo := 17) (n := 2) p0 (p1 ++ (p2 ++ (p3 ++ (p4 ++ (p5 ++ (p6)))))) (by decide)).trans ((field_within (v := 21) (lo := 17) (n := 2) p1 (p2 ++ (p3 ++ (p4 ++ (p5 ++ (p6))))) (by decide)).trans ((field_within (v := 19) (lo := 17) (n := 2) p2 (p3 ++ (p4 ++ (p5 ++ (p6)))) (by decide)).trans (field_top p3 (p4 ++ (p5 ++ (p6)))))),
    (field_within (v := 26) (lo := 16) (n := 1) p0 (p1 ++ (p2 ++ (p3 ++ (p4 ++ (p5 ++ (p6)))))) (by decide)).trans ((field_within (v := 21) (lo := 16) (n := 1) p1 (p2 ++ (p3 ++ (p4 ++ (p5 ++ (p6))))) (by decide)).trans ((field_within (v := 19) (lo := 16) (n := 1) p2 (p3 ++ (p4 ++ (p5 ++ (p6)))) (by decide)).trans ((field_within (v := 17) (lo := 16) (n := 1) p3 (p4 ++ (p5 ++ (p6))) (by decide)).trans (field_top p4 (p5 ++ (p6)))))),
    (field_within (v := 26) (lo := 4) (n := 12) p0 (p1 ++ (p2 ++ (p3 ++ (p4 ++ (p5 ++ (p6)))))) (by decide)).trans ((field_within (v := 21) (lo := 4) (n := 12) p1 (p2 ++ (p3 ++ (p4 ++ (p5 ++ (p6))))) (by decide)).trans ((field_within (v := 19) (lo := 4) (n := 12) p2 (p3 ++ (p4 ++ (p5 ++ (p6)))) (by decide)).trans ((field_within (v := 17) (lo := 4) (n := 12) p3 (p4 ++ (p5 ++ (p6))) (by decide)).trans ((field_within (v := 16) (lo := 4) (n := 12) p4 (p5 ++ (p6)) (by decide)).trans (field_top p5 (p6)))))),
    (field_within (v := 26) (lo := 0) (n := 4) p0 (p1 ++ (p2 ++ (p3 ++ (p4 ++ (p5 ++ (p6)))))) (by decide)).trans ((field_within (v := 21) (lo := 0) (n := 4) p1 (p2 ++ (p3 ++ (p4 ++ (p5 ++ (p6))))) (by decide)).trans ((field_within (v := 19) (lo := 0) (n := 4) p2 (p3 ++ (p4 ++ (p5 ++ (p6)))) (by decide)).trans ((field_within (v := 17) (lo := 0) (n := 4) p3 (p4 ++ (p5 ++ (p6))) (by decide)).trans ((field_within (v := 16) (lo := 0) (n := 4) p4 (p5 ++ (p6)) (by decide)).trans ((field_within (v := 4) (lo := 0) (n := 4) p5 (p6) (by decide)).trans (field_all p6))))))⟩

theorem layout_6_5_5_5_3_4_4 {w : W32} (p0 : BitVec 6) (p1 : BitVec 5) (p2 : BitVec 5) (p3 : BitVec 5) (p4 : BitVec 3) (p5 : BitVec 4) (p6 : BitVec 4) (h : w = p0 ++ (p1 ++ (p2 ++ (p3 ++ (p4 ++ (p5 ++ (p6))))))) :
    fld w 26 6 = p0 ∧ fld w 21 5 = p1 ∧ fld w 16 5 = p2 ∧ fld w 11 5 = p3 ∧ fld w 8 3 = p4 ∧ fld w 4 4 = p5 ∧ fld w 0 4 = p6 := by
  subst h
  exact ⟨field_top p0 (p1 ++ (p2 ++ (p3 ++ (p4 ++ (p5 ++ (p6)))))),
    (field_within (v := 26) (lo := 21) (n := 5) p0 (p1 ++ (p2 ++ (p3 ++ (p4 ++ (p5 ++ (p6)))))) (by decide)).trans (field_top p1 (p2 ++ (p3 ++ (p4 ++ (p5 ++ (p6)))))),
    (field_within (v := 26) (lo := 16) (n := 5) p0 (p1 ++ (p2 ++ (p3 ++ (p4 ++ (p5 ++ (p6)))))) (by decide)).trans ((field_within (v := 21) (lo := 16) (n := 5) p1 (p2 ++ (p3 ++ (p4 ++ (p5 ++ (p6))))) (by decide)).trans (field_top p2 (p3 ++ (p4 ++ (p5 ++ (p6)))))),
    (field_within (v := 26) (lo := 11) (n := 5) p0 (p1 ++ (p2 ++ (p3 ++ (p4 ++ (p5 ++ (p6)))))) (by decide)).trans ((field_within (v := 21) (lo := 11) (n := 5) p1 (p2 ++ (p3 ++ (p4 ++ (p5 ++ (p6))))) (by decide)).trans ((field_within (v := 16) (lo := 11) (n := 5) p2 (p3 ++ (p4 ++ (p5 ++ (p6)))) (by decide)).trans (field_top p3 (p4 ++ (p5 ++ (p6)))))),
    (field_within (v := 26) (lo := 8) (n := 3) p0 (p1 ++ (p2 ++ (p3 ++ (p4 ++ (p5 ++ (p6)))))) (by decide)).trans ((field_within (v := 21) (lo := 8) (n := 3) p1 (p2 ++ (p3 ++ (p4 ++ (p5 ++ (p6))))) (by decide)).trans ((field_within (v := 16) (lo := 8) (n := 3) p2 (p3 ++ (p4 ++ (p5 ++ (p6)))) (by decide)).trans ((field_within (v := 11) (lo := 8) (n := 3) p3 (p4 ++ (p5 ++ (p6))) (by decide)).trans (field_top p4 (p5 ++ (p6)))))),
    (field_within (v := 26) (lo := 4) (n := 4) p0 (p1 ++ (p2 ++ (p3 ++ (p4 ++ (p5 ++ (p6)))))) (by decide)).trans ((field_within (v := 21) (lo := 4) (n := 4) p1 (p2 ++ (p3 ++ (p4 ++ (p5 ++ (p6))))) (by decide)).trans ((field_within (v := 16) (lo := 4) (n := 4) p2 (p3 ++ (p4 ++ (p5 ++ (p6)))) (by decide)).trans ((field_within (v := 11) (lo := 4) (n := 4) p3 (p4 ++ (p5 ++ (p6))) (by decide)).trans ((field_within (v := 8) (lo := 4) (n := 4) p4 (p5 ++ (p6)) (by decide)).trans (field_top p5 (p6)))))),
    (field_within (v := 26) (lo := 0) (n := 4) p0 (p1 ++ (p2 ++ (p3 ++ (p4 ++ (p5 ++ (p6)))))) (by decide)).trans ((field_within (v := 21) (lo := 0) (n := 4) p1 (p2 ++ (p3 ++ (p4 ++ (p5 ++ (p6))))) (by decide)).trans ((field_within (v := 16) (lo := 0) (n := 4) p2 (p3 ++ (p4 ++ (p5 ++ (p6)))) (by decide)).trans ((field_within (v := 11) (lo := 0) (n := 4) p3 (p4 ++ (p5 ++ (p6))) (by decide)).trans ((field_within (v := 8) (lo := 0) (n := 4) p4 (p5 ++ (p6)) (by decide)).trans ((field_within (v := 4) (lo := 0) (n := 4) p5 (p6) (by decide)).trans (field_all p6))))))⟩

theorem layout_6_5_5_5_5_1_1_4 {w : W32} (p0 : BitVec 6) (p1 : BitVec 5) (p2 : BitVec 5) (p3 : BitVec 5) (p4 : BitVec 5) (p5 : BitVec 1) (p6 : BitVec 1) (p7 : BitVec 4) (h : w = p0 ++ (p1 ++ (p2 ++ (p3 ++ (p4 ++ (p5 ++ (p6 ++ (p7)))))))) :
    fld w 26 6 = p0 ∧ fld w 21 5 = p1 ∧ fld w 16 5 = p2 ∧ fld w 11 5 = p3 ∧ fld w 6 5 = p4 ∧ fld w 5 1 = p5 ∧ fld w 4 1 = p6 ∧ fld w 0 4 = p7 := by
  subst h
  exact ⟨field_top p0 (p1 ++ (p2 ++ (p3 ++ (p4 ++ (p5 ++ (p6 ++ (p7))))))),
    (field_within (v := 26) (lo := 21) (n := 5) p0 (p1 ++ (p2 ++ (p3 ++ (p4 ++ (p5 ++ (p6 ++ (p7))))))) (by decide)).trans (field_top p1 (p2 ++ (p3 ++ (p4 ++ (p5 ++ (p6 ++ (p7))))))),
    (field_within (v := 26) (lo := 16) (n := 5) p0 (p1 ++ (p2 ++ (p3 ++ (p4 ++ (p5 ++ (p6 ++ (p7))))))) (by decide)).trans ((field_within (v := 21) (lo := 16) (n := 5) p1 (p2 ++ (p3 ++ (p4 ++ (p5 ++ (p6 ++ (p7)))))) (by decide)).trans (field_top p2 (p3 ++ (p4 ++ (p5 ++ (p6 ++ (p7))))))),
    (field_within (v := 26) (lo := 11) (n := 5) p0 (p1 ++ (p2 ++ (p3 ++ (p4 ++ (p5 ++ (p6 ++ (p7))))))) (by decide)).trans ((field_within (v := 21) (lo := 11) (n := 5) p1 (p2 ++ (p3 ++ (p4 ++ (p5 ++ (p6 ++ (p7)))))) (by decide)).trans ((field_within (v := 16) (lo := 11) (n := 5) p2 (p3 ++ (p4 ++ (p5 ++ (p6 ++ (p7))))) (by decide)).trans (field_top p3 (p4 ++ (p5 ++ (p6 ++ (p7))))))),
    (field_within (v := 26) (lo := 6) (n := 5) p0 (p1 ++ (p2 ++ (p3 ++ (p4 ++ (p5 ++ (p6 ++ (p7))))))) (by decide)).trans ((field_within (v := 21) (lo := 6) (n := 5) p1 (p2 ++ (p3 ++ (p4 ++ (p5 ++ (p6 ++ (p7)))))) (by decide)).trans ((field_within (v := 16) (lo := 6) (n := 5) p2 (p3 ++ (p4 ++ (p5 ++ (p6 ++ (p7))))) (by decide)).trans ((field_within (v := 11) (lo := 6) (n := 5) p3 (p4 ++ (p5 ++ (p6 ++ (p7)))) (by decide)).trans (field_top p4 (p5 ++ (p6 ++ (p7))))))),
    (field_within (v := 26) (lo := 5) (n := 1) p0 (p1 ++ (p2 ++ (p3 ++ (p4 ++ (p5 ++ (p6 ++ (p7))))))) (by decide)).trans ((field_within (v := 21) (lo := 5) (n := 1) p1 (p2 ++ (p3 ++ (p4 ++ (p5 ++ (p6 ++ (p7)))))) (by decide)).trans ((field_within (v := 16) (lo := 5) (n := 1) p2 (p3 ++ (p4 ++ (p5 ++ (p6 ++ (p7))))) (by decide)).trans ((field_within (v := 11) (lo := 5) (n := 1) p3 (p4 ++ (p5 ++ (p6 ++ (p7)))) (by decide)).trans ((field_within (v := 6) (lo := 5) (n := 1) p4 (p5 ++ (p6 ++ (p7))) (by decide)).trans (field_top p5 (p6 ++ (p7))))))),
    (field_within (v := 26) (lo := 4) (n := 1) p0 (p1 ++ (p2 ++ (p3 ++ (p4 ++ (p5 ++ (p6 ++ (p7))))))) (by decide)).trans ((field_within (v := 21) (lo := 4) (n := 1) p1 (p2 ++ (p3 ++ (p4 ++ (p5 ++ (p6 ++ (p7)))))) (by decide)).trans ((field_within (v := 16) (lo := 4) (n := 1) p2 (p3 ++ (p4 ++ (p5 ++ (p6 ++ (p7))))) (by decide)).trans ((field_within (v := 11) (lo := 4) (n := 1) p3 (p4 ++ (p5 ++ (p6 ++ (p7)))) (by decide)).trans ((field_within (v := 6) (lo := 4) (n := 1) p4 (p5 ++ (p6 ++ (p7))) (by decide)).trans ((field_within (v := 5) (lo := 4) (n := 1) p5 (p6 ++ (p7)) (by decide)).trans (field_top p6 (p7))))))),
    (field_within (v := 26) (lo := 0) (n := 4) p0 (p1 ++ (p2 ++ (p3 ++ (p4 ++ (p5 ++ (p6 ++ (p7))))))) (by decide)).trans ((field_within (v := 21) (lo := 0) (n := 4) p1 (p2 ++ (p3 ++ (p4 ++ (p5 ++ (p6 ++ (p7)))))) (by decide)).trans ((field_within (v := 16) (lo := 0) (n := 4) p2 (p3 ++ (p4 ++ (p5 ++ (p6 ++ (p7))))) (by decide)).trans ((field_within (v := 11) (lo := 0) (n := 4) p3 (p4 ++ (p5 ++ (p6 ++ (p7)))) (by decide)).trans ((field_within (v := 6) (lo := 0) (n := 4) p4 (p5 ++ (p6 ++ (p7))) (by decide)).trans ((field_within (v := 5) (lo := 0) (n := 4) p5 (p6 ++ (p7)) (by decide)).trans ((field_within (v := 4) (lo := 0) (n := 4) p6 (p7) (by decide)).trans (field_all p7)))))))⟩

theorem layout_6_5_5_6_5_1_4 {w : W32} (p0 : BitVec 6) (p1 : BitVec 5) (p2 : BitVec 5) (p3 : BitVec 6) (p4 : BitVec 5) (p5 : BitVec 1) (p6 : BitVec 4) (h : w = p0 ++ (p1 ++ (p2 ++ (p3 ++ (p4 ++ (p5 ++ (p6))))))) :
    fld w 26 6 = p0 ∧ fld w 21 5 = p1 ∧ fld w 16 5 = p2 ∧ fld w 10 6 = p3 ∧ fld w 5 5 = p4 ∧ fld w 4 1 = p5 ∧ fld w 0 4 = p6 := by
  subst h
  exact ⟨field_top p0 (p1 ++ (p2 ++ (p3 ++ (p4 ++ (p5 ++ (p6)))))),
    (field_within (v := 26) (lo := 21) (n := 5) p0 (p1 ++ (p2 ++ (p3 ++ (p4 ++ (p5 ++ (p6)))))) (by decide)).trans (field_top p1 (p2 ++ (p3 ++ (p4 ++ (p5 ++ (p6)))))),
    (field_within (v := 26) (lo := 16) (n := 5) p0 (p1 ++ (p2 ++ (p3 ++ (p4 ++ (p5 ++ (p6)))))) (by decide)).trans ((field_within (v := 21) (lo := 16) (n := 5) p1 (p2 ++ (p3 ++ (p4 ++ (p5 ++ (p6))))) (by decide)).trans (field_top p2 (p3 ++ (p4 ++ (p5 ++ (p6)))))),
    (field_within (v := 26) (lo := 10) (n := 6) p0 (p1 ++ (p2 ++ (p3 ++ (p4 ++ (p5 ++ (p6)))))) (by decide)).trans ((field_within (v := 21) (lo := 10) (n := 6) p1 (p2 ++ (p3 ++ (p4 ++ (p5 ++ (p6))))) (by decide)).trans ((field_within (v := 16) (lo := 10) (n := 6) p2 (p3 ++ (p4 ++ (p5 ++ (p6)))) (by decide)).trans (field_top p3 (p4 ++ (p5 ++ (p6)))))),
    (field_within (v := 26) (lo := 5) (n := 5) p0 (p1 ++ (p2 ++ (p3 ++ (p4 ++ (p5 ++ (p6)))))) (by decide)).trans ((field_within (v := 21) (lo := 5) (n := 5) p1 (p2 ++ (p3 ++ (p4 ++ (p5 ++ (p6))))) (by decide)).trans ((field_within (v := 16) (lo := 5) (n := 5) p2 (p3 ++ (p4 ++ (p5 ++ (p6)))) (by decide)).trans ((field_within (v := 10) (lo := 5) (n := 5) p3 (p4 ++ (p5 ++ (p6))) (by decide)).trans (field_top p4 (p5 ++ (p6)))))),
    (field_within (v := 26) (lo := 4) (n := 1) p0 (p1 ++ (p2 ++ (p3 ++ (p4 ++ (p5 ++ (p6)))))) (by decide)).trans ((field_within (v := 21) (lo := 4) (n := 1) p1 (p2 ++ (p3 ++ (p4 ++ (p5 ++ (p6))))) (by decide)).trans ((field_within (v := 16) (lo := 4) (n := 1) p2 (p3 ++ (p4 ++ (p5 ++ (p6)))) (by decide)).trans ((field_within (v := 10) (lo := 4) (n := 1) p3 (p4 ++ (p5 ++ (p6))) (by decide)).trans ((field_within (v := 5) (lo := 4) (n := 1) p4 (p5 ++ (p6)) (by decide)).trans (field_top p5 (p6)))))),
    (field_within (v := 26) (lo := 0) (n := 4) p0 (p1 ++ (p2 ++ (p3 ++ (p4 ++ (p5 ++ (p6)))))) (by decide)).trans ((field_within (v := 21) (lo := 0) (n := 4) p1 (p2 ++ (p3 ++ (p4 ++ (p5 ++ (p6))))) (by decide)).trans ((field_within (v := 16) (lo := 0) (n := 4) p2 (p3 ++ (p4 ++ (p5 ++ (p6)))) (by decide)).trans ((field_within (v := 10) (lo := 0) (n := 4) p3 (p4 ++ (p5 ++ (p6))) (by decide)).trans ((field_within (v := 5) (lo := 0) (n := 4) p4 (p5 ++ (p6)) (by decide)).trans ((field_within (v := 4) (lo := 0) (n := 4) p5 (p6) (by decide)).trans (field_all p6))))))⟩

theorem layout_6_5_5_6_6_4 {w : W32} (p0 : BitVec 6) (p1 : BitVec 5) (p2 : BitVec 5) (p3 : BitVec 6) (p4 : BitVec 6) (p5 : BitVec 4) (h : w = p0 ++ (p1 ++ (p2 ++ (p3 ++ (p4 ++ (p5)))))) :
    fld w 26 6 = p0 ∧ fld w 21 5 = p1 ∧ fld w 16 5 = p2 ∧ fld w 10 6 = p3 ∧ fld w 4 6 = p4 ∧ fld w 0 4 = p5 := by
  subst h
  exact ⟨field_top p0 (p1 ++ (p2 ++ (p3 ++ (p4 ++ (p5))))),
    (field_within (v := 26) (lo := 21) (n := 5) p0 (p1 ++ (p2 ++ (p3 ++ (p4 ++ (p5))))) (by decide)).trans (field_top p1 (p2 ++ (p3 ++ (p4 ++ (p5))))),
    (field_within (v := 26) (lo := 16) (n := 5) p0 (p1 ++ (p2 ++ (p3 ++ (p4 ++ (p5))))) (by decide)).trans ((field_within (v := 21) (lo := 16) (n := 5) p1 (p2 ++ (p3 ++ (p4 ++ (p5)))) (by decide)).trans (field_top p2 (p3 ++ (p4 ++ (p5))))),
    (field_within (v := 26) (lo := 10) (n := 6) p0 (p1 ++ (p2 ++ (p3 ++ (p4 ++ (p5))))) (by decide)).trans ((field_within (v := 21) (lo := 10) (n := 6) p1 (p2 ++ (p3 ++ (p4 ++ (p5)))) (by decide)).trans ((field_within (v := 16) (lo := 10) (n := 6) p2 (p3 ++ (p4 ++ (p5))) (by decide)).trans (field_top p3 (p4 ++ (p5))))),
    (field_within (v := 26) (lo := 4) (n := 6) p0 (p1 ++ (p2 ++ (p3 ++ (p4 ++ (p5))))) (by decide)).trans ((field_within (v := 21) (lo := 4) (n := 6) p1 (p2 ++ (p3 ++ (p4 ++ (p5)))) (by decide)).trans ((field_within (v := 16) (lo := 4) (n := 6) p2 (p3 ++ (p4 ++ (p5))) (by decide)).trans ((field_within (v := 10) (lo := 4) (n := 6) p3 (p4 ++ (p5)) (by decide)).trans (field_top p4 (p5))))),
    (field_within (v := 26) (lo := 0) (n := 4) p0 (p1 ++ (p2 ++ (p3 ++ (p4 ++ (p5))))) (by decide)).trans ((field_within (v := 21) (lo := 0) (n := 4) p1 (p2 ++ (p3 ++ (p4 ++ (p5)))) (by decide)).trans ((field_within (v := 16) (lo := 0) (n := 4) p2 (p3 ++ (p4 ++ (p5))) (by decide)).trans ((field_within (v := 10) (lo := 0) (n := 4) p3 (p4 ++ (p5)) (by decide)).trans ((field_within (v := 4) (lo := 0) (n := 4) p4 (p5) (by decide)).trans (field_all p5)))))⟩

theorem layout_6_5_6_1_4_1_5_4 {w : W32} (p0 : BitVec 6) (p1 : BitVec 5) (p2 : BitVec 6) (p3 : BitVec 1) (p4 : BitVec 4) (p5 : BitVec 1) (p6 : BitVec 5) (p7 : BitVec 4) (h : w = p0 ++ (p1 ++ (p2 ++ (p3 ++ (p4 ++ (p5 ++ (p6 ++ (p7)))))))) :
    fld w 26 6 = p0 ∧ fld w 21 5 = p1 ∧ fld w 15 6 = p2 ∧ fld w 14 1 = p3 ∧ fld w 10 4 = p4 ∧ fld w 9 1 = p5 ∧ fld w 4 5 = p6 ∧ fld w 0 4 = p7 := by
  subst h
  exact ⟨field_top p0 (p1 ++ (p2 ++ (p3 ++ (p4 ++ (p5 ++ (p6 ++ (p7))))))),
    (field_within (v := 26) (lo := 21) (n := 5) p0 (p1 ++ (p2 ++ (p3 ++ (p4 ++ (p5 ++ (p6 ++ (p7))))))) (by decide)).trans (field_top p1 (p2 ++ (p3 ++ (p4 ++ (p5 ++ (p6 ++ (p7))))))),
    (field_within (v := 26) (lo := 15) (n := 6) p0 (p1 ++ (p2 ++ (p3 ++ (p4 ++ (p5 ++ (p6 ++ (p7))))))) (by decide)).trans ((field_within (v := 21) (lo := 15) (n := 6) p1 (p2 ++ (p3 ++ (p4 ++ (p5 ++ (p6 ++ (p7)))))) (by decide)).trans (field_top p2 (p3 ++ (p4 ++ (p5 ++ (p6 ++ (p7))))))),
    (field_within (v := 26) (lo := 14) (n := 1) p0 (p1 ++ (p2 ++ (p3 ++ (p4 ++ (p5 ++ (p6 ++ (p7))))))) (by decide)).trans ((field_within (v := 21) (lo := 14) (n := 1) p1 (p2 ++ (p3 ++ (p4 ++ (p5 ++ (p6 ++ (p7)))))) (by decide)).trans ((field_within (v := 15) (lo := 14) (n := 1) p2 (p3 ++ (p4 ++ (p5 ++ (p6 ++ (p7))))) (by decide)).trans (field_top p3 (p4 ++ (p5 ++ (p6 ++ (p7))))))),
    (field_within (v := 26) (lo := 10) (n := 4) p0 (p1 ++ (p2 ++ (p3 ++ (p4 ++ (p5 ++ (p6 ++ (p7))))))) (by decide)).trans ((field_within (v := 21) (lo := 10) (n := 4) p1 (p2 ++ (p3 ++ (p4 ++ (p5 ++ (p6 ++ (p7)))))) (by decide)).trans ((field_within (v := 15) (lo := 10) (n := 4) p2 (p3 ++ (p4 ++ (p5 ++ (p6 ++ (p7))))) (by decide)).trans ((field_within (v := 14) (lo := 10) (n := 4) p3 (p4 ++ (p5 ++ (p6 ++ (p7)))) (by decide)).trans (field_top p4 (p5 ++ (p6 ++ (p7))))))),
    (field_within (v := 26) (lo := 9) (n := 1) p0 (p1 ++ (p2 ++ (p3 ++ (p4 ++ (p5 ++ (p6 ++ (p7))))))) (by decide)).trans ((field_within (v := 21) (lo := 9) (n := 1) p1 (p2 ++ (p3 ++ (p4 ++ (p5 ++ (p6 ++ (p7)))))) (by decide)).trans ((field_within (v := 15) (lo := 9) (n := 1) p2 (p3 ++ (p4 ++ (p5 ++ (p6 ++ (p7))))) (by decide)).trans ((field_within (v := 14) (lo := 9) (n := 1) p3 (p4 ++ (p5 ++ (p6 ++ (p7)))) (by decide)).trans ((field_within (v := 10) (lo := 9) (n := 1) p4 (p5 ++ (p6 ++ (p7))) (by decide)).trans (field_top p5 (p6 ++ (p7))))))),
    (field_within (v := 26) (lo := 4) (n := 5) p0 (p1 ++ (p2 ++ (p3 ++ (p4 ++ (p5 ++ (p6 ++ (p7))))))) (by decide)).trans ((field_within (v := 21) (lo := 4) (n := 5) p1 (p2 ++ (p3 ++ (p4 ++ (p5 ++ (p6 ++ (p7)))))) (by decide)).trans ((field_within (v := 15) (lo := 4) (n := 5) p2 (p3 ++ (p4 ++ (p5 ++ (p6 ++ (p7))))) (by decide)).trans ((field_within (v := 14) (lo := 4) (n := 5) p3 (p4 ++ (p5 ++ (p6 ++ (p7)))) (by decide)).trans ((field_within (v := 10) (lo := 4) (n := 5) p4 (p5 ++ (p6 ++ (p7))) (by decide)).trans ((field_within (v := 9) (lo := 4) (n := 5) p5 (p6 ++ (p7)) (by decide)).trans (field_top p6 (p7))))))),
    (field_within (v := 26) (lo := 0) (n := 4) p0 (p1 ++ (p2 ++ (p3 ++ (p4 ++ (p5 ++ (p6 ++ (p7))))))) (by decide)).trans ((field_within (v := 21) (lo := 0) (n := 4) p1 (p2 ++ (p3 ++ (p4 ++ (p5 ++ (p6 ++ (p7)))))) (by decide)).trans ((field_within (v := 15) (lo := 0) (n := 4) p2 (p3 ++ (p4 ++ (p5 ++ (p6 ++ (p7))))) (by decide)).trans ((field_within (v := 14) (lo := 0) (n := 4) p3 (p4 ++ (p5 ++ (p6 ++ (p7)))) (by decide)).trans ((field_within (v := 10) (lo := 0) (n := 4) p4 (p5 ++ (p6 ++ (p7))) (by decide)).trans ((field_within (v := 9) (lo := 0) (n := 4) p5 (p6 ++ (p7)) (by decide)).trans ((field_within (v := 4) (lo := 0) (n := 4) p6 (p7) (by decide)).trans (field_all p7)))))))⟩

theorem layout_6_5_6_6_1_1_3_4 {w : W32} (p0 : BitVec 6) (p1 : BitVec 5) (p2 : BitVec 6) (p3 : BitVec 6) (p4 : BitVec 1) (p5 : BitVec 1) (p6 : BitVec 3) (p7 : BitVec 4) (h : w = p0 ++ (p1 ++ (p2 ++ (p3 ++ (p4 ++ (p5 ++ (p6 ++ (p7)))))))) :
    fld w 26 6 = p0 ∧ fld w 21 5 = p1 ∧ fld w 15 6 = p2 ∧ fld w 9 6 = p3 ∧ fld w 8 1 = p4 ∧ fld w 7 1 = p5 ∧ fld w 4 3 = p6 ∧ fld w 0 4 = p7 := by
  subst h
  exact ⟨field_top p0 (p1 ++ (p2 ++ (p3 ++ (p4 ++ (p5 ++ (p6 ++ (p7))))))),
    (field_within (v := 26) (lo := 21) (n := 5) p0 (p1 ++ (p2 ++ (p3 ++ (p4 ++ (p5 ++ (p6 ++ (p7))))))) (by decide)).trans (field_top p1 (p2 ++ (p3 ++ (p4 ++ (p5 ++ (p6 ++ (p7))))))),
    (field_within (v := 26) (lo := 15) (n := 6) p0 (p1 ++ (p2 ++ (p3 ++ (p4 ++ (p5 ++ (p6 ++ (p7))))))) (by decide)).trans ((field_within (v := 21) (lo := 15) (n := 6) p1 (p2 ++ (p3 ++ (p4 ++ (p5 ++ (p6 ++ (p7)))))) (by decide)).trans (field_top p2 (p3 ++ (p4 ++ (p5 ++ (p6 ++ (p7))))))),
    (field_within (v := 26) (lo := 9) (n := 6) p0 (p1 ++ (p2 ++ (p3 ++ (p4 ++ (p5 ++ (p6 ++ (p7))))))) (by decide)).trans ((field_within (v := 21) (lo := 9) (n := 6) p1 (p2 ++ (p3 ++ (p4 ++ (p5 ++ (p6 ++ (p7)))))) (by decide)).trans ((field_within (v := 15) (lo := 9) (n := 6) p2 (p3 ++ (p4 ++ (p5 ++ (p6 ++ (p7))))) (by decide)).trans (field_top p3 (p4 ++ (p5 ++ (p6 ++ (p7))))))),
    (field_within (v := 26) (lo := 8) (n := 1) p0 (p1 ++ (p2 ++ (p3 ++ (p4 ++ (p5 ++ (p6 ++ (p7))))))) (by decide)).trans ((field_within (v := 21) (lo := 8) (n := 1) p1 (p2 ++ (p3 ++ (p4 ++ (p5 ++ (p6 ++ (p7)))))) (by decide)).trans ((field_within (v := 15) (lo := 8) (n := 1) p2 (p3 ++ (p4 ++ (p5 ++ (p6 ++ (p7))))) (by decide)).trans ((field_within (v := 9) (lo := 8) (n := 1) p3 (p4 ++ (p5 ++ (p6 ++ (p7)))) (by decide)).trans (field_top p4 (p5 ++ (p6 ++ (p7))))))),
    (field_within (v := 26) (lo := 7) (n := 1) p0 (p1 ++ (p2 ++ (p3 ++ (p4 ++ (p5 ++ (p6 ++ (p7))))))) (by decide)).trans ((field_within (v := 21) (lo := 7) (n := 1) p1 (p2 ++ (p3 ++ (p4 ++ (p5 ++ (p6 ++ (p7)))))) (by decide)).trans ((field_within (v := 15) (lo := 7) (n := 1) p2 (p3 ++ (p4 ++ (p5 ++ (p6 ++ (p7))))) (by decide)).trans ((field_within (v := 9) (lo := 7) (n := 1) p3 (p4 ++ (p5 ++ (p6 ++ (p7)))) (by decide)).trans ((field_within (v := 8) (lo := 7) (n := 1) p4 (p5 ++ (p6 ++ (p7))) (by decide)).trans (field_top p5 (p6 ++ (p7))))))),
    (field_within (v := 26) (lo := 4) (n := 3) p0 (p1 ++ (p2 ++ (p3 ++ (p4 ++ (p5 ++ (p6 ++ (p7))))))) (by decide)).trans ((field_within (v := 21) (lo := 4) (n := 3) p1 (p2 ++ (p3 ++ (p4 ++ (p5 ++ (p6 ++ (p7)))))) (by decide)).trans ((field_within (v := 15) (lo := 4) (n := 3) p2 (p3 ++ (p4 ++ (p5 ++ (p6 ++ (p7))))) (by decide)).trans ((field_within (v := 9) (lo := 4) (n := 3) p3 (p4 ++ (p5 ++ (p6 ++ (p7)))) (by decide)).trans ((field_within (v := 8) (lo := 4) (n := 3) p4 (p5 ++ (p6 ++ (p7))) (by decide)).trans ((field_within (v := 7) (lo := 4) (n := 3) p5 (p6 ++ (p7)) (by decide)).trans (field_top p6 (p7))))))),
    (field_within (v := 26) (lo := 0) (n := 4) p0 (p1 ++ (p2 ++ (p3 ++ (p4 ++ (p5 ++ (p6 ++ (p7))))))) (by decide)).trans ((field_within (v := 21) (lo := 0) (n := 4) p1 (p2 ++ (p3 ++ (p4 ++ (p5 ++ (p6 ++ (p7)))))) (by decide)).trans ((field_within (v := 15) (lo := 0) (n := 4) p2 (p3 ++ (p4 ++ (p5 ++ (p6 ++ (p7))))) (by decide)).trans ((field_within (v := 9) (lo := 0) (n := 4) p3 (p4 ++ (p5 ++ (p6 ++ (p7)))) (by decide)).trans ((field_within (v := 8) (lo := 0) (n := 4) p4 (p5 ++ (p6 ++ (p7))) (by decide)).trans ((field_within (v := 7) (lo := 0) (n := 4) p5 (p6 ++ (p7)) (by decide)).trans ((field_within (v := 4) (lo := 0) (n := 4) p6 (p7) (by decide)).trans (field_all p7)))))))⟩

theorem layout_6_5_6_6_5_4 {w : W32} (p0 : BitVec 6) (p1 : BitVec 5) (p2 : BitVec 6) (p3 : BitVec 6) (p4 : BitVec 5) (p5 : BitVec 4) (h : w = p0 ++ (p1 ++ (p2 ++ (p3 ++ (p4 ++ (p5)))))) :
    fld w 26 6 = p0 ∧ fld w 21 5 = p1 ∧ fld w 15 6 = p2 ∧ fld w 9 6 = p3 ∧ fld w 4 5 = p4 ∧ fld w 0 4 = p5 := by
  subst h
  exact ⟨field_top p0 (p1 ++ (p2 ++ (p3 ++ (p4 ++ (p5))))),
    (field_within (v := 26) (lo := 21) (n := 5) p0 (p1 ++ (p2 ++ (p3 ++ (p4 ++ (p5))))) (by decide)).trans (field_top p1 (p2 ++ (p3 ++ (p4 ++ (p5))))),
    (field_within (v := 26) (lo := 15) (n := 6) p0 (p1 ++ (p2 ++ (p3 ++ (p4 ++ (p5))))) (by decide)).trans ((field_within (v := 21) (lo := 15) (n := 6) p1 (p2 ++ (p3 ++ (p4 ++ (p5)))) (by decide)).trans (field_top p2 (p3 ++ (p4 ++ (p5))))),
    (field_within (v := 26) (lo := 9) (n := 6) p0 (p1 ++ (p2 ++ (p3 ++ (p4 ++ (p5))))) (by decide)).trans ((field_within (v := 21) (lo := 9) (n := 6) p1 (p2 ++ (p3 ++ (p4 ++ (p5)))) (by decide)).trans ((field_within (v := 15) (lo := 9) (n := 6) p2 (p3 ++ (p4 ++ (p5))) (by decide)).trans (field_top p3 (p4 ++ (p5))))),
    (field_within (v := 26) (lo := 4) (n := 5) p0 (p1 ++ (p2 ++ (p3 ++ (p4 ++ (p5))))) (by decide)).trans ((field_within (v := 21) (lo := 4) (n := 5) p1 (p2 ++ (p3 ++ (p4 ++ (p5)))) (by decide)).trans ((field_within (v := 15) (lo := 4) (n := 5) p2 (p3 ++ (p4 ++ (p5))) (by decide)).trans ((field_within (v := 9) (lo := 4) (n := 5) p3 (p4 ++ (p5)) (by decide)).trans (field_top p4 (p5))))),
    (field_within (v := 26) (lo := 0) (n := 4) p0 (p1 ++ (p2 ++ (p3 ++ (p4 ++ (p5))))) (by decide)).trans ((field_within (v := 21) (lo := 0) (n := 4) p1 (p2 ++ (p3 ++ (p4 ++ (p5)))) (by decide)).trans ((field_within (v := 15) (lo := 0) (n := 4) p2 (p3 ++ (p4 ++ (p5))) (by decide)).trans ((field_within (v := 9) (lo := 0) (n := 4) p3 (p4 ++ (p5)) (by decide)).trans ((field_within (v := 4) (lo := 0) (n := 4) p4 (p5) (by decide)).trans (field_all p5)))))⟩

theorem layout_6_5_6_11_4 {w : W32} (p0 : BitVec 6) (p1 : BitVec 5) (p2 : BitVec 6) (p3 : BitVec 11) (p4 : BitVec 4) (h : w = p0 ++ (p1 ++ (p2 ++ (p3 ++ (p4))))) :
    fld w 26 6 = p0 ∧ fld w 21 5 = p1 ∧ fld w 15 6 = p2 ∧ fld w 4 11 = p3 ∧ fld w 0 4 = p4 := by
  subst h
  exact ⟨field_top p0 (p1 ++ (p2 ++ (p3 ++ (p4)))),
    (field_within (v := 26) (lo := 21) (n := 5) p0 (p1 ++ (p2 ++ (p3 ++ (p4)))) (by decide)).trans (field_top p1 (p2 ++ (p3 ++ (p4)))),
    (field_within (v := 26) (lo := 15) (n := 6) p0 (p1 ++ (p2 ++ (p3 ++ (p4)))) (by decide)).trans ((field_within (v := 21) (lo := 15) (n := 6) p1 (p2 ++ (p3 ++ (p4))) (by decide)).trans (field_top p2 (p3 ++ (p4)))),
    (field_within (v := 26) (lo := 4) (n := 11) p0 (p1 ++ (p2 ++ (p3 ++ (p4)))) (by decide)).trans ((field_within (v := 21) (lo := 4) (n := 11) p1 (p2 ++ (p3 ++ (p4))) (by decide)).trans ((field_within (v := 15) (lo := 4) (n := 11) p2 (p3 ++ (p4)) (by decide)).trans (field_top p3 (p4)))),
    (field_within (v := 26) (lo := 0) (n := 4) p0 (p1 ++ (p2 ++ (p3 ++ (p4)))) (by decide)).trans ((field_within (v := 21) (lo := 0) (n := 4) p1 (p2 ++ (p3 ++ (p4))) (by decide)).trans ((field_within (v := 15) (lo := 0) (n := 4) p2 (p3 ++ (p4)) (by decide)).trans ((field_within (v := 4) (lo := 0) (n := 4) p3 (p4) (by decide)).trans (field_all p4))))⟩

theorem layout_6_6_3_13_4 {w : W32} (p0 : BitVec 6) (p1 : BitVec 6) (p2 : BitVec 3) (p3 : BitVec 13) (p4 : BitVec 4) (h : w = p0 ++ (p1 ++ (p2 ++ (p3 ++ (p4))))) :
    fld w 26 6 = p0 ∧ fld w 20 6 = p1 ∧ fld w 17 3 = p2 ∧ fld w 4 13 = p3 ∧ fld w 0 4 = p4 := by
  subst h
  exact ⟨field_top p0 (p1 ++ (p2 ++ (p3 ++ (p4)))),
    (field_within (v := 26) (lo := 20) (n := 6) p0 (p1 ++ (p2 ++ (p3 ++ (p4)))) (by decide)).trans (field_top p1 (p2 ++ (p3 ++ (p4)))),
    (field_within (v := 26) (lo := 17) (n := 3) p0 (p1 ++ (p2 ++ (p3 ++ (p4)))) (by decide)).trans ((field_within (v := 20) (lo := 17) (n := 3) p1 (p2 ++ (p3 ++ (p4))) (by decide)).trans (field_top p2 (p3 ++ (p4)))),
    (field_within (v := 26) (lo := 4) (n := 13) p0 (p1 ++ (p2 ++ (p3 ++ (p4)))) (by decide)).trans ((field_within (v := 20) (lo := 4) (n := 13) p1 (p2 ++ (p3 ++ (p4))) (by decide)).trans ((field_within (v := 17) (lo := 4) (n := 13) p2 (p3 ++ (p4)) (by decide)).trans (field_top p3 (p4)))),
    (field_within (v := 26) (lo := 0) (n := 4) p0 (p1 ++ (p2 ++ (p3 ++ (p4)))) (by decide)).trans ((field_within (v := 20) (lo := 0) (n := 4) p1 (p2 ++ (p3 ++ (p4))) (by decide)).trans ((field_within (v := 17) (lo := 0) (n := 4) p2 (p3 ++ (p4)) (by decide)).trans ((field_within (v := 4) (lo := 0) (n := 4) p3 (p4) (by decide)).trans (field_all p4))))⟩

theorem layout_6_6_4_4_2_1_1_2_2_4 {w : W32} (p0 : BitVec 6) (p1 : BitVec 6) (p2 : BitVec 4) (p3 : BitVec 4) (p4 : BitVec 2) (p5 : BitVec 1) (p6 : BitVec 1) (p7 : BitVec 2) (p8 : BitVec 2) (p9 : BitVec 4) (h : w = p0 ++ (p1 ++ (p2 ++ (p3 ++ (p4 ++ (p5 ++ (p6 ++ (p7 ++ (p8 ++ (p9)))))))))) :
    fld w 26 6 = p0 ∧ fld w 20 6 = p1 ∧ fld w 16 4 = p2 ∧ fld w 12 4 = p3 ∧ fld w 10 2 = p4 ∧ fld w 9 1 = p5 ∧ fld w 8 1 = p6 ∧ fld w 6 2 = p7 ∧ fld w 4 2 = p8 ∧ fld w 0 4 = p9 := by
  subst h
  exact ⟨field_top p0 (p1 ++ (p2 ++ (p3 ++ (p4 ++ (p5 ++ (p6 ++ (p7 ++ (p8 ++ (p9))))))))),
    (field_within (v := 26) (lo := 20) (n := 6) p0 (p1 ++ (p2 ++ (p3 ++ (p4 ++ (p5 ++ (p6 ++ (p7 ++ (p8 ++ (p9))))))))) (by decide)).trans (field_top p1 (p2 ++ (p3 ++ (p4 ++ (p5 ++ (p6 ++ (p7 ++ (p8 ++ (p9))))))))),
    (field_within (v := 26) (lo := 16) (n := 4) p0 (p1 ++ (p2 ++ (p3 ++ (p4 ++ (p5 ++ (p6 ++ (p7 ++ (p8 ++ (p9))))))))) (by decide)).trans ((field_within (v := 20) (lo := 16) (n := 4) p1 (p2 ++ (p3 ++ (p4 ++ (p5 ++ (p6 ++ (p7 ++ (p8 ++ (p9)))))))) (by decide)).trans (field_top p2 (p3 ++ (p4 ++ (p5 ++ (p6 ++ (p7 ++ (p8 ++ (p9))))))))),
    (field_within (v := 26) (lo := 12) (n := 4) p0 (p1 ++ (p2 ++ (p3 ++ (p4 ++ (p5 ++ (p6 ++ (p7 ++ (p8 ++ (p9))))))))) (by decide)).trans ((field_within (v := 20) (lo := 12) (n := 4) p1 (p2 ++ (p3 ++ (p4 ++ (p5 ++ (p6 ++ (p7 ++ (p8 ++ (p9)))))))) (by decide)).trans ((field_within (v := 16) (lo := 12) (n := 4) p2 (p3 ++ (p4 ++ (p5 ++ (p6 ++ (p7 ++ (p8 ++ (p9))))))) (by decide)).trans (field_top p3 (p4 ++ (p5 ++ (p6 ++ (p7 ++ (p8 ++ (p9))))))))),
    (field_within (v := 26) (lo := 10) (n := 2) p0 (p1 ++ (p2 ++ (p3 ++ (p4 ++ (p5 ++ (p6 ++ (p7 ++ (p8 ++ (p9))))))))) (by decide)).trans ((field_within (v := 20) (lo := 10) (n := 2) p1 (p2 ++ (p3 ++ (p4 ++ (p5 ++ (p6 ++ (p7 ++ (p8 ++ (p9)))))))) (by decide)).trans ((field_within (v := 16) (lo := 10) (n := 2) p2 (p3 ++ (p4 ++ (p5 ++ (p6 ++ (p7 ++ (p8 ++ (p9))))))) (by decide)).trans ((field_within (v := 12) (lo := 10) (n := 2) p3 (p4 ++ (p5 ++ (p6 ++ (p7 ++ (p8 ++ (p9)))))) (by decide)).trans (field_top p4 (p5 ++ (p6 ++ (p7 ++ (p8 ++ (p9))))))))),
    (field_within (v := 26) (lo := 9) (n := 1) p0 (p1 ++ (p2 ++ (p3 ++ (p4 ++ (p5 ++ (p6 ++ (p7 ++ (p8 ++ (p9))))))))) (by decide)).trans ((field_within (v := 20) (lo := 9) (n := 1) p1 (p2 ++ (p3 ++ (p4 ++ (p5 ++ (p6 ++ (p7 ++ (p8 ++ (p9)))))))) (by decide)).trans ((field_within (v := 16) (lo := 9) (n := 1) p2 (p3 ++ (p4 ++ (p5 ++ (p6 ++ (p7 ++ (p8 ++ (p9))))))) (by decide)).trans ((field_within (v := 12) (lo := 9) (n := 1) p3 (p4 ++ (p5 ++ (p6 ++ (p7 ++ (p8 ++ (p9)))))) (by decide)).trans ((field_within (v := 10) (lo := 9) (n := 1) p4 (p5 ++ (p6 ++ (p7 ++ (p8 ++ (p9))))) (by decide)).trans (field_top p5 (p6 ++ (p7 ++ (p8 ++ (p9))))))))),
    (field_within (v := 26) (lo := 8) (n := 1) p0 (p1 ++ (p2 ++ (p3 ++ (p4 ++ (p5 ++ (p6 ++ (p7 ++ (p8 ++ (p9))))))))) (by decide)).trans ((field_within (v := 20) (lo := 8) (n := 1) p1 (p2 ++ (p3 ++ (p4 ++ (p5 ++ (p6 ++ (p7 ++ (p8 ++ (p9)))))))) (by decide)).trans ((field_within (v := 16) (lo := 8) (n := 1) p2 (p3 ++ (p4 ++ (p5 ++ (p6 ++ (p7 ++ (p8 ++ (p9))))))) (by decide)).trans ((field_within (v := 12) (lo := 8) (n := 1) p3 (p4 ++ (p5 ++ (p6 ++ (p7 ++ (p8 ++ (p9)))))) (by decide)).trans ((field_within (v := 10) (lo := 8) (n := 1) p4 (p5 ++ (p6 ++ (p7 ++ (p8 ++ (p9))))) (by decide)).trans ((field_within (v := 9) (lo := 8) (n := 1) p5 (p6 ++ (p7 ++ (p8 ++ (p9)))) (by decide)).trans (field_top p6 (p7 ++ (p8 ++ (p9))))))))),
    (field_within (v := 26) (lo := 6) (n := 2) p0 (p1 ++ (p2 ++ (p3 ++ (p4 ++ (p5 ++ (p6 ++ (p7 ++ (p8 ++ (p9))))))))) (by decide)).trans ((field_within (v := 20) (lo := 6) (n := 2) p1 (p2 ++ (p3 ++ (p4 ++ (p5 ++ (p6 ++ (p7 ++ (p8 ++ (p9)))))))) (by decide)).trans ((field_within (v := 16) (lo := 6) (n := 2) p2 (p3 ++ (p4 ++ (p5 ++ (p6 ++ (p7 ++ (p8 ++ (p9))))))) (by decide)).trans ((field_within (v := 12) (lo := 6) (n := 2) p3 (p4 ++ (p5 ++ (p6 ++ (p7 ++ (p8 ++ (p9)))))) (by decide)).trans ((field_within (v := 10) (lo := 6) (n := 2) p4 (p5 ++ (p6 ++ (p7 ++ (p8 ++ (p9))))) (by decide)).trans ((field_within (v := 9) (lo := 6) (n := 2) p5 (p6 ++ (p7 ++ (p8 ++ (p9)))) (by decide)).trans ((field_within (v := 8) (lo := 6) (n := 2) p6 (p7 ++ (p8 ++ (p9))) (by decide)).trans (field_top p7 (p8 ++ (p9))))))))),
    (field_within (v := 26) (lo := 4) (n := 2) p0 (p1 ++ (p2 ++ (p3 ++ (p4 ++ (p5 ++ (p6 ++ (p7 ++ (p8 ++ (p9))))))))) (by decide)).trans ((field_within (v := 20) (lo := 4) (n := 2) p1 (p2 ++ (p3 ++ (p4 ++ (p5 ++ (p6 ++ (p7 ++ (p8 ++ (p9)))))))) (by decide)).trans ((field_within (v := 16) (lo := 4) (n := 2) p2 (p3 ++ (p4 ++ (p5 ++ (p6 ++ (p7 ++ (p8 ++ (p9))))))) (by decide)).trans ((field_within (v := 12) (lo := 4) (n := 2) p3 (p4 ++ (p5 ++ (p6 ++ (p7 ++ (p8 ++ (p9)))))) (by decide)).trans ((field_within (v := 10) (lo := 4) (n := 2) p4 (p5 ++ (p6 ++ (p7 ++ (p8 ++ (p9))))) (by decide)).trans ((field_within (v := 9) (lo := 4) (n := 2) p5 (p6 ++ (p7 ++ (p8 ++ (p9)))) (by decide)).trans ((field_within (v := 8) (lo := 4) (n := 2) p6 (p7 ++ (p8 ++ (p9))) (by decide)).trans ((field_within (v := 6) (lo := 4) (n := 2) p7 (p8 ++ (p9)) (by decide)).trans (field_top p8 (p9))))))))),
    (field_within (v := 26) (lo := 0) (n := 4) p0 (p1 ++ (p2 ++ (p3 ++ (p4 ++ (p5 ++ (p6 ++ (p7 ++ (p8 ++ (p9))))))))) (by decide)).trans ((field_within (v := 20) (lo := 0) (n := 4) p1 (p2 ++ (p3 ++ (p4 ++ (p5 ++ (p6 ++ (p7 ++ (p8 ++ (p9)))))))) (by decide)).trans ((field_within (v := 16) (lo := 0) (n := 4) p2 (p3 ++ (p4 ++ (p5 ++ (p6 ++ (p7 ++ (p8 ++ (p9))))))) (by decide)).trans ((field_within (v := 12) (lo := 0) (n := 4) p3 (p4 ++ (p5 ++ (p6 ++ (p7 ++ (p8 ++ (p9)))))) (by decide)).trans ((field_within (v := 10) (lo := 0) (n := 4) p4 (p5 ++ (p6 ++ (p7 ++ (p8 ++ (p9))))) (by decide)).trans ((field_within (v := 9) (lo := 0) (n := 4) p5 (p6 ++ (p7 ++ (p8 ++ (p9)))) (by decide)).trans ((field_within (v := 8) (lo := 0) (n := 4) p6 (p7 ++ (p8 ++ (p9))) (by decide)).trans ((field_within (v := 6) (lo := 0) (n := 4) p7 (p8 ++ (p9)) (by decide)).trans ((field_within (v := 4) (lo := 0) (n := 4) p8 (p9) (by decide)).trans (field_all p9)))))))))⟩

theorem layout_6_6_5_6_5_4 {w : W32} (p0 : BitVec 6) (p1 : BitVec 6) (p2 : BitVec 5) (p3 : BitVec 6) (p4 : BitVec 5) (p5 : BitVec 4) (h : w = p0 ++ (p1 ++ (p2 ++ (p3 ++ (p4 ++ (p5)))))) :
    fld w 26 6 = p0 ∧ fld w 20 6 = p1 ∧ fld w 15 5 = p2 ∧ fld w 9 6 = p3 ∧ fld w 4 5 = p4 ∧ fld w 0 4 = p5 := by
  subst h
  exact ⟨field_top p0 (p1 ++ (p2 ++ (p3 ++ (p4 ++ (p5))))),
    (field_within (v := 26) (lo := 20) (n := 6) p0 (p1 ++ (p2 ++ (p3 ++ (p4 ++ (p5))))) (by decide)).trans (field_top p1 (p2 ++ (p3 ++ (p4 ++ (p5))))),
    (field_within (v := 26) (lo := 15) (n := 5) p0 (p1 ++ (p2 ++ (p3 ++ (p4 ++ (p5))))) (by decide)).trans ((field_within (v := 20) (lo := 15) (n := 5) p1 (p2 ++ (p3 ++ (p4 ++ (p5)))) (by decide)).trans (field_top p2 (p3 ++ (p4 ++ (p5))))),
    (field_within (v := 26) (lo := 9) (n := 6) p0 (p1 ++ (p2 ++ (p3 ++ (p4 ++ (p5))))) (by decide)).trans ((field_within (v := 20) (lo := 9) (n := 6) p1 (p2 ++ (p3 ++ (p4 ++ (p5)))) (by decide)).trans ((field_within (v := 15) (lo := 9) (n := 6) p2 (p3 ++ (p4 ++ (p5))) (by decide)).trans (field_top p3 (p4 ++ (p5))))),
    (field_within (v := 26) (lo := 4) (n := 5) p0 (p1 ++ (p2 ++ (p3 ++ (p4 ++ (p5))))) (by decide)).trans ((field_within (v := 20) (lo := 4) (n := 5) p1 (p2 ++ (p3 ++ (p4 ++ (p5)))) (by decide)).trans ((field_within (v := 15) (lo := 4) (n := 5) p2 (p3 ++ (p4 ++ (p5))) (by decide)).trans ((field_within (v := 9) (lo := 4) (n := 5) p3 (p4 ++ (p5)) (by decide)).trans (field_top p4 (p5))))),
    (field_within (v := 26) (lo := 0) (n := 4) p0 (p1 ++ (p2 ++ (p3 ++ (p4 ++ (p5))))) (by decide)).trans ((field_within (v := 20) (lo := 0) (n := 4) p1 (p2 ++ (p3 ++ (p4 ++ (p5)))) (by decide)).trans ((field_within (v := 15) (lo := 0) (n := 4) p2 (p3 ++ (p4 ++ (p5))) (by decide)).trans ((field_within (v := 9) (lo := 0) (n := 4) p3 (p4 ++ (p5)) (by decide)).trans ((field_within (v := 4) (lo := 0) (n := 4) p4 (p5) (by decide)).trans (field_all p5)))))⟩

theorem layout_6_6_6_1_9_4 {w : W32} (p0 : BitVec 6) (p1 : BitVec 6) (p2 : BitVec 6) (p3 : BitVec 1) (p4 : BitVec 9) (p5 : BitVec 4) (h : w = p0 ++ (p1 ++ (p2 ++ (p3 ++ (p4 ++ (p5)))))) :
    fld w 26 6 = p0 ∧ fld w 20 6 = p1 ∧ fld w 14 6 = p2 ∧ fld w 13 1 = p3 ∧ fld w 4 9 = p4 ∧ fld w 0 4 = p5 := by
  subst h
  exact ⟨field_top p0 (p1 ++ (p2 ++ (p3 ++ (p4 ++ (p5))))),
    (field_within (v := 26) (lo := 20) (n := 6) p0 (p1 ++ (p2 ++ (p3 ++ (p4 ++ (p5))))) (by decide)).trans (field_top p1 (p2 ++ (p3 ++ (p4 ++ (p5))))),
    (field_within (v := 26) (lo := 14) (n := 6) p0 (p1 ++ (p2 ++ (p3 ++ (p4 ++ (p5))))) (by decide)).trans ((field_within (v := 20) (lo := 14) (n := 6) p1 (p2 ++ (p3 ++ (p4 ++ (p5)))) (by decide)).trans (field_top p2 (p3 ++ (p4 ++ (p5))))),
    (field_within (v := 26) (lo := 13) (n := 1) p0 (p1 ++ (p2 ++ (p3 ++ (p4 ++ (p5))))) (by decide)).trans ((field_within (v := 20) (lo := 13) (n := 1) p1 (p2 ++ (p3 ++ (p4 ++ (p5)))) (by decide)).trans ((field_within (v := 14) (lo := 13) (n := 1) p2 (p3 ++ (p4 ++ (p5))) (by decide)).trans (field_top p3 (p4 ++ (p5))))),
    (field_within (v := 26) (lo := 4) (n := 9) p0 (p1 ++ (p2 ++ (p3 ++ (p4 ++ (p5))))) (by decide)).trans ((field_within (v := 20) (lo := 4) (n := 9) p1 (p2 ++ (p3 ++ (p4 ++ (p5)))) (by decide)).trans ((field_within (v := 14) (lo := 4) (n := 9) p2 (p3 ++ (p4 ++ (p5))) (by decide)).trans ((field_within (v := 13) (lo := 4) (n := 9) p3 (p4 ++ (p5)) (by decide)).trans (field_top p4 (p5))))),
    (field_within (v := 26) (lo := 0) (n := 4) p0 (p1 ++ (p2 ++ (p3 ++ (p4 ++ (p5))))) (by decide)).trans ((field_within (v := 20) (lo := 0) (n := 4) p1 (p2 ++ (p3 ++ (p4 ++ (p5)))) (by decide)).trans ((field_within (v := 14) (lo := 0) (n := 4) p2 (p3 ++ (p4 ++ (p5))) (by decide)).trans ((field_within (v := 13) (lo := 0) (n := 4) p3 (p4 ++ (p5)) (by decide)).trans ((field_within (v := 4) (lo := 0) (n := 4) p4 (p5) (by decide)).trans (field_all p5)))))⟩

theorem layout_6_6_6_2_2_6_4 {w : W32} (p0 : BitVec 6) (p1 : BitVec 6) (p2 : BitVec 6) (p3 : BitVec 2) (p4 : BitVec 2) (p5 : BitVec 6) (p6 : BitVec 4) (h : w = p0 ++ (p1 ++ (p2 ++ (p3 ++ (p4 ++ (p5 ++ (p6))))))) :
    fld w 26 6 = p0 ∧ fld w 20 6 = p1 ∧ fld w 14 6 = p2 ∧ fld w 12 2 = p3 ∧ fld w 10 2 = p4 ∧ fld w 4 6 = p5 ∧ fld w 0 4 = p6 := by
  subst h
  exact ⟨field_top p0 (p1 ++ (p2 ++ (p3 ++ (p4 ++ (p5 ++ (p6)))))),
    (field_within (v := 26) (lo := 20) (n := 6) p0 (p1 ++ (p2 ++ (p3 ++ (p4 ++ (p5 ++ (p6)))))) (by decide)).trans (field_top p1 (p2 ++ (p3 ++ (p4 ++ (p5 ++ (p6)))))),
    (field_within (v := 26) (lo := 14) (n := 6) p0 (p1 ++ (p2 ++ (p3 ++ (p4 ++ (p5 ++ (p6)))))) (by decide)).trans ((field_within (v := 20) (lo := 14) (n := 6) p1 (p2 ++ (p3 ++ (p4 ++ (p5 ++ (p6))))) (by decide)).trans (field_top p2 (p3 ++ (p4 ++ (p5 ++ (p6)))))),
    (field_within (v := 26) (lo := 12) (n := 2) p0 (p1 ++ (p2 ++ (p3 ++ (p4 ++ (p5 ++ (p6)))))) (by decide)).trans ((field_within (v := 20) (lo := 12) (n := 2) p1 (p2 ++ (p3 ++ (p4 ++ (p5 ++ (p6))))) (by decide)).trans ((field_within (v := 14) (lo := 12) (n := 2) p2 (p3 ++ (p4 ++ (p5 ++ (p6)))) (by decide)).trans (field_top p3 (p4 ++ (p5 ++ (p6)))))),
    (field_within (v := 26) (lo := 10) (n := 2) p0 (p1 ++ (p2 ++ (p3 ++ (p4 ++ (p5 ++ (p6)))))) (by decide)).trans ((field_within (v := 20) (lo := 10) (n := 2) p1 (p2 ++ (p3 ++ (p4 ++ (p5 ++ (p6))))) (by decide)).trans ((field_within (v := 14) (lo := 10) (n := 2) p2 (p3 ++ (p4 ++ (p5 ++ (p6)))) (by decide)).trans ((field_within (v := 12) (lo := 10) (n := 2) p3 (p4 ++ (p5 ++ (p6))) (by decide)).trans (field_top p4 (p5 ++ (p6)))))),
    (field_within (v := 26) (lo := 4) (n := 6) p0 (p1 ++ (p2 ++ (p3 ++ (p4 ++ (p5 ++ (p6)))))) (by decide)).trans ((field_within (v := 20) (lo := 4) (n := 6) p1 (p2 ++ (p3 ++ (p4 ++ (p5 ++ (p6))))) (by decide)).trans ((field_within (v := 14) (lo := 4) (n := 6) p2 (p3 ++ (p4 ++ (p5 ++ (p6)))) (by decide)).trans ((field_within (v := 12) (lo := 4) (n := 6) p3 (p4 ++ (p5 ++ (p6))) (by decide)).trans ((field_within (v := 10) (lo := 4) (n := 6) p4 (p5 ++ (p6)) (by decide)).trans (field_top p5 (p6)))))),
    (field_within (v := 26) (lo := 0) (n := 4) p0 (p1 ++ (p2 ++ (p3 ++ (p4 ++ (p5 ++ (p6)))))) (by decide)).trans ((field_within (v := 20) (lo := 0) (n := 4) p1 (p2 ++ (p3 ++ (p4 ++ (p5 ++ (p6))))) (by decide)).trans ((field_within (v := 14) (lo := 0) (n := 4) p2 (p3 ++ (p4 ++ (p5 ++ (p6)))) (by decide)).trans ((field_within (v := 12) (lo := 0) (n := 4) p3 (p4 ++ (p5 ++ (p6))) (by decide)).trans ((field_within (v := 10) (lo := 0) (n := 4) p4 (p5 ++ (p6)) (by decide)).trans ((field_within (v := 4) (lo := 0) (n := 4) p5 (p6) (by decide)).trans (field_all p6))))))⟩

theorem layout_6_6_6_3_11 {w : W32} (p0 : BitVec 6) (p1 : BitVec 6) (p2 : BitVec 6) (p3 : BitVec 3) (p4 : BitVec 11) (h : w = p0 ++ (p1 ++ (p2 ++ (p3 ++ (p4))))) :
    fld w 26 6 = p0 ∧ fld w 20 6 = p1 ∧ fld w 14 6 = p2 ∧ fld w 11 3 = p3 ∧ fld w 0 11 = p4 := by
  subst h
  exact ⟨field_top p0 (p1 ++ (p2 ++ (p3 ++ (p4)))),
    (field_within (v := 26) (lo := 20) (n := 6) p0 (p1 ++ (p2 ++ (p3 ++ (p4)))) (by decide)).trans (field_top p1 (p2 ++ (p3 ++ (p4)))),
    (field_within (v := 26) (lo := 14) (n := 6) p0 (p1 ++ (p2 ++ (p3 ++ (p4)))) (by decide)).trans ((field_within (v := 20) (lo := 14) (n := 6) p1 (p2 ++ (p3 ++ (p4))) (by decide)).trans (field_top p2 (p3 ++ (p4)))),
    (field_within (v := 26) (lo := 11) (n := 3) p0 (p1 ++ (p2 ++ (p3 ++ (p4)))) (by decide)).trans ((field_within (v := 20) (lo := 11) (n := 3) p1 (p2 ++ (p3 ++ (p4))) (by decide)).trans ((field_within (v := 14) (lo := 11) (n := 3) p2 (p3 ++ (p4)) (by decide)).trans (field_top p3 (p4)))),
    (field_within (v := 26) (lo := 0) (n := 11) p0 (p1 ++ (p2 ++ (p3 ++ (p4)))) (by decide)).trans ((field_within (v := 20) (lo := 0) (n := 11) p1 (p2 ++ (p3 ++ (p4))) (by decide)).trans ((field_within (v := 14) (lo := 0) (n := 11) p2 (p3 ++ (p4)) (by decide)).trans ((field_within (v := 11) (lo := 0) (n := 11) p3 (p4) (by decide)).trans (field_all p4))))⟩

theorem layout_6_6_6_4_6_4 {w : W32} (p0 : BitVec 6) (p1 : BitVec 6) (p2 : BitVec 6) (p3 : BitVec 4) (p4 : BitVec 6) (p5 : BitVec 4) (h : w = p0 ++ (p1 ++ (p2 ++ (p3 ++ (p4 ++ (p5)))))) :
    fld w 26 6 = p0 ∧ fld w 20 6 = p1 ∧ fld w 14 6 = p2 ∧ fld w 10 4 = p3 ∧ fld w 4 6 = p4 ∧ fld w 0 4 = p5 := by
  subst h
  exact ⟨field_top p0 (p1 ++ (p2 ++ (p3 ++ (p4 ++ (p5))))),
    (field_within (v := 26) (lo := 20) (n := 6) p0 (p1 ++ (p2 ++ (p3 ++ (p4 ++ (p5))))) (by decide)).trans (field_top p1 (p2 ++ (p3 ++ (p4 ++ (p5))))),
    (field_within (v := 26) (lo := 14) (n := 6) p0 (p1 ++ (p2 ++ (p3 ++ (p4 ++ (p5))))) (by decide)).trans ((field_within (v := 20) (lo := 14) (n := 6) p1 (p2 ++ (p3 ++ (p4 ++ (p5)))) (by decide)).trans (field_top p2 (p3 ++ (p4 ++ (p5))))),
    (field_within (v := 26) (lo := 10) (n := 4) p0 (p1 ++ (p2 ++ (p3 ++ (p4 ++ (p5))))) (by decide)).trans ((field_within (v := 20) (lo := 10) (n := 4) p1 (p2 ++ (p3 ++ (p4 ++ (p5)))) (by decide)).trans ((field_within (v := 14) (lo := 10) (n := 4) p2 (p3 ++ (p4 ++ (p5))) (by decide)).trans (field_top p3 (p4 ++ (p5))))),
    (field_within (v := 26) (lo := 4) (n := 6) p0 (p1 ++ (p2 ++ (p3 ++ (p4 ++ (p5))))) (by decide)).trans ((field_within (v := 20) (lo := 4) (n := 6) p1 (p2 ++ (p3 ++ (p4 ++ (p5)))) (by decide)).trans ((field_within (v := 14) (lo := 4) (n := 6) p2 (p3 ++ (p4 ++ (p5))) (by decide)).trans ((field_within (v := 10) (lo := 4) (n := 6) p3 (p4 ++ (p5)) (by decide)).trans (field_top p4 (p5))))),
    (field_within (v := 26) (lo := 0) (n := 4) p0 (p1 ++ (p2 ++ (p3 ++ (p4 ++ (p5))))) (by decide)).trans ((field_within (v := 20) (lo := 0) (n := 4) p1 (p2 ++ (p3 ++ (p4 ++ (p5)))) (by decide)).trans ((field_within (v := 14) (lo := 0) (n := 4) p2 (p3 ++ (p4 ++ (p5))) (by decide)).trans ((field_within (v := 10) (lo := 0) (n := 4) p3 (p4 ++ (p5)) (by decide)).trans ((field_within (v := 4) (lo := 0) (n := 4) p4 (p5) (by decide)).trans (field_all p5)))))⟩

theorem layout_6_6_6_5_1_8 {w : W32} (p0 : BitVec 6) (p1 : BitVec 6) (p2 : BitVec 6) (p3 : BitVec 5) (p4 : BitVec 1) (p5 : BitVec 8) (h : w = p0 ++ (p1 ++ (p2 ++ (p3 ++ (p4 ++ (p5)))))) :
    fld w 26 6 = p0 ∧ fld w 20 6 = p1 ∧ fld w 14 6 = p2 ∧ fld w 9 5 = p3 ∧ fld w 8 1 = p4 ∧ fld w 0 8 = p5 := by
  subst h
  exact ⟨field_top p0 (p1 ++ (p2 ++ (p3 ++ (p4 ++ (p5))))),
    (field_within (v := 26) (lo := 20) (n := 6) p0 (p1 ++ (p2 ++ (p3 ++ (p4 ++ (p5))))) (by decide)).trans (field_top p1 (p2 ++ (p3 ++ (p4 ++ (p5))))),
    (field_within (v := 26) (lo := 14) (n := 6) p0 (p1 ++ (p2 ++ (p3 ++ (p4 ++ (p5))))) (by decide)).trans ((field_within (v := 20) (lo := 14) (n := 6) p1 (p2 ++ (p3 ++ (p4 ++ (p5)))) (by decide)).trans (field_top p2 (p3 ++ (p4 ++ (p5))))),
    (field_within (v := 26) (lo := 9) (n := 5) p0 (p1 ++ (p2 ++ (p3 ++ (p4 ++ (p5))))) (by decide)).trans ((field_within (v := 20) (lo := 9) (n := 5) p1 (p2 ++ (p3 ++ (p4 ++ (p5)))) (by decide)).trans ((field_within (v := 14) (lo := 9) (n := 5) p2 (p3 ++ (p4 ++ (p5))) (by decide)).trans (field_top p3 (p4 ++ (p5))))),
    (field_within (v := 26) (lo := 8) (n := 1) p0 (p1 ++ (p2 ++ (p3 ++ (p4 ++ (p5))))) (by decide)).trans ((field_within (v := 20) (lo := 8) (n := 1) p1 (p2 ++ (p3 ++ (p4 ++ (p5)))) (by decide)).trans ((field_within (v := 14) (lo := 8) (n := 1) p2 (p3 ++ (p4 ++ (p5))) (by decide)).trans ((field_within (v := 9) (lo := 8) (n := 1) p3 (p4 ++ (p5)) (by decide)).trans (field_top p4 (p5))))),
    (field_within (v := 26) (lo := 0) (n := 8) p0 (p1 ++ (p2 ++ (p3 ++ (p4 ++ (p5))))) (by decide)).trans ((field_within (v := 20) (lo := 0) (n := 8) p1 (p2 ++ (p3 ++ (p4 ++ (p5)))) (by decide)).trans ((field_within (v := 14) (lo := 0) (n := 8) p2 (p3 ++ (p4 ++ (p5))) (by decide)).trans ((field_within (v := 9) (lo := 0) (n := 8) p3 (p4 ++ (p5)) (by decide)).trans ((field_within (v := 8) (lo := 0) (n := 8) p4 (p5) (by decide)).trans (field_all p5)))))⟩

theorem layout_6_6_6_6_1_3_4 {w : W32} (p0 : BitVec 6) (p1 : BitVec 6) (p2 : BitVec 6) (p3 : BitVec 6) (p4 : BitVec 1) (p5 : BitVec 3) (p6 : BitVec 4) (h : w = p0 ++ (p1 ++ (p2 ++ (p3 ++ (p4 ++ (p5 ++ (p6))))))) :
    fld w 26 6 = p0 ∧ fld w 20 6 = p1 ∧ fld w 14 6 = p2 ∧ fld w 8 6 = p3 ∧ fld w 7 1 = p4 ∧ fld w 4 3 = p5 ∧ fld w 0 4 = p6 := by
  subst h
  exact ⟨field_top p0 (p1 ++ (p2 ++ (p3 ++ (p4 ++ (p5 ++ (p6)))))),
    (field_within (v := 26) (lo := 20) (n := 6) p0 (p1 ++ (p2 ++ (p3 ++ (p4 ++ (p5 ++ (p6)))))) (by decide)).trans (field_top p1 (p2 ++ (p3 ++ (p4 ++ (p5 ++ (p6)))))),
    (field_within (v := 26) (lo := 14) (n := 6) p0 (p1 ++ (p2 ++ (p3 ++ (p4 ++ (p5 ++ (p6)))))) (by decide)).trans ((field_within (v := 20) (lo := 14) (n := 6) p1 (p2 ++ (p3 ++ (p4 ++ (p5 ++ (p6))))) (by decide)).trans (field_top p2 (p3 ++ (p4 ++ (p5 ++ (p6)))))),
    (field_within (v := 26) (lo := 8) (n := 6) p0 (p1 ++ (p2 ++ (p3 ++ (p4 ++ (p5 ++ (p6)))))) (by decide)).trans ((field_within (v := 20) (lo := 8) (n := 6) p1 (p2 ++ (p3 ++ (p4 ++ (p5 ++ (p6))))) (by decide)).trans ((field_within (v := 14) (lo := 8) (n := 6) p2 (p3 ++ (p4 ++ (p5 ++ (p6)))) (by decide)).trans (field_top p3 (p4 ++ (p5 ++ (p6)))))),
    (field_within (v := 26) (lo := 7) (n := 1) p0 (p1 ++ (p2 ++ (p3 ++ (p4 ++ (p5 ++ (p6)))))) (by decide)).trans ((field_within (v := 20) (lo := 7) (n := 1) p1 (p2 ++ (p3 ++ (p4 ++ (p5 ++ (p6))))) (by decide)).trans ((field_within (v := 14) (lo := 7) (n := 1) p2 (p3 ++ (p4 ++ (p5 ++ (p6)))) (by decide)).trans ((field_within (v := 8) (lo := 7) (n := 1) p3 (p4 ++ (p5 ++ (p6))) (by decide)).trans (field_top p4 (p5 ++ (p6)))))),
    (field_within (v := 26) (lo := 4) (n := 3) p0 (p1 ++ (p2 ++ (p3 ++ (p4 ++ (p5 ++ (p6)))))) (by decide)).trans ((field_within (v := 20) (lo := 4) (n := 3) p1 (p2 ++ (p3 ++ (p4 ++ (p5 ++ (p6))))) (by decide)).trans ((field_within (v := 14) (lo := 4) (n := 3) p2 (p3 ++ (p4 ++ (p5 ++ (p6)))) (by decide)).trans ((field_within (v := 8) (lo := 4) (n := 3) p3 (p4 ++ (p5 ++ (p6))) (by decide)).trans ((field_within (v := 7) (lo := 4) (n := 3) p4 (p5 ++ (p6)) (by decide)).trans (field_top p5 (p6)))))),
    (field_within (v := 26) (lo := 0) (n := 4) p0 (p1 ++ (p2 ++ (p3 ++ (p4 ++ (p5 ++ (p6)))))) (by decide)).trans ((field_within (v := 20) (lo := 0) (n := 4) p1 (p2 ++ (p3 ++ (p4 ++ (p5 ++ (p6))))) (by decide)).trans ((field_within (v := 14) (lo := 0) (n := 4) p2 (p3 ++ (p4 ++ (p5 ++ (p6)))) (by decide)).trans ((field_within (v := 8) (lo := 0) (n := 4) p3 (p4 ++ (p5 ++ (p6))) (by decide)).trans ((field_within (v := 7) (lo := 0) (n := 4) p4 (p5 ++ (p6)) (by decide)).trans ((field_within (v := 4) (lo := 0) (n := 4) p5 (p6) (by decide)).trans (field_all p6))))))⟩

theorem layout_6_6_6_6_2_3_1_2 {w : W32} (p0 : BitVec 6) (p1 : BitVec 6) (p2 : BitVec 6) (p3 : BitVec 6) (p4 : BitVec 2) (p5 : BitVec 3) (p6 : BitVec 1) (p7 : BitVec 2) (h : w = p0 ++ (p1 ++ (p2 ++ (p3 ++ (p4 ++ (p5 ++ (p6 ++ (p7)))))))) :
    fld w 26 6 = p0 ∧ fld w 20 6 = p1 ∧ fld w 14 6 = p2 ∧ fld w 8 6 = p3 ∧ fld w 6 2 = p4 ∧ fld w 3 3 = p5 ∧ fld w 2 1 = p6 ∧ fld w 0 2 = p7 := by
  subst h
  exact ⟨field_top p0 (p1 ++ (p2 ++ (p3 ++ (p4 ++ (p5 ++ (p6 ++ (p7))))))),
    (field_within (v := 26) (lo := 20) (n := 6) p0 (p1 ++ (p2 ++ (p3 ++ (p4 ++ (p5 ++ (p6 ++ (p7))))))) (by decide)).trans (field_top p1 (p2 ++ (p3 ++ (p4 ++ (p5 ++ (p6 ++ (p7))))))),
    (field_within (v := 26) (lo := 14) (n := 6) p0 (p1 ++ (p2 ++ (p3 ++ (p4 ++ (p5 ++ (p6 ++ (p7))))))) (by decide)).trans ((field_within (v := 20) (lo := 14) (n := 6) p1 (p2 ++ (p3 ++ (p4 ++ (p5 ++ (p6 ++ (p7)))))) (by decide)).trans (field_top p2 (p3 ++ (p4 ++ (p5 ++ (p6 ++ (p7))))))),
    (field_within (v := 26) (lo := 8) (n := 6) p0 (p1 ++ (p2 ++ (p3 ++ (p4 ++ (p5 ++ (p6 ++ (p7))))))) (by decide)).trans ((field_within (v := 20) (lo := 8) (n := 6) p1 (p2 ++ (p3 ++ (p4 ++ (p5 ++ (p6 ++ (p7)))))) (by decide)).trans ((field_within (v := 14) (lo := 8) (n := 6) p2 (p3 ++ (p4 ++ (p5 ++ (p6 ++ (p7))))) (by decide)).trans (field_top p3 (p4 ++ (p5 ++ (p6 ++ (p7))))))),
    (field_within (v := 26) (lo := 6) (n := 2) p0 (p1 ++ (p2 ++ (p3 ++ (p4 ++ (p5 ++ (p6 ++ (p7))))))) (by decide)).trans ((field_within (v := 20) (lo := 6) (n := 2) p1 (p2 ++ (p3 ++ (p4 ++ (p5 ++ (p6 ++ (p7)))))) (by decide)).trans ((field_within (v := 14) (lo := 6) (n := 2) p2 (p3 ++ (p4 ++ (p5 ++ (p6 ++ (p7))))) (by decide)).trans ((field_within (v := 8) (lo := 6) (n := 2) p3 (p4 ++ (p5 ++ (p6 ++ (p7)))) (by decide)).trans (field_top p4 (p5 ++ (p6 ++ (p7))))))),
    (field_within (v := 26) (lo := 3) (n := 3) p0 (p1 ++ (p2 ++ (p3 ++ (p4 ++ (p5 ++ (p6 ++ (p7))))))) (by decide)).trans ((field_within (v := 20) (lo := 3) (n := 3) p1 (p2 ++ (p3 ++ (p4 ++ (p5 ++ (p6 ++ (p7)))))) (by decide)).trans ((field_within (v := 14) (lo := 3) (n := 3) p2 (p3 ++ (p4 ++ (p5 ++ (p6 ++ (p7))))) (by decide)).trans ((field_within (v := 8) (lo := 3) (n := 3) p3 (p4 ++ (p5 ++ (p6 ++ (p7)))) (by decide)).trans ((field_within (v := 6) (lo := 3) (n := 3) p4 (p5 ++ (p6 ++ (p7))) (by decide)).trans (field_top p5 (p6 ++ (p7))))))),
    (field_within (v := 26) (lo := 2) (n := 1) p0 (p1 ++ (p2 ++ (p3 ++ (p4 ++ (p5 ++ (p6 ++ (p7))))))) (by decide)).trans ((field_within (v := 20) (lo := 2) (n := 1) p1 (p2 ++ (p3 ++ (p4 ++ (p5 ++ (p6 ++ (p7)))))) (by decide)).trans ((field_within (v := 14) (lo := 2) (n := 1) p2 (p3 ++ (p4 ++ (p5 ++ (p6 ++ (p7))))) (by decide)).trans ((field_within (v := 8) (lo := 2) (n := 1) p3 (p4 ++ (p5 ++ (p6 ++ (p7)))) (by decide)).trans ((field_within (v := 6) (lo := 2) (n := 1) p4 (p5 ++ (p6 ++ (p7))) (by decide)).trans ((field_within (v := 3) (lo := 2) (n := 1) p5 (p6 ++ (p7)) (by decide)).trans (field_top p6 (p7))))))),
    (field_within (v := 26) (lo := 0) (n := 2) p0 (p1 ++ (p2 ++ (p3 ++ (p4 ++ (p5 ++ (p6 ++ (p7))))))) (by decide)).trans ((field_within (v := 20) (lo := 0) (n := 2) p1 (p2 ++ (p3 ++ (p4 ++ (p5 ++ (p6 ++ (p7)))))) (by decide)).trans ((field_within (v := 14) (lo := 0) (n := 2) p2 (p3 ++ (p4 ++ (p5 ++ (p6 ++ (p7))))) (by decide)).trans ((field_within (v := 8) (lo := 0) (n := 2) p3 (p4 ++ (p5 ++ (p6 ++ (p7)))) (by decide)).trans ((field_within (v := 6) (lo := 0) (n := 2) p4 (p5 ++ (p6 ++ (p7))) (by decide)).trans ((field_within (v := 3) (lo := 0) (n := 2) p5 (p6 ++ (p7)) (by decide)).trans ((field_within (v := 2) (lo := 0) (n := 2) p6 (p7) (by decide)).trans (field_all p7)))))))⟩

theorem layout_6_6_6_6_3_1_1_3 {w : W32} (p0 : BitVec 6) (p1 : BitVec 6) (p2 : BitVec 6) (p3 : BitVec 6) (p4 : BitVec 3) (p5 : BitVec 1) (p6 : BitVec 1) (p7 : BitVec 3) (h : w = p0 ++ (p1 ++ (p2 ++ (p3 ++ (p4 ++ (p5 ++ (p6 ++ (p7)))))))) :
    fld w 26 6 = p0 ∧ fld w 20 6 = p1 ∧ fld w 14 6 = p2 ∧ fld w 8 6 = p3 ∧ fld w 5 3 = p4 ∧ fld w 4 1 = p5 ∧ fld w 3 1 = p6 ∧ fld w 0 3 = p7 := by
  subst h
  exact ⟨field_top p0 (p1 ++ (p2 ++ (p3 ++ (p4 ++ (p5 ++ (p6 ++ (p7))))))),
    (field_within (v := 26) (lo := 20) (n := 6) p0 (p1 ++ (p2 ++ (p3 ++ (p4 ++ (p5 ++ (p6 ++ (p7))))))) (by decide)).trans (field_top p1 (p2 ++ (p3 ++ (p4 ++ (p5 ++ (p6 ++ (p7))))))),
    (field_within (v := 26) (lo := 14) (n := 6) p0 (p1 ++ (p2 ++ (p3 ++ (p4 ++ (p5 ++ (p6 ++ (p7))))))) (by decide)).trans ((field_within (v := 20) (lo := 14) (n := 6) p1 (p2 ++ (p3 ++ (p4 ++ (p5 ++ (p6 ++ (p7)))))) (by decide)).trans (field_top p2 (p3 ++ (p4 ++ (p5 ++ (p6 ++ (p7))))))),
    (field_within (v := 26) (lo := 8) (n := 6) p0 (p1 ++ (p2 ++ (p3 ++ (p4 ++ (p5 ++ (p6 ++ (p7))))))) (by decide)).trans ((field_within (v := 20) (lo := 8) (n := 6) p1 (p2 ++ (p3 ++ (p4 ++ (p5 ++ (p6 ++ (p7)))))) (by decide)).trans ((field_within (v := 14) (lo := 8) (n := 6) p2 (p3 ++ (p4 ++ (p5 ++ (p6 ++ (p7))))) (by decide)).trans (field_top p3 (p4 ++ (p5 ++ (p6 ++ (p7))))))),
    (field_within (v := 26) (lo := 5) (n := 3) p0 (p1 ++ (p2 ++ (p3 ++ (p4 ++ (p5 ++ (p6 ++ (p7))))))) (by decide)).trans ((field_within (v := 20) (lo := 5) (n := 3) p1 (p2 ++ (p3 ++ (p4 ++ (p5 ++ (p6 ++ (p7)))))) (by decide)).trans ((field_within (v := 14) (lo := 5) (n := 3) p2 (p3 ++ (p4 ++ (p5 ++ (p6 ++ (p7))))) (by decide)).trans ((field_within (v := 8) (lo := 5) (n := 3) p3 (p4 ++ (p5 ++ (p6 ++ (p7)))) (by decide)).trans (field_top p4 (p5 ++ (p6 ++ (p7))))))),
    (field_within (v := 26) (lo := 4) (n := 1) p0 (p1 ++ (p2 ++ (p3 ++ (p4 ++ (p5 ++ (p6 ++ (p7))))))) (by decide)).trans ((field_within (v := 20) (lo := 4) (n := 1) p1 (p2 ++ (p3 ++ (p4 ++ (p5 ++ (p6 ++ (p7)))))) (by decide)).trans ((field_within (v := 14) (lo := 4) (n := 1) p2 (p3 ++ (p4 ++ (p5 ++ (p6 ++ (p7))))) (by decide)).trans ((field_within (v := 8) (lo := 4) (n := 1) p3 (p4 ++ (p5 ++ (p6 ++ (p7)))) (by decide)).trans ((field_within (v := 5) (lo := 4) (n := 1) p4 (p5 ++ (p6 ++ (p7))) (by decide)).trans (field_top p5 (p6 ++ (p7))))))),
    (field_within (v := 26) (lo := 3) (n := 1) p0 (p1 ++ (p2 ++ (p3 ++ (p4 ++ (p5 ++ (p6 ++ (p7))))))) (by decide)).trans ((field_within (v := 20) (lo := 3) (n := 1) p1 (p2 ++ (p3 ++ (p4 ++ (p5 ++ (p6 ++ (p7)))))) (by decide)).trans ((field_within (v := 14) (lo := 3) (n := 1) p2 (p3 ++ (p4 ++ (p5 ++ (p6 ++ (p7))))) (by decide)).trans ((field_within (v := 8) (lo := 3) (n := 1) p3 (p4 ++ (p5 ++ (p6 ++ (p7)))) (by decide)).trans ((field_within (v := 5) (lo := 3) (n := 1) p4 (p5 ++ (p6 ++ (p7))) (by decide)).trans ((field_within (v := 4) (lo := 3) (n := 1) p5 (p6 ++ (p7)) (by decide)).trans (field_top p6 (p7))))))),
    (field_within (v := 26) (lo := 0) (n := 3) p0 (p1 ++ (p2 ++ (p3 ++ (p4 ++ (p5 ++ (p6 ++ (p7))))))) (by decide)).trans ((field_within (v := 20) (lo := 0) (n := 3) p1 (p2 ++ (p3 ++ (p4 ++ (p5 ++ (p6 ++ (p7)))))) (by decide)).trans ((field_within (v := 14) (lo := 0) (n := 3) p2 (p3 ++ (p4 ++ (p5 ++ (p6 ++ (p7))))) (by decide)).trans ((field_within (v := 8) (lo := 0) (n := 3) p3 (p4 ++ (p5 ++ (p6 ++ (p7)))) (by decide)).trans ((field_within (v := 5) (lo := 0) (n := 3) p4 (p5 ++ (p6 ++ (p7))) (by decide)).trans ((field_within (v := 4) (lo := 0) (n := 3) p5 (p6 ++ (p7)) (by decide)).trans ((field_within (v := 3) (lo := 0) (n := 3) p6 (p7) (by decide)).trans (field_all p7)))))))⟩

theorem layout_6_6_6_6_4_4 {w : W32} (p0 : BitVec 6) (p1 : BitVec 6) (p2 : BitVec 6) (p3 : BitVec 6) (p4 : BitVec 4) (p5 : BitVec 4) (h : w = p0 ++ (p1 ++ (p2 ++ (p3 ++ (p4 ++ (p5)))))) :
    fld w 26 6 = p0 ∧ fld w 20 6 = p1 ∧ fld w 14 6 = p2 ∧ fld w 8 6 = p3 ∧ fld w 4 4 = p4 ∧ fld w 0 4 = p5 := by
  subst h
  exact ⟨field_top p0 (p1 ++ (p2 ++ (p3 ++ (p4 ++ (p5))))),
    (field_within (v := 26) (lo := 20) (n := 6) p0 (p1 ++ (p2 ++ (p3 ++ (p4 ++ (p5))))) (by decide)).trans (field_top p1 (p2 ++ (p3 ++ (p4 ++ (p5))))),
    (field_within (v := 26) (lo := 14) (n := 6) p0 (p1 ++ (p2 ++ (p3 ++ (p4 ++ (p5))))) (by decide)).trans ((field_within (v := 20) (lo := 14) (n := 6) p1 (p2 ++ (p3 ++ (p4 ++ (p5)))) (by decide)).trans (field_top p2 (p3 ++ (p4 ++ (p5))))),
    (field_within (v := 26) (lo := 8) (n := 6) p0 (p1 ++ (p2 ++ (p3 ++ (p4 ++ (p5))))) (by decide)).trans ((field_within (v := 20) (lo := 8) (n := 6) p1 (p2 ++ (p3 ++ (p4 ++ (p5)))) (by decide)).trans ((field_within (v := 14) (lo := 8) (n := 6) p2 (p3 ++ (p4 ++ (p5))) (by decide)).trans (field_top p3 (p4 ++ (p5))))),
    (field_within (v := 26) (lo := 4) (n := 4) p0 (p1 ++ (p2 ++ (p3 ++ (p4 ++ (p5))))) (by decide)).trans ((field_within (v := 20) (lo := 4) (n := 4) p1 (p2 ++ (p3 ++ (p4 ++ (p5)))) (by decide)).trans ((field_within (v := 14) (lo := 4) (n := 4) p2 (p3 ++ (p4 ++ (p5))) (by decide)).trans ((field_within (v := 8) (lo := 4) (n := 4) p3 (p4 ++ (p5)) (by decide)).trans (field_top p4 (p5))))),
    (field_within (v := 26) (lo := 0) (n := 4) p0 (p1 ++ (p2 ++ (p3 ++ (p4 ++ (p5))))) (by decide)).trans ((field_within (v := 20) (lo := 0) (n := 4) p1 (p2 ++ (p3 ++ (p4 ++ (p5)))) (by decide)).trans ((field_within (v := 14) (lo := 0) (n := 4) p2 (p3 ++ (p4 ++ (p5))) (by decide)).trans ((field_within (v := 8) (lo := 0) (n := 4) p3 (p4 ++ (p5)) (by decide)).trans ((field_within (v := 4) (lo := 0) (n := 4) p4 (p5) (by decide)).trans (field_all p5)))))⟩

theorem layout_6_6_6_10_4 {w : W32} (p0 : BitVec 6) (p1 : BitVec 6) (p2 : BitVec 6) (p3 : BitVec 10) (p4 : BitVec 4) (h : w = p0 ++ (p1 ++ (p2 ++ (p3 ++ (p4))))) :
    fld w 26 6 = p0 ∧ fld w 20 6 = p1 ∧ fld w 14 6 = p2 ∧ fld w 4 10 = p3 ∧ fld w 0 4 = p4 := by
  subst h
  exact ⟨field_top p0 (p1 ++ (p2 ++ (p3 ++ (p4)))),
    (field_within (v := 26) (lo := 20) (n := 6) p0 (p1 ++ (p2 ++ (p3 ++ (p4)))) (by decide)).trans (field_top p1 (p2 ++ (p3 ++ (p4)))),
    (field_within (v := 26) (lo := 14) (n := 6) p0 (p1 ++ (p2 ++ (p3 ++ (p4)))) (by decide)).trans ((field_within (v := 20) (lo := 14) (n := 6) p1 (p2 ++ (p3 ++ (p4))) (by decide)).trans (field_top p2 (p3 ++ (p4)))),
    (field_within (v := 26) (lo := 4) (n := 10) p0 (p1 ++ (p2 ++ (p3 ++ (p4)))) (by decide)).trans ((field_within (v := 20) (lo := 4) (n := 10) p1 (p2 ++ (p3 ++ (p4))) (by decide)).trans ((field_within (v := 14) (lo := 4) (n := 10) p2 (p3 ++ (p4)) (by decide)).trans (field_top p3 (p4)))),
    (field_within (v := 26) (lo := 0) (n := 4) p0 (p1 ++ (p2 ++ (p3 ++ (p4)))) (by decide)).trans ((field_within (v := 20) (lo := 0) (n := 4) p1 (p2 ++ (p3 ++ (p4))) (by decide)).trans ((field_within (v := 14) (lo := 0) (n := 4) p2 (p3 ++ (p4)) (by decide)).trans ((field_within (v := 4) (lo := 0) (n := 4) p3 (p4) (by decide)).trans (field_all p4))))⟩

theorem layout_6_6_6_12_2 {w : W32} (p0 : BitVec 6) (p1 : BitVec 6) (p2 : BitVec 6) (p3 : BitVec 12) (p4 : BitVec 2) (h : w = p0 ++ (p1 ++ (p2 ++ (p3 ++ (p4))))) :
    fld w 26 6 = p0 ∧ fld w 20 6 = p1 ∧ fld w 14 6 = p2 ∧ fld w 2 12 = p3 ∧ fld w 0 2 = p4 := by
  subst h
  exact ⟨field_top p0 (p1 ++ (p2 ++ (p3 ++ (p4)))),
    (field_within (v := 26) (lo := 20) (n := 6) p0 (p1 ++ (p2 ++ (p3 ++ (p4)))) (by decide)).trans (field_top p1 (p2 ++ (p3 ++ (p4)))),
    (field_within (v := 26) (lo := 14) (n := 6) p0 (p1 ++ (p2 ++ (p3 ++ (p4)))) (by decide)).trans ((field_within (v := 20) (lo := 14) (n := 6) p1 (p2 ++ (p3 ++ (p4))) (by decide)).trans (field_top p2 (p3 ++ (p4)))),
    (field_within (v := 26) (lo := 2) (n := 12) p0 (p1 ++ (p2 ++ (p3 ++ (p4)))) (by decide)).trans ((field_within (v := 20) (lo := 2) (n := 12) p1 (p2 ++ (p3 ++ (p4))) (by decide)).trans ((field_within (v := 14) (lo := 2) (n := 12) p2 (p3 ++ (p4)) (by decide)).trans (field_top p3 (p4)))),
    (field_within (v := 26) (lo := 0) (n := 2) p0 (p1 ++ (p2 ++ (p3 ++ (p4)))) (by decide)).trans ((field_within (v := 20) (lo := 0) (n := 2) p1 (p2 ++ (p3 ++ (p4))) (by decide)).trans ((field_within (v := 14) (lo := 0) (n := 2) p2 (p3 ++ (p4)) (by decide)).trans ((field_within (v := 2) (lo := 0) (n := 2) p3 (p4) (by decide)).trans (field_all p4))))⟩

theorem layout_6_6_12_1_1_2_4 {w : W32} (p0 : BitVec 6) (p1 : BitVec 6) (p2 : BitVec 12) (p3 : BitVec 1) (p4 : BitVec 1) (p5 : BitVec 2) (p6 : BitVec 4) (h : w = p0 ++ (p1 ++ (p2 ++ (p3 ++ (p4 ++ (p5 ++ (p6))))))) :
    fld w 26 6 = p0 ∧ fld w 20 6 = p1 ∧ fld w 8 12 = p2 ∧ fld w 7 1 = p3 ∧ fld w 6 1 = p4 ∧ fld w 4 2 = p5 ∧ fld w 0 4 = p6 := by
  subst h
  exact ⟨field_top p0 (p1 ++ (p2 ++ (p3 ++ (p4 ++ (p5 ++ (p6)))))),
    (field_within (v := 26) (lo := 20) (n := 6) p0 (p1 ++ (p2 ++ (p3 ++ (p4 ++ (p5 ++ (p6)))))) (by decide)).trans (field_top p1 (p2 ++ (p3 ++ (p4 ++ (p5 ++ (p6)))))),
    (field_within (v := 26) (lo := 8) (n := 12) p0 (p1 ++ (p2 ++ (p3 ++ (p4 ++ (p5 ++ (p6)))))) (by decide)).trans ((field_within (v := 20) (lo := 8) (n := 12) p1 (p2 ++ (p3 ++ (p4 ++ (p5 ++ (p6))))) (by decide)).trans (field_top p2 (p3 ++ (p4 ++ (p5 ++ (p6)))))),
    (field_within (v := 26) (lo := 7) (n := 1) p0 (p1 ++ (p2 ++ (p3 ++ (p4 ++ (p5 ++ (p6)))))) (by decide)).trans ((field_within (v := 20) (lo := 7) (n := 1) p1 (p2 ++ (p3 ++ (p4 ++ (p5 ++ (p6))))) (by decide)).trans ((field_within (v := 8) (lo := 7) (n := 1) p2 (p3 ++ (p4 ++ (p5 ++ (p6)))) (by decide)).trans (field_top p3 (p4 ++ (p5 ++ (p6)))))),
    (field_within (v := 26) (lo := 6) (n := 1) p0 (p1 ++ (p2 ++ (p3 ++ (p4 ++ (p5 ++ (p6)))))) (by decide)).trans ((field_within (v := 20) (lo := 6) (n := 1) p1 (p2 ++ (p3 ++ (p4 ++ (p5 ++ (p6))))) (by decide)).trans ((field_within (v := 8) (lo := 6) (n := 1) p2 (p3 ++ (p4 ++ (p5 ++ (p6)))) (by decide)).trans ((field_within (v := 7) (lo := 6) (n := 1) p3 (p4 ++ (p5 ++ (p6))) (by decide)).trans (field_top p4 (p5 ++ (p6)))))),
    (field_within (v := 26) (lo := 4) (n := 2) p0 (p1 ++ (p2 ++ (p3 ++ (p4 ++ (p5 ++ (p6)))))) (by decide)).trans ((field_within (v := 20) (lo := 4) (n := 2) p1 (p2 ++ (p3 ++ (p4 ++ (p5 ++ (p6))))) (by decide)).trans ((field_within (v := 8) (lo := 4) (n := 2) p2 (p3 ++ (p4 ++ (p5 ++ (p6)))) (by decide)).trans ((field_within (v := 7) (lo := 4) (n := 2) p3 (p4 ++ (p5 ++ (p6))) (by decide)).trans ((field_within (v := 6) (lo := 4) (n := 2) p4 (p5 ++ (p6)) (by decide)).trans (field_top p5 (p6)))))),
    (field_within (v := 26) (lo := 0) (n := 4) p0 (p1 ++ (p2 ++ (p3 ++ (p4 ++ (p5 ++ (p6)))))) (by decide)).trans ((field_within (v := 20) (lo := 0) (n := 4) p1 (p2 ++ (p3 ++ (p4 ++ (p5 ++ (p6))))) (by decide)).trans ((field_within (v := 8) (lo := 0) (n := 4) p2 (p3 ++ (p4 ++ (p5 ++ (p6)))) (by decide)).trans ((field_within (v := 7) (lo := 0) (n := 4) p3 (p4 ++ (p5 ++ (p6))) (by decide)).trans ((field_within (v := 6) (lo := 0) (n := 4) p4 (p5 ++ (p6)) (by decide)).trans ((field_within (v := 4) (lo := 0) (n := 4) p5 (p6) (by decide)).trans (field_all p6))))))⟩

theorem layout_6_6_16_4 {w : W32} (p0 : BitVec 6) (p1 : BitVec 6) (p2 : BitVec 16) (p3 : BitVec 4) (h : w = p0 ++ (p1 ++ (p2 ++ (p3)))) :
    fld w 26 6 = p0 ∧ fld w 20 6 = p1 ∧ fld w 4 16 = p2 ∧ fld w 0 4 = p3 := by
  subst h
  exact ⟨field_top p0 (p1 ++ (p2 ++ (p3))),
    (field_within (v := 26) (lo := 20) (n := 6) p0 (p1 ++ (p2 ++ (p3))) (by decide)).trans (field_top p1 (p2 ++ (p3))),
    (field_within (v := 26) (lo := 4) (n := 16) p0 (p1 ++ (p2 ++ (p3))) (by decide)).trans ((field_within (v := 20) (lo := 4) (n := 16) p1 (p2 ++ (p3)) (by decide)).trans (field_top p2 (p3))),
    (field_within (v := 26) (lo := 0) (n := 4) p0 (p1 ++ (p2 ++ (p3))) (by decide)).trans ((field_within (v := 20) (lo := 0) (n := 4) p1 (p2 ++ (p3)) (by decide)).trans ((field_within (v := 4) (lo := 0) (n := 4) p2 (p3) (by decide)).trans (field_all p3)))⟩

theorem layout_6_18_4_4 {w : W32} (p0 : BitVec 6) (p1 : BitVec 18) (p2 : BitVec 4) (p3 : BitVec 4) (h : w = p0 ++ (p1 ++ (p2 ++ (p3)))) :
    fld w 26 6 = p0 ∧ fld w 8 18 = p1 ∧ fld w 4 4 = p2 ∧ fld w 0 4 = p3 := by
  subst h
  exact ⟨field_top p0 (p1 ++ (p2 ++ (p3))),
    (field_within (v := 26) (lo := 8) (n := 18) p0 (p1 ++ (p2 ++ (p3))) (by decide)).trans (field_top p1 (p2 ++ (p3))),
    (field_within (v := 26) (lo := 4) (n := 4) p0 (p1 ++ (p2 ++ (p3))) (by decide)).trans ((field_within (v := 8) (lo := 4) (n := 4) p1 (p2 ++ (p3)) (by decide)).trans (field_top p2 (p3))),
    (field_within (v := 26) (lo := 0) (n := 4) p0 (p1 ++ (p2 ++ (p3))) (by decide)).trans ((field_within (v := 8) (lo := 0) (n := 4) p1 (p2 ++ (p3)) (by decide)).trans ((field_within (v := 4) (lo := 0) (n := 4) p2 (p3) (by decide)).trans (field_all p3)))⟩

theorem layout_6_22_4 {w : W32} (p0 : BitVec 6) (p1 : BitVec 22) (p2 : BitVec 4) (h : w = p0 ++ (p1 ++ (p2))) :
    fld w 26 6 = p0 ∧ fld w 4 22 = p1 ∧ fld w 0 4 = p2 := by
  subst h
  exact ⟨field_top p0 (p1 ++ (p2)),
    (field_within (v := 26) (lo := 4) (n := 22) p0 (p1 ++ (p2)) (by decide)).trans (field_top p1 (p2)),
    (field_within (v := 26) (lo := 0) (n := 4) p0 (p1 ++ (p2)) (by decide)).trans ((field_within (v := 4) (lo := 0) (n := 4) p1 (p2) (by decide)).trans (field_all p2))⟩

theorem majorS_01 {w : W32} (h : fld w 26 6 = 1#6) : decodeS w = decodeS01 w := by
  simp [decodeS, h, word_ne_zero h (by decide)]

theorem majorS_02 {w : W32} (h : fld w 26 6 = 2#6) : decodeS w = decodeS02 w := by
  simp [decodeS, h, word_ne_zero h (by decide)]

theorem majorS_03 {w : W32} (h : fld w 26 6 = 3#6) : decodeS w = decodeS03 w := by
  simp [decodeS, h, word_ne_zero h (by decide)]

theorem majorS_04 {w : W32} (h : fld w 26 6 = 4#6) : decodeS w = decodeS04 w := by
  simp [decodeS, h, word_ne_zero h (by decide)]

theorem majorS_05 {w : W32} (h : fld w 26 6 = 5#6) : decodeS w = decodeS05 w := by
  simp [decodeS, h, word_ne_zero h (by decide)]

theorem majorS_08 {w : W32} (h : fld w 26 6 = 8#6) : decodeS w = decodeS08 w := by
  simp [decodeS, h, word_ne_zero h (by decide)]

theorem majorS_09 {w : W32} (h : fld w 26 6 = 9#6) : decodeS w = decodeS09 w := by
  simp [decodeS, h, word_ne_zero h (by decide)]

theorem majorS_0A {w : W32} (h : fld w 26 6 = 10#6) : decodeS w = decodeS0A w := by
  simp [decodeS, h, word_ne_zero h (by decide)]

theorem majorS_0B {w : W32} (h : fld w 26 6 = 11#6) : decodeS w = decodeS0B w := by
  simp [decodeS, h, word_ne_zero h (by decide)]

theorem majorS_0C {w : W32} (h : fld w 26 6 = 12#6) : decodeS w = decodeS0C w := by
  simp [decodeS, h, word_ne_zero h (by decide)]

theorem majorS_0D {w : W32} (h : fld w 26 6 = 13#6) : decodeS w = decodeS0D w := by
  simp [decodeS, h, word_ne_zero h (by decide)]

theorem majorS_0E {w : W32} (h : fld w 26 6 = 14#6) : decodeS w = decodeS0E w := by
  simp [decodeS, h, word_ne_zero h (by decide)]

theorem majorS_10 {w : W32} (h : fld w 26 6 = 16#6) : decodeS w = decodeS10 w := by
  simp [decodeS, h, word_ne_zero h (by decide)]

theorem majorS_11 {w : W32} (h : fld w 26 6 = 17#6) : decodeS w = decodeS11 w := by
  simp [decodeS, h, word_ne_zero h (by decide)]

theorem majorS_14 {w : W32} (h : fld w 26 6 = 20#6) : decodeS w = decodeS14 w := by
  simp [decodeS, h, word_ne_zero h (by decide)]

theorem majorS_15 {w : W32} (h : fld w 26 6 = 21#6) : decodeS w = decodeS15 w := by
  simp [decodeS, h, word_ne_zero h (by decide)]

theorem majorS_18 {w : W32} (h : fld w 26 6 = 24#6) : decodeS w = decodeS18 w := by
  simp [decodeS, h, word_ne_zero h (by decide)]

theorem majorS_19 {w : W32} (h : fld w 26 6 = 25#6) : decodeS w = decodeS19 w := by
  simp [decodeS, h, word_ne_zero h (by decide)]

theorem majorS_1A {w : W32} (h : fld w 26 6 = 26#6) : decodeS w = decodeS1A w := by
  simp [decodeS, h, word_ne_zero h (by decide)]

theorem majorS_1B {w : W32} (h : fld w 26 6 = 27#6) : decodeS w = decodeS1B w := by
  simp [decodeS, h, word_ne_zero h (by decide)]

theorem majorS_1C {w : W32} (h : fld w 26 6 = 28#6) : decodeS w = decodeS1C w := by
  simp [decodeS, h, word_ne_zero h (by decide)]

theorem majorS_20 {w : W32} (h : fld w 26 6 = 32#6) : decodeS w = decodeS20 w := by
  simp [decodeS, h, word_ne_zero h (by decide)]

theorem majorS_24 {w : W32} (h : fld w 26 6 = 36#6) : decodeS w = decodeS24 w := by
  simp [decodeS, h, word_ne_zero h (by decide)]

theorem majorS_28 {w : W32} (h : fld w 26 6 = 40#6) : decodeS w = decodeS28 w := by
  simp [decodeS, h, word_ne_zero h (by decide)]

theorem majorS_29 {w : W32} (h : fld w 26 6 = 41#6) : decodeS w = decodeS29 w := by
  simp [decodeS, h, word_ne_zero h (by decide)]

theorem majorV_01 {w : W32} (h : fld w 26 6 = 1#6) : decodeV w = decodeV01 w := by
  simp [decodeV, h, word_ne_zero h (by decide)]

theorem majorV_02 {w : W32} (h : fld w 26 6 = 2#6) : decodeV w = decodeV02 w := by
  simp [decodeV, h, word_ne_zero h (by decide)]

theorem majorV_03 {w : W32} (h : fld w 26 6 = 3#6) : decodeV w = decodeV03 w := by
  simp [decodeV, h, word_ne_zero h (by decide)]

theorem majorV_04 {w : W32} (h : fld w 26 6 = 4#6) : decodeV w = decodeV04 w := by
  simp [decodeV, h, word_ne_zero h (by decide)]

theorem majorV_05 {w : W32} (h : fld w 26 6 = 5#6) : decodeV w = decodeV05 w := by
  simp [decodeV, h, word_ne_zero h (by decide)]

theorem majorV_06 {w : W32} (h : fld w 26 6 = 6#6) : decodeV w = decodeV06 w := by
  simp [decodeV, h, word_ne_zero h (by decide)]

theorem majorV_07 {w : W32} (h : fld w 26 6 = 7#6) : decodeV w = decodeV07 w := by
  simp [decodeV, h, word_ne_zero h (by decide)]

theorem majorV_08 {w : W32} (h : fld w 26 6 = 8#6) : decodeV w = decodeV08 w := by
  simp [decodeV, h, word_ne_zero h (by decide)]

theorem majorV_09 {w : W32} (h : fld w 26 6 = 9#6) : decodeV w = decodeV09 w := by
  simp [decodeV, h, word_ne_zero h (by decide)]

theorem majorV_0A {w : W32} (h : fld w 26 6 = 10#6) : decodeV w = decodeV0A w := by
  simp [decodeV, h, word_ne_zero h (by decide)]

theorem majorV_0B {w : W32} (h : fld w 26 6 = 11#6) : decodeV w = decodeV0B w := by
  simp [decodeV, h, word_ne_zero h (by decide)]

theorem majorV_0C {w : W32} (h : fld w 26 6 = 12#6) : decodeV w = decodeV0C w := by
  simp [decodeV, h, word_ne_zero h (by decide)]

theorem majorV_0D {w : W32} (h : fld w 26 6 = 13#6) : decodeV w = decodeV0D w := by
  simp [decodeV, h, word_ne_zero h (by decide)]

theorem majorV_0E {w : W32} (h : fld w 26 6 = 14#6) : decodeV w = decodeV0E w := by
  simp [decodeV, h, word_ne_zero h (by decide)]

theorem majorV_0F {w : W32} (h : fld w 26 6 = 15#6) : decodeV w = decodeV0F w := by
  simp [decodeV, h, word_ne_zero h (by decide)]

theorem majorV_10 {w : W32} (h : fld w 26 6 = 16#6) : decodeV w = decodeV10 w := by
  simp [decodeV, h, word_ne_zero h (by decide)]

theorem majorV_11 {w : W32} (h : fld w 26 6 = 17#6) : decodeV w = decodeV11 w := by
  simp [decodeV, h, word_ne_zero h (by decide)]

theorem majorV_12 {w : W32} (h : fld w 26 6 = 18#6) : decodeV w = decodeV12 w := by
  simp [decodeV, h, word_ne_zero h (by decide)]

theorem majorV_13 {w : W32} (h : fld w 26 6 = 19#6) : decodeV w = decodeV13 w := by
  simp [decodeV, h, word_ne_zero h (by decide)]

theorem majorV_14 {w : W32} (h : fld w 26 6 = 20#6) : decodeV w = decodeV14 w := by
  simp [decodeV, h, word_ne_zero h (by decide)]

theorem majorV_15 {w : W32} (h : fld w 26 6 = 21#6) : decodeV w = decodeV15 w := by
  simp [decodeV, h, word_ne_zero h (by decide)]

theorem majorV_16 {w : W32} (h : fld w 26 6 = 22#6) : decodeV w = decodeV16 w := by
  simp [decodeV, h, word_ne_zero h (by decide)]

theorem majorV_17 {w : W32} (h : fld w 26 6 = 23#6) : decodeV w = decodeV17 w := by
  simp [decodeV, h, word_ne_zero h (by decide)]

theorem majorV_18 {w : W32} (h : fld w 26 6 = 24#6) : decodeV w = decodeV18 w := by
  simp [decodeV, h, word_ne_zero h (by decide)]

theorem majorV_19 {w : W32} (h : fld w 26 6 = 25#6) : decodeV w = decodeV19 w := by
  simp [decodeV, h, word_ne_zero h (by decide)]

theorem majorV_1A {w : W32} (h : fld w 26 6 = 26#6) : decodeV w = decodeV1A w := by
  simp [decodeV, h, word_ne_zero h (by decide)]

theorem majorV_1B {w : W32} (h : fld w 26 6 = 27#6) : decodeV w = decodeV1B w := by
  simp [decodeV, h, word_ne_zero h (by decide)]

theorem majorV_1C {w : W32} (h : fld w 26 6 = 28#6) : decodeV w = decodeV1C w := by
  simp [decodeV, h, word_ne_zero h (by decide)]

theorem majorV_1D {w : W32} (h : fld w 26 6 = 29#6) : decodeV w = decodeV1D w := by
  simp [decodeV, h, word_ne_zero h (by decide)]

theorem majorV_1E {w : W32} (h : fld w 26 6 = 30#6) : decodeV w = decodeV1E w := by
  simp [decodeV, h, word_ne_zero h (by decide)]

theorem majorV_1F {w : W32} (h : fld w 26 6 = 31#6) : decodeV w = decodeV1F w := by
  simp [decodeV, h, word_ne_zero h (by decide)]

theorem majorV_20 {w : W32} (h : fld w 26 6 = 32#6) : decodeV w = decodeV20 w := by
  simp [decodeV, h, word_ne_zero h (by decide)]

theorem majorV_21 {w : W32} (h : fld w 26 6 = 33#6) : decodeV w = decodeV21 w := by
  simp [decodeV, h, word_ne_zero h (by decide)]

theorem majorV_22 {w : W32} (h : fld w 26 6 = 34#6) : decodeV w = decodeV22 w := by
  simp [decodeV, h, word_ne_zero h (by decide)]

theorem majorV_23 {w : W32} (h : fld w 26 6 = 35#6) : decodeV w = decodeV23 w := by
  simp [decodeV, h, word_ne_zero h (by decide)]

theorem majorV_24 {w : W32} (h : fld w 26 6 = 36#6) : decodeV w = decodeV24 w := by
  simp [decodeV, h, word_ne_zero h (by decide)]

theorem majorV_25 {w : W32} (h : fld w 26 6 = 37#6) : decodeV w = decodeV25 w := by
  simp [decodeV, h, word_ne_zero h (by decide)]

theorem majorV_26 {w : W32} (h : fld w 26 6 = 38#6) : decodeV w = decodeV26 w := by
  simp [decodeV, h, word_ne_zero h (by decide)]

theorem majorV_27 {w : W32} (h : fld w 26 6 = 39#6) : decodeV w = decodeV27 w := by
  simp [decodeV, h, word_ne_zero h (by decide)]

theorem majorV_28 {w : W32} (h : fld w 26 6 = 40#6) : decodeV w = decodeV28 w := by
  simp [decodeV, h, word_ne_zero h (by decide)]

theorem majorV_29 {w : W32} (h : fld w 26 6 = 41#6) : decodeV w = decodeV29 w := by
  simp [decodeV, h, word_ne_zero h (by decide)]

theorem majorV_2A {w : W32} (h : fld w 26 6 = 42#6) : decodeV w = decodeV2A w := by
  simp [decodeV, h, word_ne_zero h (by decide)]

theorem majorV_2B {w : W32} (h : fld w 26 6 = 43#6) : decodeV w = decodeV2B w := by
  simp [decodeV, h, word_ne_zero h (by decide)]

theorem majorV_2C {w : W32} (h : fld w 26 6 = 44#6) : decodeV w = decodeV2C w := by
  simp [decodeV, h, word_ne_zero h (by decide)]

theorem majorV_30 {w : W32} (h : fld w 26 6 = 48#6) : decodeV w = decodeV30 w := by
  simp [decodeV, h, word_ne_zero h (by decide)]

theorem majorV_31 {w : W32} (h : fld w 26 6 = 49#6) : decodeV w = decodeV31 w := by
  simp [decodeV, h, word_ne_zero h (by decide)]

theorem majorV_32 {w : W32} (h : fld w 26 6 = 50#6) : decodeV w = decodeV32 w := by
  simp [decodeV, h, word_ne_zero h (by decide)]

theorem majorV_33 {w : W32} (h : fld w 26 6 = 51#6) : decodeV w = decodeV33 w := by
  simp [decodeV, h, word_ne_zero h (by decide)]

theorem majorV_34 {w : W32} (h : fld w 26 6 = 52#6) : decodeV w = decodeV34 w := by
  simp [decodeV, h, word_ne_zero h (by decide)]

theorem majorV_35 {w : W32} (h : fld w 26 6 = 53#6) : decodeV w = decodeV35 w := by
  simp [decodeV, h, word_ne_zero h (by decide)]

theorem majorV_36 {w : W32} (h : fld w 26 6 = 54#6) : decodeV w = decodeV36 w := by
  simp [decodeV, h, word_ne_zero h (by decide)]

theorem majorV_37 {w : W32} (h : fld w 26 6 = 55#6) : decodeV w = decodeV37 w := by
  simp [decodeV, h, word_ne_zero h (by decide)]

theorem majorV_38 {w : W32} (h : fld w 26 6 = 56#6) : decodeV w = decodeV38 w := by
  simp [decodeV, h, word_ne_zero h (by decide)]

theorem majorV_39 {w : W32} (h : fld w 26 6 = 57#6) : decodeV w = decodeV39 w := by
  simp [decodeV, h, word_ne_zero h (by decide)]

theorem majorV_3A {w : W32} (h : fld w 26 6 = 58#6) : decodeV w = decodeV3A w := by
  simp [decodeV, h, word_ne_zero h (by decide)]

theorem majorV_3B {w : W32} (h : fld w 26 6 = 59#6) : decodeV w = decodeV3B w := by
  simp [decodeV, h, word_ne_zero h (by decide)]

theorem majorV_3C {w : W32} (h : fld w 26 6 = 60#6) : decodeV w = decodeV3C w := by
  simp [decodeV, h, word_ne_zero h (by decide)]

theorem majorV_3D {w : W32} (h : fld w 26 6 = 61#6) : decodeV w = decodeV3D w := by
  simp [decodeV, h, word_ne_zero h (by decide)]

theorem majorM_01 {w : W32} (x : Option (BitVec 4)) (h : fld w 26 6 = 1#6) : decodeM w x = decodeM01 w x := by
  simp [decodeM, h, word_ne_zero h (by decide)]

theorem majorM_02 {w : W32} (x : Option (BitVec 4)) (h : fld w 26 6 = 2#6) : decodeM w x = decodeM02 w x := by
  simp [decodeM, h, word_ne_zero h (by decide)]

theorem majorM_03 {w : W32} (x : Option (BitVec 4)) (h : fld w 26 6 = 3#6) : decodeM w x = decodeM03 w x := by
  simp [decodeM, h, word_ne_zero h (by decide)]

theorem majorM_04 {w : W32} (x : Option (BitVec 4)) (h : fld w 26 6 = 4#6) : decodeM w x = decodeM04 w x := by
  simp [decodeM, h, word_ne_zero h (by decide)]

theorem majorM_05 {w : W32} (x : Option (BitVec 4)) (h : fld w 26 6 = 5#6) : decodeM w x = decodeM05 w x := by
  simp [decodeM, h, word_ne_zero h (by decide)]

theorem majorM_06 {w : W32} (x : Option (BitVec 4)) (h : fld w 26 6 = 6#6) : decodeM w x = decodeM06 w x := by
  simp [decodeM, h, word_ne_zero h (by decide)]

theorem majorM_07 {w : W32} (x : Option (BitVec 4)) (h : fld w 26 6 = 7#6) : decodeM w x = decodeM07 w x := by
  simp [decodeM, h, word_ne_zero h (by decide)]

theorem majorM_08 {w : W32} (x : Option (BitVec 4)) (h : fld w 26 6 = 8#6) : decodeM w x = decodeM08 w x := by
  simp [decodeM, h, word_ne_zero h (by decide)]

theorem majorM_09 {w : W32} (x : Option (BitVec 4)) (h : fld w 26 6 = 9#6) : decodeM w x = decodeM09 w x := by
  simp [decodeM, h, word_ne_zero h (by decide)]

theorem majorM_0A {w : W32} (x : Option (BitVec 4)) (h : fld w 26 6 = 10#6) : decodeM w x = decodeM0A w x := by
  simp [decodeM, h, word_ne_zero h (by decide)]

theorem majorM_0B {w : W32} (x : Option (BitVec 4)) (h : fld w 26 6 = 11#6) : decodeM w x = decodeM0B w x := by
  simp [decodeM, h, word_ne_zero h (by decide)]

theorem majorM_10 {w : W32} (x : Option (BitVec 4)) (h : fld w 26 6 = 16#6) : decodeM w x = decodeM10 w := by
  simp [decodeM, h, word_ne_zero h (by decide)]

theorem majorM_11 {w : W32} (x : Option (BitVec 4)) (h : fld w 26 6 = 17#6) : decodeM w x = decodeM11 w := by
  simp [decodeM, h, word_ne_zero h (by decide)]

theorem majorM_12 {w : W32} (x : Option (BitVec 4)) (h : fld w 26 6 = 18#6) : decodeM w x = decodeM12 w := by
  simp [decodeM, h, word_ne_zero h (by decide)]

theorem majorM_13 {w : W32} (x : Option (BitVec 4)) (h : fld w 26 6 = 19#6) : decodeM w x = decodeM13 w := by
  simp [decodeM, h, word_ne_zero h (by decide)]

theorem majorM_14 {w : W32} (x : Option (BitVec 4)) (h : fld w 26 6 = 20#6) : decodeM w x = decodeM14 w := by
  simp [decodeM, h, word_ne_zero h (by decide)]

theorem majorM_15 {w : W32} (x : Option (BitVec 4)) (h : fld w 26 6 = 21#6) : decodeM w x = decodeM15 w := by
  simp [decodeM, h, word_ne_zero h (by decide)]

theorem majorM_16 {w : W32} (x : Option (BitVec 4)) (h : fld w 26 6 = 22#6) : decodeM w x = decodeM16 w := by
  simp [decodeM, h, word_ne_zero h (by decide)]

theorem majorM_17 {w : W32} (x : Option (BitVec 4)) (h : fld w 26 6 = 23#6) : decodeM w x = decodeM17 w := by
  simp [decodeM, h, word_ne_zero h (by decide)]

theorem majorM_18 {w : W32} (x : Option (BitVec 4)) (h : fld w 26 6 = 24#6) : decodeM w x = decodeM18 w := by
  simp [decodeM, h, word_ne_zero h (by decide)]

theorem majorM_19 {w : W32} (x : Option (BitVec 4)) (h : fld w 26 6 = 25#6) : decodeM w x = decodeM19 w := by
  simp [decodeM, h, word_ne_zero h (by decide)]

theorem majorM_1A {w : W32} (x : Option (BitVec 4)) (h : fld w 26 6 = 26#6) : decodeM w x = decodeM1A w := by
  simp [decodeM, h, word_ne_zero h (by decide)]

theorem majorM_1B {w : W32} (x : Option (BitVec 4)) (h : fld w 26 6 = 27#6) : decodeM w x = decodeM1B w := by
  simp [decodeM, h, word_ne_zero h (by decide)]

theorem majorM_1C {w : W32} (x : Option (BitVec 4)) (h : fld w 26 6 = 28#6) : decodeM w x = decodeM1C w := by
  simp [decodeM, h, word_ne_zero h (by decide)]

theorem majorM_20 {w : W32} (x : Option (BitVec 4)) (h : fld w 26 6 = 32#6) : decodeM w x = decodeM20 w := by
  simp [decodeM, h, word_ne_zero h (by decide)]

theorem majorM_21 {w : W32} (x : Option (BitVec 4)) (h : fld w 26 6 = 33#6) : decodeM w x = decodeM21 w := by
  simp [decodeM, h, word_ne_zero h (by decide)]

theorem majorM_22 {w : W32} (x : Option (BitVec 4)) (h : fld w 26 6 = 34#6) : decodeM w x = decodeM22 w := by
  simp [decodeM, h, word_ne_zero h (by decide)]

theorem majorM_23 {w : W32} (x : Option (BitVec 4)) (h : fld w 26 6 = 35#6) : decodeM w x = decodeM23 w := by
  simp [decodeM, h, word_ne_zero h (by decide)]

theorem majorM_24 {w : W32} (x : Option (BitVec 4)) (h : fld w 26 6 = 36#6) : decodeM w x = decodeM24 w := by
  simp [decodeM, h, word_ne_zero h (by decide)]

theorem majorM_25 {w : W32} (x : Option (BitVec 4)) (h : fld w 26 6 = 37#6) : decodeM w x = decodeM25 w := by
  simp [decodeM, h, word_ne_zero h (by decide)]

theorem majorM_26 {w : W32} (x : Option (BitVec 4)) (h : fld w 26 6 = 38#6) : decodeM w x = decodeM26 w := by
  simp [decodeM, h, word_ne_zero h (by decide)]

theorem majorM_28 {w : W32} (x : Option (BitVec 4)) (h : fld w 26 6 = 40#6) : decodeM w x = decodeM28 w := by
  simp [decodeM, h, word_ne_zero h (by decide)]

theorem majorM_29 {w : W32} (x : Option (BitVec 4)) (h : fld w 26 6 = 41#6) : decodeM w x = decodeM29 w := by
  simp [decodeM, h, word_ne_zero h (by decide)]

theorem majorM_2A {w : W32} (x : Option (BitVec 4)) (h : fld w 26 6 = 42#6) : decodeM w x = decodeM2A w := by
  simp [decodeM, h, word_ne_zero h (by decide)]

theorem majorM_2B {w : W32} (x : Option (BitVec 4)) (h : fld w 26 6 = 43#6) : decodeM w x = decodeM2B w := by
  simp [decodeM, h, word_ne_zero h (by decide)]

theorem majorM_2C {w : W32} (x : Option (BitVec 4)) (h : fld w 26 6 = 44#6) : decodeM w x = decodeM2C w := by
  simp [decodeM, h, word_ne_zero h (by decide)]

theorem majorM_2D {w : W32} (x : Option (BitVec 4)) (h : fld w 26 6 = 45#6) : decodeM w x = decodeM2D w := by
  simp [decodeM, h, word_ne_zero h (by decide)]

theorem majorM_2E {w : W32} (x : Option (BitVec 4)) (h : fld w 26 6 = 46#6) : decodeM w x = decodeM2E w := by
  simp [decodeM, h, word_ne_zero h (by decide)]

theorem majorM_30 {w : W32} (x : Option (BitVec 4)) (h : fld w 26 6 = 48#6) : decodeM w x = decodeM30 w := by
  simp [decodeM, h, word_ne_zero h (by decide)]

theorem majorM_31 {w : W32} (x : Option (BitVec 4)) (h : fld w 26 6 = 49#6) : decodeM w x = decodeM31 w := by
  simp [decodeM, h, word_ne_zero h (by decide)]

theorem majorM_32 {w : W32} (x : Option (BitVec 4)) (h : fld w 26 6 = 50#6) : decodeM w x = decodeM32 w := by
  simp [decodeM, h, word_ne_zero h (by decide)]

theorem majorM_33 {w : W32} (x : Option (BitVec 4)) (h : fld w 26 6 = 51#6) : decodeM w x = decodeM33 w := by
  simp [decodeM, h, word_ne_zero h (by decide)]

theorem majorM_34 {w : W32} (x : Option (BitVec 4)) (h : fld w 26 6 = 52#6) : decodeM w x = decodeM34 w := by
  simp [decodeM, h, word_ne_zero h (by decide)]

theorem majorC_01 {w : W32} (h : fld w 26 6 = 1#6) : decodeC w = decodeC01 w := by
  simp [decodeC, h, word_ne_zero h (by decide)]

theorem majorC_02 {w : W32} (h : fld w 26 6 = 2#6) : decodeC w = decodeC02 w := by
  simp [decodeC, h, word_ne_zero h (by decide)]

theorem majorC_03 {w : W32} (h : fld w 26 6 = 3#6) : decodeC w = decodeC03 w := by
  simp [decodeC, h, word_ne_zero h (by decide)]

theorem majorC_04 {w : W32} (h : fld w 26 6 = 4#6) : decodeC w = decodeC04 w := by
  simp [decodeC, h, word_ne_zero h (by decide)]

theorem majorC_05 {w : W32} (h : fld w 26 6 = 5#6) : decodeC w = decodeC05 w := by
  simp [decodeC, h, word_ne_zero h (by decide)]

theorem majorC_06 {w : W32} (h : fld w 26 6 = 6#6) : decodeC w = decodeC06 w := by
  simp [decodeC, h, word_ne_zero h (by decide)]

theorem majorC_08 {w : W32} (h : fld w 26 6 = 8#6) : decodeC w = decodeC08 w := by
  simp [decodeC, h, word_ne_zero h (by decide)]

theorem majorC_09 {w : W32} (h : fld w 26 6 = 9#6) : decodeC w = decodeC09 w := by
  simp [decodeC, h, word_ne_zero h (by decide)]

theorem majorC_0A {w : W32} (h : fld w 26 6 = 10#6) : decodeC w = decodeC0A w := by
  simp [decodeC, h, word_ne_zero h (by decide)]

theorem majorC_0B {w : W32} (h : fld w 26 6 = 11#6) : decodeC w = decodeC0B w := by
  simp [decodeC, h, word_ne_zero h (by decide)]

theorem majorC_0C {w : W32} (h : fld w 26 6 = 12#6) : decodeC w = decodeC0C w := by
  simp [decodeC, h, word_ne_zero h (by decide)]

theorem majorC_0D {w : W32} (h : fld w 26 6 = 13#6) : decodeC w = decodeC0D w := by
  simp [decodeC, h, word_ne_zero h (by decide)]

theorem majorC_0E {w : W32} (h : fld w 26 6 = 14#6) : decodeC w = decodeC0E w := by
  simp [decodeC, h, word_ne_zero h (by decide)]

theorem majorC_10 {w : W32} (h : fld w 26 6 = 16#6) : decodeC w = decodeC10 w := by
  simp [decodeC, h, word_ne_zero h (by decide)]

theorem majorC_11 {w : W32} (h : fld w 26 6 = 17#6) : decodeC w = decodeC11 w := by
  simp [decodeC, h, word_ne_zero h (by decide)]

theorem majorC_14 {w : W32} (h : fld w 26 6 = 20#6) : decodeC w = decodeC14 w := by
  simp [decodeC, h, word_ne_zero h (by decide)]

theorem majorC_15 {w : W32} (h : fld w 26 6 = 21#6) : decodeC w = decodeC15 w := by
  simp [decodeC, h, word_ne_zero h (by decide)]

theorem majorC_16 {w : W32} (h : fld w 26 6 = 22#6) : decodeC w = decodeC16 w := by
  simp [decodeC, h, word_ne_zero h (by decide)]

theorem majorC_17 {w : W32} (h : fld w 26 6 = 23#6) : decodeC w = decodeC17 w := by
  simp [decodeC, h, word_ne_zero h (by decide)]

theorem majorC_18 {w : W32} (h : fld w 26 6 = 24#6) : decodeC w = decodeC18 w := by
  simp [decodeC, h, word_ne_zero h (by decide)]

theorem majorC_19 {w : W32} (h : fld w 26 6 = 25#6) : decodeC w = decodeC19 w := by
  simp [decodeC, h, word_ne_zero h (by decide)]

theorem majorC_1A {w : W32} (h : fld w 26 6 = 26#6) : decodeC w = decodeC1A w := by
  simp [decodeC, h, word_ne_zero h (by decide)]

theorem majorC_1B {w : W32} (h : fld w 26 6 = 27#6) : decodeC w = decodeC1B w := by
  simp [decodeC, h, word_ne_zero h (by decide)]

theorem majorC_1C {w : W32} (h : fld w 26 6 = 28#6) : decodeC w = decodeC1C w := by
  simp [decodeC, h, word_ne_zero h (by decide)]

theorem majorC_1D {w : W32} (h : fld w 26 6 = 29#6) : decodeC w = decodeC1D w := by
  simp [decodeC, h, word_ne_zero h (by decide)]

theorem majorC_20 {w : W32} (h : fld w 26 6 = 32#6) : decodeC w = decodeC20 w := by
  simp [decodeC, h, word_ne_zero h (by decide)]

theorem majorC_24 {w : W32} (h : fld w 26 6 = 36#6) : decodeC w = decodeC24 w := by
  simp [decodeC, h, word_ne_zero h (by decide)]

theorem majorC_25 {w : W32} (h : fld w 26 6 = 37#6) : decodeC w = decodeC25 w := by
  simp [decodeC, h, word_ne_zero h (by decide)]

theorem majorC_26 {w : W32} (h : fld w 26 6 = 38#6) : decodeC w = decodeC26 w := by
  simp [decodeC, h, word_ne_zero h (by decide)]

theorem majorC_27 {w : W32} (h : fld w 26 6 = 39#6) : decodeC w = decodeC27 w := by
  simp [decodeC, h, word_ne_zero h (by decide)]

theorem majorC_28 {w : W32} (h : fld w 26 6 = 40#6) : decodeC w = decodeC28 w := by
  simp [decodeC, h, word_ne_zero h (by decide)]

end Sys2Proof.Laws
end

