-- ==== Sys2Proof/Laws/State.lean ====
section
/-! SUPPORT. What each update of the state does to each field of it, so that no proof unfolds a record update. -/

namespace Sys2Proof.Machine

section
variable (s : State)

/-! State.setSeat -/

@[simp] theorem State.setSeat_seats (c x : Nat) (t : Seat) : (s.setSeat c x t).seats = aput (2 * c + x) t s.seats := rfl
@[simp] theorem State.setSeat_cores (c x : Nat) (t : Seat) : (s.setSeat c x t).cores = s.cores := rfl
@[simp] theorem State.setSeat_clusters (c x : Nat) (t : Seat) : (s.setSeat c x t).clusters = s.clusters := rfl
@[simp] theorem State.setSeat_dies (c x : Nat) (t : Seat) : (s.setSeat c x t).dies = s.dies := rfl
@[simp] theorem State.setSeat_mem (c x : Nat) (t : Seat) : (s.setSeat c x t).mem = s.mem := rfl
@[simp] theorem State.setSeat_tags (c x : Nat) (t : Seat) : (s.setSeat c x t).tags = s.tags := rfl
@[simp] theorem State.setSeat_lines (c x : Nat) (t : Seat) : (s.setSeat c x t).lines = s.lines := rfl
@[simp] theorem State.setSeat_l1 (c x : Nat) (t : Seat) : (s.setSeat c x t).l1 = s.l1 := rfl
@[simp] theorem State.setSeat_l2 (c x : Nat) (t : Seat) : (s.setSeat c x t).l2 = s.l2 := rfl
@[simp] theorem State.setSeat_walkers (c x : Nat) (t : Seat) : (s.setSeat c x t).walkers = s.walkers := rfl
@[simp] theorem State.setSeat_engTlb (c x : Nat) (t : Seat) : (s.setSeat c x t).engTlb = s.engTlb := rfl
@[simp] theorem State.setSeat_ctl (c x : Nat) (t : Seat) : (s.setSeat c x t).ctl = s.ctl := rfl
@[simp] theorem State.setSeat_fe (c x : Nat) (t : Seat) : (s.setSeat c x t).fe = s.fe := rfl
@[simp] theorem State.setSeat_resole (c x : Nat) (t : Seat) : (s.setSeat c x t).resole = s.resole := rfl
@[simp] theorem State.setSeat_host (c x : Nat) (t : Seat) : (s.setSeat c x t).host = s.host := rfl
@[simp] theorem State.setSeat_net (c x : Nat) (t : Seat) : (s.setSeat c x t).net = s.net := rfl
@[simp] theorem State.setSeat_streams (c x : Nat) (t : Seat) : (s.setSeat c x t).streams = s.streams := rfl
@[simp] theorem State.setSeat_power (c x : Nat) (t : Seat) : (s.setSeat c x t).power = s.power := rfl
@[simp] theorem State.setSeat_sec (c x : Nat) (t : Seat) : (s.setSeat c x t).sec = s.sec := rfl
@[simp] theorem State.setSeat_topo (c x : Nat) (t : Seat) : (s.setSeat c x t).topo = s.topo := rfl
@[simp] theorem State.setSeat_policy (c x : Nat) (t : Seat) : (s.setSeat c x t).policy = s.policy := rfl
@[simp] theorem State.setSeat_poison (c x : Nat) (t : Seat) : (s.setSeat c x t).poison = s.poison := rfl
@[simp] theorem State.setSeat_cycle (c x : Nat) (t : Seat) : (s.setSeat c x t).cycle = s.cycle := rfl
@[simp] theorem State.setSeat_fresh (c x : Nat) (t : Seat) : (s.setSeat c x t).fresh = s.fresh := rfl
@[simp] theorem State.setSeat_nextOp (c x : Nat) (t : Seat) : (s.setSeat c x t).nextOp = s.nextOp := rfl
@[simp] theorem State.setSeat_agenda (c x : Nat) (t : Seat) : (s.setSeat c x t).agenda = s.agenda := rfl
@[simp] theorem State.setSeat_focus (c x : Nat) (t : Seat) : (s.setSeat c x t).focus = s.focus := rfl

/-! State.modSeat -/

@[simp] theorem State.modSeat_seats (c x : Nat) (f : Seat → Seat) : (s.modSeat c x f).seats = aput (2 * c + x) (f (s.seatAt c x)) s.seats := rfl
@[simp] theorem State.modSeat_cores (c x : Nat) (f : Seat → Seat) : (s.modSeat c x f).cores = s.cores := rfl
@[simp] theorem State.modSeat_clusters (c x : Nat) (f : Seat → Seat) : (s.modSeat c x f).clusters = s.clusters := rfl
@[simp] theorem State.modSeat_dies (c x : Nat) (f : Seat → Seat) : (s.modSeat c x f).dies = s.dies := rfl
@[simp] theorem State.modSeat_mem (c x : Nat) (f : Seat → Seat) : (s.modSeat c x f).mem = s.mem := rfl
@[simp] theorem State.modSeat_tags (c x : Nat) (f : Seat → Seat) : (s.modSeat c x f).tags = s.tags := rfl
@[simp] theorem State.modSeat_lines (c x : Nat) (f : Seat → Seat) : (s.modSeat c x f).lines = s.lines := rfl
@[simp] theorem State.modSeat_l1 (c x : Nat) (f : Seat → Seat) : (s.modSeat c x f).l1 = s.l1 := rfl
@[simp] theorem State.modSeat_l2 (c x : Nat) (f : Seat → Seat) : (s.modSeat c x f).l2 = s.l2 := rfl
@[simp] theorem State.modSeat_walkers (c x : Nat) (f : Seat → Seat) : (s.modSeat c x f).walkers = s.walkers := rfl
@[simp] theorem State.modSeat_engTlb (c x : Nat) (f : Seat → Seat) : (s.modSeat c x f).engTlb = s.engTlb := rfl
@[simp] theorem State.modSeat_ctl (c x : Nat) (f : Seat → Seat) : (s.modSeat c x f).ctl = s.ctl := rfl
@[simp] theorem State.modSeat_fe (c x : Nat) (f : Seat → Seat) : (s.modSeat c x f).fe = s.fe := rfl
@[simp] theorem State.modSeat_resole (c x : Nat) (f : Seat → Seat) : (s.modSeat c x f).resole = s.resole := rfl
@[simp] theorem State.modSeat_host (c x : Nat) (f : Seat → Seat) : (s.modSeat c x f).host = s.host := rfl
@[simp] theorem State.modSeat_net (c x : Nat) (f : Seat → Seat) : (s.modSeat c x f).net = s.net := rfl
@[simp] theorem State.modSeat_streams (c x : Nat) (f : Seat → Seat) : (s.modSeat c x f).streams = s.streams := rfl
@[simp] theorem State.modSeat_power (c x : Nat) (f : Seat → Seat) : (s.modSeat c x f).power = s.power := rfl
@[simp] theorem State.modSeat_sec (c x : Nat) (f : Seat → Seat) : (s.modSeat c x f).sec = s.sec := rfl
@[simp] theorem State.modSeat_topo (c x : Nat) (f : Seat → Seat) : (s.modSeat c x f).topo = s.topo := rfl
@[simp] theorem State.modSeat_policy (c x : Nat) (f : Seat → Seat) : (s.modSeat c x f).policy = s.policy := rfl
@[simp] theorem State.modSeat_poison (c x : Nat) (f : Seat → Seat) : (s.modSeat c x f).poison = s.poison := rfl
@[simp] theorem State.modSeat_cycle (c x : Nat) (f : Seat → Seat) : (s.modSeat c x f).cycle = s.cycle := rfl
@[simp] theorem State.modSeat_fresh (c x : Nat) (f : Seat → Seat) : (s.modSeat c x f).fresh = s.fresh := rfl
@[simp] theorem State.modSeat_nextOp (c x : Nat) (f : Seat → Seat) : (s.modSeat c x f).nextOp = s.nextOp := rfl
@[simp] theorem State.modSeat_agenda (c x : Nat) (f : Seat → Seat) : (s.modSeat c x f).agenda = s.agenda := rfl
@[simp] theorem State.modSeat_focus (c x : Nat) (f : Seat → Seat) : (s.modSeat c x f).focus = s.focus := rfl

/-! State.setCore -/

@[simp] theorem State.setCore_seats (n : Nat) (c : Core) : (s.setCore n c).seats = s.seats := rfl
@[simp] theorem State.setCore_cores (n : Nat) (c : Core) : (s.setCore n c).cores = aput n c s.cores := rfl
@[simp] theorem State.setCore_clusters (n : Nat) (c : Core) : (s.setCore n c).clusters = s.clusters := rfl
@[simp] theorem State.setCore_dies (n : Nat) (c : Core) : (s.setCore n c).dies = s.dies := rfl
@[simp] theorem State.setCore_mem (n : Nat) (c : Core) : (s.setCore n c).mem = s.mem := rfl
@[simp] theorem State.setCore_tags (n : Nat) (c : Core) : (s.setCore n c).tags = s.tags := rfl
@[simp] theorem State.setCore_lines (n : Nat) (c : Core) : (s.setCore n c).lines = s.lines := rfl
@[simp] theorem State.setCore_l1 (n : Nat) (c : Core) : (s.setCore n c).l1 = s.l1 := rfl
@[simp] theorem State.setCore_l2 (n : Nat) (c : Core) : (s.setCore n c).l2 = s.l2 := rfl
@[simp] theorem State.setCore_walkers (n : Nat) (c : Core) : (s.setCore n c).walkers = s.walkers := rfl
@[simp] theorem State.setCore_engTlb (n : Nat) (c : Core) : (s.setCore n c).engTlb = s.engTlb := rfl
@[simp] theorem State.setCore_ctl (n : Nat) (c : Core) : (s.setCore n c).ctl = s.ctl := rfl
@[simp] theorem State.setCore_fe (n : Nat) (c : Core) : (s.setCore n c).fe = s.fe := rfl
@[simp] theorem State.setCore_resole (n : Nat) (c : Core) : (s.setCore n c).resole = s.resole := rfl
@[simp] theorem State.setCore_host (n : Nat) (c : Core) : (s.setCore n c).host = s.host := rfl
@[simp] theorem State.setCore_net (n : Nat) (c : Core) : (s.setCore n c).net = s.net := rfl
@[simp] theorem State.setCore_streams (n : Nat) (c : Core) : (s.setCore n c).streams = s.streams := rfl
@[simp] theorem State.setCore_power (n : Nat) (c : Core) : (s.setCore n c).power = s.power := rfl
@[simp] theorem State.setCore_sec (n : Nat) (c : Core) : (s.setCore n c).sec = s.sec := rfl
@[simp] theorem State.setCore_topo (n : Nat) (c : Core) : (s.setCore n c).topo = s.topo := rfl
@[simp] theorem State.setCore_policy (n : Nat) (c : Core) : (s.setCore n c).policy = s.policy := rfl
@[simp] theorem State.setCore_poison (n : Nat) (c : Core) : (s.setCore n c).poison = s.poison := rfl
@[simp] theorem State.setCore_cycle (n : Nat) (c : Core) : (s.setCore n c).cycle = s.cycle := rfl
@[simp] theorem State.setCore_fresh (n : Nat) (c : Core) : (s.setCore n c).fresh = s.fresh := rfl
@[simp] theorem State.setCore_nextOp (n : Nat) (c : Core) : (s.setCore n c).nextOp = s.nextOp := rfl
@[simp] theorem State.setCore_agenda (n : Nat) (c : Core) : (s.setCore n c).agenda = s.agenda := rfl
@[simp] theorem State.setCore_focus (n : Nat) (c : Core) : (s.setCore n c).focus = s.focus := rfl

/-! State.modCore -/

@[simp] theorem State.modCore_seats (n : Nat) (f : Core → Core) : (s.modCore n f).seats = s.seats := rfl
@[simp] theorem State.modCore_cores (n : Nat) (f : Core → Core) : (s.modCore n f).cores = aput n (f (s.core n)) s.cores := rfl
@[simp] theorem State.modCore_clusters (n : Nat) (f : Core → Core) : (s.modCore n f).clusters = s.clusters := rfl
@[simp] theorem State.modCore_dies (n : Nat) (f : Core → Core) : (s.modCore n f).dies = s.dies := rfl
@[simp] theorem State.modCore_mem (n : Nat) (f : Core → Core) : (s.modCore n f).mem = s.mem := rfl
@[simp] theorem State.modCore_tags (n : Nat) (f : Core → Core) : (s.modCore n f).tags = s.tags := rfl
@[simp] theorem State.modCore_lines (n : Nat) (f : Core → Core) : (s.modCore n f).lines = s.lines := rfl
@[simp] theorem State.modCore_l1 (n : Nat) (f : Core → Core) : (s.modCore n f).l1 = s.l1 := rfl
@[simp] theorem State.modCore_l2 (n : Nat) (f : Core → Core) : (s.modCore n f).l2 = s.l2 := rfl
@[simp] theorem State.modCore_walkers (n : Nat) (f : Core → Core) : (s.modCore n f).walkers = s.walkers := rfl
@[simp] theorem State.modCore_engTlb (n : Nat) (f : Core → Core) : (s.modCore n f).engTlb = s.engTlb := rfl
@[simp] theorem State.modCore_ctl (n : Nat) (f : Core → Core) : (s.modCore n f).ctl = s.ctl := rfl
@[simp] theorem State.modCore_fe (n : Nat) (f : Core → Core) : (s.modCore n f).fe = s.fe := rfl
@[simp] theorem State.modCore_resole (n : Nat) (f : Core → Core) : (s.modCore n f).resole = s.resole := rfl
@[simp] theorem State.modCore_host (n : Nat) (f : Core → Core) : (s.modCore n f).host = s.host := rfl
@[simp] theorem State.modCore_net (n : Nat) (f : Core → Core) : (s.modCore n f).net = s.net := rfl
@[simp] theorem State.modCore_streams (n : Nat) (f : Core → Core) : (s.modCore n f).streams = s.streams := rfl
@[simp] theorem State.modCore_power (n : Nat) (f : Core → Core) : (s.modCore n f).power = s.power := rfl
@[simp] theorem State.modCore_sec (n : Nat) (f : Core → Core) : (s.modCore n f).sec = s.sec := rfl
@[simp] theorem State.modCore_topo (n : Nat) (f : Core → Core) : (s.modCore n f).topo = s.topo := rfl
@[simp] theorem State.modCore_policy (n : Nat) (f : Core → Core) : (s.modCore n f).policy = s.policy := rfl
@[simp] theorem State.modCore_poison (n : Nat) (f : Core → Core) : (s.modCore n f).poison = s.poison := rfl
@[simp] theorem State.modCore_cycle (n : Nat) (f : Core → Core) : (s.modCore n f).cycle = s.cycle := rfl
@[simp] theorem State.modCore_fresh (n : Nat) (f : Core → Core) : (s.modCore n f).fresh = s.fresh := rfl
@[simp] theorem State.modCore_nextOp (n : Nat) (f : Core → Core) : (s.modCore n f).nextOp = s.nextOp := rfl
@[simp] theorem State.modCore_agenda (n : Nat) (f : Core → Core) : (s.modCore n f).agenda = s.agenda := rfl
@[simp] theorem State.modCore_focus (n : Nat) (f : Core → Core) : (s.modCore n f).focus = s.focus := rfl

/-! State.modCluster -/

@[simp] theorem State.modCluster_seats (n : Nat) (f : Cluster → Cluster) : (s.modCluster n f).seats = s.seats := rfl
@[simp] theorem State.modCluster_cores (n : Nat) (f : Cluster → Cluster) : (s.modCluster n f).cores = s.cores := rfl
@[simp] theorem State.modCluster_clusters (n : Nat) (f : Cluster → Cluster) : (s.modCluster n f).clusters = aput n (f (s.cluster n)) s.clusters := rfl
@[simp] theorem State.modCluster_dies (n : Nat) (f : Cluster → Cluster) : (s.modCluster n f).dies = s.dies := rfl
@[simp] theorem State.modCluster_mem (n : Nat) (f : Cluster → Cluster) : (s.modCluster n f).mem = s.mem := rfl
@[simp] theorem State.modCluster_tags (n : Nat) (f : Cluster → Cluster) : (s.modCluster n f).tags = s.tags := rfl
@[simp] theorem State.modCluster_lines (n : Nat) (f : Cluster → Cluster) : (s.modCluster n f).lines = s.lines := rfl
@[simp] theorem State.modCluster_l1 (n : Nat) (f : Cluster → Cluster) : (s.modCluster n f).l1 = s.l1 := rfl
@[simp] theorem State.modCluster_l2 (n : Nat) (f : Cluster → Cluster) : (s.modCluster n f).l2 = s.l2 := rfl
@[simp] theorem State.modCluster_walkers (n : Nat) (f : Cluster → Cluster) : (s.modCluster n f).walkers = s.walkers := rfl
@[simp] theorem State.modCluster_engTlb (n : Nat) (f : Cluster → Cluster) : (s.modCluster n f).engTlb = s.engTlb := rfl
@[simp] theorem State.modCluster_ctl (n : Nat) (f : Cluster → Cluster) : (s.modCluster n f).ctl = s.ctl := rfl
@[simp] theorem State.modCluster_fe (n : Nat) (f : Cluster → Cluster) : (s.modCluster n f).fe = s.fe := rfl
@[simp] theorem State.modCluster_resole (n : Nat) (f : Cluster → Cluster) : (s.modCluster n f).resole = s.resole := rfl
@[simp] theorem State.modCluster_host (n : Nat) (f : Cluster → Cluster) : (s.modCluster n f).host = s.host := rfl
@[simp] theorem State.modCluster_net (n : Nat) (f : Cluster → Cluster) : (s.modCluster n f).net = s.net := rfl
@[simp] theorem State.modCluster_streams (n : Nat) (f : Cluster → Cluster) : (s.modCluster n f).streams = s.streams := rfl
@[simp] theorem State.modCluster_power (n : Nat) (f : Cluster → Cluster) : (s.modCluster n f).power = s.power := rfl
@[simp] theorem State.modCluster_sec (n : Nat) (f : Cluster → Cluster) : (s.modCluster n f).sec = s.sec := rfl
@[simp] theorem State.modCluster_topo (n : Nat) (f : Cluster → Cluster) : (s.modCluster n f).topo = s.topo := rfl
@[simp] theorem State.modCluster_policy (n : Nat) (f : Cluster → Cluster) : (s.modCluster n f).policy = s.policy := rfl
@[simp] theorem State.modCluster_poison (n : Nat) (f : Cluster → Cluster) : (s.modCluster n f).poison = s.poison := rfl
@[simp] theorem State.modCluster_cycle (n : Nat) (f : Cluster → Cluster) : (s.modCluster n f).cycle = s.cycle := rfl
@[simp] theorem State.modCluster_fresh (n : Nat) (f : Cluster → Cluster) : (s.modCluster n f).fresh = s.fresh := rfl
@[simp] theorem State.modCluster_nextOp (n : Nat) (f : Cluster → Cluster) : (s.modCluster n f).nextOp = s.nextOp := rfl
@[simp] theorem State.modCluster_agenda (n : Nat) (f : Cluster → Cluster) : (s.modCluster n f).agenda = s.agenda := rfl
@[simp] theorem State.modCluster_focus (n : Nat) (f : Cluster → Cluster) : (s.modCluster n f).focus = s.focus := rfl

/-! State.modDie -/

@[simp] theorem State.modDie_seats (n : Nat) (f : Die → Die) : (s.modDie n f).seats = s.seats := rfl
@[simp] theorem State.modDie_cores (n : Nat) (f : Die → Die) : (s.modDie n f).cores = s.cores := rfl
@[simp] theorem State.modDie_clusters (n : Nat) (f : Die → Die) : (s.modDie n f).clusters = s.clusters := rfl
@[simp] theorem State.modDie_dies (n : Nat) (f : Die → Die) : (s.modDie n f).dies = aput n (f (s.die n)) s.dies := rfl
@[simp] theorem State.modDie_mem (n : Nat) (f : Die → Die) : (s.modDie n f).mem = s.mem := rfl
@[simp] theorem State.modDie_tags (n : Nat) (f : Die → Die) : (s.modDie n f).tags = s.tags := rfl
@[simp] theorem State.modDie_lines (n : Nat) (f : Die → Die) : (s.modDie n f).lines = s.lines := rfl
@[simp] theorem State.modDie_l1 (n : Nat) (f : Die → Die) : (s.modDie n f).l1 = s.l1 := rfl
@[simp] theorem State.modDie_l2 (n : Nat) (f : Die → Die) : (s.modDie n f).l2 = s.l2 := rfl
@[simp] theorem State.modDie_walkers (n : Nat) (f : Die → Die) : (s.modDie n f).walkers = s.walkers := rfl
@[simp] theorem State.modDie_engTlb (n : Nat) (f : Die → Die) : (s.modDie n f).engTlb = s.engTlb := rfl
@[simp] theorem State.modDie_ctl (n : Nat) (f : Die → Die) : (s.modDie n f).ctl = s.ctl := rfl
@[simp] theorem State.modDie_fe (n : Nat) (f : Die → Die) : (s.modDie n f).fe = s.fe := rfl
@[simp] theorem State.modDie_resole (n : Nat) (f : Die → Die) : (s.modDie n f).resole = s.resole := rfl
@[simp] theorem State.modDie_host (n : Nat) (f : Die → Die) : (s.modDie n f).host = s.host := rfl
@[simp] theorem State.modDie_net (n : Nat) (f : Die → Die) : (s.modDie n f).net = s.net := rfl
@[simp] theorem State.modDie_streams (n : Nat) (f : Die → Die) : (s.modDie n f).streams = s.streams := rfl
@[simp] theorem State.modDie_power (n : Nat) (f : Die → Die) : (s.modDie n f).power = s.power := rfl
@[simp] theorem State.modDie_sec (n : Nat) (f : Die → Die) : (s.modDie n f).sec = s.sec := rfl
@[simp] theorem State.modDie_topo (n : Nat) (f : Die → Die) : (s.modDie n f).topo = s.topo := rfl
@[simp] theorem State.modDie_policy (n : Nat) (f : Die → Die) : (s.modDie n f).policy = s.policy := rfl
@[simp] theorem State.modDie_poison (n : Nat) (f : Die → Die) : (s.modDie n f).poison = s.poison := rfl
@[simp] theorem State.modDie_cycle (n : Nat) (f : Die → Die) : (s.modDie n f).cycle = s.cycle := rfl
@[simp] theorem State.modDie_fresh (n : Nat) (f : Die → Die) : (s.modDie n f).fresh = s.fresh := rfl
@[simp] theorem State.modDie_nextOp (n : Nat) (f : Die → Die) : (s.modDie n f).nextOp = s.nextOp := rfl
@[simp] theorem State.modDie_agenda (n : Nat) (f : Die → Die) : (s.modDie n f).agenda = s.agenda := rfl
@[simp] theorem State.modDie_focus (n : Nat) (f : Die → Die) : (s.modDie n f).focus = s.focus := rfl

/-! State.setLeaf -/

@[simp] theorem State.setLeaf_seats (c o : Nat) (b : Barrier) : (s.setLeaf c o b).seats = s.seats := rfl
@[simp] theorem State.setLeaf_clusters (c o : Nat) (b : Barrier) : (s.setLeaf c o b).clusters = s.clusters := rfl
@[simp] theorem State.setLeaf_dies (c o : Nat) (b : Barrier) : (s.setLeaf c o b).dies = s.dies := rfl
@[simp] theorem State.setLeaf_mem (c o : Nat) (b : Barrier) : (s.setLeaf c o b).mem = s.mem := rfl
@[simp] theorem State.setLeaf_tags (c o : Nat) (b : Barrier) : (s.setLeaf c o b).tags = s.tags := rfl
@[simp] theorem State.setLeaf_lines (c o : Nat) (b : Barrier) : (s.setLeaf c o b).lines = s.lines := rfl
@[simp] theorem State.setLeaf_l1 (c o : Nat) (b : Barrier) : (s.setLeaf c o b).l1 = s.l1 := rfl
@[simp] theorem State.setLeaf_l2 (c o : Nat) (b : Barrier) : (s.setLeaf c o b).l2 = s.l2 := rfl
@[simp] theorem State.setLeaf_walkers (c o : Nat) (b : Barrier) : (s.setLeaf c o b).walkers = s.walkers := rfl
@[simp] theorem State.setLeaf_engTlb (c o : Nat) (b : Barrier) : (s.setLeaf c o b).engTlb = s.engTlb := rfl
@[simp] theorem State.setLeaf_ctl (c o : Nat) (b : Barrier) : (s.setLeaf c o b).ctl = s.ctl := rfl
@[simp] theorem State.setLeaf_fe (c o : Nat) (b : Barrier) : (s.setLeaf c o b).fe = s.fe := rfl
@[simp] theorem State.setLeaf_resole (c o : Nat) (b : Barrier) : (s.setLeaf c o b).resole = s.resole := rfl
@[simp] theorem State.setLeaf_host (c o : Nat) (b : Barrier) : (s.setLeaf c o b).host = s.host := rfl
@[simp] theorem State.setLeaf_net (c o : Nat) (b : Barrier) : (s.setLeaf c o b).net = s.net := rfl
@[simp] theorem State.setLeaf_streams (c o : Nat) (b : Barrier) : (s.setLeaf c o b).streams = s.streams := rfl
@[simp] theorem State.setLeaf_power (c o : Nat) (b : Barrier) : (s.setLeaf c o b).power = s.power := rfl
@[simp] theorem State.setLeaf_sec (c o : Nat) (b : Barrier) : (s.setLeaf c o b).sec = s.sec := rfl
@[simp] theorem State.setLeaf_topo (c o : Nat) (b : Barrier) : (s.setLeaf c o b).topo = s.topo := rfl
@[simp] theorem State.setLeaf_policy (c o : Nat) (b : Barrier) : (s.setLeaf c o b).policy = s.policy := rfl
@[simp] theorem State.setLeaf_poison (c o : Nat) (b : Barrier) : (s.setLeaf c o b).poison = s.poison := rfl
@[simp] theorem State.setLeaf_cycle (c o : Nat) (b : Barrier) : (s.setLeaf c o b).cycle = s.cycle := rfl
@[simp] theorem State.setLeaf_fresh (c o : Nat) (b : Barrier) : (s.setLeaf c o b).fresh = s.fresh := rfl
@[simp] theorem State.setLeaf_nextOp (c o : Nat) (b : Barrier) : (s.setLeaf c o b).nextOp = s.nextOp := rfl
@[simp] theorem State.setLeaf_agenda (c o : Nat) (b : Barrier) : (s.setLeaf c o b).agenda = s.agenda := rfl
@[simp] theorem State.setLeaf_focus (c o : Nat) (b : Barrier) : (s.setLeaf c o b).focus = s.focus := rfl

/-! State.setRoot -/

@[simp] theorem State.setRoot_seats (c o : Nat) (b : Barrier) : (s.setRoot c o b).seats = s.seats := rfl
@[simp] theorem State.setRoot_cores (c o : Nat) (b : Barrier) : (s.setRoot c o b).cores = s.cores := rfl
@[simp] theorem State.setRoot_dies (c o : Nat) (b : Barrier) : (s.setRoot c o b).dies = s.dies := rfl
@[simp] theorem State.setRoot_mem (c o : Nat) (b : Barrier) : (s.setRoot c o b).mem = s.mem := rfl
@[simp] theorem State.setRoot_tags (c o : Nat) (b : Barrier) : (s.setRoot c o b).tags = s.tags := rfl
@[simp] theorem State.setRoot_lines (c o : Nat) (b : Barrier) : (s.setRoot c o b).lines = s.lines := rfl
@[simp] theorem State.setRoot_l1 (c o : Nat) (b : Barrier) : (s.setRoot c o b).l1 = s.l1 := rfl
@[simp] theorem State.setRoot_l2 (c o : Nat) (b : Barrier) : (s.setRoot c o b).l2 = s.l2 := rfl
@[simp] theorem State.setRoot_walkers (c o : Nat) (b : Barrier) : (s.setRoot c o b).walkers = s.walkers := rfl
@[simp] theorem State.setRoot_engTlb (c o : Nat) (b : Barrier) : (s.setRoot c o b).engTlb = s.engTlb := rfl
@[simp] theorem State.setRoot_ctl (c o : Nat) (b : Barrier) : (s.setRoot c o b).ctl = s.ctl := rfl
@[simp] theorem State.setRoot_fe (c o : Nat) (b : Barrier) : (s.setRoot c o b).fe = s.fe := rfl
@[simp] theorem State.setRoot_resole (c o : Nat) (b : Barrier) : (s.setRoot c o b).resole = s.resole := rfl
@[simp] theorem State.setRoot_host (c o : Nat) (b : Barrier) : (s.setRoot c o b).host = s.host := rfl
@[simp] theorem State.setRoot_net (c o : Nat) (b : Barrier) : (s.setRoot c o b).net = s.net := rfl
@[simp] theorem State.setRoot_streams (c o : Nat) (b : Barrier) : (s.setRoot c o b).streams = s.streams := rfl
@[simp] theorem State.setRoot_power (c o : Nat) (b : Barrier) : (s.setRoot c o b).power = s.power := rfl
@[simp] theorem State.setRoot_sec (c o : Nat) (b : Barrier) : (s.setRoot c o b).sec = s.sec := rfl
@[simp] theorem State.setRoot_topo (c o : Nat) (b : Barrier) : (s.setRoot c o b).topo = s.topo := rfl
@[simp] theorem State.setRoot_policy (c o : Nat) (b : Barrier) : (s.setRoot c o b).policy = s.policy := rfl
@[simp] theorem State.setRoot_poison (c o : Nat) (b : Barrier) : (s.setRoot c o b).poison = s.poison := rfl
@[simp] theorem State.setRoot_cycle (c o : Nat) (b : Barrier) : (s.setRoot c o b).cycle = s.cycle := rfl
@[simp] theorem State.setRoot_fresh (c o : Nat) (b : Barrier) : (s.setRoot c o b).fresh = s.fresh := rfl
@[simp] theorem State.setRoot_nextOp (c o : Nat) (b : Barrier) : (s.setRoot c o b).nextOp = s.nextOp := rfl
@[simp] theorem State.setRoot_agenda (c o : Nat) (b : Barrier) : (s.setRoot c o b).agenda = s.agenda := rfl
@[simp] theorem State.setRoot_focus (c o : Nat) (b : Barrier) : (s.setRoot c o b).focus = s.focus := rfl

/-! State.setF -/

@[simp] theorem State.setF_seats (t : Seat) : (s.setF t).seats = aput (2 * s.focus.core + s.focus.seat) t s.seats := rfl
@[simp] theorem State.setF_cores (t : Seat) : (s.setF t).cores = s.cores := rfl
@[simp] theorem State.setF_clusters (t : Seat) : (s.setF t).clusters = s.clusters := rfl
@[simp] theorem State.setF_dies (t : Seat) : (s.setF t).dies = s.dies := rfl
@[simp] theorem State.setF_mem (t : Seat) : (s.setF t).mem = s.mem := rfl
@[simp] theorem State.setF_tags (t : Seat) : (s.setF t).tags = s.tags := rfl
@[simp] theorem State.setF_lines (t : Seat) : (s.setF t).lines = s.lines := rfl
@[simp] theorem State.setF_l1 (t : Seat) : (s.setF t).l1 = s.l1 := rfl
@[simp] theorem State.setF_l2 (t : Seat) : (s.setF t).l2 = s.l2 := rfl
@[simp] theorem State.setF_walkers (t : Seat) : (s.setF t).walkers = s.walkers := rfl
@[simp] theorem State.setF_engTlb (t : Seat) : (s.setF t).engTlb = s.engTlb := rfl
@[simp] theorem State.setF_ctl (t : Seat) : (s.setF t).ctl = s.ctl := rfl
@[simp] theorem State.setF_fe (t : Seat) : (s.setF t).fe = s.fe := rfl
@[simp] theorem State.setF_resole (t : Seat) : (s.setF t).resole = s.resole := rfl
@[simp] theorem State.setF_host (t : Seat) : (s.setF t).host = s.host := rfl
@[simp] theorem State.setF_net (t : Seat) : (s.setF t).net = s.net := rfl
@[simp] theorem State.setF_streams (t : Seat) : (s.setF t).streams = s.streams := rfl
@[simp] theorem State.setF_power (t : Seat) : (s.setF t).power = s.power := rfl
@[simp] theorem State.setF_sec (t : Seat) : (s.setF t).sec = s.sec := rfl
@[simp] theorem State.setF_topo (t : Seat) : (s.setF t).topo = s.topo := rfl
@[simp] theorem State.setF_policy (t : Seat) : (s.setF t).policy = s.policy := rfl
@[simp] theorem State.setF_poison (t : Seat) : (s.setF t).poison = s.poison := rfl
@[simp] theorem State.setF_cycle (t : Seat) : (s.setF t).cycle = s.cycle := rfl
@[simp] theorem State.setF_fresh (t : Seat) : (s.setF t).fresh = s.fresh := rfl
@[simp] theorem State.setF_nextOp (t : Seat) : (s.setF t).nextOp = s.nextOp := rfl
@[simp] theorem State.setF_agenda (t : Seat) : (s.setF t).agenda = s.agenda := rfl
@[simp] theorem State.setF_focus (t : Seat) : (s.setF t).focus = s.focus := rfl

/-! State.modF -/

@[simp] theorem State.modF_seats (f : Seat → Seat) : (s.modF f).seats = aput (2 * s.focus.core + s.focus.seat) (f s.fseat) s.seats := rfl
@[simp] theorem State.modF_cores (f : Seat → Seat) : (s.modF f).cores = s.cores := rfl
@[simp] theorem State.modF_clusters (f : Seat → Seat) : (s.modF f).clusters = s.clusters := rfl
@[simp] theorem State.modF_dies (f : Seat → Seat) : (s.modF f).dies = s.dies := rfl
@[simp] theorem State.modF_mem (f : Seat → Seat) : (s.modF f).mem = s.mem := rfl
@[simp] theorem State.modF_tags (f : Seat → Seat) : (s.modF f).tags = s.tags := rfl
@[simp] theorem State.modF_lines (f : Seat → Seat) : (s.modF f).lines = s.lines := rfl
@[simp] theorem State.modF_l1 (f : Seat → Seat) : (s.modF f).l1 = s.l1 := rfl
@[simp] theorem State.modF_l2 (f : Seat → Seat) : (s.modF f).l2 = s.l2 := rfl
@[simp] theorem State.modF_walkers (f : Seat → Seat) : (s.modF f).walkers = s.walkers := rfl
@[simp] theorem State.modF_engTlb (f : Seat → Seat) : (s.modF f).engTlb = s.engTlb := rfl
@[simp] theorem State.modF_ctl (f : Seat → Seat) : (s.modF f).ctl = s.ctl := rfl
@[simp] theorem State.modF_fe (f : Seat → Seat) : (s.modF f).fe = s.fe := rfl
@[simp] theorem State.modF_resole (f : Seat → Seat) : (s.modF f).resole = s.resole := rfl
@[simp] theorem State.modF_host (f : Seat → Seat) : (s.modF f).host = s.host := rfl
@[simp] theorem State.modF_net (f : Seat → Seat) : (s.modF f).net = s.net := rfl
@[simp] theorem State.modF_streams (f : Seat → Seat) : (s.modF f).streams = s.streams := rfl
@[simp] theorem State.modF_power (f : Seat → Seat) : (s.modF f).power = s.power := rfl
@[simp] theorem State.modF_sec (f : Seat → Seat) : (s.modF f).sec = s.sec := rfl
@[simp] theorem State.modF_topo (f : Seat → Seat) : (s.modF f).topo = s.topo := rfl
@[simp] theorem State.modF_policy (f : Seat → Seat) : (s.modF f).policy = s.policy := rfl
@[simp] theorem State.modF_poison (f : Seat → Seat) : (s.modF f).poison = s.poison := rfl
@[simp] theorem State.modF_cycle (f : Seat → Seat) : (s.modF f).cycle = s.cycle := rfl
@[simp] theorem State.modF_fresh (f : Seat → Seat) : (s.modF f).fresh = s.fresh := rfl
@[simp] theorem State.modF_nextOp (f : Seat → Seat) : (s.modF f).nextOp = s.nextOp := rfl
@[simp] theorem State.modF_agenda (f : Seat → Seat) : (s.modF f).agenda = s.agenda := rfl
@[simp] theorem State.modF_focus (f : Seat → Seat) : (s.modF f).focus = s.focus := rfl

/-! State.modFcore -/

@[simp] theorem State.modFcore_seats (f : Core → Core) : (s.modFcore f).seats = s.seats := rfl
@[simp] theorem State.modFcore_cores (f : Core → Core) : (s.modFcore f).cores = aput s.focus.core (f s.fcore) s.cores := rfl
@[simp] theorem State.modFcore_clusters (f : Core → Core) : (s.modFcore f).clusters = s.clusters := rfl
@[simp] theorem State.modFcore_dies (f : Core → Core) : (s.modFcore f).dies = s.dies := rfl
@[simp] theorem State.modFcore_mem (f : Core → Core) : (s.modFcore f).mem = s.mem := rfl
@[simp] theorem State.modFcore_tags (f : Core → Core) : (s.modFcore f).tags = s.tags := rfl
@[simp] theorem State.modFcore_lines (f : Core → Core) : (s.modFcore f).lines = s.lines := rfl
@[simp] theorem State.modFcore_l1 (f : Core → Core) : (s.modFcore f).l1 = s.l1 := rfl
@[simp] theorem State.modFcore_l2 (f : Core → Core) : (s.modFcore f).l2 = s.l2 := rfl
@[simp] theorem State.modFcore_walkers (f : Core → Core) : (s.modFcore f).walkers = s.walkers := rfl
@[simp] theorem State.modFcore_engTlb (f : Core → Core) : (s.modFcore f).engTlb = s.engTlb := rfl
@[simp] theorem State.modFcore_ctl (f : Core → Core) : (s.modFcore f).ctl = s.ctl := rfl
@[simp] theorem State.modFcore_fe (f : Core → Core) : (s.modFcore f).fe = s.fe := rfl
@[simp] theorem State.modFcore_resole (f : Core → Core) : (s.modFcore f).resole = s.resole := rfl
@[simp] theorem State.modFcore_host (f : Core → Core) : (s.modFcore f).host = s.host := rfl
@[simp] theorem State.modFcore_net (f : Core → Core) : (s.modFcore f).net = s.net := rfl
@[simp] theorem State.modFcore_streams (f : Core → Core) : (s.modFcore f).streams = s.streams := rfl
@[simp] theorem State.modFcore_power (f : Core → Core) : (s.modFcore f).power = s.power := rfl
@[simp] theorem State.modFcore_sec (f : Core → Core) : (s.modFcore f).sec = s.sec := rfl
@[simp] theorem State.modFcore_topo (f : Core → Core) : (s.modFcore f).topo = s.topo := rfl
@[simp] theorem State.modFcore_policy (f : Core → Core) : (s.modFcore f).policy = s.policy := rfl
@[simp] theorem State.modFcore_poison (f : Core → Core) : (s.modFcore f).poison = s.poison := rfl
@[simp] theorem State.modFcore_cycle (f : Core → Core) : (s.modFcore f).cycle = s.cycle := rfl
@[simp] theorem State.modFcore_fresh (f : Core → Core) : (s.modFcore f).fresh = s.fresh := rfl
@[simp] theorem State.modFcore_nextOp (f : Core → Core) : (s.modFcore f).nextOp = s.nextOp := rfl
@[simp] theorem State.modFcore_agenda (f : Core → Core) : (s.modFcore f).agenda = s.agenda := rfl
@[simp] theorem State.modFcore_focus (f : Core → Core) : (s.modFcore f).focus = s.focus := rfl

/-! State.modCtl -/

@[simp] theorem State.modCtl_cores (f : CtlRegs → CtlRegs) : (s.modCtl f).cores = s.cores := rfl
@[simp] theorem State.modCtl_clusters (f : CtlRegs → CtlRegs) : (s.modCtl f).clusters = s.clusters := rfl
@[simp] theorem State.modCtl_dies (f : CtlRegs → CtlRegs) : (s.modCtl f).dies = s.dies := rfl
@[simp] theorem State.modCtl_mem (f : CtlRegs → CtlRegs) : (s.modCtl f).mem = s.mem := rfl
@[simp] theorem State.modCtl_tags (f : CtlRegs → CtlRegs) : (s.modCtl f).tags = s.tags := rfl
@[simp] theorem State.modCtl_lines (f : CtlRegs → CtlRegs) : (s.modCtl f).lines = s.lines := rfl
@[simp] theorem State.modCtl_l1 (f : CtlRegs → CtlRegs) : (s.modCtl f).l1 = s.l1 := rfl
@[simp] theorem State.modCtl_l2 (f : CtlRegs → CtlRegs) : (s.modCtl f).l2 = s.l2 := rfl
@[simp] theorem State.modCtl_walkers (f : CtlRegs → CtlRegs) : (s.modCtl f).walkers = s.walkers := rfl
@[simp] theorem State.modCtl_engTlb (f : CtlRegs → CtlRegs) : (s.modCtl f).engTlb = s.engTlb := rfl
@[simp] theorem State.modCtl_ctl (f : CtlRegs → CtlRegs) : (s.modCtl f).ctl = s.ctl := rfl
@[simp] theorem State.modCtl_fe (f : CtlRegs → CtlRegs) : (s.modCtl f).fe = s.fe := rfl
@[simp] theorem State.modCtl_resole (f : CtlRegs → CtlRegs) : (s.modCtl f).resole = s.resole := rfl
@[simp] theorem State.modCtl_host (f : CtlRegs → CtlRegs) : (s.modCtl f).host = s.host := rfl
@[simp] theorem State.modCtl_net (f : CtlRegs → CtlRegs) : (s.modCtl f).net = s.net := rfl
@[simp] theorem State.modCtl_streams (f : CtlRegs → CtlRegs) : (s.modCtl f).streams = s.streams := rfl
@[simp] theorem State.modCtl_power (f : CtlRegs → CtlRegs) : (s.modCtl f).power = s.power := rfl
@[simp] theorem State.modCtl_sec (f : CtlRegs → CtlRegs) : (s.modCtl f).sec = s.sec := rfl
@[simp] theorem State.modCtl_topo (f : CtlRegs → CtlRegs) : (s.modCtl f).topo = s.topo := rfl
@[simp] theorem State.modCtl_policy (f : CtlRegs → CtlRegs) : (s.modCtl f).policy = s.policy := rfl
@[simp] theorem State.modCtl_poison (f : CtlRegs → CtlRegs) : (s.modCtl f).poison = s.poison := rfl
@[simp] theorem State.modCtl_cycle (f : CtlRegs → CtlRegs) : (s.modCtl f).cycle = s.cycle := rfl
@[simp] theorem State.modCtl_fresh (f : CtlRegs → CtlRegs) : (s.modCtl f).fresh = s.fresh := rfl
@[simp] theorem State.modCtl_nextOp (f : CtlRegs → CtlRegs) : (s.modCtl f).nextOp = s.nextOp := rfl
@[simp] theorem State.modCtl_agenda (f : CtlRegs → CtlRegs) : (s.modCtl f).agenda = s.agenda := rfl
@[simp] theorem State.modCtl_focus (f : CtlRegs → CtlRegs) : (s.modCtl f).focus = s.focus := rfl

/-! State.wV -/

@[simp] theorem State.wV_cores (d : BitVec 5) (v : VReg) : (s.wV d v).cores = s.cores := rfl
@[simp] theorem State.wV_clusters (d : BitVec 5) (v : VReg) : (s.wV d v).clusters = s.clusters := rfl
@[simp] theorem State.wV_dies (d : BitVec 5) (v : VReg) : (s.wV d v).dies = s.dies := rfl
@[simp] theorem State.wV_mem (d : BitVec 5) (v : VReg) : (s.wV d v).mem = s.mem := rfl
@[simp] theorem State.wV_tags (d : BitVec 5) (v : VReg) : (s.wV d v).tags = s.tags := rfl
@[simp] theorem State.wV_lines (d : BitVec 5) (v : VReg) : (s.wV d v).lines = s.lines := rfl
@[simp] theorem State.wV_l1 (d : BitVec 5) (v : VReg) : (s.wV d v).l1 = s.l1 := rfl
@[simp] theorem State.wV_l2 (d : BitVec 5) (v : VReg) : (s.wV d v).l2 = s.l2 := rfl
@[simp] theorem State.wV_walkers (d : BitVec 5) (v : VReg) : (s.wV d v).walkers = s.walkers := rfl
@[simp] theorem State.wV_engTlb (d : BitVec 5) (v : VReg) : (s.wV d v).engTlb = s.engTlb := rfl
@[simp] theorem State.wV_ctl (d : BitVec 5) (v : VReg) : (s.wV d v).ctl = s.ctl := rfl
@[simp] theorem State.wV_fe (d : BitVec 5) (v : VReg) : (s.wV d v).fe = s.fe := rfl
@[simp] theorem State.wV_resole (d : BitVec 5) (v : VReg) : (s.wV d v).resole = s.resole := rfl
@[simp] theorem State.wV_host (d : BitVec 5) (v : VReg) : (s.wV d v).host = s.host := rfl
@[simp] theorem State.wV_net (d : BitVec 5) (v : VReg) : (s.wV d v).net = s.net := rfl
@[simp] theorem State.wV_streams (d : BitVec 5) (v : VReg) : (s.wV d v).streams = s.streams := rfl
@[simp] theorem State.wV_power (d : BitVec 5) (v : VReg) : (s.wV d v).power = s.power := rfl
@[simp] theorem State.wV_sec (d : BitVec 5) (v : VReg) : (s.wV d v).sec = s.sec := rfl
@[simp] theorem State.wV_topo (d : BitVec 5) (v : VReg) : (s.wV d v).topo = s.topo := rfl
@[simp] theorem State.wV_policy (d : BitVec 5) (v : VReg) : (s.wV d v).policy = s.policy := rfl
@[simp] theorem State.wV_poison (d : BitVec 5) (v : VReg) : (s.wV d v).poison = s.poison := rfl
@[simp] theorem State.wV_cycle (d : BitVec 5) (v : VReg) : (s.wV d v).cycle = s.cycle := rfl
@[simp] theorem State.wV_fresh (d : BitVec 5) (v : VReg) : (s.wV d v).fresh = s.fresh := rfl
@[simp] theorem State.wV_nextOp (d : BitVec 5) (v : VReg) : (s.wV d v).nextOp = s.nextOp := rfl
@[simp] theorem State.wV_agenda (d : BitVec 5) (v : VReg) : (s.wV d v).agenda = s.agenda := rfl
@[simp] theorem State.wV_focus (d : BitVec 5) (v : VReg) : (s.wV d v).focus = s.focus := rfl

/-! State.pendV -/

@[simp] theorem State.pendV_cores (d : BitVec 5) (i : Nat) : (s.pendV d i).cores = s.cores := rfl
@[simp] theorem State.pendV_clusters (d : BitVec 5) (i : Nat) : (s.pendV d i).clusters = s.clusters := rfl
@[simp] theorem State.pendV_dies (d : BitVec 5) (i : Nat) : (s.pendV d i).dies = s.dies := rfl
@[simp] theorem State.pendV_mem (d : BitVec 5) (i : Nat) : (s.pendV d i).mem = s.mem := rfl
@[simp] theorem State.pendV_tags (d : BitVec 5) (i : Nat) : (s.pendV d i).tags = s.tags := rfl
@[simp] theorem State.pendV_lines (d : BitVec 5) (i : Nat) : (s.pendV d i).lines = s.lines := rfl
@[simp] theorem State.pendV_l1 (d : BitVec 5) (i : Nat) : (s.pendV d i).l1 = s.l1 := rfl
@[simp] theorem State.pendV_l2 (d : BitVec 5) (i : Nat) : (s.pendV d i).l2 = s.l2 := rfl
@[simp] theorem State.pendV_walkers (d : BitVec 5) (i : Nat) : (s.pendV d i).walkers = s.walkers := rfl
@[simp] theorem State.pendV_engTlb (d : BitVec 5) (i : Nat) : (s.pendV d i).engTlb = s.engTlb := rfl
@[simp] theorem State.pendV_ctl (d : BitVec 5) (i : Nat) : (s.pendV d i).ctl = s.ctl := rfl
@[simp] theorem State.pendV_fe (d : BitVec 5) (i : Nat) : (s.pendV d i).fe = s.fe := rfl
@[simp] theorem State.pendV_resole (d : BitVec 5) (i : Nat) : (s.pendV d i).resole = s.resole := rfl
@[simp] theorem State.pendV_host (d : BitVec 5) (i : Nat) : (s.pendV d i).host = s.host := rfl
@[simp] theorem State.pendV_net (d : BitVec 5) (i : Nat) : (s.pendV d i).net = s.net := rfl
@[simp] theorem State.pendV_streams (d : BitVec 5) (i : Nat) : (s.pendV d i).streams = s.streams := rfl
@[simp] theorem State.pendV_power (d : BitVec 5) (i : Nat) : (s.pendV d i).power = s.power := rfl
@[simp] theorem State.pendV_sec (d : BitVec 5) (i : Nat) : (s.pendV d i).sec = s.sec := rfl
@[simp] theorem State.pendV_topo (d : BitVec 5) (i : Nat) : (s.pendV d i).topo = s.topo := rfl
@[simp] theorem State.pendV_policy (d : BitVec 5) (i : Nat) : (s.pendV d i).policy = s.policy := rfl
@[simp] theorem State.pendV_poison (d : BitVec 5) (i : Nat) : (s.pendV d i).poison = s.poison := rfl
@[simp] theorem State.pendV_cycle (d : BitVec 5) (i : Nat) : (s.pendV d i).cycle = s.cycle := rfl
@[simp] theorem State.pendV_fresh (d : BitVec 5) (i : Nat) : (s.pendV d i).fresh = s.fresh := rfl
@[simp] theorem State.pendV_nextOp (d : BitVec 5) (i : Nat) : (s.pendV d i).nextOp = s.nextOp := rfl
@[simp] theorem State.pendV_agenda (d : BitVec 5) (i : Nat) : (s.pendV d i).agenda = s.agenda := rfl
@[simp] theorem State.pendV_focus (d : BitVec 5) (i : Nat) : (s.pendV d i).focus = s.focus := rfl

/-! State.newOp -/

@[simp] theorem State.newOp_seats (c : Nat) (o : Op) : (s.newOp c o).seats = s.seats := rfl
@[simp] theorem State.newOp_clusters (c : Nat) (o : Op) : (s.newOp c o).clusters = s.clusters := rfl
@[simp] theorem State.newOp_dies (c : Nat) (o : Op) : (s.newOp c o).dies = s.dies := rfl
@[simp] theorem State.newOp_mem (c : Nat) (o : Op) : (s.newOp c o).mem = s.mem := rfl
@[simp] theorem State.newOp_tags (c : Nat) (o : Op) : (s.newOp c o).tags = s.tags := rfl
@[simp] theorem State.newOp_lines (c : Nat) (o : Op) : (s.newOp c o).lines = s.lines := rfl
@[simp] theorem State.newOp_l1 (c : Nat) (o : Op) : (s.newOp c o).l1 = s.l1 := rfl
@[simp] theorem State.newOp_l2 (c : Nat) (o : Op) : (s.newOp c o).l2 = s.l2 := rfl
@[simp] theorem State.newOp_walkers (c : Nat) (o : Op) : (s.newOp c o).walkers = s.walkers := rfl
@[simp] theorem State.newOp_engTlb (c : Nat) (o : Op) : (s.newOp c o).engTlb = s.engTlb := rfl
@[simp] theorem State.newOp_ctl (c : Nat) (o : Op) : (s.newOp c o).ctl = s.ctl := rfl
@[simp] theorem State.newOp_fe (c : Nat) (o : Op) : (s.newOp c o).fe = s.fe := rfl
@[simp] theorem State.newOp_resole (c : Nat) (o : Op) : (s.newOp c o).resole = s.resole := rfl
@[simp] theorem State.newOp_host (c : Nat) (o : Op) : (s.newOp c o).host = s.host := rfl
@[simp] theorem State.newOp_net (c : Nat) (o : Op) : (s.newOp c o).net = s.net := rfl
@[simp] theorem State.newOp_streams (c : Nat) (o : Op) : (s.newOp c o).streams = s.streams := rfl
@[simp] theorem State.newOp_power (c : Nat) (o : Op) : (s.newOp c o).power = s.power := rfl
@[simp] theorem State.newOp_sec (c : Nat) (o : Op) : (s.newOp c o).sec = s.sec := rfl
@[simp] theorem State.newOp_topo (c : Nat) (o : Op) : (s.newOp c o).topo = s.topo := rfl
@[simp] theorem State.newOp_policy (c : Nat) (o : Op) : (s.newOp c o).policy = s.policy := rfl
@[simp] theorem State.newOp_poison (c : Nat) (o : Op) : (s.newOp c o).poison = s.poison := rfl
@[simp] theorem State.newOp_cycle (c : Nat) (o : Op) : (s.newOp c o).cycle = s.cycle := rfl
@[simp] theorem State.newOp_fresh (c : Nat) (o : Op) : (s.newOp c o).fresh = s.fresh := rfl
@[simp] theorem State.newOp_nextOp (c : Nat) (o : Op) : (s.newOp c o).nextOp = s.nextOp + 1 := rfl
@[simp] theorem State.newOp_agenda (c : Nat) (o : Op) : (s.newOp c o).agenda = s.agenda := rfl
@[simp] theorem State.newOp_focus (c : Nat) (o : Op) : (s.newOp c o).focus = s.focus := rfl

/-! State.setStatus -/

@[simp] theorem State.setStatus_seats (st : Status) : (s.setStatus st).seats = s.seats := rfl
@[simp] theorem State.setStatus_cores (st : Status) : (s.setStatus st).cores = s.cores := rfl
@[simp] theorem State.setStatus_clusters (st : Status) : (s.setStatus st).clusters = s.clusters := rfl
@[simp] theorem State.setStatus_dies (st : Status) : (s.setStatus st).dies = s.dies := rfl
@[simp] theorem State.setStatus_mem (st : Status) : (s.setStatus st).mem = s.mem := rfl
@[simp] theorem State.setStatus_tags (st : Status) : (s.setStatus st).tags = s.tags := rfl
@[simp] theorem State.setStatus_lines (st : Status) : (s.setStatus st).lines = s.lines := rfl
@[simp] theorem State.setStatus_l1 (st : Status) : (s.setStatus st).l1 = s.l1 := rfl
@[simp] theorem State.setStatus_l2 (st : Status) : (s.setStatus st).l2 = s.l2 := rfl
@[simp] theorem State.setStatus_walkers (st : Status) : (s.setStatus st).walkers = s.walkers := rfl
@[simp] theorem State.setStatus_engTlb (st : Status) : (s.setStatus st).engTlb = s.engTlb := rfl
@[simp] theorem State.setStatus_ctl (st : Status) : (s.setStatus st).ctl = s.ctl := rfl
@[simp] theorem State.setStatus_fe (st : Status) : (s.setStatus st).fe = s.fe := rfl
@[simp] theorem State.setStatus_resole (st : Status) : (s.setStatus st).resole = s.resole := rfl
@[simp] theorem State.setStatus_host (st : Status) : (s.setStatus st).host = s.host := rfl
@[simp] theorem State.setStatus_net (st : Status) : (s.setStatus st).net = s.net := rfl
@[simp] theorem State.setStatus_streams (st : Status) : (s.setStatus st).streams = s.streams := rfl
@[simp] theorem State.setStatus_power (st : Status) : (s.setStatus st).power = s.power := rfl
@[simp] theorem State.setStatus_sec (st : Status) : (s.setStatus st).sec = s.sec := rfl
@[simp] theorem State.setStatus_topo (st : Status) : (s.setStatus st).topo = s.topo := rfl
@[simp] theorem State.setStatus_policy (st : Status) : (s.setStatus st).policy = s.policy := rfl
@[simp] theorem State.setStatus_poison (st : Status) : (s.setStatus st).poison = s.poison := rfl
@[simp] theorem State.setStatus_cycle (st : Status) : (s.setStatus st).cycle = s.cycle := rfl
@[simp] theorem State.setStatus_fresh (st : Status) : (s.setStatus st).fresh = s.fresh := rfl
@[simp] theorem State.setStatus_nextOp (st : Status) : (s.setStatus st).nextOp = s.nextOp := rfl
@[simp] theorem State.setStatus_agenda (st : Status) : (s.setStatus st).agenda = s.agenda := rfl
@[simp] theorem State.setStatus_focus (st : Status) : (s.setStatus st).focus = { s.focus with status := st } := rfl

/-! State.orFlags -/

@[simp] theorem State.orFlags_cores (f : VF) : (s.orFlags f).cores = s.cores := rfl
@[simp] theorem State.orFlags_clusters (f : VF) : (s.orFlags f).clusters = s.clusters := rfl
@[simp] theorem State.orFlags_dies (f : VF) : (s.orFlags f).dies = s.dies := rfl
@[simp] theorem State.orFlags_mem (f : VF) : (s.orFlags f).mem = s.mem := rfl
@[simp] theorem State.orFlags_tags (f : VF) : (s.orFlags f).tags = s.tags := rfl
@[simp] theorem State.orFlags_lines (f : VF) : (s.orFlags f).lines = s.lines := rfl
@[simp] theorem State.orFlags_l1 (f : VF) : (s.orFlags f).l1 = s.l1 := rfl
@[simp] theorem State.orFlags_l2 (f : VF) : (s.orFlags f).l2 = s.l2 := rfl
@[simp] theorem State.orFlags_walkers (f : VF) : (s.orFlags f).walkers = s.walkers := rfl
@[simp] theorem State.orFlags_engTlb (f : VF) : (s.orFlags f).engTlb = s.engTlb := rfl
@[simp] theorem State.orFlags_ctl (f : VF) : (s.orFlags f).ctl = s.ctl := rfl
@[simp] theorem State.orFlags_fe (f : VF) : (s.orFlags f).fe = s.fe := rfl
@[simp] theorem State.orFlags_resole (f : VF) : (s.orFlags f).resole = s.resole := rfl
@[simp] theorem State.orFlags_host (f : VF) : (s.orFlags f).host = s.host := rfl
@[simp] theorem State.orFlags_net (f : VF) : (s.orFlags f).net = s.net := rfl
@[simp] theorem State.orFlags_streams (f : VF) : (s.orFlags f).streams = s.streams := rfl
@[simp] theorem State.orFlags_power (f : VF) : (s.orFlags f).power = s.power := rfl
@[simp] theorem State.orFlags_sec (f : VF) : (s.orFlags f).sec = s.sec := rfl
@[simp] theorem State.orFlags_topo (f : VF) : (s.orFlags f).topo = s.topo := rfl
@[simp] theorem State.orFlags_policy (f : VF) : (s.orFlags f).policy = s.policy := rfl
@[simp] theorem State.orFlags_poison (f : VF) : (s.orFlags f).poison = s.poison := rfl
@[simp] theorem State.orFlags_cycle (f : VF) : (s.orFlags f).cycle = s.cycle := rfl
@[simp] theorem State.orFlags_fresh (f : VF) : (s.orFlags f).fresh = s.fresh := rfl
@[simp] theorem State.orFlags_nextOp (f : VF) : (s.orFlags f).nextOp = s.nextOp := rfl
@[simp] theorem State.orFlags_agenda (f : VF) : (s.orFlags f).agenda = s.agenda := rfl
@[simp] theorem State.orFlags_focus (f : VF) : (s.orFlags f).focus = s.focus := rfl

/-! State.putV -/

@[simp] theorem State.putV_cores (d : BitVec 5) (n r c : Nat) (u : Runs) : (s.putV d n r c u).cores = s.cores := rfl
@[simp] theorem State.putV_clusters (d : BitVec 5) (n r c : Nat) (u : Runs) : (s.putV d n r c u).clusters = s.clusters := rfl
@[simp] theorem State.putV_dies (d : BitVec 5) (n r c : Nat) (u : Runs) : (s.putV d n r c u).dies = s.dies := rfl
@[simp] theorem State.putV_mem (d : BitVec 5) (n r c : Nat) (u : Runs) : (s.putV d n r c u).mem = s.mem := rfl
@[simp] theorem State.putV_tags (d : BitVec 5) (n r c : Nat) (u : Runs) : (s.putV d n r c u).tags = s.tags := rfl
@[simp] theorem State.putV_lines (d : BitVec 5) (n r c : Nat) (u : Runs) : (s.putV d n r c u).lines = s.lines := rfl
@[simp] theorem State.putV_l1 (d : BitVec 5) (n r c : Nat) (u : Runs) : (s.putV d n r c u).l1 = s.l1 := rfl
@[simp] theorem State.putV_l2 (d : BitVec 5) (n r c : Nat) (u : Runs) : (s.putV d n r c u).l2 = s.l2 := rfl
@[simp] theorem State.putV_walkers (d : BitVec 5) (n r c : Nat) (u : Runs) : (s.putV d n r c u).walkers = s.walkers := rfl
@[simp] theorem State.putV_engTlb (d : BitVec 5) (n r c : Nat) (u : Runs) : (s.putV d n r c u).engTlb = s.engTlb := rfl
@[simp] theorem State.putV_ctl (d : BitVec 5) (n r c : Nat) (u : Runs) : (s.putV d n r c u).ctl = s.ctl := rfl
@[simp] theorem State.putV_fe (d : BitVec 5) (n r c : Nat) (u : Runs) : (s.putV d n r c u).fe = s.fe := rfl
@[simp] theorem State.putV_resole (d : BitVec 5) (n r c : Nat) (u : Runs) : (s.putV d n r c u).resole = s.resole := rfl
@[simp] theorem State.putV_host (d : BitVec 5) (n r c : Nat) (u : Runs) : (s.putV d n r c u).host = s.host := rfl
@[simp] theorem State.putV_net (d : BitVec 5) (n r c : Nat) (u : Runs) : (s.putV d n r c u).net = s.net := rfl
@[simp] theorem State.putV_streams (d : BitVec 5) (n r c : Nat) (u : Runs) : (s.putV d n r c u).streams = s.streams := rfl
@[simp] theorem State.putV_power (d : BitVec 5) (n r c : Nat) (u : Runs) : (s.putV d n r c u).power = s.power := rfl
@[simp] theorem State.putV_sec (d : BitVec 5) (n r c : Nat) (u : Runs) : (s.putV d n r c u).sec = s.sec := rfl
@[simp] theorem State.putV_topo (d : BitVec 5) (n r c : Nat) (u : Runs) : (s.putV d n r c u).topo = s.topo := rfl
@[simp] theorem State.putV_policy (d : BitVec 5) (n r c : Nat) (u : Runs) : (s.putV d n r c u).policy = s.policy := rfl
@[simp] theorem State.putV_poison (d : BitVec 5) (n r c : Nat) (u : Runs) : (s.putV d n r c u).poison = s.poison := rfl
@[simp] theorem State.putV_cycle (d : BitVec 5) (n r c : Nat) (u : Runs) : (s.putV d n r c u).cycle = s.cycle := rfl
@[simp] theorem State.putV_fresh (d : BitVec 5) (n r c : Nat) (u : Runs) : (s.putV d n r c u).fresh = s.fresh := rfl
@[simp] theorem State.putV_nextOp (d : BitVec 5) (n r c : Nat) (u : Runs) : (s.putV d n r c u).nextOp = s.nextOp := rfl
@[simp] theorem State.putV_agenda (d : BitVec 5) (n r c : Nat) (u : Runs) : (s.putV d n r c u).agenda = s.agenda := rfl
@[simp] theorem State.putV_focus (d : BitVec 5) (n r c : Nat) (u : Runs) : (s.putV d n r c u).focus = s.focus := rfl

/-! State.stallF -/

@[simp] theorem State.stallF_cores (w : Stall) : (s.stallF w).cores = s.cores := rfl
@[simp] theorem State.stallF_clusters (w : Stall) : (s.stallF w).clusters = s.clusters := rfl
@[simp] theorem State.stallF_dies (w : Stall) : (s.stallF w).dies = s.dies := rfl
@[simp] theorem State.stallF_mem (w : Stall) : (s.stallF w).mem = s.mem := rfl
@[simp] theorem State.stallF_tags (w : Stall) : (s.stallF w).tags = s.tags := rfl
@[simp] theorem State.stallF_lines (w : Stall) : (s.stallF w).lines = s.lines := rfl
@[simp] theorem State.stallF_l1 (w : Stall) : (s.stallF w).l1 = s.l1 := rfl
@[simp] theorem State.stallF_l2 (w : Stall) : (s.stallF w).l2 = s.l2 := rfl
@[simp] theorem State.stallF_walkers (w : Stall) : (s.stallF w).walkers = s.walkers := rfl
@[simp] theorem State.stallF_engTlb (w : Stall) : (s.stallF w).engTlb = s.engTlb := rfl
@[simp] theorem State.stallF_ctl (w : Stall) : (s.stallF w).ctl = s.ctl := rfl
@[simp] theorem State.stallF_fe (w : Stall) : (s.stallF w).fe = s.fe := rfl
@[simp] theorem State.stallF_resole (w : Stall) : (s.stallF w).resole = s.resole := rfl
@[simp] theorem State.stallF_host (w : Stall) : (s.stallF w).host = s.host := rfl
@[simp] theorem State.stallF_net (w : Stall) : (s.stallF w).net = s.net := rfl
@[simp] theorem State.stallF_streams (w : Stall) : (s.stallF w).streams = s.streams := rfl
@[simp] theorem State.stallF_power (w : Stall) : (s.stallF w).power = s.power := rfl
@[simp] theorem State.stallF_sec (w : Stall) : (s.stallF w).sec = s.sec := rfl
@[simp] theorem State.stallF_topo (w : Stall) : (s.stallF w).topo = s.topo := rfl
@[simp] theorem State.stallF_policy (w : Stall) : (s.stallF w).policy = s.policy := rfl
@[simp] theorem State.stallF_poison (w : Stall) : (s.stallF w).poison = s.poison := rfl
@[simp] theorem State.stallF_cycle (w : Stall) : (s.stallF w).cycle = s.cycle := rfl
@[simp] theorem State.stallF_fresh (w : Stall) : (s.stallF w).fresh = s.fresh := rfl
@[simp] theorem State.stallF_nextOp (w : Stall) : (s.stallF w).nextOp = s.nextOp := rfl
@[simp] theorem State.stallF_agenda (w : Stall) : (s.stallF w).agenda = s.agenda := rfl
@[simp] theorem State.stallF_focus (w : Stall) : (s.stallF w).focus = s.focus := rfl

/-! State.putHome -/

@[simp] theorem State.putHome_seats (pa : Nat) (b : Byte) : (s.putHome pa b).seats = s.seats := rfl
@[simp] theorem State.putHome_cores (pa : Nat) (b : Byte) : (s.putHome pa b).cores = s.cores := rfl
@[simp] theorem State.putHome_clusters (pa : Nat) (b : Byte) : (s.putHome pa b).clusters = s.clusters := rfl
@[simp] theorem State.putHome_dies (pa : Nat) (b : Byte) : (s.putHome pa b).dies = s.dies := rfl
@[simp] theorem State.putHome_mem (pa : Nat) (b : Byte) : (s.putHome pa b).mem = aputD unlisted pa b s.mem := rfl
@[simp] theorem State.putHome_tags (pa : Nat) (b : Byte) : (s.putHome pa b).tags = s.tags := rfl
@[simp] theorem State.putHome_lines (pa : Nat) (b : Byte) : (s.putHome pa b).lines = s.lines := rfl
@[simp] theorem State.putHome_l1 (pa : Nat) (b : Byte) : (s.putHome pa b).l1 = s.l1 := rfl
@[simp] theorem State.putHome_l2 (pa : Nat) (b : Byte) : (s.putHome pa b).l2 = s.l2 := rfl
@[simp] theorem State.putHome_walkers (pa : Nat) (b : Byte) : (s.putHome pa b).walkers = s.walkers := rfl
@[simp] theorem State.putHome_engTlb (pa : Nat) (b : Byte) : (s.putHome pa b).engTlb = s.engTlb := rfl
@[simp] theorem State.putHome_ctl (pa : Nat) (b : Byte) : (s.putHome pa b).ctl = s.ctl := rfl
@[simp] theorem State.putHome_fe (pa : Nat) (b : Byte) : (s.putHome pa b).fe = s.fe := rfl
@[simp] theorem State.putHome_resole (pa : Nat) (b : Byte) : (s.putHome pa b).resole = s.resole := rfl
@[simp] theorem State.putHome_host (pa : Nat) (b : Byte) : (s.putHome pa b).host = s.host := rfl
@[simp] theorem State.putHome_net (pa : Nat) (b : Byte) : (s.putHome pa b).net = s.net := rfl
@[simp] theorem State.putHome_streams (pa : Nat) (b : Byte) : (s.putHome pa b).streams = s.streams := rfl
@[simp] theorem State.putHome_power (pa : Nat) (b : Byte) : (s.putHome pa b).power = s.power := rfl
@[simp] theorem State.putHome_sec (pa : Nat) (b : Byte) : (s.putHome pa b).sec = s.sec := rfl
@[simp] theorem State.putHome_topo (pa : Nat) (b : Byte) : (s.putHome pa b).topo = s.topo := rfl
@[simp] theorem State.putHome_policy (pa : Nat) (b : Byte) : (s.putHome pa b).policy = s.policy := rfl
@[simp] theorem State.putHome_poison (pa : Nat) (b : Byte) : (s.putHome pa b).poison = s.poison := rfl
@[simp] theorem State.putHome_cycle (pa : Nat) (b : Byte) : (s.putHome pa b).cycle = s.cycle := rfl
@[simp] theorem State.putHome_fresh (pa : Nat) (b : Byte) : (s.putHome pa b).fresh = s.fresh := rfl
@[simp] theorem State.putHome_nextOp (pa : Nat) (b : Byte) : (s.putHome pa b).nextOp = s.nextOp := rfl
@[simp] theorem State.putHome_agenda (pa : Nat) (b : Byte) : (s.putHome pa b).agenda = s.agenda := rfl
@[simp] theorem State.putHome_focus (pa : Nat) (b : Byte) : (s.putHome pa b).focus = s.focus := rfl

/-! State.dropLine -/

@[simp] theorem State.dropLine_seats (n : Nat) : (s.dropLine n).seats = s.seats := rfl
@[simp] theorem State.dropLine_cores (n : Nat) : (s.dropLine n).cores = s.cores := rfl
@[simp] theorem State.dropLine_clusters (n : Nat) : (s.dropLine n).clusters = s.clusters := rfl
@[simp] theorem State.dropLine_dies (n : Nat) : (s.dropLine n).dies = s.dies := rfl
@[simp] theorem State.dropLine_mem (n : Nat) : (s.dropLine n).mem = s.mem := rfl
@[simp] theorem State.dropLine_tags (n : Nat) : (s.dropLine n).tags = s.tags := rfl
@[simp] theorem State.dropLine_lines (n : Nat) : (s.dropLine n).lines = adel n s.lines := rfl
@[simp] theorem State.dropLine_l1 (n : Nat) : (s.dropLine n).l1 = stripLine n s.l1 := rfl
@[simp] theorem State.dropLine_l2 (n : Nat) : (s.dropLine n).l2 = stripLine n s.l2 := rfl
@[simp] theorem State.dropLine_walkers (n : Nat) : (s.dropLine n).walkers = s.walkers := rfl
@[simp] theorem State.dropLine_engTlb (n : Nat) : (s.dropLine n).engTlb = s.engTlb := rfl
@[simp] theorem State.dropLine_ctl (n : Nat) : (s.dropLine n).ctl = s.ctl := rfl
@[simp] theorem State.dropLine_fe (n : Nat) : (s.dropLine n).fe = s.fe := rfl
@[simp] theorem State.dropLine_resole (n : Nat) : (s.dropLine n).resole = s.resole := rfl
@[simp] theorem State.dropLine_host (n : Nat) : (s.dropLine n).host = s.host := rfl
@[simp] theorem State.dropLine_net (n : Nat) : (s.dropLine n).net = s.net := rfl
@[simp] theorem State.dropLine_streams (n : Nat) : (s.dropLine n).streams = s.streams := rfl
@[simp] theorem State.dropLine_power (n : Nat) : (s.dropLine n).power = s.power := rfl
@[simp] theorem State.dropLine_sec (n : Nat) : (s.dropLine n).sec = s.sec := rfl
@[simp] theorem State.dropLine_topo (n : Nat) : (s.dropLine n).topo = s.topo := rfl
@[simp] theorem State.dropLine_policy (n : Nat) : (s.dropLine n).policy = s.policy := rfl
@[simp] theorem State.dropLine_poison (n : Nat) : (s.dropLine n).poison = s.poison := rfl
@[simp] theorem State.dropLine_cycle (n : Nat) : (s.dropLine n).cycle = s.cycle := rfl
@[simp] theorem State.dropLine_fresh (n : Nat) : (s.dropLine n).fresh = s.fresh := rfl
@[simp] theorem State.dropLine_nextOp (n : Nat) : (s.dropLine n).nextOp = s.nextOp := rfl
@[simp] theorem State.dropLine_agenda (n : Nat) : (s.dropLine n).agenda = s.agenda := rfl
@[simp] theorem State.dropLine_focus (n : Nat) : (s.dropLine n).focus = s.focus := rfl

/-! State.clearPoison -/

@[simp] theorem State.clearPoison_seats (pa : Nat) : (s.clearPoison pa).seats = s.seats := rfl
@[simp] theorem State.clearPoison_cores (pa : Nat) : (s.clearPoison pa).cores = s.cores := rfl
@[simp] theorem State.clearPoison_clusters (pa : Nat) : (s.clearPoison pa).clusters = s.clusters := rfl
@[simp] theorem State.clearPoison_dies (pa : Nat) : (s.clearPoison pa).dies = s.dies := rfl
@[simp] theorem State.clearPoison_mem (pa : Nat) : (s.clearPoison pa).mem = s.mem := rfl
@[simp] theorem State.clearPoison_tags (pa : Nat) : (s.clearPoison pa).tags = s.tags := rfl
@[simp] theorem State.clearPoison_lines (pa : Nat) : (s.clearPoison pa).lines = s.lines := rfl
@[simp] theorem State.clearPoison_l1 (pa : Nat) : (s.clearPoison pa).l1 = s.l1 := rfl
@[simp] theorem State.clearPoison_l2 (pa : Nat) : (s.clearPoison pa).l2 = s.l2 := rfl
@[simp] theorem State.clearPoison_walkers (pa : Nat) : (s.clearPoison pa).walkers = s.walkers := rfl
@[simp] theorem State.clearPoison_engTlb (pa : Nat) : (s.clearPoison pa).engTlb = s.engTlb := rfl
@[simp] theorem State.clearPoison_ctl (pa : Nat) : (s.clearPoison pa).ctl = s.ctl := rfl
@[simp] theorem State.clearPoison_fe (pa : Nat) : (s.clearPoison pa).fe = s.fe := rfl
@[simp] theorem State.clearPoison_resole (pa : Nat) : (s.clearPoison pa).resole = s.resole := rfl
@[simp] theorem State.clearPoison_host (pa : Nat) : (s.clearPoison pa).host = s.host := rfl
@[simp] theorem State.clearPoison_net (pa : Nat) : (s.clearPoison pa).net = s.net := rfl
@[simp] theorem State.clearPoison_streams (pa : Nat) : (s.clearPoison pa).streams = s.streams := rfl
@[simp] theorem State.clearPoison_power (pa : Nat) : (s.clearPoison pa).power = s.power := rfl
@[simp] theorem State.clearPoison_sec (pa : Nat) : (s.clearPoison pa).sec = s.sec := rfl
@[simp] theorem State.clearPoison_topo (pa : Nat) : (s.clearPoison pa).topo = s.topo := rfl
@[simp] theorem State.clearPoison_policy (pa : Nat) : (s.clearPoison pa).policy = s.policy := rfl
@[simp] theorem State.clearPoison_poison (pa : Nat) : (s.clearPoison pa).poison = adel (pa / 64) s.poison := rfl
@[simp] theorem State.clearPoison_cycle (pa : Nat) : (s.clearPoison pa).cycle = s.cycle := rfl
@[simp] theorem State.clearPoison_fresh (pa : Nat) : (s.clearPoison pa).fresh = s.fresh := rfl
@[simp] theorem State.clearPoison_nextOp (pa : Nat) : (s.clearPoison pa).nextOp = s.nextOp := rfl
@[simp] theorem State.clearPoison_agenda (pa : Nat) : (s.clearPoison pa).agenda = s.agenda := rfl
@[simp] theorem State.clearPoison_focus (pa : Nat) : (s.clearPoison pa).focus = s.focus := rfl

/-! State.setCtlW -/

@[simp] theorem State.setCtlW_seats (o : Nat) (w : W32) : (s.setCtlW o w).seats = s.seats := rfl
@[simp] theorem State.setCtlW_cores (o : Nat) (w : W32) : (s.setCtlW o w).cores = s.cores := rfl
@[simp] theorem State.setCtlW_clusters (o : Nat) (w : W32) : (s.setCtlW o w).clusters = s.clusters := rfl
@[simp] theorem State.setCtlW_dies (o : Nat) (w : W32) : (s.setCtlW o w).dies = s.dies := rfl
@[simp] theorem State.setCtlW_mem (o : Nat) (w : W32) : (s.setCtlW o w).mem = s.mem := rfl
@[simp] theorem State.setCtlW_tags (o : Nat) (w : W32) : (s.setCtlW o w).tags = s.tags := rfl
@[simp] theorem State.setCtlW_lines (o : Nat) (w : W32) : (s.setCtlW o w).lines = s.lines := rfl
@[simp] theorem State.setCtlW_l1 (o : Nat) (w : W32) : (s.setCtlW o w).l1 = s.l1 := rfl
@[simp] theorem State.setCtlW_l2 (o : Nat) (w : W32) : (s.setCtlW o w).l2 = s.l2 := rfl
@[simp] theorem State.setCtlW_walkers (o : Nat) (w : W32) : (s.setCtlW o w).walkers = s.walkers := rfl
@[simp] theorem State.setCtlW_engTlb (o : Nat) (w : W32) : (s.setCtlW o w).engTlb = s.engTlb := rfl
@[simp] theorem State.setCtlW_fe (o : Nat) (w : W32) : (s.setCtlW o w).fe = s.fe := rfl
@[simp] theorem State.setCtlW_resole (o : Nat) (w : W32) : (s.setCtlW o w).resole = s.resole := rfl
@[simp] theorem State.setCtlW_host (o : Nat) (w : W32) : (s.setCtlW o w).host = s.host := rfl
@[simp] theorem State.setCtlW_net (o : Nat) (w : W32) : (s.setCtlW o w).net = s.net := rfl
@[simp] theorem State.setCtlW_streams (o : Nat) (w : W32) : (s.setCtlW o w).streams = s.streams := rfl
@[simp] theorem State.setCtlW_power (o : Nat) (w : W32) : (s.setCtlW o w).power = s.power := rfl
@[simp] theorem State.setCtlW_sec (o : Nat) (w : W32) : (s.setCtlW o w).sec = s.sec := rfl
@[simp] theorem State.setCtlW_topo (o : Nat) (w : W32) : (s.setCtlW o w).topo = s.topo := rfl
@[simp] theorem State.setCtlW_policy (o : Nat) (w : W32) : (s.setCtlW o w).policy = s.policy := rfl
@[simp] theorem State.setCtlW_poison (o : Nat) (w : W32) : (s.setCtlW o w).poison = s.poison := rfl
@[simp] theorem State.setCtlW_cycle (o : Nat) (w : W32) : (s.setCtlW o w).cycle = s.cycle := rfl
@[simp] theorem State.setCtlW_fresh (o : Nat) (w : W32) : (s.setCtlW o w).fresh = s.fresh := rfl
@[simp] theorem State.setCtlW_nextOp (o : Nat) (w : W32) : (s.setCtlW o w).nextOp = s.nextOp := rfl
@[simp] theorem State.setCtlW_agenda (o : Nat) (w : W32) : (s.setCtlW o w).agenda = s.agenda := rfl
@[simp] theorem State.setCtlW_focus (o : Nat) (w : W32) : (s.setCtlW o w).focus = s.focus := rfl

/-! State.tick -/

@[simp] theorem State.tick_seats (c n : Nat) : (s.tick c n).seats = s.seats := rfl
@[simp] theorem State.tick_cores (c n : Nat) : (s.tick c n).cores = s.cores := rfl
@[simp] theorem State.tick_clusters (c n : Nat) : (s.tick c n).clusters = s.clusters := rfl
@[simp] theorem State.tick_dies (c n : Nat) : (s.tick c n).dies = s.dies := rfl
@[simp] theorem State.tick_mem (c n : Nat) : (s.tick c n).mem = s.mem := rfl
@[simp] theorem State.tick_tags (c n : Nat) : (s.tick c n).tags = s.tags := rfl
@[simp] theorem State.tick_lines (c n : Nat) : (s.tick c n).lines = s.lines := rfl
@[simp] theorem State.tick_l1 (c n : Nat) : (s.tick c n).l1 = s.l1 := rfl
@[simp] theorem State.tick_l2 (c n : Nat) : (s.tick c n).l2 = s.l2 := rfl
@[simp] theorem State.tick_walkers (c n : Nat) : (s.tick c n).walkers = s.walkers := rfl
@[simp] theorem State.tick_engTlb (c n : Nat) : (s.tick c n).engTlb = s.engTlb := rfl
@[simp] theorem State.tick_ctl (c n : Nat) : (s.tick c n).ctl = s.ctl := rfl
@[simp] theorem State.tick_fe (c n : Nat) : (s.tick c n).fe = s.fe := rfl
@[simp] theorem State.tick_resole (c n : Nat) : (s.tick c n).resole = s.resole := rfl
@[simp] theorem State.tick_host (c n : Nat) : (s.tick c n).host = s.host := rfl
@[simp] theorem State.tick_streams (c n : Nat) : (s.tick c n).streams = s.streams := rfl
@[simp] theorem State.tick_power (c n : Nat) : (s.tick c n).power = s.power := rfl
@[simp] theorem State.tick_sec (c n : Nat) : (s.tick c n).sec = s.sec := rfl
@[simp] theorem State.tick_topo (c n : Nat) : (s.tick c n).topo = s.topo := rfl
@[simp] theorem State.tick_policy (c n : Nat) : (s.tick c n).policy = s.policy := rfl
@[simp] theorem State.tick_poison (c n : Nat) : (s.tick c n).poison = s.poison := rfl
@[simp] theorem State.tick_cycle (c n : Nat) : (s.tick c n).cycle = s.cycle + c := rfl
@[simp] theorem State.tick_fresh (c n : Nat) : (s.tick c n).fresh = s.fresh := rfl
@[simp] theorem State.tick_nextOp (c n : Nat) : (s.tick c n).nextOp = s.nextOp := rfl
@[simp] theorem State.tick_agenda (c n : Nat) : (s.tick c n).agenda = s.agenda := rfl
@[simp] theorem State.tick_focus (c n : Nat) : (s.tick c n).focus = s.focus := rfl

/-! State.observe (R523): only the cores' monitors and the count of free values change. -/

@[simp] theorem State.observe_seats (core src : Nat) : (s.observe core src).seats = s.seats := by
  unfold State.observe; dsimp only; split <;> rfl
@[simp] theorem State.observe_clusters (core src : Nat) : (s.observe core src).clusters = s.clusters := by
  unfold State.observe; dsimp only; split <;> rfl
@[simp] theorem State.observe_dies (core src : Nat) : (s.observe core src).dies = s.dies := by
  unfold State.observe; dsimp only; split <;> rfl
@[simp] theorem State.observe_mem (core src : Nat) : (s.observe core src).mem = s.mem := by
  unfold State.observe; dsimp only; split <;> rfl
@[simp] theorem State.observe_tags (core src : Nat) : (s.observe core src).tags = s.tags := by
  unfold State.observe; dsimp only; split <;> rfl
@[simp] theorem State.observe_lines (core src : Nat) : (s.observe core src).lines = s.lines := by
  unfold State.observe; dsimp only; split <;> rfl
@[simp] theorem State.observe_l1 (core src : Nat) : (s.observe core src).l1 = s.l1 := by
  unfold State.observe; dsimp only; split <;> rfl
@[simp] theorem State.observe_l2 (core src : Nat) : (s.observe core src).l2 = s.l2 := by
  unfold State.observe; dsimp only; split <;> rfl
@[simp] theorem State.observe_walkers (core src : Nat) : (s.observe core src).walkers = s.walkers := by
  unfold State.observe; dsimp only; split <;> rfl
@[simp] theorem State.observe_engTlb (core src : Nat) : (s.observe core src).engTlb = s.engTlb := by
  unfold State.observe; dsimp only; split <;> rfl
@[simp] theorem State.observe_ctl (core src : Nat) : (s.observe core src).ctl = s.ctl := by
  unfold State.observe; dsimp only; split <;> rfl
@[simp] theorem State.observe_fe (core src : Nat) : (s.observe core src).fe = s.fe := by
  unfold State.observe; dsimp only; split <;> rfl
@[simp] theorem State.observe_resole (core src : Nat) : (s.observe core src).resole = s.resole := by
  unfold State.observe; dsimp only; split <;> rfl
@[simp] theorem State.observe_host (core src : Nat) : (s.observe core src).host = s.host := by
  unfold State.observe; dsimp only; split <;> rfl
@[simp] theorem State.observe_net (core src : Nat) : (s.observe core src).net = s.net := by
  unfold State.observe; dsimp only; split <;> rfl
@[simp] theorem State.observe_streams (core src : Nat) : (s.observe core src).streams = s.streams := by
  unfold State.observe; dsimp only; split <;> rfl
@[simp] theorem State.observe_power (core src : Nat) : (s.observe core src).power = s.power := by
  unfold State.observe; dsimp only; split <;> rfl
@[simp] theorem State.observe_sec (core src : Nat) : (s.observe core src).sec = s.sec := by
  unfold State.observe; dsimp only; split <;> rfl
@[simp] theorem State.observe_topo (core src : Nat) : (s.observe core src).topo = s.topo := by
  unfold State.observe; dsimp only; split <;> rfl
@[simp] theorem State.observe_policy (core src : Nat) : (s.observe core src).policy = s.policy := by
  unfold State.observe; dsimp only; split <;> rfl
@[simp] theorem State.observe_poison (core src : Nat) : (s.observe core src).poison = s.poison := by
  unfold State.observe; dsimp only; split <;> rfl
@[simp] theorem State.observe_cycle (core src : Nat) : (s.observe core src).cycle = s.cycle := by
  unfold State.observe; dsimp only; split <;> rfl
@[simp] theorem State.observe_nextOp (core src : Nat) : (s.observe core src).nextOp = s.nextOp := by
  unfold State.observe; dsimp only; split <;> rfl
@[simp] theorem State.observe_agenda (core src : Nat) : (s.observe core src).agenda = s.agenda := by
  unfold State.observe; dsimp only; split <;> rfl
@[simp] theorem State.observe_focus (core src : Nat) : (s.observe core src).focus = s.focus := by
  unfold State.observe; dsimp only; split <;> rfl

/-! State.observeRead -/

/-- What no sample changes, the samples of a read do not change. -/
theorem State.observeRead_keeps {α : Type} (f : State → α) (h : ∀ t core src, f (State.observe t core src) = f t)
    (core : Nat) (cp : BitVec 3) (line : Nat) : f (s.observeRead core cp line) = f s := by
  simp only [State.observeRead]; repeat' split
  all_goals simp [h]

@[simp] theorem State.observeRead_seats (core : Nat) (cp : BitVec 3) (line : Nat) : (s.observeRead core cp line).seats = s.seats :=
  s.observeRead_keeps State.seats (by simp) core cp line
@[simp] theorem State.observeRead_clusters (core : Nat) (cp : BitVec 3) (line : Nat) : (s.observeRead core cp line).clusters = s.clusters :=
  s.observeRead_keeps State.clusters (by simp) core cp line
@[simp] theorem State.observeRead_dies (core : Nat) (cp : BitVec 3) (line : Nat) : (s.observeRead core cp line).dies = s.dies :=
  s.observeRead_keeps State.dies (by simp) core cp line
@[simp] theorem State.observeRead_mem (core : Nat) (cp : BitVec 3) (line : Nat) : (s.observeRead core cp line).mem = s.mem :=
  s.observeRead_keeps State.mem (by simp) core cp line
@[simp] theorem State.observeRead_tags (core : Nat) (cp : BitVec 3) (line : Nat) : (s.observeRead core cp line).tags = s.tags :=
  s.observeRead_keeps State.tags (by simp) core cp line
@[simp] theorem State.observeRead_lines (core : Nat) (cp : BitVec 3) (line : Nat) : (s.observeRead core cp line).lines = s.lines :=
  s.observeRead_keeps State.lines (by simp) core cp line
@[simp] theorem State.observeRead_l1 (core : Nat) (cp : BitVec 3) (line : Nat) : (s.observeRead core cp line).l1 = s.l1 :=
  s.observeRead_keeps State.l1 (by simp) core cp line
@[simp] theorem State.observeRead_l2 (core : Nat) (cp : BitVec 3) (line : Nat) : (s.observeRead core cp line).l2 = s.l2 :=
  s.observeRead_keeps State.l2 (by simp) core cp line
@[simp] theorem State.observeRead_walkers (core : Nat) (cp : BitVec 3) (line : Nat) : (s.observeRead core cp line).walkers = s.walkers :=
  s.observeRead_keeps State.walkers (by simp) core cp line
@[simp] theorem State.observeRead_engTlb (core : Nat) (cp : BitVec 3) (line : Nat) : (s.observeRead core cp line).engTlb = s.engTlb :=
  s.observeRead_keeps State.engTlb (by simp) core cp line
@[simp] theorem State.observeRead_ctl (core : Nat) (cp : BitVec 3) (line : Nat) : (s.observeRead core cp line).ctl = s.ctl :=
  s.observeRead_keeps State.ctl (by simp) core cp line
@[simp] theorem State.observeRead_fe (core : Nat) (cp : BitVec 3) (line : Nat) : (s.observeRead core cp line).fe = s.fe :=
  s.observeRead_keeps State.fe (by simp) core cp line
@[simp] theorem State.observeRead_resole (core : Nat) (cp : BitVec 3) (line : Nat) : (s.observeRead core cp line).resole = s.resole :=
  s.observeRead_keeps State.resole (by simp) core cp line
@[simp] theorem State.observeRead_host (core : Nat) (cp : BitVec 3) (line : Nat) : (s.observeRead core cp line).host = s.host :=
  s.observeRead_keeps State.host (by simp) core cp line
@[simp] theorem State.observeRead_net (core : Nat) (cp : BitVec 3) (line : Nat) : (s.observeRead core cp line).net = s.net :=
  s.observeRead_keeps State.net (by simp) core cp line
@[simp] theorem State.observeRead_streams (core : Nat) (cp : BitVec 3) (line : Nat) : (s.observeRead core cp line).streams = s.streams :=
  s.observeRead_keeps State.streams (by simp) core cp line
@[simp] theorem State.observeRead_power (core : Nat) (cp : BitVec 3) (line : Nat) : (s.observeRead core cp line).power = s.power :=
  s.observeRead_keeps State.power (by simp) core cp line
@[simp] theorem State.observeRead_sec (core : Nat) (cp : BitVec 3) (line : Nat) : (s.observeRead core cp line).sec = s.sec :=
  s.observeRead_keeps State.sec (by simp) core cp line
@[simp] theorem State.observeRead_topo (core : Nat) (cp : BitVec 3) (line : Nat) : (s.observeRead core cp line).topo = s.topo :=
  s.observeRead_keeps State.topo (by simp) core cp line
@[simp] theorem State.observeRead_policy (core : Nat) (cp : BitVec 3) (line : Nat) : (s.observeRead core cp line).policy = s.policy :=
  s.observeRead_keeps State.policy (by simp) core cp line
@[simp] theorem State.observeRead_poison (core : Nat) (cp : BitVec 3) (line : Nat) : (s.observeRead core cp line).poison = s.poison :=
  s.observeRead_keeps State.poison (by simp) core cp line
@[simp] theorem State.observeRead_cycle (core : Nat) (cp : BitVec 3) (line : Nat) : (s.observeRead core cp line).cycle = s.cycle :=
  s.observeRead_keeps State.cycle (by simp) core cp line
@[simp] theorem State.observeRead_nextOp (core : Nat) (cp : BitVec 3) (line : Nat) : (s.observeRead core cp line).nextOp = s.nextOp :=
  s.observeRead_keeps State.nextOp (by simp) core cp line
@[simp] theorem State.observeRead_agenda (core : Nat) (cp : BitVec 3) (line : Nat) : (s.observeRead core cp line).agenda = s.agenda :=
  s.observeRead_keeps State.agenda (by simp) core cp line
@[simp] theorem State.observeRead_focus (core : Nat) (cp : BitVec 3) (line : Nat) : (s.observeRead core cp line).focus = s.focus :=
  s.observeRead_keeps State.focus (by simp) core cp line

end

end Sys2Proof.Machine
end

