-- ==== Sys2Proof/Laws/Memory.lean ====
section
/-! SUPPORT. Memory: every operation over it keeps its canonical form, and a read after a write gives what was written. -/

namespace Sys2Proof.Machine

/-- An operation that leaves the homes as they are keeps their form. -/
theorem wf_of_mem_eq {s t : State} (h : t.mem = s.mem) (w : Memory.wf s.mem) : Memory.wf t.mem := h ▸ w

theorem putHome_wf (s : State) (pa : Nat) (b : Byte) (h : Memory.wf s.mem) : Memory.wf (s.putHome pa b).mem :=
  acanon_aputD unlisted pa b h

theorem putHomes_wf (pa : Nat) (bs : List Byte) : ∀ (s : State), Memory.wf s.mem → Memory.wf (s.putHomes pa bs).mem := by
  induction bs generalizing pa with
  | nil => intro s h; exact h
  | cons b bs ih => intro s h; exact ih (pa + 1) (s.putHome pa b) (putHome_wf s pa b h)

@[simp] theorem putHomeTag_mem (s : State) (pa : Nat) (t : BitVec 16) : (s.putHomeTag pa t).mem = s.mem := by
  unfold State.putHomeTag; split <;> rfl

@[simp] theorem l1Put_mem (s : State) (core : Nat) (last : Bool) (line : Nat) : (s.l1Put core last line).mem = s.mem := rfl
@[simp] theorem l2Put_mem (s : State) (cluster : Nat) (last : Bool) (line : Nat) : (s.l2Put cluster last line).mem = s.mem := rfl
@[simp] theorem ownLine_mem (s : State) (core : Nat) (last : Bool) (pa : Nat) : (s.ownLine core last pa).mem = s.mem := rfl

@[simp] theorem fillLine_mem (s : State) (core : Nat) (cp : BitVec 3) (line : Nat) : (s.fillLine core cp line).mem = s.mem := by
  unfold State.fillLine; dsimp only; split
  · simp
  · split <;> simp

@[simp] theorem putCached_mem (s : State) (pa : Nat) (b : Byte) : (s.putCached pa b).mem = s.mem := by
  unfold State.putCached; split <;> rfl

@[simp] theorem putCachedTag_mem (s : State) (pa : Nat) (t : BitVec 16) : (s.putCachedTag pa t).mem = s.mem := by
  unfold State.putCachedTag; split <;> rfl

@[simp] theorem forgetLine_mem (s : State) (line : Nat) : (s.forgetLine line).mem = s.mem := by
  unfold State.forgetLine; split <;> rfl

/-- R93: of what a cache gives up, only a dirty line reaches memory. -/
theorem cleanLine_wf (s : State) (line : Nat) (h : Memory.wf s.mem) : Memory.wf (s.cleanLine line).mem := by
  unfold State.cleanLine
  split
  · split
    · exact h
    · simp only [putHomeTag_mem]; exact putHomes_wf _ _ _ h
  · exact h

theorem writeBack_wf (s : State) (line : Nat) (h : Memory.wf s.mem) : Memory.wf (s.writeBack line).mem := cleanLine_wf s line h

theorem evictL1_wf (s : State) (core line : Nat) (h : Memory.wf s.mem) : Memory.wf (s.evictL1 core line).mem := by
  simp only [State.evictL1, forgetLine_mem]
  split
  · exact cleanLine_wf s line h
  · exact h

theorem evictL2_wf (s : State) (cluster line : Nat) (h : Memory.wf s.mem) : Memory.wf (s.evictL2 cluster line).mem := by
  simpa only [State.evictL2, forgetLine_mem] using h

theorem storeByte_wf (s : State) (w : StoreWay) (pa : Nat) (b : Byte) (h : Memory.wf s.mem) :
    Memory.wf (s.storeByte w pa b).mem := by
  cases w with
  | cached core last => exact wf_of_mem_eq (by simp [State.storeByte]) h
  | through => exact putHome_wf _ _ _ (wf_of_mem_eq (by simp) h)
  | home => exact putHome_wf _ _ _ h

theorem storeBytes_wf (w : StoreWay) (pa : Nat) (bs : List Byte) :
    ∀ (s : State), Memory.wf s.mem → Memory.wf (s.storeBytes w pa bs).mem := by
  induction bs generalizing pa with
  | nil => intro s h; exact h
  | cons b bs ih => intro s h; exact ih (pa + 1) (s.storeByte w pa b) (storeByte_wf s w pa b h)

@[simp] theorem storeTag_mem (s : State) (w : StoreWay) (pa : Nat) (t : BitVec 16) : (s.storeTag w pa t).mem = s.mem := by
  cases w <;> simp only [State.storeTag] <;> split <;> simp

theorem engineBytes_wf (s : State) (pa : Nat) (bs : List Byte) (h : Memory.wf s.mem) : Memory.wf (s.engineBytes pa bs).mem :=
  storeBytes_wf .through pa bs s h

@[simp] theorem engineTag_mem (s : State) (pa : Nat) (t : BitVec 16) : (s.engineTag pa t).mem = s.mem :=
  storeTag_mem s .through pa t

@[simp] theorem wholeTag_mem (s : State) (w : StoreWay) (pa : Nat) (t : BitVec 16) : (s.wholeTag w pa t).mem = s.mem :=
  storeTag_mem s w pa t

/-- A fold of operations that keep the form keeps it. -/
theorem foldl_wf {α : Type} (f : State → α → State) (hf : ∀ s a, Memory.wf s.mem → Memory.wf (f s a).mem) (l : List α) :
    ∀ (s : State), Memory.wf s.mem → Memory.wf (l.foldl f s).mem := by
  induction l with
  | nil => intro s h; exact h
  | cons a l ih => intro s h; exact ih (f s a) (hf s a h)

theorem trim_wf (s : State) (h : Memory.wf s.mem) : Memory.wf s.trim.mem :=
  foldl_wf _ (fun s _ => foldl_wf _ (fun s l => evictL2_wf s _ l) _ s) _ _
    (foldl_wf _ (fun s _ => foldl_wf _ (fun s l => evictL1_wf s _ l) _ s) _ s h)

theorem recall_wf (s : State) (first n : Nat) (h : Memory.wf s.mem) : Memory.wf (s.recall first n).mem :=
  foldl_wf (fun s i => s.writeBack (first + i)) (fun s i => writeBack_wf s (first + i)) (List.range n) s h

/-- R529: what a power loss leaves of memory keeps the form. -/
theorem filter_wf (m : List Host.Cell) (p : Host.Cell → Bool) (h : Memory.wf m) : Memory.wf (m.filter p) :=
  acanon_filter unlisted p h

/-! Reads after writes. -/

/-- A byte that is not redirected reads as it was written (R486). -/
theorem homeByte_putHome_same (s : State) (pa : Nat) (b : Byte) (h : alook (pa / 64) s.resole.redirect = none) :
    (s.putHome pa b).homeByte pa = b := by
  simp [State.homeByte, State.homePa, h]

theorem homeByte_putHome_ne (s : State) (pa qa : Nat) (b : Byte) (h : s.homePa qa ≠ pa) :
    (s.putHome pa b).homeByte qa = s.homeByte qa := by
  have e : (s.putHome pa b).homePa qa = s.homePa qa := rfl
  simp [State.homeByte, e, aget_aputD_ne unlisted h]

theorem byteAt_putHome_ne (s : State) (pa qa : Nat) (b : Byte) (h : s.homePa qa ≠ pa) :
    (s.putHome pa b).byteAt qa = s.byteAt qa := by
  simp only [State.byteAt, State.putHome_lines, homeByte_putHome_ne s pa qa b h]

end Sys2Proof.Machine
end

