-- ==== Sys2Proof/Laws/Operands.lean ====
section
/-! SUPPORT. The wrapper of the slot instructions: when an instruction runs its body, what it answers, and what the reads and
writes of registers give. -/

namespace Sys2Proof.Machine

@[simp] theorem settle_ok (s t : State) : settle s (.ok t) = t.setStatus .issued := rfl

theorem stallSrcs_ready (s : State) (n : Nat) (rs : List Src) (h : ∀ r ∈ rs, s.srcEmpty r = false) :
    s.stallSrcs n rs = .ok () := by
  induction rs generalizing n with
  | nil => rfl
  | cons r rs ih =>
    have hr := h r (by simp)
    simp only [State.stallSrcs, hr, Bool.false_and, Bool.false_eq_true, if_false]
    exact ih (n + 1) (fun q hq => h q (by simp [hq]))

theorem stallAlways_ready (s : State) (rs : List Src) (h : ∀ r ∈ rs, s.srcEmpty r = false) : s.stallAlways rs = .ok () := by
  induction rs with
  | nil => rfl
  | cons r rs ih =>
    have hr := h r (by simp)
    simp only [State.stallAlways, hr, Bool.false_eq_true, if_false]
    exact ih (fun q hq => h q (by simp [hq]))

theorem stallDests_ready (s : State) (ds : List RegName) (h : ∀ d ∈ ds, s.destEmpty d = false) : s.stallDests ds = .ok () := by
  induction ds with
  | nil => rfl
  | cons d ds ih =>
    have hd := h d (by simp)
    simp only [State.stallDests, hd, Bool.false_eq_true, if_false]
    exact ih (fun q hq => h q (by simp [hq]))

theorem srcEmpty_of_readable (s : State) (r : Src) (h : s.readable r = true) : s.srcEmpty r = false := by
  unfold State.readable at h
  unfold State.srcEmpty
  cases hf : s.srcFill r <;> simp_all [Fill.empty]

theorem readCauses_ready (s : State) (rs : List Src) (h : ∀ r ∈ rs, s.readable r = true) : s.readCauses rs = .ok () := by
  induction rs with
  | nil => rfl
  | cons r rs ih =>
    have hr := h r (by simp)
    have he := srcEmpty_of_readable s r hr
    have ht := ih (fun q hq => h q (by simp [hq]))
    simp only [State.readCauses, he, Bool.false_eq_true, if_false, ht]
    unfold State.readable at hr
    cases hf : s.srcFill r <;> simp_all

/-- R433: with its registers ready, an instruction is judged by its block and its body alone. -/
theorem slotRun_ready {g : BitVec 4} {srcs also : List Src} {dsts : List RegName} {pre : State → Except Stop Unit}
    {body : State → Run} {s : State} (h : Ready g (srcs ++ also) dsts s) :
    slotRun g srcs also dsts pre body s = (pre s >>= fun _ => body s) := by
  have hs : ∀ r ∈ srcs, s.readable r = true := fun r hr => h.srcs r (by simp [hr])
  have ha : ∀ r ∈ also, s.readable r = true := fun r hr => h.srcs r (by simp [hr])
  unfold slotRun
  rw [if_neg (by simp [h.guardFull]), if_neg (by simp [h.guardTrue])]
  simp only [stallAlways_ready s also (fun r hr => srcEmpty_of_readable s r (ha r hr)),
    stallSrcs_ready s 0 srcs (fun r hr => srcEmpty_of_readable s r (hs r hr)), stallDests_ready s dsts h.dsts,
    readCauses_ready s srcs hs, readCauses_ready s also ha, bind, Except.bind]

/-- R281: under a false guard an instruction issues and does nothing. -/
theorem slotRun_false {g : BitVec 4} {srcs also : List Src} {dsts : List RegName} {pre : State → Except Stop Unit}
    {body : State → Run} {s : State} (h : s.srcEmpty (.p g) = false) (hf : s.rP g = false) :
    slotRun g srcs also dsts pre body s = .ok s := by
  unfold slotRun
  rw [if_neg (by simp [h]), if_pos hf]

theorem slotOp_ready {g : BitVec 4} {srcs : List Src} {dsts : List RegName} {body : State → Run} {s : State}
    (h : Ready g srcs dsts s) : slotOp g srcs dsts body s = .next (settle s (body s)) := by
  unfold slotOp
  rw [slotRun_ready (by simpa using h)]
  rfl

theorem slotOpA_ready {g : BitVec 4} {srcs also : List Src} {dsts : List RegName} {body : State → Run} {s : State}
    (h : Ready g (srcs ++ also) dsts s) : slotOpA g srcs also dsts body s = .next (settle s (body s)) := by
  unfold slotOpA
  rw [slotRun_ready h]
  rfl

theorem blockOp_ready {g : BitVec 4} {srcs : List Src} {dsts : List RegName} {limits : State → Params → Except Stop Unit}
    {body : Params → State → Run} {s : State} {p : Params} (h : Ready g (srcs ++ markerSrcs s.focus.block) dsts s)
    (hp : s.params = .ok p) (hl : limits s p = .ok ()) : blockOp g srcs dsts limits body s = .next (settle s (body p s)) := by
  unfold blockOp
  rw [slotRun_ready h]
  simp only [hp, hl, bind, Except.bind]

/-! What the wrapper answers. -/

theorem slotOp_next (g : BitVec 4) (srcs : List Src) (dsts : List RegName) (body : State → Run) (s : State) :
    slotOp g srcs dsts body s = .next (settle s (slotRun g srcs [] dsts (fun _ => .ok ()) body s)) := rfl

/-- A slot instruction has issued only where its run has answered a state. -/
theorem settle_issued {s : State} {r : Run} (h : (settle s r).focus.status = .issued) : ∃ t, r = .ok t := by
  cases r with
  | ok t => exact ⟨t, rfl⟩
  | error e => cases e <;> simp [settle] at h

/-- R271: p0 as a guard is full and true. -/
theorem guard_p0 (s : State) : s.srcEmpty (.p 0) = false ∧ s.rP 0 = true := by
  simp [State.srcEmpty, State.srcFill, Fill.empty, State.rP]

theorem ready_none (s : State) : Ready 0 [] [] s := ⟨(guard_p0 s).1, (guard_p0 s).2, by simp, by simp⟩

/-! Registers. -/

@[simp] theorem seatAt_setSeat_same (s : State) (c x : Nat) (t : Seat) : (s.setSeat c x t).seatAt c x = t := by
  simp [State.seatAt]

theorem seatAt_setSeat_ne (s : State) (c x c' x' : Nat) (t : Seat) (h : 2 * c' + x' ≠ 2 * c + x) :
    (s.setSeat c x t).seatAt c' x' = s.seatAt c' x' := by
  simp [State.seatAt, aget_aput_ne _ h]

@[simp] theorem fseat_setF (s : State) (t : Seat) : (s.setF t).fseat = t := by
  simp [State.fseat, State.setF]

@[simp] theorem fseat_modF (s : State) (f : Seat → Seat) : (s.modF f).fseat = f s.fseat := by
  simp [State.modF]

@[simp] theorem fcore_modFcore (s : State) (f : Core → Core) : (s.modFcore f).fcore = f s.fcore := by
  simp [State.fcore, State.modFcore, State.modCore, State.setCore, State.core]

/-- R281: a write of s0 is discarded. -/
@[simp] theorem wS_zero (s : State) (v : Word) (f : Fill) : s.wS 0#6 v f = s := by simp [State.wS]

/-- R281: a write of p0 is discarded. -/
@[simp] theorem wP_zero (s : State) (v : Bool) : s.wP 0#3 v = s := by simp [State.wP]

/-- R276: what a write of a scalar register leaves in it. -/
theorem wS_same (s : State) (d : BitVec 6) (v : Word) (f : Fill) (h : d ≠ 0) :
    aget sreg0 d.toNat (s.wS d v f).fseat.file.regs.s = { val := v, fill := f } := by
  unfold State.wS
  rw [if_neg h]
  simp

/-- R276: a write of a scalar register leaves the others alone. -/
theorem wS_ne (s : State) (d e : BitVec 6) (v : Word) (f : Fill) (h : e ≠ d) :
    aget sreg0 e.toNat (s.wS d v f).fseat.file.regs.s = aget sreg0 e.toNat s.fseat.file.regs.s := by
  unfold State.wS
  split
  · rfl
  · have hn : e.toNat ≠ d.toNat := fun q => h (BitVec.eq_of_toNat_eq q)
    simp [aget_aput_ne _ hn]

/-- Everything but the seats stays under a scalar write. -/
theorem wS_frame (s : State) (d : BitVec 6) (v : Word) (f : Fill) : ∃ l, s.wS d v f = { s with seats := l } := by
  unfold State.wS
  split
  · exact ⟨s.seats, rfl⟩
  · exact ⟨_, rfl⟩

theorem wP_frame (s : State) (d : BitVec 3) (v : Bool) : ∃ l, s.wP d v = { s with seats := l } := by
  unfold State.wP
  split
  · exact ⟨s.seats, rfl⟩
  · exact ⟨_, rfl⟩

end Sys2Proof.Machine
end

