-- ==== Sys2Proof/Laws/PerInstr.lean ====
section
/-! SUPPORT. The encoding round trip, one lemma per constructor of Instr: a well-formed slot instruction's own word, read by
the decoder of its position, is that instruction, with every operand at every value its encoding admits (R264, R265, R272 to
R275). A position-M instruction is read with the lent bits its immediate needs (R269, R298). -/

namespace Sys2Proof.Laws.Encoding

/-- What the round trip says of one instruction. A device step has no encoding, and NOP is read back in every position by its
own arm. -/
def Statement (i : Instr) : Prop :=
  i.isSlot = true → i.wf = true →
    match i.pos with
    | some 0 => decodeS i.encode = .ok i
    | some 1 => decodeV i.encode = .ok i
    | some 2 => decodeM i.encode (if i.needsHeader then some i.ext else none) = .ok i
    | some 3 => decodeC i.encode = .ok i
    | _ => True

/-- The immediate of an ML instruction comes back from its low nine bits and the bits the header lends. -/
theorem immediate_back (imm : BitVec 13) :
    mlImm (if mlImm none (imm.extractLsb' 0 9) = imm then none else some (imm.extractLsb' 9 4))
      (imm.extractLsb' 0 9) = imm := by
  split
  · assumption
  · simp only [mlImm]
    apply BitVec.eq_of_getLsbD_eq; intro i hi
    simp only [BitVec.getLsbD_append, BitVec.getLsbD_extractLsb']
    by_cases h : i < 9
    · simp [h]
    · have : i - 9 < 4 := by omega
      simp [h, this]; congr 1; omega

theorem nop : Statement .nop := fun _ _ => trivial

theorem add (d : BitVec 6) (a : BitVec 6) (b : BitVec 6) (g : BitVec 4) : Statement (.add d a b g) := by
  intro _ hw
  obtain ⟨f0, f1, f2, f3, f4, f5⟩ := layout_6_6_6_6_4_4 (w := Instr.encode (.add d a b g)) _ _ _ _ _ _ rfl
  refine (majorS_01 f0).trans ?_
  simp [decodeS01, f1, f2, f3, f4, f5]

theorem sub (d : BitVec 6) (a : BitVec 6) (b : BitVec 6) (g : BitVec 4) : Statement (.sub d a b g) := by
  intro _ hw
  obtain ⟨f0, f1, f2, f3, f4, f5⟩ := layout_6_6_6_6_4_4 (w := Instr.encode (.sub d a b g)) _ _ _ _ _ _ rfl
  refine (majorS_01 f0).trans ?_
  simp [decodeS01, f1, f2, f3, f4, f5]

theorem and_ (d : BitVec 6) (a : BitVec 6) (b : BitVec 6) (g : BitVec 4) : Statement (.and_ d a b g) := by
  intro _ hw
  obtain ⟨f0, f1, f2, f3, f4, f5⟩ := layout_6_6_6_6_4_4 (w := Instr.encode (.and_ d a b g)) _ _ _ _ _ _ rfl
  refine (majorS_01 f0).trans ?_
  simp [decodeS01, f1, f2, f3, f4, f5]

theorem or_ (d : BitVec 6) (a : BitVec 6) (b : BitVec 6) (g : BitVec 4) : Statement (.or_ d a b g) := by
  intro _ hw
  obtain ⟨f0, f1, f2, f3, f4, f5⟩ := layout_6_6_6_6_4_4 (w := Instr.encode (.or_ d a b g)) _ _ _ _ _ _ rfl
  refine (majorS_01 f0).trans ?_
  simp [decodeS01, f1, f2, f3, f4, f5]

theorem xor_ (d : BitVec 6) (a : BitVec 6) (b : BitVec 6) (g : BitVec 4) : Statement (.xor_ d a b g) := by
  intro _ hw
  obtain ⟨f0, f1, f2, f3, f4, f5⟩ := layout_6_6_6_6_4_4 (w := Instr.encode (.xor_ d a b g)) _ _ _ _ _ _ rfl
  refine (majorS_01 f0).trans ?_
  simp [decodeS01, f1, f2, f3, f4, f5]

theorem shl (d : BitVec 6) (a : BitVec 6) (b : BitVec 6) (g : BitVec 4) : Statement (.shl d a b g) := by
  intro _ hw
  obtain ⟨f0, f1, f2, f3, f4, f5⟩ := layout_6_6_6_6_4_4 (w := Instr.encode (.shl d a b g)) _ _ _ _ _ _ rfl
  refine (majorS_01 f0).trans ?_
  simp [decodeS01, f1, f2, f3, f4, f5]

theorem shr (d : BitVec 6) (a : BitVec 6) (b : BitVec 6) (g : BitVec 4) : Statement (.shr d a b g) := by
  intro _ hw
  obtain ⟨f0, f1, f2, f3, f4, f5⟩ := layout_6_6_6_6_4_4 (w := Instr.encode (.shr d a b g)) _ _ _ _ _ _ rfl
  refine (majorS_01 f0).trans ?_
  simp [decodeS01, f1, f2, f3, f4, f5]

theorem sra (d : BitVec 6) (a : BitVec 6) (b : BitVec 6) (g : BitVec 4) : Statement (.sra d a b g) := by
  intro _ hw
  obtain ⟨f0, f1, f2, f3, f4, f5⟩ := layout_6_6_6_6_4_4 (w := Instr.encode (.sra d a b g)) _ _ _ _ _ _ rfl
  refine (majorS_01 f0).trans ?_
  simp [decodeS01, f1, f2, f3, f4, f5]

theorem minS (d : BitVec 6) (a : BitVec 6) (b : BitVec 6) (g : BitVec 4) : Statement (.minS d a b g) := by
  intro _ hw
  obtain ⟨f0, f1, f2, f3, f4, f5⟩ := layout_6_6_6_6_4_4 (w := Instr.encode (.minS d a b g)) _ _ _ _ _ _ rfl
  refine (majorS_01 f0).trans ?_
  simp [decodeS01, f1, f2, f3, f4, f5]

theorem minZ (d : BitVec 6) (a : BitVec 6) (b : BitVec 6) (g : BitVec 4) : Statement (.minZ d a b g) := by
  intro _ hw
  obtain ⟨f0, f1, f2, f3, f4, f5⟩ := layout_6_6_6_6_4_4 (w := Instr.encode (.minZ d a b g)) _ _ _ _ _ _ rfl
  refine (majorS_01 f0).trans ?_
  simp [decodeS01, f1, f2, f3, f4, f5]

theorem maxS (d : BitVec 6) (a : BitVec 6) (b : BitVec 6) (g : BitVec 4) : Statement (.maxS d a b g) := by
  intro _ hw
  obtain ⟨f0, f1, f2, f3, f4, f5⟩ := layout_6_6_6_6_4_4 (w := Instr.encode (.maxS d a b g)) _ _ _ _ _ _ rfl
  refine (majorS_01 f0).trans ?_
  simp [decodeS01, f1, f2, f3, f4, f5]

theorem maxZ (d : BitVec 6) (a : BitVec 6) (b : BitVec 6) (g : BitVec 4) : Statement (.maxZ d a b g) := by
  intro _ hw
  obtain ⟨f0, f1, f2, f3, f4, f5⟩ := layout_6_6_6_6_4_4 (w := Instr.encode (.maxZ d a b g)) _ _ _ _ _ _ rfl
  refine (majorS_01 f0).trans ?_
  simp [decodeS01, f1, f2, f3, f4, f5]

theorem mul (d : BitVec 6) (a : BitVec 6) (b : BitVec 6) (g : BitVec 4) : Statement (.mul d a b g) := by
  intro _ hw
  obtain ⟨f0, f1, f2, f3, f4, f5⟩ := layout_6_6_6_6_4_4 (w := Instr.encode (.mul d a b g)) _ _ _ _ _ _ rfl
  refine (majorS_01 f0).trans ?_
  simp [decodeS01, f1, f2, f3, f4, f5]

theorem mulhS (d : BitVec 6) (a : BitVec 6) (b : BitVec 6) (g : BitVec 4) : Statement (.mulhS d a b g) := by
  intro _ hw
  obtain ⟨f0, f1, f2, f3, f4, f5⟩ := layout_6_6_6_6_4_4 (w := Instr.encode (.mulhS d a b g)) _ _ _ _ _ _ rfl
  refine (majorS_01 f0).trans ?_
  simp [decodeS01, f1, f2, f3, f4, f5]

theorem mulhZ (d : BitVec 6) (a : BitVec 6) (b : BitVec 6) (g : BitVec 4) : Statement (.mulhZ d a b g) := by
  intro _ hw
  obtain ⟨f0, f1, f2, f3, f4, f5⟩ := layout_6_6_6_6_4_4 (w := Instr.encode (.mulhZ d a b g)) _ _ _ _ _ _ rfl
  refine (majorS_01 f0).trans ?_
  simp [decodeS01, f1, f2, f3, f4, f5]

theorem divS (d : BitVec 6) (a : BitVec 6) (b : BitVec 6) (g : BitVec 4) : Statement (.divS d a b g) := by
  intro _ hw
  obtain ⟨f0, f1, f2, f3, f4, f5⟩ := layout_6_6_6_6_4_4 (w := Instr.encode (.divS d a b g)) _ _ _ _ _ _ rfl
  refine (majorS_02 f0).trans ?_
  simp [decodeS02, f1, f2, f3, f4, f5]

theorem divZ (d : BitVec 6) (a : BitVec 6) (b : BitVec 6) (g : BitVec 4) : Statement (.divZ d a b g) := by
  intro _ hw
  obtain ⟨f0, f1, f2, f3, f4, f5⟩ := layout_6_6_6_6_4_4 (w := Instr.encode (.divZ d a b g)) _ _ _ _ _ _ rfl
  refine (majorS_02 f0).trans ?_
  simp [decodeS02, f1, f2, f3, f4, f5]

theorem remS (d : BitVec 6) (a : BitVec 6) (b : BitVec 6) (g : BitVec 4) : Statement (.remS d a b g) := by
  intro _ hw
  obtain ⟨f0, f1, f2, f3, f4, f5⟩ := layout_6_6_6_6_4_4 (w := Instr.encode (.remS d a b g)) _ _ _ _ _ _ rfl
  refine (majorS_02 f0).trans ?_
  simp [decodeS02, f1, f2, f3, f4, f5]

theorem remZ (d : BitVec 6) (a : BitVec 6) (b : BitVec 6) (g : BitVec 4) : Statement (.remZ d a b g) := by
  intro _ hw
  obtain ⟨f0, f1, f2, f3, f4, f5⟩ := layout_6_6_6_6_4_4 (w := Instr.encode (.remZ d a b g)) _ _ _ _ _ _ rfl
  refine (majorS_02 f0).trans ?_
  simp [decodeS02, f1, f2, f3, f4, f5]

theorem clz (d : BitVec 6) (a : BitVec 6) (g : BitVec 4) : Statement (.clz d a g) := by
  intro _ hw
  obtain ⟨f0, f1, f2, f3, f4, f5⟩ := layout_6_6_6_6_4_4 (w := Instr.encode (.clz d a g)) _ _ _ _ _ _ rfl
  refine (majorS_03 f0).trans ?_
  simp [decodeS03, f1, f2, f3, f4, f5]

theorem ctz (d : BitVec 6) (a : BitVec 6) (g : BitVec 4) : Statement (.ctz d a g) := by
  intro _ hw
  obtain ⟨f0, f1, f2, f3, f4, f5⟩ := layout_6_6_6_6_4_4 (w := Instr.encode (.ctz d a g)) _ _ _ _ _ _ rfl
  refine (majorS_03 f0).trans ?_
  simp [decodeS03, f1, f2, f3, f4, f5]

theorem popc (d : BitVec 6) (a : BitVec 6) (g : BitVec 4) : Statement (.popc d a g) := by
  intro _ hw
  obtain ⟨f0, f1, f2, f3, f4, f5⟩ := layout_6_6_6_6_4_4 (w := Instr.encode (.popc d a g)) _ _ _ _ _ _ rfl
  refine (majorS_03 f0).trans ?_
  simp [decodeS03, f1, f2, f3, f4, f5]

theorem bext (d : BitVec 6) (a : BitVec 6) (b : BitVec 6) (g : BitVec 4) : Statement (.bext d a b g) := by
  intro _ hw
  obtain ⟨f0, f1, f2, f3, f4, f5⟩ := layout_6_6_6_6_4_4 (w := Instr.encode (.bext d a b g)) _ _ _ _ _ _ rfl
  refine (majorS_03 f0).trans ?_
  simp [decodeS03, f1, f2, f3, f4, f5]

theorem bins (d : BitVec 6) (a : BitVec 6) (b : BitVec 6) (g : BitVec 4) : Statement (.bins d a b g) := by
  intro _ hw
  obtain ⟨f0, f1, f2, f3, f4, f5⟩ := layout_6_6_6_6_4_4 (w := Instr.encode (.bins d a b g)) _ _ _ _ _ _ rfl
  refine (majorS_03 f0).trans ?_
  simp [decodeS03, f1, f2, f3, f4, f5]

theorem addsh (d : BitVec 6) (a : BitVec 6) (b : BitVec 6) (sh : BitVec 4) (g : BitVec 4) : Statement (.addsh d a b sh g) := by
  intro _ hw
  obtain ⟨f0, f1, f2, f3, f4, f5⟩ := layout_6_6_6_6_4_4 (w := Instr.encode (.addsh d a b sh g)) _ _ _ _ _ _ rfl
  refine (majorS_04 f0).trans ?_
  simp [decodeS04, f1, f2, f3, f4, f5]

theorem sel (d : BitVec 6) (a : BitVec 6) (b : BitVec 6) (pc : BitVec 4) (g : BitVec 4) : Statement (.sel d a b pc g) := by
  intro _ hw
  obtain ⟨f0, f1, f2, f3, f4, f5⟩ := layout_6_6_6_6_4_4 (w := Instr.encode (.sel d a b pc g)) _ _ _ _ _ _ rfl
  refine (majorS_05 f0).trans ?_
  simp [decodeS05, f1, f2, f3, f4, f5]

theorem addi (d : BitVec 6) (a : BitVec 6) (imm : BitVec 10) (g : BitVec 4) : Statement (.addi d a imm g) := by
  intro _ hw
  obtain ⟨f0, f1, f2, f3, f4⟩ := layout_6_6_6_10_4 (w := Instr.encode (.addi d a imm g)) _ _ _ _ _ rfl
  refine (majorS_08 f0).trans ?_
  simp [decodeS08, f1, f2, f3, f4]

theorem andi (d : BitVec 6) (a : BitVec 6) (imm : BitVec 10) (g : BitVec 4) : Statement (.andi d a imm g) := by
  intro _ hw
  obtain ⟨f0, f1, f2, f3, f4⟩ := layout_6_6_6_10_4 (w := Instr.encode (.andi d a imm g)) _ _ _ _ _ rfl
  refine (majorS_09 f0).trans ?_
  simp [decodeS09, f1, f2, f3, f4]

theorem ori (d : BitVec 6) (a : BitVec 6) (imm : BitVec 10) (g : BitVec 4) : Statement (.ori d a imm g) := by
  intro _ hw
  obtain ⟨f0, f1, f2, f3, f4⟩ := layout_6_6_6_10_4 (w := Instr.encode (.ori d a imm g)) _ _ _ _ _ rfl
  refine (majorS_0A f0).trans ?_
  simp [decodeS0A, f1, f2, f3, f4]

theorem xori (d : BitVec 6) (a : BitVec 6) (imm : BitVec 10) (g : BitVec 4) : Statement (.xori d a imm g) := by
  intro _ hw
  obtain ⟨f0, f1, f2, f3, f4⟩ := layout_6_6_6_10_4 (w := Instr.encode (.xori d a imm g)) _ _ _ _ _ rfl
  refine (majorS_0B f0).trans ?_
  simp [decodeS0B, f1, f2, f3, f4]

theorem shli (d : BitVec 6) (a : BitVec 6) (sh : BitVec 6) (g : BitVec 4) : Statement (.shli d a sh g) := by
  intro _ hw
  obtain ⟨f0, f1, f2, f3, f4, f5⟩ := layout_6_6_6_4_6_4 (w := Instr.encode (.shli d a sh g)) _ _ _ _ _ _ rfl
  refine (majorS_0C f0).trans ?_
  simp [decodeS0C, f1, f2, f3, f4, f5]

theorem shri (d : BitVec 6) (a : BitVec 6) (sh : BitVec 6) (g : BitVec 4) : Statement (.shri d a sh g) := by
  intro _ hw
  obtain ⟨f0, f1, f2, f3, f4, f5⟩ := layout_6_6_6_4_6_4 (w := Instr.encode (.shri d a sh g)) _ _ _ _ _ _ rfl
  refine (majorS_0D f0).trans ?_
  simp [decodeS0D, f1, f2, f3, f4, f5]

theorem srai (d : BitVec 6) (a : BitVec 6) (sh : BitVec 6) (g : BitVec 4) : Statement (.srai d a sh g) := by
  intro _ hw
  obtain ⟨f0, f1, f2, f3, f4, f5⟩ := layout_6_6_6_4_6_4 (w := Instr.encode (.srai d a sh g)) _ _ _ _ _ _ rfl
  refine (majorS_0E f0).trans ?_
  simp [decodeS0E, f1, f2, f3, f4, f5]

theorem movi (d : BitVec 6) (imm : BitVec 16) (g : BitVec 4) : Statement (.movi d imm g) := by
  intro _ hw
  obtain ⟨f0, f1, f2, f3⟩ := layout_6_6_16_4 (w := Instr.encode (.movi d imm g)) _ _ _ _ rfl
  refine (majorS_10 f0).trans ?_
  simp [decodeS10, f1, f2, f3]

theorem movh (d : BitVec 6) (imm : BitVec 16) (g : BitVec 4) : Statement (.movh d imm g) := by
  intro _ hw
  obtain ⟨f0, f1, f2, f3⟩ := layout_6_6_16_4 (w := Instr.encode (.movh d imm g)) _ _ _ _ rfl
  refine (majorS_11 f0).trans ?_
  simp [decodeS11, f1, f2, f3]

theorem cmpEq (pd : BitVec 3) (a : BitVec 6) (b : BitVec 6) (g : BitVec 4) : Statement (.cmpEq pd a b g) := by
  intro _ hw
  obtain ⟨f0, f1, f2, f3, f4, f5, f6, f7⟩ := layout_6_1_3_6_6_3_3_4 (w := Instr.encode (.cmpEq pd a b g)) _ _ _ _ _ _ _ _ rfl
  refine (majorS_14 f0).trans ?_
  simp [decodeS14, f1, f2, f3, f4, f5, f6, f7]

theorem cmpNe (pd : BitVec 3) (a : BitVec 6) (b : BitVec 6) (g : BitVec 4) : Statement (.cmpNe pd a b g) := by
  intro _ hw
  obtain ⟨f0, f1, f2, f3, f4, f5, f6, f7⟩ := layout_6_1_3_6_6_3_3_4 (w := Instr.encode (.cmpNe pd a b g)) _ _ _ _ _ _ _ _ rfl
  refine (majorS_14 f0).trans ?_
  simp [decodeS14, f1, f2, f3, f4, f5, f6, f7]

theorem cmpLtS (pd : BitVec 3) (a : BitVec 6) (b : BitVec 6) (g : BitVec 4) : Statement (.cmpLtS pd a b g) := by
  intro _ hw
  obtain ⟨f0, f1, f2, f3, f4, f5, f6, f7⟩ := layout_6_1_3_6_6_3_3_4 (w := Instr.encode (.cmpLtS pd a b g)) _ _ _ _ _ _ _ _ rfl
  refine (majorS_14 f0).trans ?_
  simp [decodeS14, f1, f2, f3, f4, f5, f6, f7]

theorem cmpLtZ (pd : BitVec 3) (a : BitVec 6) (b : BitVec 6) (g : BitVec 4) : Statement (.cmpLtZ pd a b g) := by
  intro _ hw
  obtain ⟨f0, f1, f2, f3, f4, f5, f6, f7⟩ := layout_6_1_3_6_6_3_3_4 (w := Instr.encode (.cmpLtZ pd a b g)) _ _ _ _ _ _ _ _ rfl
  refine (majorS_14 f0).trans ?_
  simp [decodeS14, f1, f2, f3, f4, f5, f6, f7]

theorem cmpGeS (pd : BitVec 3) (a : BitVec 6) (b : BitVec 6) (g : BitVec 4) : Statement (.cmpGeS pd a b g) := by
  intro _ hw
  obtain ⟨f0, f1, f2, f3, f4, f5, f6, f7⟩ := layout_6_1_3_6_6_3_3_4 (w := Instr.encode (.cmpGeS pd a b g)) _ _ _ _ _ _ _ _ rfl
  refine (majorS_14 f0).trans ?_
  simp [decodeS14, f1, f2, f3, f4, f5, f6, f7]

theorem cmpGeZ (pd : BitVec 3) (a : BitVec 6) (b : BitVec 6) (g : BitVec 4) : Statement (.cmpGeZ pd a b g) := by
  intro _ hw
  obtain ⟨f0, f1, f2, f3, f4, f5, f6, f7⟩ := layout_6_1_3_6_6_3_3_4 (w := Instr.encode (.cmpGeZ pd a b g)) _ _ _ _ _ _ _ _ rfl
  refine (majorS_14 f0).trans ?_
  simp [decodeS14, f1, f2, f3, f4, f5, f6, f7]

theorem pand (pd : BitVec 3) (pa : BitVec 4) (pb : BitVec 4) (g : BitVec 4) : Statement (.pand pd pa pb g) := by
  intro _ hw
  obtain ⟨f0, f1, f2, f3, f4, f5, f6, f7, f8⟩ := layout_6_1_3_4_4_3_1_6_4 (w := Instr.encode (.pand pd pa pb g)) _ _ _ _ _ _ _ _ _ rfl
  refine (majorS_15 f0).trans ?_
  simp [decodeS15, f1, f2, f3, f4, f5, f6, f7, f8]

theorem por (pd : BitVec 3) (pa : BitVec 4) (pb : BitVec 4) (g : BitVec 4) : Statement (.por pd pa pb g) := by
  intro _ hw
  obtain ⟨f0, f1, f2, f3, f4, f5, f6, f7, f8⟩ := layout_6_1_3_4_4_3_1_6_4 (w := Instr.encode (.por pd pa pb g)) _ _ _ _ _ _ _ _ _ rfl
  refine (majorS_15 f0).trans ?_
  simp [decodeS15, f1, f2, f3, f4, f5, f6, f7, f8]

theorem pxor (pd : BitVec 3) (pa : BitVec 4) (pb : BitVec 4) (g : BitVec 4) : Statement (.pxor pd pa pb g) := by
  intro _ hw
  obtain ⟨f0, f1, f2, f3, f4, f5, f6, f7, f8⟩ := layout_6_1_3_4_4_3_1_6_4 (w := Instr.encode (.pxor pd pa pb g)) _ _ _ _ _ _ _ _ _ rfl
  refine (majorS_15 f0).trans ?_
  simp [decodeS15, f1, f2, f3, f4, f5, f6, f7, f8]

theorem pandn (pd : BitVec 3) (pa : BitVec 4) (pb : BitVec 4) (g : BitVec 4) : Statement (.pandn pd pa pb g) := by
  intro _ hw
  obtain ⟨f0, f1, f2, f3, f4, f5, f6, f7, f8⟩ := layout_6_1_3_4_4_3_1_6_4 (w := Instr.encode (.pandn pd pa pb g)) _ _ _ _ _ _ _ _ _ rfl
  refine (majorS_15 f0).trans ?_
  simp [decodeS15, f1, f2, f3, f4, f5, f6, f7, f8]

theorem pmov (pd : BitVec 3) (pa : BitVec 4) (g : BitVec 4) : Statement (.pmov pd pa g) := by
  intro _ hw
  obtain ⟨f0, f1, f2, f3, f4, f5, f6, f7, f8⟩ := layout_6_1_3_4_4_3_1_6_4 (w := Instr.encode (.pmov pd pa g)) _ _ _ _ _ _ _ _ _ rfl
  refine (majorS_15 f0).trans ?_
  simp [decodeS15, f1, f2, f3, f4, f5, f6, f7, f8]

theorem pset (pd : BitVec 3) (val : BitVec 1) (g : BitVec 4) : Statement (.pset pd val g) := by
  intro _ hw
  obtain ⟨f0, f1, f2, f3, f4, f5, f6, f7, f8⟩ := layout_6_1_3_4_4_3_1_6_4 (w := Instr.encode (.pset pd val g)) _ _ _ _ _ _ _ _ _ rfl
  refine (majorS_15 f0).trans ?_
  simp [decodeS15, f1, f2, f3, f4, f5, f6, f7, f8]

theorem bra (off : BitVec 22) (g : BitVec 4) : Statement (.bra off g) := by
  intro _ hw
  obtain ⟨f0, f1, f2⟩ := layout_6_22_4 (w := Instr.encode (.bra off g)) _ _ _ rfl
  refine (majorS_18 f0).trans ?_
  simp [decodeS18, f1, f2]

theorem call (off : BitVec 22) (g : BitVec 4) : Statement (.call off g) := by
  intro _ hw
  obtain ⟨f0, f1, f2⟩ := layout_6_22_4 (w := Instr.encode (.call off g)) _ _ _ rfl
  refine (majorS_19 f0).trans ?_
  simp [decodeS19, f1, f2]

theorem brar (a : BitVec 6) (g : BitVec 4) : Statement (.brar a g) := by
  intro _ hw
  obtain ⟨f0, f1, f2, f3, f4, f5⟩ := layout_6_6_6_6_4_4 (w := Instr.encode (.brar a g)) _ _ _ _ _ _ rfl
  refine (majorS_1A f0).trans ?_
  simp [decodeS1A, f1, f2, f3, f4, f5]

theorem ret (g : BitVec 4) : Statement (.ret g) := by
  intro _ hw
  obtain ⟨f0, f1, f2, f3, f4, f5⟩ := layout_6_6_6_6_4_4 (w := Instr.encode (.ret g)) _ _ _ _ _ _ rfl
  refine (majorS_1B f0).trans ?_
  simp [decodeS1B, f1, f2, f3, f4, f5]

theorem loop (a : BitVec 6) (sm1 : BitVec 3) (len : BitVec 13) : Statement (.loop a sm1 len) := by
  intro _ hw
  obtain ⟨f0, f1, f2, f3, f4⟩ := layout_6_6_3_13_4 (w := Instr.encode (.loop a sm1 len)) _ _ _ _ _ rfl
  refine (majorS_1C f0).trans ?_
  simp [decodeS1C, f1, f2, f3, f4, checked, hw]

theorem ctlr (d : BitVec 6) (cr : BitVec 12) : Statement (.ctlr d cr) := by
  intro _ hw
  obtain ⟨f0, f1, f2, f3, f4⟩ := layout_6_6_6_12_2 (w := Instr.encode (.ctlr d cr)) _ _ _ _ _ rfl
  refine (majorS_20 f0).trans ?_
  simp [decodeS20, f1, f2, f3, f4, checked, hw]

theorem ctlw (a : BitVec 6) (cr : BitVec 12) : Statement (.ctlw a cr) := by
  intro _ hw
  obtain ⟨f0, f1, f2, f3, f4⟩ := layout_6_6_6_12_2 (w := Instr.encode (.ctlw a cr)) _ _ _ _ _ rfl
  refine (majorS_20 f0).trans ?_
  simp [decodeS20, f1, f2, f3, f4, checked, hw]

theorem ctlx (d : BitVec 6) (a : BitVec 6) (cr : BitVec 12) : Statement (.ctlx d a cr) := by
  intro _ hw
  obtain ⟨f0, f1, f2, f3, f4⟩ := layout_6_6_6_12_2 (w := Instr.encode (.ctlx d a cr)) _ _ _ _ _ rfl
  refine (majorS_20 f0).trans ?_
  simp [decodeS20, f1, f2, f3, f4, checked, hw]

theorem trap (imm : BitVec 18) (g : BitVec 4) : Statement (.trap imm g) := by
  intro _ hw
  obtain ⟨f0, f1, f2, f3⟩ := layout_6_18_4_4 (w := Instr.encode (.trap imm g)) _ _ _ _ rfl
  refine (majorS_24 f0).trans ?_
  simp [decodeS24, f1, f2, f3]

theorem eret (g : BitVec 4) : Statement (.eret g) := by
  intro _ hw
  obtain ⟨f0, f1, f2, f3⟩ := layout_6_18_4_4 (w := Instr.encode (.eret g)) _ _ _ _ rfl
  refine (majorS_24 f0).trans ?_
  simp [decodeS24, f1, f2, f3]

theorem snapst (g : BitVec 4) : Statement (.snapst g) := by
  intro _ hw
  obtain ⟨f0, f1, f2, f3⟩ := layout_6_18_4_4 (w := Instr.encode (.snapst g)) _ _ _ _ rfl
  refine (majorS_24 f0).trans ?_
  simp [decodeS24, f1, f2, f3]

theorem snaprel (g : BitVec 4) : Statement (.snaprel g) := by
  intro _ hw
  obtain ⟨f0, f1, f2, f3⟩ := layout_6_18_4_4 (w := Instr.encode (.snaprel g)) _ _ _ _ rfl
  refine (majorS_24 f0).trans ?_
  simp [decodeS24, f1, f2, f3]

theorem suspend (g : BitVec 4) : Statement (.suspend g) := by
  intro _ hw
  obtain ⟨f0, f1, f2, f3⟩ := layout_6_18_4_4 (w := Instr.encode (.suspend g)) _ _ _ _ rfl
  refine (majorS_24 f0).trans ?_
  simp [decodeS24, f1, f2, f3]

theorem yield (g : BitVec 4) : Statement (.yield g) := by
  intro _ hw
  obtain ⟨f0, f1, f2, f3⟩ := layout_6_18_4_4 (w := Instr.encode (.yield g)) _ _ _ _ rfl
  refine (majorS_24 f0).trans ?_
  simp [decodeS24, f1, f2, f3]

theorem halt (g : BitVec 4) : Statement (.halt g) := by
  intro _ hw
  obtain ⟨f0, f1, f2, f3⟩ := layout_6_18_4_4 (w := Instr.encode (.halt g)) _ _ _ _ rfl
  refine (majorS_24 f0).trans ?_
  simp [decodeS24, f1, f2, f3]

theorem waittl (a : BitVec 6) (tl : BitVec 12) (cert : BitVec 1) (g : BitVec 4) : Statement (.waittl a tl cert g) := by
  intro _ hw
  obtain ⟨f0, f1, f2, f3, f4, f5, f6⟩ := layout_6_6_12_1_1_2_4 (w := Instr.encode (.waittl a tl cert g)) _ _ _ _ _ _ _ rfl
  refine (majorS_28 f0).trans ?_
  simp [decodeS28, f1, f2, f3, f4, f5, f6, checked, hw]

theorem waittlSusp (a : BitVec 6) (tl : BitVec 12) (cert : BitVec 1) (g : BitVec 4) : Statement (.waittlSusp a tl cert g) := by
  intro _ hw
  obtain ⟨f0, f1, f2, f3, f4, f5, f6⟩ := layout_6_6_12_1_1_2_4 (w := Instr.encode (.waittlSusp a tl cert g)) _ _ _ _ _ _ _ rfl
  refine (majorS_28 f0).trans ?_
  simp [decodeS28, f1, f2, f3, f4, f5, f6, checked, hw]

theorem sigtl (a : BitVec 6) (tl : BitVec 12) (g : BitVec 4) : Statement (.sigtl a tl g) := by
  intro _ hw
  obtain ⟨f0, f1, f2, f3, f4, f5, f6⟩ := layout_6_6_12_1_1_2_4 (w := Instr.encode (.sigtl a tl g)) _ _ _ _ _ _ _ rfl
  refine (majorS_29 f0).trans ?_
  simp [decodeS29, f1, f2, f3, f4, f5, f6, checked, hw]

theorem ldB (d : BitVec 6) (a : BitVec 6) (sp : BitVec 1) (imm : BitVec 13) (g : BitVec 4) : Statement (.ldB d a sp imm g) := by
  intro _ hw
  obtain ⟨f0, f1, f2, f3, f4, f5⟩ := layout_6_6_6_1_9_4 (w := Instr.encode (.ldB d a sp imm g)) _ _ _ _ _ _ rfl
  refine (majorM_01 _ f0).trans ?_
  simp [decodeM01, f1, f2, f3, f4, f5, Instr.needsHeader, Instr.ext, immediate_back]

theorem ldBs (d : BitVec 6) (a : BitVec 6) (sp : BitVec 1) (imm : BitVec 13) (g : BitVec 4) : Statement (.ldBs d a sp imm g) := by
  intro _ hw
  obtain ⟨f0, f1, f2, f3, f4, f5⟩ := layout_6_6_6_1_9_4 (w := Instr.encode (.ldBs d a sp imm g)) _ _ _ _ _ _ rfl
  refine (majorM_02 _ f0).trans ?_
  simp [decodeM02, f1, f2, f3, f4, f5, Instr.needsHeader, Instr.ext, immediate_back]

theorem ldH (d : BitVec 6) (a : BitVec 6) (sp : BitVec 1) (imm : BitVec 13) (g : BitVec 4) : Statement (.ldH d a sp imm g) := by
  intro _ hw
  obtain ⟨f0, f1, f2, f3, f4, f5⟩ := layout_6_6_6_1_9_4 (w := Instr.encode (.ldH d a sp imm g)) _ _ _ _ _ _ rfl
  refine (majorM_03 _ f0).trans ?_
  simp [decodeM03, f1, f2, f3, f4, f5, Instr.needsHeader, Instr.ext, immediate_back]

theorem ldHs (d : BitVec 6) (a : BitVec 6) (sp : BitVec 1) (imm : BitVec 13) (g : BitVec 4) : Statement (.ldHs d a sp imm g) := by
  intro _ hw
  obtain ⟨f0, f1, f2, f3, f4, f5⟩ := layout_6_6_6_1_9_4 (w := Instr.encode (.ldHs d a sp imm g)) _ _ _ _ _ _ rfl
  refine (majorM_04 _ f0).trans ?_
  simp [decodeM04, f1, f2, f3, f4, f5, Instr.needsHeader, Instr.ext, immediate_back]

theorem ldW (d : BitVec 6) (a : BitVec 6) (sp : BitVec 1) (imm : BitVec 13) (g : BitVec 4) : Statement (.ldW d a sp imm g) := by
  intro _ hw
  obtain ⟨f0, f1, f2, f3, f4, f5⟩ := layout_6_6_6_1_9_4 (w := Instr.encode (.ldW d a sp imm g)) _ _ _ _ _ _ rfl
  refine (majorM_05 _ f0).trans ?_
  simp [decodeM05, f1, f2, f3, f4, f5, Instr.needsHeader, Instr.ext, immediate_back]

theorem ldWs (d : BitVec 6) (a : BitVec 6) (sp : BitVec 1) (imm : BitVec 13) (g : BitVec 4) : Statement (.ldWs d a sp imm g) := by
  intro _ hw
  obtain ⟨f0, f1, f2, f3, f4, f5⟩ := layout_6_6_6_1_9_4 (w := Instr.encode (.ldWs d a sp imm g)) _ _ _ _ _ _ rfl
  refine (majorM_06 _ f0).trans ?_
  simp [decodeM06, f1, f2, f3, f4, f5, Instr.needsHeader, Instr.ext, immediate_back]

theorem ldD (d : BitVec 6) (a : BitVec 6) (sp : BitVec 1) (imm : BitVec 13) (g : BitVec 4) : Statement (.ldD d a sp imm g) := by
  intro _ hw
  obtain ⟨f0, f1, f2, f3, f4, f5⟩ := layout_6_6_6_1_9_4 (w := Instr.encode (.ldD d a sp imm g)) _ _ _ _ _ _ rfl
  refine (majorM_07 _ f0).trans ?_
  simp [decodeM07, f1, f2, f3, f4, f5, Instr.needsHeader, Instr.ext, immediate_back]

theorem stB (c : BitVec 6) (a : BitVec 6) (sp : BitVec 1) (imm : BitVec 13) (g : BitVec 4) : Statement (.stB c a sp imm g) := by
  intro _ hw
  obtain ⟨f0, f1, f2, f3, f4, f5⟩ := layout_6_6_6_1_9_4 (w := Instr.encode (.stB c a sp imm g)) _ _ _ _ _ _ rfl
  refine (majorM_08 _ f0).trans ?_
  simp [decodeM08, f1, f2, f3, f4, f5, Instr.needsHeader, Instr.ext, immediate_back]

theorem stH (c : BitVec 6) (a : BitVec 6) (sp : BitVec 1) (imm : BitVec 13) (g : BitVec 4) : Statement (.stH c a sp imm g) := by
  intro _ hw
  obtain ⟨f0, f1, f2, f3, f4, f5⟩ := layout_6_6_6_1_9_4 (w := Instr.encode (.stH c a sp imm g)) _ _ _ _ _ _ rfl
  refine (majorM_09 _ f0).trans ?_
  simp [decodeM09, f1, f2, f3, f4, f5, Instr.needsHeader, Instr.ext, immediate_back]

theorem stW (c : BitVec 6) (a : BitVec 6) (sp : BitVec 1) (imm : BitVec 13) (g : BitVec 4) : Statement (.stW c a sp imm g) := by
  intro _ hw
  obtain ⟨f0, f1, f2, f3, f4, f5⟩ := layout_6_6_6_1_9_4 (w := Instr.encode (.stW c a sp imm g)) _ _ _ _ _ _ rfl
  refine (majorM_0A _ f0).trans ?_
  simp [decodeM0A, f1, f2, f3, f4, f5, Instr.needsHeader, Instr.ext, immediate_back]

theorem stD (c : BitVec 6) (a : BitVec 6) (sp : BitVec 1) (imm : BitVec 13) (g : BitVec 4) : Statement (.stD c a sp imm g) := by
  intro _ hw
  obtain ⟨f0, f1, f2, f3, f4, f5⟩ := layout_6_6_6_1_9_4 (w := Instr.encode (.stD c a sp imm g)) _ _ _ _ _ _ rfl
  refine (majorM_0B _ f0).trans ?_
  simp [decodeM0B, f1, f2, f3, f4, f5, Instr.needsHeader, Instr.ext, immediate_back]

theorem loadComplete (core : Nat) (id : Nat) : Statement (.loadComplete core id) := fun h => nomatch h

theorem vmov (vd : BitVec 5) (va : BitVec 5) (vm : BitVec 5) (mz : BitVec 1) (g : BitVec 4) : Statement (.vmov vd va vm mz g) := by
  intro _ hw
  obtain ⟨f0, f1, f2, f3, f4, f5, f6, f7⟩ := layout_6_5_5_5_5_1_1_4 (w := Instr.encode (.vmov vd va vm mz g)) _ _ _ _ _ _ _ _ rfl
  refine (majorV_01 f0).trans ?_
  simp [decodeV01, f1, f2, f3, f4, f5, f6, f7, checked, hw]

theorem vsplat (vd : BitVec 5) (sb : BitVec 6) (vm : BitVec 5) (mz : BitVec 1) (g : BitVec 4) : Statement (.vsplat vd sb vm mz g) := by
  intro _ hw
  obtain ⟨f0, f1, f2, f3, f4, f5, f6⟩ := layout_6_5_5_6_5_1_4 (w := Instr.encode (.vsplat vd sb vm mz g)) _ _ _ _ _ _ _ rfl
  refine (majorV_02 f0).trans ?_
  simp [decodeV02, f1, f2, f3, f4, f5, f6, checked, hw]

theorem viota (vd : BitVec 5) (vm : BitVec 5) (mz : BitVec 1) (g : BitVec 4) : Statement (.viota vd vm mz g) := by
  intro _ hw
  obtain ⟨f0, f1, f2, f3, f4, f5, f6, f7⟩ := layout_6_5_5_5_5_1_1_4 (w := Instr.encode (.viota vd vm mz g)) _ _ _ _ _ _ _ _ rfl
  refine (majorV_03 f0).trans ?_
  simp [decodeV03, f1, f2, f3, f4, f5, f6, f7, checked, hw]

theorem vextr (sd : BitVec 6) (va : BitVec 5) (sb : BitVec 6) (g : BitVec 4) : Statement (.vextr sd va sb g) := by
  intro _ hw
  obtain ⟨f0, f1, f2, f3, f4, f5⟩ := layout_6_6_5_6_5_4 (w := Instr.encode (.vextr sd va sb g)) _ _ _ _ _ _ rfl
  refine (majorV_2A f0).trans ?_
  simp [decodeV2A, f1, f2, f3, f4, f5]

theorem vins (vd : BitVec 5) (sb : BitVec 6) (sc : BitVec 6) (g : BitVec 4) : Statement (.vins vd sb sc g) := by
  intro _ hw
  obtain ⟨f0, f1, f2, f3, f4, f5⟩ := layout_6_5_6_6_5_4 (w := Instr.encode (.vins vd sb sc g)) _ _ _ _ _ _ rfl
  refine (majorV_2B f0).trans ?_
  simp [decodeV2B, f1, f2, f3, f4, f5]

theorem vadd (vd : BitVec 5) (va : BitVec 5) (vb : BitVec 5) (vm : BitVec 5) (mz : BitVec 1) (g : BitVec 4) : Statement (.vadd vd va vb vm mz g) := by
  intro _ hw
  obtain ⟨f0, f1, f2, f3, f4, f5, f6, f7⟩ := layout_6_5_5_5_5_1_1_4 (w := Instr.encode (.vadd vd va vb vm mz g)) _ _ _ _ _ _ _ _ rfl
  refine (majorV_04 f0).trans ?_
  simp [decodeV04, f1, f2, f3, f4, f5, f6, f7, checked, hw]

theorem vsub (vd : BitVec 5) (va : BitVec 5) (vb : BitVec 5) (vm : BitVec 5) (mz : BitVec 1) (g : BitVec 4) : Statement (.vsub vd va vb vm mz g) := by
  intro _ hw
  obtain ⟨f0, f1, f2, f3, f4, f5, f6, f7⟩ := layout_6_5_5_5_5_1_1_4 (w := Instr.encode (.vsub vd va vb vm mz g)) _ _ _ _ _ _ _ _ rfl
  refine (majorV_05 f0).trans ?_
  simp [decodeV05, f1, f2, f3, f4, f5, f6, f7, checked, hw]

theorem vmul (vd : BitVec 5) (va : BitVec 5) (vb : BitVec 5) (vm : BitVec 5) (mz : BitVec 1) (g : BitVec 4) : Statement (.vmul vd va vb vm mz g) := by
  intro _ hw
  obtain ⟨f0, f1, f2, f3, f4, f5, f6, f7⟩ := layout_6_5_5_5_5_1_1_4 (w := Instr.encode (.vmul vd va vb vm mz g)) _ _ _ _ _ _ _ _ rfl
  refine (majorV_06 f0).trans ?_
  simp [decodeV06, f1, f2, f3, f4, f5, f6, f7, checked, hw]

theorem vfma (vd : BitVec 5) (va : BitVec 5) (vb : BitVec 5) (vc : BitVec 5) (g : BitVec 4) : Statement (.vfma vd va vb vc g) := by
  intro _ hw
  obtain ⟨f0, f1, f2, f3, f4, f5, f6, f7⟩ := layout_6_5_5_5_5_1_1_4 (w := Instr.encode (.vfma vd va vb vc g)) _ _ _ _ _ _ _ _ rfl
  refine (majorV_07 f0).trans ?_
  simp [decodeV07, f1, f2, f3, f4, f5, f6, f7]

theorem vfms (vd : BitVec 5) (va : BitVec 5) (vb : BitVec 5) (vc : BitVec 5) (g : BitVec 4) : Statement (.vfms vd va vb vc g) := by
  intro _ hw
  obtain ⟨f0, f1, f2, f3, f4, f5, f6, f7⟩ := layout_6_5_5_5_5_1_1_4 (w := Instr.encode (.vfms vd va vb vc g)) _ _ _ _ _ _ _ _ rfl
  refine (majorV_08 f0).trans ?_
  simp [decodeV08, f1, f2, f3, f4, f5, f6, f7]

theorem vmin (vd : BitVec 5) (va : BitVec 5) (vb : BitVec 5) (vm : BitVec 5) (mz : BitVec 1) (g : BitVec 4) : Statement (.vmin vd va vb vm mz g) := by
  intro _ hw
  obtain ⟨f0, f1, f2, f3, f4, f5, f6, f7⟩ := layout_6_5_5_5_5_1_1_4 (w := Instr.encode (.vmin vd va vb vm mz g)) _ _ _ _ _ _ _ _ rfl
  refine (majorV_09 f0).trans ?_
  simp [decodeV09, f1, f2, f3, f4, f5, f6, f7, checked, hw]

theorem vmax (vd : BitVec 5) (va : BitVec 5) (vb : BitVec 5) (vm : BitVec 5) (mz : BitVec 1) (g : BitVec 4) : Statement (.vmax vd va vb vm mz g) := by
  intro _ hw
  obtain ⟨f0, f1, f2, f3, f4, f5, f6, f7⟩ := layout_6_5_5_5_5_1_1_4 (w := Instr.encode (.vmax vd va vb vm mz g)) _ _ _ _ _ _ _ _ rfl
  refine (majorV_0A f0).trans ?_
  simp [decodeV0A, f1, f2, f3, f4, f5, f6, f7, checked, hw]

theorem vdiv (vd : BitVec 5) (va : BitVec 5) (vb : BitVec 5) (vm : BitVec 5) (mz : BitVec 1) (g : BitVec 4) : Statement (.vdiv vd va vb vm mz g) := by
  intro _ hw
  obtain ⟨f0, f1, f2, f3, f4, f5, f6, f7⟩ := layout_6_5_5_5_5_1_1_4 (w := Instr.encode (.vdiv vd va vb vm mz g)) _ _ _ _ _ _ _ _ rfl
  refine (majorV_0B f0).trans ?_
  simp [decodeV0B, f1, f2, f3, f4, f5, f6, f7, checked, hw]

theorem vaddBcast (vd : BitVec 5) (va : BitVec 5) (sb : BitVec 6) (vm : BitVec 5) (mz : BitVec 1) (g : BitVec 4) : Statement (.vaddBcast vd va sb vm mz g) := by
  intro _ hw
  obtain ⟨f0, f1, f2, f3, f4, f5, f6⟩ := layout_6_5_5_6_5_1_4 (w := Instr.encode (.vaddBcast vd va sb vm mz g)) _ _ _ _ _ _ _ rfl
  refine (majorV_30 f0).trans ?_
  simp [decodeV30, f1, f2, f3, f4, f5, f6, checked, hw]

theorem vsubBcast (vd : BitVec 5) (va : BitVec 5) (sb : BitVec 6) (vm : BitVec 5) (mz : BitVec 1) (g : BitVec 4) : Statement (.vsubBcast vd va sb vm mz g) := by
  intro _ hw
  obtain ⟨f0, f1, f2, f3, f4, f5, f6⟩ := layout_6_5_5_6_5_1_4 (w := Instr.encode (.vsubBcast vd va sb vm mz g)) _ _ _ _ _ _ _ rfl
  refine (majorV_31 f0).trans ?_
  simp [decodeV31, f1, f2, f3, f4, f5, f6, checked, hw]

theorem vmulBcast (vd : BitVec 5) (va : BitVec 5) (sb : BitVec 6) (vm : BitVec 5) (mz : BitVec 1) (g : BitVec 4) : Statement (.vmulBcast vd va sb vm mz g) := by
  intro _ hw
  obtain ⟨f0, f1, f2, f3, f4, f5, f6⟩ := layout_6_5_5_6_5_1_4 (w := Instr.encode (.vmulBcast vd va sb vm mz g)) _ _ _ _ _ _ _ rfl
  refine (majorV_32 f0).trans ?_
  simp [decodeV32, f1, f2, f3, f4, f5, f6, checked, hw]

theorem vminBcast (vd : BitVec 5) (va : BitVec 5) (sb : BitVec 6) (vm : BitVec 5) (mz : BitVec 1) (g : BitVec 4) : Statement (.vminBcast vd va sb vm mz g) := by
  intro _ hw
  obtain ⟨f0, f1, f2, f3, f4, f5, f6⟩ := layout_6_5_5_6_5_1_4 (w := Instr.encode (.vminBcast vd va sb vm mz g)) _ _ _ _ _ _ _ rfl
  refine (majorV_33 f0).trans ?_
  simp [decodeV33, f1, f2, f3, f4, f5, f6, checked, hw]

theorem vmaxBcast (vd : BitVec 5) (va : BitVec 5) (sb : BitVec 6) (vm : BitVec 5) (mz : BitVec 1) (g : BitVec 4) : Statement (.vmaxBcast vd va sb vm mz g) := by
  intro _ hw
  obtain ⟨f0, f1, f2, f3, f4, f5, f6⟩ := layout_6_5_5_6_5_1_4 (w := Instr.encode (.vmaxBcast vd va sb vm mz g)) _ _ _ _ _ _ _ rfl
  refine (majorV_34 f0).trans ?_
  simp [decodeV34, f1, f2, f3, f4, f5, f6, checked, hw]

theorem vdivBcast (vd : BitVec 5) (va : BitVec 5) (sb : BitVec 6) (vm : BitVec 5) (mz : BitVec 1) (g : BitVec 4) : Statement (.vdivBcast vd va sb vm mz g) := by
  intro _ hw
  obtain ⟨f0, f1, f2, f3, f4, f5, f6⟩ := layout_6_5_5_6_5_1_4 (w := Instr.encode (.vdivBcast vd va sb vm mz g)) _ _ _ _ _ _ _ rfl
  refine (majorV_35 f0).trans ?_
  simp [decodeV35, f1, f2, f3, f4, f5, f6, checked, hw]

theorem viaddBcast (vd : BitVec 5) (va : BitVec 5) (sb : BitVec 6) (vm : BitVec 5) (mz : BitVec 1) (g : BitVec 4) : Statement (.viaddBcast vd va sb vm mz g) := by
  intro _ hw
  obtain ⟨f0, f1, f2, f3, f4, f5, f6⟩ := layout_6_5_5_6_5_1_4 (w := Instr.encode (.viaddBcast vd va sb vm mz g)) _ _ _ _ _ _ _ rfl
  refine (majorV_36 f0).trans ?_
  simp [decodeV36, f1, f2, f3, f4, f5, f6, checked, hw]

theorem visubBcast (vd : BitVec 5) (va : BitVec 5) (sb : BitVec 6) (vm : BitVec 5) (mz : BitVec 1) (g : BitVec 4) : Statement (.visubBcast vd va sb vm mz g) := by
  intro _ hw
  obtain ⟨f0, f1, f2, f3, f4, f5, f6⟩ := layout_6_5_5_6_5_1_4 (w := Instr.encode (.visubBcast vd va sb vm mz g)) _ _ _ _ _ _ _ rfl
  refine (majorV_37 f0).trans ?_
  simp [decodeV37, f1, f2, f3, f4, f5, f6, checked, hw]

theorem vimulBcast (vd : BitVec 5) (va : BitVec 5) (sb : BitVec 6) (vm : BitVec 5) (mz : BitVec 1) (g : BitVec 4) : Statement (.vimulBcast vd va sb vm mz g) := by
  intro _ hw
  obtain ⟨f0, f1, f2, f3, f4, f5, f6⟩ := layout_6_5_5_6_5_1_4 (w := Instr.encode (.vimulBcast vd va sb vm mz g)) _ _ _ _ _ _ _ rfl
  refine (majorV_38 f0).trans ?_
  simp [decodeV38, f1, f2, f3, f4, f5, f6, checked, hw]

theorem vandBcast (vd : BitVec 5) (va : BitVec 5) (sb : BitVec 6) (vm : BitVec 5) (mz : BitVec 1) (g : BitVec 4) : Statement (.vandBcast vd va sb vm mz g) := by
  intro _ hw
  obtain ⟨f0, f1, f2, f3, f4, f5, f6⟩ := layout_6_5_5_6_5_1_4 (w := Instr.encode (.vandBcast vd va sb vm mz g)) _ _ _ _ _ _ _ rfl
  refine (majorV_39 f0).trans ?_
  simp [decodeV39, f1, f2, f3, f4, f5, f6, checked, hw]

theorem vorBcast (vd : BitVec 5) (va : BitVec 5) (sb : BitVec 6) (vm : BitVec 5) (mz : BitVec 1) (g : BitVec 4) : Statement (.vorBcast vd va sb vm mz g) := by
  intro _ hw
  obtain ⟨f0, f1, f2, f3, f4, f5, f6⟩ := layout_6_5_5_6_5_1_4 (w := Instr.encode (.vorBcast vd va sb vm mz g)) _ _ _ _ _ _ _ rfl
  refine (majorV_3A f0).trans ?_
  simp [decodeV3A, f1, f2, f3, f4, f5, f6, checked, hw]

theorem vxorBcast (vd : BitVec 5) (va : BitVec 5) (sb : BitVec 6) (vm : BitVec 5) (mz : BitVec 1) (g : BitVec 4) : Statement (.vxorBcast vd va sb vm mz g) := by
  intro _ hw
  obtain ⟨f0, f1, f2, f3, f4, f5, f6⟩ := layout_6_5_5_6_5_1_4 (w := Instr.encode (.vxorBcast vd va sb vm mz g)) _ _ _ _ _ _ _ rfl
  refine (majorV_3B f0).trans ?_
  simp [decodeV3B, f1, f2, f3, f4, f5, f6, checked, hw]

theorem vshlBcast (vd : BitVec 5) (va : BitVec 5) (sb : BitVec 6) (vm : BitVec 5) (mz : BitVec 1) (g : BitVec 4) : Statement (.vshlBcast vd va sb vm mz g) := by
  intro _ hw
  obtain ⟨f0, f1, f2, f3, f4, f5, f6⟩ := layout_6_5_5_6_5_1_4 (w := Instr.encode (.vshlBcast vd va sb vm mz g)) _ _ _ _ _ _ _ rfl
  refine (majorV_3C f0).trans ?_
  simp [decodeV3C, f1, f2, f3, f4, f5, f6, checked, hw]

theorem vshrBcast (vd : BitVec 5) (va : BitVec 5) (sb : BitVec 6) (vm : BitVec 5) (mz : BitVec 1) (g : BitVec 4) : Statement (.vshrBcast vd va sb vm mz g) := by
  intro _ hw
  obtain ⟨f0, f1, f2, f3, f4, f5, f6⟩ := layout_6_5_5_6_5_1_4 (w := Instr.encode (.vshrBcast vd va sb vm mz g)) _ _ _ _ _ _ _ rfl
  refine (majorV_3D f0).trans ?_
  simp [decodeV3D, f1, f2, f3, f4, f5, f6, checked, hw]

theorem vabs (vd : BitVec 5) (va : BitVec 5) (vm : BitVec 5) (mz : BitVec 1) (g : BitVec 4) : Statement (.vabs vd va vm mz g) := by
  intro _ hw
  obtain ⟨f0, f1, f2, f3, f4, f5, f6, f7⟩ := layout_6_5_5_5_5_1_1_4 (w := Instr.encode (.vabs vd va vm mz g)) _ _ _ _ _ _ _ _ rfl
  refine (majorV_0C f0).trans ?_
  simp [decodeV0C, f1, f2, f3, f4, f5, f6, f7, checked, hw]

theorem vneg (vd : BitVec 5) (va : BitVec 5) (vm : BitVec 5) (mz : BitVec 1) (g : BitVec 4) : Statement (.vneg vd va vm mz g) := by
  intro _ hw
  obtain ⟨f0, f1, f2, f3, f4, f5, f6, f7⟩ := layout_6_5_5_5_5_1_1_4 (w := Instr.encode (.vneg vd va vm mz g)) _ _ _ _ _ _ _ _ rfl
  refine (majorV_0D f0).trans ?_
  simp [decodeV0D, f1, f2, f3, f4, f5, f6, f7, checked, hw]

theorem vrcp (vd : BitVec 5) (va : BitVec 5) (vm : BitVec 5) (mz : BitVec 1) (g : BitVec 4) : Statement (.vrcp vd va vm mz g) := by
  intro _ hw
  obtain ⟨f0, f1, f2, f3, f4, f5, f6, f7⟩ := layout_6_5_5_5_5_1_1_4 (w := Instr.encode (.vrcp vd va vm mz g)) _ _ _ _ _ _ _ _ rfl
  refine (majorV_0E f0).trans ?_
  simp [decodeV0E, f1, f2, f3, f4, f5, f6, f7, checked, hw]

theorem vrsq (vd : BitVec 5) (va : BitVec 5) (vm : BitVec 5) (mz : BitVec 1) (g : BitVec 4) : Statement (.vrsq vd va vm mz g) := by
  intro _ hw
  obtain ⟨f0, f1, f2, f3, f4, f5, f6, f7⟩ := layout_6_5_5_5_5_1_1_4 (w := Instr.encode (.vrsq vd va vm mz g)) _ _ _ _ _ _ _ _ rfl
  refine (majorV_0F f0).trans ?_
  simp [decodeV0F, f1, f2, f3, f4, f5, f6, f7, checked, hw]

theorem vsqrt (vd : BitVec 5) (va : BitVec 5) (vm : BitVec 5) (mz : BitVec 1) (g : BitVec 4) : Statement (.vsqrt vd va vm mz g) := by
  intro _ hw
  obtain ⟨f0, f1, f2, f3, f4, f5, f6, f7⟩ := layout_6_5_5_5_5_1_1_4 (w := Instr.encode (.vsqrt vd va vm mz g)) _ _ _ _ _ _ _ _ rfl
  refine (majorV_10 f0).trans ?_
  simp [decodeV10, f1, f2, f3, f4, f5, f6, f7, checked, hw]

theorem vexp2 (vd : BitVec 5) (va : BitVec 5) (vm : BitVec 5) (mz : BitVec 1) (g : BitVec 4) : Statement (.vexp2 vd va vm mz g) := by
  intro _ hw
  obtain ⟨f0, f1, f2, f3, f4, f5, f6, f7⟩ := layout_6_5_5_5_5_1_1_4 (w := Instr.encode (.vexp2 vd va vm mz g)) _ _ _ _ _ _ _ _ rfl
  refine (majorV_11 f0).trans ?_
  simp [decodeV11, f1, f2, f3, f4, f5, f6, f7, checked, hw]

theorem vlog2 (vd : BitVec 5) (va : BitVec 5) (vm : BitVec 5) (mz : BitVec 1) (g : BitVec 4) : Statement (.vlog2 vd va vm mz g) := by
  intro _ hw
  obtain ⟨f0, f1, f2, f3, f4, f5, f6, f7⟩ := layout_6_5_5_5_5_1_1_4 (w := Instr.encode (.vlog2 vd va vm mz g)) _ _ _ _ _ _ _ _ rfl
  refine (majorV_12 f0).trans ?_
  simp [decodeV12, f1, f2, f3, f4, f5, f6, f7, checked, hw]

theorem viadd (vd : BitVec 5) (va : BitVec 5) (vb : BitVec 5) (vm : BitVec 5) (mz : BitVec 1) (g : BitVec 4) : Statement (.viadd vd va vb vm mz g) := by
  intro _ hw
  obtain ⟨f0, f1, f2, f3, f4, f5, f6, f7⟩ := layout_6_5_5_5_5_1_1_4 (w := Instr.encode (.viadd vd va vb vm mz g)) _ _ _ _ _ _ _ _ rfl
  refine (majorV_13 f0).trans ?_
  simp [decodeV13, f1, f2, f3, f4, f5, f6, f7, checked, hw]

theorem visub (vd : BitVec 5) (va : BitVec 5) (vb : BitVec 5) (vm : BitVec 5) (mz : BitVec 1) (g : BitVec 4) : Statement (.visub vd va vb vm mz g) := by
  intro _ hw
  obtain ⟨f0, f1, f2, f3, f4, f5, f6, f7⟩ := layout_6_5_5_5_5_1_1_4 (w := Instr.encode (.visub vd va vb vm mz g)) _ _ _ _ _ _ _ _ rfl
  refine (majorV_14 f0).trans ?_
  simp [decodeV14, f1, f2, f3, f4, f5, f6, f7, checked, hw]

theorem vimul (vd : BitVec 5) (va : BitVec 5) (vb : BitVec 5) (vm : BitVec 5) (mz : BitVec 1) (g : BitVec 4) : Statement (.vimul vd va vb vm mz g) := by
  intro _ hw
  obtain ⟨f0, f1, f2, f3, f4, f5, f6, f7⟩ := layout_6_5_5_5_5_1_1_4 (w := Instr.encode (.vimul vd va vb vm mz g)) _ _ _ _ _ _ _ _ rfl
  refine (majorV_15 f0).trans ?_
  simp [decodeV15, f1, f2, f3, f4, f5, f6, f7, checked, hw]

theorem vand (vd : BitVec 5) (va : BitVec 5) (vb : BitVec 5) (vm : BitVec 5) (mz : BitVec 1) (g : BitVec 4) : Statement (.vand vd va vb vm mz g) := by
  intro _ hw
  obtain ⟨f0, f1, f2, f3, f4, f5, f6, f7⟩ := layout_6_5_5_5_5_1_1_4 (w := Instr.encode (.vand vd va vb vm mz g)) _ _ _ _ _ _ _ _ rfl
  refine (majorV_16 f0).trans ?_
  simp [decodeV16, f1, f2, f3, f4, f5, f6, f7, checked, hw]

theorem vor (vd : BitVec 5) (va : BitVec 5) (vb : BitVec 5) (vm : BitVec 5) (mz : BitVec 1) (g : BitVec 4) : Statement (.vor vd va vb vm mz g) := by
  intro _ hw
  obtain ⟨f0, f1, f2, f3, f4, f5, f6, f7⟩ := layout_6_5_5_5_5_1_1_4 (w := Instr.encode (.vor vd va vb vm mz g)) _ _ _ _ _ _ _ _ rfl
  refine (majorV_17 f0).trans ?_
  simp [decodeV17, f1, f2, f3, f4, f5, f6, f7, checked, hw]

theorem vxor (vd : BitVec 5) (va : BitVec 5) (vb : BitVec 5) (vm : BitVec 5) (mz : BitVec 1) (g : BitVec 4) : Statement (.vxor vd va vb vm mz g) := by
  intro _ hw
  obtain ⟨f0, f1, f2, f3, f4, f5, f6, f7⟩ := layout_6_5_5_5_5_1_1_4 (w := Instr.encode (.vxor vd va vb vm mz g)) _ _ _ _ _ _ _ _ rfl
  refine (majorV_18 f0).trans ?_
  simp [decodeV18, f1, f2, f3, f4, f5, f6, f7, checked, hw]

theorem vshl (vd : BitVec 5) (va : BitVec 5) (vb : BitVec 5) (vm : BitVec 5) (mz : BitVec 1) (g : BitVec 4) : Statement (.vshl vd va vb vm mz g) := by
  intro _ hw
  obtain ⟨f0, f1, f2, f3, f4, f5, f6, f7⟩ := layout_6_5_5_5_5_1_1_4 (w := Instr.encode (.vshl vd va vb vm mz g)) _ _ _ _ _ _ _ _ rfl
  refine (majorV_19 f0).trans ?_
  simp [decodeV19, f1, f2, f3, f4, f5, f6, f7, checked, hw]

theorem vshr (vd : BitVec 5) (va : BitVec 5) (vb : BitVec 5) (vm : BitVec 5) (mz : BitVec 1) (g : BitVec 4) : Statement (.vshr vd va vb vm mz g) := by
  intro _ hw
  obtain ⟨f0, f1, f2, f3, f4, f5, f6, f7⟩ := layout_6_5_5_5_5_1_1_4 (w := Instr.encode (.vshr vd va vb vm mz g)) _ _ _ _ _ _ _ _ rfl
  refine (majorV_1A f0).trans ?_
  simp [decodeV1A, f1, f2, f3, f4, f5, f6, f7, checked, hw]

theorem vcmpEq (vd : BitVec 5) (va : BitVec 5) (vb : BitVec 5) (g : BitVec 4) : Statement (.vcmpEq vd va vb g) := by
  intro _ hw
  obtain ⟨f0, f1, f2, f3, f4, f5, f6⟩ := layout_6_5_5_5_3_4_4 (w := Instr.encode (.vcmpEq vd va vb g)) _ _ _ _ _ _ _ rfl
  refine (majorV_1B f0).trans ?_
  simp [decodeV1B, f1, f2, f3, f4, f5, f6]

theorem vcmpNe (vd : BitVec 5) (va : BitVec 5) (vb : BitVec 5) (g : BitVec 4) : Statement (.vcmpNe vd va vb g) := by
  intro _ hw
  obtain ⟨f0, f1, f2, f3, f4, f5, f6⟩ := layout_6_5_5_5_3_4_4 (w := Instr.encode (.vcmpNe vd va vb g)) _ _ _ _ _ _ _ rfl
  refine (majorV_1B f0).trans ?_
  simp [decodeV1B, f1, f2, f3, f4, f5, f6]

theorem vcmpLt (vd : BitVec 5) (va : BitVec 5) (vb : BitVec 5) (g : BitVec 4) : Statement (.vcmpLt vd va vb g) := by
  intro _ hw
  obtain ⟨f0, f1, f2, f3, f4, f5, f6⟩ := layout_6_5_5_5_3_4_4 (w := Instr.encode (.vcmpLt vd va vb g)) _ _ _ _ _ _ _ rfl
  refine (majorV_1B f0).trans ?_
  simp [decodeV1B, f1, f2, f3, f4, f5, f6]

theorem vcmpLe (vd : BitVec 5) (va : BitVec 5) (vb : BitVec 5) (g : BitVec 4) : Statement (.vcmpLe vd va vb g) := by
  intro _ hw
  obtain ⟨f0, f1, f2, f3, f4, f5, f6⟩ := layout_6_5_5_5_3_4_4 (w := Instr.encode (.vcmpLe vd va vb g)) _ _ _ _ _ _ _ rfl
  refine (majorV_1B f0).trans ?_
  simp [decodeV1B, f1, f2, f3, f4, f5, f6]

theorem vcmpGt (vd : BitVec 5) (va : BitVec 5) (vb : BitVec 5) (g : BitVec 4) : Statement (.vcmpGt vd va vb g) := by
  intro _ hw
  obtain ⟨f0, f1, f2, f3, f4, f5, f6⟩ := layout_6_5_5_5_3_4_4 (w := Instr.encode (.vcmpGt vd va vb g)) _ _ _ _ _ _ _ rfl
  refine (majorV_1B f0).trans ?_
  simp [decodeV1B, f1, f2, f3, f4, f5, f6]

theorem vcmpGe (vd : BitVec 5) (va : BitVec 5) (vb : BitVec 5) (g : BitVec 4) : Statement (.vcmpGe vd va vb g) := by
  intro _ hw
  obtain ⟨f0, f1, f2, f3, f4, f5, f6⟩ := layout_6_5_5_5_3_4_4 (w := Instr.encode (.vcmpGe vd va vb g)) _ _ _ _ _ _ _ rfl
  refine (majorV_1B f0).trans ?_
  simp [decodeV1B, f1, f2, f3, f4, f5, f6]

theorem vcmpUn (vd : BitVec 5) (va : BitVec 5) (vb : BitVec 5) (g : BitVec 4) : Statement (.vcmpUn vd va vb g) := by
  intro _ hw
  obtain ⟨f0, f1, f2, f3, f4, f5, f6⟩ := layout_6_5_5_5_3_4_4 (w := Instr.encode (.vcmpUn vd va vb g)) _ _ _ _ _ _ _ rfl
  refine (majorV_1B f0).trans ?_
  simp [decodeV1B, f1, f2, f3, f4, f5, f6]

theorem vsel (vd : BitVec 5) (va : BitVec 5) (vb : BitVec 5) (vc : BitVec 5) (g : BitVec 4) : Statement (.vsel vd va vb vc g) := by
  intro _ hw
  obtain ⟨f0, f1, f2, f3, f4, f5, f6, f7⟩ := layout_6_5_5_5_5_1_1_4 (w := Instr.encode (.vsel vd va vb vc g)) _ _ _ _ _ _ _ _ rfl
  refine (majorV_1C f0).trans ?_
  simp [decodeV1C, f1, f2, f3, f4, f5, f6, f7]

theorem vcvtFi (vd : BitVec 5) (va : BitVec 5) (vm : BitVec 5) (mz : BitVec 1) (g : BitVec 4) : Statement (.vcvtFi vd va vm mz g) := by
  intro _ hw
  obtain ⟨f0, f1, f2, f3, f4, f5, f6, f7⟩ := layout_6_5_5_5_5_1_1_4 (w := Instr.encode (.vcvtFi vd va vm mz g)) _ _ _ _ _ _ _ _ rfl
  refine (majorV_1D f0).trans ?_
  simp [decodeV1D, f1, f2, f3, f4, f5, f6, f7, checked, hw]

theorem vcvtFit (vd : BitVec 5) (va : BitVec 5) (vm : BitVec 5) (mz : BitVec 1) (g : BitVec 4) : Statement (.vcvtFit vd va vm mz g) := by
  intro _ hw
  obtain ⟨f0, f1, f2, f3, f4, f5, f6, f7⟩ := layout_6_5_5_5_5_1_1_4 (w := Instr.encode (.vcvtFit vd va vm mz g)) _ _ _ _ _ _ _ _ rfl
  refine (majorV_1D f0).trans ?_
  simp [decodeV1D, f1, f2, f3, f4, f5, f6, f7, checked, hw]

theorem vcvtIf (vd : BitVec 5) (va : BitVec 5) (vm : BitVec 5) (mz : BitVec 1) (g : BitVec 4) : Statement (.vcvtIf vd va vm mz g) := by
  intro _ hw
  obtain ⟨f0, f1, f2, f3, f4, f5, f6, f7⟩ := layout_6_5_5_5_5_1_1_4 (w := Instr.encode (.vcvtIf vd va vm mz g)) _ _ _ _ _ _ _ _ rfl
  refine (majorV_1D f0).trans ?_
  simp [decodeV1D, f1, f2, f3, f4, f5, f6, f7, checked, hw]

theorem vcvtFb (vd : BitVec 5) (va : BitVec 5) (vm : BitVec 5) (mz : BitVec 1) (g : BitVec 4) : Statement (.vcvtFb vd va vm mz g) := by
  intro _ hw
  obtain ⟨f0, f1, f2, f3, f4, f5, f6, f7⟩ := layout_6_5_5_5_5_1_1_4 (w := Instr.encode (.vcvtFb vd va vm mz g)) _ _ _ _ _ _ _ _ rfl
  refine (majorV_1D f0).trans ?_
  simp [decodeV1D, f1, f2, f3, f4, f5, f6, f7, checked, hw]

theorem vcvtFt8 (vd : BitVec 5) (va : BitVec 5) (vm : BitVec 5) (mz : BitVec 1) (g : BitVec 4) : Statement (.vcvtFt8 vd va vm mz g) := by
  intro _ hw
  obtain ⟨f0, f1, f2, f3, f4, f5, f6, f7⟩ := layout_6_5_5_5_5_1_1_4 (w := Instr.encode (.vcvtFt8 vd va vm mz g)) _ _ _ _ _ _ _ _ rfl
  refine (majorV_1D f0).trans ?_
  simp [decodeV1D, f1, f2, f3, f4, f5, f6, f7, checked, hw]

theorem vcvtFt6 (vd : BitVec 5) (va : BitVec 5) (vm : BitVec 5) (mz : BitVec 1) (g : BitVec 4) : Statement (.vcvtFt6 vd va vm mz g) := by
  intro _ hw
  obtain ⟨f0, f1, f2, f3, f4, f5, f6, f7⟩ := layout_6_5_5_5_5_1_1_4 (w := Instr.encode (.vcvtFt6 vd va vm mz g)) _ _ _ _ _ _ _ _ rfl
  refine (majorV_1D f0).trans ?_
  simp [decodeV1D, f1, f2, f3, f4, f5, f6, f7, checked, hw]

theorem vredSum (vd : BitVec 5) (va : BitVec 5) (g : BitVec 4) : Statement (.vredSum vd va g) := by
  intro _ hw
  obtain ⟨f0, f1, f2, f3, f4, f5, f6, f7⟩ := layout_6_5_5_5_5_1_1_4 (w := Instr.encode (.vredSum vd va g)) _ _ _ _ _ _ _ _ rfl
  refine (majorV_1E f0).trans ?_
  simp [decodeV1E, f1, f2, f3, f4, f5, f6, f7]

theorem vredMax (vd : BitVec 5) (va : BitVec 5) (g : BitVec 4) : Statement (.vredMax vd va g) := by
  intro _ hw
  obtain ⟨f0, f1, f2, f3, f4, f5, f6, f7⟩ := layout_6_5_5_5_5_1_1_4 (w := Instr.encode (.vredMax vd va g)) _ _ _ _ _ _ _ _ rfl
  refine (majorV_1E f0).trans ?_
  simp [decodeV1E, f1, f2, f3, f4, f5, f6, f7]

theorem vredMin (vd : BitVec 5) (va : BitVec 5) (g : BitVec 4) : Statement (.vredMin vd va g) := by
  intro _ hw
  obtain ⟨f0, f1, f2, f3, f4, f5, f6, f7⟩ := layout_6_5_5_5_5_1_1_4 (w := Instr.encode (.vredMin vd va g)) _ _ _ _ _ _ _ _ rfl
  refine (majorV_1E f0).trans ?_
  simp [decodeV1E, f1, f2, f3, f4, f5, f6, f7]

theorem vrrowSum (vd : BitVec 5) (va : BitVec 5) (g : BitVec 4) : Statement (.vrrowSum vd va g) := by
  intro _ hw
  obtain ⟨f0, f1, f2, f3, f4, f5, f6, f7⟩ := layout_6_5_5_5_5_1_1_4 (w := Instr.encode (.vrrowSum vd va g)) _ _ _ _ _ _ _ _ rfl
  refine (majorV_1F f0).trans ?_
  simp [decodeV1F, f1, f2, f3, f4, f5, f6, f7]

theorem vrrowMax (vd : BitVec 5) (va : BitVec 5) (g : BitVec 4) : Statement (.vrrowMax vd va g) := by
  intro _ hw
  obtain ⟨f0, f1, f2, f3, f4, f5, f6, f7⟩ := layout_6_5_5_5_5_1_1_4 (w := Instr.encode (.vrrowMax vd va g)) _ _ _ _ _ _ _ _ rfl
  refine (majorV_1F f0).trans ?_
  simp [decodeV1F, f1, f2, f3, f4, f5, f6, f7]

theorem vrrowMin (vd : BitVec 5) (va : BitVec 5) (g : BitVec 4) : Statement (.vrrowMin vd va g) := by
  intro _ hw
  obtain ⟨f0, f1, f2, f3, f4, f5, f6, f7⟩ := layout_6_5_5_5_5_1_1_4 (w := Instr.encode (.vrrowMin vd va g)) _ _ _ _ _ _ _ _ rfl
  refine (majorV_1F f0).trans ?_
  simp [decodeV1F, f1, f2, f3, f4, f5, f6, f7]

theorem vscanSum (vd : BitVec 5) (va : BitVec 5) (g : BitVec 4) : Statement (.vscanSum vd va g) := by
  intro _ hw
  obtain ⟨f0, f1, f2, f3, f4, f5, f6, f7⟩ := layout_6_5_5_5_5_1_1_4 (w := Instr.encode (.vscanSum vd va g)) _ _ _ _ _ _ _ _ rfl
  refine (majorV_20 f0).trans ?_
  simp [decodeV20, f1, f2, f3, f4, f5, f6, f7]

theorem vscanMax (vd : BitVec 5) (va : BitVec 5) (g : BitVec 4) : Statement (.vscanMax vd va g) := by
  intro _ hw
  obtain ⟨f0, f1, f2, f3, f4, f5, f6, f7⟩ := layout_6_5_5_5_5_1_1_4 (w := Instr.encode (.vscanMax vd va g)) _ _ _ _ _ _ _ _ rfl
  refine (majorV_20 f0).trans ?_
  simp [decodeV20, f1, f2, f3, f4, f5, f6, f7]

theorem vscanMin (vd : BitVec 5) (va : BitVec 5) (g : BitVec 4) : Statement (.vscanMin vd va g) := by
  intro _ hw
  obtain ⟨f0, f1, f2, f3, f4, f5, f6, f7⟩ := layout_6_5_5_5_5_1_1_4 (w := Instr.encode (.vscanMin vd va g)) _ _ _ _ _ _ _ _ rfl
  refine (majorV_20 f0).trans ?_
  simp [decodeV20, f1, f2, f3, f4, f5, f6, f7]

theorem vcnt (sd : BitVec 6) (va : BitVec 5) (g : BitVec 4) : Statement (.vcnt sd va g) := by
  intro _ hw
  obtain ⟨f0, f1, f2, f3, f4, f5⟩ := layout_6_6_5_6_5_4 (w := Instr.encode (.vcnt sd va g)) _ _ _ _ _ _ rfl
  refine (majorV_21 f0).trans ?_
  simp [decodeV21, f1, f2, f3, f4, f5]

theorem vocc (sd : BitVec 6) (va : BitVec 5) (g : BitVec 4) : Statement (.vocc sd va g) := by
  intro _ hw
  obtain ⟨f0, f1, f2, f3, f4, f5⟩ := layout_6_6_5_6_5_4 (w := Instr.encode (.vocc sd va g)) _ _ _ _ _ _ rfl
  refine (majorV_23 f0).trans ?_
  simp [decodeV23, f1, f2, f3, f4, f5]

theorem vrcoal (vd : BitVec 5) (va : BitVec 5) (tol : BitVec 5) (g : BitVec 4) : Statement (.vrcoal vd va tol g) := by
  intro _ hw
  obtain ⟨f0, f1, f2, f3, f4, f5, f6, f7⟩ := layout_6_5_5_5_5_1_1_4 (w := Instr.encode (.vrcoal vd va tol g)) _ _ _ _ _ _ _ _ rfl
  refine (majorV_22 f0).trans ?_
  simp [decodeV22, f1, f2, f3, f4, f5, f6, f7]

theorem vreshape (vd : BitVec 5) (va : BitVec 5) (g : BitVec 4) : Statement (.vreshape vd va g) := by
  intro _ hw
  obtain ⟨f0, f1, f2, f3, f4, f5, f6, f7⟩ := layout_6_5_5_5_5_1_1_4 (w := Instr.encode (.vreshape vd va g)) _ _ _ _ _ _ _ _ rfl
  refine (majorV_24 f0).trans ?_
  simp [decodeV24, f1, f2, f3, f4, f5, f6, f7]

theorem vbrow (vd : BitVec 5) (va : BitVec 5) (g : BitVec 4) : Statement (.vbrow vd va g) := by
  intro _ hw
  obtain ⟨f0, f1, f2, f3, f4, f5, f6, f7⟩ := layout_6_5_5_5_5_1_1_4 (w := Instr.encode (.vbrow vd va g)) _ _ _ _ _ _ _ _ rfl
  refine (majorV_25 f0).trans ?_
  simp [decodeV25, f1, f2, f3, f4, f5, f6, f7]

theorem vbcol (vd : BitVec 5) (va : BitVec 5) (g : BitVec 4) : Statement (.vbcol vd va g) := by
  intro _ hw
  obtain ⟨f0, f1, f2, f3, f4, f5, f6, f7⟩ := layout_6_5_5_5_5_1_1_4 (w := Instr.encode (.vbcol vd va g)) _ _ _ _ _ _ _ _ rfl
  refine (majorV_26 f0).trans ?_
  simp [decodeV26, f1, f2, f3, f4, f5, f6, f7]

theorem vperm (vd : BitVec 5) (va : BitVec 5) (pat : BitVec 6) (g : BitVec 4) : Statement (.vperm vd va pat g) := by
  intro _ hw
  obtain ⟨f0, f1, f2, f3, f4, f5⟩ := layout_6_5_5_6_6_4 (w := Instr.encode (.vperm vd va pat g)) _ _ _ _ _ _ rfl
  refine (majorV_27 f0).trans ?_
  simp [decodeV27, f1, f2, f3, f4, f5]

theorem patld (va : BitVec 5) (pat : BitVec 6) (g : BitVec 4) : Statement (.patld va pat g) := by
  intro _ hw
  obtain ⟨f0, f1, f2, f3, f4, f5⟩ := layout_6_5_5_6_6_4 (w := Instr.encode (.patld va pat g)) _ _ _ _ _ _ rfl
  refine (majorV_28 f0).trans ?_
  simp [decodeV28, f1, f2, f3, f4, f5]

theorem patsw (g : BitVec 4) : Statement (.patsw g) := by
  intro _ hw
  obtain ⟨f0, f1, f2, f3, f4, f5, f6, f7⟩ := layout_6_5_5_5_5_1_1_4 (w := Instr.encode (.patsw g)) _ _ _ _ _ _ _ _ rfl
  refine (majorV_29 f0).trans ?_
  simp [decodeV29, f1, f2, f3, f4, f5, f6, f7]

theorem vattc (vd : BitVec 5) (va : BitVec 5) (vb : BitVec 5) (g : BitVec 4) : Statement (.vattc vd va vb g) := by
  intro _ hw
  obtain ⟨f0, f1, f2, f3, f4, f5, f6, f7⟩ := layout_6_5_5_5_5_1_1_4 (w := Instr.encode (.vattc vd va vb g)) _ _ _ _ _ _ _ _ rfl
  refine (majorV_2C f0).trans ?_
  simp [decodeV2C, f1, f2, f3, f4, f5, f6, f7]

theorem vld (v : BitVec 5) (a : BitVec 6) (sp : BitVec 1) (fsel : BitVec 4) (pb : BitVec 1) (g : BitVec 4) : Statement (.vld v a sp fsel pb g) := by
  intro _ hw
  obtain ⟨f0, f1, f2, f3, f4, f5, f6, f7⟩ := layout_6_5_6_1_4_1_5_4 (w := Instr.encode (.vld v a sp fsel pb g)) _ _ _ _ _ _ _ _ rfl
  refine (majorM_20 _ f0).trans ?_
  simp [decodeM20, f1, f2, f3, f4, f5, f6, f7, checked, hw]

theorem vlds (v : BitVec 5) (a : BitVec 6) (sp : BitVec 1) (fsel : BitVec 4) (pb : BitVec 1) (g : BitVec 4) : Statement (.vlds v a sp fsel pb g) := by
  intro _ hw
  obtain ⟨f0, f1, f2, f3, f4, f5, f6, f7⟩ := layout_6_5_6_1_4_1_5_4 (w := Instr.encode (.vlds v a sp fsel pb g)) _ _ _ _ _ _ _ _ rfl
  refine (majorM_21 _ f0).trans ?_
  simp [decodeM21, f1, f2, f3, f4, f5, f6, f7, checked, hw]

theorem vldRun (v : BitVec 5) (a : BitVec 6) (sp : BitVec 1) (pb : BitVec 1) (g : BitVec 4) : Statement (.vldRun v a sp pb g) := by
  intro _ hw
  obtain ⟨f0, f1, f2, f3, f4, f5, f6, f7⟩ := layout_6_5_6_1_4_1_5_4 (w := Instr.encode (.vldRun v a sp pb g)) _ _ _ _ _ _ _ _ rfl
  refine (majorM_22 _ f0).trans ?_
  simp [decodeM22, f1, f2, f3, f4, f5, f6, f7]

theorem vectorLoadComplete (core : Nat) (id : Nat) : Statement (.vectorLoadComplete core id) := fun h => nomatch h

theorem vst (v : BitVec 5) (a : BitVec 6) (sp : BitVec 1) (fsel : BitVec 4) (pb : BitVec 1) (g : BitVec 4) : Statement (.vst v a sp fsel pb g) := by
  intro _ hw
  obtain ⟨f0, f1, f2, f3, f4, f5, f6, f7⟩ := layout_6_5_6_1_4_1_5_4 (w := Instr.encode (.vst v a sp fsel pb g)) _ _ _ _ _ _ _ _ rfl
  refine (majorM_23 _ f0).trans ?_
  simp [decodeM23, f1, f2, f3, f4, f5, f6, f7, checked, hw]

theorem vstRun (v : BitVec 5) (a : BitVec 6) (sp : BitVec 1) (pb : BitVec 1) (g : BitVec 4) : Statement (.vstRun v a sp pb g) := by
  intro _ hw
  obtain ⟨f0, f1, f2, f3, f4, f5, f6, f7⟩ := layout_6_5_6_1_4_1_5_4 (w := Instr.encode (.vstRun v a sp pb g)) _ _ _ _ _ _ _ _ rfl
  refine (majorM_24 _ f0).trans ?_
  simp [decodeM24, f1, f2, f3, f4, f5, f6, f7]

theorem tagrd (d : BitVec 6) (a : BitVec 6) (sp : BitVec 1) (g : BitVec 4) : Statement (.tagrd d a sp g) := by
  intro _ hw
  obtain ⟨f0, f1, f2, f3, f4, f5, f6⟩ := layout_6_6_6_6_1_3_4 (w := Instr.encode (.tagrd d a sp g)) _ _ _ _ _ _ _ rfl
  refine (majorM_25 _ f0).trans ?_
  simp [decodeM25, f1, f2, f3, f4, f5, f6]

theorem tagwr (a : BitVec 6) (b : BitVec 6) (sp : BitVec 1) (g : BitVec 4) : Statement (.tagwr a b sp g) := by
  intro _ hw
  obtain ⟨f0, f1, f2, f3, f4, f5, f6⟩ := layout_6_6_6_6_1_3_4 (w := Instr.encode (.tagwr a b sp g)) _ _ _ _ _ _ _ rfl
  refine (majorM_26 _ f0).trans ?_
  simp [decodeM26, f1, f2, f3, f4, f5, f6]

theorem prefL1 (base : BitVec 6) (len : BitVec 6) : Statement (.prefL1 base len) := by
  intro _ hw
  obtain ⟨f0, f1, f2, f3, f4⟩ := layout_6_6_6_3_11 (w := Instr.encode (.prefL1 base len)) _ _ _ _ _ rfl
  refine (majorM_2C _ f0).trans ?_
  simp [decodeM2C, f1, f2, f3, f4]

theorem prefL2 (base : BitVec 6) (len : BitVec 6) : Statement (.prefL2 base len) := by
  intro _ hw
  obtain ⟨f0, f1, f2, f3, f4⟩ := layout_6_6_6_3_11 (w := Instr.encode (.prefL2 base len)) _ _ _ _ _ rfl
  refine (majorM_2C _ f0).trans ?_
  simp [decodeM2C, f1, f2, f3, f4]

theorem cflush (base : BitVec 6) (len : BitVec 6) : Statement (.cflush base len) := by
  intro _ hw
  obtain ⟨f0, f1, f2, f3, f4⟩ := layout_6_6_6_3_11 (w := Instr.encode (.cflush base len)) _ _ _ _ _ rfl
  refine (majorM_2C _ f0).trans ?_
  simp [decodeM2C, f1, f2, f3, f4]

theorem cinv (base : BitVec 6) (len : BitVec 6) : Statement (.cinv base len) := by
  intro _ hw
  obtain ⟨f0, f1, f2, f3, f4⟩ := layout_6_6_6_3_11 (w := Instr.encode (.cinv base len)) _ _ _ _ _ rfl
  refine (majorM_2C _ f0).trans ?_
  simp [decodeM2C, f1, f2, f3, f4]

theorem osclaim (os : BitVec 4) (g : BitVec 4) : Statement (.osclaim os g) := by
  intro _ hw
  obtain ⟨f0, f1, f2, f3, f4⟩ := layout_6_4_1_17_4 (w := Instr.encode (.osclaim os g)) _ _ _ _ _ rfl
  refine (majorM_30 _ f0).trans ?_
  simp [decodeM30, f1, f2, f3, f4]

theorem osclaimT (os : BitVec 4) (g : BitVec 4) : Statement (.osclaimT os g) := by
  intro _ hw
  obtain ⟨f0, f1, f2, f3, f4⟩ := layout_6_4_1_17_4 (w := Instr.encode (.osclaimT os g)) _ _ _ _ _ rfl
  refine (majorM_30 _ f0).trans ?_
  simp [decodeM30, f1, f2, f3, f4]

theorem osrel (os : BitVec 4) (g : BitVec 4) : Statement (.osrel os g) := by
  intro _ hw
  obtain ⟨f0, f1, f2, f3, f4⟩ := layout_6_4_1_17_4 (w := Instr.encode (.osrel os g)) _ _ _ _ _ rfl
  refine (majorM_31 _ f0).trans ?_
  simp [decodeM31, f1, f2, f3, f4]

theorem slotFree (core : Nat) (slot : Nat) : Statement (.slotFree core slot) := fun h => nomatch h

theorem mma (acc : BitVec 2) (sa : BitVec 4) (sb : BitVec 4) (bar : BitVec 4) (g : BitVec 4) : Statement (.mma acc sa sb bar g) := by
  intro _ hw
  obtain ⟨f0, f1, f2, f3, f4, f5, f6⟩ := layout_6_2_4_4_4_8_4 (w := Instr.encode (.mma acc sa sb bar g)) _ _ _ _ _ _ _ rfl
  refine (majorM_28 _ f0).trans ?_
  simp [decodeM28, f1, f2, f3, f4, f5, f6]

theorem mmaz (acc : BitVec 2) (sa : BitVec 4) (sb : BitVec 4) (bar : BitVec 4) (g : BitVec 4) : Statement (.mmaz acc sa sb bar g) := by
  intro _ hw
  obtain ⟨f0, f1, f2, f3, f4, f5, f6⟩ := layout_6_2_4_4_4_8_4 (w := Instr.encode (.mmaz acc sa sb bar g)) _ _ _ _ _ _ _ rfl
  refine (majorM_29 _ f0).trans ?_
  simp [decodeM29, f1, f2, f3, f4, f5, f6]

theorem mmaComplete (core : Nat) (id : Nat) (err : BitVec 4) : Statement (.mmaComplete core id err) := fun h => nomatch h

theorem accrd (v : BitVec 5) (acc : BitVec 2) (rg : BitVec 2) (cls : BitVec 1) (g : BitVec 4) : Statement (.accrd v acc rg cls g) := by
  intro _ hw
  obtain ⟨f0, f1, f2, f3, f4, f5, f6⟩ := layout_6_5_2_2_1_12_4 (w := Instr.encode (.accrd v acc rg cls g)) _ _ _ _ _ _ _ rfl
  refine (majorM_2A _ f0).trans ?_
  simp [decodeM2A, f1, f2, f3, f4, f5, f6]

theorem accwr (v : BitVec 5) (acc : BitVec 2) (rg : BitVec 2) (g : BitVec 4) : Statement (.accwr v acc rg g) := by
  intro _ hw
  obtain ⟨f0, f1, f2, f3, f4, f5, f6⟩ := layout_6_5_2_2_1_12_4 (w := Instr.encode (.accwr v acc rg g)) _ _ _ _ _ _ _ rfl
  refine (majorM_2B _ f0).trans ?_
  simp [decodeM2B, f1, f2, f3, f4, f5, f6]

theorem accz (acc : BitVec 2) (g : BitVec 4) : Statement (.accz acc g) := by
  intro _ hw
  obtain ⟨f0, f1, f2, f3, f4, f5, f6⟩ := layout_6_5_2_2_1_12_4 (w := Instr.encode (.accz acc g)) _ _ _ _ _ _ _ rfl
  refine (majorM_2D _ f0).trans ?_
  simp [decodeM2D, f1, f2, f3, f4, f5, f6]

theorem accst (acc : BitVec 2) (a : BitVec 6) (sp : BitVec 1) (g : BitVec 4) : Statement (.accst acc a sp g) := by
  intro _ hw
  obtain ⟨f0, f1, f2, f3, f4, f5⟩ := layout_6_2_6_1_13_4 (w := Instr.encode (.accst acc a sp g)) _ _ _ _ _ _ rfl
  refine (majorM_2E _ f0).trans ?_
  simp [decodeM2E, f1, f2, f3, f4, f5]

theorem efrw (a : BitVec 6) (g : BitVec 4) : Statement (.efrw a g) := by
  intro _ hw
  obtain ⟨f0, f1, f2, f3, f4⟩ := layout_6_5_6_11_4 (w := Instr.encode (.efrw a g)) _ _ _ _ _ rfl
  refine (majorM_32 _ f0).trans ?_
  simp [decodeM32, f1, f2, f3, f4]

theorem ctwr (v : BitVec 5) (a : BitVec 6) (g : BitVec 4) : Statement (.ctwr v a g) := by
  intro _ hw
  obtain ⟨f0, f1, f2, f3, f4⟩ := layout_6_5_6_11_4 (w := Instr.encode (.ctwr v a g)) _ _ _ _ _ rfl
  refine (majorM_33 _ f0).trans ?_
  simp [decodeM33, f1, f2, f3, f4]

theorem spswap (g : BitVec 4) : Statement (.spswap g) := by
  intro _ hw
  obtain ⟨f0, f1, f2⟩ := layout_6_22_4 (w := Instr.encode (.spswap g)) _ _ _ rfl
  refine (majorM_34 _ f0).trans ?_
  simp [decodeM34, f1, f2]

theorem cpy (a : BitVec 6) (b : BitVec 6) (ssp : BitVec 2) (dsp : BitVec 2) (g : BitVec 4) : Statement (.cpy a b ssp dsp g) := by
  intro _ hw
  obtain ⟨f0, f1, f2, f3, f4, f5, f6⟩ := layout_6_6_6_2_2_6_4 (w := Instr.encode (.cpy a b ssp dsp g)) _ _ _ _ _ _ _ rfl
  refine (majorC_01 f0).trans ?_
  simp [decodeC01, f1, f2, f3, f4, f5, f6, checked, hw]

theorem cpyMma (a : BitVec 6) (dslot : BitVec 4) (oslot : BitVec 4) (acc : BitVec 2) (side : BitVec 1) (z : BitVec 1) (ssp : BitVec 2) (g : BitVec 4) : Statement (.cpyMma a dslot oslot acc side z ssp g) := by
  intro _ hw
  obtain ⟨f0, f1, f2, f3, f4, f5, f6, f7, f8, f9⟩ := layout_6_6_4_4_2_1_1_2_2_4 (w := Instr.encode (.cpyMma a dslot oslot acc side z ssp g)) _ _ _ _ _ _ _ _ _ _ rfl
  refine (majorC_02 f0).trans ?_
  simp [decodeC02, f1, f2, f3, f4, f5, f6, f7, f8, f9, checked, hw]

theorem cpyg (a : BitVec 6) (b : BitVec 6) (c : BitVec 6) (los : BitVec 1) (g : BitVec 4) : Statement (.cpyg a b c los g) := by
  intro _ hw
  obtain ⟨f0, f1, f2, f3, f4, f5, f6⟩ := layout_6_6_6_6_1_3_4 (w := Instr.encode (.cpyg a b c los g)) _ _ _ _ _ _ _ rfl
  refine (majorC_03 f0).trans ?_
  simp [decodeC03, f1, f2, f3, f4, f5, f6]

theorem cpys (a : BitVec 6) (b : BitVec 6) (c : BitVec 6) (los : BitVec 1) (g : BitVec 4) : Statement (.cpys a b c los g) := by
  intro _ hw
  obtain ⟨f0, f1, f2, f3, f4, f5, f6⟩ := layout_6_6_6_6_1_3_4 (w := Instr.encode (.cpys a b c los g)) _ _ _ _ _ _ _ rfl
  refine (majorC_04 f0).trans ?_
  simp [decodeC04, f1, f2, f3, f4, f5, f6]

theorem cpyw (a : BitVec 6) (b : BitVec 6) (dos : BitVec 1) (g : BitVec 4) : Statement (.cpyw a b dos g) := by
  intro _ hw
  obtain ⟨f0, f1, f2, f3, f4, f5⟩ := layout_6_6_6_1_9_4 (w := Instr.encode (.cpyw a b dos g)) _ _ _ _ _ _ rfl
  refine (majorC_05 f0).trans ?_
  simp [decodeC05, f1, f2, f3, f4, f5]

theorem copyLand (core : Nat) (id : Nat) (count : Nat) : Statement (.copyLand core id count) := fun h => nomatch h

theorem followOnMma (core : Nat) (id : Nat) : Statement (.followOnMma core id) := fun h => nomatch h

theorem bte (a : BitVec 6) (b : BitVec 6) (c : BitVec 5) (tag : BitVec 8) : Statement (.bte a b c tag) := by
  intro _ hw
  obtain ⟨f0, f1, f2, f3, f4, f5⟩ := layout_6_6_6_5_1_8 (w := Instr.encode (.bte a b c tag)) _ _ _ _ _ _ rfl
  refine (majorC_06 f0).trans ?_
  simp [decodeC06, f1, f2, f3, f4, f5]

theorem bteTransferEnd (die : Nat) (id : Nat) : Statement (.bteTransferEnd die id) := fun h => nomatch h

theorem barInit (obj : BitVec 5) (a : BitVec 6) (b : BitVec 6) (g : BitVec 4) : Statement (.barInit obj a b g) := by
  intro _ hw
  obtain ⟨f0, f1, f2, f3, f4, f5, f6, f7⟩ := layout_6_5_6_6_1_1_3_4 (w := Instr.encode (.barInit obj a b g)) _ _ _ _ _ _ _ _ rfl
  refine (majorC_08 f0).trans ?_
  simp [decodeC08, f1, f2, f3, f4, f5, f6, f7, checked, hw]

theorem barLink (obj : BitVec 5) (a : BitVec 6) (g : BitVec 4) : Statement (.barLink obj a g) := by
  intro _ hw
  obtain ⟨f0, f1, f2, f3, f4, f5, f6, f7⟩ := layout_6_5_6_6_1_1_3_4 (w := Instr.encode (.barLink obj a g)) _ _ _ _ _ _ _ _ rfl
  refine (majorC_09 f0).trans ?_
  simp [decodeC09, f1, f2, f3, f4, f5, f6, f7, checked, hw]

theorem barExp (obj : BitVec 5) (a : BitVec 6) (g : BitVec 4) : Statement (.barExp obj a g) := by
  intro _ hw
  obtain ⟨f0, f1, f2, f3, f4, f5, f6, f7⟩ := layout_6_5_6_6_1_1_3_4 (w := Instr.encode (.barExp obj a g)) _ _ _ _ _ _ _ _ rfl
  refine (majorC_0A f0).trans ?_
  simp [decodeC0A, f1, f2, f3, f4, f5, f6, f7, checked, hw]

theorem barArr (obj : BitVec 5) (g : BitVec 4) : Statement (.barArr obj g) := by
  intro _ hw
  obtain ⟨f0, f1, f2, f3, f4, f5, f6, f7⟩ := layout_6_5_6_6_1_1_3_4 (w := Instr.encode (.barArr obj g)) _ _ _ _ _ _ _ _ rfl
  refine (majorC_0B f0).trans ?_
  simp [decodeC0B, f1, f2, f3, f4, f5, f6, f7, checked, hw]

theorem barWait (obj : BitVec 5) (a : BitVec 6) (tr : BitVec 1) (g : BitVec 4) : Statement (.barWait obj a tr g) := by
  intro _ hw
  obtain ⟨f0, f1, f2, f3, f4, f5, f6, f7⟩ := layout_6_5_6_6_1_1_3_4 (w := Instr.encode (.barWait obj a tr g)) _ _ _ _ _ _ _ _ rfl
  refine (majorC_0C f0).trans ?_
  simp [decodeC0C, f1, f2, f3, f4, f5, f6, f7, checked, hw]

theorem barWaitS (obj : BitVec 5) (a : BitVec 6) (tr : BitVec 1) (g : BitVec 4) : Statement (.barWaitS obj a tr g) := by
  intro _ hw
  obtain ⟨f0, f1, f2, f3, f4, f5, f6, f7⟩ := layout_6_5_6_6_1_1_3_4 (w := Instr.encode (.barWaitS obj a tr g)) _ _ _ _ _ _ _ _ rfl
  refine (majorC_0C f0).trans ?_
  simp [decodeC0C, f1, f2, f3, f4, f5, f6, f7, checked, hw]

theorem barTest (obj : BitVec 5) (a : BitVec 6) (d : BitVec 6) (g : BitVec 4) : Statement (.barTest obj a d g) := by
  intro _ hw
  obtain ⟨f0, f1, f2, f3, f4, f5, f6, f7⟩ := layout_6_5_6_6_1_1_3_4 (w := Instr.encode (.barTest obj a d g)) _ _ _ _ _ _ _ _ rfl
  refine (majorC_0D f0).trans ?_
  simp [decodeC0D, f1, f2, f3, f4, f5, f6, f7, checked, hw]

theorem barStat (obj : BitVec 5) (a : BitVec 6) (d : BitVec 6) (g : BitVec 4) : Statement (.barStat obj a d g) := by
  intro _ hw
  obtain ⟨f0, f1, f2, f3, f4, f5, f6, f7⟩ := layout_6_5_6_6_1_1_3_4 (w := Instr.encode (.barStat obj a d g)) _ _ _ _ _ _ _ _ rfl
  refine (majorC_0E f0).trans ?_
  simp [decodeC0E, f1, f2, f3, f4, f5, f6, f7, checked, hw]

theorem seqMma (a : BitVec 6) (b : BitVec 6) (c : BitVec 6) (g : BitVec 4) : Statement (.seqMma a b c g) := by
  intro _ hw
  obtain ⟨f0, f1, f2, f3, f4, f5⟩ := layout_6_6_6_6_4_4 (w := Instr.encode (.seqMma a b c g)) _ _ _ _ _ _ rfl
  refine (majorC_10 f0).trans ?_
  simp [decodeC10, f1, f2, f3, f4, f5]

theorem seqCpy (a : BitVec 6) (b : BitVec 6) (c : BitVec 6) (g : BitVec 4) : Statement (.seqCpy a b c g) := by
  intro _ hw
  obtain ⟨f0, f1, f2, f3, f4, f5⟩ := layout_6_6_6_6_4_4 (w := Instr.encode (.seqCpy a b c g)) _ _ _ _ _ _ rfl
  refine (majorC_11 f0).trans ?_
  simp [decodeC11, f1, f2, f3, f4, f5]

theorem seqStepIssue (core : Nat) (seat : Nat) : Statement (.seqStepIssue core seat) := fun h => nomatch h

theorem amoAdd (d : BitVec 6) (a : BitVec 6) (b : BitVec 6) (ord : BitVec 2) (scope : BitVec 3) (w : BitVec 1) : Statement (.amoAdd d a b ord scope w) := by
  intro _ hw
  obtain ⟨f0, f1, f2, f3, f4, f5, f6, f7⟩ := layout_6_6_6_6_2_3_1_2 (w := Instr.encode (.amoAdd d a b ord scope w)) _ _ _ _ _ _ _ _ rfl
  refine (majorM_10 _ f0).trans ?_
  simp [decodeM10, f1, f2, f3, f4, f5, f6, f7, checked, hw]

theorem amoAnd (d : BitVec 6) (a : BitVec 6) (b : BitVec 6) (ord : BitVec 2) (scope : BitVec 3) (w : BitVec 1) : Statement (.amoAnd d a b ord scope w) := by
  intro _ hw
  obtain ⟨f0, f1, f2, f3, f4, f5, f6, f7⟩ := layout_6_6_6_6_2_3_1_2 (w := Instr.encode (.amoAnd d a b ord scope w)) _ _ _ _ _ _ _ _ rfl
  refine (majorM_11 _ f0).trans ?_
  simp [decodeM11, f1, f2, f3, f4, f5, f6, f7, checked, hw]

theorem amoOr (d : BitVec 6) (a : BitVec 6) (b : BitVec 6) (ord : BitVec 2) (scope : BitVec 3) (w : BitVec 1) : Statement (.amoOr d a b ord scope w) := by
  intro _ hw
  obtain ⟨f0, f1, f2, f3, f4, f5, f6, f7⟩ := layout_6_6_6_6_2_3_1_2 (w := Instr.encode (.amoOr d a b ord scope w)) _ _ _ _ _ _ _ _ rfl
  refine (majorM_12 _ f0).trans ?_
  simp [decodeM12, f1, f2, f3, f4, f5, f6, f7, checked, hw]

theorem amoXor (d : BitVec 6) (a : BitVec 6) (b : BitVec 6) (ord : BitVec 2) (scope : BitVec 3) (w : BitVec 1) : Statement (.amoXor d a b ord scope w) := by
  intro _ hw
  obtain ⟨f0, f1, f2, f3, f4, f5, f6, f7⟩ := layout_6_6_6_6_2_3_1_2 (w := Instr.encode (.amoXor d a b ord scope w)) _ _ _ _ _ _ _ _ rfl
  refine (majorM_13 _ f0).trans ?_
  simp [decodeM13, f1, f2, f3, f4, f5, f6, f7, checked, hw]

theorem amoMinS (d : BitVec 6) (a : BitVec 6) (b : BitVec 6) (ord : BitVec 2) (scope : BitVec 3) (w : BitVec 1) : Statement (.amoMinS d a b ord scope w) := by
  intro _ hw
  obtain ⟨f0, f1, f2, f3, f4, f5, f6, f7⟩ := layout_6_6_6_6_2_3_1_2 (w := Instr.encode (.amoMinS d a b ord scope w)) _ _ _ _ _ _ _ _ rfl
  refine (majorM_14 _ f0).trans ?_
  simp [decodeM14, f1, f2, f3, f4, f5, f6, f7, checked, hw]

theorem amoMaxS (d : BitVec 6) (a : BitVec 6) (b : BitVec 6) (ord : BitVec 2) (scope : BitVec 3) (w : BitVec 1) : Statement (.amoMaxS d a b ord scope w) := by
  intro _ hw
  obtain ⟨f0, f1, f2, f3, f4, f5, f6, f7⟩ := layout_6_6_6_6_2_3_1_2 (w := Instr.encode (.amoMaxS d a b ord scope w)) _ _ _ _ _ _ _ _ rfl
  refine (majorM_15 _ f0).trans ?_
  simp [decodeM15, f1, f2, f3, f4, f5, f6, f7, checked, hw]

theorem amoXchg (d : BitVec 6) (a : BitVec 6) (b : BitVec 6) (ord : BitVec 2) (scope : BitVec 3) (w : BitVec 1) : Statement (.amoXchg d a b ord scope w) := by
  intro _ hw
  obtain ⟨f0, f1, f2, f3, f4, f5, f6, f7⟩ := layout_6_6_6_6_2_3_1_2 (w := Instr.encode (.amoXchg d a b ord scope w)) _ _ _ _ _ _ _ _ rfl
  refine (majorM_16 _ f0).trans ?_
  simp [decodeM16, f1, f2, f3, f4, f5, f6, f7, checked, hw]

theorem amoCas (d : BitVec 6) (a : BitVec 6) (b : BitVec 6) (ord : BitVec 2) (scope : BitVec 3) (w : BitVec 1) : Statement (.amoCas d a b ord scope w) := by
  intro _ hw
  obtain ⟨f0, f1, f2, f3, f4, f5, f6, f7⟩ := layout_6_6_6_6_2_3_1_2 (w := Instr.encode (.amoCas d a b ord scope w)) _ _ _ _ _ _ _ _ rfl
  refine (majorM_17 _ f0).trans ?_
  simp [decodeM17, f1, f2, f3, f4, f5, f6, f7, checked, hw]

theorem lda (d : BitVec 6) (a : BitVec 6) (scope : BitVec 3) (w : BitVec 1) : Statement (.lda d a scope w) := by
  intro _ hw
  obtain ⟨f0, f1, f2, f3, f4, f5, f6, f7⟩ := layout_6_6_6_6_2_3_1_2 (w := Instr.encode (.lda d a scope w)) _ _ _ _ _ _ _ _ rfl
  refine (majorM_18 _ f0).trans ?_
  simp [decodeM18, f1, f2, f3, f4, f5, f6, f7, checked, hw]

theorem stl (a : BitVec 6) (b : BitVec 6) (scope : BitVec 3) (w : BitVec 1) : Statement (.stl a b scope w) := by
  intro _ hw
  obtain ⟨f0, f1, f2, f3, f4, f5, f6, f7⟩ := layout_6_6_6_6_2_3_1_2 (w := Instr.encode (.stl a b scope w)) _ _ _ _ _ _ _ _ rfl
  refine (majorM_19 _ f0).trans ?_
  simp [decodeM19, f1, f2, f3, f4, f5, f6, f7, checked, hw]

theorem fence (scope : BitVec 3) (kind : BitVec 2) (g : BitVec 4) : Statement (.fence scope kind g) := by
  intro _ hw
  obtain ⟨f0, f1, f2, f3, f4⟩ := layout_6_3_2_17_4 (w := Instr.encode (.fence scope kind g)) _ _ _ _ _ rfl
  refine (majorM_1A _ f0).trans ?_
  simp [decodeM1A, f1, f2, f3, f4, checked, hw]

theorem xfence (p1 : BitVec 3) (p2 : BitVec 3) (scope : BitVec 3) (g : BitVec 4) : Statement (.xfence p1 p2 scope g) := by
  intro _ hw
  obtain ⟨f0, f1, f2, f3, f4, f5⟩ := layout_6_3_3_3_13_4 (w := Instr.encode (.xfence p1 p2 scope g)) _ _ _ _ _ _ rfl
  refine (majorM_1B _ f0).trans ?_
  simp [decodeM1B, f1, f2, f3, f4, f5, checked, hw]

theorem waitv (a : BitVec 6) (b : BitVec 6) (t : BitVec 6) (cond : BitVec 3) (w : BitVec 1) (scope : BitVec 3) : Statement (.waitv a b t cond w scope) := by
  intro _ hw
  obtain ⟨f0, f1, f2, f3, f4, f5, f6, f7⟩ := layout_6_6_6_6_3_1_1_3 (w := Instr.encode (.waitv a b t cond w scope)) _ _ _ _ _ _ _ _ rfl
  refine (majorM_1C _ f0).trans ?_
  simp [decodeM1C, f1, f2, f3, f4, f5, f6, f7, checked, hw]

theorem waitvS (a : BitVec 6) (b : BitVec 6) (t : BitVec 6) (cond : BitVec 3) (w : BitVec 1) (scope : BitVec 3) : Statement (.waitvS a b t cond w scope) := by
  intro _ hw
  obtain ⟨f0, f1, f2, f3, f4, f5, f6, f7⟩ := layout_6_6_6_6_3_1_1_3 (w := Instr.encode (.waitvS a b t cond w scope)) _ _ _ _ _ _ _ _ rfl
  refine (majorM_1C _ f0).trans ?_
  simp [decodeM1C, f1, f2, f3, f4, f5, f6, f7, checked, hw]

theorem waitTimeout (w : WaitRef) : Statement (.waitTimeout w) := fun h => nomatch h

theorem kvwalk (a : BitVec 6) (b : BitVec 6) (c : BitVec 6) (g : BitVec 4) : Statement (.kvwalk a b c g) := by
  intro _ hw
  obtain ⟨f0, f1, f2, f3, f4, f5⟩ := layout_6_6_6_6_4_4 (w := Instr.encode (.kvwalk a b c g)) _ _ _ _ _ _ rfl
  refine (majorC_14 f0).trans ?_
  simp [decodeC14, f1, f2, f3, f4, f5]

theorem kvapp (a : BitVec 6) (b : BitVec 6) (c : BitVec 6) (g : BitVec 4) : Statement (.kvapp a b c g) := by
  intro _ hw
  obtain ⟨f0, f1, f2, f3, f4, f5⟩ := layout_6_6_6_6_4_4 (w := Instr.encode (.kvapp a b c g)) _ _ _ _ _ _ rfl
  refine (majorC_15 f0).trans ?_
  simp [decodeC15, f1, f2, f3, f4, f5]

theorem kvcommit (c : BitVec 6) (g : BitVec 4) : Statement (.kvcommit c g) := by
  intro _ hw
  obtain ⟨f0, f1, f2, f3, f4, f5⟩ := layout_6_6_6_6_4_4 (w := Instr.encode (.kvcommit c g)) _ _ _ _ _ _ rfl
  refine (majorC_16 f0).trans ?_
  simp [decodeC16, f1, f2, f3, f4, f5]

theorem kvfork (a : BitVec 6) (g : BitVec 4) : Statement (.kvfork a g) := by
  intro _ hw
  obtain ⟨f0, f1, f2, f3, f4, f5⟩ := layout_6_6_6_6_4_4 (w := Instr.encode (.kvfork a g)) _ _ _ _ _ _ rfl
  refine (majorC_17 f0).trans ?_
  simp [decodeC17, f1, f2, f3, f4, f5]

theorem kvroll (a : BitVec 6) (g : BitVec 4) : Statement (.kvroll a g) := by
  intro _ hw
  obtain ⟨f0, f1, f2, f3, f4, f5⟩ := layout_6_6_6_6_4_4 (w := Instr.encode (.kvroll a g)) _ _ _ _ _ _ rfl
  refine (majorC_18 f0).trans ?_
  simp [decodeC18, f1, f2, f3, f4, f5]

theorem kvsplice (a : BitVec 6) (b : BitVec 6) (c : BitVec 6) (g : BitVec 4) : Statement (.kvsplice a b c g) := by
  intro _ hw
  obtain ⟨f0, f1, f2, f3, f4, f5⟩ := layout_6_6_6_6_4_4 (w := Instr.encode (.kvsplice a b c g)) _ _ _ _ _ _ rfl
  refine (majorC_19 f0).trans ?_
  simp [decodeC19, f1, f2, f3, f4, f5]

theorem kvprov (a : BitVec 6) (b : BitVec 6) (g : BitVec 4) : Statement (.kvprov a b g) := by
  intro _ hw
  obtain ⟨f0, f1, f2, f3, f4, f5⟩ := layout_6_6_6_6_4_4 (w := Instr.encode (.kvprov a b g)) _ _ _ _ _ _ rfl
  refine (majorC_1A f0).trans ?_
  simp [decodeC1A, f1, f2, f3, f4, f5]

theorem repairM (a : BitVec 6) (b : BitVec 6) (c : BitVec 6) (g : BitVec 4) : Statement (.repairM a b c g) := by
  intro _ hw
  obtain ⟨f0, f1, f2, f3, f4, f5⟩ := layout_6_6_6_6_4_4 (w := Instr.encode (.repairM a b c g)) _ _ _ _ _ _ rfl
  refine (majorC_1B f0).trans ?_
  simp [decodeC1B, f1, f2, f3, f4, f5]

theorem repairI (a : BitVec 6) (b : BitVec 6) (c : BitVec 6) (g : BitVec 4) : Statement (.repairI a b c g) := by
  intro _ hw
  obtain ⟨f0, f1, f2, f3, f4, f5⟩ := layout_6_6_6_6_4_4 (w := Instr.encode (.repairI a b c g)) _ _ _ _ _ _ rfl
  refine (majorC_1B f0).trans ?_
  simp [decodeC1B, f1, f2, f3, f4, f5]

theorem repstat (c : BitVec 6) (g : BitVec 4) : Statement (.repstat c g) := by
  intro _ hw
  obtain ⟨f0, f1, f2, f3, f4, f5⟩ := layout_6_6_6_6_4_4 (w := Instr.encode (.repstat c g)) _ _ _ _ _ _ rfl
  refine (majorC_1C f0).trans ?_
  simp [decodeC1C, f1, f2, f3, f4, f5]

theorem attq (a : BitVec 6) (b : BitVec 6) (c : BitVec 6) (g : BitVec 4) : Statement (.attq a b c g) := by
  intro _ hw
  obtain ⟨f0, f1, f2, f3, f4, f5⟩ := layout_6_6_6_6_4_4 (w := Instr.encode (.attq a b c g)) _ _ _ _ _ _ rfl
  refine (majorC_1D f0).trans ?_
  simp [decodeC1D, f1, f2, f3, f4, f5]

theorem attqRo (a : BitVec 6) (b : BitVec 6) (c : BitVec 6) (g : BitVec 4) : Statement (.attqRo a b c g) := by
  intro _ hw
  obtain ⟨f0, f1, f2, f3, f4, f5⟩ := layout_6_6_6_6_4_4 (w := Instr.encode (.attqRo a b c g)) _ _ _ _ _ _ rfl
  refine (majorC_1D f0).trans ?_
  simp [decodeC1D, f1, f2, f3, f4, f5]

theorem kvAccept (core : Nat) (seat : Nat) : Statement (.kvAccept core seat) := fun h => nomatch h

theorem kvComplete (core : Nat) (id : Nat) : Statement (.kvComplete core id) := fun h => nomatch h

theorem kvPoolWaitEnd (core : Nat) (seat : Nat) : Statement (.kvPoolWaitEnd core seat) := fun h => nomatch h

theorem collPut (a : BitVec 6) (b : BitVec 6) (c : BitVec 6) (g : BitVec 4) : Statement (.collPut a b c g) := by
  intro _ hw
  obtain ⟨f0, f1, f2, f3, f4, f5⟩ := layout_6_6_6_6_4_4 (w := Instr.encode (.collPut a b c g)) _ _ _ _ _ _ rfl
  refine (majorC_20 f0).trans ?_
  simp [decodeC20, f1, f2, f3, f4, f5]

theorem collGet (a : BitVec 6) (b : BitVec 6) (c : BitVec 6) (g : BitVec 4) : Statement (.collGet a b c g) := by
  intro _ hw
  obtain ⟨f0, f1, f2, f3, f4, f5⟩ := layout_6_6_6_6_4_4 (w := Instr.encode (.collGet a b c g)) _ _ _ _ _ _ rfl
  refine (majorC_20 f0).trans ?_
  simp [decodeC20, f1, f2, f3, f4, f5]

theorem collAdd (a : BitVec 6) (b : BitVec 6) (c : BitVec 6) (g : BitVec 4) : Statement (.collAdd a b c g) := by
  intro _ hw
  obtain ⟨f0, f1, f2, f3, f4, f5⟩ := layout_6_6_6_6_4_4 (w := Instr.encode (.collAdd a b c g)) _ _ _ _ _ _ rfl
  refine (majorC_20 f0).trans ?_
  simp [decodeC20, f1, f2, f3, f4, f5]

theorem collMax (a : BitVec 6) (b : BitVec 6) (c : BitVec 6) (g : BitVec 4) : Statement (.collMax a b c g) := by
  intro _ hw
  obtain ⟨f0, f1, f2, f3, f4, f5⟩ := layout_6_6_6_6_4_4 (w := Instr.encode (.collMax a b c g)) _ _ _ _ _ _ rfl
  refine (majorC_20 f0).trans ?_
  simp [decodeC20, f1, f2, f3, f4, f5]

theorem collMin (a : BitVec 6) (b : BitVec 6) (c : BitVec 6) (g : BitVec 4) : Statement (.collMin a b c g) := by
  intro _ hw
  obtain ⟨f0, f1, f2, f3, f4, f5⟩ := layout_6_6_6_6_4_4 (w := Instr.encode (.collMin a b c g)) _ _ _ _ _ _ rfl
  refine (majorC_20 f0).trans ?_
  simp [decodeC20, f1, f2, f3, f4, f5]

theorem collChunkReceive (ch : CollChunk) : Statement (.collChunkReceive ch) := fun h => nomatch h

theorem collAck (core : Nat) (id : Nat) (ok : Bool) : Statement (.collAck core id ok) := fun h => nomatch h

theorem collChunkTimeout (chunk : ChunkRef) (id : Nat) : Statement (.collChunkTimeout chunk id) := fun h => nomatch h

theorem collComplete (core : Nat) (id : Nat) : Statement (.collComplete core id) := fun h => nomatch h

theorem rsbegin (a : BitVec 6) (c : BitVec 6) (g : BitVec 4) : Statement (.rsbegin a c g) := by
  intro _ hw
  obtain ⟨f0, f1, f2, f3, f4, f5⟩ := layout_6_6_6_6_4_4 (w := Instr.encode (.rsbegin a c g)) _ _ _ _ _ _ rfl
  refine (majorC_24 f0).trans ?_
  simp [decodeC24, f1, f2, f3, f4, f5]

theorem rswrite (a : BitVec 6) (b : BitVec 6) (c : BitVec 6) (g : BitVec 4) : Statement (.rswrite a b c g) := by
  intro _ hw
  obtain ⟨f0, f1, f2, f3, f4, f5⟩ := layout_6_6_6_6_4_4 (w := Instr.encode (.rswrite a b c g)) _ _ _ _ _ _ rfl
  refine (majorC_25 f0).trans ?_
  simp [decodeC25, f1, f2, f3, f4, f5]

theorem rscommit (a : BitVec 6) (c : BitVec 6) (g : BitVec 4) : Statement (.rscommit a c g) := by
  intro _ hw
  obtain ⟨f0, f1, f2, f3, f4, f5⟩ := layout_6_6_6_6_4_4 (w := Instr.encode (.rscommit a c g)) _ _ _ _ _ _ rfl
  refine (majorC_26 f0).trans ?_
  simp [decodeC26, f1, f2, f3, f4, f5]

theorem rsabort (a : BitVec 6) (g : BitVec 4) : Statement (.rsabort a g) := by
  intro _ hw
  obtain ⟨f0, f1, f2, f3, f4, f5⟩ := layout_6_6_6_6_4_4 (w := Instr.encode (.rsabort a g)) _ _ _ _ _ _ rfl
  refine (majorC_27 f0).trans ?_
  simp [decodeC27, f1, f2, f3, f4, f5]

theorem rsstat (a : BitVec 6) (b : BitVec 6) (c : BitVec 6) (g : BitVec 4) : Statement (.rsstat a b c g) := by
  intro _ hw
  obtain ⟨f0, f1, f2, f3, f4, f5⟩ := layout_6_6_6_6_4_4 (w := Instr.encode (.rsstat a b c g)) _ _ _ _ _ _ rfl
  refine (majorC_28 f0).trans ?_
  simp [decodeC28, f1, f2, f3, f4, f5]

theorem journalWriteAttempt (handle : Nat) (ok : Bool) : Statement (.journalWriteAttempt handle ok) := fun h => nomatch h

theorem commitRecord (handle : Nat) : Statement (.commitRecord handle) := fun h => nomatch h

theorem resoleApply (handle : Nat) (ok : Bool) : Statement (.resoleApply handle ok) := fun h => nomatch h

theorem trapEntry (core : Nat) (seat : Nat) : Statement (.trapEntry core seat) := fun h => nomatch h

theorem watchdog (core : Nat) (seat : Nat) : Statement (.watchdog core seat) := fun h => nomatch h

theorem continuationPlace (core : Nat) (seat : Nat) : Statement (.continuationPlace core seat) := fun h => nomatch h

theorem ageing (die : Nat) (entry : Nat) : Statement (.ageing die entry) := fun h => nomatch h

theorem placementBound (die : Nat) (entry : Nat) : Statement (.placementBound die entry) := fun h => nomatch h

theorem waitWake (die : Nat) (entry : Nat) : Statement (.waitWake die entry) := fun h => nomatch h

theorem preemptRequest (lcid : Nat) : Statement (.preemptRequest lcid) := fun h => nomatch h

theorem preemptSaveComplete (core : Nat) : Statement (.preemptSaveComplete core) := fun h => nomatch h

theorem saveDeadline (core : Nat) : Statement (.saveDeadline core) := fun h => nomatch h

theorem frameRestore (die : Nat) (entry : Nat) (core : Nat) : Statement (.frameRestore die entry core) := fun h => nomatch h

theorem migrationRequest (lcid : Nat) (target : Nat) : Statement (.migrationRequest lcid target) := fun h => nomatch h

theorem migrationStop (core : Nat) : Statement (.migrationStop core) := fun h => nomatch h

theorem migrationFallback (core : Nat) : Statement (.migrationFallback core) := fun h => nomatch h

theorem kick (q : Nat) (w : BitVec 32) : Statement (.kick q w) := fun h => nomatch h

theorem map (slot : Nat) : Statement (.map slot) := fun h => nomatch h

theorem park (slot : Nat) : Statement (.park slot) := fun h => nomatch h

theorem parkComplete (slot : Nat) : Statement (.parkComplete slot) := fun h => nomatch h

theorem resume (slot : Nat) : Statement (.resume slot) := fun h => nomatch h

theorem unmap (slot : Nat) : Statement (.unmap slot) := fun h => nomatch h

theorem packetFetch (slot : Nat) : Statement (.packetFetch slot) := fun h => nomatch h

theorem nopPacket (slot : Nat) : Statement (.nopPacket slot) := fun h => nomatch h

theorem launch (slot : Nat) : Statement (.launch slot) := fun h => nomatch h

theorem gang (slot : Nat) : Statement (.gang slot) := fun h => nomatch h

theorem gangRetry (slot : Nat) : Statement (.gangRetry slot) := fun h => nomatch h

theorem gangBound (slot : Nat) : Statement (.gangBound slot) := fun h => nomatch h

theorem signal (slot : Nat) : Statement (.signal slot) := fun h => nomatch h

theorem waittlPacket (slot : Nat) : Statement (.waittlPacket slot) := fun h => nomatch h

theorem waittlPacketTimeout (slot : Nat) : Statement (.waittlPacketTimeout slot) := fun h => nomatch h

theorem btePacket (slot : Nat) : Statement (.btePacket slot) := fun h => nomatch h

theorem kill (slot : Nat) : Statement (.kill slot) := fun h => nomatch h

theorem killComplete (asid : BitVec 16) : Statement (.killComplete asid) := fun h => nomatch h

theorem fencePacket (slot : Nat) : Statement (.fencePacket slot) := fun h => nomatch h

theorem marker (slot : Nat) : Statement (.marker slot) := fun h => nomatch h

theorem open_ (slot : Nat) : Statement (.open_ slot) := fun h => nomatch h

theorem close (slot : Nat) : Statement (.close slot) := fun h => nomatch h

theorem buffers (slot : Nat) : Statement (.buffers slot) := fun h => nomatch h

theorem send (slot : Nat) : Statement (.send slot) := fun h => nomatch h

theorem packetComplete (pkt : Nat) : Statement (.packetComplete pkt) := fun h => nomatch h

theorem tladd (tl : Nat) (v : BitVec 64) : Statement (.tladd tl v) := fun h => nomatch h

theorem tlbiRange (asid : BitVec 16) : Statement (.tlbiRange asid) := fun h => nomatch h

theorem tlbiAsid (asid : BitVec 16) : Statement (.tlbiAsid asid) := fun h => nomatch h

theorem tlbiGlobalRange : Statement (.tlbiGlobalRange) := fun h => nomatch h

theorem tlbiAll : Statement (.tlbiAll) := fun h => nomatch h

theorem tlbiReserved (kind : BitVec 3) : Statement (.tlbiReserved kind) := fun h => nomatch h

theorem tlbiComplete : Statement (.tlbiComplete) := fun h => nomatch h

theorem pin (slice : Nat) (entry : Nat) (ppn : BitVec 32) : Statement (.pin slice entry ppn) := fun h => nomatch h

theorem unpin (slice : Nat) (entry : Nat) : Statement (.unpin slice entry) := fun h => nomatch h

theorem pinComplete (slice : Nat) (entry : Nat) : Statement (.pinComplete slice entry) := fun h => nomatch h

theorem lcidMapWrite (lcid : Nat) (v : BitVec 32) : Statement (.lcidMapWrite lcid v) := fun h => nomatch h

theorem scanRequest (die : Nat) (core : Nat) : Statement (.scanRequest die core) := fun h => nomatch h

theorem scanComplete (die : Nat) (cluster : Nat) (pass : Bool) : Statement (.scanComplete die cluster pass) := fun h => nomatch h

theorem suspack (tl : Nat) : Statement (.suspack tl) := fun h => nomatch h

theorem apply : Statement (.apply) := fun h => nomatch h

theorem errorDetected (e : ErrorEvent) : Statement (.errorDetected e) := fun h => nomatch h

theorem tileIdleRet (core : Nat) : Statement (.tileIdleRet core) := fun h => nomatch h

theorem tileIdleOff (core : Nat) : Statement (.tileIdleOff core) := fun h => nomatch h

theorem tileWakeComplete (core : Nat) : Statement (.tileWakeComplete core) := fun h => nomatch h

theorem targetActive : Statement (.targetActive) := fun h => nomatch h

theorem targetListen : Statement (.targetListen) := fun h => nomatch h

theorem targetDormant : Statement (.targetDormant) := fun h => nomatch h

theorem wakeComplete : Statement (.wakeComplete) := fun h => nomatch h

theorem alarm : Statement (.alarm) := fun h => nomatch h

theorem thermalWarn (core : Nat) : Statement (.thermalWarn core) := fun h => nomatch h

theorem thermalThrottle (core : Nat) : Statement (.thermalThrottle core) := fun h => nomatch h

theorem throttleEnd (core : Nat) : Statement (.throttleEnd core) := fun h => nomatch h

theorem thermalTrip (core : Nat) : Statement (.thermalTrip core) := fun h => nomatch h

theorem powerCap : Statement (.powerCap) := fun h => nomatch h

theorem powerLoss : Statement (.powerLoss) := fun h => nomatch h

theorem coldStart (keyA keyB : List (BitVec 8)) : Statement (.coldStart keyA keyB) := fun h => nomatch h

theorem install : Statement (.install) := fun h => nomatch h

theorem advance : Statement (.advance) := fun h => nomatch h

theorem attest : Statement (.attest) := fun h => nomatch h

theorem tcmopen : Statement (.tcmopen) := fun h => nomatch h

theorem securityCommandComplete (key rand : List (BitVec 8)) : Statement (.securityCommandComplete key rand) := fun h => nomatch h

theorem h2fdbWrite (v : BitVec 32) : Statement (.h2fdbWrite v) := fun h => nomatch h

theorem f2hdbWrite (v : BitVec 32) : Statement (.f2hdbWrite v) := fun h => nomatch h

theorem hostRead (off : Nat) (size : Nat) : Statement (.hostRead off size) := fun h => nomatch h

theorem hostWrite (off : Nat) (bytes : List (Option (BitVec 8))) : Statement (.hostWrite off bytes) := fun h => nomatch h

theorem hostAtomic (off : Nat) (size : Nat) (op : AmoOp) (x : BitVec 64) (cmp : BitVec 64) : Statement (.hostAtomic off size op x cmp) := fun h => nomatch h

theorem hostCompletion (id : Nat) (data : Option (List (BitVec 8))) : Statement (.hostCompletion id data) := fun h => nomatch h

theorem hostLinkTimeout (id : Nat) : Statement (.hostLinkTimeout id) := fun h => nomatch h

theorem hivtEnable (vec : Nat) (en : Bool) : Statement (.hivtEnable vec en) := fun h => nomatch h

theorem ethFrameReceive (port : Nat) (frame : List (BitVec 8)) : Statement (.ethFrameReceive port frame) := fun h => nomatch h

theorem tustep (v : BitVec 64) : Statement (.tustep v) := fun h => nomatch h

theorem rtpPacketReceive (stream : Nat) (path : Nat) (pkt : RtpPacket) : Statement (.rtpPacketReceive stream path pkt) := fun h => nomatch h

theorem frameStart (stream : Nat) : Statement (.frameStart stream) := fun h => nomatch h

theorem frameDeadline (stream : Nat) : Statement (.frameDeadline stream) := fun h => nomatch h

theorem frameTransmit (stream : Nat) : Statement (.frameTransmit stream) := fun h => nomatch h

theorem traceResume (core : Nat) : Statement (.traceResume core) := fun h => nomatch h

theorem monitorClear (core : Nat) (mon : Nat) : Statement (.monitorClear core mon) := fun h => nomatch h

theorem registerWrite (by_ : Party) (off : Nat) (size : Nat) (v : BitVec 64) : Statement (.registerWrite by_ off size v) := fun h => nomatch h

theorem ethLinkChange (port : Nat) (up : Bool) : Statement (.ethLinkChange port up) := fun h => nomatch h

theorem hostLinkTraining (modules : Nat) : Statement (.hostLinkTraining modules) := fun h => nomatch h

theorem powerCapRelease : Statement (.powerCapRelease) := fun h => nomatch h

theorem trippedTileCooled (core : Nat) : Statement (.trippedTileCooled core) := fun h => nomatch h

theorem accstLand (core : Nat) (id : Nat) : Statement (.accstLand core id) := fun h => nomatch h

theorem monitorTemperatureSample (core : Nat) (mon : Nat) (temp : BitVec 32) : Statement (.monitorTemperatureSample core mon temp) := fun h => nomatch h

end Sys2Proof.Laws.Encoding
end

