-- ==== Sys2Proof/Laws/Vector.lean ====
section
/-! SUPPORT. The element-wise rule: what it answers where every operand has the needed shape. -/

namespace Sys2Proof.Machine

theorem needShapes_ok {sh : Nat × Nat} {s : State} (l : List (BitVec 5))
    (h : ∀ n ∈ l, ((s.rV n).rows, (s.rV n).cols) = sh) :
    l.forM (fun n => needShape sh n (s.rV n)) = (.ok () : Except Stop Unit) := by
  induction l with
  | nil => rfl
  | cons a l ih =>
    have ha := h a (by simp)
    have ht := ih (fun n hn => h n (by simp [hn]))
    simp only [List.forM_eq_forM, List.forM_cons] at ht ⊢
    rw [ht]
    simp [needShape, ha, bind, Except.bind]

/-- R336: with every operand (and the mask, and the old destination where it merges) of the shape, the result is the
computation's, written under the shape. -/
theorem ew_ok {op : VOp} {sh : Nat × Nat} {vd : BitVec 5} {xs : List (BitVec 5)} {more : List Runs} {vm : BitVec 5}
    {mz : BitVec 1} {dist : Nat} {s : State} {r : Runs × VF}
    (hx : ∀ n ∈ xs, ((s.rV n).rows, (s.rV n).cols) = sh) (hm : vm ≠ 0 → ((s.rV vm).rows, (s.rV vm).cols) = sh)
    (ho : vm ≠ 0 → mz = 0 → ((s.rV vd).rows, (s.rV vd).cols) = sh)
    (h : ewCompute op (xs.map (fun n => (s.rV n).runs) ++ more) (if vm = 0 then none else some (s.rV vm).runs)
      (if vm != 0 && mz == 0 then some (s.rV vd).runs else none) = .ok r) :
    ew op sh vd xs more vm mz dist s = .ok ((s.putV vd dist sh.1 sh.2 r.1).orFlags r.2) := by
  by_cases hv : vm = 0
  · subst hv
    have hmask : maskReg 0 = none := rfl
    simp only [ew, hmask, Option.isSome_none, Bool.false_and, Option.toList, List.append_nil, Bool.false_eq_true, if_false]
    rw [needShapes_ok xs hx]
    simp at h
    simp [h, bind, Except.bind]
  · have hne : (vm != 0) = true := by simpa using hv
    simp only [ew, maskReg, if_neg hv, hne, Bool.true_and, Option.isSome_some] at h ⊢
    rw [needShapes_ok _ (by
      intro n hn
      simp only [Option.toList, List.mem_append, List.mem_singleton, List.mem_ite_nil_right] at hn
      rcases hn with (hn | hn) | ⟨hz, hn⟩
      · exact hx n hn
      · subst hn; exact hm hv
      · subst hn; exact ho hv (by simpa using hz))]
    simp only [bind, Except.bind, Option.map_some]
    rw [h]

/-- The mask's and the merged old destination's place among the sources. -/
theorem maskSrcs_eq (a b : Src) (vd vm : BitVec 5) (mz : BitVec 1) :
    maskSrcs a b vd vm mz =
      [a, b] ++ ([if vm = 0 then .p 0 else .v vm] ++ (if vm != 0 && mz == 0 then [.v vd] else [])) := rfl

theorem vbin_ok {op : W32 → W32 → W32 × VF} {n : Nat} {vd va vb vm : BitVec 5} {mz : BitVec 1} {g : BitVec 4} {s : State}
    {r : Runs × VF} (h : Ready g (maskSrcs (.v va) (.v vb) vd vm mz) [.v vd] s)
    (ha : ((s.rV va).rows, (s.rV va).cols) = s.shape) (hb : ((s.rV vb).rows, (s.rV vb).cols) = s.shape)
    (hm : vm ≠ 0 → ((s.rV vm).rows, (s.rV vm).cols) = s.shape)
    (ho : vm ≠ 0 → mz = 0 → ((s.rV vd).rows, (s.rV vd).cols) = s.shape)
    (e : ewCompute (fun x => op (nth 0 0 x) (nth 0 1 x)) [(s.rV va).runs, (s.rV vb).runs]
      (if vm = 0 then none else some (s.rV vm).runs) (if vm != 0 && mz == 0 then some (s.rV vd).runs else none) = .ok r) :
    vbin op n vd va vb vm mz g s = .next (((s.putV vd n s.shape.1 s.shape.2 r.1).orFlags r.2).setStatus .issued) := by
  unfold vbin
  rw [slotOp_ready h]
  exact congrArg (fun q => Host.Outcome.next (settle s q))
    (ew_ok (xs := [va, vb]) (more := []) (by simp [ha, hb]) hm ho e)

theorem vbc_ok {op : W32 → W32 → W32 × VF} {n : Nat} {vd va vm : BitVec 5} {sb : BitVec 6} {mz : BitVec 1} {g : BitVec 4}
    {s : State} {r : Runs × VF} (h : Ready g (maskSrcs (.v va) (.s sb) vd vm mz) [.v vd] s)
    (hm : vm ≠ 0 → ((s.rV vm).rows, (s.rV vm).cols) = ((s.rV va).rows, (s.rV va).cols))
    (ho : vm ≠ 0 → mz = 0 → ((s.rV vd).rows, (s.rV vd).cols) = ((s.rV va).rows, (s.rV va).cols))
    (e : ewCompute (fun x => op (nth 0 0 x) (nth 0 1 x)) [(s.rV va).runs, [((s.rS sb).extractLsb' 0 32, (s.rV va).ll)]]
      (if vm = 0 then none else some (s.rV vm).runs) (if vm != 0 && mz == 0 then some (s.rV vd).runs else none) = .ok r) :
    vbc op n vd va sb vm mz g s =
      .next (((s.putV vd n (s.rV va).rows (s.rV va).cols r.1).orFlags r.2).setStatus .issued) := by
  unfold vbc
  rw [slotOp_ready h]
  exact congrArg (fun q => Host.Outcome.next (settle s q))
    (ew_ok (sh := ((s.rV va).rows, (s.rV va).cols)) (xs := [va])
      (more := [[((s.rS sb).extractLsb' 0 32, (s.rV va).ll)]]) (by simp) hm ho e)

theorem vun_ok {op : W32 → W32 × VF} {n : Nat} {vd va vm : BitVec 5} {mz : BitVec 1} {g : BitVec 4} {s : State}
    {r : Runs × VF} (h : Ready g (maskSrcs (.v va) (.p 0) vd vm mz) [.v vd] s)
    (ha : ((s.rV va).rows, (s.rV va).cols) = s.shape) (hm : vm ≠ 0 → ((s.rV vm).rows, (s.rV vm).cols) = s.shape)
    (ho : vm ≠ 0 → mz = 0 → ((s.rV vd).rows, (s.rV vd).cols) = s.shape)
    (e : ewCompute (fun x => op (nth 0 0 x)) [(s.rV va).runs]
      (if vm = 0 then none else some (s.rV vm).runs) (if vm != 0 && mz == 0 then some (s.rV vd).runs else none) = .ok r) :
    vun op n vd va vm mz g s = .next (((s.putV vd n s.shape.1 s.shape.2 r.1).orFlags r.2).setStatus .issued) := by
  unfold vun
  rw [show none_ = Src.p 0 from rfl, slotOp_ready h]
  exact congrArg (fun q => Host.Outcome.next (settle s q)) (ew_ok (xs := [va]) (more := []) (by simp [ha]) hm ho e)

theorem vtri_ok {op : W32 → W32 → W32 → W32 × VF} {n : Nat} {vd va vb vc : BitVec 5} {g : BitVec 4} {s : State}
    {r : Runs × VF} (h : Ready g [.v va, .v vb, .v vc] [.v vd] s)
    (ha : ((s.rV va).rows, (s.rV va).cols) = s.shape) (hb : ((s.rV vb).rows, (s.rV vb).cols) = s.shape)
    (hc : ((s.rV vc).rows, (s.rV vc).cols) = s.shape)
    (e : ewCompute (fun x => op (nth 0 0 x) (nth 0 1 x) (nth 0 2 x)) [(s.rV va).runs, (s.rV vb).runs, (s.rV vc).runs]
      none none = .ok r) :
    vtri op n vd va vb vc g s = .next (((s.putV vd n s.shape.1 s.shape.2 r.1).orFlags r.2).setStatus .issued) := by
  unfold vtri
  rw [slotOp_ready h]
  exact congrArg (fun q => Host.Outcome.next (settle s q))
    (ew_ok (xs := [va, vb, vc]) (more := []) (by simp [ha, hb, hc]) (fun q => absurd rfl q) (fun q => absurd rfl q) e)

end Sys2Proof.Machine
end

