-- ==== Sys2Proof/Tests/Slice0.lean ====
section
/-! SUPPORT. The model's own tests: ill-formed terms that WellFormed refuses, one word of every slot instruction written out
from R272 to R275 and R291 to R294, single steps with results taken from the spec's tables and examples, and for every
obligation with hypotheses a concrete state and operands that meet them. -/

namespace Sys2Proof.Tests

open Sys2Proof Sys2Proof.Machine

set_option maxRecDepth 20000
set_option Elab.async false

/-! Helpers. -/

/-- What a test reads of an outcome. -/
def seen {α : Type} (o : Host.Outcome State Fault Refusal) (f : State → α) : Option α :=
  match o with
  | .next t => some (f t)
  | .fault _ => none
  | .refused _ => none

def okB {α β : Type} (x : Except α β) : Bool :=
  match x with
  | .ok _ => true
  | .error _ => false

/-- What a result holds. -/
def got {α β : Type} [DecidableEq β] (x : Except α β) (b : β) : Bool :=
  match x with
  | .ok y => decide (y = b)
  | .error _ => false

theorem ok_of {α β : Type} {x : Except α β} (h : okB x = true) : ∃ b, x = .ok b := by
  cases x with
  | ok b => exact ⟨b, rfl⟩
  | error e => simp [okB] at h

theorem some_of {α : Type} {x : Option α} (h : x.isSome = true) : ∃ b, x = some b := Option.isSome_iff_exists.mp h

theorem got_of {α β : Type} [DecidableEq β] {x : Except α β} {b : β} (h : got x b = true) : x = .ok b := by
  cases x with
  | ok y => simpa [got] using h
  | error e => simp [got] at h

/-- The result is there and satisfies p. -/
def okAnd {α β : Type} (x : Except α β) (p : β → Bool) : Bool :=
  match x with
  | .ok b => p b
  | .error _ => false
def someAnd {α : Type} (x : Option α) (p : α → Bool) : Bool :=
  match x with
  | some b => p b
  | none => false

theorem okAnd_of {α β : Type} {x : Except α β} {p : β → Bool} (h : okAnd x p = true) : ∃ b, x = .ok b ∧ p b = true := by
  cases x with
  | ok b => exact ⟨b, rfl, h⟩
  | error e => simp [okAnd] at h

theorem someAnd_of {α : Type} {x : Option α} {p : α → Bool} (h : someAnd x p = true) : ∃ b, x = some b ∧ p b = true := by
  cases x with
  | some b => exact ⟨b, rfl, h⟩
  | none => simp [someAnd] at h

/-- Whether the decoder reads a word as an instruction. -/
def readsAs (dec : W32 → Except DecodeError Instr) (e : Nat × Instr) : Bool :=
  match dec (BitVec.ofNat 32 e.1) with
  | .ok i => i == e.2
  | .error _ => false

def readyB (g : BitVec 4) (srcs : List Src) (dsts : List RegName) (s : State) : Bool :=
  !s.srcEmpty (.p g) && s.rP g && srcs.all s.readable && dsts.all (fun d => !s.destEmpty d)

theorem ready_of {g : BitVec 4} {srcs : List Src} {dsts : List RegName} {s : State} (h : readyB g srcs dsts s = true) :
    Ready g srcs dsts s := by
  simp only [readyB, Bool.and_eq_true, Bool.not_eq_true', List.all_eq_true] at h
  exact ⟨h.1.1.1, h.1.1.2, h.1.2, h.2⟩

/-- Whether an instruction issues, and whether it raises, by its cause. -/
def issuesB (s : State) (i : Instr) : Bool :=
  match exec i s with
  | .next t => t.focus.status == .issued
  | _ => false
def cause (s : State) (i : Instr) : Nat :=
  match exec i s with
  | .next t => match t.focus.status with
    | .raised _ e => e.cause.toNat
    | _ => 0
  | _ => 0
def waitsB (s : State) (i : Instr) : Bool :=
  match exec i s with
  | .next t => match t.focus.status with
    | .stalled _ => true
    | .holding _ _ => true
    | _ => false
  | _ => false

theorem issues_of {i : Instr} {s : State} (h : issuesB s i = true) : ∃ t, Issues i s t := by
  unfold issuesB at h
  split at h
  · rename_i t heq
    exact ⟨t, heq, by simpa using h⟩
  · simp at h

/-- Seat 0 of core 0 runs ASID 1, its page of LPDDR-6 at virtual address 0x10000, before the instruction of a word. -/
def at_ (w : Nat) : State := State.reset.withFetchWord 128 w
def zero : State := at_ 0
def setS (l : List (BitVec 6 × Word)) (s : State) : State := l.foldl (fun s e => s.wS e.1 e.2 .full) s
def setV (l : List (BitVec 5 × VReg)) (s : State) : State := l.foldl (fun s e => s.wV e.1 e.2) s
def vr (rows cols : Nat) (runs : Runs) : VReg := { rows := rows, cols := cols, runs := runs, fill := .full }
def withBlock (ws : List W32) (s : State) : State := { s with focus := { s.focus with block := ws } }

/-! Ill-formed terms: one for every check of R266. -/

theorem test_illFormed : [Instr.loop 1 0 0, .ctlr 1 0x00C, .ctlw 1 0x015, .ctlx 1 2 0x032, .waittl 1 0x4A0 0 0,
    .waittlSusp 1 0x4A0 0 0, .sigtl 1 0xFFF 0, .vadd 1 2 3 0 1 0, .vaddBcast 1 2 3 0 1 0, .vabs 1 2 0 1 0, .vsplat 1 2 0 1 0,
    .viota 1 0 1 0, .vcvtFi 1 2 0 1 0, .amoAdd 1 2 3 0 6 0, .lda 1 2 6 0, .stl 1 2 7 0, .fence 6 1 0, .fence 0 0 0,
    .xfence 6 0 0 0, .xfence 0 6 0 0, .xfence 0 0 6 0, .waitv 1 2 3 5 0 0, .waitvS 1 2 3 0 0 6, .vld 1 2 0 10 0 0,
    .vst 1 2 0 15 0 0, .cpy 1 2 3 0 0, .cpy 1 2 0 3 0, .cpyMma 1 2 3 0 0 0 2 0, .barInit 24 1 2 0,
    .barWaitS 31 1 0 0].all (fun i => i.wf == false) = true := by decide +kernel

theorem test_wellFormed : [Instr.loop 1 0 1, .ctlr 1 0x00B, .ctlw 1 0x014, .ctlx 1 2 0x031, .waittl 1 0x49F 0 0, .vadd 1 2 3 4 1 0,
    .vadd 1 2 3 0 0 0, .amoAdd 1 2 3 0 5 0, .fence 5 1 0, .xfence 5 5 5 0, .waitv 1 2 3 4 0 5, .vld 1 2 0 9 0 0, .cpy 1 2 2 2 0,
    .cpyMma 1 2 3 0 0 0 1 0, .barInit 23 1 2 0].all Instr.wf = true := by decide +kernel

/-! Words written out from the formats and the opcode map (R272 to R275, R291 to R294), every slot instruction once. -/

def wordsS1 : List (Nat × Instr) :=
  [(0x055F4A07, .add 0x15 0x3d 0xa 7),
   (0x06A1051E, .sub 0x2a 4 5 0xe),
   (0x0631D82A, .and_ 0x23 7 0x18 0xa),
   (0x044EE134, .or_ 4 0x3b 0x21 4),
   (0x04319C47, .xor_ 3 6 0x1c 7),
   (0x04540659, .shl 5 0x10 6 9),
   (0x05C1356A, .shr 0x1c 4 0x35 0xa),
   (0x048F4F7B, .sra 8 0x3d 0xf 0xb),
   (0x0699BD81, .minS 0x29 0x26 0x3d 1),
   (0x06599A91, .minZ 0x25 0x26 0x1a 1),
   (0x07F3C3A9, .maxS 0x3f 0xf 3 9),
   (0x077253B7, .maxZ 0x37 9 0x13 7),
   (0x04A8C8CA, .mul 0xa 0x23 8 0xa),
   (0x054935DB, .mulhS 0x14 0x24 0x35 0xb),
   (0x04C1E6EA, .mulhZ 0xc 7 0x26 0xa),
   (0x0A935802, .divS 0x29 0xd 0x18 2),
   (0x0A4B851A, .divZ 0x24 0x2e 5 0xa),
   (0x084A0E28, .remS 4 0x28 0xe 8),
   (0x0AC8DC3D, .remZ 0x2c 0x23 0x1c 0xd),
   (0x0D57800A, .clz 0x15 0x1e 0xa),
   (0x0FC78016, .ctz 0x3c 0x1e 6),
   (0x0D44002D, .popc 0x14 0x10 0xd),
   (0x0CCB7234, .bext 0xc 0x2d 0x32 4),
   (0x0C695449, .bins 6 0x25 0x14 9),
   (0x120E56C8, .addsh 0x20 0x39 0x16 0xc 8)]

def wordsS2 : List (Nat × Instr) :=
  [(0x1539FF22, .sel 0x13 0x27 0x3f 2 2),
   (0x2216CA9D, .addi 0x21 0x1b 0xa9 0xd),
   (0x2562BBC8, .andi 0x16 0xa 0x3bc 8),
   (0x29B0FDAB, .ori 0x1b 3 0x3da 0xb),
   (0x2C5C63CA, .xori 5 0x31 0x23c 0xa),
   (0x333E4356, .shli 0x33 0x39 0x35 6),
   (0x356B417A, .shri 0x16 0x2d 0x17 0xa),
   (0x3A098348, .srai 0x20 0x26 0x34 8),
   (0x405D7092, .movi 5 0xd709 2),
   (0x47D451B8, .movh 0x3d 0x451b 8),
   (0x51AB1401, .cmpEq 6 0x2b 5 1),
   (0x51AD508B, .cmpNe 6 0x2d 0x14 0xb),
   (0x516CD508, .cmpLtS 5 0x2c 0x35 8),
   (0x50EE658F, .cmpLtZ 3 0x2e 0x19 0xf),
   (0x51970A08, .cmpGeS 6 0x17 2 8),
   (0x50CBA282, .cmpGeZ 3 0xb 0x28 2),
   (0x5505000D, .pand 4 1 4 0xd),
   (0x54CF0804, .por 3 3 0xc 4),
   (0x551FD00E, .pxor 4 7 0xf 0xe),
   (0x5508D808, .pandn 4 2 3 8),
   (0x55242005, .pmov 4 9 5),
   (0x54802C0E, .pset 2 1 0xe),
   (0x62336CD5, .bra 0x2336cd 5),
   (0x66D359B7, .call 0x2d359b 7),
   (0x6805C00B, .brar 0x17 0xb)]

def wordsS3 : List (Nat × Instr) :=
  [(0x6C00000F, .ret 0xf),
   (0x71944D50, .loop 0x19 2 0x4d5),
   (0x80600048, .ctlr 6 0x12),
   (0x8003C049, .ctlw 0xf 0x12),
   (0x8018002E, .ctlx 1 0x20 0xb),
   (0x90BAB905, .trap 0xbab9 5),
   (0x90000015, .eret 5),
   (0x90000021, .snapst 1),
   (0x90000033, .snaprel 3),
   (0x90000047, .suspend 7),
   (0x90000059, .yield 9),
   (0x90000066, .halt 6),
   (0xA2849F0C, .waittl 0x28 0x49f 0 0xc),
   (0xA3700348, .waittlSusp 0x37 3 0 8),
   (0xA7A0030D, .sigtl 0x3a 3 0xd)]

theorem test_words_S1 : wordsS1.all (readsAs decodeS) = true := by decide +kernel
theorem test_words_S2 : wordsS2.all (readsAs decodeS) = true := by decide +kernel
theorem test_words_S3 : wordsS3.all (readsAs decodeS) = true := by decide +kernel

def wordsV1 : List (Nat × Instr) :=
  [(0x064D0367, .vmov 0x12 0xd 0xd 1 7),
   (0x08807EB1, .vsplat 4 0x1f 0x15 1 1),
   (0x0CE000C8, .viota 7 3 0 8),
   (0xA8B22C0A, .vextr 0xb 4 0x16 0xa),
   (0xAC43820A, .vins 2 7 1 0xa),
   (0x10B227EA, .vadd 5 0x12 4 0x1f 1 0xa),
   (0x1423E1E3, .vsub 1 3 0x1c 7 1 3),
   (0x1AA9FB28, .vmul 0x15 9 0x1f 0xc 1 8),
   (0x1C84E408, .vfma 4 4 0x1c 0x10 8),
   (0x221050C3, .vfms 0x10 0x10 0xa 3 3),
   (0x24985E28, .vmin 4 0x18 0xb 0x18 1 8),
   (0x2B773444, .vmax 0x1b 0x17 6 0x11 0 4),
   (0x2FFF8B0C, .vdiv 0x1f 0x1f 0x11 0xc 0 0xc),
   (0xC25E0B3B, .vaddBcast 0x12 0x1e 2 0x19 1 0xb),
   (0xC783B799, .vsubBcast 0x1c 3 0x2d 0x1c 1 9),
   (0xC99E2D89, .vmulBcast 0xc 0x1e 0xb 0xc 0 9),
   (0xCE59856A, .vminBcast 0x12 0x19 0x21 0xb 0 0xa),
   (0xD35AC78D, .vmaxBcast 0x1a 0x1a 0x31 0x1c 0 0xd),
   (0xD51B6B04, .vdivBcast 8 0x1b 0x1a 0x18 0 4),
   (0xDA305F01, .viaddBcast 0x11 0x10 0x17 0x18 0 1),
   (0xDF497D2C, .visubBcast 0x1a 9 0x1f 9 0 0xc),
   (0xE29F5DF6, .vimulBcast 0x14 0x1f 0x17 0xf 1 6),
   (0xE4681D14, .vandBcast 3 8 7 8 1 4),
   (0xE9677E88, .vorBcast 0xb 7 0x1f 0x14 0 8),
   (0xEFD55F4E, .vxorBcast 0x1e 0x15 0x17 0x1a 0 0xe)]

def wordsV2 : List (Nat × Instr) :=
  [(0xF2C4EDA8, .vshlBcast 0x16 4 0x3b 0xd 0 8),
   (0xF7A67352, .vshrBcast 0x1d 6 0x1c 0x1a 1 2),
   (0x335F0628, .vabs 0x1a 0x1f 0x18 1 8),
   (0x35B807CC, .vneg 0xd 0x18 0x1f 0 0xc),
   (0x38C60143, .vrcp 6 6 5 0 3),
   (0x3E7D03CA, .vrsq 0x13 0x1d 0xf 0 0xa),
   (0x43740423, .vsqrt 0x1b 0x14 0x10 1 3),
   (0x46520141, .vexp2 0x12 0x12 5 0 1),
   (0x4B580549, .vlog2 0x1a 0x18 0x15 0 9),
   (0x4F1E2B8E, .viadd 0x18 0x1e 5 0xe 0 0xe),
   (0x53870A45, .visub 0x1c 7 1 9 0 5),
   (0x5628CCE5, .vimul 0x11 8 0x19 0x13 1 5),
   (0x5A4ED94F, .vand 0x12 0xe 0x1b 5 0 0xf),
   (0x5F0CEBEE, .vor 0x18 0xc 0x1d 0xf 1 0xe),
   (0x63DD8949, .vxor 0x1e 0x1d 0x11 5 0 9),
   (0x6621E3CA, .vshl 0x11 1 0x1c 0xf 0 0xa),
   (0x6839D143, .vshr 1 0x19 0x1a 5 0 3),
   (0x6E14C002, .vcmpEq 0x10 0x14 0x18 2),
   (0x6E42590B, .vcmpNe 0x12 2 0xb 0xb),
   (0x6E319208, .vcmpLt 0x11 0x11 0x12 8),
   (0x6F59230F, .vcmpLe 0x1a 0x19 4 0xf),
   (0x6E424404, .vcmpGt 0x12 2 8 4),
   (0x6D22CD02, .vcmpGe 9 2 0x19 2),
   (0x6E2F9601, .vcmpUn 0x11 0xf 0x12 1),
   (0x733DF0C8, .vsel 0x19 0x1d 0x1e 3 8)]

def wordsV3 : List (Nat × Instr) :=
  [(0x7574044C, .vcvtFi 0xb 0x14 0x11 0 0xc),
   (0x752F0C69, .vcvtFit 9 0xf 0x11 1 9),
   (0x77E815EF, .vcvtIf 0x1f 8 0x17 1 0xf),
   (0x765D1FCE, .vcvtFb 0x12 0x1d 0x1f 0 0xe),
   (0x75E52387, .vcvtFt8 0xf 5 0xe 0 7),
   (0x75EB28C7, .vcvtFt6 0xf 0xb 3 0 7),
   (0x7867000B, .vredSum 3 7 0xb),
   (0x795A0802, .vredMax 0xa 0x1a 2),
   (0x7BB91003, .vredMin 0x1d 0x19 3),
   (0x7FF7000B, .vrrowSum 0x1f 0x17 0xb),
   (0x7ECC0803, .vrrowMax 0x16 0xc 3),
   (0x7D3D1003, .vrrowMin 9 0x1d 3),
   (0x83EF0004, .vscanSum 0x1f 0xf 4),
   (0x831F0802, .vscanMax 0x18 0x1f 2),
   (0x81BD1008, .vscanMin 0xd 0x1d 8),
   (0x84BB000E, .vcnt 0xb 0x16 0xe),
   (0x8CF3000C, .vocc 0xf 6 0xc),
   (0x89D16806, .vrcoal 0xe 0x11 0xd 6),
   (0x91C70006, .vreshape 0xe 7 6),
   (0x9563000C, .vbrow 0xb 3 0xc),
   (0x99810006, .vbcol 0xc 1 6),
   (0x9E4F740C, .vperm 0x12 0xf 0x1d 0xc),
   (0xA0016406, .patld 1 0x19 6),
   (0xA4000009, .patsw 9),
   (0xB28A8802, .vattc 0x14 0xa 0x11 2)]

theorem test_words_V1 : wordsV1.all (readsAs decodeV) = true := by decide +kernel
theorem test_words_V2 : wordsV2.all (readsAs decodeV) = true := by decide +kernel
theorem test_words_V3 : wordsV3.all (readsAs decodeV) = true := by decide +kernel

def wordsM1 : List (Nat × Instr) :=
  [(0x048ECA52, .ldB 8 0x3b 0 0xa5 2),
   (0x09149335, .ldBs 0x11 0x12 0 0x1f33 5),
   (0x0F1267B7, .ldH 0x31 9 1 0x7b 7),
   (0x10A8E7B2, .ldHs 0xa 0x23 1 0x7b 2),
   (0x15210A55, .ldW 0x12 4 0 0xa5 5),
   (0x1BD087B2, .ldWs 0x3d 2 0 0x7b 2),
   (0x1E7DC7BE, .ldD 0x27 0x37 0 0x7b 0xe),
   (0x20879FFF, .stB 8 0x1e 0 0x1fff 0xf),
   (0x27B49332, .stH 0x3b 0x12 0 0x1f33 2),
   (0x2BF2F334, .stW 0x3f 0xb 1 0x1f33 4),
   (0x2FC53335, .stD 0x3c 0x14 1 0x1f33 5),
   (0x41D86C5C, .amoAdd 0x1d 0x21 0x2c 1 3 1),
   (0x47409148, .amoAnd 0x34 2 0x11 1 1 0),
   (0x4AF8646C, .amoOr 0x2f 0x21 0x24 1 5 1),
   (0x4EB823AC, .amoXor 0x2b 0x20 0x23 2 5 1),
   (0x52D3BF58, .amoMinS 0x2d 0xe 0x3f 1 3 0),
   (0x541169DC, .amoMaxS 1 5 0x29 3 3 1),
   (0x5B886BA8, .amoXchg 0x38 0x21 0x2b 2 5 0),
   (0x5ED4C390, .amoCas 0x2d 0x13 3 2 2 0),
   (0x6127400C, .lda 0x12 0x1d 1 1),
   (0x64063E1C, .stl 0x18 0x3e 3 1),
   (0x6920000F, .fence 2 1 0xf),
   (0x6DA60003, .xfence 3 2 3 3),
   (0x70159933, .waitv 1 0x16 0x19 1 1 3),
   (0x721A8D49, .waitvS 0x21 0x2a 0xd 2 0 1)]

def wordsM2 : List (Nat × Instr) :=
  [(0x813A8E0A, .vld 9 0x35 0 3 1 0xa),
   (0x844D160B, .vlds 2 0x1a 0 5 1 0xb),
   (0x8903020D, .vldRun 8 6 0 1 0xd),
   (0x8D77CE0C, .vst 0xb 0x2f 1 3 1 0xc),
   (0x9295000E, .vstRun 0x14 0x2a 0 0 0xe),
   (0x976B808C, .tagrd 0x36 0x2e 1 0xc),
   (0x980B740F, .tagwr 0x2d 0x34 0 0xf),
   (0xA3D9A00E, .mma 3 0xd 9 0xa 0xe),
   (0xA5EBA00D, .mmaz 1 0xe 0xb 0xa 0xd),
   (0xABBE0002, .accrd 0x1d 3 3 0 2),
   (0xAC2A000B, .accwr 1 1 1 0xb),
   (0xB4100002, .accz 2 2),
   (0xB19D8000, .prefL1 0x19 0x36),
   (0xB1D90800, .prefL2 0x1d 0x24),
   (0xB04A5000, .cflush 4 0x29),
   (0xB02A5800, .cinv 2 0x29),
   (0xBBB00008, .accst 3 0x2c 0 8),
   (0xC1400001, .osclaim 5 1),
   (0xC220000D, .osclaimT 8 0xd),
   (0xC480000C, .osrel 2 0xc),
   (0xC81E0009, .efrw 0x3c 9),
   (0xCFB18002, .ctwr 0x1d 0x23 2),
   (0xD000000B, .spswap 0xb)]

theorem test_words_M1 : wordsM1.all (readsAs (decodeM · none)) = true := by decide +kernel
theorem test_words_M2 : wordsM2.all (readsAs (decodeM · none)) = true := by decide +kernel

def wordsC1 : List (Nat × Instr) :=
  [(0x051D1804, .cpy 0x11 0x34 1 2 4),
   (0x09FFB84A, .cpyMma 0x1f 0xf 0xb 2 0 0 1 0xa),
   (0x0CA5918A, .cpyg 0xa 0x16 0x11 1 0xa),
   (0x12524181, .cpys 0x25 9 1 1 1),
   (0x1604800C, .cpyw 0x20 0x12 0 0xc),
   (0x18EB204B, .bte 0xe 0x2c 0x10 0x4b),
   (0x22F12608, .barInit 0x17 0x22 0x13 8),
   (0x25EF000D, .barLink 0xf 0x1e 0xd),
   (0x289D0009, .barExp 4 0x3a 9),
   (0x2CE00005, .barArr 7 5),
   (0x307E0081, .barWait 3 0x3c 1 1),
   (0x314F010E, .barWaitS 0xa 0x1e 0 0xe),
   (0x363F3A05, .barTest 0x11 0x3e 0x1d 5),
   (0x39A7760F, .barStat 0xd 0xe 0x3b 0xf),
   (0x40E16602, .seqMma 0xe 5 0x26 2),
   (0x44AC2205, .seqCpy 0xa 0x30 0x22 5),
   (0x53D6090A, .kvwalk 0x3d 0x18 9 0xa),
   (0x575A6105, .kvapp 0x35 0x29 0x21 5),
   (0x58003902, .kvcommit 0x39 2),
   (0x5EE00006, .kvfork 0x2e 6),
   (0x60F00008, .kvroll 0xf 8),
   (0x67AE6007, .kvsplice 0x3a 0x39 0x20 7),
   (0x6822C001, .kvprov 2 0xb 1),
   (0x6FD82C08, .repairM 0x3d 0x20 0x2c 8),
   (0x6DA52F13, .repairI 0x1a 0x14 0x2f 3)]

def wordsC2 : List (Nat × Instr) :=
  [(0x70001B06, .repstat 0x1b 6),
   (0x7595480E, .attq 0x19 0x15 8 0xe),
   (0x7560551D, .attqRo 0x16 1 0x15 0xd),
   (0x816D9A02, .collPut 0x16 0x36 0x1a 2),
   (0x83DF0D1C, .collGet 0x3d 0x3c 0xd 0xc),
   (0x801EB025, .collAdd 1 0x3a 0x30 5),
   (0x81160537, .collMax 0x11 0x18 5 7),
   (0x819E2642, .collMin 0x19 0x38 0x26 2),
   (0x91803C07, .rsbegin 0x18 0x3c 7),
   (0x9714B701, .rswrite 0x31 0x12 0x37 1),
   (0x99200701, .rscommit 0x12 7 1),
   (0x9F60000B, .rsabort 0x36 0xb),
   (0xA13A7C03, .rsstat 0x13 0x29 0x3c 3)]

theorem test_words_C1 : wordsC1.all (readsAs decodeC) = true := by decide +kernel
theorem test_words_C2 : wordsC2.all (readsAs decodeC) = true := by decide +kernel

/-! The example of R298: two headers, a trap bit and lent immediate bits; and words that R265, R266 and R269 refuse. -/

def decoded (w : Nat) : Option Bundle :=
  match decodeBundle (BitVec.ofNat 128 w) with
  | .ok b => some b
  | .error _ => none

theorem test_header : (decoded 0x10611000FE800000).map (fun b => (b.hdr.map (fun h => (h.b, h.t1)), b.v)) =
    some (some (1, 2), .vadd 3 1 2 0 0 0) := by decide +kernel
theorem test_lentImmediate : (decoded 0x1490800000000000FC000200).map (·.m) = some (.ldW 9 2 0 1024 0) := by decide +kernel
theorem test_refusedWords : [0x00000001, 0x18000000, 0x040000F0, 0xFC000001, 0x10611000FC000100,
    0x14400000 * 2 ^ 64 + 0x20410400, 0x18000100 * 2 ^ 96].all (fun w => (decoded w).isNone) = true := by decide +kernel

/-! Single steps. -/

/-- A step of the word leaves these values. -/
def after (w : Nat) (s : State → State) {α : Type} (f : State → α) : Option α := seen (step (s (at_ w))) f
def sVal (n : Nat) (t : State) : Word := (aget sreg0 n (t.seatAt 0 0).file.regs.s).val
def vRuns (n : Nat) (t : State) : Nat × Nat × Runs := let r := aget vreg0 n (t.seatAt 0 0).file.regs.v; (r.rows, r.cols, r.runs)

theorem test_addi : after 0x238E1000 id (fun t => (sVal 56 t, (t.seatAt 0 0).pc)) = some (256, 0x1001) := by decide +kernel
theorem test_movh : after 0x47A0000F (setS [(58, 0x8000)]) (fun t => sVal 58 t) = some 0x8000 := by decide +kernel

/-- A slot instruction's result. -/
def does (i : Instr) (s : State) {α : Type} (f : State → α) : Option α := seen (exec i s) f

def twoRegs : State := setS [(1, 0xFFFFFFFFFFFFFFF9), (2, 2)] zero
/-- R305: −7 by 2, signed and unsigned. -/
theorem test_divS : does (.divS 3 1 2 0) twoRegs (sVal 3) = some 0xFFFFFFFFFFFFFFFD := by decide +kernel
theorem test_remS : does (.remS 3 1 2 0) twoRegs (sVal 3) = some 0xFFFFFFFFFFFFFFFF := by decide +kernel
theorem test_divZ : does (.divZ 3 1 2 0) twoRegs (sVal 3) = some 0x7FFFFFFFFFFFFFFC := by decide +kernel
theorem test_divByZero : does (.divZ 3 1 0 0) twoRegs (sVal 3) = some 0xFFFFFFFFFFFFFFFF := by decide +kernel
/-- R304: the high half of −7 × 2, and of the unsigned product. -/
theorem test_mulhS : does (.mulhS 3 1 2 0) twoRegs (sVal 3) = some 0xFFFFFFFFFFFFFFFF := by decide +kernel
theorem test_mulhZ : does (.mulhZ 3 1 2 0) twoRegs (sVal 3) = some 1 := by decide +kernel
/-- R306. -/
theorem test_counts : [does (.clz 3 2 0) twoRegs (sVal 3), does (.ctz 3 2 0) twoRegs (sVal 3), does (.popc 3 1 0) twoRegs (sVal 3),
    does (.clz 3 0 0) twoRegs (sVal 3)] = [some 62, some 1, some 62, some 64] := by decide +kernel
/-- R276: s0 discards its write. -/
theorem test_s0 : does (.addi 0 1 5 0) twoRegs (fun t => t.rS 0) = some 0 := by decide +kernel
/-- R271: a false guard. -/
theorem test_falseGuard : does (.addi 3 1 5 1) twoRegs (sVal 3) = some 0 := by decide +kernel

/-- R101: the example window: seat 1 with BASE 16, SIZE 12, DBL 1. -/
def exWindow (half : Bool) : Window := { base := 16, size := 12, dbl := true, half := half }
theorem test_window : [(exWindow false).map 0x10, (exWindow false).map 0x10010, (exWindow false).map 0xBFFF, (exWindow false).map 0xC000,
    (exWindow true).map 0x10, (exWindow true).map 0x6010, (exWindow true).map 0xFFFFFFFFFFFFFFF8] =
    [some 0x10010, some 0x10010, some 0x1BFFF, none, some 0x16010, some 0x10010, none] := by decide +kernel

/-! The example of the run vector instructions: SHAPE 2 × 4. -/

def exVectors : State :=
  setV [(1, vr 2 4 [(0x3F800000, 3), (0x40000000, 5)]), (2, vr 2 4 [(0x3F000000, 2), (0x3E800000, 4), (0x3F000000, 2)]),
        (4, vr 2 4 [(0, 1), (1, 6), (0, 1)]), (6, vr 2 4 [(0x41100000, 8)]), (9, vr 1 4 [(0x4B800000, 1), (0x3F800000, 3)])]
    (zero.modCtl (fun c => { c with shape := 0x0204 }))
def exMasked : VReg := vr 2 4 [(0x41100000, 1), (0x3FC00000, 1), (0x3FA00000, 1), (0x40100000, 3), (0x40200000, 1), (0x41100000, 1)]

theorem test_vadd : does (.vadd 3 1 2 0 0 0) exVectors (vRuns 3) =
    some (2, 4, [(0x3FC00000, 2), (0x3FA00000, 1), (0x40100000, 3), (0x40200000, 2)]) := by decide +kernel
theorem test_vaddMasked : does (.vadd 6 1 2 4 0 0) exVectors (vRuns 6) = some (2, 4, exMasked.runs) := by decide +kernel
theorem test_vredSum : does (.vredSum 8 6 0) (setV [(6, exMasked)] exVectors) (vRuns 8) = some (1, 1, [(0x41F00000, 1)]) := by decide +kernel
theorem test_vredRounds : does (.vredSum 10 9 0) exVectors (fun t => (vRuns 10 t, (t.seatAt 0 0).file.ctl.vflags)) =
    some ((1, 1, [(0x4B800001, 1)]), 1) := by decide +kernel
theorem test_vrcoal : does (.vrcoal 7 6 0 0) (setV [(6, exMasked)] exVectors) (vRuns 7) = some (2, 4, exMasked.runs) := by decide +kernel
theorem test_vocc : does (.vocc 9 6 0) (setV [(6, exMasked)] exVectors) (sVal 9) = some 0x0000020400080006 := by decide +kernel

/-- The example of R201: three partials of one value. -/
def partial_ (m l o : W32) : Partial := { m := m, l := l, o := [o] }
theorem test_combine : (combine (combine (combine (partial_ 0xFF800000 0 0) (partial_ 0x40000000 0x3FC00000 0x40400000)).1
      (partial_ 0x40800000 0x3F800000 0x3F000000)).1 (partial_ 0xFF800000 0 0)).1 = partial_ 0x40800000 0x3FB00000 0x3FA00000 := by
  decide +kernel

/-- The example of the T6 triple (R54, R55): 6.0, −0.046875 and a NaN encode under SCALE 0x7E as 0x1B, 0x25 and 0x20, and decode. -/
def noTable : FmtCtx := { efr := 0, l6q := 0, table := [] }
theorem test_t6 : [encodeElem noTable 0x11 0x7E (Num.ofF32 0x40C00000), encodeElem noTable 0x11 0x7E (Num.ofF32 0xBD400000),
    encodeElem noTable 0x11 0x7E .nan] = [0x1B, 0x25, 0x20] := by decide +kernel
theorem test_t6Back : [0x1B, 0x25, 0x20, 0].map (fun c => (decodeElem noTable 0x11 0x7E c).toF32.1) =
    [0x40C00000#32, 0xBD400000#32, 0x7FC00000#32, 0#32] := by decide +kernel

/-! Witnesses: for each obligation with hypotheses, states and operands that meet them, clause by clause. -/

def five : State := setS [(1, 5), (2, 7), (6, 0x10080), (7, 0x10000), (8, 0x10001), (9, 1)] zero

theorem witness_ScalarArithmeticResults : Ready 0 [.s 1, .s 2] [.s 3] five ∧ Ready 0 [.s 1, .s 2, .p 8] [.s 3] five ∧
    Ready 0 [.s 3, .s 1, .s 2] [.s 3] five ∧ Ready 0 [.s 1] [.s 3] five ∧ Ready 0 [] [.s 3] five ∧ Ready 0 [.s 3] [.s 3] five ∧
    Ready 0 [.p 1, .p 2] [.p 3] five ∧ Ready 0 [.p 1] [.p 3] five ∧ Ready 0 [] [.p 0] five ∧ Ready 0 [.s 0, .s 63] [.s 0] five := by
  and_intros <;> exact ready_of (by decide +kernel)

theorem test_scalarCompletes : [Instr.add 3 1 2 0, .sub 3 1 2 0, .and_ 3 1 2 0, .or_ 3 1 2 0, .xor_ 3 1 2 0, .shl 3 1 2 0, .shr 3 1 2 0,
    .sra 3 1 2 0, .minS 3 1 2 0, .minZ 3 1 2 0, .maxS 3 1 2 0, .maxZ 3 1 2 0, .mul 3 1 2 0, .mulhS 3 1 2 0, .mulhZ 3 1 2 0,
    .divS 3 1 2 0, .divZ 3 1 2 0, .remS 3 1 2 0, .remZ 3 1 2 0, .clz 3 1 0, .ctz 3 1 0, .popc 3 1 0, .bext 3 1 2 0, .bins 3 1 2 0,
    .addsh 3 1 2 4 0, .sel 3 1 2 1 0, .addi 3 1 4 0, .andi 3 1 4 0, .ori 3 1 4 0, .xori 3 1 4 0, .shli 3 1 4 0, .shri 3 1 4 0,
    .srai 3 1 4 0, .movi 3 1 0, .movh 3 1 0, .cmpEq 1 1 2 0, .cmpNe 1 1 2 0, .cmpLtS 1 1 2 0, .cmpLtZ 1 1 2 0, .cmpGeS 1 1 2 0,
    .cmpGeZ 1 1 2 0, .pand 1 2 3 0, .por 1 2 3 0, .pxor 1 2 3 0, .pandn 1 2 3 0, .pmov 1 2 0, .pset 1 1 0, .nop].all (issuesB five) = true := by
  decide +kernel

theorem witness_DivisionResults : Ready 0 [.s 1, .s 2] [.s 3] five ∧ five.fseat.divFree ≤ five.fseat.issued ∧
    (5 : Word) ≠ 0 ∧ ¬((5 : Word) = 0x8000000000000000#64 ∧ (7 : Word) = 0xFFFFFFFFFFFFFFFF#64) := by
  and_intros <;> first | exact ready_of (by decide +kernel) | decide +kernel

theorem witness_BitCountsAreCounts : clzFrom (1 : Word) 64 < 64 ∧ ctzFrom (0x8000000000000000 : Word) 64 < 64 := by decide +kernel

theorem witness_CompareResults : Ready 0 [.s 1, .s 0] [.p 0] five := ready_of (by decide +kernel)

theorem witness_ScalarFrame : Instr.scalarOnly (.divS 3 1 2 0) = true ∧ (∃ t, Issues (.divS 3 1 2 0) five t) ∧
    Instr.scalarOnly (.pset 1 1 0) = true ∧ ∃ t, Issues (.pset 1 1 0) five t := by
  and_intros <;> first | exact issues_of (by decide +kernel) | decide +kernel

theorem witness_RegisterWritesReadBack : (63 : BitVec 6) ≠ 0 ∧ (1 : BitVec 6) ≠ 63 ∧ (7 : BitVec 3) ≠ 0 ∧ five.fseat.latch = none := by
  decide +kernel

theorem witness_FalseGuardDoesNothing : Instr.isSlot (.kvwalk 5 6 9 3) = true ∧ Instr.guard (.kvwalk 5 6 9 3) ≠ 0 ∧
    five.srcEmpty (.p 3) = false ∧ five.rP 3 = false ∧ five.rP 15 = false := by decide +kernel

def farPc : State := setS [(1, 0x0080000000000000), (62, 0x007FFFFFFFFFFFFF)] (zero.modF (fun t => { t with pc := 0x7FFFFFFFFFFFF }))
theorem witness_BranchesReachTheirTarget : Ready 0 [] [.s 62] farPc ∧ Ready 0 [.s 62] [] farPc ∧ Ready 0 [.s 1] [] farPc ∧
    (BitVec.ofInt 64 (16 * (farPc.fseat.pc.toNat : Int) + 16 * (0#22).toInt)).toNat < 2 ^ 55 ∧
    2 ^ 55 ≤ (BitVec.ofInt 64 (16 * (farPc.fseat.pc.toNat : Int) + 16 * (1#22).toInt)).toNat ∧
    (farPc.rS 62 &&& 0xFFFFFFFFFFFFFFF0#64).toNat < 2 ^ 55 ∧ 2 ^ 55 ≤ (farPc.rS 1 &&& 0xFFFFFFFFFFFFFFF0#64).toNat := by
  and_intros <;> first | exact ready_of (by decide +kernel) | decide +kernel

theorem witness_ReturnBeyond : Ready 0 [.s 62] [] (setS [(62, 0x0080000000000000)] zero) ∧
    2 ^ 55 ≤ ((setS [(62, 0x0080000000000000)] zero).rS 62 &&& 0xFFFFFFFFFFFFFFF0#64).toNat := by
  and_intros <;> first | exact ready_of (by decide +kernel) | decide +kernel

def inLoop : State := zero.modCtl (fun c => { c with stage := mkStage true 0 0 2, loopb := 4#13 ++ 0x1000#51 })
theorem witness_LoopBeginsOrSkips : Ready 0 [.s 1] [] zero ∧ stageAct zero.src.ctl.stage = false ∧ (zero.rS 1).toNat = 0 ∧
    stageAct inLoop.src.ctl.stage = true ∧ Ready 0 [.s 1] [] inLoop ∧
    Ready 0 [.s 1] [] (setS [(1, 0xFFFFFF)] zero) ∧ ((setS [(1, 0xFFFFFF)] zero).rS 1).toNat ≤ 2 ^ 24 - 1 ∧
    2 ^ 24 - 1 < ((setS [(1, 0x1000000)] zero).rS 1).toNat ∧ Ready 0 [.s 1] [] (setS [(1, 0x1000000)] zero) := by
  and_intros <;> first | exact ready_of (by decide +kernel) | decide +kernel
theorem test_loopCompletes : [issuesB zero (.loop 1 0 1), issuesB (setS [(1, 3)] zero) (.loop 1 7 8191), issuesB inLoop (.loop 1 0 1)] =
    [true, true, false] := by decide +kernel
theorem test_loopRaises : cause inLoop (.loop 1 0 1) = 4 := by decide +kernel

def shape44 : State := setS [(1, 0x404), (2, 8), (3, 0x4040)] zero
theorem witness_ControlRegisterAccess : Ready 0 [] [.s 3] shape44 ∧ Ready 0 [.s 3] [] shape44 ∧
    got (shape44.awaitV 0x005) () = true ∧ got (shape44.awaitV 0x010) () = true ∧
    (1 ≤ (((shape44.rS 3).extractLsb' 0 32).extractLsb' 8 8).toNat ∧ (((shape44.rS 3).extractLsb' 0 32).extractLsb' 8 8).toNat ≤ 64 ∧
      1 ≤ (((shape44.rS 3).extractLsb' 0 32).extractLsb' 0 8).toNat ∧ (((shape44.rS 3).extractLsb' 0 32).extractLsb' 0 8).toNat ≤ 64) ∧
    stageAct shape44.src.ctl.stage = false ∧ rotSize ((shape44.rS 2).extractLsb' 0 32) = 8 ∧
    ((shape44.rS 2).extractLsb' 0 32).extractLsb' 0 2 ≠ 3 ∧ Ready 0 [.s 1] [.s 3] shape44 ∧ crReadOnly 0x020 = false ∧
    ∃ t, shape44.crWrite 0x020 (shape44.rS 1) = .ok t := by
  and_intros <;> first | exact ready_of (by decide +kernel) | exact ok_of (by decide +kernel) | decide +kernel
theorem test_controlRegistersComplete : [Instr.ctlw 1 0x000, .ctlw 1 0x001, .ctlw 2 0x002, .ctlw 9 0x003, .ctlw 1 0x004, .ctlw 1 0x005,
    .ctlw 1 0x006, .ctlw 1 0x007, .ctlw 1 0x00A, .ctlw 1 0x00B, .ctlw 1 0x012, .ctlw 1 0x020, .ctlw 1 0x023, .ctlw 1 0x024,
    .ctlr 5 0x008, .ctlr 5 0x010, .ctlr 5 0x011, .ctlr 5 0x013, .ctlr 5 0x014, .ctlr 5 0x021, .ctlr 5 0x030, .ctlr 5 0x031,
    .ctlx 5 1 0x006].all (issuesB shape44) = true := by decide +kernel

theorem witness_ReadOnlyRegistersArePrivileged : (0x030#12) ∈ [0x008#12, 0x009#12, 0x010#12, 0x011#12, 0x013#12, 0x014#12, 0x021#12,
    0x022#12, 0x030#12, 0x031#12] ∧ Ready 0 [.s 1] [] shape44 ∧ Ready 0 [.s 1] [.s 3] shape44 ∧ cause shape44 (.ctlw 1 0x021) = 2 := by
  and_intros <;> first | exact ready_of (by decide +kernel) | decide +kernel

/-! Traps. -/

def withHandler : State := zero.modCtl (fun c => { c with trapvec := 0x20000, snapbase := 0x10100 })
def inHandler : State := withHandler.takeCause 0 0 { cause := 0x05, faddr := 0x123, slot := 0, pblk := false, epc := 0x1001 }
def pendingTrap : State := withHandler.pendS 60 9

theorem witness_TrapEntryRecordsAndRedirects : (withHandler.seatAt 0 0).kvHeld = none ∧ (withHandler.seatAt 0 0).tm = false ∧
    (withHandler.seatAt 0 0).file.ctl.trapvec.extractLsb' 4 51 ≠ 0 ∧ (withHandler.seatAt 0 0).trapReady = true ∧
    (pendingTrap.seatAt 0 0).tm = false ∧ (pendingTrap.seatAt 0 0).file.ctl.trapvec.extractLsb' 4 51 ≠ 0 ∧
    (pendingTrap.seatAt 0 0).trapReady = false ∧ (pendingTrap.seatAt 0 0).kvHeld = none ∧
    (inHandler.seatAt 0 0).tm = true ∧ (inHandler.seatAt 0 0).kvHeld = none ∧
    (zero.seatAt 0 0).file.ctl.trapvec.extractLsb' 4 51 = 0 := by decide +kernel
theorem witness_TrapEntryFrame : (withHandler.seatAt 0 0).kvHeld = none ∧ (withHandler.seatAt 0 0).tm = false ∧
    (withHandler.seatAt 0 0).file.ctl.trapvec.extractLsb' 4 51 ≠ 0 := by decide +kernel
/-- R290, R435: CAUSE, FADDR, EPC and the pc of a software trap's entry. -/
theorem test_trapEntry : (let t := inHandler.seatAt 0 0; (t.file.ctl.cause, t.file.ctl.faddr, t.file.ctl.epc, t.pc)) =
    (0x05, 0x123, 0x10010, 0x2000) := by decide +kernel

def badSnap : State := inHandler.modF (fun t => { t with live := some (List.replicate 256 0xFF) })
def outside : State := withHandler
theorem witness_EretRestoresTheSnapshot :
    Ready 0 [] ((List.range 8).map (fun i => .s (BitVec.ofNat 6 (56 + i)))) inHandler ∧ inHandler.srcTm = true ∧
    snapOk inHandler.src.ctl.rot (inHandler.fseat.live.getD (List.replicate 256 0)) = true ∧
    Ready 0 [] ((List.range 8).map (fun i => .s (BitVec.ofNat 6 (56 + i)))) badSnap ∧ badSnap.srcTm = true ∧
    snapOk badSnap.src.ctl.rot (badSnap.fseat.live.getD (List.replicate 256 0)) = false ∧ outside.srcTm = false ∧
    okAnd (outside.seatPieces outside.src.ctl.snapbase 256 .read) (fun ps =>
      okAnd (outside.readScalar ps) (fun bs => snapOk outside.src.ctl.rot bs) && (outside.poisonHit ps).isNone) = true := by
  and_intros <;> first | exact ready_of (by decide +kernel) | decide +kernel
theorem test_eret : does (.eret 0) inHandler (fun t => (t.fseat.tm, t.fseat.npc)) = some (false, 0x1001) := by decide +kernel

theorem witness_SoftwareTrapIsTakenAfterItsBundle : Ready 0 [] [] withHandler ∧
    (let s := withHandler.modF (fun t => { t with deferred := some { cause := 5, faddr := 0, slot := 0, pblk := false, epc := 1 } })
     (s.seatAt 0 0).run = .running ∧ (s.seatAt 0 0).pair = none ∧ (s.core 0).stopping = none ∧ (s.seatAt 0 0).firm = false ∧
     (s.seatAt 0 0).deferred = some { cause := 5, faddr := 0, slot := 0, pblk := false, epc := 1 }) := by
  and_intros <;> first | exact ready_of (by decide +kernel) | decide +kernel

theorem witness_HandlerInstructionsComplete : Ready 0 [] [] inHandler ∧ withHandler.fseat.live = none ∧
    inHandler.fseat.live.isSome = true ∧ okAnd (inHandler.seatPieces inHandler.src.ctl.snapbase 256 .write) (fun ps => got (inHandler.awaitSo ps) () &&
      got ((inHandler.install true ps).psqRoom inHandler.src.ctl.snapbase) ()) = true ∧
    inHandler.fseat.snapDone = false ∧ (inHandler.modF (fun t => { t with snapDone := true })).fseat.snapDone = true := by
  and_intros <;> first | exact ready_of (by decide +kernel) | decide +kernel
theorem test_handlerCompletes : [Instr.snapst 0, .snaprel 0, .eret 0, .trap 7 0].all (issuesB inHandler) = true := by decide +kernel

def persSeat : State := five.modF (fun t => { t with cont := { t.cont with w0 := 2 } })
def odd6 : State := setS [(6, 0x10001)] zero
theorem witness_SeatsLeaveTheirProgram : Ready 0 [] [] five ∧ Ready 0 [.s 6] [] five ∧ Ready 0 [.s 6] [] persSeat ∧
    persSeat.fseat.pers = true ∧ five.fseat.pers = false ∧ five.srcTm = false ∧ five.fseat.seq = none ∧
    stageAct five.src.ctl.stage = false ∧ five.fseat.hostFailed = none ∧ five.hostAcked (fun _ => true) = true ∧ stageAct inLoop.src.ctl.stage = true ∧
    inLoop.fseat.pers = false ∧ inLoop.srcTm = false ∧ Ready 0 [.s 6] [] inLoop ∧ (odd6.rS 6).toNat % 128 ≠ 0 ∧ Ready 0 [.s 6] [] odd6 ∧
    (five.rS 6).toNat % 128 = 0 ∧ okAnd (five.seatPieces (five.rS 6) 128 .write) (fun ps => ps.length == 1 &&
      got (five.awaitSo ps) ()) = true := by
  and_intros <;> first | exact ready_of (by decide +kernel) | decide +kernel
theorem test_leaveCompletes : [Instr.yield 0, .suspend 0, .halt 0].map (fun i => does i five (fun t => match t.fseat.run with
    | .leaving _ => true
    | _ => false)) = [some true, some true, some true] := by decide +kernel
theorem test_yieldStays : does (.yield 0) persSeat (fun t => t.fseat.run == .running) = some true := by decide +kernel

def ownQueue : State := { five with fe := { five.fe with owner := [(3, (1, 0))] } }
theorem witness_TimelineInstructionsComplete : Ready 0 [.s 1] [] ownQueue ∧ ownQueue.tlReached 3 true (ownQueue.rS 0) = true ∧
    ownQueue.tlReached 3 false (ownQueue.rS 1) = false ∧ Ready 0 [.s 0] [] ownQueue ∧ ownQueue.fseat.pers = false ∧ ownQueue.srcTm = false ∧
    stageAct ownQueue.src.ctl.stage = false ∧ ownQueue.fseat.seq = none ∧ (0x3 : Nat) < 0x400 ∧
    alook 3 ownQueue.fe.owner = some (ownQueue.fasid, 0) ∧ ownQueue.src.ctl.phaseEn = false ∧
    ownQueue.commitF.drained (fun _ => true) 0 = true ∧ ownQueue.commitF.hostQuiet = true ∧ ownQueue.commitF.fseat.hostFailed = none ∧ ownQueue.commitF.certRoom 3 = true ∧
    (0x400 : Nat) ≤ (0x400 : BitVec 12).toNat ∧ alook 4 ownQueue.fe.owner = none := by
  and_intros <;> first | exact ready_of (by decide +kernel) | decide +kernel
theorem test_timelineCompletes : [Instr.waittl 0 3 0 0, .waittlSusp 0 3 1 0, .sigtl 1 3 0].all (issuesB ownQueue) = true := by decide +kernel
theorem test_sigtl : does (.sigtl 1 3 0) ownQueue (fun t => t.tlReached 3 false 5 && !t.tlReached 3 false 6) = some true := by decide +kernel
theorem test_sigtlOther : cause ownQueue (.sigtl 1 4 0) = 2 := by decide +kernel

/-! Memory. -/

theorem witness_ScalarLoadsComplete : Ready 0 [.s 7] [.s 3] five ∧
    got (five.awaitSpans five.window (five.rS 7) 8) () = true ∧
    okAnd (five.seatPieces (five.rS 7) 8 (regAccess false (five.rS 7) 8)) (fun ps => okB (five.loadScalar 8 ps) && !anyControl ps && !anyHost ps &&
      (five.poisonHit ps).isNone) = true := by
  and_intros <;> first | exact ready_of (by decide +kernel) | decide +kernel
theorem test_loadsComplete : ([0, 1].flatMap (fun sp => [Instr.ldB 3 7 sp 0 0, .ldBs 3 7 sp 1 0, .ldH 3 8 sp 0 0, .ldHs 3 7 sp 0 0,
    .ldW 3 7 sp 0 0, .ldWs 3 7 sp 0 0, .ldD 3 7 sp 0 0])).all (issuesB five) = true := by decide +kernel
/-- R264, R11: the first bytes of the example's third bundle, 00 02 00 FC 00 00 00 00, read little-endian. -/
theorem test_loadValue : [loadValue 4 false [0x00, 0x02, 0x00, 0xFC], loadValue 4 true [0x00, 0x02, 0x00, 0xFC], loadValue 1 true [0x80]] =
    [0xFC000200, 0xFFFFFFFFFC000200, 0xFFFFFFFFFFFFFF80] := by decide +kernel

/-- Virtual page 0x20000 of ASID 1 maps the control region at its offset 0. -/
def withCtl : State :=
  setS [(5, 0x20000)] (five.putHomes 0x220010 (natToBytes 8 (0x1897 + 0x40000000000)))
theorem witness_ScalarStoresComplete : Ready 0 [.s 1, .s 7] [] five ∧ got (five.awaitSpans five.window (five.rS 7) 8) () = true ∧
    okAnd (five.seatPieces (five.rS 7) 8 (regAccess true (five.rS 7) 8)) (fun ps => !anyControl ps && got (five.awaitSo ps) () &&
      got ((five.install true ps).psqRoom (five.rS 7)) ()) = true := by
  and_intros <;> first | exact ready_of (by decide +kernel) | decide +kernel
theorem witness_ControlStore : Ready 0 [.s 1, .s 5] [] withCtl ∧ okAnd (withCtl.seatPieces (withCtl.rS 5) 8 (regAccess true (withCtl.rS 5) 8))
    (fun ps => ps.length == 1 && got (withCtl.awaitSo ps) () && ps.all (fun p => region p.pa == .control &&
      okB ((withCtl.install true [p]).seatCtlWrite p.pa 8 0))) = true := by
  and_intros <;> first | exact ready_of (by decide +kernel) | decide +kernel
theorem test_storesComplete : ([0, 1].flatMap (fun sp => [Instr.stB 1 7 sp 0 0, .stH 1 8 sp 0 0, .stW 1 7 sp 0 0, .stD 1 7 sp 0 0])).all
    (issuesB five) = true := by decide +kernel
/-- R11, R93: a store across a line, read back. -/
theorem test_store : does (.stD 1 7 0 60 0) (setS [(1, 0x1122334455667788)] five) (fun t =>
    [0x30003B, 0x30003C, 0x30003D, 0x300043, 0x300044].map t.byteAt) = some [0, 0x88, 0x77, 0x11, 0] := by decide +kernel

theorem witness_ScalarStoreFrame : (8 : Nat) ∈ [1, 2, 4, 8] ∧ five.src.ctl.phaseEn = false ∧
    okAnd (five.seatPieces (five.rS 7 + (0 : BitVec 13).signExtend 64) 8 (regAccess true (five.rS 7) 8)) (fun ps => !anyControl ps && !anyHost ps) = true ∧
    five.resole.redirect = [] ∧ five.lines = [] ∧ (∃ t, Issues (.stD 1 7 0 0 0) five t) ∧ five.rP 0 = true := by
  and_intros <;> first | exact issues_of (by decide +kernel) | decide +kernel

def oneDirty : State := { zero with lines := [(3, { data := List.replicate 64 7, tag := 0, owner := some 0 })], l1 := [(3, [3])] }
theorem witness_MemoryReadsAfterWrites : (∀ l ∈ oneDirty.lines, l.2.data.length = 64) ∧ oneDirty.resole.redirect = [] ∧
    (192 : Nat) ≠ 193 := by decide +kernel

theorem witness_ScratchpadWindowMaps : (exWindow true).map 0xC000 = none ∧ (exWindow true).map 0xBFFF = some 0x15FFF ∧
    (exWindow false).map 0xBFFF = some 0x1BFFF ∧ (exWindow true).dbl = true ∧ (exWindow true).half = true ∧ (exWindow false).half = false ∧
    (List.range 64).all (fun i => ((exWindow false).map (0xBFC0 + BitVec.ofNat 64 i)).isSome) = true ∧
    (List.range 64).any (fun i => ((exWindow false).map (0xBFE0 + BitVec.ofNat 64 i)).isNone) = true ∧ codeSix 0x11 = true ∧
    tripleRest [(0x300, 0x7F11#16)] = [0x301, 0x302] := by
  decide +kernel

/-! Vectors, matrix, copies. -/

def vecs : State :=
  setV [(1, vr 2 2 [(0x3F800000, 3), (0x40000000, 1)]), (2, vr 2 2 [(0x3F000000, 4)]), (3, vr 2 2 [(1, 1), (0, 3)]), (4, vr 2 2 [(0, 4)]),
        (5, vr 1 2 [(0x3F800000, 2)]), (6, vr 2 1 [(0x3F800000, 1), (0x40000000, 1)]), (7, vr 16 64 [(0x3F800000, 1024)])]
    (five.modCtl (fun c => { c with shape := 0x0202 }))

theorem witness_VectorTwoSourceCompletes : Ready 0 (maskSrcs (.v 1) (.v 2) 4 3 0) [.v 4] vecs ∧
    Ready 0 (maskSrcs (.v 1) (.v 2) 4 0 0) [.v 4] vecs ∧ Ready 0 (maskSrcs (.v 1) (.s 1) 4 3 0) [.v 4] vecs ∧
    ((vecs.rV 1).rows, (vecs.rV 1).cols) = vecs.shape ∧ ((vecs.rV 2).rows, (vecs.rV 2).cols) = vecs.shape ∧
    ((vecs.rV 3).rows, (vecs.rV 3).cols) = vecs.shape ∧ ((vecs.rV 4).rows, (vecs.rV 4).cols) = vecs.shape ∧
    okB (ewCompute (fun x => fAdd (nth 0 0 x) (nth 0 1 x)) [(vecs.rV 1).runs, (vecs.rV 2).runs] (some (vecs.rV 3).runs)
      (some (vecs.rV 4).runs)) = true ∧
    okB (ewCompute (fun x => fDiv (nth 0 0 x) (nth 0 1 x)) [(vecs.rV 1).runs, [((vecs.rS 1).extractLsb' 0 32, (vecs.rV 1).ll)]]
      (some (vecs.rV 3).runs) (some (vecs.rV 4).runs)) = true := by
  and_intros <;> first | exact ready_of (by decide +kernel) | decide +kernel
theorem test_twoSourceComplete : [Instr.vadd 4 1 2 3 0 0, .vsub 4 1 2 3 1 0, .vmul 4 1 2 0 0 0, .vmin 4 1 2 3 0 0, .vmax 4 1 2 3 0 0,
    .vdiv 4 1 2 3 0 0, .viadd 4 1 2 3 0 0, .visub 4 1 2 3 0 0, .vimul 4 1 2 3 0 0, .vand 4 1 2 3 0 0, .vor 4 1 2 3 0 0,
    .vxor 4 1 2 3 0 0, .vshl 4 1 2 3 0 0, .vshr 4 1 2 3 0 0, .vaddBcast 4 1 1 3 0 0, .vsubBcast 4 1 1 0 0 0, .vmulBcast 4 1 1 3 1 0,
    .vminBcast 4 1 1 3 0 0, .vmaxBcast 4 1 1 3 0 0, .vdivBcast 4 1 1 3 0 0, .viaddBcast 4 1 1 3 0 0, .visubBcast 4 1 1 3 0 0,
    .vimulBcast 4 1 1 3 0 0, .vandBcast 4 1 1 3 0 0, .vorBcast 4 1 1 3 0 0, .vxorBcast 4 1 1 3 0 0, .vshlBcast 4 1 1 3 0 0,
    .vshrBcast 4 1 1 3 0 0].all (issuesB vecs) = true := by decide +kernel

theorem witness_VectorOneSourceCompletes : Ready 0 (maskSrcs (.v 1) (.p 0) 4 3 0) [.v 4] vecs ∧ Ready 0 (maskSrcs (.v 1) (.v 2) 4 0 0) [.v 4] vecs ∧
    Ready 0 [.v 1, .v 2, .v 3] [.v 4] vecs ∧ Ready 0 (maskSrcs (.p 0) (.s 1) 4 3 1) [.v 4] vecs ∧
    Ready 0 (maskSrcs (.p 0) (.p 0) 4 3 1) [.v 4] vecs ∧ (3 : BitVec 5) ≠ 0 ∧
    [fAbs, fNeg, fRcp, fRsq, fSqrt, fExp2, fLog2, cvtFi, cvtFit, cvtIf, cvtFb, cvtFt8, cvtFt6].all (fun f =>
      okB (ewCompute (fun x => f (nth 0 0 x)) [(vecs.rV 1).runs] (some (vecs.rV 3).runs) (some (vecs.rV 4).runs))) = true ∧
    okB (ewCompute (fun x => fFma (nth 0 0 x) (nth 0 1 x) (nth 0 2 x)) [(vecs.rV 1).runs, (vecs.rV 2).runs, (vecs.rV 3).runs] none none) = true := by
  and_intros <;> first | exact ready_of (by decide +kernel) | decide +kernel
theorem test_oneSourceComplete : [Instr.vabs 4 1 3 0 0, .vneg 4 1 3 1 0, .vrcp 4 1 0 0 0, .vrsq 4 1 3 0 0, .vsqrt 4 1 3 0 0, .vexp2 4 1 3 0 0,
    .vlog2 4 1 3 0 0, .vcvtFi 4 1 3 0 0, .vcvtFit 4 1 3 0 0, .vcvtIf 4 1 3 0 0, .vcvtFb 4 1 3 0 0, .vcvtFt8 4 1 3 0 0, .vcvtFt6 4 1 3 0 0,
    .vmov 4 1 3 0 0, .vcmpEq 4 1 2 0, .vcmpNe 4 1 2 0, .vcmpLt 4 1 2 0, .vcmpLe 4 1 2 0, .vcmpGt 4 1 2 0, .vcmpGe 4 1 2 0,
    .vcmpUn 4 1 2 0, .vfma 4 1 2 3 0, .vfms 4 1 2 3 0, .vsel 4 1 2 3 0, .vsplat 4 1 3 1 0, .viota 4 3 0 0].all (issuesB vecs) = true := by
  decide +kernel
theorem test_shapeMismatch : cause vecs (.vadd 4 1 5 0 0 0) = 0x13 := by decide +kernel

theorem witness_ElementwiseRuleIsPointwise : (vecs.rV 1).runs.all (fun r => decide (0 < r.2)) = true ∧
    (expand (vecs.rV 1).runs).length = (expand (vecs.rV 2).runs).length := by decide +kernel

theorem witness_VectorReductionsAndMovesComplete : Ready 0 [.v 1] [.v 4] vecs ∧ Ready 0 [.v 1, .s 9] [.s 3] vecs ∧
    Ready 0 [.v 4, .s 9, .s 1] [.v 4] vecs ∧ Ready 0 [.v 1] [.s 3] vecs ∧ Ready 0 [.v 1, .v 2] [.v 4] vecs ∧
    (vecs.rV 1).ll = vecs.shape.1 * vecs.shape.2 ∧ ((vecs.rV 5).rows, (vecs.rV 5).cols) = (1, vecs.shape.2) ∧
    vecs.shape.1 * (vecs.rV 5).occ ≤ 1024 ∧ ((vecs.rV 6).rows, (vecs.rV 6).cols) = (vecs.shape.1, 1) ∧ 3 ≤ vecs.shape.1 * vecs.shape.2 ∧
    (vecs.rV 1).runs = (0x3F800000, 3) :: [(0x40000000, 1)] := by
  and_intros <;> first | exact ready_of (by decide +kernel) | decide +kernel
theorem test_reductionsComplete : [Instr.vmov 4 1 0 0 0, .vredSum 4 1 0, .vredMax 4 1 0, .vredMin 4 1 0, .vrrowSum 4 1 0, .vrrowMax 4 1 0,
    .vrrowMin 4 1 0, .vscanSum 4 1 0, .vscanMax 4 1 0, .vscanMin 4 1 0, .vrcoal 4 1 31 0, .vreshape 4 1 0, .vbrow 4 5 0, .vbcol 4 6 0,
    .vextr 3 1 9 0, .vins 4 9 1 0, .vcnt 3 3 0, .vocc 3 1 0, .vattc 4 1 2 0].all (issuesB vecs) = true := by decide +kernel
theorem test_vextr : does (.vextr 3 1 9 0) (setS [(9, 3)] vecs) (sVal 3) = some 0x40000000 := by decide +kernel
theorem test_vscan : does (.vscanSum 4 1 0) vecs (vRuns 4) = some (2, 2, [(0x3F800000, 1), (0x40000000, 1), (0x3F800000, 1), (0x40400000, 1)]) := by
  decide +kernel

theorem witness_SpecialValuesAndTheirFlags : isNan32 0x7F800001 = true ∧ isNan32 0xFFFFFFFF = true ∧ isNan32 0xFF800000 = false ∧
    (0xFF800000 : W32).getLsbD 31 = true ∧ (0xFF800000 : W32) ≠ 0x80000000 := by decide +kernel

/-- The state after instructions that answer one. -/
def run (s : State) (l : List Instr) : State := l.foldl (fun s i => match exec i s with
  | .next t => t
  | _ => s) s

def patterned : State :=
  setV [(8, vr 1 3 [(2, 1), (0x2001, 1), (1, 1)]), (9, vr 1 2 [(0x81, 1), (0, 1)])] vecs
theorem witness_PermutesComplete : Ready 0 [.v 8] [] patterned ∧ patHeaderOk (runAt (patterned.rV 8).runs 0) = true ∧
    (List.range (patSegs (runAt (patterned.rV 8).runs 0))).all (fun i => decide (i + 1 < (patterned.rV 8).ll) &&
      (runAt (patterned.rV 8).runs (i + 1)).extractLsb' 24 8 == 0) = true ∧
    Ready 0 [.v 9] [] patterned ∧ patHeaderOk (runAt (patterned.rV 9).runs 0) = false ∧ Ready 0 [.v 1] [.v 4] patterned ∧
    alook (64 * patterned.fcore.bank + 5) patterned.fcore.patterns = none ∧
    (let s := run patterned [.patld 8 5 0, .patsw 0]
     someAnd (alook (64 * s.fcore.bank + 5) s.fcore.patterns) (fun p => okAnd (permute p 1 (s.rV 1) s.shape) (fun out =>
       decide ((ofElems out).length ≤ 1024))) = true) := by
  and_intros <;> first | exact ready_of (by decide +kernel) | decide +kernel
theorem test_vperm : vRuns 4 (run patterned [.patld 8 5 0, .patsw 0, .vperm 4 1 5 0]) =
    (2, 2, [(0x3F800000, 1), (0x40000000, 1), (0x3F800000, 2)]) := by decide +kernel
theorem test_patternsComplete : [issuesB patterned (.patld 8 5 0), issuesB patterned (.patsw 0),
    issuesB (run patterned [.patld 8 5 0, .patsw 0]) (.vperm 4 1 5 0)] = [true, true, true] := by decide +kernel

theorem witness_VectorFrame : Instr.pos (.vadd 4 1 2 0 0 0) = some 1 ∧ (∃ t, Issues (.vadd 4 1 2 0 0 0) vecs t) ∧
    Instr.pos (.vocc 3 1 0) = some 1 ∧ ∃ t, Issues (.vocc 3 1 0) vecs t := by
  and_intros <;> first | exact issues_of (by decide +kernel) | decide +kernel

/-! Vector memory instructions: register 7 holds 0x10000, register 8 an odd address. The block asks for a stride of 16. -/

def withStride : State := withBlock [0, 16, 0, 0] vecs
def withStoreBlock : State := withBlock [0, 16, 0, 0x7F000000] vecs
def withRunBlock : State := withBlock [0, 0, 4, 0] vecs
def withOneRun : State := withBlock [0, 0, 1, 0] vecs
def blockOf_ (s : State) (p : Params → Bool) : Bool := okAnd s.params p

theorem witness_VectorLoadsGoOnTheirWay : Ready 0 [.s 7] [.v 4] vecs ∧ misaligned (fselCode 0) (vecs.rS 7) none false 2 2 = none ∧
    okAnd (vecs.spRanges (vecs.tileAsk 0 (vecs.rS 7) (fselCode 0) none)) (fun rs => rs.all (fun r => got (vecs.awaitSpans vecs.window r.1 r.2) ())) = true ∧
    okB ((vecs.tileAsk 0 (vecs.rS 7) (fselCode 0) none).ranges.mapM (fun r => vecs.seatPieces r.1 r.2 .read)) = true ∧
    okAnd (vecs.spRanges (runAsk 0x10000 1024 0)) (fun rs => rs.all (fun r => got (vecs.awaitSpans vecs.window r.1 r.2) ())) = true ∧
    okB ((runAsk 0x10000 1024 0).ranges.mapM (fun r => vecs.seatPieces r.1 r.2 .read)) = true ∧
    misaligned (fselCode 0) (vecs.rS 8) none false 2 2 = some 0x10001 ∧ (vecs.rS 7).toNat % 64 = 0 ∧
    Ready 0 (markerSrcs withStride.focus.block ++ [.s 7]) [.v 4] withStride ∧
    blockOf_ withStride (fun p => vBlockOk p true false (some withStride.shape) &&
      (misaligned (fselCode 0) (withStride.rS 7) (some p.stride) false 2 2).isNone) = true ∧
    Ready 0 (markerSrcs withRunBlock.focus.block ++ [.s 7]) [.v 4] withRunBlock ∧
    blockOf_ withRunBlock (fun p => vBlockOk p true true none) = true := by
  and_intros <;> first | exact ready_of (by decide +kernel) | decide +kernel
/-- A load has gone on its way, and arrives. -/
def flying (i : Instr) : State := run vecs [i]
def landed (i : Instr) : State := (flying i).modF (fun t => { t with issued := 16 })
theorem witness_LoadsArrive : someAnd ((landed (.vld 4 7 0 0 0 0)).op 0 1) (fun o => match o with
      | .vload o => o.waits.isEmpty && (let t := (landed (.vld 4 7 0 0 0 0)).seatAt 0 0
          t.mayArrive o.least (t.awaitsV o.reg) false false)
      | _ => false) = true ∧
    someAnd ((landed (.ldD 3 7 0 0 0)).op 0 1) (fun o => match o with
      | .load o => (let t := (landed (.ldD 3 7 0 0 0)).seatAt 0 0
          t.mayArrive o.least (t.awaitsS o.reg.toNat) false (decide (56 ≤ o.reg.toNat)))
      | _ => false) = true := by decide +kernel
theorem test_vectorLoadsComplete : [issuesB vecs (.vld 4 7 0 0 0 0), issuesB vecs (.vld 4 7 1 2 0 0), issuesB vecs (.vlds 4 7 0 9 0 0),
    issuesB vecs (.vldRun 4 7 0 0 0), issuesB vecs (.vldRun 4 7 1 0 0), issuesB withStride (.vld 4 7 0 0 1 0), issuesB withStride (.vlds 4 7 1 0 1 0),
    issuesB withRunBlock (.vldRun 4 7 0 1 0)] = [true, true, true, true, true, true, true, true] := by decide +kernel
theorem test_loadsArrive : [seen (exec (.vectorLoadComplete 0 1) (landed (.vld 4 7 0 0 0 0))) (vRuns 4),
    seen (exec (.vectorLoadComplete 0 1) (landed (.vldRun 4 7 0 0 0))) (fun _ => (1, 1, [])),
    seen (exec (.loadComplete 0 1) (landed (.ldD 3 7 0 0 0))) (fun _ => (1, 1, []))] =
    [some (2, 2, [(0, 4)]), some (1, 1, []), some (1, 1, [])] := by decide +kernel

theorem witness_RawTilesLoadTheirWords : someAnd ((flying (.vld 4 7 0 9 0 0)).op 0 1) (fun o => match o with
      | .vload o => o.code == 0 && o.perRow == 2 &&
          o.segs == [(0x10000, [0, 0]), (0x10008, [0, 0])].map (fun (r : Word × List W32) => (r.1, r.2.flatMap (fun w => natToBytes 4 w.toNat)))
      | _ => false) = true := by decide +kernel

theorem witness_StoredRunListsLoadBack : (let x := vecs.rV 1
    decide (1 ≤ x.rows ∧ x.rows ≤ 64 ∧ 1 ≤ x.cols ∧ x.cols ≤ 64 ∧ 1 ≤ x.occ ∧ x.occ ≤ 1024) && x.runs.all (fun r => decide (1 ≤ r.2 ∧ r.2 ≤ 4096)) &&
      (x.ll == x.rows * x.cols) && (x.runs.foldl (fun n r => n + r.2) 0 == x.rows * x.cols)) = true := by decide +kernel

theorem witness_VectorStoresAndTagsComplete : Ready 0 [.v 1, .s 7] [] vecs ∧ misaligned (fselCode 0) (vecs.rS 7) none true 2 2 = none ∧
    ((vecs.tileSegs (vecs.rV 1) (vecs.rS 7) (fselCode 0) none 127).all (fun r =>
      got (vecs.awaitSpans vecs.window r.1 r.2.length) () &&
      okAnd (vecs.seatPieces r.1 r.2.length .write) (fun ps => got (vecs.awaitSo ps) () && got ((vecs.install true ps).psqRoom (vecs.rS 7)) ()))) = true ∧
    misaligned (fselCode 0) (vecs.rS 8) none true 2 2 = some 0x10001 ∧ (vecs.rV 1).occ ≤ 1024 ∧
    Ready 0 (markerSrcs withStoreBlock.focus.block ++ [.v 1, .s 7]) [] withStoreBlock ∧
    blockOf_ withStoreBlock (fun p => vBlockOk p false false (some (2, 2)) &&
      (misaligned (fselCode 0) (withStoreBlock.rS 7) (some p.stride) true 2 2).isNone) = true ∧
    blockOf_ withRunBlock (fun p => vBlockOk p false true (some (2, 2)) && decide ((withRunBlock.rV 1).occ ≤ p.aux.toNat)) = true ∧
    blockOf_ withOneRun (fun p => vBlockOk p false true (some (2, 2)) && decide (p.aux.toNat < (withOneRun.rV 1).occ)) = true ∧
    (let n := (runListBytes (withOneRun.rV 1)).length
     got (withOneRun.awaitSpans withOneRun.window (withOneRun.rS 7) n) () && okB (withOneRun.seatPieces (withOneRun.rS 7) n .write)) = true ∧
    Ready 0 (markerSrcs withOneRun.focus.block ++ [.v 1, .s 7]) [] withOneRun ∧
    Ready 0 [.s 7] [.s 3] vecs ∧ Ready 0 [.s 7, .s 1] [] vecs ∧ got (vecs.awaitSpans vecs.window (blockOf (vecs.rS 7)) 64) () = true ∧
    okAnd (vecs.seatPieces (vecs.rS 7) 1 .write) (fun ps => match ps with
      | q :: qs => got (vecs.awaitSo (q :: qs)) () && region q.pa != .host &&
          got (((vecs.install true (q :: qs)).trace 0 0 3 (vecs.rS 7)).psqRoom (vecs.rS 7)) ()
      | [] => false) = true := by
  and_intros <;> first | exact ready_of (by decide +kernel) | decide +kernel
theorem test_vectorStoresComplete : [issuesB vecs (.vst 1 7 0 0 0 0), issuesB vecs (.vst 1 7 1 9 0 0), issuesB vecs (.vstRun 1 7 0 0 0),
    issuesB vecs (.vstRun 1 7 1 0 0), issuesB withStoreBlock (.vst 1 7 0 1 1 0), issuesB withRunBlock (.vstRun 1 7 1 1 0), issuesB vecs (.tagrd 3 7 0 0),
    issuesB vecs (.tagrd 3 7 1 0), issuesB vecs (.tagwr 7 1 0 0), issuesB vecs (.tagwr 7 1 1 0)] = List.replicate 10 true := by decide +kernel
theorem test_vstRunFull : cause withOneRun (.vstRun 1 7 0 1 0) = 0x16 := by decide +kernel
theorem test_tagOfStore : (let t := run vecs [.tagwr 7 1 0 0]; (t.tagAt 0x300000, t.tagAt 0x300040)) = (5, 0) := by decide +kernel

/-- A page of the host's memory at virtual 0x10000, read and written through an SO leaf. -/
def hostPage : State := vecs.putHomes 0x220008 (natToBytes 8 (0x1817 + 0x800000000000))
theorem witness_HostTagWrite : okAnd (hostPage.seatPieces (hostPage.rS 7) 1 .write) (fun ps => match ps with
    | q :: qs => got (hostPage.awaitSo (q :: qs)) () && region q.pa == .host
    | [] => false) = true := by decide +kernel
/-- A vector load that waits for a byte of the host, read through an RC page. -/
def openLoad : State := (flying (.vld 4 7 0 0 0 0)).modFcore (fun c => { c with ops := c.ops.map (fun e => match e.2 with
    | .vload o => (e.1, .vload { o with waits := [{ req := 9, seg := 0, off := 0, len := 1, at_ := 0, ord := 0, own := [] }] })
    | _ => e) })

def claimed_ : State := run vecs [.osclaim 2 0, .osclaim 3 0]
def releasing : State := run claimed_ [.osrel 2 0]
def otherHolds : State := claimed_.modFcore (fun c => c.modSlot 3 (fun o => { o with state := .claimed 1 }))
theorem witness_OperandSlotsAreClaimedAndReleased : Ready 0 [] [] vecs ∧ (vecs.fcore.slot 2).state = .free ∧ Ready 0 [] [] claimed_ ∧
    (claimed_.fcore.slot 2).state = .claimed claimed_.focus.seat ∧ (otherHolds.fcore.slot 3).state = .claimed 1 ∧ (1 : Nat) ≠ otherHolds.focus.seat ∧
    Ready 0 [] [] otherHolds ∧ Ready 0 [] [] releasing ∧ ((releasing.core 0).slot 2).state = .releasing ∧ releasing.slotInUse 0 2 = false ∧
    (OpSlot.reset.lastAsid ≠ vecs.fasid) := by
  and_intros <;> first | exact ready_of (by decide +kernel) | decide +kernel
theorem test_slotsComplete : [issuesB vecs (.osclaim 15 0), issuesB vecs (.osclaimT 0 0), issuesB claimed_ (.osclaim 2 0), issuesB claimed_ (.osrel 3 0),
    waitsB otherHolds (.osclaim 3 0), waitsB releasing (.osclaimT 2 0), cause otherHolds (.osclaimT 3 0) == 0x35, cause vecs (.osrel 2 0) == 0x34,
    seen (exec (.slotFree 0 2) releasing) (fun t => ((t.core 0).slot 2).state) == some .free] = List.replicate 9 true := by decide +kernel

/-- An operand pair of one element each: 2.0 and 4.0 in T8 (the example of a follow-on MMA). -/
def operands : State :=
  (claimed_.modFcore (fun c => (c.modSlot 2 (fun o => { o with data := [(0, 0x50)], tags := (List.range 192).map (fun k => (k, 0x7F10)) })).modSlot 3
    (fun o => { o with data := [(0, 0x60)], tags := (List.range 192).map (fun k => (k, 0x7F10)) })))
theorem witness_MatrixMultiplyCompletes : Ready 0 [] [] operands ∧ (operands.fcore.slot 2).state = .claimed 0 ∧
    (operands.fcore.slot 3).state = .claimed 0 ∧ (operands.leaf 0 4).arrived = false ∧ operands.seqOnAcc 0 1 = false ∧
    okB (operands.awaitScore (.rows 2 0 63)) = true ∧ okB (operands.awaitScore (.rows 3 0 63)) = true ∧ operands.fcore.arrayFull = false ∧
    operands.fcore.mmaCheck 2 3 64 64 operands.fresh = none ∧ (vecs.fcore.slot 2).state = .free ∧
    (let s := run operands [.mma 1 2 3 4 0]
     someAnd (s.op 0 1) (fun o => match o with
       | .mma o => o.waits.isNone && !(s.core 0).accBusy o.acc 1 && o.last && o.failed.isNone && o.status == 0 && !(s.core 0).mmaPoison o
       | _ => false)) = true := by
  and_intros <;> first | exact ready_of (by decide +kernel) | decide +kernel
theorem test_mmaComplete : [issuesB operands (.mma 1 2 3 4 0), issuesB operands (.mmaz 3 3 2 15 0), cause vecs (.mma 1 2 3 4 0) == 0x34] =
    [true, true, true] := by decide +kernel

def withAccst : State := withBlock [0x00020002, 64, 0, 0x7F040000] vecs
theorem witness_AccumulatorMovesComplete : vecs.seqOnAcc 0 1 = false ∧ Ready 0 [] [.v 4] vecs ∧ Ready 0 [.v 7] [] vecs ∧
    ((vecs.rV 7).rows, (vecs.rV 7).cols) = (16, 64) ∧ ((vecs.rV 1).rows, (vecs.rV 1).cols) ≠ (16, 64) ∧ Ready 0 [.v 1] [] vecs ∧ Ready 0 [] [] vecs ∧
    Ready 0 (markerSrcs withAccst.focus.block ++ [.s 7]) [] withAccst ∧
    blockOf_ withAccst (fun p => accstOk p && (match p.leaf with
        | some b => !(withAccst.leaf 0 b).arrived
        | none => true) &&
      (let o := withAccst.accstOf p 1 (withAccst.rS 7) false
       (misaligned o.code (withAccst.rS 7) (some p.stride) true p.rows p.cols).isNone && okB withAccst.awaitEntry &&
       okB (withAccst.awaitScore (spadScore o.win o.segs)) &&
       okB (o.segs.mapM (fun r => withAccst.pathPieces .write r.1 r.2)))) = true ∧
    (withAccst.trace 0 0 3 (withAccst.rS 7)).src.ctl.phaseEn = false ∧
    (let r := (withAccst.modCtl (fun c => { c with phaseEn := true })).trace 0 0 3 (withAccst.rS 7)
     r.src.ctl.phaseEn && okB (r.psqRoom (withAccst.rS 7)) && !r.fcore.accBusy 1 r.nextOp) = true ∧ vecs.fcore.ops = [] ∧
    (expand (vecs.rV 7).runs).length = 1024 ∧
    (let s := run withAccst [.accst 1 7 0 0]
     someAnd (s.op 0 1) (fun o => match o with
       | .accst o => o.data.isSome && o.hostOut == 0 && !o.maps.any (fun m => s.pinBusy m.1) && s.mxGoes 0 1 o
       | _ => false)) = true := by
  and_intros <;> first | exact ready_of (by decide +kernel) | decide +kernel
theorem test_accumulatorComplete : [issuesB vecs (.accrd 4 1 3 0 0), issuesB vecs (.accrd 4 1 0 1 0), issuesB vecs (.accwr 7 1 3 0), issuesB vecs (.accz 1 0),
    issuesB withAccst (.accst 1 7 0 0), issuesB withAccst (.accst 1 7 1 0)] = List.replicate 6 true := by decide +kernel

theorem witness_FormatSwapAndCacheInstructionsComplete : Ready 0 [.s 1] [] vecs ∧ Ready 0 [.v 1, .s 1] [] vecs ∧
    vecs.opsBefore.any (fun e => e.2.decodes) = false ∧ Ready 0 [] [] vecs ∧ Ready 0 [.s 7, .s 1] [] vecs ∧
    (let s := flying (.vld 4 7 0 7 0 0)
     s.opsBefore.any (fun e => e.2.decodes)) = true ∧ Ready 0 [.v 1, .s 1] [] (flying (.vld 4 7 0 7 0 0)) ∧
    okB (vecs.seatPieces (vecs.rS 7) (maintLen (vecs.rS 1)) .regRead) = true ∧ okB (vecs.cinvPieces (segs (vecs.rS 7) (maintLen (vecs.rS 1)))) = true := by
  and_intros <;> first | exact ready_of (by decide +kernel) | decide +kernel
theorem test_formatComplete : [Instr.efrw 1 0, .ctwr 1 1 0, .spswap 0, .prefL1 7 1, .prefL2 7 1, .cflush 7 1, .cinv 7 1].all (issuesB vecs) = true := by
  decide +kernel
theorem test_spswap : (run vecs [.spswap 0]).window.half = true := by decide +kernel

/-! Copies: 2 rows of 64 bytes from virtual memory to scratchpad, to virtual memory and to a slot. -/

def forCopy : State := withBlock [0x00020040, 64, 64, 0x00040000] (setS [(10, 0), (11, 0x10400), (12, 0x102), (13, 0x10800)] claimed_)
def forSlot : State := withBlock [0x00020040, 64, 0, 0x00040000] (setS [(12, 0x102)] claimed_)
def forConvert : State := withBlock [0x00020004, 64, 64, 0x7F140001] forCopy
def copyReadyB (s : State) (o : CopyOp) : Bool :=
  (match o.bar with
    | some b => !(s.leaf s.focus.core b).arrived
    | none => true) && okB s.awaitCopyUnit && (o.dst.isVirt || okB s.awaitEntry) && o.srcScores.all (fun r => okB (s.awaitScore r)) && okB (s.awaitScore o.score) &&
  okB (s.awaitReaders o) && o.fits true true && okB (s.srcHeld o.src) && okB (s.dstHeld o.dst) &&
  okAnd (if o.src.isVirt then s.copyPages .read o.srcRows else .ok ([], [])) (fun rs => (!o.stream || rs.1.all (fun p => region p.pa == .lpddr)) &&
    okAnd (if o.dst.isVirt then s.copyPages .write o.dstRows else .ok ([], [])) (fun ws =>
      let u := (s.install false rs.1).install true ws.1
      u.cpGoes s.focus.core (u.copyWith o rs ws) && (match o.dst with
        | .virt va => okB ((u.trace u.focus.core u.focus.seat 4 va).psqRoom va)
        | _ => true)))
theorem witness_CopiesComplete : Ready 0 (markerSrcs forCopy.focus.block ++ [.s 7, .s 10]) [] forCopy ∧
    blockOf_ forCopy (fun p => copyOk p false 1 && !p.flg.getLsbD 0 && forCopy.cpyFits p 7 10 0 1 && forCopy.cpyFits p 7 11 0 0 &&
      okB (endpointArg 1 (forCopy.rS 10)) && copyReadyB forCopy (forCopy.cpyOf p 7 10 0 1) && copyReadyB forCopy (forCopy.cpyOf p 7 11 0 0) &&
      forCopy.localFits p false 7 10 0 && copyReadyB forCopy { forCopy.localCopy p false 7 10 0 with stream := true }) = true ∧
    Ready 0 (markerSrcs forSlot.focus.block ++ [.s 7, .s 12]) [] forSlot ∧
    blockOf_ forSlot (fun p => copyOk p true 1 && decide (p.rows ≤ 64 ∧ p.cols ≤ 192) && !p.nobar && okB (endpointArg 2 (forSlot.rS 12)) &&
      forSlot.cpyFits p 7 12 0 2 && copyReadyB forSlot (forSlot.cpyOf p 7 12 0 2) && forSlot.mmaFits p 7 2 0 &&
      copyReadyB forSlot (forSlot.mmaCopy p 7 2 0) && okB (forSlot.slotHeld 3)) = true ∧
    forSlot.seqOnAcc 0 1 = false ∧ forSlot.fcore.arrayFull = false ∧
    Ready 0 (markerSrcs forConvert.focus.block ++ [.s 7, .s 10]) [] forConvert ∧
    blockOf_ forConvert (fun p => copyOk p false 1 && p.flg.getLsbD 0 && forConvert.cpyFits p 7 10 0 1 &&
      (let o := forConvert.cpyOf p 7 10 0 1
       okAnd (forConvert.srcPlan o) (fun r => okB (forConvert.copyAlign { o with maps := r.1, lens := r.2 } p.fsel) && copyReadyB forConvert { o with maps := r.1, lens := r.2 }))) = true ∧
    Ready 0 (markerSrcs forCopy.focus.block ++ [.s 7, .s 10, .s 13]) [] forCopy ∧
    okAnd (forCopy.pathPieces .read (forCopy.rS 13) 8) (fun ps => okB (forCopy.readScalar ps) && ((forCopy.installRead ps).poisonHit ps).isNone) = true ∧
    (let s : State := { forCopy with poison := [(0x300800 / 64, true)] }
     okAnd (s.pathPieces .read (s.rS 13) 8) (fun ps => ((s.installRead ps).poisonHit ps).isSome) = true) ∧
    blockOf_ forCopy (fun p => p.rows == 2 && forCopy.localFits p true 7 10 0 &&
      copyReadyB forCopy { forCopy.localCopy p false 7 10 0 with index := some [0, 0], scatter := false } &&
      copyReadyB forCopy { forCopy.localCopy p true 7 10 0 with index := some [0, 0], scatter := true }) = true := by
  and_intros <;> first | exact ready_of (by decide +kernel) | decide +kernel
theorem test_copiesComplete : [issuesB forCopy (.cpy 7 10 0 1 0), issuesB forCopy (.cpy 10 11 1 0 0), issuesB forCopy (.cpy 7 11 0 0 0),
    issuesB forSlot (.cpy 7 12 0 2 0), issuesB forConvert (.cpy 7 10 0 1 0), issuesB forCopy (.cpyw 7 10 0 0), issuesB forSlot (.cpyMma 7 2 3 1 0 1 0 0),
    issuesB forCopy (.cpyg 7 10 13 0 0), issuesB forCopy (.cpys 7 10 13 0 0)] = List.replicate 9 true := by decide +kernel
/-- A copy in flight whose first block may land. -/
def copying : State :=
  run ((forCopy.putHomes 0x300000 (natToBytes 8 0x1122334455667788)).modCtl (fun c => { c with spwin := 0x0001 })) [.cpy 7 10 0 1 0]
theorem witness_CopyLands : someAnd (copying.op 0 1) (fun o => match o with
    | .copy o => o.mayLand 64 && !copying.copyWaits 0 1 o 64 && (copying.needsHost o 64).isNone && okB (copying.landing 0 o 64) && !o.dst.isVirt
    | _ => false) = true := by decide +kernel
theorem test_copyLands : seen (exec (.copyLand 0 1 64) copying) (fun t => (t.fcore.spByte (some 0), t.fcore.spByte (some 7), t.fcore.spByte (some 8))) =
    some (0x88, 0x11, 0) := by decide +kernel
theorem witness_FollowOn : (let s := { run forSlot [.cpyMma 7 2 3 1 0 1 0 0] with cores := ((run forSlot [.cpyMma 7 2 3 1 0 1 0 0]).dropOp 0 1).cores }
    someAnd (s.op 0 2) (fun o => match o with
      | .mma o => o.waits == some 1 && (s.op 0 1).isNone && !s.followBlocked 0 1 o
      | _ => false)) = true := by decide +kernel

theorem witness_BlockTransfersComplete : Ready 0 [.s ((5 : BitVec 5) ++ 1#1), .s 7, .s 1, .s ((5 : BitVec 5) ++ 0#1)] [] five ∧
    five.rS ((5 : BitVec 5) ++ 0#1) = 0 ∧ (let s := setS [(10, 0x10000000000)] five
      s.rS ((5 : BitVec 5) ++ 0#1) ≠ 0 ∧ (s.rS ((5 : BitVec 5) ++ 0#1)).toNat ≤ 2 ^ 40 ∧ (s.die (dieOf s.focus.core)).bte.length < 64 ∧
      okB (s.checkCrd (s.rS ((5 : BitVec 5) ++ 1#1))) = true) ∧ 2 ^ 40 < (0x10000000001 : Word).toNat := by
  and_intros <;> first | exact ready_of (by decide +kernel) | decide +kernel
def moving : State := run (setS [(10, 64), (11, 0), (12, 0x10000), (13, 0x10400)] five) [.bte 12 13 5 7]
theorem test_bteComplete : (moving.die 0).bte.map (fun e => (e.2.bytes, e.2.tag, e.2.crd)) = [(64, 7, 0)] := by decide +kernel
theorem witness_TransferEnds : someAnd (alook 1 (moving.die 0).bte) (fun o => o.ended.isNone && o.crd == 0 && !o.cancelled && o.hostOut.isNone &&
    (match bteRun 0 1 (o.bytes / 64 + 4) moving o with
      | .ended _ q _ _ => q.crd == 0
      | _ => false)) = true := by decide +kernel

/-- A ring of 16 records at 0x10A00 whose descriptor stands at 0x10800, with room. -/
def recording : State := [(0x300800, 8, 0x10A00), (0x300808, 1, 4)].foldl (fun (s : State) (e : Nat × Nat × Nat) => s.putHomes e.1 (natToBytes e.2.1 e.2.2)) moving
theorem witness_TransferRecord : someAnd (alook 1 (recording.die 0).bte) (fun o =>
    match recording.engineAt 0 o.asid o.phys 0x10800 false, recording.engineAt 0 o.asid o.phys 0x10A00 true, recording.engineAt 0 o.asid o.phys 0x1080C true with
    | .ok rd, .ok rr, .ok rt => region rd.pa != .host && region rr.pa != .host && !recording.pinBusy rd.pa && !recording.pinBusy rr.pa &&
        !recording.pinBusy rt.pa && !recording.poisoned rd.pa && ringOk 0x10800 (recording.engineRead rd 32) 4 16 32 &&
        (recording.bteRecord 0 1 { o with crd := 0x10800 } (1, 0)).isSome
    | _, _, _ => false) = true := by decide +kernel
theorem witness_TransferAsks : someAnd (alook 1 (moving.die 0).bte) (fun o =>
    match bteRun 0 1 (o.bytes / 64 + 4) moving { o with phys := true, src := 0x800000000000 } with
    | .asked _ _ => true
    | _ => false) = true := by decide +kernel

def arrivals : State := setS [(11, 1), (12, 12288), (13, 0xFF), (14, 7), (9, 1)] five
def leafEnded : State := arrivals.setLeaf 0 4 { arrivals.leaf 0 4 with phase := true }
def overrun : State := arrivals.setLeaf 0 4 { arrivals.leaf 0 4 with phase := true, lstat := 0x100, excess := 3 }
def leafArrived : State := arrivals.setLeaf 0 4 { arrivals.leaf 0 4 with arrived := true }
theorem witness_BarrierInstructionsComplete : Ready 0 [.s 11, .s 12] [] arrivals ∧ (arrivals.rS 11).extractLsb' 0 16 ≠ 0 ∧
    (arrivals.barObj 4).mxf = 0 ∧ (arrivals.barObj 4).arrived = false ∧ (arrivals.barObj 23).arrived = false ∧
    arrivals.linkedArrived (clusterOf arrivals.focus.core) 7 = false ∧ (arrivals.rS 0).extractLsb' 0 16 = 0 ∧ Ready 0 [] [] arrivals ∧
    (leafArrived.barObj 4).arrived = true ∧ Ready 0 [] [] leafArrived ∧ Ready 0 [.s 13] [] arrivals ∧ arrivals.rS 13 = 0xFF ∧
    (arrivals.rS 14).toNat < 8 ∧ (leafEnded.barObj 4).phase ≠ (leafEnded.rS 0).getLsbD 0 ∧ Ready 0 [.s 0] [] leafEnded ∧
    ¬(arrivals.barObj 4).phase ≠ (arrivals.rS 0).getLsbD 0 ∧ arrivals.fseat.pers = false ∧ arrivals.srcTm = false ∧
    stageAct arrivals.src.ctl.stage = false ∧ arrivals.fseat.seq = none ∧ Ready 0 [.s 12] [.s 3] arrivals ∧ (arrivals.rS 12).toNat % 4 ≠ 3 ∧
    (arrivals.rS 14).toNat % 4 = 3 ∧ inHandler.srcTm = true ∧ (overrun.barObj 4).lstat.getLsbD 8 = true ∧
    (16 : Nat) ≤ (16 : BitVec 5).toNat := by
  and_intros <;> first | exact ready_of (by decide +kernel) | decide +kernel
theorem witness_ArrivalAfterLoads : openLoad.loadsDone (fun _ => true) = false ∧
    (let s : State := { openLoad with focus := { openLoad.focus with opBase := some 0 } }
     s.loadsDone (fun _ => true) = true ∧ s.ownLoad = some 1 ∧ (s.barObj 4).arrived = false) := by decide +kernel
theorem test_barriersComplete : [Instr.barInit 4 11 12 0, .barInit 23 11 12 0, .barArr 4 0, .barArr 16 0, .barLink 4 13 0, .barLink 4 14 0, .barExp 4 12 0,
    .barTest 4 0 3 0, .barStat 4 0 3 0, .barStat 16 9 3 0].all (issuesB arrivals) = true := by decide +kernel
theorem test_barrierWaits : [issuesB leafEnded (.barWait 4 0 0 0), issuesB leafEnded (.barWaitS 4 0 1 0), waitsB arrivals (.barWait 4 0 0 0),
    waitsB leafArrived (.barArr 4 0), cause arrivals (.barInit 4 0 12 0) == 0x36, cause arrivals (.barStat 4 14 3 0) == 0x36,
    cause arrivals (.barLink 16 13 0) == 0x36] = List.replicate 7 true := by decide +kernel
/-- R389, R391: the phase completes once ARR reaches EXP with PEND 0. -/
theorem test_phaseCompletes : ((run arrivals [.barInit 4 11 0 0, .barArr 4 0]).leaf 0 4).phase = true := by decide +kernel

def forSeq : State :=
  withBlock [0x00020040, 64, 64, 0x00040002] (setS [(1, 1), (2, 0), (3, 0)] (run five [.osclaim 2 0, .osclaim 3 0, .osclaim 4 0, .osclaim 5 0]))
def forSeqCpy : State := withBlock [0x00020040, 64, 64, 0x00040004] (setS [(1, 0xFFFFFF)] five)
theorem witness_SequencerInstructionsComplete : Ready 0 (markerSrcs forSeq.focus.block ++ [.s 7, .s 7, .s 1]) [] forSeq ∧ forSeq.fseat.seq = none ∧
    blockOf_ forSeq (fun p => seqMmaOk p && !(forSeq.leaf 0 p.bar).arrived && !forSeq.seqOnAcc 0 (p.flg.extractLsb' 4 2).toNat &&
      [0, 1, 2, 3].all (fun k => (forSeq.fcore.slot ((p.flg.extractLsb' 0 4).toNat + k)).state == .claimed forSeq.focus.seat)) = true ∧
    1 ≤ (forSeq.rS 1).toNat ∧ (forSeq.rS 1).toNat ≤ 65535 ∧ (forSeq.rS 0).toNat = 0 ∧
    Ready 0 (markerSrcs forSeqCpy.focus.block ++ [.s 7, .s 7, .s 1]) [] forSeqCpy ∧
    blockOf_ forSeqCpy (fun p => seqCpyOk p && (match p.leaf with
      | some o => !(forSeqCpy.leaf 0 o).arrived
      | none => true)) = true ∧ (forSeqCpy.rS 1).toNat ≤ 2 ^ 24 - 1 := by
  and_intros <;> first | exact ready_of (by decide +kernel) | decide +kernel
theorem test_sequencerComplete : [issuesB forSeq (.seqMma 7 7 1 0), issuesB forSeqCpy (.seqCpy 7 0 1 0), cause forSeq (.seqMma 7 7 0 0) == 0x37] =
    [true, true, true] := by decide +kernel
def stepsAhead : State := run forSeqCpy [.seqCpy 7 0 1 0]
theorem witness_SequencerStep : someAnd (stepsAhead.seatAt 0 0).seq (fun sq => (stepsAhead.seatAt 0 0).deferred.isNone && (stepsAhead.seatAt 0 0).pair.isNone &&
      (stepsAhead.seatAt 0 0).seqGoes (halted (stepsAhead.core 0)) &&
      okB (State.seqStep (({ stepsAhead with focus := { stepsAhead.focus with core := 0, seat := 0, slot := 3, opBase := none, status := .issued } } : State).modSeat
        0 0 (fun t => { t with latch := none })) sq)) = true ∧
    (seen (exec (.seqStepIssue 0 0) stepsAhead) (fun t => (t.seatAt 0 0).seq.map (·.next)) = some (some 1)) := by decide +kernel
/-- The seat and its shadow on core 2, whose TLB holds nothing. -/
def paired : State := (stepsAhead.setSeat 2 0 (stepsAhead.seatAt 0 0)).modSeat 0 0 (fun t => { t with pair := some (2, true) })
theorem witness_PairStep : someAnd (paired.seatAt 0 0).seq (fun sq => someAnd (paired.stepOf 0 0 sq) (fun x =>
    someAnd ((paired.twin 0 2 0).stepOf 2 0 sq) (fun y => x.2 == y.2))) = true := by decide +kernel

def hostBusy : State := { five with host := { five.host with reqs := [(1, { asid := 1, use := .seatWrite 0 0 0, addr := 0x800000000000, size := 8, write := true, data := [], lent := some 0 })] } }
theorem witness_AtomicsComplete : Ready 0 [.s 7, .s 1] [.s 3] five ∧ Ready 0 [.s 3, .s 7, .s 1] [.s 3] five ∧ Ready 0 [.s 7] [.s 3] five ∧
    Ready 0 [.s 1, .s 7] [] five ∧ (five.rS 7).toNat % syncBytes 1 = 0 ∧ (five.rS 8).toNat % syncBytes 0 ≠ 0 ∧
    okAnd (five.seatPieces (five.rS 7) 8 .write) (fun ps => match ps with
      | q :: qs => region q.pa != .control && region q.pa != .host && !(five.commitF.install true (q :: qs)).poisoned q.pa &&
          releaseScope true 5 (q :: qs) == some 5
      | [] => false) = true ∧
    okAnd (five.seatPieces (five.rS 7) 8 .regWrite) (fun ps => !anyControl ps && got ((five.install true ps).psqRoom (five.rS 7)) ()) = true ∧
    okAnd (five.seatPieces (five.rS 7) 8 .regRead) (fun ps => okB (five.loadScalar 8 ps)) = true ∧ five.released 5 = true ∧
    hostBusy.released 5 = false ∧ five.fseat.hostFailed = none := by
  and_intros <;> first | exact ready_of (by decide +kernel) | decide +kernel
def poisonedWord : State := { five with poison := [(0x300000 / 64, true)] }
/-- The host has answered the seat's atomic. -/
def amoAnswered : State := hostPage.modF (fun t => { t with hostData := [(amoKey 0x800000000000, natToBytes 8 7, false)] })
theorem witness_AtomicsElsewhere : (poisonedWord.commitF).poisoned 0x300000 = true ∧
    okAnd (amoAnswered.seatPieces (amoAnswered.rS 7) 8 .write) (fun ps => match ps with
      | q :: qs => region q.pa == .host && okB (amoAnswered.commitF.hostAmo (amoAnswered.rS 7) q.pa 8 .add (amoAnswered.rS 1) (amoAnswered.rS 3))
      | [] => false) = true ∧
    (let s := setS [(7, 0x20000)] withCtl
     okAnd (s.seatPieces (s.rS 7) 8 .regWrite) (fun ps => ps.length == 1 && ps.all (fun q => region q.pa == .control &&
       okB ((s.install true ps).seatCtlWrite q.pa 8 0))) = true) := by and_intros <;> decide +kernel
theorem test_atomicsComplete : [Instr.amoAdd 3 7 1 0 0 1, .amoAnd 3 7 1 1 1 0, .amoOr 3 7 1 2 2 1, .amoXor 3 7 1 3 3 1, .amoMinS 3 7 1 0 4 1, .amoMaxS 3 7 1 0 5 1,
    .amoXchg 3 7 1 0 0 1, .amoCas 3 7 1 0 0 1, .lda 3 7 2 1, .stl 7 1 5 1].all (issuesB five) = true := by decide +kernel
def counter : State := five.putHomes 0x300000 (natToBytes 8 0xFFFFFFFFFFFFFFFF)
theorem test_amoAdd : does (.amoAdd 3 7 1 0 0 1) counter (fun t => ([0x300000, 0x300007, 0x300008].map t.byteAt, t.op 0 1 |>.isSome)) =
    some ([4, 0, 0], true) := by decide +kernel
theorem test_amoMisaligned : cause five (.amoAdd 3 8 1 0 0 1) = 0x26 := by decide +kernel
theorem witness_AtomicValues : (0x300008 : Nat) % 8 = 0 ∧ oneDirty.resole.redirect = [] ∧
    (alook (0x300008 / 64) oneDirty.lines = none) ∧ (192 : Nat) % 8 = 0 ∧
    someAnd (alook (192 / 64) oneDirty.lines) (fun l => l.data.length == 64 && l.owner.isSome) = true := by decide +kernel

theorem witness_FencesAndWaitsComplete : Ready 0 [] [] five ∧ five.released 5 = true ∧ five.fseat.hostFailed = none ∧
    five.commitF.drained (fun p => p == 0) 2 = true ∧ Ready 0 [.s 7, .s 0, .s 0] [] five ∧ Ready 0 [.s 7, .s 1, .s 0] [] five ∧
    (five.rS 7).toNat % syncBytes 1 = 0 ∧ okAnd (five.seatPieces (five.rS 7) 8 .regRead) (fun ps => okB (five.loadScalar 8 ps) &&
      (five.poisonHit ps).isNone && okAnd (five.loadScalar 8 ps) (fun r =>
        waitCond 0 8 (loadValue 8 false r.1) (five.rS 0) && !waitCond 0 8 (loadValue 8 false r.1) (five.rS 1))) = true ∧
    five.fseat.pers = false ∧ five.srcTm = false ∧ stageAct five.src.ctl.stage = false ∧ five.fseat.cont.expired = false ∧
    five.fseat.seq = none ∧ stageAct inLoop.src.ctl.stage = true ∧ persSeat.fseat.pers = true ∧ hostBusy.released 5 = false := by
  and_intros <;> first | exact ready_of (by decide +kernel) | decide +kernel
theorem witness_FenceHolds : openLoad.loadsDone (· != 2) = false ∧ (3 : BitVec 2).getLsbD 0 = true ∧ hostBusy.hostQuiet = false ∧
    (hostBusy.fenceUp 2 5).fenceOk true = false ∧
    okAnd (hostBusy.pieces 0 hostBusy.fasid .write (segs (hostBusy.rS 7) 8)) (fun ps => ps.any (fun p => pteOrd p.leaf.entry != 2)) = true ∧
    Access.write.writes = true ∧ (five.modF (fun t => { t with hostFailed := some 5 })).fseat.hostFailed = some 5 ∧
    ((openLoad.modFcore (fun c => c)).commitF).drained (fun p => p == 0) 2 = false := by decide +kernel
def waiting : State := run five [.waitv 7 1 1 0 1 0]
theorem witness_WaitTimesOut : waiting.fseat.run = .running ∧ someAnd (waiting.seatAt 0 0).stall (fun k => k.reg.isNone && k.waitv.isSome) = true := by
  decide +kernel
def parked : State :=
  five.modDie 1 (fun d => { d with waits := [(3, { key := .line 0x300000, timeout := 5, cont := Cont.none })] })
theorem witness_ParkedTimesOut : someAnd (alook 3 (parked.die 1).waits) (fun k => k.timeout != 0) = true := by decide +kernel
theorem test_fencesComplete : [Instr.fence 5 3 0, .fence 0 1 0, .xfence 0 1 2 0, .waitv 7 0 0 0 1 0, .waitvS 7 0 0 0 1 0].all (issuesB five) = true := by
  decide +kernel
theorem test_waits : [waitsB five (.waitv 7 1 0 0 1 0), cause inLoop (.waitvS 7 0 0 0 1 0) == 4] = [true, true] := by decide +kernel

/-! A key/value store: sequence 5 of ASID 1 with four positions in one node of two layers, in a pool of one head of 32 BF16. -/

def putAll (l : List (Nat × Nat × Nat)) (s : State) : State := l.foldl (fun s e => s.putHomes e.1 (natToBytes e.2.1 e.2.2)) s
def kvStore : State :=
  withBlock [0x00010000, 256, 1, 0] ((setS [(1, 2), (2, 1), (3, 9), (4, 6), (10, 0x10000), (11, 0x10400), (12, 4)] (putAll
    [(0x400000 + 320, 4, 4), (0x400000 + 326, 1, 2), (0x400000 + 327, 1, 1), (0x400000 + 328, 2, 1), (0x400000 + 334, 2, 1), (0x400000 + 336, 8, 0x510000),
     (0x400000 + 391, 1, 1), (0x400000 + 392, 2, 1), (0x400000 + 400, 8, 0x518000), (0x518000, 4, 4), (0x510000, 4, 4), (0x510008, 8, 0x520000), (0x520004, 4, 4),
     (0x520020, 4, 1), (0x520028, 8, 0x520080), (0x520080, 4, 1), (0x520084, 4, 1), (0x520090, 8, 0x530001), (0x520098, 8, 0x532001),
     (0x530000, 4, 1), (0x532000, 4, 2), (0x500021, 1, 1), (0x500022, 1, 5), (0x500023, 1, 2), (0x500024, 4, 4160)]
    ((((zero.setCtlW 0x00F00100 0x00400001).setCtlW 0x00F00104 0).setCtlW 0x00F00108 0x00500000).setCtlW 0x00F0010C 0))).modCtl
      (fun c => { c with kvseq := 5 }))
/-- With one entry in the repair list, or with a front. -/
def kvRepairing : State := putAll [(0x400000 + 320 + 0x30, 4, 1), (0x400000 + 320 + 0x28, 8, 0x519000)] kvStore
def kvFront : State := putAll [(0x400000 + 320 + 0xC, 2, 1)] kvStore

/-- What an operation's step comes to: 0 it is whole, 1 its work follows, 2 it waits, 3 it fails. -/
def stepKind (s : State) (o : KvOp) : Nat :=
  match s.commitF.kvStep s.commitF.focus.core { o with got := s.commitF.heldFrames } with
  | .whole _ _ => 0
  | .follows _ _ => 1
  | .waits _ _ _ => 2
  | .fails _ _ => 3
  | .params => 4
def opWith (s : State) (o : KvOp) : KvOp := match s.params with
  | .ok p => o.withParams p
  | .error _ => o

theorem witness_KvInstructionsComplete : kvStore.commitF.fseat.kvDone = none ∧ Ready 0 [.s 1, .s 2] [.s 5] kvStore ∧ (kvStore.rS 1).toNat < 2 ^ 32 ∧
    (kvStore.rS 2).toNat < 2 ^ 8 ∧ stepKind kvStore (kvStore.kvOp .walk 2 1 0 (some 5)) = 0 ∧ stepKind kvStore (kvStore.kvOp .walk 9 1 0 (some 5)) = 3 ∧
    Ready 0 [] [.s 5] kvStore ∧ stepKind kvStore (kvStore.kvOp .commit 0 0 0 (some 5)) = 0 ∧
    stepKind kvStore (kvStore.kvOp .repstat 0 0 0 (some 5)) = 0 ∧ Ready 0 [.s 4] [] kvStore ∧ (kvStore.rS 4).toNat < 2 ^ 20 ∧
    stepKind kvStore (kvStore.kvOp .fork 6 0 0 none) = 0 ∧ stepKind kvStore (kvStore.kvOp .roll 2 0 0 none) = 0 ∧
    stepKind kvStore (kvStore.kvOp .roll 5 0 0 none) = 3 ∧ stepKind kvStore (kvStore.kvOp .splice 0x520000 4 0 none) = 3 ∧
    Ready 0 [.s 4, .s 2, .s 1] [] kvStore ∧ 2 ^ 32 ≤ (0x100000000 : Word).toNat ∧
    okAnd (kvStore.copyPages .write [(kvStore.rS 10 &&& 0xFFFFFFFFFFFFFFE0#64, 32)]) (fun r =>
      let u := kvStore.install true r.1
      u.commitF.fseat.kvDone.isNone && stepKind u { u.kvOp .prov (kvStore.rS 10) (u.rS 2) 0 none with maps := r.2 } == 1) = true ∧
    Ready 0 (markerSrcs kvStore.focus.block ++ [.s 10, .s 2]) [.s 5] kvStore ∧
    blockOf_ kvStore (fun p => kvappOk p && repairOk p && attqOk p) = true ∧
    okAnd (kvStore.copyPages .read [(kvStore.rS 10, 256)]) (fun r =>
      let u := kvStore.install false r.1
      stepKind u { opWith u (u.kvOp .app (u.rS 10) (u.rS 2) 0 (some 5)) with maps := r.2 } == 1) = true ∧
    (kvStore.rS 11).toNat % 8 = 0 ∧ stepKind kvStore (opWith kvStore (kvStore.kvOp .repairM 0x10000 0x10400 0 (some 5))) = 1 ∧
    stepKind kvRepairing (opWith kvRepairing (kvRepairing.kvOp .repairI 0x10000 0 0 (some 5))) = 3 ∧
    (kvStore.rS 11).toNat % 64 = 0 ∧
    stepKind kvFront { opWith kvFront (kvFront.kvOp (.attq true) 0x10000 0x10400 0 (some 5)) with rows := 1, cols := 32 } = 2 ∧
    stepKind kvStore { opWith kvStore (kvStore.kvOp (.attq false) 0x10000 0x10400 0 (some 5)) with rows := 1, cols := 32 } = 1 := by
  and_intros <;> first | exact ready_of (by decide +kernel) | decide +kernel
/-- R413: the block of position 2 in layer 1, with its offset; and a position beyond COMMIT. -/
theorem test_kvwalk : does (.kvwalk 1 2 5 0) kvStore (sVal 5) = some 0x530002 := by decide +kernel
theorem test_kvwalkBeyond : cause kvStore (.kvwalk 3 2 5 0) = 0x40 := by decide +kernel
theorem test_kvComplete : [Instr.kvcommit 5 0, .repstat 5 0, .kvfork 4 0, .kvroll 1 0, .kvprov 10 2 0, .kvapp 10 2 5 0, .repairM 10 11 5 0].all (issuesB kvStore) =
    true := by decide +kernel
theorem witness_KvServe : okAnd (kvStore.kvServe 1 5) (fun r => !kvStore.stepPending r.1 && !kvStore.kvPinned r.1 && kvStore.qStcnt r.1 == 0) = true := by decide +kernel
def kvHolding : State := kvStore.modF (fun t => { t with kvHeld := some (kvStore.kvOp .commit 0 0 0 (some 5)), keep := some [] })
theorem witness_KvAccept : (kvHolding.seatAt 0 0).keep ≠ none ∧ someAnd (kvHolding.seatAt 0 0).kvHeld (fun o => match kvHolding.kvStep 0 o with
      | .whole _ _ => true
      | _ => false) = true ∧
    someAnd ((run kvStore [.kvprov 10 2 0]).op 0 1) (fun o => match o with
      | .kv o => o.hostOut.isNone && o.pool.isNone && !o.isOver && !(run kvStore [.kvprov 10 2 0]).unissued (0, 1) o && (match kvRun (0, 1) 65536 (run kvStore [.kvprov 10 2 0]) { o with pool := none } with
          | .ended _ q => q.writes == 0
          | _ => false)
      | _ => false) = true := by decide +kernel
/-- R417: the record of the node: START 0, LEN 4, REFCNT 1. -/
theorem test_kvprov : (seen (exec (.kvComplete 0 1) (run kvStore [.kvprov 10 2 0])) (fun t => ([0x300000, 0x300004, 0x300008].map t.byteAt))) =
    some [0, 4, 1] := by decide +kernel
def pooling : State := { kvStore with fe := { kvStore.fe with returns := [{ desc := 0x500000, pool := 0, addr := 0x530000, count := 1, kind := 0, flags := 0, readers := none }] } }
theorem witness_KvPool : pooling.flushReturns.fe.returns.length ≠ pooling.fe.returns.length := by decide +kernel

/-! Collectives: member 3 of the group table is valid and reached by port 0. -/

def forColl : State :=
  withBlock [0, 0, 64, 0x00900000] ((setS [(2, 0x0003000000000040), (3, 0x0400000000000040)] five).setCtlW 0x02000038 1)
def forSum : State := withBlock [0, 0, 64, 0x00000000] forColl
theorem witness_CollectivesComplete : Ready 0 (markerSrcs forColl.focus.block ++ [.s 7, .s 2]) [.s 5] forColl ∧ forColl.collCount < 16 ∧
    blockOf_ forColl (fun p => collOk 0 p && collOk 1 p && collOk 2 p) = true ∧ blockOf_ forSum (fun p => collOk 3 p && collOk 4 p) = true ∧
    (forColl.rS 7).toNat % 64 = 0 ∧ (forColl.rS 2).toNat % 64 = 0 ∧ ((forColl.rS 2).extractLsb' 48 16).toNat ≤ 1023 ∧
    forColl.groupValid ((forColl.rS 2).extractLsb' 48 16).toNat = true ∧ (forColl.rS 8).toNat % 64 ≠ 0 ∧
    Ready 0 (markerSrcs forSum.focus.block ++ [.s 7, .s 2]) [.s 5] forSum := by
  and_intros <;> first | exact ready_of (by decide +kernel) | decide +kernel
theorem test_collComplete : [issuesB forColl (.collPut 7 2 5 0), issuesB forColl (.collGet 7 2 5 0), issuesB forColl (.collAdd 7 2 5 0),
    issuesB forSum (.collMax 7 2 5 0), issuesB forSum (.collMin 7 2 5 0), cause forColl (.collPut 8 2 5 0) == 0x37] = List.replicate 6 true := by decide +kernel
def chunk (op : BitVec 8) : CollChunk :=
  { op := op, fsel := 9, sender := 3, receiver := 0, asid := 1, chunkId := 7, off := 0, len := 64, data := List.replicate 64 0, tags := [0],
    check0 := 0, check1 := 0, check2 := 0 }
def sentColl : State := run ({ forColl with net := { forColl.net with linkUp := [(0, true)] } }.setCtlW 0x02000034 0x00010000) [.collPut 7 2 5 0]
theorem witness_CollChunks : forColl.power.state = 0 ∧ (chunk 0).op.toNat < 6 ∧ (chunk 0).op ≠ 2 ∧ forColl.wasApplied (chunk 0) = false ∧
    (chunk 2).op = 2 ∧ someAnd (sentColl.collOut 0 1) (fun o => o.kind != 1) = true ∧
    someAnd ((run sentColl [.collAck 0 1 true]).op 0 1) (fun o => match o with
      | .coll o => o.hostOut == 0 && o.ended.isSome
      | _ => false) = true := by decide +kernel
/-- The collective window of ASID 1: 4 KiB at 0x10000. -/
def windowed : State := ((forColl.setCtlW 0x02008000 0x00010001).setCtlW 0x02008008 0x10000).setCtlW 0x02008010 0x1000
theorem witness_CollApplied : windowed.chunkPinned (chunk 0) = false ∧ windowed.fe.revoked.contains 1 = false ∧ chunkOk (chunk 0) = true ∧
    (chunk 0).data.length = (chunk 0).len ∧ someAnd (windowed.collWindow 1 0 64) (fun a => okB (windowed.collPlaces 1 true a 64)) = true ∧
    (forColl.noteApplied (chunk 0)).wasApplied (chunk 0) = true ∧ (match forColl.collApply (chunk 0) [] with
      | .refused => true
      | _ => false) = true := by decide +kernel
/-- The data of a GET that member 3 asked for awaits its answer. -/
def answering : State := { forColl with net := { forColl.net with dataOut := [({ chunk 5 with receiver := 3, sender := 0 }, 0)] } }
theorem witness_CollReplies : answering.power.state = 0 ∧ answering.chunkPinned (chunk 6) = false ∧ (answering.collReply (chunk 6)).isSome = true ∧
    (answering.collReply (chunk 7)).isSome = true ∧ someAnd (answering.dataFor 3 7) (fun e => e.2 == 0) = true ∧
    someAnd ((answering.dataFail ({ chunk 5 with receiver := 3, sender := 0 }, 0)).dataFor 3 7) (fun e => e.2 == 1) = true := by decide +kernel
theorem test_collStatus : (seen (exec (.collComplete 0 1) (run sentColl [.collAck 0 1 true])) (sVal 5)) = some 64 := by decide +kernel

/-! The resole. -/

def opened : State := run (setS [(1, 5), (9, 1), (3, 16)] zero) [.rsbegin 1 5 0]
/-- Virtual page 0x30000 of ASID 1 maps the first page of MRAM. -/
def forResole : State :=
  setS [(6, 0x30000), (7, 0x10000), (8, 0x0000000100000040)] (run ((setS [(1, 5), (9, 1)] zero).putHomes 0x220018 (natToBytes 8 (0x1A07 + 0x10000000000))) [.rsbegin 1 5 0])
theorem witness_ResoleComplete : (let s := setS [(1, 5), (3, 16)] zero
      Ready 0 [.s 1] [.s 5] s ∧ (s.rS 1).toNat ≤ 15 ∧ s.resole.txs.any (fun e => e.2.isOpen && e.2.slot == 5) = false ∧ 15 < (s.rS 3).toNat) ∧
    Ready 0 [.s 9] [.s 4] opened ∧ Ready 0 [.s 9] [] opened ∧ Ready 0 [.s 9, .s 0] [.s 4] opened ∧ 1 ≤ (opened.rS 9).toNat ∧ (opened.rS 9).toNat ≤ 8 ∧
    someAnd (opened.tx 1) (fun t => t.asid == opened.fasid && t.state == 1) = true ∧ (opened.rS 0).toNat % 4 ≠ 3 ∧ (opened.rS 0).toNat = 0 ∧
    Ready 0 [.s 6, .s 7, .s 8] [] forResole ∧ (forResole.rS 8).extractLsb' 40 24 = 0 ∧ (forResole.rS 6).toNat % 64 = 0 ∧
    okAnd (forResole.seatPieces (forResole.rS 6) 64 .resole) (fun ps => ps.length == 1) = true ∧
    okAnd (forResole.seatPieces (forResole.rS 7) 64 .read) (fun ps => !anyControl ps && (forResole.poisonHit ps).isNone) = true ∧
    someAnd (forResole.tx 1) (fun t => t.asid == forResole.fasid && t.state == 1) = true ∧
    forResole.resole.txs.any (fun e => e.1 != 1) = false := by
  and_intros <;> first | exact ready_of (by decide +kernel) | decide +kernel
theorem witness_RsstatUnused : Ready 0 [.s 9, .s 0] [.s 4] (setS [(9, 1)] zero) ∧ (setS [(9, 1)] zero).tx 1 = none := by
  and_intros <;> first | exact ready_of (by decide +kernel) | decide +kernel
theorem test_resoleComplete : [issuesB zero (.rsbegin 0 5 0), issuesB forResole (.rswrite 6 7 8 0), issuesB opened (.rscommit 9 4 0), issuesB opened (.rsabort 9 0),
    issuesB opened (.rsstat 9 0 4 0)] = List.replicate 5 true := by decide +kernel
/-- A staged line whose journal entry is known, and the transaction in its states. -/
def line (verified applied : Bool) : ResoleLine :=
  { pa := 0x10000000000, va := 0x30000, data := List.replicate 64 0x77, tag := 0, entry := 0x11000010000, seqNo := 0, ready := true, verified := verified,
    tries := 0, applied := applied, stuck := false, req := 0, epoch := 0 }
def staged (state : Nat) (verified : Bool) : State :=
  zero.putTx 1 { state := state, reason := 0, slot := 5, asid := 1, pages := [0x10000000], lines := [line verified false], committer := none, retried := 0, verified := 0, firstFail := 0 }
def applying : State := { staged 3 true with resole := { (staged 3 true).resole with applying := [(1, [line true false])] } }
theorem witness_ResoleDevice : someAnd ((staged 1 false).tx 1) (fun t => t.isOpen && (t.lines.find? (fun l => l.ready && !l.verified)).isSome) = true ∧
    someAnd ((staged 2 true).tx 1) (fun t => t.state == 2 && !t.lines.any (fun l => !l.verified)) = true ∧ alook 1 (staged 2 true).resole.applying = none ∧
    someAnd (alook 1 applying.resole.applying) (fun ls => (ls.find? (fun l => !l.applied && !l.stuck && !applying.applyHeld l)).isSome) = true ∧
    (staged 1 false).active = true ∧ applying.active = true := by decide +kernel
theorem witness_ResoleTries : someAnd ((staged 5 true).tx 1) (fun t => t.state == 5 && t.asid == (staged 5 true).fasid) = true ∧
    (line false false).tries < 3 ∧ 3 ≤ ({ line false false with tries := 3 } : ResoleLine).tries ∧ (line true false).data.length = 64 ∧
    (line true false).pa + 64 ≤ 0x11000000000 ∧ 0x11000000000 ≤ (line true false).entry := by decide +kernel
/-- R428, R487, R488: the version rises with the commit, reads are redirected, and the applied line stands in its bank. -/
theorem test_commit : seen (exec (.commitRecord 1) (staged 2 true)) (fun t => (t.mverOf 5, t.resole.redirect.length)) = some (1, 1) := by decide +kernel
theorem test_apply : seen (exec (.resoleApply 1 true) applying) (fun t => t.homeByte 0x10000000000) = some 0x77 := by decide +kernel
/-! The scheduler: seat 0 of core 0 runs; a record of the die's level waits in the pool of die 0. -/

def recD : Cont := { w0 := 0x0300000000010000, w1 := 0x0001600000000000, s := List.replicate 6 0, tag := 0x7FF, expired := false }
def frameD : FrameRef :=
  { addr := 0x600000, asid := 1, home := 0, prio := 3, level := 3, pers := false, seats := 1, conts := [recD], waits := [], leaf := [], ops := [], rest := [],
    held := [], accPhase := [], accSaves := [], copyLog := [] }
def inPool (it : PoolItem) (s : State) : State := s.modDie 0 (fun d => { d with pool := [{ id := 4, item := it }] })
def pooled : State := inPool (.record recD) five
def framed : State := inPool (.frame frameD) ({ five with seats := [] } : State)
def ringed : State := putAll [(0x700008, 8, 0x710000), (0x700014, 4, 1), (0x700020, 1, 1), (0x710000, 8, 0x600000)]
  ((pooled.setCtlW (dieBlock 0 + 0x00080010) 0x00700000).setCtlW (dieBlock 0 + 0x00080014) 0)
def isSome_ {α : Type} (x : Option α) (p : α → Bool) : Bool := match x with
  | some a => p a
  | none => false
def trapping : State := (five.modCtl (fun c => { c with trapvec := 0x20000 })).modF (fun t => { t with async := [(0x53#8, 0)] })
def hanging : State := five.modF (fun t => { t with stall := some { reg := some 3, waitv := none } })
def dozing : State := five.modDie 0 (fun d => { d with waits := [(2, { cont := recD, key := .timeline 3 false 0, timeout := 0 })] })
def preempting : State := (five.modCore 0 (fun c => { c with stopping := some (.preempt 0x600000 false none) })).modF (fun t => { t with judged := true })
def migrating : State :=
  ({ (five.modCore 0 (fun c => { c with stopping := some (.migrate 1) })) with fe := { five.fe with migBusy := some (0, 1) } } : State).modCore 1 (fun c => { c with tile := .on })
def atPoint : State := migrating.modF (fun t => { t with run := .stopped })

theorem witness_SchedulingRowsComplete : (trapping.seatAt 0 0).shadow = false ∧ (trapping.core 0).tile = .on ∧ (trapping.boundaryCause 0 0).isSome = true ∧
    hanging.hangLimit (dieOf 0) ≠ 0 ∧ (hanging.core 0).stopping = none ∧ (hanging.seatAt 0 0).run = .running ∧
    (hanging.seatAt 0 0).stall = some { reg := some 3, waitv := none } ∧
    isSome_ (bestItem (pooled.candidates 0 1)) (fun e => e.1 == 0 && e.2.item == .record recD) = true ∧
    isSome_ (bestItem (framed.candidates 0 0)) (fun e => e.1 == 0 && e.2.item == .frame frameD) = true ∧
    isSome_ (pooled.poolEntry 0 4) (fun e => e.item == .record recD) = true ∧ recD.prio ≠ 7 ∧ (pooled.placeCtl 0).extractLsb' 16 16 ≠ 0 ∧
    pooled.itemUnplaceable (.record recD) = false ∧ chooseVictim (pooled.victims (.record { recD with w0 := 0 })) = none ∧
    isSome_ (chooseVictim (ringed.victims (.record recD))) (fun v => v.1 == 0 && (ringed.beginPreempt v.1 false (some (4, v.2.1))).isSome) = true ∧
    isSome_ (alook 2 (dozing.die 0).waits) (fun w => dozing.keyReady w.key) = true ∧
    (preempting.core 0).stopping = some (.preempt 0x600000 false none) ∧ preempting.seatStill 0 0 = true ∧ preempting.seatStill 0 1 = true ∧
    preempting.coreDrained 0 = true ∧ atPoint.fe.migBusy = some (0, 1) ∧ (atPoint.core 0).stopping = some (.migrate 1) ∧ (atPoint.core 1).tile = .on ∧
    atPoint.atSafePoint 0 0 = true ∧ atPoint.atSafePoint 0 1 = true ∧ atPoint.matrixDone 0 = true ∧ migrating.atSafePoint 0 0 = false ∧
    atPoint.targetOn 0 1 = true ∧ dozing.active = true ∧ (hanging.seatAt 0 0).shadow = false ∧
    (ringed.core 0).stopping = none := by and_intros <;> decide +kernel
theorem test_place : seen (exec (.continuationPlace 0 1) pooled) (fun t => ((t.seatAt 0 1).run == .running, (t.seatAt 0 1).pc, (t.die 0).pool.length)) =
    some (true, 0x1000, 0) := by decide +kernel
theorem test_ageing : seen (exec (.ageing 0 4) pooled) (fun t => (t.die 0).pool.map (fun e => e.item.prio)) = some [4] := by decide +kernel
/-- R226, R448: cause 0x51 names the register of the stall. -/
theorem test_watchdog : seen (exec (.watchdog 0 0) hanging) (fun t => (t.seatAt 0 0).async) = some [(0x51, 3)] := by decide +kernel
theorem test_trapRow : seen (exec (.trapEntry 0 0) trapping) (fun t => ((t.seatAt 0 0).tm, (t.seatAt 0 0).pc, (t.seatAt 0 0).file.ctl.cause.extractLsb' 0 8)) =
    some (true, 0x2000, 0x53) := by decide +kernel
theorem test_waitWake : seen (exec (.waitWake 0 2) dozing) (fun t => ((t.die 0).waits.length, (t.die 0).pool.length)) = some (0, 1) := by decide +kernel
theorem test_migration : seen (exec (.migrationStop 0) atPoint) (fun t => ((t.seatAt 0 0).busy, (t.seatAt 1 0).run == .running, lcidPhys (t.lcidEntry 0))) =
    some (false, true, 1) := by decide +kernel
theorem test_timeout : seen (exec (.waitTimeout (.parked 0 2)) (dozing.modDie 0 (fun d =>
    { d with waits := [(2, { cont := recD, key := .line 0, timeout := 5 })] }))) (fun t => (t.die 0).pool.length) = some 1 := by decide +kernel

/-! Queues: slot 2 is queue 3 of ASID 1, its ring of 128 units at the program's page. -/

def qcb (log2sz state rptr wptr qflags : Nat) : List Byte :=
  natToBytes 8 0x10000 ++ natToBytes 8 0 ++ natToBytes 2 1 ++ natToBytes 2 3 ++ natToBytes 1 log2sz ++ natToBytes 1 3 ++ natToBytes 1 7 ++ natToBytes 1 qflags ++
  natToBytes 4 rptr ++ natToBytes 4 wptr ++ natToBytes 1 state ++ List.replicate 95 0
def slot2 (log2sz state : Nat) (head : Option (List Byte)) : HwSlot := { HwSlot.reset with qcb := qcb log2sz state 0 1 3, state := state, head := head }
def queued (state : Nat) (head : Option (List Byte)) : State := five.setSlot 2 (slot2 12 state head)
def pkt (l : List (Nat × Nat × Nat)) (n : Nat) : List Byte :=
  (l.foldl (fun (m : List Byte) e => m.take e.1 ++ natToBytes e.2.1 e.2.2 ++ m.drop (e.1 + e.2.1)) (List.replicate n 0))
def nopPkt : List Byte := pkt [(1, 1, 1), (2, 1, 1), (3, 1, 0x55)] 32
def donePkt : Packet := { qnum := 3, asid := 1, tag := 0, flags := 0, opcode := 0, seq := none, entry := none, scope := 3, done := true, arg := [], fault := none }

/-- What the front end has read, where it has it. -/
def readAnd (x : Got) (p : State → List Byte → Bool) : Bool := match x with
  | .got t b => p t b
  | _ => false
theorem witness_QueueCommandsComplete : ((queued 0 none).slotAt 2).state = 0 ∧ (five.setSlot 2 (slot2 11 0 none)).mapBad (slot2 11 0 none) = true ∧
    ((queued 1 none).slotAt 2).state = 1 ∧ ((queued 2 none).slotAt 2).state = 2 ∧ ((queued 3 none).slotAt 2).state = 3 ∧
    (queued 1 none).power.state = 0 ∧ ((queued 1 none).slotAt 2).head = none ∧ ((queued 1 none).slotAt 2).hostOut = none ∧
    (queued 1 none).servedAfter 2 = false ∧ (queued 1 none).slotOf 3 = some 2 ∧ (queued 2 none).slotOf 3 = some 2 ∧ five.slotOf 3 = none ∧
    ((queued 2 none).slotAt 2).casOut = false ∧ ((queued 4 none).slotAt 2).state = 4 ∧
    ((five.setSlot 2 { slot2 12 1 none with qcb := qcb 12 1 0 200 3 }).slotAt 2).units < 200 ∧
    ((five.setSlot 2 { slot2 12 1 none with qcb := qcb 12 1 1 1 3 }).slotAt 2).rptr = 1 ∧
    (let t := putAll [(0x300001, 1, 1)] (queued 1 none)
     ((t.slotAt 2).rptr ≠ (t.slotAt 2).wptr ∧ readAnd (t.feRead 2 ((t.slotAt 2).unitsVa 1)) (fun u b => pktLen b == 1 &&
       readAnd (u.feRead 2 ((t.slotAt 2).unitsVa 1)) (fun v c => (v.packetCheck (t.slotAt 2) c).isNone)) = true)) ∧ five.packetReady 7 donePkt = true ∧ (1023 : Nat) < 1024 ∧
    2 ^ 63 ≤ (0x8000000000000000 : Word).toNat := by
  and_intros <;> decide +kernel
/-- R243: a window of 2^12 bytes at a multiple of it is taken, one of 2^11 is not. -/
theorem test_map : seen (exec (.map 2) (queued 0 none)) (fun t => ((t.slotAt 2).state, (t.slotAt 2).mapErr)) = some (1, false) ∧
    seen (exec (.map 2) (five.setSlot 2 (slot2 11 0 none))) (fun t => ((t.slotAt 2).state, (t.slotAt 2).mapErr)) = some (0, true) := by decide +kernel
theorem test_kick : seen (exec (.kick 3 5) (queued 1 none)) (fun t => ((t.slotAt 2).wptr, (t.slotAt 2).state)) = some (5, 1) := by decide +kernel
/-- R249: the unit of zeros at the ring's head has length 0: BAD_PACKET_LENGTH (0x3C). -/
theorem test_fetch : seen (exec (.packetFetch 2) (queued 1 none)) (fun t => ((t.slotAt 2).state, (t.slotAt 2).field 0x21 1)) = some (4, 0x3C) := by decide +kernel
theorem test_tladd : seen (exec (.tladd 3 7) five) (fun t => (t.tl 3).value) = some 7 := by decide +kernel

/-! Packets at the head of slot 2. -/

def headed (b : List Byte) : State := queued 1 (some b)
def launchPkt : List Byte := pkt [(0, 1, 1), (1, 1, 3), (4, 2, 2), (6, 2, 1), (8, 8, 0x10000), (0x40, 1, 3)] 96
def gangPkt : List Byte := pkt [(0, 1, 2), (1, 1, 4), (8, 8, 0x10000), (0x40, 1, 3), (0x58, 2, 1), (0x60, 2, 1)] 128
def onePkt (op : Nat) (l : List (Nat × Nat × Nat)) : List Byte := pkt ([(0, 1, op), (1, 1, 1)] ++ l) 32
def openPkt (key : Nat) : List Byte :=
  pkt [(0, 1, 9), (1, 1, 4), (6, 2, key), (8, 1, 2), (0x10, 4, 60), (0x14, 4, 1), (0x1C, 1, 0xFF), (0x28, 4, 0x0A000001), (0x2C, 2, 5004), (0x38, 1, 0xFF), (0x40, 8, 0x10000)] 128
/-- Stream 1 is open, and transmit stream 0 (number 128). -/
def oneStream (key : Nat) : Stream := { Stream.reset with isOpen := true, desc := openPkt key, asid := 1 }
def streaming (b : List Byte) : State := ((headed b).setStream 1 (oneStream 1)).setStream 128 { oneStream 0x8000 with sends := [(0, 9)] }
def buffersPkt : List Byte := pkt [(0, 1, 9), (1, 1, 2), (4, 1, 2), (6, 2, 1), (8, 8, 0x10000), (0x10, 8, 64)] 64
def waitArg : Packet := { donePkt with done := false, opcode := 4, arg := [3, 0, 9, 5, 0, 2] }
def timing : State := { queued 1 none with fe := { (queued 1 none).fe with packets := [(7, waitArg)] } }
def killing : State := { five with fe := { five.fe with kills := [{ asid := 9, pkts := [] }] } }
def free (b : List Byte) : Bool := ((headed b).slotAt 2).state == 1 && ((headed b).slotAt 2).head == some b && (headed b).holdOf ((headed b).slotAt 2) b == 0

theorem witness_PacketsComplete : [nopPkt, launchPkt, gangPkt, onePkt 3 [], onePkt 4 [], onePkt 5 [], onePkt 6 [], onePkt 7 [], onePkt 8 [], openPkt 1].all free = true ∧
    (headed nopPkt).power.state = 0 ∧ ((headed nopPkt).slotAt 2).hostOut = none ∧
    timing.holdOf (timing.slotAt 2) nopPkt = 3 ∧ [nopPkt, launchPkt, gangPkt, onePkt 3 [], openPkt 1].map pktOp = [0, 1, 2, 3, 9] ∧
    (headed launchPkt).lcidsMapped launchPkt 1 = true ∧ (headed launchPkt).freeLaunch = some 0 ∧ pf launchPkt 0x50 8 = 0 ∧
    ((headed gangPkt).slotAt 2).block ≠ 5 ∧ (headed gangPkt).lcidsMapped gangPkt 1 = true ∧
    (let s := (headed gangPkt).setSlot 2 { slot2 12 1 (some gangPkt) with block := 5 };
      (s.slotAt 2).block = 5 ∧ s.holdOf (s.slotAt 2) gangPkt = 0 ∧ (s.slotAt 2).gangRaised = false) ∧
    ((headed (onePkt 5 [])).die 3).bte.length < 64 ∧ pf (openPkt 1) 4 1 = 0 ∧
    (let b := pkt [(0, 1, 9), (1, 1, 1), (4, 1, 1), (6, 2, 1)] 32;
      pf b 4 1 = 1 ∧ ((streaming b).stream (streamKey b)).sends = [] ∧ ((streaming b).stream (streamKey b)).hostOut = none ∧
        (match State.closeAll (streamKey b) ((streaming b).stream (streamKey b)).frames.length (streaming b) with
          | .got _ _ => true
          | _ => false) = true) ∧
    pf buffersPkt 4 1 = 2 ∧ okB ((streaming buffersPkt).buffersOk 1 ((streaming buffersPkt).stream 1) buffersPkt) = true ∧
    pf (pkt [(4, 1, 3)] 32) 4 1 = 3 ∧ isSome_ (timing.timedWait 2) (fun e => e.1 == 7) = true ∧
    isSome_ (killing.fe.kills.find? (fun k => k.asid == 9)) (fun k => k.pkts == []) = true ∧ killing.killAcked 9 = true := by decide +kernel
/-- A suspended record of ASID 1 at the SIGNAL's address; a partition of cluster 0; a ring descriptor of 2 units beside the stream's record. -/
def signalPkt : List Byte := onePkt 3 [(8, 8, 0x10000)]
def suspendedThere : State := putAll [(0x300000, 8, 4), (0x300008, 8, 0x0001600000000000), (0x300040, 8, 0x7FF)] (headed signalPkt)
def partitioned : State := (headed gangPkt).setCtlW 0x00400000 1
def raisedOnce : State := (headed gangPkt).setSlot 2 { slot2 12 1 (some gangPkt) with block := 5 }
def openable : State := putAll [(0x300000, 8, 0x10000), (0x300008, 1, 1)] (headed (openPkt 1))
theorem witness_PacketEffects : readAnd ((headed signalPkt).feRead 2 [(0x10000, 64), (0x10040, 64)]) (fun _ bs => (contOf bs).susp != 1) = true ∧
    readAnd (suspendedThere.feRead 2 [(0x10000, 64), (0x10040, 64)]) (fun t bs => (contOf bs).susp == 1 && (contOf bs).asid == 1 &&
      t.tagHeld (contOf bs).tag 1 && okAnd (t.engineAt engFront 1 false 0x10000 true) (fun p => !t.pinBusy p.pa && region p.pa != .host)) = true ∧
    ((headed signalPkt).slotAt 2).hostData = [] ∧ ((headed signalPkt).slotAt 2).casOut = false ∧ (headed signalPkt).servedAfter 2 = false ∧
    okAnd ((headed (onePkt 8 [(8, 8, 0x10000)])).engineAt engFront 1 false 0x10000 true) (fun p => !five.pinBusy p.pa) = true ∧
    readAnd (openable.feRead 2 (cut64 2 (recOf (openPkt 1)) 32)) (fun t r => ringOk (recOf (openPkt 1)) r 1 4 64 &&
      okB (t.rangeOk 1 true (BitVec.ofNat 64 (pf (openPkt 1) 0x48 8)) (if essOf (openPkt 1) = 0 then 8256 * 2 ^ pf r 8 1 else 0))) = true ∧
    partitioned.freeLaunch = some 0 ∧
    isSome_ (headed gangPkt).freeLaunch (fun e => (((headed gangPkt).takeEntry e ((headed gangPkt).slotAt 2) gangPkt 1).gangAll
      ((headed gangPkt).slotAt 2) gangPkt e).isNone) = true ∧
    (raisedOnce.slotAt 2).gangRaised = false ∧ timing.slotOf 3 = some 2 ∧
    ({ five with fe := { five.fe with packets := [(7, waitArg)] } } : State).slotOf 3 = none := by
  and_intros <;> decide +kernel
/-- Whichever of the free seats is taken, a gang of one member is placed. -/
theorem gangMember_some {s : State} {h : HwSlot} {b : List Byte} {entry p gy : Nat}
    (free : ((s.partCores p).flatMap (fun n => [(n, 0), (n, 1)])).filter
      (fun q => s.mayPlace (launchCont h b p gy q.1 q.2 entry) q.1 q.2) ≠ []) : (s.gangMember h b entry p gy).isSome = true := by
  have hl := Nat.mod_lt (Config.freeVictim s.fresh) (List.length_pos_iff.mpr free)
  simp only [State.gangMember, pickFree, Option.isSome_map, List.getElem?_eq_getElem hl, Option.isSome_some]
theorem gangAll_one {s : State} {h : HwSlot} {b : List Byte} {entry p : Nat}
    (one : (List.range 16).filter (fun p => (pf b 0x58 2).testBit p) = [p]) (cnt : pf b (0x60 + 2 * p) 2 = 1) :
    s.gangAll h b entry = s.gangMember h b entry p 0 := by
  unfold State.gangAll
  rw [one]
  simp only [List.flatMap_cons, List.flatMap_nil, List.append_nil, cnt]
  cases h : s.gangMember h b entry p 0 <;> simp [List.range_succ, List.foldlM_cons, h]
def gangFrom : State := partitioned.takeEntry 0 (partitioned.slotAt 2) gangPkt 1
theorem witness_GangPlaced : ∃ t, gangFrom.gangAll (partitioned.slotAt 2) gangPkt 0 = some t := by
  rw [gangAll_one (p := 0) (by decide +kernel) (by decide +kernel)]
  exact some_of (gangMember_some (by decide +kernel))
def moves (i : Instr) (s : State) : Bool := (seen (exec i s) (fun _ => ())).isSome
theorem test_packets : [moves (.nopPacket 2) (headed nopPkt), moves (.launch 2) (headed launchPkt), moves (.signal 2) (headed (onePkt 3 [])),
    moves (.waittlPacket 2) (headed (onePkt 4 [(4, 2, 3)])), moves (.btePacket 2) (headed (pkt [(0, 1, 5), (1, 1, 2), (0x18, 8, 64)] 64)),
    moves (.kill 2) (headed (onePkt 6 [(4, 2, 9)])), moves (.fencePacket 2) (headed (onePkt 7 [])), moves (.marker 2) (headed (onePkt 8 [(8, 8, 0x10000)])),
    moves (.open_ 2) (headed (openPkt 1)), moves (.buffers 2) (streaming buffersPkt), moves (.waittlPacketTimeout 2) timing, moves (.killComplete 9) killing] =
    List.replicate 12 true := by decide +kernel
/-- R259: an INC packet that completes at dispatch raises its queue's timeline by one; RPTR passes it (R260). -/
theorem test_nopInc : seen (exec (.nopPacket 2) (headed nopPkt)) (fun t => ((t.tl 3).value, (t.slotAt 2).rptr)) = some (1, 1) := by decide +kernel
/-- R252: two records, at coordinates 0 and 1. -/
theorem test_launch : seen (exec (.launch 2) (headed launchPkt)) (fun t => (t.die 0).pool.map (fun e => match e.item with
      | .record c => (c.w1.extractLsb' 0 16, c.w0.extractLsb' 4 51, c.asid)
      | .frame _ => (0, 0, 0))) = some [(0, 0x1000, 1), (1, 0x1000, 1)] := by decide +kernel

/-! Maintenance. -/

def shooting : State := { five with fe := { five.fe with tlbi := [{ asid := 7, kind := 1, va := 0, len := 0 }] } }
def pinned : State := five.setPin 1 2 { valid := true, busy := some true, ppn := 0x50 }
def scanned : State := five.modCluster 3 (fun c => { c with scanBusy := some 30 })
theorem witness_MaintenanceRowsComplete : five.fe.tlbi.length < 4 ∧ 4 ≤ (7 : BitVec 3).toNat ∧ isSome_ shooting.fe.tlbi.head? (fun k => shooting.shootQuiet k) = true ∧
    (let e := (five.cluster 1).pin 2;
      e.busy = none ∧ e.valid = false ∧ region ((0x50 : W32).toNat * 0x10000) = .lpddr ∧ five.pageNamed 0x50 = false) ∧
    (let e := ((five.setPin 1 2 { valid := true, busy := none, ppn := 0x50 }).cluster 1).pin 2;
      e.busy = none ∧ e.valid = true) ∧ ((pinned.cluster 1).pin 2).busy.isSome = true ∧
    (scanned.cluster (10 * 0 + 3)).scanBusy = some 30 ∧ (five.setCtlW 0x00F03100 0).applyRefused = true ∧
    placeThere (.queue 0) = true ∧ isSome_ (five.detect { kind := .consumedBySeat 0 0 [] [] [], place := .queue 0 }) (fun _ => true) = true ∧
    region 0x300000 = .lpddr ∧ alook (0x300000 / 64) five.lines = none := by decide +kernel
/-- Core 32 has no LCID and is masked out. -/
def masked32 : State := ({ five with fe := { five.fe with lcid := [(32, 0)] } } : State).setCtlW 0x00F03104 0xFFFFFFFE
theorem witness_MaintenanceClauses : lcidValid (0x80000003#32 &&& 0x800001FF#32) = true ∧ five.lcidOf 3 = some 3 ∧ lcidValid (0#32) = false ∧
    (five.seatAt 0 0).busy = true ∧ (five.seatAt 7 0).busy = false ∧ (five.seatAt 7 1).busy = false ∧ (five.core 7).stopping = none ∧
    (five.cluster (clusterOf 7)).scanBusy = none ∧ five.applyRefused = false ∧ masked32.applyRefused = false ∧
    masked32.maskBit 32 = false ∧ masked32.topo.mode ≠ 0 ∧ five.dirtyOwner 0x300000 ≠ some 0 ∧
    ((five.modCtl (fun c => { c with phaseEn := true })).seatAt 0 0).file.ctl.phaseEn = true ∧
    someAnd (copying.op 0 1) (fun o => match o with
      | .copy _ => true
      | _ => false) = true := by decide +kernel
theorem test_maintenance : [moves (.tlbiAll) five, moves (.tlbiReserved 5) five, moves .tlbiComplete shooting, moves (.pin 1 2 0x50) five, moves (.pinComplete 1 2) pinned,
    moves (.lcidMapWrite 3 0) five, moves (.scanRequest 0 7) five, moves (.scanComplete 0 3 true) scanned, moves (.suspack 4) five, moves .apply five] =
    List.replicate 10 true := by decide +kernel
/-- R465: an APPLY that would hide a busy core sets ERR. -/
theorem test_topoApply : seen (exec .apply (five.setCtlW 0x00F03100 0)) (fun t => t.topo.err) = some true := by decide +kernel
theorem test_poison : seen (exec (.errorDetected { kind := .poisoned, place := .lpddr 0x300000 }) five) (fun t => (t.poisoned 0x300000, t.tagAt 0x300000)) =
    some (true, 0xFF00) := by decide +kernel

/-! Power and security. -/

def tile (t : Tile) (s : State) : State := s.modCore 5 (fun c => { c with tile := t })
def dormant : State := { State.reset with power := { State.reset.power with waking := true } }
def alarming : State := (State.reset.setCtlW 0x05000008 1).tick 0 5
def securing (n : Nat) : State := { five with sec := { five.sec with svn := 6, busy := some { cmd := n, leaf := 0, request := some [], hostOut := none } } }
theorem witness_PowerAndSecurityRowsComplete : ((tile .on five).core 5).tile = .on ∧ (tile .on five).tileIdle 5 = true ∧ ((tile .ret five).core 5).tile = .ret ∧
    (tile .ret five).tileIdle 5 = true ∧ ((tile .ret five).core 5).ops.isEmpty = true ∧ (tile .ret five).keptOn 5 = false ∧ (tile .ret five).idleOff (dieOf 5) ≠ 0 ∧
    ((tile .wakingOff five).core 5).tile = .wakingOff ∧ five.power.state = 0 ∧ (five.core 5).throttled = false ∧
    ((five.modCore 5 (fun c => { c with throttled := true, tripped := true })).core 5).throttled = true ∧
    ((five.modCore 5 (fun c => { c with throttled := true, tripped := true })).core 5).tripped = true ∧ five.power.capped = false ∧
    ({ five with power := { five.power with capped := true } } : State).power.capped = true ∧ five.power.state ≠ 3 ∧ five.sleepRefused 1 = true ∧
    State.reset.sleepRefused 1 = false ∧ State.reset.power.state ≠ 3 ∧ dormant.power.waking = true ∧ (alarming.power.state = 1 ∨ alarming.power.state = 2) ∧
    alarming.wakeEnabled 2 = true ∧ alarming.ctlD 0x05000008 ≠ 0 ∧ alarming.alarmNs ≤ alarming.ptpNs ∧ State.reset.sec.booted = false ∧
    isSome_ (securing 2).sec.busy (fun c => c.hostOut.isNone && c.cmd == 2) = true ∧ isSome_ (securing 4).sec.busy (fun c => c.cmd == 4) = true ∧
    isSome_ (securing 1).sec.busy (fun c => c.cmd == 1) = true := by decide +kernel
/-- The unit with an INSTALL whose image stands where no memory is. -/
def nowhere : State := (securing 1).setCtlW 0x04000004 0xFFFFFFFF
theorem witness_SecurityClauses : isSome_ nowhere.sec.busy (fun c => c.cmd == 1 && (nowhere.secImage c).isNone) = true ∧
    isSome_ (securing 3).sec.busy (fun c => ((securing 3).secRead c 64).isSome && okB ((securing 3).engineAt engFront 0 true (BitVec.ofNat 64 (securing 3).secDst) true) &&
      okB ((securing 3).engineAt engFront 0 true (BitVec.ofNat 64 ((securing 3).secDst + 2995)) true)) = true ∧ five.sec.busy = none ∧ five.sec.attest < 2 ^ 20 ∧
    2 ^ 20 ≤ ({ five with sec := { five.sec with attest := 2 ^ 20 } } : State).sec.attest ∧
    ({ (securing 1) with sec := { (securing 1).sec with bootOk := true } } : State).sec.bootOk = true ∧
    isSome_ ({ (securing 3) with sec := { (securing 3).sec with busy := some { cmd := 3, leaf := 2 ^ 20, request := some [], hostOut := none } } } : State).sec.busy
      (fun c => c.cmd == 3 && decide (2 ^ 20 ≤ c.leaf)) = true ∧ ((tile .on five).seatAt 5 0).busy = false ∧ ((tile .on five).seatAt 5 1).busy = false ∧
    dormant.power.lost = false ∧ dormant.net.wakeBuf = [] := by decide +kernel
/-- R526, R527: an image without its magic is malformed; with two of them there is no firmware, and the device is DORMANT. -/
theorem test_noImage (k : List (BitVec 8)) (r : BitVec 16) : imageVerdict k [] r = .error 3 := by simp [imageVerdict, headerField, bytesToNat]
def blank : State := { State.reset with sec := { State.reset.sec with images := [(0, []), (1, [])] } }
theorem test_coldStart : seen (exec (.coldStart [] []) blank) (fun t => (t.sec.bootOk, t.sec.reason, t.power.state)) = some (false, 4, 2) := by
  have hb : State.reset.sec.booted = false := rfl
  have ha : State.reset.sec.active = 0 := rfl
  simp [exec, execColdStart, dev, seen, State.coldStart, State.slotImage, aget, alook, ha, hb, test_noImage, blank, State.openAperture, State.setCtlW]
theorem test_advance : seen (exec (.securityCommandComplete [] []) (securing 2)) (fun t => (t.sec.rollctr, t.sec.busy.isNone)) = some (6, true) := by decide +kernel
/-- The published value of SHAKE256 of no bytes. -/
theorem test_shake256 : (shake256 []).take 4 = [0x46, 0xB9, 0xDD, 0x2B] := by decide +kernel
theorem test_wake : seen (exec .wakeComplete dormant) (fun t => t.power.state) = some 0 := by decide +kernel
theorem test_trip : seen (exec (.thermalTrip 0) five) (fun t => ((t.core 0).tile == .off, (t.seatAt 0 0).busy, t.power.tripCount)) = some (true, false, 1) := by decide +kernel
theorem test_powerLoss : seen (exec .powerLoss five) (fun t => (t.power.state, t.cores.length, t.mem.length)) = some (3, 0, 0) := by decide +kernel
theorem test_powerRows : [moves (.tileIdleRet 5) (tile .on five), moves (.tileIdleOff 5) (tile .ret five), moves (.tileWakeComplete 5) (tile .wakingOff five),
    moves (.thermalWarn 5) five, moves (.thermalThrottle 5) five, moves .powerCap five, moves .targetActive State.reset, moves .targetDormant State.reset,
    moves .alarm alarming, moves .tcmopen five, moves .attest five] = List.replicate 11 true := by decide +kernel

/-! Outside. -/

def linked : State := { five with host := { five.host with modules := 2, reqs := [(0, { asid := 1, use := .engine, addr := 2 ^ 54, size := 8, write := true, data := List.replicate 8 0 })] } }
def frame0 : MediaFrame :=
  { number := 0, skipped := false, slot := 0, buffers := buffersPkt, ts := none, firstTime := [], raw := [], arrived := [], groups := 0, seqA := [], seqB := [] }
def mediaOn : State :=
  ((linked.setStream 1 { oneStream 1 with buffers := buffersPkt, frames := [frame0], nextFrame := 1, recBase := 0x10000 })).setStream 128
    { oneStream 0x8000 with sends := [(0, 9)] }
def rtp0 : RtpPacket := { seqNo := 0, ts := 0, payloadType := 96, srcIp := 0, dstIp := BitVec.ofNat 32 (pf (openPkt 1) 0x24 4), udpPort := 5004, parts := [] }
def withPort (k : Nat) : State := mediaOn.setStream k { mediaOn.stream k with desc := pkt [(8, 1, 2), (0x10, 4, 60), (0x14, 4, 1), (0x1C, 1, 0xFF), (0x2C, 2, 5004), (0x38, 1, 0xFF), (0x40, 8, 0x10000)] 128 }
theorem witness_OutsideRowsComplete : linked.power.state = 0 ∧ linked.pinBusy 0x40 = false ∧ (askRange (.read 0x40 8)).1 < 0x200000000 ∧ (askRange (.read 0x40 8)).2 ≠ 0 ∧
    (askRange (.read 0x40 64)).1 % 64 + (askRange (.read 0x40 64)).2 ≤ 64 ∧ linked.host.modules ≠ 0 ∧ (linked.hostDone 0 none).isSome = true ∧
    (linked.hostDone 0 (some [])).isSome = true ∧ (2 : Nat) ≤ 2 ∧ (mediaOn.stream 1).isOpen = true ∧ (mediaOn.stream 1).hostOut = none ∧
    pathMatch ((withPort 1).stream 1).desc 0 0 0 5004 (96 % 128) = true ∧ ((withPort 1).rtp 1 0 { rtp0 with dstIp := 0 }).isSome = true ∧
    essOf (mediaOn.stream 1).desc ≠ 1 ∧ (mediaOn.stream 1).frames ≠ [] ∧ (match mediaOn.closeHead 1 with
      | .got _ _ => true
      | _ => false) = true ∧ (mediaOn.stream 128).isOpen = true ∧ (mediaOn.stream 128).hostOut = none ∧ (mediaOn.stream 128).sends = (0, 9) :: [] ∧
    ((five.modCore 2 (fun c => { c with frozen := true })).core 2).frozen = true ∧
    (let c := (aget Monitor.reset 1 (((tile .on five).modMonitor 5 1 (fun m => { m with ctl := 0x16 })).core 5).monitors).ctl;
      c.getLsbD 4 = true ∧ c.extractLsb' 0 4 = 6#4) ∧ ((tile .on five).core 5).tile ≠ .off ∧
    (five.ctlWrite .fw 0x00F00100 8 0).isSome = true ∧ (five.hostCtlWrite 0x01040080 4 1).isSome = true := by decide +kernel
/-- Aperture 0 open at physical 0. -/
def apertured : State := (linked.setCtlW 0x00F80020 0).setCtlW 0x00F80024 0x80000000
theorem witness_OutsideClauses : linked.aperture 0x100000040 = none ∧ apertured.aperture 0x100000040 = some 0x40 ∧ apertured.poisoned 0x40 = false ∧
    ({ apertured with poison := [(1, true)] } : State).poisoned 0x40 = true ∧ someAnd (alook 0 linked.host.reqs) (fun r => r.use == .engine && r.write) = true ∧
    alook 50 linked.host.hivtPend = none ∧ (alook 50 ({ linked.host with hivtPend := [(50, true)] } : HostPort).hivtPend).isSome = true ∧
    linked.pinsQuiet = true ∧ (mediaOn.setStream 1 (oneStream 1)).pinsQuiet = true ∧ ((mediaOn.setStream 1 (oneStream 1)).stream 1).buffers = [] ∧
    (mediaOn.stream 128).buffers = [] ∧ dualOf (mediaOn.stream 128).desc = false ∧ alook 9 mediaOn.fe.packets = none ∧
    (alook 9 ({ mediaOn with fe := { mediaOn.fe with packets := [(9, donePkt)] } } : State).fe.packets).isSome = true := by decide +kernel
/-- R502: an event message leaves its ingress time. -/
theorem test_stamp : seen (exec (.ethFrameReceive 3 (List.replicate 12 0 ++ [0x88, 0xF7] ++ List.replicate 50 0)) (five.tick 0 7)) (fun t => t.net.stamps) =
    some [(3, natToBytes 10 7)] := by decide +kernel
theorem test_outside : [moves (.hostRead 0x40 8) linked, moves (.hostWrite 0x100000040 (List.replicate 8 (some 0))) linked, moves (.hostAtomic 0x100000040 8 .add 1 0) linked,
    moves (.hostLinkTimeout 0) linked, moves (.hostLinkTraining 1) five, moves (.hivtEnable 50 true) five, moves (.h2fdbWrite 1) five, moves (.f2hdbWrite 0) five,
    moves (.ethFrameReceive 0 (List.replicate 64 0)) five, moves (.ethLinkChange 0 true) five, moves (.tustep 5) five, moves (.frameStart 1) mediaOn,
    moves (.frameDeadline 1) mediaOn, moves (.monitorClear 5 1) (tile .on five)] = List.replicate 14 true := by decide +kernel
/-- R476: outside ACTIVE a request of the host is held and wakes the device. -/
theorem test_hostHeld : seen (exec (.hostRead 0x40 8) State.reset) (fun t => (t.host.held.length, t.power.waking, t.power.wcause)) = some (1, true, 1) := by decide +kernel

/-! The step. -/

/-- ADDI s56, s56, 256 stands at the program counter; no other actor moves. -/
def stepping : State := at_ 0x238E1000
theorem witness_StepRunsTheDecodedInstruction : ((zero.seatAt 0 0).run = .running ∧ (stepping.seatAt 0 0).pair = none ∧ (stepping.core 0).stopping = none) ∧
    (stepping.boundaryCause 0 0).isNone = true ∧ okAnd (stepping.fetch 0x1000) (fun r =>
      (stepping.poisonHit r.2).isNone && blockOwners (BitVec.ofNat 128 (bytesToNat r.1)) == [] &&
      okAnd (decodeBundle (BitVec.ofNat 128 (bytesToNat r.1))) (fun b => (plans b []).length == 1)) = true ∧
    (match stepping.attempt 0 0 with
      | .ok (.issued _ _ b) => b == 0
      | _ => false) = true ∧ stepping.agenda = [] ∧ (stepping.core stepping.focus.core).tile = .on ∧ (stepping.core 0).paramLeft = 0 ∧ (stepping.seatAt 0 1).run = .idle ∧
    ({ stepping with agenda := [.dev .apply] } : State).agenda = .dev .apply :: [] ∧ Instr.apply.isSlot = false ∧ stepping.power.state ≠ 3 := by decide +kernel
theorem witness_DecodeReadsWhatEncodeWrites : (Instr.addi 56 56 256 0).isSlot = true ∧ (Instr.addi 56 56 256 0).wf = true ∧
    (Instr.ldD 59 58 0x7F 0 3).isSlot = true ∧ (Instr.ldD 59 58 0x7F 0 3).wf = true := by decide +kernel
theorem witness_EveryStepKeepsMemoryCanonical : Memory.wf stepping.mem ∧ (seen (step stepping) (fun _ => ())).isSome = true := by decide +kernel
/-- A device step as the actor. -/
theorem test_stepDevice : seen (step { stepping with agenda := [.dev (.tladd 3 7)] }) (fun t => ((t.tl 3).value, t.agenda.length)) = some (7, 0) := by decide +kernel
/-- R261: WIN0 is written, and window 0 then names the page at 0x40000000; WIN1's window names what it names. -/
def firm : State := ({ zero with sec := { zero.sec with bootOk := true } } : State).setCtlW 0x01000100 0
def policy (l : List PolicyAccess) (s : State) : State := l.foldl (fun s a => (seen (policyStep a s) id).getD s) s
theorem test_policy : (policy [.store 0x40000 (natToBytes 4 2), .store 0x40000004 (natToBytes 4 0x11223344), .load 0x40000004 2, .load 0x60000000 4, .load 0x40000001 4,
    .load 0x40000000 4, .load 0x00050000 4] firm).policy.replies = [some [0x44, 0x33], some [0, 0, 0, 0], some [0, 0, 0, 0], none] := by decide +kernel
theorem test_policyTcm : (policy [.store 0x100 (natToBytes 4 0xAABBCCDD), .store 0x102 [1], .load 0x100 4, .load 0x80401004 4] firm).policy.replies =
    [some [0xDD, 0xCC, 1, 0xAA], some [0, 0, 0, 0]] := by decide +kernel

end Sys2Proof.Tests
end

section
/-! PROOF. Memory and the scalar loads and stores: what a byte stored reads back as, and what a load or a store in scratchpad,
in memory or in control space comes to. -/

namespace Sys2Proof.Machine

/-! Little-endian bytes (R11). -/

@[simp] theorem natToBytes_length (n v : Nat) : (natToBytes n v).length = n := by
  induction n generalizing v with
  | zero => rfl
  | succ n ih => simp [natToBytes, ih]

theorem bytesToNat_natToBytes (n v : Nat) : bytesToNat (natToBytes n v) = v % 2 ^ (8 * n) := by
  induction n generalizing v with
  | zero => simp [natToBytes, bytesToNat, Nat.mod_one]
  | succ n ih =>
    have hp : 2 ^ (8 * (n + 1)) = 256 * 2 ^ (8 * n) := by rw [Nat.mul_succ, Nat.pow_add, Nat.mul_comm]
    simp only [natToBytes, bytesToNat, ih, BitVec.toNat_ofNat]
    rw [hp, Nat.mod_mul]

/-- R312: the bytes of an n-byte value, loaded by a form that extends the sign, give the value extended. -/
theorem loadValue_natToBytes_signed {n : Nat} (h : BitVec (8 * n)) (hn : n ≤ 8) :
    loadValue n true (natToBytes n h.toNat) = h.signExtend 64 := by
  have hv : bytesToNat (natToBytes n h.toNat) = h.toNat := by
    rw [bytesToNat_natToBytes, Nat.mod_eq_of_lt h.isLt]
  have hmsb : h.toNat.testBit (8 * n - 1) = h.msb := (BitVec.msb_eq_getLsbD_last h).symm
  apply BitVec.eq_of_toNat_eq
  rw [BitVec.toNat_signExtend, BitVec.toNat_setWidth_of_le (by omega)]
  simp only [loadValue, hv, hmsb, Bool.true_and, BitVec.toNat_ofNat]
  have hlt := h.isLt
  have hle : 2 ^ (8 * n) ≤ 2 ^ 64 := Nat.pow_le_pow_right (by decide) (by omega)
  split <;> exact Nat.mod_eq_of_lt (by omega)

/-! Finite maps and lists. -/

theorem mem_of_alook {α : Type} {k : Nat} {v : α} {m : Assoc α} (h : alook k m = some v) : (k, v) ∈ m := by
  induction m with
  | nil => simp [alook] at h
  | cons e r ih =>
    obtain ⟨i, w⟩ := e
    by_cases hi : i = k
    · simp_all [alook]
    · exact List.mem_cons_of_mem _ (ih (by simpa [alook, hi] using h))

theorem nth_set_same {α : Type} (d v : α) {k : Nat} {l : List α} (h : k < l.length) : nth d k (l.set k v) = v := by
  simp [nth, h]

theorem nth_set_ne {α : Type} (d v : α) {j k : Nat} (l : List α) (h : j ≠ k) : nth d j (l.set k v) = nth d j l := by
  simp [nth, List.getElem?_set_ne (Ne.symm h)]

/-! Bytes at their home and in the coherent view. -/

/-- Each line of the caches holds 64 bytes (R88). -/
def LinesFull (s : State) : Prop := ∀ l ∈ s.lines, l.2.data.length = 64

/-- R488: without a redirected line every byte stands at its own home. -/
theorem homePa_unredirected {s : State} (h : s.resole.redirect = []) (pa : Nat) : s.homePa pa = pa := by
  simp [State.homePa, h, alook]

theorem byteAt_line {s : State} {pa : Nat} {l : CachedLine} (h : alook (pa / 64) s.lines = some l) :
    s.byteAt pa = nth 0 (pa % 64) l.data := by
  simp [State.byteAt, h]

theorem byteAt_uncached {s : State} {pa : Nat} (h : alook (pa / 64) s.lines = none) : s.byteAt pa = s.homeByte pa := by
  simp [State.byteAt, h]

/-- The coherent view of a byte rests on its line's entry and its home alone. -/
theorem byteAt_congr {s t : State} {pa : Nat} (hl : alook (pa / 64) t.lines = alook (pa / 64) s.lines)
    (hh : t.homeByte pa = s.homeByte pa) : t.byteAt pa = s.byteAt pa := by
  simp only [State.byteAt, hl, hh]

/-! A line taken in by an L1 (R93). -/

/-- A line that a cache holds or takes in shows the bytes of the coherent view. -/
theorem cachedLine_byte (s : State) (pa : Nat) : nth 0 (pa % 64) (s.cachedLine (pa / 64)).data = s.byteAt pa := by
  cases h : alook (pa / 64) s.lines with
  | some l => simp [State.cachedLine, h, byteAt_line h]
  | none =>
    have hd : pa / 64 * 64 + pa % 64 = pa := Nat.div_add_mod' pa 64
    simp [State.cachedLine, h, State.lineAt, nth, Nat.mod_lt, hd]

theorem cachedLine_length {s : State} (h : LinesFull s) (line : Nat) : (s.cachedLine line).data.length = 64 := by
  cases hl : alook line s.lines with
  | some l => simpa [State.cachedLine, hl] using h _ (mem_of_alook hl)
  | none => simp [State.cachedLine, hl, State.lineAt]

theorem ownLine_line (s : State) (core : Nat) (last : Bool) (pa : Nat) :
    alook (pa / 64) (s.ownLine core last pa).lines = some { s.cachedLine (pa / 64) with owner := some core } := by
  simp [State.ownLine, State.l1Put]

@[simp] theorem ownLine_homeByte (s : State) (core : Nat) (last : Bool) (pa qa : Nat) :
    (s.ownLine core last pa).homeByte qa = s.homeByte qa := rfl

/-- Taking a line in changes no byte of the coherent view. -/
@[simp] theorem ownLine_byteAt (s : State) (core : Nat) (last : Bool) (pa qa : Nat) :
    (s.ownLine core last pa).byteAt qa = s.byteAt qa := by
  by_cases hq : qa / 64 = pa / 64
  · have hl := ownLine_line s core last pa
    rw [← hq] at hl
    rw [byteAt_line hl, ← cachedLine_byte]
  · exact byteAt_congr (alook_aput_ne hq _ _) rfl

/-! A byte written into the cached copies of its line (R93). -/

@[simp] theorem putCached_homeByte (s : State) (pa qa : Nat) (b : Byte) : (s.putCached pa b).homeByte qa = s.homeByte qa := by
  unfold State.putCached
  split <;> rfl

@[simp] theorem putCached_resole (s : State) (pa : Nat) (b : Byte) : (s.putCached pa b).resole = s.resole := by
  unfold State.putCached
  split <;> rfl

theorem putCached_line {s : State} {pa : Nat} {l : CachedLine} (b : Byte) (h : alook (pa / 64) s.lines = some l) :
    alook (pa / 64) (s.putCached pa b).lines = some { l with data := l.data.set (pa % 64) b } := by
  simp [State.putCached, h]

theorem putCached_uncached {s : State} {pa : Nat} (b : Byte) (h : alook (pa / 64) s.lines = none) :
    s.putCached pa b = s := by
  simp [State.putCached, h]

theorem putCached_byteAt_same {s : State} {pa : Nat} {l : CachedLine} (b : Byte) (h : alook (pa / 64) s.lines = some l)
    (hn : l.data.length = 64) : (s.putCached pa b).byteAt pa = b := by
  rw [byteAt_line (putCached_line b h)]
  exact nth_set_same _ _ (by omega)

theorem putCached_byteAt_ne (s : State) {pa qa : Nat} (b : Byte) (hne : qa ≠ pa) :
    (s.putCached pa b).byteAt qa = s.byteAt qa := by
  cases h : alook (pa / 64) s.lines with
  | none => rw [putCached_uncached b h]
  | some l =>
    by_cases hq : qa / 64 = pa / 64
    · have hl := putCached_line b h
      rw [← hq] at hl h
      rw [byteAt_line hl, byteAt_line h]
      exact nth_set_ne _ _ _ (by omega)
    · refine byteAt_congr ?_ (putCached_homeByte s pa qa b)
      simp [State.putCached, h, alook_aput_ne hq]

/-! One byte stored in a way (R93). -/

theorem storeCached_homeByte (s : State) (core : Nat) (last : Bool) (pa qa : Nat) (b : Byte) :
    (s.storeByte (.cached core last) pa b).homeByte qa = s.homeByte qa :=
  (putCached_homeByte _ pa qa b).trans (ownLine_homeByte s core last pa qa)

theorem storeCached_byteAt_same {s : State} (h : LinesFull s) (core : Nat) (last : Bool) (pa : Nat) (b : Byte) :
    (s.storeByte (.cached core last) pa b).byteAt pa = b :=
  putCached_byteAt_same b (ownLine_line s core last pa) (cachedLine_length h (pa / 64))

theorem storeCached_byteAt_ne (s : State) (core : Nat) (last : Bool) {pa qa : Nat} (b : Byte) (hne : qa ≠ pa) :
    (s.storeByte (.cached core last) pa b).byteAt qa = s.byteAt qa :=
  (putCached_byteAt_ne _ b hne).trans (ownLine_byteAt s core last pa qa)

theorem storeThrough_homeByte_same {s : State} (hr : s.resole.redirect = []) (pa : Nat) (b : Byte) :
    (s.storeByte .through pa b).homeByte pa = b :=
  homeByte_putHome_same _ pa b (by simp [putCached_resole, hr, alook])

theorem storeThrough_byteAt_same {s : State} (h : LinesFull s) (hr : s.resole.redirect = []) (pa : Nat) (b : Byte) :
    (s.storeByte .through pa b).byteAt pa = b := by
  cases hl : alook (pa / 64) s.lines with
  | some l =>
    -- the write at the home leaves the line as the write into the caches has made it
    have hp : alook (pa / 64) (s.storeByte .through pa b).lines = alook (pa / 64) (s.putCached pa b).lines := rfl
    rw [byteAt_line (hp.trans (putCached_line b hl))]
    have hn : l.data.length = 64 := h _ (mem_of_alook hl)
    exact nth_set_same _ _ (by omega)
  | none =>
    have hp : alook (pa / 64) (s.storeByte .through pa b).lines = none := by
      simp [State.storeByte, putCached_uncached b hl, hl]
    rw [byteAt_uncached hp, storeThrough_homeByte_same hr]

theorem storeThrough_byteAt_ne {s : State} (hr : s.resole.redirect = []) {pa qa : Nat} (b : Byte) (hne : qa ≠ pa) :
    (s.storeByte .through pa b).byteAt qa = s.byteAt qa := by
  have hq : (s.putCached pa b).homePa qa ≠ pa := by
    rwa [homePa_unredirected (by rw [putCached_resole, hr])]
  exact (byteAt_putHome_ne _ pa qa b hq).trans (putCached_byteAt_ne s b hne)

/-- Settles O23: a byte written into a line of 64 bytes, at an unredirected home, or both, is the one byte that changes there. -/
theorem memoryReadsAfterWrites : Obligations.MemoryReadsAfterWrites := by
  intro s pa qa core last b hlines hr
  have hput : (s.putHome pa b).homeByte pa = b := homeByte_putHome_same s pa b (by simp [hr, alook])
  have hhome : qa ≠ pa → (s.putHome pa b).homeByte qa = s.homeByte qa := fun hne =>
    homeByte_putHome_ne s pa qa b (by rwa [homePa_unredirected hr])
  exact ⟨hput, hhome, storeCached_byteAt_same hlines core last pa b, storeCached_byteAt_ne s core last b,
    storeCached_homeByte s core last pa qa b, storeThrough_byteAt_same hlines hr pa b, storeThrough_homeByte_same hr pa b,
    storeThrough_byteAt_ne hr b, hput⟩

/-! Scalar loads (R312 to R315). -/

theorem seatRead_cons (s : State) (p : Piece) (ps : List Piece) : s.seatRead (p :: ps) = s.seatRead [p] ++ s.seatRead ps := by
  simp [State.seatRead]

/-- R313: the pieces of a read that name no host memory give the bytes that the seat sees. -/
theorem readScalar_of_noHost (s : State) {ps : List Piece} (h : anyHost ps = false) : s.readScalar ps = .ok (s.seatRead ps) := by
  induction ps with
  | nil => rfl
  | cons p ps ih =>
    simp only [anyHost, List.any_cons, Bool.or_eq_false_iff, beq_eq_false_iff_ne] at h
    obtain ⟨hp, hps⟩ := h
    rw [seatRead_cons]
    simp [State.readScalar, State.pieceRead, hp, ih hps, bind, Except.bind]

theorem find_control_of_none {ps : List Piece} (h : anyControl ps = false) :
    ps.find? (fun p => region p.pa == .control) = none := by
  simpa [anyControl] using h

/-- R313: a scalar read of plain memory that meets no poisoned block. -/
theorem loadScalar_memory (s : State) (n : Nat) {ps : List Piece} (hc : anyControl ps = false) (hh : anyHost ps = false)
    (hp : s.poisonHit ps = none) : s.loadScalar n ps = .ok (s.seatRead ps, s.installRead ps) := by
  simp [State.loadScalar, find_control_of_none hc, readScalar_of_noHost s hh, hp, bind, Except.bind]

section
variable {n : Nat} {sx : Bool} {d a : BitVec 6} {imm : BitVec 13} {g : BitVec 4} {s : State}

/-- Every form of a scalar load is scalarLoad at its width and its extension: in scratchpad behind the scoreboard, in virtual
memory once its bytes translate and are read. -/
theorem does_scalarLoad {i : BitVec 1 → Instr} (hi : ∀ sp, exec (i sp) s = scalarLoad n sx d a sp imm g s)
    (hr : Ready g [.s a] [.s d] s) :
    let o : Word := s.rS a + imm.signExtend 64
    (s.awaitSpans s.window o n = .ok () →
      Does (i 1) s ((s.loadSp o n).2.wS d (loadValue n sx (s.loadSp o n).1) ((s.loadSp o n).2.after 4))) ∧
    (∀ ps r, s.seatPieces o n (regAccess false o n) = .ok ps → s.loadScalar n ps = .ok r →
      Does (i 0) s ((r.2.trace s.focus.core s.focus.seat 2 o).loadInto d (loadValue n sx r.1) 12)) := by
  refine ⟨fun hw => ?_, fun ps r hp hl => ?_⟩
  · rw [Does, hi, scalarLoad, slotOp_ready hr]
    simp [hw, bind, Except.bind]
  · rw [Does, hi, scalarLoad, slotOp_ready hr]
    simp [hp, hl, bind, Except.bind]

end

/-- Settles O20: each form runs as scalarLoad does; plain memory gives what the seat sees, and the values are little-endian. -/
theorem scalarLoadsComplete : Obligations.ScalarLoadsComplete := by
  intro d a imm g s hr
  refine ⟨does_scalarLoad (i := fun sp => .ldB d a sp imm g) (fun _ => rfl) hr,
    does_scalarLoad (i := fun sp => .ldBs d a sp imm g) (fun _ => rfl) hr,
    does_scalarLoad (i := fun sp => .ldH d a sp imm g) (fun _ => rfl) hr,
    does_scalarLoad (i := fun sp => .ldHs d a sp imm g) (fun _ => rfl) hr,
    does_scalarLoad (i := fun sp => .ldW d a sp imm g) (fun _ => rfl) hr,
    does_scalarLoad (i := fun sp => .ldWs d a sp imm g) (fun _ => rfl) hr,
    does_scalarLoad (i := fun sp => .ldD d a sp imm g) (fun _ => rfl) hr,
    fun n _ => loadScalar_memory s n, fun _ _ _ => rfl, fun b => ?_,
    fun h => loadValue_natToBytes_signed (n := 2) h (by decide),
    fun w => loadValue_natToBytes_signed (n := 4) w (by decide)⟩
  have hb : natToBytes 1 b.toNat = [b] := by simp [natToBytes]
  exact hb ▸ loadValue_natToBytes_signed (n := 1) b (by decide)

/-! Scalar stores (R312 to R314). -/

/-- R93, R456: with room in the phase store queue, a store of the seat in focus is held or performed. -/
theorem seatStore_of_room {s : State} {va : Word} (h : s.psqRoom va = .ok ()) (parts : List (Nat × BitVec 3 × List Byte))
    (tags : List (Nat × BitVec 3 × BitVec 16)) (ord : StoreOrd) :
    s.seatStore va parts tags ord = .ok (s.stored va parts tags ord) := by
  simp only [State.seatStore, State.stored, h, bind, Except.bind]
  split <;> rfl

/-- R153, R313: a scalar write whose pieces name no control space. -/
theorem writeScalar_memory {s : State} {va : Word} {ps : List Piece} (hc : anyControl ps = false)
    (hs : s.awaitSo ps = .ok ()) (hq : (s.install true ps).psqRoom va = .ok ()) (bs : List Byte) :
    s.writeScalar va ps bs = .ok ((s.install true ps).stored va (cutPieces ps bs) [] (storeOrd none ps)) := by
  simp only [State.writeScalar, hs, find_control_of_none hc, State.storeScalar, List.filter_nil]
  exact seatStore_of_room hq _ _ _

/-- R39, R313: a scalar write to control space, which lies in one page. -/
theorem writeScalar_control {s : State} {va : Word} {p : Piece} (hc : region p.pa = .control) (hs : s.awaitSo [p] = .ok ())
    (bs : List Byte) :
    s.writeScalar va [p] bs = (s.install true [p]).seatCtlWrite p.pa bs.length (BitVec.ofNat 64 (bytesToNat bs)) := by
  simp [State.writeScalar, hs, hc]

section
variable {n : Nat} {c a : BitVec 6} {imm : BitVec 13} {g : BitVec 4} {s : State}

/-- A scalar store into virtual memory is its write, once its bytes translate. -/
theorem does_scalarStore_virtual {i : Instr} (hi : exec i s = scalarStore n c a 0 imm g s) (hr : Ready g [.s c, .s a] [] s) :
    let o : Word := s.rS a + imm.signExtend 64
    ∀ {ps : List Piece} {t : State}, s.seatPieces o n (regAccess true o n) = .ok ps →
      s.writeScalar o ps (natToBytes n (s.rS c).toNat) = .ok t → Does i s (t.trace s.focus.core s.focus.seat 3 o) := by
  intro o ps t hp hw
  rw [Does, hi, scalarStore, slotOp_ready hr]
  simp [o, hp, hw, bind, Except.bind]

/-- Every form of a scalar store is scalarStore at its width: in scratchpad behind the scoreboard, in memory through its pages,
in control space as the register write of its party. -/
theorem does_scalarStore {i : BitVec 1 → Instr} (hi : ∀ sp, exec (i sp) s = scalarStore n c a sp imm g s)
    (hr : Ready g [.s c, .s a] [] s) :
    let o : Word := s.rS a + imm.signExtend 64
    let bs := natToBytes n (s.rS c).toNat
    (s.awaitSpans s.window o n = .ok () →
      Does (i 1) s ((s.spovr s.focus.core s.focus.seat (s.window.maps o n)).modFcore (fun k => k.spPut (s.window.maps o n) bs))) ∧
    (∀ ps, s.seatPieces o n (regAccess true o n) = .ok ps → anyControl ps = false → s.awaitSo ps = .ok () →
      (s.install true ps).psqRoom o = .ok () →
      Does (i 0) s (((s.install true ps).stored o (cutPieces ps bs) [] (storeOrd none ps)).trace
        s.focus.core s.focus.seat 3 o)) ∧
    (∀ p t, s.seatPieces o n (regAccess true o n) = .ok [p] → region p.pa = .control → s.awaitSo [p] = .ok () →
      (s.install true [p]).seatCtlWrite p.pa n (BitVec.ofNat 64 (bytesToNat bs)) = .ok t →
      Does (i 0) s (t.trace s.focus.core s.focus.seat 3 o)) := by
  intro o bs
  refine ⟨fun hw => ?_, fun ps hp hc hs hq => ?_, fun p t hp hc hs ht => ?_⟩
  · rw [Does, hi, scalarStore, slotOp_ready hr]
    simp [o, bs, hw, bind, Except.bind]
  · exact does_scalarStore_virtual (hi 0) hr hp (writeScalar_memory hc hs hq bs)
  · refine does_scalarStore_virtual (hi 0) hr hp ?_
    rw [writeScalar_control hc hs, natToBytes_length, ht]

end

/-- Settles O21: each form runs as scalarStore does at its width. -/
theorem scalarStoresComplete : Obligations.ScalarStoresComplete := by
  intro c a imm g s hr
  exact ⟨does_scalarStore (i := fun sp => .stB c a sp imm g) (fun _ => rfl) hr,
    does_scalarStore (i := fun sp => .stH c a sp imm g) (fun _ => rfl) hr,
    does_scalarStore (i := fun sp => .stW c a sp imm g) (fun _ => rfl) hr,
    does_scalarStore (i := fun sp => .stD c a sp imm g) (fun _ => rfl) hr⟩

end Sys2Proof.Machine
end

section
/-! PROOF. What comes of a slot instruction's run; the control registers and the state after reset. -/

namespace Sys2Proof.Machine

/-- An instruction whose run answers a state makes it. -/
theorem does_of_run {i : Instr} {s t : State} {r : Run} (he : exec i s = .next (settle s r)) (h : r = .ok t) : Does i s t := by
  rw [Does, he, h, settle_ok]

/-- An instruction whose run is a cause of execution raises it. -/
theorem raises_of_run {i : Instr} {s : State} {r : Run} {cause : BitVec 8} {faddr : Word}
    (he : exec i s = .next (settle s r)) (h : r = raiseX cause faddr) : Raises i s cause faddr := by
  rw [Raises, he, h]
  rfl

/-- The order in which an instruction's sources are named does not matter to its being ready. -/
theorem Ready.append_comm {g : BitVec 4} {as bs : List Src} {dsts : List RegName} {s : State}
    (h : Ready g (as ++ bs) dsts s) : Ready g (bs ++ as) dsts s :=
  { h with srcs := fun r hr => h.srcs r (by simpa [or_comm] using hr) }

/-- A check of a body passes where the body answers a state. -/
theorem ok_of_bind_ok {α β : Type} {x : Except Stop α} {f : α → Except Stop β} {b : β} (h : (x >>= f) = .ok b) :
    ∃ a, x = .ok a ∧ f a = .ok b := by
  cases x with
  | ok a => exact ⟨a, rfl, h⟩
  | error e => cases h

/-- R271, R433: a run answers the state itself, under a false guard, or what its body answers. -/
theorem slotRun_ok {g : BitVec 4} {srcs also : List Src} {dsts : List RegName} {pre : State → Except Stop Unit}
    {body : State → Run} {s t : State} (h : slotRun g srcs also dsts pre body s = .ok t) : t = s ∨ body s = .ok t := by
  unfold slotRun at h
  split at h
  · cases h
  · split at h
    · exact .inl (Except.ok.inj h).symm
    · -- the stalls, the checks of the block and the register-read causes come before the body
      obtain ⟨_, _, h⟩ := ok_of_bind_ok h
      obtain ⟨_, _, h⟩ := ok_of_bind_ok h
      obtain ⟨_, _, h⟩ := ok_of_bind_ok h
      obtain ⟨_, _, h⟩ := ok_of_bind_ok h
      obtain ⟨_, _, h⟩ := ok_of_bind_ok h
      obtain ⟨_, _, h⟩ := ok_of_bind_ok h
      exact .inr h

/-! Control registers (R288 to R290) and reset. -/

/-- Settles O10: CTLR is a read, CTLW a write by crWrite, and CTLX both in this order. -/
theorem controlRegisterAccess : Obligations.ControlRegisterAccess := by
  intro d a cr s w quiet
  refine ⟨fun hr hq => ?_, fun hr => ?_, fun t hr hw hq ht => ?_⟩
  · exact does_of_run (slotOp_ready hr) (by rw [show s.awaitV cr = .ok () from hq]; rfl)
  · -- a register that seats may write is written by crWrite
    have write {cr : BitVec 12} {t : State} (hw : crReadOnly cr = false) (ht : s.crWrite cr (s.rS a) = .ok t) :
        Does (.ctlw a cr) s t :=
      does_of_run (i := .ctlw a cr) (slotOp_ready hr) (by simp [hw, ht])
    refine ⟨fun hsh => write rfl (if_pos hsh), write rfl rfl, fun hst hsz => write rfl (if_neg ?_), fun hro => write rfl ?_,
      write rfl rfl, write rfl rfl, write rfl rfl, write rfl rfl, write rfl rfl, write rfl rfl, write rfl rfl, write rfl rfl,
      write rfl rfl⟩
    · rcases hsz with h | h | h <;> simp [hst, h, w]
    · exact congrArg Except.ok (if_neg hro)
  · exact does_of_run (i := .ctlx d a cr) (slotOp_ready hr)
      (by simp [hw, show s.awaitV cr = .ok () from hq, ht, bind, Except.bind])

/-- R229: after reset the map's entry n is valid and names core n. -/
theorem lcid_reset {n : Nat} (h : n < 400) :
    lcidValid (State.reset.lcidEntry n) = true ∧ lcidPhys (State.reset.lcidEntry n) = n := by
  have he : State.reset.lcidEntry n = BitVec.ofNat 32 (0x80000000 + n) := rfl
  rw [he]
  constructor
  · have hbit : (2147483648 + n).testBit 31 = true := by
      rw [Nat.testBit_eq_decide_div_mod_eq, decide_eq_true_eq]
      omega
    simp [lcidValid, BitVec.getLsbD_ofNat, hbit]
  · rw [lcidPhys, BitVec.extractLsb'_toNat, BitVec.toNat_ofNat, Nat.shiftRight_zero]
    omega

/-- Settles O56: every map is empty, so each place reads its default. -/
theorem resetState : Obligations.ResetState := by
  refine ⟨rfl, rfl, rfl, rfl, rfl, rfl, rfl, rfl, fun core x => ?_, fun core => ?_, fun core o => ?_, fun n hn => lcid_reset hn,
    fun k => rfl, fun pa => ?_, rfl, rfl, rfl⟩
  · exact ⟨rfl, rfl, rfl, rfl, rfl, rfl, rfl, rfl, rfl, rfl, rfl, rfl, rfl, rfl, rfl, rfl, rfl, rfl⟩
  · exact ⟨rfl, rfl, rfl, fun n => rfl, rfl⟩
  · exact ⟨rfl, rfl⟩
  · exact ite_self 0

end Sys2Proof.Machine
end

section
/-! PROOF. Numbers: the special functions and compares at special inputs, and tiles of raw words. -/

namespace Sys2Proof.Machine

/-! Special values (R60, R342, R344). -/

/-- R60: a NaN's exact value is none. -/
theorem ofF32_of_isNan32 {a : W32} (h : isNan32 a = true) : Num.ofF32 a = .nan := by
  obtain ⟨he, hf⟩ : a.extractLsb' 23 8 = 0xFF#8 ∧ a.extractLsb' 0 23 ≠ 0 := by simpa [isNan32] using h
  have hf : (a.extractLsb' 0 23).toNat ≠ 0 := fun q => hf (BitVec.eq_of_toNat_eq q)
  simpa [Num.ofF32, he] using hf

/-- R60: a word with the sign bit set that is neither a NaN nor -0 is -∞ or a finite negative number. -/
theorem ofF32_of_negative {a : W32} (hn : isNan32 a = false) (hs : a.getLsbD 31 = true) (hz : a ≠ 0x80000000#32) :
    Num.ofF32 a = .inf true ∨ ∃ m e, m ≠ 0 ∧ Num.ofF32 a = .fin true m e := by
  have hbit : a.toNat / 2 ^ 31 % 2 = 1 := by
    rwa [BitVec.getLsbD, Nat.testBit_eq_decide_div_mod_eq, decide_eq_true_eq] at hs
  by_cases he : (a.extractLsb' 23 8).toNat = 255
  · have he' : a.extractLsb' 23 8 = 0xFF#8 := BitVec.eq_of_toNat_eq he
    have hf : a.extractLsb' 0 23 = 0 := by simpa [isNan32, he'] using hn
    exact .inl (by simp [Num.ofF32, he', hf, hs])
  · by_cases he0 : (a.extractLsb' 23 8).toNat = 0
    · refine .inr ⟨(a.extractLsb' 0 23).toNat, -149, fun hf => hz ?_, by simp only [Num.ofF32, he0, hs]; rfl⟩
      rw [BitVec.extractLsb'_toNat, Nat.shiftRight_eq_div_pow] at he0 hf
      apply BitVec.eq_of_toNat_eq
      have := a.isLt
      simp only [BitVec.toNat_ofNat]
      omega
    · exact .inr ⟨2 ^ 23 + (a.extractLsb' 0 23).toNat, ((a.extractLsb' 23 8).toNat : Int) - 150, by omega,
        by simp only [Num.ofF32, if_neg he, if_neg he0, hs]⟩

/-- R342: each special function gives the one NaN for a NaN, with NV only where it is signalling. -/
theorem special_of_nan {a : W32} (h : isNan32 a = true) {f : W32 → W32 × VF} (hf : f ∈ [fRcp, fRsq, fSqrt, fExp2, fLog2]) :
    f a = (0x7FC00000#32, if isSnan a then fNV else 0) := by
  have ha := ofF32_of_isNan32 h
  simp only [List.mem_cons, List.not_mem_nil, or_false] at hf
  rcases hf with rfl | rfl | rfl | rfl | rfl
  · simp only [fRcp, ha]; rfl
  · simp only [fRsq, ha]; rfl
  · simp only [fSqrt, ha]; rfl
  · simp only [fExp2, ha]; rfl
  · simp only [fLog2, ha]; rfl

/-- R342: roots and the logarithm of a negative nonzero number are invalid. -/
theorem special_of_negative {a : W32} (hn : isNan32 a = false) (hs : a.getLsbD 31 = true) (hz : a ≠ 0x80000000#32) :
    fRsq a = (0x7FC00000#32, fNV) ∧ fSqrt a = (0x7FC00000#32, fNV) ∧ fLog2 a = (0x7FC00000#32, fNV) := by
  rcases ofF32_of_negative hn hs hz with h | ⟨m, e, hm, h⟩
  · simp [fRsq, fSqrt, fLog2, h, qnan]
  · simp [fRsq, fSqrt, fLog2, h, hm, qnan]

/-- R344: no order and no equality holds with a NaN operand. -/
theorem compare_of_nan {a b : W32} (h : isNan32 a = true ∨ isNan32 b = true) :
    num2 Num.lt a b = false ∧ num2 Num.lt b a = false ∧ num2 Num.eq a b = false ∧ anyNan a b = true := by
  rcases h with h | h
  · have ha := ofF32_of_isNan32 h
    refine ⟨by simp [num2, ha, Num.lt], ?_, by simp [num2, ha, Num.eq, Num.isNan], by simp [anyNan, h]⟩
    simp only [num2, ha]
    cases Num.ofF32 b <;> rfl
  · have hb := ofF32_of_isNan32 h
    refine ⟨?_, by simp [num2, hb, Num.lt], by simp [num2, hb, Num.eq, Num.isNan], by simp [anyNan, h]⟩
    simp only [num2, hb]
    cases Num.ofF32 a <;> rfl

/-- R342: VABS leaves the bits below the sign alone. -/
theorem fAbs_magnitude (a : W32) : (fAbs a).1.extractLsb' 0 31 = a.extractLsb' 0 31 := by
  apply BitVec.eq_of_toNat_eq
  simp only [fAbs, BitVec.extractLsb'_toNat, BitVec.toNat_and, Nat.shiftRight_zero]
  exact (congrArg (· % 2 ^ 31) (Nat.and_two_pow_sub_one_eq_mod a.toNat 31)).trans (Nat.mod_mod _ _)

/-- R342: VNEG leaves the bits below the sign alone. -/
theorem fNeg_magnitude (a : W32) : (fNeg a).1.extractLsb' 0 31 = a.extractLsb' 0 31 := by
  apply BitVec.eq_of_toNat_eq
  simp only [fNeg, BitVec.extractLsb'_toNat, BitVec.toNat_xor, Nat.shiftRight_zero, Nat.xor_mod_two_pow]
  exact Nat.xor_zero _

/-- Settles O31: the tables' special inputs are computed, NaNs and negative numbers by their exact values. -/
theorem specialValuesAndTheirFlags : Obligations.SpecialValuesAndTheirFlags := by
  intro a b
  -- the logarithm of 1 is computed in units of 2^-320
  have hlog : fLog2 0x3F800000#32 = (0, 0) := by decide +kernel
  refine ⟨fun h f hf => special_of_nan h hf, rfl, rfl, rfl, rfl, rfl, rfl, rfl, rfl, rfl, rfl, special_of_negative,
    rfl, rfl, hlog, rfl, rfl, rfl, ⟨fAbs_magnitude a, by simp [fAbs], rfl⟩, ⟨fNeg_magnitude a, by simp [fNeg], rfl⟩,
    fun h => ?_, rfl⟩
  obtain ⟨hlt, hgt, heq, hany⟩ := compare_of_nan h
  simp [cmpEq32, cmpNe32, cmpUn32, cmpLt32, cmpLe32, cmpGt32, cmpGe32, hlt, hgt, heq, hany, bool32, nvIf, anySnan]

/-! Tiles of raw words (R55, R360). -/

/-- R11: the little-endian value of two strings laid end to end. -/
theorem bytesToNat_append (as bs : List Byte) :
    bytesToNat (as ++ bs) = bytesToNat as + 2 ^ (8 * as.length) * bytesToNat bs := by
  induction as with
  | nil => simp [bytesToNat]
  | cons a as ih =>
    have hp : 2 ^ (8 * (as.length + 1)) = 256 * 2 ^ (8 * as.length) := by rw [Nat.mul_succ, Nat.pow_add, Nat.mul_comm]
    rw [List.cons_append, bytesToNat, ih, List.length_cons, hp, bytesToNat, Nat.mul_add, Nat.mul_assoc, Nat.add_assoc]

/-- R55: the first element of a string of little-endian words. -/
theorem bitsAt_word (w : W32) (bs : List Byte) : bitsAt (natToBytes 4 w.toNat ++ bs) 0 32 = w.toNat := by
  have ht : (natToBytes 4 w.toNat ++ bs).take 5 = natToBytes 4 w.toNat ++ bs.take 1 := by
    rw [List.take_append, natToBytes_length, List.take_of_length_le (by rw [natToBytes_length]; decide)]
  have hw := w.isLt
  simp only [bitsAt, Nat.zero_div, List.drop_zero, ht, bytesToNat_append, bytesToNat_natToBytes, natToBytes_length,
    Nat.zero_mod, Nat.pow_zero, Nat.div_one]
  omega

/-- R55: word k of a string of little-endian words. -/
theorem bitsAt_words {ws : List W32} {k : Nat} (h : k < ws.length) :
    bitsAt (ws.flatMap (fun w => natToBytes 4 w.toNat)) (32 * k) 32 = (ws[k]).toNat := by
  induction ws generalizing k with
  | nil => simp at h
  | cons w ws ih =>
    cases k with
    | zero => exact bitsAt_word w _
    | succ k =>
      have hd : 32 * (k + 1) / 8 = 4 + 32 * k / 8 := by omega
      have hm : 32 * (k + 1) % 8 = 32 * k % 8 := by omega
      have hl : (natToBytes 4 w.toNat).length = 4 := natToBytes_length 4 _
      have hk := ih (k := k) (by simpa using h)
      simp only [bitsAt, List.flatMap_cons, hd, hm] at hk ⊢
      rw [← List.drop_drop, List.drop_left' hl]
      simpa using hk

/-- A map whose every element has its result has them all. -/
theorem mapM_ok {α β ε : Type} {f : α → Except ε β} {g : α → β} {l : List α} (h : ∀ a ∈ l, f a = .ok (g a)) :
    l.mapM f = .ok (l.map g) := by
  induction l with
  | nil => rfl
  | cons a l ih =>
    rw [List.mapM_cons, h a (by simp), ih (fun b hb => h b (by simp [hb]))]
    rfl

/-- R360: an element of raw code is its bits, whatever its tag. -/
theorem loadElem_raw (t : FmtCtx) (kind : Nat) (tags : Assoc (BitVec 16)) (at_ : Word) (bit code : Nat) :
    loadElem t kind 0 tags at_ bit code = .ok (BitVec.ofNat 32 code, 0) := rfl

/-- R55, R360: a row of raw words decodes to its words in their order. -/
theorem decode_rawRow (t : FmtCtx) (kind : Nat) (tags : Assoc (BitVec 16)) (at_ : Word) (ws : List W32) :
    (List.range ws.length).mapM (fun k => loadElem t kind 0 tags (at_ + BitVec.ofNat 64 (32 * k / 8)) (32 * k % 8)
      (bitsAt (ws.flatMap (fun w => natToBytes 4 w.toNat)) (32 * k) 32)) = .ok (ws.map (fun w => (w, 0))) := by
  have hg : ∀ k ∈ List.range ws.length, loadElem t kind 0 tags (at_ + BitVec.ofNat 64 (32 * k / 8)) (32 * k % 8)
      (bitsAt (ws.flatMap (fun w => natToBytes 4 w.toNat)) (32 * k) 32) = .ok (nth 0 k ws, 0) := by
    intro k hk
    have hlt : k < ws.length := List.mem_range.mp hk
    rw [bitsAt_words hlt, loadElem_raw]
    simp [nth, hlt]
  refine (mapM_ok hg).trans (congrArg Except.ok (List.ext_getElem (by simp) (fun k _ hk => ?_)))
  have hlt : k < ws.length := by simpa using hk
  simp [nth, hlt]

/-- Settles O33: each row of raw words decodes to its words, and the rows are laid end to end. -/
theorem rawTilesLoadTheirWords : Obligations.RawTilesLoadTheirWords := by
  refine ⟨rfl, fun t o rows hc hlen hsegs => ?_⟩
  simp only [decodeTile, hc]
  rw [hsegs, List.mapM_map, mapM_ok (g := fun r : Word × List W32 => r.2.map (fun w => (w, 0)))]
  · simp [Except.map, List.flatMap_def, Function.comp_def]
  · intro r hr
    rw [← hlen r hr]
    exact decode_rawRow t o.kind o.tags r.1 r.2

end Sys2Proof.Machine
end

section
/-! PROOF. The vector instructions: the element-wise rule in its forms, and what an instruction of position V leaves alone. -/

namespace Sys2Proof.Machine

/-! Element-wise vector instructions (R336 to R338). -/

/-- Settles O25: each form is vbin at its operation and its distance, and its broadcast form vbc. -/
theorem vectorTwoSourceCompletes : Obligations.VectorTwoSourceCompletes := by
  intro vd va vb vm sb mz g s r
  refine ⟨fun hr ha hb ⟨hmask, hold⟩ => ?_, fun hr ⟨hmask, hold⟩ => ?_⟩
  · and_intros <;> exact vbin_ok hr ha hb hmask hold
  · and_intros <;> exact vbc_ok hr hmask hold

/-- R340: with its registers ready and its operands of the shape, VSPLAT or VIOTA writes the runs of its constant's computation. -/
theorem constant_ok {k : State → Runs} {a b : Src} {vd vm : BitVec 5} {mz : BitVec 1} {g : BitVec 4} {s : State} {r : Runs × VF}
    (h : Ready g (maskSrcs a b vd vm mz) [.v vd] s)
    (hm : vm ≠ 0 → ((s.rV vm).rows, (s.rV vm).cols) = s.shape)
    (ho : vm ≠ 0 → mz = 0 → ((s.rV vd).rows, (s.rV vd).cols) = s.shape)
    (e : ewCompute (fun x => (nth 0 0 x, 0)) [k s]
      (if vm = 0 then none else some (s.rV vm).runs) (if vm != 0 && mz == 0 then some (s.rV vd).runs else none) = .ok r) :
    slotOp g (maskSrcs a b vd vm mz) [.v vd] (fun s => ew (fun x => (nth 0 0 x, 0)) s.shape vd [] [k s] vm mz 2 s) s =
      .next (((s.putV vd 2 s.shape.1 s.shape.2 r.1).orFlags r.2).setStatus .issued) := by
  rw [slotOp_ready h, ew_ok (xs := []) (more := [k s]) (by simp) hm ho e, settle_ok]

/-- R340: a masked move copies its source segment by segment. -/
theorem exec_vmov_masked {vd va vm : BitVec 5} {mz : BitVec 1} {g : BitVec 4} {s : State} (h : vm ≠ 0) :
    exec (.vmov vd va vm mz g) s = vun (fun x => (x, 0)) 2 vd va vm mz g s := if_neg h

/-- R344: a compare is the unmasked element-wise rule over two registers of the shape. -/
theorem vcmp_ok {op : W32 → W32 → W32 × VF} {vd va vb : BitVec 5} {g : BitVec 4} {s : State} {r : Runs × VF}
    (h : Ready g (maskSrcs (.v va) (.v vb) vd 0 0) [.v vd] s)
    (ha : ((s.rV va).rows, (s.rV va).cols) = s.shape) (hb : ((s.rV vb).rows, (s.rV vb).cols) = s.shape)
    (e : ewCompute (fun x => op (nth 0 0 x) (nth 0 1 x)) [(s.rV va).runs, (s.rV vb).runs] none none = .ok r) :
    vcmp op vd va vb g s = .next (((s.putV vd 2 s.shape.1 s.shape.2 r.1).orFlags r.2).setStatus .issued) :=
  vbin_ok h ha hb (fun q => absurd rfl q) (fun q => absurd rfl q) (by simpa using e)

/-- Settles O26: each form is vun, vbin without a mask, vtri, or the element-wise rule over a constant. -/
theorem vectorOneSourceCompletes : Obligations.VectorOneSourceCompletes := by
  intro vd va vb vc vm sb mz g s r
  refine ⟨fun hr ha ⟨hmask, hold⟩ => ?_, fun hr ha hb => ?_, fun hr ha hb hc => ?_, fun hr ⟨hmask, hold⟩ e => ?_,
    fun hr ⟨hmask, hold⟩ e => ?_⟩
  · have one {op : W32 → W32 × VF} {n : Nat} {i : Instr} (hi : exec i s = vun op n vd va vm mz g s)
        (e : ewCompute (fun x => op (nth 0 0 x)) [(s.rV va).runs] (if vm = 0 then none else some (s.rV vm).runs)
          (if vm != 0 && mz == 0 then some (s.rV vd).runs else none) = .ok r) :
        Does i s ((s.putV vd n s.shape.1 s.shape.2 r.1).orFlags r.2) := hi.trans (vun_ok hr ha hmask hold e)
    exact ⟨one rfl, one rfl, one rfl, one rfl, one rfl, one rfl, one rfl, one rfl, one rfl, one rfl, one rfl, one rfl, one rfl,
      fun hv => one (exec_vmov_masked hv)⟩
  · and_intros <;> exact vcmp_ok hr ha hb
  · exact ⟨vtri_ok hr ha hb hc, vtri_ok hr ha hb hc, vtri_ok (op := fun a b c => (if maskTrue c then a else b, 0)) hr ha hb hc⟩
  · exact constant_ok (k := fun s => [((s.rS sb).extractLsb' 0 32, s.shape.1 * s.shape.2)]) hr hmask hold e
  · exact constant_ok (k := fun s => (List.range (s.shape.1 * s.shape.2)).map (fun j => (BitVec.ofNat 32 j, 1))) hr hmask hold e

/-! What an instruction of position V may change (R334, R339). -/

/-- A seat changes in the registers that destinations name, by adding flags to VFLAGS, and in its note of results under way. -/
structure SeatFrame (rot : W32) (ds : List RegName) (a b : Seat) : Prop where
  seat : { b with file := a.file, vBusy := a.vBusy } = a
  ctl : { b.file.ctl with vflags := a.file.ctl.vflags } = a.file.ctl
  flags : a.file.ctl.vflags ||| b.file.ctl.vflags = b.file.ctl.vflags
  preds : b.file.regs.p = a.file.regs.p
  scalars : ∀ k, (∀ d, .s d ∈ ds → d = 0 ∨ d.toNat ≠ k) → alook k b.file.regs.s = alook k a.file.regs.s
  vectors : ∀ k, (∀ d, .v d ∈ ds → vphys rot d.toNat ≠ k) → alook k b.file.regs.v = alook k a.file.regs.v

theorem SeatFrame.refl (rot : W32) (ds : List RegName) (a : Seat) : SeatFrame rot ds a a :=
  ⟨rfl, rfl, BitVec.or_self, rfl, fun _ _ => rfl, fun _ _ => rfl⟩

theorem SeatFrame.trans {rot : W32} {ds : List RegName} {a b c : Seat} (h : SeatFrame rot ds a b) (k : SeatFrame rot ds b c) :
    SeatFrame rot ds a c where
  seat := (congrArg (fun q : Seat => { q with file := a.file, vBusy := a.vBusy }) k.seat).trans h.seat
  ctl := (congrArg (fun q : CtlRegs => { q with vflags := a.file.ctl.vflags }) k.ctl).trans h.ctl
  flags := by rw [← k.flags, ← BitVec.or_assoc, h.flags]
  preds := k.preds.trans h.preds
  scalars := fun n hn => (k.scalars n hn).trans (h.scalars n hn)
  vectors := fun n hn => (k.vectors n hn).trans (h.vectors n hn)

/-- Nothing changes outside the seat in focus, and in it no more than SeatFrame allows. -/
structure VFrame (ds : List RegName) (s t : State) : Prop where
  outside : { t with seats := s.seats } = s
  others : ∀ k, k ≠ 2 * s.focus.core + s.focus.seat → alook k t.seats = alook k s.seats
  own : SeatFrame s.src.ctl.rot ds s.fseat t.fseat

theorem VFrame.refl (ds : List RegName) (s : State) : VFrame ds s s := ⟨rfl, fun _ _ => rfl, SeatFrame.refl _ _ _⟩

theorem VFrame.focus {ds : List RegName} {s t : State} (h : VFrame ds s t) : t.focus = s.focus :=
  (congrArg State.focus h.outside :)

/-- A change of the seat in focus within the frame stays within it. -/
theorem VFrame.modF {ds : List RegName} {s t : State} (h : VFrame ds s t) {f : Seat → Seat}
    (hf : ∀ a, SeatFrame s.src.ctl.rot ds a (f a)) : VFrame ds s (t.modF f) where
  outside := h.outside
  others := fun k hk => by
    rw [State.modF_seats, h.focus, alook_aput_ne hk]
    exact h.others k hk
  own := by
    rw [fseat_modF]
    exact h.own.trans (hf _)

/-- R288: the note of a result under way is within the frame. -/
theorem VFrame.noteV {ds : List RegName} {s t : State} (h : VFrame ds s t) (r : BitVec 8) (n : Nat) :
    VFrame ds s (t.noteV r n) := by
  refine h.modF ?_
  exact fun _ => ⟨rfl, rfl, BitVec.or_self, rfl, fun _ _ => rfl, fun _ _ => rfl⟩

/-- R62: flags ORed into VFLAGS are within the frame. -/
theorem VFrame.orFlags {ds : List RegName} {s t : State} (h : VFrame ds s t) (f : VF) : VFrame ds s (t.orFlags f) := by
  unfold State.orFlags State.modCtl
  refine h.modF ?_
  exact fun _ => ⟨rfl, rfl, by simp [← BitVec.or_assoc], rfl, fun _ _ => rfl, fun _ _ => rfl⟩

/-- R339: a result in a vector register changes that register alone. -/
theorem VFrame.putV (s : State) (d : BitVec 5) (n rows cols : Nat) (r : Runs) : VFrame [.v d] s (s.putV d n rows cols r) := by
  refine VFrame.noteV ((VFrame.refl [.v d] s).modF ?_) _ n
  exact fun _ => ⟨rfl, rfl, BitVec.or_self, rfl, fun _ _ => rfl, fun k hk => alook_aput_ne (Ne.symm (hk d (by simp))) _ _⟩

/-- R276, R303: a result in a scalar register changes that register alone, and s0 not at all. -/
theorem VFrame.wSV (s : State) (d : BitVec 6) (v : Word) : VFrame [.s d] s (s.wSV d v) := by
  refine VFrame.noteV ?_ _ 2
  unfold State.wS
  split
  · exact VFrame.refl _ s
  · rename_i hd
    refine (VFrame.refl [.s d] s).modF ?_
    exact fun _ => ⟨rfl, rfl, BitVec.or_self, rfl,
      fun k hk => alook_aput_ne (Ne.symm ((hk d (by simp)).resolve_left hd)) _ _, fun _ _ => rfl⟩

/-! The instructions of position V, one lemma per form. -/

/-- Where an instruction has issued, its state is within the frame. -/
def Framed (ds : List RegName) (s : State) (o : Host.Outcome State Fault Refusal) : Prop :=
  ∀ t, o = .next t → t.focus.status = .issued → ∃ u, VFrame ds s u ∧ t = u.setStatus .issued

/-- R433: a slot instruction is within the frame where its body is. -/
theorem framed_slotOp {g : BitVec 4} {srcs : List Src} {dsts ds : List RegName} {body : State → Run} {s : State}
    (hb : ∀ u, body s = .ok u → VFrame ds s u) : Framed ds s (slotOp g srcs dsts body s) := by
  intro t ht hs
  obtain rfl := Host.Outcome.next.inj ht
  obtain ⟨u, hu⟩ := settle_issued hs
  rw [hu, settle_ok]
  refine ⟨u, ?_, rfl⟩
  rcases slotRun_ok hu with rfl | hu
  · exact VFrame.refl _ _
  · exact hb u hu

/-- R336: the element-wise rule writes its destination and adds its flags. -/
theorem ew_frame {op : VOp} {sh : Nat × Nat} {vd : BitVec 5} {xs : List (BitVec 5)} {more : List Runs} {vm : BitVec 5}
    {mz : BitVec 1} {n : Nat} {s t : State} (h : ew op sh vd xs more vm mz n s = .ok t) : VFrame [.v vd] s t := by
  obtain ⟨_, _, h⟩ := ok_of_bind_ok h
  obtain ⟨_, _, h⟩ := ok_of_bind_ok h
  exact Except.ok.inj h ▸ (VFrame.putV ..).orFlags _

section
variable {n : Nat} {vd va vb vc vm : BitVec 5} {sd sb sc : BitVec 6} {mz : BitVec 1} {g : BitVec 4} {s : State}

theorem framed_vbin {op : W32 → W32 → W32 × VF} : Framed [.v vd] s (vbin op n vd va vb vm mz g s) :=
  framed_slotOp (fun _ => ew_frame)

theorem framed_vun {op : W32 → W32 × VF} : Framed [.v vd] s (vun op n vd va vm mz g s) := framed_slotOp (fun _ => ew_frame)

theorem framed_vbc {op : W32 → W32 → W32 × VF} : Framed [.v vd] s (vbc op n vd va sb vm mz g s) :=
  framed_slotOp (fun _ => ew_frame)

theorem framed_vtri {op : W32 → W32 → W32 → W32 × VF} : Framed [.v vd] s (vtri op n vd va vb vc g s) :=
  framed_slotOp (fun _ => ew_frame)

theorem framed_vsplat : Framed [.v vd] s (execVsplat vd sb vm mz g s) := framed_slotOp (fun _ => ew_frame)

theorem framed_viota : Framed [.v vd] s (execViota vd vm mz g s) := framed_slotOp (fun _ => ew_frame)

theorem framed_vmov : Framed [.v vd] s (execVmov vd va vm mz g s) := by
  unfold execVmov
  split
  · exact framed_slotOp (fun _ h => Except.ok.inj h ▸ VFrame.putV ..)
  · exact framed_vun

theorem framed_vextr : Framed [.s sd] s (execVextr sd va sb g s) :=
  framed_slotOp (fun _ h => Except.ok.inj h ▸ VFrame.wSV ..)

theorem framed_vcnt : Framed [.s sd] s (execVcnt sd va g s) := framed_slotOp (fun _ h => Except.ok.inj h ▸ VFrame.wSV ..)

theorem framed_vocc : Framed [.s sd] s (execVocc sd va g s) := framed_slotOp (fun _ h => Except.ok.inj h ▸ VFrame.wSV ..)

theorem framed_vins : Framed [.v vd] s (execVins vd sb sc g s) := by
  refine framed_slotOp (fun u h => ?_)
  obtain ⟨_, _, h⟩ := ok_of_bind_ok h
  exact Except.ok.inj h ▸ VFrame.putV ..

theorem framed_vred {r : Reduce} : Framed [.v vd] s (vred r vd va g s) :=
  framed_slotOp (fun _ h => Except.ok.inj h ▸ (VFrame.putV ..).orFlags _)

theorem framed_vrrow {r : Reduce} : Framed [.v vd] s (vrrow r vd va g s) :=
  framed_slotOp (fun _ h => Except.ok.inj h ▸ (VFrame.putV ..).orFlags _)

theorem framed_vscan {r : Reduce} : Framed [.v vd] s (vscan r vd va g s) := by
  refine framed_slotOp (fun u h => ?_)
  obtain ⟨_, _, h⟩ := ok_of_bind_ok h
  exact Except.ok.inj h ▸ (VFrame.putV ..).orFlags _

theorem framed_vrcoal {tol : BitVec 5} : Framed [.v vd] s (execVrcoal vd va tol g s) :=
  framed_slotOp (fun _ h => Except.ok.inj h ▸ VFrame.putV ..)

theorem framed_vreshape : Framed [.v vd] s (execVreshape vd va g s) := by
  refine framed_slotOp (fun u h => ?_)
  dsimp only at h
  split at h
  · exact Except.ok.inj h ▸ VFrame.putV ..
  · cases h

theorem framed_vbrow : Framed [.v vd] s (execVbrow vd va g s) := by
  refine framed_slotOp (fun u h => ?_)
  obtain ⟨_, _, h⟩ := ok_of_bind_ok h
  obtain ⟨_, _, h⟩ := ok_of_bind_ok h
  exact Except.ok.inj h ▸ VFrame.putV ..

theorem framed_vbcol : Framed [.v vd] s (execVbcol vd va g s) := by
  refine framed_slotOp (fun u h => ?_)
  obtain ⟨_, _, h⟩ := ok_of_bind_ok h
  exact Except.ok.inj h ▸ VFrame.putV ..

theorem framed_vperm {pat : BitVec 6} : Framed [.v vd] s (execVperm vd va pat g s) := by
  refine framed_slotOp (fun u h => ?_)
  dsimp only at h
  split at h
  · cases h
  · obtain ⟨_, _, h⟩ := ok_of_bind_ok h
    obtain ⟨_, _, h⟩ := ok_of_bind_ok h
    exact Except.ok.inj h ▸ VFrame.putV ..

theorem framed_vattc : Framed [.v vd] s (execVattc vd va vb g s) := by
  refine framed_slotOp (fun u h => ?_)
  obtain ⟨_, _, h⟩ := ok_of_bind_ok h
  split at h
  · cases h
  · obtain ⟨_, _, h⟩ := ok_of_bind_ok h
    dsimp only at h
    split at h
    · exact Except.ok.inj h ▸ (VFrame.putV ..).orFlags _
    · obtain ⟨_, _, h⟩ := ok_of_bind_ok h
      exact Except.ok.inj h ▸ (VFrame.putV ..).orFlags _

end

/-- R334, R339: every instruction of position V but the pattern loads is within the frame of its destinations. -/
theorem framed_vector {i : Instr} {s : State} (hpos : i.pos = some 1) (hld : ∀ va pat g, i ≠ .patld va pat g)
    (hsw : ∀ g, i ≠ .patsw g) : Framed i.dests s (exec i s) := by
  cases i
  case vadd | vsub | vmul | vmin | vmax | vdiv | viadd | visub | vimul | vand | vor | vxor | vshl | vshr | vcmpEq | vcmpNe
    | vcmpLt | vcmpLe | vcmpGt | vcmpGe | vcmpUn => exact framed_vbin
  case vaddBcast | vsubBcast | vmulBcast | vminBcast | vmaxBcast | vdivBcast | viaddBcast | visubBcast | vimulBcast
    | vandBcast | vorBcast | vxorBcast | vshlBcast | vshrBcast => exact framed_vbc
  case vabs | vneg | vrcp | vrsq | vsqrt | vexp2 | vlog2 | vcvtFi | vcvtFit | vcvtIf | vcvtFb | vcvtFt8 | vcvtFt6 =>
    exact framed_vun
  case vfma | vfms => exact framed_vtri
  case vsel => exact framed_vtri (op := fun a b c => (if maskTrue c then a else b, 0))
  case vredSum | vredMax | vredMin => exact framed_vred
  case vrrowSum | vrrowMax | vrrowMin => exact framed_vrrow
  case vscanSum | vscanMax | vscanMin => exact framed_vscan
  case vmov => exact framed_vmov
  case vsplat => exact framed_vsplat
  case viota => exact framed_viota
  case vextr => exact framed_vextr
  case vins => exact framed_vins
  case vcnt => exact framed_vcnt
  case vocc => exact framed_vocc
  case vrcoal => exact framed_vrcoal
  case vreshape => exact framed_vreshape
  case vbrow => exact framed_vbrow
  case vbcol => exact framed_vbcol
  case vperm => exact framed_vperm
  case vattc => exact framed_vattc
  case patld va pat g => exact absurd rfl (hld va pat g)
  case patsw g => exact absurd rfl (hsw g)
  all_goals cases hpos

/-- Settles O30: what has issued is within the frame of its destinations. -/
theorem vectorFrame : Obligations.VectorFrame := by
  intro i s t hpos hld hsw ⟨he, hs⟩
  obtain ⟨u, hu, rfl⟩ := framed_vector hpos hld hsw t he hs
  obtain ⟨hseat, hctl, hflags, hpreds, hscalars, hvectors⟩ := hu.own
  refine ⟨?_, fun pa => ?_, fun c x hne => ?_, hseat, hctl, hflags, hpreds, hscalars, hvectors⟩
  · exact (congrArg (fun q : State => { q with focus := s.focus }) hu.outside)
  · rw [← hu.outside]; rfl
  · simp only [State.seatAt, aget, State.setStatus_seats, hu.others _ hne]

end Sys2Proof.Machine
end

section
/-! PROOF. The vector stores and the tag accesses. -/

namespace Sys2Proof.Machine

/-! The slot in focus stays in focus under translations and stores. -/

theorem foldl_focus {α : Type} {f : State → α → State} (h : ∀ s a, (f s a).focus = s.focus) (l : List α) (s : State) :
    (l.foldl f s).focus = s.focus := by
  induction l generalizing s with
  | nil => rfl
  | cons a l ih => exact (ih (f s a)).trans (h s a)

@[simp] theorem putHomes_focus (s : State) (pa : Nat) (bs : List Byte) : (s.putHomes pa bs).focus = s.focus := by
  induction bs generalizing s pa with
  | nil => rfl
  | cons b bs ih => exact ih (s.putHome pa b) (pa + 1)

@[simp] theorem putHomeTag_focus (s : State) (pa : Nat) (t : BitVec 16) : (s.putHomeTag pa t).focus = s.focus := by
  unfold State.putHomeTag
  split <;> rfl

@[simp] theorem cleanLine_focus (s : State) (line : Nat) : (s.cleanLine line).focus = s.focus := by
  unfold State.cleanLine
  split
  · split <;> simp
  · rfl

@[simp] theorem markLeaf_focus (s : State) (l : Leaf) (w : Bool) : (s.markLeaf l w).focus = s.focus := by
  unfold State.markLeaf
  split
  · rfl
  · simp [State.writeBack]

@[simp] theorem cacheWalk_focus (s : State) (u : Xlat) (va : Nat) (path : List WalkEntry) :
    (s.cacheWalk u va path).focus = s.focus := by
  unfold State.cacheWalk
  split <;> rfl

@[simp] theorem installLeaf_focus (s : State) (core : Nat) (asid : BitVec 16) (va : Nat) (l : Leaf) (w : Bool) :
    (s.installLeaf core asid va l w).focus = s.focus := by
  unfold State.installLeaf State.installFor
  split
  · rfl
  · simp [State.setTlb]

@[simp] theorem install_focus (s : State) (w : Bool) (ps : List Piece) : (s.install w ps).focus = s.focus :=
  foldl_focus (fun s _ => installLeaf_focus s _ _ _ _ _) ps s

@[simp] theorem putCached_focus (s : State) (pa : Nat) (b : Byte) : (s.putCached pa b).focus = s.focus := by
  unfold State.putCached
  split <;> rfl

@[simp] theorem putCachedTag_focus (s : State) (pa : Nat) (t : BitVec 16) : (s.putCachedTag pa t).focus = s.focus := by
  unfold State.putCachedTag
  split <;> rfl

@[simp] theorem ownLine_focus (s : State) (core : Nat) (last : Bool) (pa : Nat) : (s.ownLine core last pa).focus = s.focus := rfl

@[simp] theorem storeByte_focus (s : State) (w : StoreWay) (pa : Nat) (b : Byte) : (s.storeByte w pa b).focus = s.focus := by
  cases w <;> simp [State.storeByte]

@[simp] theorem storeBytes_focus (s : State) (w : StoreWay) (pa : Nat) (bs : List Byte) :
    (s.storeBytes w pa bs).focus = s.focus := by
  induction bs generalizing s pa with
  | nil => rfl
  | cons b bs ih => exact (ih (s.storeByte w pa b) (pa + 1)).trans (storeByte_focus s w pa b)

@[simp] theorem storeTag_focus (s : State) (w : StoreWay) (pa : Nat) (t : BitVec 16) : (s.storeTag w pa t).focus = s.focus := by
  unfold State.storeTag
  split
  · rfl
  · cases w <;> simp

@[simp] theorem hostAfter_focus (s : State) (waits : List Nat) (r : HostReq) : (s.hostAfter waits r).focus = s.focus := by
  unfold State.hostAfter
  split <;> rfl

@[simp] theorem postParts_focus (s : State) (r : HostReq) (inOrder : Bool) (waits : List Nat) (ps : List (Nat × List Byte)) :
    (s.postParts r inOrder waits ps).focus = s.focus := by
  induction ps generalizing s waits with
  | nil => rfl
  | cons p ps ih => exact (ih _ _).trans (foldl_focus (fun s _ => hostAfter_focus s _ _) _ s)

@[simp] theorem crcNote_focus (s : State) (r : List Byte) : (s.crcNote r).focus = s.focus := by
  unfold State.crcNote
  split <;> rfl

/-- A store of the seat in focus, held or performed, leaves the focus where it was. -/
@[simp] theorem stored_focus (s : State) (va : Word) (parts : List (Nat × BitVec 3 × List Byte))
    (tags : List (Nat × BitVec 3 × BitVec 16)) (ord : StoreOrd) : (s.stored va parts tags ord).focus = s.focus := by
  unfold State.stored
  split
  · simp
  · simp only [State.perform]
    rw [foldl_focus, postParts_focus, foldl_focus]
    · exact fun s _ => storeBytes_focus s _ _ _
    · intro s t
      split <;> simp [State.wholeTag]

/-! Stores of runs of bytes (R47, R359, R364). -/

/-- Checks that all pass pass together. -/
theorem forM_ok {α : Type} {f : α → Except Stop Unit} {l : List α} (h : ∀ a ∈ l, f a = .ok ()) : l.forM f = .ok () := by
  induction l with
  | nil => rfl
  | cons a l ih =>
    have ht := ih (fun b hb => h b (by simp [hb]))
    simp only [List.forM_eq_forM, List.forM_cons] at ht ⊢
    simp [ht, h a (by simp), bind, Except.bind]

/-- R93, R456: the state in which runs of bytes are held or stored through translated pieces, with a tag for every block written
whole. -/
def State.tileStored (s : State) (base : Word) (sg : List (Word × List Byte)) (pss : List (List Piece))
    (tag : BitVec 16) : State :=
  ((s.install true pss.flatten).stored base ((sg.zip pss).flatMap (fun y => cutPieces y.2 y.1.2))
    (((sg.zip pss).flatMap (fun y => y.2.flatMap (fun q =>
      (wholeBlocks q.va q.len).map (fun o => (q.pa + o, pteCp q.leaf.entry, tag))))).filter (fun t => region t.1 != .host))
    (storeOrd none ((sg.zip pss).flatMap (fun y => y.2)))).trace s.focus.core s.focus.seat 3 base

section
variable {s : State} {base : Word} {sg : List (Word × List Byte)} {tag : BitVec 16}

/-- R433: once the ranges are free, a store into scratchpad fails by its own check alone. -/
theorem storeTileSp_free (h : ∀ r ∈ sg, s.awaitSpans s.window r.1 r.2.length = .ok ()) :
    (∃ t, s.storeTileSp sg tag (.ok ()) = .ok t) ∧ ∀ e, s.storeTileSp sg tag (.error e) = .error e := by
  simp [State.storeTileSp, forM_ok h, bind, Except.bind]

/-- R433: once every page is translated, a store fails by its own check before anything else. -/
theorem storeTile_error {pss : List (List Piece)} (hp : sg.mapM (fun r => s.seatPieces r.1 r.2.length .write) = .ok pss)
    (e : Stop) : s.storeTile base sg tag (.error e) = .error e := by
  simp [State.storeTile, hp, bind, Except.bind]

/-- R364: a store whose pages are translated and which nothing makes wait. -/
theorem storeTile_ok {pss : List (List Piece)} (hp : sg.mapM (fun r => s.seatPieces r.1 r.2.length .write) = .ok pss)
    (hs : s.awaitSo pss.flatten = .ok ()) (hq : (s.install true pss.flatten).psqRoom base = .ok ()) :
    s.storeTile base sg tag (.ok ()) = .ok (s.tileStored base sg pss tag) := by
  simp only [State.storeTile, hp, hs, bind, Except.bind, seatStore_of_room hq, stored_focus, install_focus]
  rfl

/-- R359, R364: an instruction whose run is a store of runs of bytes, in its two forms. -/
theorem stores_of_run {i : BitVec 1 → Instr} (hi : ∀ sp, exec (i sp) s = .next (settle s
      (if sp = 1 then s.storeTileSp sg tag (.ok ()) else s.storeTile base sg tag (.ok ())))) :
    ((∀ r ∈ sg, s.awaitSpans s.window r.1 r.2.length = .ok ()) →
      ∃ t, s.storeTileSp sg tag (.ok ()) = .ok t ∧ Does (i 1) s t) ∧
    (∀ pss, sg.mapM (fun r => s.seatPieces r.1 r.2.length .write) = .ok pss → s.awaitSo pss.flatten = .ok () →
      (s.install true pss.flatten).psqRoom base = .ok () → Does (i 0) s (s.tileStored base sg pss tag)) := by
  refine ⟨fun hfree => ?_, fun pss hp hs hq => does_of_run (hi 0) (storeTile_ok hp hs hq)⟩
  obtain ⟨t, ht⟩ := (storeTileSp_free hfree).1
  exact ⟨t, ht, does_of_run (hi 1) ht⟩

end

/-! VST and VST.RUN. -/

section
variable {v : BitVec 5} {a : BitVec 6} {sp : BitVec 1} {fsel g : BitVec 4} {p : Params} {s : State}

theorem exec_vst (hr : Ready g [.v v, .s a] [] s) :
    exec (.vst v a sp fsel 0 g) s = .next (settle s (s.tileStore v a sp fsel none 127)) := slotOp_ready hr

theorem exec_vst_block (hr : Ready g ([.v v, .s a] ++ markerSrcs s.focus.block) [] s) (hp : s.params = .ok p)
    (hb : vBlockOk p false false (some ((s.rV v).rows, (s.rV v).cols)) = true) :
    exec (.vst v a sp fsel 1 g) s = .next (settle s (s.tileStore v a sp fsel (some p.stride) p.scale)) :=
  blockOp_ready hr hp (if_pos hb)

theorem exec_vstRun (hr : Ready g [.v v, .s a] [] s) :
    exec (.vstRun v a sp 0 g) s = .next (settle s (s.runStore v a sp 0 1024)) := slotOp_ready hr

theorem exec_vstRun_block (hr : Ready g ([.v v, .s a] ++ markerSrcs s.focus.block) [] s) (hp : s.params = .ok p)
    (hb : vBlockOk p false true (some ((s.rV v).rows, (s.rV v).cols)) = true) :
    exec (.vstRun v a sp 1 g) s = .next (settle s (s.runStore v a sp p.stride p.aux.toNat)) :=
  blockOp_ready hr hp (if_pos hb)

/-- R358, R364: an aligned tile is a store of its codes. -/
theorem tileStore_aligned {stride : Option Nat} {scale : BitVec 8}
    (h : misaligned (fselCode fsel) (s.rS a) stride true (s.rV v).rows (s.rV v).cols = none) :
    s.tileStore v a sp fsel stride scale =
      let sg := s.tileSegs (s.rV v) (s.rS a) (fselCode fsel) stride scale
      let tag := storeTagOf (fselCode fsel) scale
      if sp = 1 then s.storeTileSp sg tag (.ok ()) else s.storeTile (s.rS a) sg tag (.ok ()) := by
  simp only [State.tileStore, h]
  rfl

/-- R365, R366: a run list at an aligned place is a store of its bytes, with the check of its capacity. -/
theorem runStore_aligned {stride : Nat} {cap : Nat} (hb : (s.rS a).toNat % 64 = 0) (hs : stride % 64 = 0) :
    s.runStore v a sp stride cap =
      let sg := [(s.rS a, runListBytes (s.rV v))]
      let fits : Except Stop Unit := if cap < (s.rV v).occ then raiseX 0x16 (s.rS a) else .ok ()
      if sp = 1 then s.storeTileSp sg 0x7F40 fits else s.storeTile (s.rS a) sg 0x7F40 fits := by
  simp only [State.runStore, runMisaligned, hb, hs]
  rfl

/-- R366: a run list within its capacity. -/
theorem runStore_fits {stride : Nat} {cap : Nat} (hb : (s.rS a).toNat % 64 = 0) (hs : stride % 64 = 0)
    (hc : (s.rV v).occ ≤ cap) :
    s.runStore v a sp stride cap =
      let sg := [(s.rS a, runListBytes (s.rV v))]
      if sp = 1 then s.storeTileSp sg 0x7F40 (.ok ()) else s.storeTile (s.rS a) sg 0x7F40 (.ok ()) := by
  simp only [runStore_aligned hb hs, if_neg (Nat.not_lt.mpr hc)]

end

/-! Tag accesses (R368). -/

/-- R101: setting SPOVR changes no count of bundles. -/
@[simp] theorem spovr_after (s : State) (ms : List (Option Nat)) (n : Nat) :
    (s.spovr s.focus.core s.focus.seat ms).after n = s.after n := by
  unfold State.spovr
  split
  · simp [State.after, State.fseat, State.modSeat]
  · rfl

section
variable {d a b : BitVec 6} {g : BitVec 4} {s : State}

/-- R368: TAGRD from scratchpad and from memory. -/
theorem does_tagrd (hr : Ready g [.s a] [.s d] s) :
    (s.awaitSpans s.window (blockOf (s.rS a)) 64 = .ok () →
      Does (.tagrd d a 1 g) s ((s.spovr s.focus.core s.focus.seat (s.window.maps (blockOf (s.rS a)) 64)).wS d
        ((s.fcore.spTag s.window (blockOf (s.rS a))).zeroExtend 64) (s.after 4))) ∧
    (∀ q qs, s.seatPieces (s.rS a) 1 .read = .ok (q :: qs) →
      Does (.tagrd d a 0 g) s (((s.installRead (q :: qs)).trace s.focus.core s.focus.seat 2 (s.rS a)).loadInto d
        ((s.seatTag (pteCp q.leaf.entry) q.pa).zeroExtend 64) 12)) := by
  refine ⟨fun hf => does_of_run (slotOp_ready hr) ?_, fun q qs hq => does_of_run (slotOp_ready hr) ?_⟩
  · simp [hf, bind, Except.bind]
  · simp [hq, bind, Except.bind]

/-- R47, R368: TAGWR into scratchpad, into device memory and, where it is dropped, into host memory. -/
theorem does_tagwr (hr : Ready g [.s a, .s b] [] s) :
    (s.awaitSpans s.window (blockOf (s.rS a)) 64 = .ok () →
      Does (.tagwr a b 1 g) s ((s.spovr s.focus.core s.focus.seat (s.window.maps (blockOf (s.rS a)) 64)).modFcore
        (fun k => k.spPutTag s.window (blockOf (s.rS a)) ((s.rS b).extractLsb' 0 16)))) ∧
    (∀ q qs, s.seatPieces (s.rS a) 1 .write = .ok (q :: qs) → s.awaitSo (q :: qs) = .ok () →
      let t := (s.install true (q :: qs)).trace s.focus.core s.focus.seat 3 (s.rS a)
      (region q.pa ≠ .host → t.psqRoom (s.rS a) = .ok () → Does (.tagwr a b 0 g) s (t.stored (s.rS a) []
        [(q.pa / 64 * 64, pteCp q.leaf.entry, (s.rS b).extractLsb' 0 16)] (storeOrd none (q :: qs)))) ∧
      (region q.pa = .host → Does (.tagwr a b 0 g) s t)) := by
  refine ⟨fun hf => does_of_run (slotOp_ready hr) ?_, fun q qs hq hs => ⟨fun hh hroom => does_of_run (slotOp_ready hr) ?_,
    fun hh => does_of_run (slotOp_ready hr) ?_⟩⟩
  · simp [hf, bind, Except.bind]
  · simp [hq, hs, hh, bind, Except.bind, seatStore_of_room hroom]
  · simp [hq, hs, hh, bind, Except.bind]

end

/-- Settles O35: an aligned tile and a run list within its capacity are stores of runs of bytes, in both forms. -/
theorem vectorStoresAndTagsComplete : Obligations.VectorStoresAndTagsComplete := by
  intro v a b fsel g p s
  refine ⟨fun hr => ⟨fun hm => ?_, fun o hm => ?_, fun hb hc => ?_⟩,
    fun hr hp => ⟨fun hk hm => ?_, fun hk hb hs => ⟨fun hc => ?_, fun hc => ⟨fun hf => ?_, fun ps hps => ?_⟩⟩⟩,
    fun d hr => ⟨fun hf => ⟨_, (does_tagrd hr).1 hf, rfl⟩, (does_tagrd hr).2⟩,
    fun hr => ⟨(does_tagwr hr).1, fun q qs hq hs => ((does_tagwr hr).2 q qs hq hs).1,
      fun q qs hq hs => ((does_tagwr hr).2 q qs hq hs).2⟩⟩
  · exact stores_of_run (i := fun sp => .vst v a sp fsel 0 g) (fun sp => tileStore_aligned hm ▸ exec_vst hr)
  · exact raises_of_run (exec_vst hr) (by simp [State.tileStore, hm, alignCheck, raiseX, bind, Except.bind])
  · exact stores_of_run (i := fun sp => .vstRun v a sp 0 g)
      (fun sp => runStore_fits hb (Nat.zero_mod 64) hc ▸ exec_vstRun hr)
  · exact stores_of_run (i := fun sp => .vst v a sp fsel 1 g)
      (fun sp => tileStore_aligned hm ▸ exec_vst_block hr.append_comm hp hk)
  · exact stores_of_run (i := fun sp => .vstRun v a sp 1 g)
      (fun sp => runStore_fits hb hs hc ▸ exec_vstRun_block hr.append_comm hp hk)
  · refine raises_of_run (exec_vstRun_block hr.append_comm hp hk) ?_
    rw [runStore_aligned hb hs, if_pos hc]
    exact (storeTileSp_free (by simpa using hf)).2 _
  · refine raises_of_run (exec_vstRun_block hr.append_comm hp hk) ?_
    rw [runStore_aligned hb hs, if_pos hc]
    exact storeTile_error (pss := [ps]) (by simp [hps, bind, Except.bind]; rfl) _

end Sys2Proof.Machine
end

section
/-! PROOF. The refutation of the frame of a scalar store, at a page-table entry that lies in two lines. -/

namespace Sys2Proof.Machine

/-- Whether an instruction issues and the state it makes satisfies a test. -/
def issuesAnd (i : Instr) (s : State) (p : State → Bool) : Bool :=
  match exec i s with
  | .next t => t.focus.status == .issued && p t
  | _ => false

theorem issues_of_issuesAnd {i : Instr} {s : State} {p : State → Bool} (h : issuesAnd i s p = true) :
    ∃ t, Issues i s t ∧ p t = true := by
  unfold issuesAnd at h
  split at h
  · rename_i t ht
    obtain ⟨hs, hp⟩ := Bool.and_eq_true_iff.mp h
    exact ⟨t, ⟨ht, by simpa using hs⟩, hp⟩
  · cases h

/-- The state of withFetchWord, but that the walker of virtual page 0x10000 has cached a table of level 3 at 0x220037, which
is no multiple of 8. The page's leaf, with A and D clear, is then read at 0x22003F: its first byte ends one line, and its
second, in which a store sets A and D, begins the next. s7 holds the page's address. -/
def straddling : State :=
  ({ (State.reset.withFetchWord 128 0).putHomes 0x22003F (natToBytes 8 0x30000F) with
     walkers := [((Xlat.core 0).walker 0x10000, [{ asid := 1, level := 2, index := 0, next := 0x220037 }])] } : State).wS
    7 0x10000 .full

/-- The byte that a ST.B through s7 stores there, with the leaf of its page. -/
def straddlingPiece : Piece :=
  { va := 0x10000, pa := 0x300000, len := 1, leaf := { entry := 0x30000F, level := 3, at_ := 0x22003F, path := [] } }

/-- A run's result, read from it as an option. -/
theorem ok_of_toOption {ε α : Type} {x : Except ε α} {a : α} (h : x.toOption = some a) : x = .ok a := by
  cases x with
  | ok b => exact congrArg Except.ok (Option.some.inj h)
  | error e => cases h

theorem straddling_pieces : straddling.seatPieces (straddling.rS 7 + (0 : BitVec 13).signExtend 64) 1
    (regAccess true (straddling.rS 7 + (0 : BitVec 13).signExtend 64) 1) = .ok [straddlingPiece] :=
  ok_of_toOption (by decide +kernel)

/-- R135: the store issues, and sets A and D at 0x220040. -/
theorem straddling_store :
    issuesAnd (.stB 1 7 0 0 0) straddling (fun t => t.byteAt 0x220040 != straddling.byteAt 0x220040) = true := by
  decide +kernel

/-- No line is redirected or cached there, and tracking is off. -/
theorem straddling_plain : straddling.resole.redirect = [] ∧ straddling.lines = [] ∧ straddling.src.ctl.phaseEn = false ∧
    straddling.rP 0 = true := by
  decide +kernel

/-- Refutes O22: the statement does not ask that a page-table entry stands at a multiple of 8, as every walk from a root finds
it. Of the two lines of the entry at 0x22003F, at_ / 64 names the first, while the byte that changes, at 0x220040, stands in the
second. -/
theorem not_scalarStoreFrame : ¬ Obligations.ScalarStoreFrame := by
  intro h
  obtain ⟨t, ht, hb⟩ := issues_of_issuesAnd straddling_store
  obtain ⟨hr, hl, hen, hg⟩ := straddling_plain
  obtain ⟨hbyte, -⟩ := h 1 1 7 0 0 straddling t [straddlingPiece] (by simp) hen straddling_pieces (by decide) (by decide)
    (by simp [hr]) (by simp [hl]) ht hg
  have hsame : t.byteAt 0x220040 = straddling.byteAt 0x220040 := hbyte 0x220040 (by simp [straddlingPiece])
  simp [hsame] at hb

end Sys2Proof.Machine
end

section
/-! PROOF. The scratchpad window: where an offset maps, what a byte or a tag there reads back as. -/

namespace Sys2Proof.Machine

/-! The reduction of an offset (R101). -/

theorem pow2Above_pow (w : Nat) : ∃ k, pow2Above w = 2 ^ k := by
  unfold pow2Above
  split
  · exact ⟨0, rfl⟩
  · exact ⟨_, rfl⟩

theorem le_pow2Above (w : Nat) : w ≤ pow2Above w := by
  unfold pow2Above
  split
  · assumption
  · have h : w - 1 < 2 ^ ((w - 1).log2 + 1) := Nat.lt_log2_self
    omega

theorem pow2Above_le {w k : Nat} (h : w ≤ 2 ^ k) : pow2Above w ≤ 2 ^ k := by
  unfold pow2Above
  split
  · exact Nat.one_le_two_pow
  · have hlog : (w - 1).log2 < k := (Nat.log2_lt (by omega)).mpr (by omega)
    exact Nat.pow_le_pow_right (by decide) hlog

/-! Mapping one offset (R101). -/

section
variable {w : Window} {o : Word}

theorem map_outside (h : w.size * 4096 ≤ o.toNat % pow2Above (w.size * 4096)) : w.map o = none := if_pos h

theorem map_swapped (h : o.toNat % pow2Above (w.size * 4096) < w.size * 4096) (hd : w.dbl = true) (hh : w.half = true) :
    w.map o = some (w.base * 4096 + (o.toNat % pow2Above (w.size * 4096) + w.size * 4096 / 2) % (w.size * 4096)) := by
  simp [Window.map, Nat.not_le.mpr h, hd, hh]

theorem map_plain (h : o.toNat % pow2Above (w.size * 4096) < w.size * 4096) (hs : w.dbl = false ∨ w.half = false) :
    w.map o = some (w.base * 4096 + o.toNat % pow2Above (w.size * 4096)) := by
  have hs' : (w.dbl && w.half) = false := Bool.and_eq_false_iff.mpr hs
  simp [Window.map, Nat.not_le.mpr h, hs']

/-- R101: whether one of the bytes of a block of 64 offsets is out of the window. -/
theorem maps_any_isNone (n : Nat) :
    (w.maps o n).any (·.isNone) = true ↔ ∃ i < n, w.map (o + BitVec.ofNat 64 i) = none := by
  simp [Window.maps]

end

/-! Bytes, tags and SPOVR (R101). -/

/-- R101: an access of which a byte is out of the window sets SPOVR. -/
theorem spovr_outside (s : State) (core x : Nat) :
    ((s.spovr core x [none]).seatAt core x).file.ctl.spwin.getLsbD 31 = true := by
  simp [State.spovr, State.seatAt]

theorem spovr_inside (s : State) (core x k : Nat) : s.spovr core x [some k] = s := by simp [State.spovr]

theorem spPut_same (c : Core) (k : Nat) (b : Byte) : (c.spPut [some k] [b]).spByte (some k) = b := by
  simp [Core.spPut, Core.spByte]

section
variable {w : Window} {o : Word}

/-- R101: the tag of a block that is not wholly inside reads 0x0000, and a write of it is dropped. -/
theorem spTag_outside (c : Core) (t : BitVec 16) (h : ∃ i < 64, w.map (o + BitVec.ofNat 64 i) = none) :
    c.spTag w o = 0 ∧ c.spPutTag w o t = c := by
  have hany := (maps_any_isNone 64).mpr h
  exact ⟨if_pos hany, if_pos hany⟩

/-- R101: the tag of a block wholly inside reads back as it was written. -/
theorem spTag_spPutTag (c : Core) (t : BitVec 16) (h : ∀ i < 64, w.map (o + BitVec.ofNat 64 i) ≠ none) :
    (c.spPutTag w o t).spTag w o = t := by
  have hany : ¬(w.maps o 64).any (·.isNone) = true := fun q => by
    obtain ⟨i, hi, hn⟩ := (maps_any_isNone 64).mp q
    exact h i hi hn
  obtain ⟨k, hk⟩ := Option.ne_none_iff_exists'.mp (h 0 (by decide))
  have hk : w.map o = some k := by simpa using hk
  simp [Core.spPutTag, Core.spTag, hany, hk]

end

/-- R57: the other blocks of the triple of one 6-bit block. -/
theorem mem_tripleRest {b : Nat} {t : BitVec 16} (h : codeSix (t.extractLsb' 0 8).toNat = true) (n : Nat) :
    n ∈ tripleRest [(b, t)] ↔ n ≠ b ∧ n / 3 = b / 3 := by
  simp only [tripleRest, List.flatMap_cons, List.flatMap_nil, List.append_nil, if_pos h, List.mem_filter, List.mem_cons,
    List.not_mem_nil, or_false, List.any_cons, List.any_nil, Bool.or_false, Bool.not_eq_true', beq_eq_false_iff_ne]
  omega

/-- Settles O24: P is pow2Above W, and the cases of R101 are those of the mapping. -/
theorem scratchpadWindowMaps : Obligations.ScratchpadWindowMaps := by
  intro w o c b s core x t W
  have hdiv : o.toNat / 64 / 3 = o.toNat / 192 := Nat.div_div_eq_div_mul ..
  refine ⟨⟨pow2Above W, pow2Above_pow W, le_pow2Above W, fun k => pow2Above_le, map_outside, map_swapped, map_plain⟩,
    fun hn => ?_, fun n => rfl, fun k hk => ?_, spTag_outside c t, spTag_spPutTag c t, fun h n => hdiv ▸ mem_tripleRest h n⟩
  · rw [hn]
    exact ⟨rfl, rfl, spovr_outside s core x⟩
  · rw [hk]
    exact ⟨rfl, spPut_same c k b, spovr_inside s core x k⟩

end Sys2Proof.Machine
end
section
/-! PROOF. What comes of a stall and of a device step; the operand slots and the matrix operations. -/

namespace Sys2Proof.Machine

/-- An instruction whose run stalls with no register to wait for waits. -/
theorem waits_of_run {i : Instr} {s : State} {r : Run} (he : exec i s = .next (settle s r)) (h : r = stallX) : Waits i s := by
  refine ⟨{ reg := none, waitv := none }, ?_⟩
  rw [he, h]
  rfl

/-- A device step whose unit exists and whose condition holds is taken. -/
theorem dev_next {row : String} {there : Bool} {r : Option State} {t : State} (h : there = true) (hr : r = some t) :
    dev row there r = .next t := by
  simp [dev, h, hr]

theorem coreThere_of_lt {n : Nat} (h : n < 400) : coreThere n = true := decide_eq_true h

/-! Operand slots (R105, R371, R372). -/

section
variable {os : BitVec 4} {s : State}

theorem claimSlot_free (tr : Bool) (h : (s.fcore.slot os.toNat).state = .free) :
    s.claimSlot tr os = .ok (s.modFcore (fun c => c.modSlot os.toNat (fun o => o.claim s.focus.seat s.fasid))) := by
  simp only [State.claimSlot, h]

theorem claimSlot_own (tr : Bool) (h : (s.fcore.slot os.toNat).state = .claimed s.focus.seat) : s.claimSlot tr os = .ok s := by
  simp [State.claimSlot, h]

theorem claimSlot_other {y : Nat} (tr : Bool) (h : (s.fcore.slot os.toNat).state = .claimed y) (hy : y ≠ s.focus.seat) :
    s.claimSlot tr os = if tr then raiseX 0x35 (os.zeroExtend 64) else stallX := by
  simp only [State.claimSlot, h, if_neg hy]

theorem claimSlot_releasing (tr : Bool) (h : (s.fcore.slot os.toNat).state = .releasing) : s.claimSlot tr os = stallX := by
  simp only [State.claimSlot, h]

end

/-- R105: a slot that another ASID wrote last is cleared by the claim. -/
theorem claim_clears (o : OpSlot) (x : Nat) {asid : BitVec 16} (h : o.lastAsid ≠ asid) :
    (o.claim x asid).data = [] ∧ (o.claim x asid).tags = [] := by
  simp [OpSlot.claim, h]

/-- R105, R372: a RELEASING slot that nothing names becomes FREE. -/
theorem exec_slotFree {core slot : Nat} {s : State} (hc : core < 400) (hs : slot < 16)
    (hr : ((s.core core).slot slot).state = .releasing) (hu : s.slotInUse core slot = false) :
    exec (.slotFree core slot) s = .next (s.modCore core (fun c => c.modSlot slot (fun o => { o with state := .free }))) :=
  dev_next (by simp [coreThere_of_lt hc, hs]) (if_pos ⟨hr, hu⟩)

/-- Settles O36: the claim's four cases are those of the slot's state. -/
theorem operandSlotsAreClaimedAndReleased : Obligations.OperandSlotsAreClaimedAndReleased := by
  intro os g s hr st claimed
  have claim {t : State} (h : s.claimSlot false os = .ok t ∧ s.claimSlot true os = .ok t) :
      Does (.osclaim os g) s t ∧ Does (.osclaimT os g) s t :=
    ⟨does_of_run (slotOp_ready hr) h.1, does_of_run (slotOp_ready hr) h.2⟩
  refine ⟨fun h => claim ⟨claimSlot_free _ h, claimSlot_free _ h⟩, fun h => ?_, fun y h hy => ⟨?_, ?_⟩, fun h => ⟨?_, ?_⟩,
    fun h => ?_, fun o => ⟨rfl, claim_clears o s.focus.seat⟩, fun core slot => exec_slotFree⟩
  · obtain ⟨hc, ht⟩ := claim ⟨claimSlot_own _ h, claimSlot_own _ h⟩
    exact ⟨hc, ht, does_of_run (slotOp_ready hr) (if_pos h)⟩
  · exact waits_of_run (slotOp_ready hr) (claimSlot_other false h hy)
  · exact raises_of_run (slotOp_ready hr) (claimSlot_other true h hy)
  · exact waits_of_run (slotOp_ready hr) (claimSlot_releasing false h)
  · exact waits_of_run (slotOp_ready hr) (claimSlot_releasing true h)
  · exact raises_of_run (slotOp_ready hr) (if_neg h)


/-! Matrix multiply (R373 to R376). -/

section
variable {s : State}

theorem awaitLeaf_ok {b : Nat} (h : (s.leaf s.focus.core b).arrived = false) : s.awaitLeaf b = .ok () := if_neg (by simp [h])

theorem awaitSeq_ok {acc : Nat} (h : s.seqOnAcc s.focus.core acc = false) : s.awaitSeq acc = .ok () := if_neg (by simp [h])

/-- R105, R106: a slot that either seat has claimed may be read. -/
theorem slotHeld_claimed {n : Nat} (h : ∃ y, (s.fcore.slot n).state = .claimed y) : s.slotHeld n = .ok () := by
  obtain ⟨y, hy⟩ := h
  simp only [State.slotHeld, hy]

theorem slotHeld_unclaimed {n : Nat} (h : ¬∃ y, (s.fcore.slot n).state = .claimed y) :
    s.slotHeld n = raiseX 0x34 (BitVec.ofNat 64 n) := by
  cases hst : (s.fcore.slot n).state with
  | claimed y => exact absurd ⟨y, hst⟩ h
  | free => simp only [State.slotHeld, hst]
  | releasing => simp only [State.slotHeld, hst]

end

@[simp] theorem core_modCore_same (s : State) (n : Nat) (f : Core → Core) : (s.modCore n f).core n = f (s.core n) :=
  aget_aput_same ..

/-- R391: what a leaf is set to is what it holds. -/
theorem leaf_setLeaf_same (s : State) (core o : Nat) (b : Barrier) : (s.setLeaf core o b).leaf core o = b := by
  simp [State.setLeaf, State.leaf]

/-- R373: the operation that an MMA or an MMAZ puts into the array, with the formats that the seat has captured. -/
def State.mmaOf (s : State) (zero : Bool) (acc : BitVec 2) (sa sb bar : BitVec 4) : MmaOp :=
  { seat := s.focus.seat, asid := s.fasid, acc := acc.toNat, sa := sa.toNat, sb := sb.toNat, bar := bar.toNat, zero := zero,
    rows := 64, cols := 64, efr := s.src.ctl.efr.extractLsb' 0 13, l6q := s.src.ctl.ctabsel.extractLsb' 0 2,
    waits := none, seqStep := none, last := true, failed := none, status := 0 }

section
variable {s : State} {acc : BitVec 2} {sa sb bar : BitVec 4}
  (room : (s.leaf s.focus.core bar.toNat).arrived = false ∧ s.seqOnAcc s.focus.core acc.toNat = false ∧
    s.awaitScore (.rows sa.toNat 0 63) = .ok () ∧ s.awaitScore (.rows sb.toNat 0 63) = .ok () ∧ s.fcore.arrayFull = false)
include room

/-- R374, R375: with both slots claimed and their tags sound, the operation enters the array and its leaf counts it. -/
theorem mma_issues (zero : Bool) (ha : ∃ y, (s.fcore.slot sa.toNat).state = .claimed y)
    (hb : ∃ y, (s.fcore.slot sb.toNat).state = .claimed y)
    (hc : s.fcore.mmaCheck sa.toNat sb.toNat 64 64 s.fresh = none) :
    s.mma zero acc sa sb bar =
      .ok ((s.mxfUp s.focus.core bar.toNat).newOp s.focus.core (.mma (s.mmaOf zero acc sa sb bar))) := by
  obtain ⟨hl, hq, hra, hrb, hf⟩ := room
  simp only [State.mma, awaitLeaf_ok hl, awaitSeq_ok hq, hra, hrb, hf, slotHeld_claimed ha, slotHeld_claimed hb, hc, bind,
    Except.bind]
  rfl

theorem mma_first_unclaimed (zero : Bool) (ha : ¬∃ y, (s.fcore.slot sa.toNat).state = .claimed y) :
    s.mma zero acc sa sb bar = raiseX 0x34 (BitVec.ofNat 64 sa.toNat) := by
  obtain ⟨hl, hq, hra, hrb, hf⟩ := room
  simp only [State.mma, awaitLeaf_ok hl, awaitSeq_ok hq, hra, hrb, hf, slotHeld_unclaimed ha, bind, Except.bind]
  rfl

theorem mma_second_unclaimed (zero : Bool) (ha : ∃ y, (s.fcore.slot sa.toNat).state = .claimed y)
    (hb : ¬∃ y, (s.fcore.slot sb.toNat).state = .claimed y) :
    s.mma zero acc sa sb bar = raiseX 0x34 (BitVec.ofNat 64 sb.toNat) := by
  obtain ⟨hl, hq, hra, hrb, hf⟩ := room
  simp only [State.mma, awaitLeaf_ok hl, awaitSeq_ok hq, hra, hrb, hf, slotHeld_claimed ha, slotHeld_unclaimed hb, bind,
    Except.bind]
  rfl

end

/-! The effect of a matrix operation (R376). -/

/-- R108: consecutive elements written into an accumulator, from element k on. -/
theorem accElem_accPut (c : Core) (acc k : Nat) (xs : List W32) (j : Nat) :
    (c.accPut acc k xs).accElem acc j = if k ≤ j then (xs[j - k]?).getD (c.accElem acc j) else c.accElem acc j := by
  induction xs generalizing c k with
  | nil => simp [Core.accPut]
  | cons x xs ih =>
    rw [Core.accPut, ih]
    rcases Nat.lt_trichotomy j k with h | rfl | h
    · rw [if_neg (by omega), if_neg (by omega)]
      exact aget_aputD_ne 0 (by omega) x c.acc
    · rw [if_neg (Nat.not_succ_le_self j), if_pos (Nat.le_refl j), Nat.sub_self]
      exact aget_aputD_same 0 (4096 * acc + j) x c.acc
    · obtain ⟨n, rfl⟩ : ∃ n, j = k + 1 + n := ⟨j - (k + 1), by omega⟩
      have hold : ({ c with acc := aputD 0 (4096 * acc + k) x c.acc } : Core).accElem acc (k + 1 + n) =
          c.accElem acc (k + 1 + n) := aget_aputD_ne 0 (by omega) x c.acc
      rw [hold, if_pos (by omega), if_pos (by omega), show k + 1 + n - k = n + 1 by omega]
      simp

/-- R376: an uncorrectable error leaves the canonical NaN in every element. -/
theorem accElem_accNan (c : Core) (acc : Nat) {j : Nat} (h : j < 4096) : (c.accNan acc).accElem acc j = qnan := by
  rw [Core.accNan, accElem_accPut, if_pos (Nat.zero_le j), Nat.sub_zero, List.getElem?_replicate, if_pos h]
  rfl

/-- R461: the log of an operand's corrected error changes no core. -/
@[simp] theorem logOperand_core (s : State) (core n : Nat) (err : BitVec 4) : (s.logOperand core err).core n = s.core n := by
  unfold State.logOperand
  split <;> rfl

theorem logOperand_none (s : State) (core : Nat) : s.logOperand core 0 = s := rfl

section
variable {s : State} {core id : Nat} {o : MmaOp} {err : BitVec 4}

theorem mmaEffect_failed {cause : BitVec 8} (h : o.failed = some cause) : s.mmaEffect core id o err = (s, 0x20, cause) := by
  simp only [State.mmaEffect, h]

/-- R376: a sound operation leaves its result, row by row. -/
theorem mmaEffect_sound (hf : o.failed = none) (hs : o.status = 0) (hp : (s.core core).mmaPoison o = false)
    {rows : List (Nat × List W32)} (hr : (s.core core).mmaResult o = some rows) :
    s.mmaEffect core id o 0 =
      ((s.noteAcc core o.seat o.acc id).modCore core (fun c => rows.foldl (fun c r => c.accPut o.acc r.1 r.2) c), 0, 0) := by
  simp [State.mmaEffect, hf, hs, hp, hr]

/-- R376: an uncorrectable error in an operand, or in one that was consumed before. -/
theorem mmaEffect_uncorrectable (hf : o.failed = none)
    (h : (o.status ||| ((err.zeroExtend 32) <<< 1) ||| (if (s.core core).mmaPoison o then 4 else 0)) &&& 0x1C#32 ≠ 0) :
    s.mmaEffect core id o err = ((s.noteAcc core o.seat o.acc id).modCore core (fun c => c.accNan o.acc),
      o.status ||| ((err.zeroExtend 32) <<< 1) ||| (if (s.core core).mmaPoison o then 4 else 0), 0x52) := by
  simp only [State.mmaEffect, hf]
  exact if_pos (bne_iff_ne.mpr h)

/-- R376, R397: the oldest operation on its accumulator that awaits no copy completes. -/
theorem exec_mmaComplete (hc : core < 400) (ho : s.op core id = some (.mma o)) (hw : o.waits = none)
    (hb : (s.core core).accBusy o.acc id = false) :
    let r := (s.logOperand core err).mmaEffect core id o err
    let u := r.1.dropOp core id
    exec (.mmaComplete core id err) s = .next ((if o.last then u.mxfDone core o.bar r.2.1 r.2.2
      else (u.setLeaf core o.bar ((u.leaf core o.bar).note r.2.1 r.2.2)).evalLeaf core o.bar).settleAcc core) :=
  dev_next (coreThere_of_lt hc) (by simp [ho, hw, hb])

end

/-- Settles O37: the checks that pass leave the operation's own, and the completion's effect is one of its three forms. -/
theorem matrixMultiplyCompletes : Obligations.MatrixMultiplyCompletes := by
  intro acc sa sb bar g s hr held op room up
  refine ⟨congrArg Barrier.mxf (leaf_setLeaf_same ..), fun hroom ha hb hc => ?_, fun hroom ha => ?_, fun hroom ha hb => ?_,
    fun core id err o hc ho hw hb => ⟨fun hl => ?_, fun hl => ?_, fun hf he hs hp rows hrows => ?_,
      fun cause hf => mmaEffect_failed hf, fun hf hne => ?_⟩⟩
  · exact ⟨does_of_run (slotOp_ready hr) (mma_issues hroom false ha hb hc),
      does_of_run (slotOp_ready hr) (mma_issues hroom true ha hb hc)⟩
  · exact ⟨raises_of_run (slotOp_ready hr) (mma_first_unclaimed hroom false ha),
      raises_of_run (slotOp_ready hr) (mma_first_unclaimed hroom true ha)⟩
  · exact ⟨raises_of_run (slotOp_ready hr) (mma_second_unclaimed hroom false ha hb),
      raises_of_run (slotOp_ready hr) (mma_second_unclaimed hroom true ha hb)⟩
  · exact (exec_mmaComplete hc ho hw hb).trans (by rw [if_pos hl])
  · exact (exec_mmaComplete hc ho hw hb).trans (by simp [hl])
  · subst he
    exact mmaEffect_sound hf hs hp hrows
  · rw [← logOperand_core s core core err] at hne
    rw [mmaEffect_uncorrectable hf hne]
    exact ⟨rfl, hne, fun k hk => by rw [core_modCore_same, accElem_accNan _ _ hk]⟩

end Sys2Proof.Machine
end

section
/-! PROOF. EFRW, CTWR, SPSWAP and the maintenance of the caches. -/

namespace Sys2Proof.Machine

/-- R380: one entry of the code table, modulo 256, and the others as they were. -/
theorem putTable_one (t : Assoc (BitVec 16)) (n : Nat) (w : W32) :
    aget 0 (n % 256) (putTable t n [w]) = w.extractLsb' 16 16 ∧
      ∀ k, k ≠ n % 256 → aget 0 k (putTable t n [w]) = aget 0 k t :=
  ⟨aget_aput_same .., fun _ hk => aget_aput_ne 0 hk _ t⟩

section
variable {a b : BitVec 6} {s : State} (hr : Ready 0 [.s a, .s b] [] s)
include hr

/-- R96 to R98: CFLUSH of a range whose pages translate. -/
theorem does_cflush {ps : List Piece} (h : s.seatPieces (s.rS a) (maintLen (s.rS b)) .regRead = .ok ps) :
    Does (.cflush a b) s (ps.foldl State.flushPiece (s.commitF.install false ps)) :=
  does_of_run (slotOp_ready hr) (by simp only [h, bind, Except.bind])

/-- R96 to R98: CINV of a range whose pages translate and may be written, or lie in MRAM. -/
theorem does_cinv {ps : List Piece} (h : s.cinvPieces (segs (s.rS a) (maintLen (s.rS b))) = .ok ps) :
    Does (.cinv a b) s (ps.foldl State.dropPiece ((s.commitF.install true (ps.filter (fun p => !isMram p.pa))).install false
      (ps.filter (fun p => isMram p.pa)))) :=
  does_of_run (slotOp_ready hr) (by simp only [h, bind, Except.bind])

end

/-- Settles O39: each instruction, its registers ready, is its body; CTWR stalls or writes as an operation decodes or none does. -/
theorem formatSwapAndCacheInstructionsComplete : Obligations.FormatSwapAndCacheInstructionsComplete := by
  intro v a b g s
  refine ⟨fun hr => does_of_run (slotOp_ready hr) rfl, fun hr => ⟨fun hq => ?_, fun hq => ?_⟩, putTable_one,
    fun hr => does_of_run (slotOp_ready hr) rfl, fun hr => ?_⟩
  · exact does_of_run (slotOp_ready hr) (if_neg (by simp [hq]))
  · exact waits_of_run (slotOp_ready hr) (if_pos hq)
  · exact ⟨does_of_run (slotOp_ready hr) rfl, does_of_run (slotOp_ready hr) rfl, fun ps => does_cflush hr,
      fun ps => does_cinv hr⟩

end Sys2Proof.Machine
end

section
/-! PROOF. The copies: their issue, their landing, and the matrix operations that follow them. -/

namespace Sys2Proof.Machine

/-! A copy that nothing holds back (R381 to R383). -/

/-- R456, R519: a copy for which the phase store queue has room is issued or held. -/
theorem issueCopy_ok {s : State} {o : CopyOp} {rs ws : List Piece × List PageMap}
    (room : ∀ va, o.dst = .virt va → let t := (s.install false rs.1).install true ws.1
      (t.trace t.focus.core t.focus.seat 4 va).psqRoom va = .ok ()) :
    (let t := (s.install false rs.1).install true ws.1
     t.issueCopy (t.copyWith o rs ws)) = .ok (s.copyStarted o rs ws) := by
  have hw (t : State) : (t.copyWith o rs ws).dst = o.dst := rfl
  unfold State.issueCopy State.copyStarted
  dsimp only
  simp only [hw]
  cases hd : o.dst with
  | virt va =>
    simp only [Endpoint.word, room va hd, bind, Except.bind]
    exact (apply_ite Except.ok _ _ _).symm
  | spad a => rfl
  | slot n row => rfl

/-- R153: a copy that no other orders behind itself is issued, once its endpoints' pages are installed. -/
theorem CopyReady.issued {s : State} {o : CopyOp} {rs ws : List Piece × List PageMap} (h : CopyReady s o rs ws) :
    let t := (s.install false rs.1).install true ws.1
    (if (!t.cpGoes t.focus.core (t.copyWith o rs ws)) = true then stallX else t.issueCopy (t.copyWith o rs ws)) =
      .ok (s.copyStarted o rs ws) := by
  have horder := h.order
  simp only at horder ⊢
  rw [install_focus, install_focus, horder]
  exact issueCopy_ok h.room

/-- R387: a source that lies in LPDDR alone. -/
theorem onlyLpddr_ok {ps : List Piece} (h : ∀ p ∈ ps, region p.pa = .lpddr) : onlyLpddr ps = .ok () := by
  have hf : ps.find? (fun p => region p.pa != .lpddr) = none := by simpa using h
  simp only [onlyLpddr, hf]

/-- What follows a check that passes. -/
theorem ok_bind {ε α β : Type} (a : α) (f : α → Except ε β) : ((Except.ok a : Except ε α) >>= f) = f a := rfl

/-- A check made in one of two forms, with what follows it. -/
theorem ite_bind {ε α β : Type} {c : Prop} [Decidable c] (x y : Except ε α) (f : α → Except ε β) :
    (if c then x >>= f else y >>= f) = ((if c then x else y) >>= f) := (apply_ite (· >>= f) c x y).symm

/-- A check that only one case needs. -/
theorem ite_ok_left {c : Bool} {x : Except Stop Unit} (h : c = false → x = .ok ()) : (if c then .ok () else x) = .ok () := by
  cases c with
  | true => rfl
  | false => exact h rfl

/-- R105, R111 to R113, R128, R381 to R383: a copy that meets CopyReady, its endpoints' registers well formed, is started. -/
theorem copy_ok {s : State} {o : CopyOp} {rs ws : List Piece × List PageMap} (h : CopyReady s o rs ws)
    {srcArg dstArg : Except Stop Unit} (hsa : srcArg = .ok ()) (hda : dstArg = .ok ()) :
    s.copy o srcArg dstArg = .ok (s.copyStarted o rs ws) := by
  have hentry := ite_ok_left (c := o.dst.isVirt) h.entry
  have hsrc := ite_ok_left (c := o.seqStep.isSome) (fun q => h.srcHeld (by simpa using q))
  have hdst := ite_ok_left (c := o.seqStep.isSome) (fun q => h.dstHeld (by simpa using q))
  have hstream : (if o.stream then onlyLpddr rs.1 else .ok ()) = .ok () := by
    cases ht : o.stream with
    | false => rfl
    | true => exact onlyLpddr_ok (h.stream ht)
  unfold State.copy
  simp only [ite_bind]
  simp only [h.unit, hentry, forM_ok h.srcFree, h.dstFree, h.readers, h.fits, hsa, hsrc, h.source, hstream, hda, hdst, h.dest,
    ok_bind, Bool.not_true, Bool.false_eq_true, if_false]
  split
  · rename_i b hb
    rw [awaitLeaf_ok (h.leaf b hb)]
    exact h.issued
  · exact h.issued

/-! The instructions (R384 to R387). -/

theorem limit_ok {s : State} {ok : Bool} (h : ok = true) : s.limit ok = .ok () := if_pos h

section
variable {a b c : BitVec 6} {ssp dsp : BitVec 2} {fl z : BitVec 1} {dslot oslot g : BitVec 4} {acc : BitVec 2} {p : Params}
  {s : State} {rs ws : List Piece × List PageMap} (hp : s.params = .ok p)

/-- R384: a CPY that does not convert awaits no tags of its source. -/
theorem awaitSource_plain (h : p.flg.getLsbD 0 = false) : s.awaitSource p a b ssp dsp = .ok () := by
  have hc : (s.cpyOf p a b ssp dsp).convert = none := by simp only [State.cpyOf, h]; rfl
  exact if_pos (by simp [hc])

/-- R111: a converting CPY whose local source no copy in flight writes. -/
theorem awaitSource_free {r : List PageMap × List Nat} (hr : s.srcPlan (s.cpyOf p a b ssp dsp) = .ok r)
    (h : ∀ x ∈ ({ s.cpyOf p a b ssp dsp with lens := r.2 } : CopyOp).srcScores, s.awaitScore x = .ok ()) :
    s.awaitSource p a b ssp dsp = .ok () := by
  unfold State.awaitSource
  dsimp only
  split
  · rfl
  · simp only [hr]
    exact forM_ok h

/-- R386, R454: an indexed copy reads its list, and is started with it unless it has consumed an error there. -/
theorem cpyIndexed_read {ps : List Piece} {bs : List Byte} (hps : s.pathPieces .read (s.rS c) (4 * p.rows) = .ok ps)
    (hbs : s.readScalar ps = .ok bs) (harg : endpointArg (if fl = 1 then 2 else 1) (s.rS b) = .ok ()) (scatter : Bool) :
    let t := s.installRead ps
    let idx := (List.range p.rows).map (fun i => bytesToNat ((bs.drop (4 * i)).take 4))
    let o := { t.localCopy p scatter a b fl with index := some idx, scatter := scatter }
    (t.poisonHit ps = none → CopyReady t o rs ws → s.cpyIndexed p scatter a b c fl = .ok (t.copyStarted o rs ws)) ∧
    (t.poisonHit ps ≠ none →
      s.cpyIndexed p scatter a b c fl = .ok (t.copyFails (t.localCopy p scatter a b fl) 0x52)) := by
  refine ⟨fun hn h => ?_, fun hn => ?_⟩
  · simp only [State.cpyIndexed, hps, hbs, hn, ok_bind, Option.isSome_none, Bool.false_eq_true, if_false]
    cases scatter with
    | true => exact copy_ok h harg rfl
    | false => exact copy_ok h rfl harg
  · simp only [State.cpyIndexed, hps, hbs, ok_bind, if_pos (Option.isSome_iff_ne_none.mpr hn)]

include hp

section
variable (hr : Ready g (markerSrcs s.focus.block ++ [.s a, .s b]) [] s)
include hr

/-- R280, R382 to R384: a CPY within its limits is its body. -/
theorem exec_cpy (hk : copyOk p (dsp == 2) 1 = true) (hfree : s.awaitSource p a b ssp dsp = .ok ())
    (hf : s.cpyFits p a b ssp dsp = true) : exec (.cpy a b ssp dsp g) s = .next (settle s (s.cpy p a b ssp dsp)) :=
  blockOp_ready hr.append_comm hp (by simp only [limit_ok hk, limit_ok hf, hfree, ok_bind])

theorem does_cpy_plain (hk : copyOk p (dsp == 2) 1 = true) (hf : s.cpyFits p a b ssp dsp = true)
    (hsa : endpointArg ssp.toNat (s.rS a) = .ok ()) (hda : endpointArg dsp.toNat (s.rS b) = .ok ())
    (hc : p.flg.getLsbD 0 = false) (h : CopyReady s (s.cpyOf p a b ssp dsp) rs ws) :
    Does (.cpy a b ssp dsp g) s (s.copyStarted (s.cpyOf p a b ssp dsp) rs ws) := by
  refine does_of_run (exec_cpy hp hr hk (awaitSource_plain hc) hf) ?_
  rw [State.cpy, if_neg (by rw [hc]; decide)]
  exact copy_ok h hsa hda

/-- R384: a converting CPY takes the length of each row from the plan of its source. -/
theorem does_cpy_converting (hk : copyOk p (dsp == 2) 1 = true) (hf : s.cpyFits p a b ssp dsp = true)
    (hsa : endpointArg ssp.toNat (s.rS a) = .ok ()) (hda : endpointArg dsp.toNat (s.rS b) = .ok ())
    (hc : p.flg.getLsbD 0 = true) {r : List PageMap × List Nat} (hplan : s.srcPlan (s.cpyOf p a b ssp dsp) = .ok r)
    (halign : s.copyAlign { s.cpyOf p a b ssp dsp with maps := r.1, lens := r.2 } p.fsel = .ok ())
    (h : CopyReady s { s.cpyOf p a b ssp dsp with maps := r.1, lens := r.2 } rs ws) :
    Does (.cpy a b ssp dsp g) s (s.copyStarted { s.cpyOf p a b ssp dsp with maps := r.1, lens := r.2 } rs ws) := by
  refine does_of_run (exec_cpy hp hr hk (awaitSource_free hplan h.srcFree) hf) ?_
  rw [State.cpy, if_pos hc]
  simp only [hsa, hplan, forM_ok h.srcFree, halign, ok_bind]
  exact copy_ok h rfl hda

/-- R387: a CPYW is a copy that reads its source as a stream. -/
theorem does_cpyw (hk : copyOk p (fl == 1) 0 = true) (hf : s.localFits p false a b fl = true)
    (hda : endpointArg (if fl = 1 then 2 else 1) (s.rS b) = .ok ())
    (h : CopyReady s { s.localCopy p false a b fl with stream := true } rs ws) :
    Does (.cpyw a b fl g) s (s.copyStarted { s.localCopy p false a b fl with stream := true } rs ws) :=
  does_of_run (blockOp_ready hr.append_comm hp (limit_ok (by rw [hk, hf]; rfl))) (copy_ok h rfl hda)

end

/-- R385: a CPY.MMA starts its copy and leaves a matrix operation that waits for it. -/
theorem does_cpyMma (hr : Ready g (markerSrcs s.focus.block ++ [.s a]) [] s) (hk : copyOk p true 0 = true)
    (hrows : p.rows ≤ 64) (hcols : p.cols ≤ 192) (hbar : p.nobar = false) (hf : s.mmaFits p a dslot ssp = true)
    (hsa : endpointArg ssp.toNat (s.rS a) = .ok ()) (hq : s.seqOnAcc s.focus.core acc.toNat = false)
    (hfull : s.fcore.arrayFull = false) (h : CopyReady s (s.mmaCopy p a dslot ssp) rs ws)
    (hheld : (s.copyStarted (s.mmaCopy p a dslot ssp) rs ws).slotHeld oslot.toNat = .ok ()) :
    let t := s.copyStarted (s.mmaCopy p a dslot ssp) rs ws
    Does (.cpyMma a dslot oslot acc fl z ssp g) s ((t.mxfUp t.focus.core p.bar).newOp t.focus.core (.mma
      { seat := t.focus.seat, asid := t.fasid, acc := acc.toNat, sa := (if fl = 0 then dslot else oslot).toNat,
        sb := (if fl = 0 then oslot else dslot).toNat, bar := p.bar, zero := z == 1, rows := 64, cols := 64,
        efr := t.src.ctl.efr.extractLsb' 0 13, l6q := t.src.ctl.ctabsel.extractLsb' 0 2, waits := some s.nextOp,
        seqStep := none, last := true, failed := none, status := 0 })) := by
  refine does_of_run (blockOp_ready hr.append_comm hp (limit_ok (by simp [hk, hrows, hcols, hbar, hf]))) ?_
  simp only [State.cpyMma, awaitSeq_ok hq, hfull, copy_ok h hsa rfl, hheld, ok_bind, Bool.false_eq_true, if_false]

section
variable (hr : Ready g (markerSrcs s.focus.block ++ [.s a, .s b, .s c]) [] s) (hk : copyOk p (fl == 1) 0 = true)
  (hrows : p.rows ≤ 4096)
include hr hk hrows

theorem exec_cpyg (hf : s.localFits p false a b fl = true) :
    exec (.cpyg a b c fl g) s = .next (settle s (s.cpyIndexed p false a b c fl)) :=
  blockOp_ready hr.append_comm hp (limit_ok (by rw [hk, hf, decide_eq_true hrows]; rfl))

theorem exec_cpys (hf : s.localFits p true a b fl = true) :
    exec (.cpys a b c fl g) s = .next (settle s (s.cpyIndexed p true a b c fl)) :=
  blockOp_ready hr.append_comm hp (limit_ok (by rw [hk, hf, decide_eq_true hrows]; rfl))

end

end

/-! Landing (R381 to R385). -/

/-- R384: the next bytes of a copy, with nothing to wait for: those that cannot be converted end it with COPY_FAULT, others are
written with their tags and counted. -/
theorem exec_copyLand {core id n : Nat} {o : CopyOp} {s : State} (hc : core < 400) (ho : s.op core id = some (.copy o))
    (hm : o.mayLand n = true) (hw : s.copyWaits core id o n = false) (hh : s.needsHost o n = none) :
    (∀ cause, s.landing core o n = .error cause →
      exec (.copyLand core id n) s = .next (s.endCopy core id o o.total 0x40#32 cause)) ∧
    (∀ q bs, s.landing core o n = .ok (q, bs) → (o.dst.isVirt = true → region (o.phys (o.dstAt o.landed).toNat).1 ≠ .host) →
      let u := s.copyFill core o n
      exec (.copyLand core id n) s = .next (((u.putDst core o bs).landTags core o n).landed core id
        { q with bad := (o.bad ++ u.badNow o n).eraseDups } n)) := by
  refine ⟨fun cause hl => dev_next (coreThere_of_lt hc) ?_, fun q bs hl hd => dev_next (coreThere_of_lt hc) ?_⟩
  · simp [ho, hm, hw, hh, hl]
  · have hnh : ¬(o.dst.isVirt = true ∧ region (o.phys (o.dstAt o.landed).toNat).1 = .host) := fun ⟨hv, hr⟩ => hd hv hr
    simp [ho, hm, hw, hh, hl, hnh]

/-- R374, R385: a follow-on whose copy has ended enters the array, or is counted down with the cause of its format check. -/
theorem exec_followOnMma {core id q : Nat} {o : MmaOp} {s : State} (hc : core < 400) (ho : s.op core id = some (.mma o))
    (hw : o.waits = some q) (hq : s.op core q = none) (hb : s.followBlocked core q o = false) :
    exec (.followOnMma core id) s = .next (match (s.core core).mmaCheck o.sa o.sb o.rows o.cols s.fresh with
      | some e => ((s.dropOp core id).mxfDone core o.bar 0x20#32 e.1).settleAcc core
      | none => s.modCore core (fun k => { k with ops := aput id (.mma { o with waits := none }) k.ops })) := by
  refine dev_next (coreThere_of_lt hc) ?_
  simp only [ho, hw, hq, hb]
  cases (s.core core).mmaCheck o.sa o.sb o.rows o.cols s.fresh <;> rfl

/-- Settles O40: each instruction's checks pass one by one, and its copy is then started. -/
theorem copiesComplete : Obligations.CopiesComplete := by
  intro a b c ssp dsp fl z dslot oslot acc g p s rs ws hp
  refine ⟨fun hr hk hf hsa hda => ⟨does_cpy_plain hp hr hk hf hsa hda, fun ms ls hc hplan => ?_⟩,
    fun hr hk hf hda => does_cpyw hp hr hk hf hda, fun hr hk hrows hcols hbar hf hsa hq hfull => ?_,
    fun hr hk hrows harg ps bs hps hbs => ?_, fun core id n o => exec_copyLand, fun core id o q => exec_followOnMma⟩
  · exact does_cpy_converting hp hr hk hf hsa hda hc hplan
  · exact does_cpyMma hp hr hk hrows hcols hbar hf hsa hq hfull
  · refine ⟨fun hf => ?_, fun hf => ?_⟩
    · have run := exec_cpyg hp hr hk hrows hf
      obtain ⟨hgood, hbad⟩ := cpyIndexed_read (a := a) (rs := rs) (ws := ws) hps hbs harg false
      exact ⟨fun hn h => does_of_run run (hgood hn h), fun hn => does_of_run run (hbad hn)⟩
    · have run := exec_cpys hp hr hk hrows hf
      obtain ⟨hgood, hbad⟩ := cpyIndexed_read (a := a) (rs := rs) (ws := ws) hps hbs harg true
      exact ⟨fun hn h => does_of_run run (hgood hn h), fun hn => does_of_run run (hbad hn)⟩

end Sys2Proof.Machine
end

section
/-! PROOF. The maintenance rows: shootdowns, the pin tables, the core map, scans, the visible topology and detected errors. -/

namespace Sys2Proof.Machine

/-! Shootdowns (R137 to R139). -/

/-- R137: with fewer than four commands pending, one of a defined kind is accepted and drops what it names. -/
theorem shoot_accepted {s : State} (h : s.fe.tlbi.length < 4) (asid : BitVec 16) {kind : Nat} (hk : kind < 4) :
    let k : Shootdown := { asid := asid, kind := kind, va := s.ctlD 0x00F00008, len := s.ctlD 0x00F00010 }
    let t := s.dropXlat k.names k.namesNode
    s.shoot asid kind = some { t with fe := { t.fe with tlbi := t.fe.tlbi ++ [k], tlbiIssued := t.fe.tlbiIssued + 1 } } := by
  simp only [State.shoot, if_neg (Nat.not_le.mpr h), if_neg (Nat.not_le.mpr hk)]

theorem shoot_reserved {s : State} (h : s.fe.tlbi.length < 4) (asid : BitVec 16) {kind : Nat} (hk : 4 ≤ kind) :
    s.shoot asid kind = some
      { s with fe := { s.fe with tlbiErr := true, tlbiIssued := s.fe.tlbiIssued + 1, tlbiDone := s.fe.tlbiDone + 1 } } := by
  simp only [State.shoot, if_neg (Nat.not_le.mpr h), if_pos hk]

theorem exec_tlbi {s : State} (h : s.fe.tlbi.length < 4) {asid a : BitVec 16} {k : Nat} {i : Instr}
    (hi : (a, k, i) ∈ [(asid, 0, Instr.tlbiRange asid), (asid, 1, .tlbiAsid asid), (0, 2, .tlbiGlobalRange), (0, 3, .tlbiAll)]) :
    let sh : Shootdown := { asid := a, kind := k, va := s.ctlD 0x00F00008, len := s.ctlD 0x00F00010 }
    let t := s.dropXlat sh.names sh.namesNode
    exec i s = .next { t with fe := { t.fe with tlbi := t.fe.tlbi ++ [sh], tlbiIssued := t.fe.tlbiIssued + 1 } } := by
  simp only [List.mem_cons, Prod.mk.injEq, List.not_mem_nil, or_false] at hi
  rcases hi with ⟨rfl, rfl, rfl⟩ | ⟨rfl, rfl, rfl⟩ | ⟨rfl, rfl, rfl⟩ | ⟨rfl, rfl, rfl⟩
  · exact dev_next rfl (shoot_accepted h a (by decide))
  · exact dev_next rfl (shoot_accepted h a (by decide))
  · exact dev_next rfl (shoot_accepted h 0 (by decide))
  · exact dev_next rfl (shoot_accepted h 0 (by decide))

theorem exec_tlbiReserved {s : State} (h : s.fe.tlbi.length < 4) {kind : BitVec 3} (hk : 4 ≤ kind.toNat) :
    exec (.tlbiReserved kind) s = .next
      { s with fe := { s.fe with tlbiErr := true, tlbiIssued := s.fe.tlbiIssued + 1, tlbiDone := s.fe.tlbiDone + 1 } } :=
  dev_next rfl (by rw [if_neg (Nat.not_lt.mpr hk), shoot_reserved h 0 hk])

/-- R139: the oldest command completes once nothing uses what it names. -/
theorem exec_tlbiComplete {s : State} {k : Shootdown} {r : List Shootdown} (h : s.fe.tlbi = k :: r) (hq : s.shootQuiet k = true) :
    exec .tlbiComplete s = .next { s with fe := { s.fe with tlbi := r, tlbiDone := s.fe.tlbiDone + 1 } } :=
  dev_next rfl (by simp [h, hq])

/-! Pin tables (R90 to R92). -/

section
variable {slice entry : Nat} {s : State}

theorem pinThere_of_lt (hs : slice < 40) (he : entry < 192) : pinThere slice entry = true := decide_eq_true ⟨hs, he⟩

theorem pinPage_free {ppn : W32} (hb : ((s.cluster slice).pin entry).busy = none) (hv : ((s.cluster slice).pin entry).valid = false)
    (hr : region (ppn.toNat * 0x10000) = .lpddr) (hn : s.pageNamed ppn = false) :
    s.pinPage slice entry ppn = s.setPin slice entry { valid := true, busy := some true, ppn := ppn } :=
  if_neg (by simp [hb, hv, hr, hn])

theorem pinPage_used (ppn : W32)
    (h : ((s.cluster slice).pin entry).busy.isSome = true ∨ ((s.cluster slice).pin entry).valid = true) :
    s.pinPage slice entry ppn = s := if_pos (by rcases h with h | h <;> simp [h])

theorem unpinPage_valid (hb : ((s.cluster slice).pin entry).busy = none) (hv : ((s.cluster slice).pin entry).valid = true) :
    s.unpinPage slice entry = s.setPin slice entry { (s.cluster slice).pin entry with valid := false, busy := some false } :=
  if_neg (by simp [hb, hv])

theorem unpinPage_unused (h : ((s.cluster slice).pin entry).busy.isSome = true ∨ ((s.cluster slice).pin entry).valid = false) :
    s.unpinPage slice entry = s := if_pos (by rcases h with h | h <;> simp [h])

/-- R92: BUSY clears once the page's lines have left the caches, and what waited for the page goes on. -/
theorem exec_pinComplete (hs : slice < 40) (he : entry < 192) (hb : ((s.cluster slice).pin entry).busy.isSome = true) :
    let e := (s.cluster slice).pin entry
    exec (.pinComplete slice entry) s =
      .next ((((((s.cachedIn (e.ppn.toNat * 0x10000) 0x10000).foldl (fun s l => s.writeBack l) s).setPin slice entry
        { e with busy := none }).sliceOff slice).hostRelease []).resumeHeld) :=
  dev_next (pinThere_of_lt hs he) (if_neg (by simpa [← Option.isSome_iff_ne_none] using hb))

end

/-! The core map (R229). -/

section
variable {lcid : Nat} {v : W32} {s : State}

/-- R229: an entry that names no core twice is written. -/
theorem setLcid_once (h : lcidValid (v &&& 0x800001FF#32) = false ∨ s.lcidOf (lcidPhys (v &&& 0x800001FF#32)) = none ∨
      s.lcidOf (lcidPhys (v &&& 0x800001FF#32)) = some lcid) :
    s.setLcid lcid v = { s with fe := { s.fe with lcid := aput lcid (v &&& 0x800001FF#32) s.fe.lcid } } :=
  if_neg (by rcases h with h | h | h <;> simp [h])

/-- R229: an entry that would give a core a second identity is left as it is. -/
theorem setLcid_twice {j : Nat} (hv : lcidValid (v &&& 0x800001FF#32) = true)
    (hj : s.lcidOf (lcidPhys (v &&& 0x800001FF#32)) = some j) (hne : j ≠ lcid) : s.setLcid lcid v = s :=
  if_pos (by simp [hv, hj, hne])

end

/-! Scans (R460 to R463). -/

section
variable {die k : Nat} {s : State}

/-- R460: whether a core, or the scan unit of its cluster, is busy. -/
def State.scanBarred (s : State) (core : Nat) : Bool :=
  (s.seatAt core 0).busy || (s.seatAt core 1).busy || (s.core core).stopping.isSome || (s.cluster (clusterOf core)).scanBusy.isSome

theorem scanStart_busy (hk : k ≤ 99) (h : s.scanBarred (100 * die + k) = true) :
    s.scanStart die k = s.modCluster (clusterOf (100 * die + k)) (fun c => { c with scanOutcome := 2, scanDone := c.scanDone + 1 }) :=
  (if_neg (Nat.not_lt.mpr hk)).trans (if_pos h)

theorem scanStart_idle (hk : k ≤ 99) (h : s.scanBarred (100 * die + k) = false) :
    s.scanStart die k = ((s.emptyL1 (100 * die + k)).modCore (100 * die + k) (fun x => { x with tlb := [] })).modCluster
      (clusterOf (100 * die + k)) (fun c => { c with scanBusy := some (100 * die + k), scanCore := k }) :=
  (if_neg (Nat.not_lt.mpr hk)).trans (if_neg (by rw [show (_ || _) = false from h]; decide))

theorem exec_scanRequest {t : State} (hd : die < 4) (hk : k ≤ 99) (h : s.scanStart die k = t) :
    exec (.scanRequest die k) s = .next t :=
  dev_next (decide_eq_true ⟨hd, by omega⟩) (congrArg some h)

end

section
variable {die cl core : Nat} {s : State}

/-- R460: a scan that has ended is reported at its cluster. -/
def State.scanEnded (s : State) (die cl : Nat) (o : BitVec 2) : State :=
  s.modCluster (10 * die + cl) (fun x => { x with scanBusy := none, scanOutcome := o, scanDone := x.scanDone + 1 })

/-- R461, R462: a passed scan is counted, and the timelines rise as far as they may. -/
theorem exec_scanComplete_pass (hd : die < 4) (hc : cl < 10) (hb : (s.cluster (10 * die + cl)).scanBusy = some core) :
    let t := s.scanEnded die cl 0
    exec (.scanComplete die cl true) s = .next ((t.setCtlW (scanCntOff core) (t.scanCnt core + 1)).certifyAll) :=
  dev_next (decide_eq_true ⟨hd, hc⟩) (by simp only [hb]; rfl)

/-- R463, R464: a failed scan quarantines its core, is logged and makes its entries suspect. -/
theorem exec_scanComplete_fail (hd : die < 4) (hc : cl < 10) (hb : (s.cluster (10 * die + cl)).scanBusy = some core) :
    exec (.scanComplete die cl false) s = .next ((((({ s.scanEnded die cl 1 with fresh := s.fresh + 1 } : State).setCoreBit
      0x00090400 core).logEvent core 7 (Config.freeWord (s.fresh + 1))).suspect core).reportPools) :=
  dev_next (decide_eq_true ⟨hd, hc⟩) (by simp only [hb]; rfl)

end

/-! The visible topology (R465). -/

section
variable {s : State}

/-- R465: the mask becomes visible. -/
def State.masked (s : State) : State :=
  { s with topo := { s.topo with hidden := ((List.range 400).filter (fun n => !s.maskBit n)).map (fun n => (n, true)) } }

/-- R465: whether the visible counts stay as they are. -/
def State.sameCounts (s t : State) : Prop := t.ncore = s.ncore ∧ t.nclus = s.nclus ∧ t.ndie = s.ndie

theorem sameCounts_iff {t : State} :
    (t.ncore == s.ncore && t.nclus == s.nclus && t.ndie == s.ndie) = true ↔ s.sameCounts t := by
  simp [State.sameCounts, and_assoc]

theorem applyTopo_refused (h : s.applyRefused = true) : s.applyTopo = { s with topo := { s.topo with err := true } } := if_pos h

theorem applyTopo_same (h : s.applyRefused = false) (hs : s.sameCounts s.masked) : s.applyTopo = s.masked.reportPools :=
  (if_neg (by simp [h])).trans (congrArg State.reportPools (if_pos (sameCounts_iff.mpr hs)))

/-- R450, R465: where a count changes, the generation rises and every running seat is told. -/
theorem applyTopo_changed (h : s.applyRefused = false) (hs : ¬s.sameCounts s.masked) :
    s.applyTopo = ({ s.masked with topo := { s.masked.topo with gen := s.masked.topo.gen + 1 } } : State).topologyChange.reportPools :=
  (if_neg (by simp [h])).trans (congrArg State.reportPools (if_neg (fun q => hs (sameCounts_iff.mp q))))

theorem exec_apply {t : State} (h : s.applyTopo = t) : exec .apply s = .next t :=
  dev_next (row := "APPLY") rfl (congrArg some h)

end

/-! Detected errors (R452 to R455, R461). -/

theorem exec_errorDetected {e : ErrorEvent} {s t : State} (hp : placeThere e.place = true) (hd : s.detect e = some t) :
    exec (.errorDetected e) s = .next t := dev_next hp hd

theorem scratchpadThere {core off : Nat} (hc : core < 400) (ho : off < 0xC0000) : placeThere (.scratchpad core off) = true := by
  simp [placeThere, coreThere_of_lt hc, ho]

section
variable {core seat id pa off : Nat} {s : State}

/-- R452, R461: a corrected error is logged with its place. -/
theorem detect_corrected : s.detect { kind := .corrected, place := .scratchpad core off } =
    some (({ s with fresh := s.fresh + 1 } : State).logEvent core 1 (uncorrAddr 1 core off)) := rfl

/-- R453: a block of LPDDR with an uncorrectable error is poisoned and logged by the core that detects it. -/
theorem detect_poisoned : s.detect { kind := .poisoned, place := .lpddr pa } =
    some ((({ s with fresh := s.fresh + 1 } : State).poisonBlock pa).logEvent (s.detector (.lpddr pa)) 2
      (uncorrAddr 6 (s.detector (.lpddr pa)) (pa / 64 * 64))) := rfl

/-- R453: an error in a clean copy has its line read from its home again. -/
theorem detect_cleanCopy (h : s.dirtyOwner pa ≠ some core) :
    s.detect { kind := .cleanCopy, place := .l1 core pa } = some (s.refetch (.l1 core pa)) := if_pos (bne_iff_ne.mpr h)

/-- R454, R455: a seat with tracking on that reads an error in its scratchpad has consumed it; its registers are left to the
rollback. -/
theorem detect_consumedBySeat (sd : List (BitVec 6)) (vd : List (BitVec 5)) (ac : List (BitVec 2)) (hc : core < 400) (hx : seat < 2)
    (hr : (s.seatAt core seat).run = .running) (hen : (s.seatAt core seat).file.ctl.phaseEn = true) :
    s.detect { kind := .consumedBySeat core seat sd vd ac, place := .scratchpad core off } =
      some (s.consume core seat (uncorrAddr 1 core off)) := by
  simp [State.detect, coreThere_of_lt hc, hx, hr, hen, readBySeat, placeOf, State.detector]

/-- R455: a copy that consumes an error ends. -/
theorem detect_consumedByCopy {o : CopyOp} (ho : s.op core id = some (.copy o)) :
    s.detect { kind := .consumedByEngine core id, place := .scratchpad core off } =
      some (s.endCopy core id o o.total 0x40#32 0x52) := by
  simp only [State.detect, ho, State.consumeEngine]

end

/-- Settles O53: each row's condition holds, and its branch is the one that the case names. -/
theorem maintenanceRowsComplete : Obligations.MaintenanceRowsComplete := by
  intro asid kind slice entry core die ppn s hslice hentry hcore hdie
  have hpin : pinThere slice entry = true := pinThere_of_lt hslice hentry
  refine ⟨fun h => ⟨fun a k i => exec_tlbi h, exec_tlbiReserved h⟩, fun k r => exec_tlbiComplete,
    ⟨fun hb hv hr hn => ?_, fun h => ?_, fun hb hv => ?_, fun h => ?_, exec_pinComplete hslice hentry⟩,
    fun v => ⟨fun h => ?_, fun j hv hj hne => ?_⟩, fun k hk => ⟨fun h => ?_, fun h => ?_⟩,
    fun cl c hcl hb => ⟨exec_scanComplete_pass hdie hcl hb, exec_scanComplete_fail hdie hcl hb⟩,
    fun tl htl => dev_next (decide_eq_true htl) rfl, fun h => ?_, fun h => ⟨fun hs => ?_, fun hs => ?_⟩, fun off ho => ?_,
    fun pa hr => ?_, fun pa hd => ?_, fun seat off sd vd ac hx ho hr hen => ?_, fun id o off hoff ho => ?_⟩
  · exact dev_next hpin (congrArg some (pinPage_free hb hv hr hn))
  · exact dev_next hpin (congrArg some (pinPage_used ppn h))
  · exact dev_next hpin (congrArg some (unpinPage_valid hb hv))
  · exact dev_next hpin (congrArg some (unpinPage_unused h))
  · exact dev_next (decide_eq_true hcore) (congrArg some (setLcid_once h))
  · exact dev_next (decide_eq_true hcore) (congrArg some (setLcid_twice hv hj hne))
  · exact exec_scanRequest hdie hk (scanStart_busy hk h)
  · exact exec_scanRequest hdie hk (scanStart_idle hk h)
  · exact exec_apply (applyTopo_refused h)
  · exact exec_apply (applyTopo_same h hs)
  · exact exec_apply (applyTopo_changed h hs)
  · exact exec_errorDetected (scratchpadThere hcore ho) detect_corrected
  · exact exec_errorDetected (beq_iff_eq.mpr hr) detect_poisoned
  · exact exec_errorDetected (coreThere_of_lt hcore) (detect_cleanCopy hd)
  · exact exec_errorDetected (scratchpadThere hcore ho) (detect_consumedBySeat sd vd ac hcore hx hr hen)
  · exact exec_errorDetected (scratchpadThere hcore hoff) (detect_consumedByCopy ho)

end Sys2Proof.Machine
end

section
/-! PROOF. The block transfers: the instruction, the end of a transfer, and its completion record. -/

namespace Sys2Proof.Machine

/-! BTE (R388). -/

/-- R388: the transfer that a BTE instruction begins, of n bytes and with the registers of the state. -/
def State.bteOf (s : State) (n : Nat) (a b ch : BitVec 6) (tag : BitVec 8) : BteOp :=
  { asid := s.fasid, phys := false, src := s.rS a, dst := s.rS b, bytes := n, crd := s.rS ch, tag := tag, qnum := 0xFFFF, pkt := none,
    seat := some (s.focus.core, s.focus.seat), lent := tagEntry s.fseat.cont.tag, cancelled := false, pos := 0, ended := none,
    time := [], tail := none, recOut := 0, hostOut := none, hostData := [] }

section
variable {a b : BitVec 6} {c : BitVec 5} {tag : BitVec 8} {s : State}
  (hr : Ready 0 ([.s (c ++ 1#1)] ++ [.s a, .s b, .s (c ++ 0#1)]) [] s)
include hr

/-- R388: a byte count of 0 or beyond 2^40 is refused. -/
theorem raises_bte_count (h : s.rS (c ++ 0#1) = 0 ∨ 2 ^ 40 < (s.rS (c ++ 0#1)).toNat) :
    Raises (.bte a b c tag) s 0x37 (s.rS (c ++ 0#1)) :=
  raises_of_run (slotOpA_ready hr.append_comm) (if_pos (h.imp_left (congrArg BitVec.toNat)))

/-- R255, R388: with its count and its descriptor sound and a place in its engine, a transfer begins. -/
theorem does_bte {t : State} (h0 : s.rS (c ++ 0#1) ≠ 0) (hmax : (s.rS (c ++ 0#1)).toNat ≤ 2 ^ 40)
    (hroom : (s.die (dieOf s.focus.core)).bte.length < 64) (hcrd : s.checkCrd (s.rS (c ++ 1#1)) = .ok t) :
    Does (.bte a b c tag) s (t.commitF.startBte (dieOf t.focus.core) (t.bteOf (s.rS (c ++ 0#1)).toNat a b (c ++ 1#1) tag)) := by
  have hcount : ¬((s.rS (c ++ 0#1)).toNat = 0 ∨ 2 ^ 40 < (s.rS (c ++ 0#1)).toNat) := fun h =>
    h.elim (fun q => h0 (BitVec.eq_of_toNat_eq q)) (Nat.not_lt.mpr hmax)
  refine does_of_run (slotOpA_ready hr.append_comm) ?_
  simp only [if_neg hcount, if_neg (Nat.not_le.mpr hroom), hcrd, ok_bind]
  rfl

end

/-! The end of a transfer (R129, R256). -/

section
variable {die id : Nat} {o : BteOp} {s : State} (hd : die < 4) (ho : alook id (s.die die).bte = some o) (hh : o.hostOut = none)
  (ht : o.tail = none)
include hd ho hh ht

/-- R142, R256: a transfer that a kill has cancelled ends. -/
theorem exec_bteTransferEnd_cancelled (he : o.ended = none) (hc : o.cancelled = true) :
    exec (.bteTransferEnd die id) s = .next (s.bteEnd die id o 3 0x59) :=
  dev_next (decide_eq_true hd) (by simp [ho, hh, ht, he, hc])

/-- R129: the pieces of a transfer end it. -/
theorem exec_bteTransferEnd_ended {t : State} {q : BteOp} {st : Nat} {f : BitVec 8} (he : o.ended = none) (hc : o.cancelled = false)
    (hrun : bteRun die id (o.bytes / 64 + 4) s o = .ended t q st f) :
    exec (.bteTransferEnd die id) s = .next (t.bteEnd die id q st f) :=
  dev_next (decide_eq_true hd) (by simp [ho, hh, ht, he, hc, hrun])

/-- R129: the pieces of a transfer leave it with more to move, or with a request to the host. -/
theorem exec_bteTransferEnd_more {t : State} {q : BteOp} (he : o.ended = none) (hc : o.cancelled = false)
    (hrun : bteRun die id (o.bytes / 64 + 4) s o = .more t q ∨ bteRun die id (o.bytes / 64 + 4) s o = .asked t q) :
    exec (.bteTransferEnd die id) s = .next (t.putBte die id q) :=
  dev_next (decide_eq_true hd) (by rcases hrun with hrun | hrun <;> simp [ho, hh, ht, he, hc, hrun])

/-- R256: the record of a transfer that has ended follows. -/
theorem exec_bteTransferEnd_record {u : State} {e : Nat × BitVec 8} (he : o.ended = some e) (hu : s.bteRecord die id o e = some u) :
    exec (.bteTransferEnd die id) s = .next u :=
  dev_next (decide_eq_true hd) (by simp [ho, hh, ht, he, hu])

end

/-! The completion record (R255, R256). -/

section
variable {die id : Nat} {o : BteOp} {e : Nat × BitVec 8} {s : State}

/-- R255: without a descriptor no record is written. -/
theorem bteRecord_none (h : o.crd = 0) : s.bteRecord die id o e = some (s.bteLeave die id o none) := if_pos h

theorem bteEnd_none {st : Nat} {f : BitVec 8} (h : o.crd = 0) :
    let q : BteOp := { o with ended := some (st, f), time := s.time80, hostData := [] }
    s.bteEnd die id o st f = (s.putBte die id q).bteLeave die id q none := by
  intro q
  exact congrArg (fun r : Option State => r.getD (s.putBte die id q)) (bteRecord_none (o := q) h)

/-- R255, R256: a sound descriptor in device memory, whose ring has room there: the record is written, and TAIL follows. -/
theorem bteRecord_written {rd rr rt : EngAt} (h0 : o.crd ≠ 0) (halign : o.crd.toNat % 32 = 0)
    (hrd : s.engineAt die o.asid o.phys o.crd false = .ok rd) (hdev : region rd.pa ≠ .host) (hpin : s.pinBusy rd.pa = false)
    (hpoison : s.poisoned rd.pa = false) :
    let b := s.engineRead rd 32
    let n := fun k m => bytesToNat ((b.drop k).take m)
    ringOk o.crd b 4 16 32 = true → (n 0x0C 4 + 2 ^ 32 - n 0x10 4) % 2 ^ 32 ≠ 2 ^ n 8 1 →
    s.engineAt die o.asid o.phys (BitVec.ofNat 64 (n 0 8 + 32 * (n 0x0C 4 % 2 ^ n 8 1))) true = .ok rr →
    s.engineAt die o.asid o.phys (o.crd + 0x0C) true = .ok rt → s.pinBusy rr.pa = false → region rr.pa ≠ .host →
    s.bteRecord die id o e = some ((((s.markAt rr true).markAt rt true).engineBytes rr.pa (o.record e)).bteTail die id o rt.pa) := by
  intro b n hring hroom hrr hrt hpinr hdevr
  have hhost : (region rd.pa == .host) = false := beq_false_of_ne hdev
  rw [State.bteRecord, if_neg h0, if_neg (not_not_intro halign)]
  simp only [hrd, hhost, hpin, hpoison, Bool.false_and, Bool.not_false, Bool.and_false, Bool.false_eq_true, if_false]
  -- what the descriptor says: it is sound, and its ring has room
  rw [if_neg (by rw [hring]; decide), if_neg hroom]
  simp only [n, b] at hrr
  simp only [hrr, hrt, hpinr, Bool.false_eq_true, if_false, if_neg hdevr]

end

/-- Settles O41: BTE passes its checks; a transfer ends as its state says; and the record's conditions hold one by one. -/
theorem blockTransfersComplete : Obligations.BlockTransfersComplete := by
  intro a b c tag s
  refine ⟨fun hr => ⟨raises_bte_count hr, fun t => does_bte hr, rfl⟩, fun die id o hd ho hh ht => ⟨?_, fun he hc => ⟨?_, ?_⟩, ?_⟩,
    fun die id o st f h => ?_, fun die id o e rd rr rt h0 halign hrd hdev hpin hpoison => ?_⟩
  · exact exec_bteTransferEnd_cancelled hd ho hh ht
  · exact fun t q st f => exec_bteTransferEnd_ended hd ho hh ht he hc
  · exact fun t q => exec_bteTransferEnd_more hd ho hh ht he hc
  · exact fun e u => exec_bteTransferEnd_record hd ho hh ht
  · exact bteEnd_none h
  · intro _ _ hring hroom hrr hrt hpinr _ hdevr
    exact bteRecord_written h0 halign hrd hdev hpin hpoison hring hroom hrr hrt hpinr hdevr

end Sys2Proof.Machine
end

section
/-! PROOF. The dispatch of packets: what holds the head packet of a slot, and what each opcode does once it is taken. -/

namespace Sys2Proof.Machine

/-! The head packet of a slot (R244 to R248). -/

/-- R245, R474: in ACTIVE power, the head packet of an ACTIVE slot, with no request to the host outstanding. -/
structure HeadStands (s : State) (slot : Nat) (b : List Byte) : Prop where
  there : slot < 32
  power : s.power.state = 0
  active : (s.slotAt slot).state = 1
  quiet : (s.slotAt slot).hostOut = none
  noCas : (s.slotAt slot).casOut = false
  head : (s.slotAt slot).head = some b

/-- R245, R248: such a packet that nothing holds and that its fetcher takes next. -/
structure HeadTaken (s : State) (slot : Nat) (b : List Byte) : Prop extends HeadStands s slot b where
  free : s.holdOf (s.slotAt slot) b = 0
  next : s.servedAfter slot = false

section
variable {s t : State} {slot op k : Nat} {b : List Byte} {name : String} {f : HwSlot → List Byte → State → Option State}

/-- R246, R248: a packet that something holds waits with the BLOCK that says so. -/
theorem HeadStands.waits (h : HeadStands s slot b) (hop : pktOp b = op) (hw : s.holdOf (s.slotAt slot) b ≠ 0) :
    dispatchRow name slot op f s = .next (s.setBlock slot (s.holdOf (s.slotAt slot) b)) :=
  dev_next (decide_eq_true h.there) (by simp [h.head, hop, h.quiet, h.power, h.noCas, h.active, hw])

/-- R245: a packet that is taken has the effect of its row. -/
theorem HeadTaken.row (h : HeadTaken s slot b) (hop : pktOp b = op) (hf : f (s.slotAt slot) b s = some t) :
    dispatchRow name slot op f s = .next t :=
  dev_next (decide_eq_true h.there) (by simp [h.head, hop, h.quiet, h.power, h.noCas, h.active, h.free, h.next, hf])

/-- R509: a STREAM packet that is taken has the effect of its operation's row. -/
theorem HeadTaken.stream (h : HeadTaken s slot b) (hop : pktOp b = 9) (hk : pf b 4 1 = k) (hf : f (s.slotAt slot) b s = some t) :
    streamRow name slot k f s = .next t := h.row hop ((if_pos hk).trans hf)

/-- R509: a STREAM packet that something holds waits likewise. -/
theorem HeadStands.streamWaits (h : HeadStands s slot b) (hop : pktOp b = 9) (hw : s.holdOf (s.slotAt slot) b ≠ 0) :
    streamRow name slot k f s = .next (s.setBlock slot (s.holdOf (s.slotAt slot) b)) := h.waits hop hw

end

/-- R246 to R248: whichever row dispatches packets of its opcode, a packet that something holds waits. -/
theorem exec_packetRow_held {s : State} {slot n : Nat} {b : List Byte} {i : Instr} (h : HeadStands s slot b)
    (hw : s.holdOf (s.slotAt slot) b ≠ 0)
    (hi : (i, n) ∈ [(Instr.nopPacket slot, 0), (.launch slot, 1), (.gang slot, 2), (.gangRetry slot, 2), (.signal slot, 3),
      (.waittlPacket slot, 4), (.btePacket slot, 5), (.kill slot, 6), (.fencePacket slot, 7), (.marker slot, 8), (.open_ slot, 9),
      (.close slot, 9), (.buffers slot, 9), (.send slot, 9)]) (hop : pktOp b = n) :
    exec i s = .next (s.setBlock slot (s.holdOf (s.slotAt slot) b)) := by
  simp only [List.mem_cons, Prod.mk.injEq, List.not_mem_nil, or_false] at hi
  rcases hi with ⟨rfl, rfl⟩ | ⟨rfl, rfl⟩ | ⟨rfl, rfl⟩ | ⟨rfl, rfl⟩ | ⟨rfl, rfl⟩ | ⟨rfl, rfl⟩ | ⟨rfl, rfl⟩ | ⟨rfl, rfl⟩ | ⟨rfl, rfl⟩ |
    ⟨rfl, rfl⟩ | ⟨rfl, rfl⟩ | ⟨rfl, rfl⟩ | ⟨rfl, rfl⟩ | ⟨rfl, rfl⟩
  · exact (h.waits hop hw : execNopPacket slot s = _)
  · exact (h.waits hop hw : execLaunch slot s = _)
  · exact (h.waits hop hw : execGang slot s = _)
  · exact (h.waits hop hw : execGangRetry slot s = _)
  · exact (h.waits hop hw : execSignal slot s = _)
  · exact (h.waits hop hw : execWaittlPacket slot s = _)
  · exact (h.waits hop hw : execBtePacket slot s = _)
  · exact (h.waits hop hw : execKill slot s = _)
  · exact (h.waits hop hw : execFencePacket slot s = _)
  · exact (h.waits hop hw : execMarker slot s = _)
  · exact (h.streamWaits hop hw : execOpen slot s = _)
  · exact (h.streamWaits hop hw : execClose slot s = _)
  · exact (h.streamWaits hop hw : execBuffers slot s = _)
  · exact (h.streamWaits hop hw : execSend slot s = _)

/-! LAUNCH and GANG (R252, R253, R473). -/

/-- R473: a packet with TMASK 0 has no tile mask. -/
theorem tileMask_none {s : State} {slot : Nat} {b : List Byte} (h : pf b 0x50 8 = 0) : s.tileMask slot b = none := if_pos h

/-- R253: an attempt of a gang dispatches it where every member has found a seat, and leaves it waiting where one has not. -/
theorem gangTry_of_gangAll {s : State} {slot e : Nat} {hs : HwSlot} {b : List Byte} {r : Option State} (he : s.freeLaunch = some e)
    (hr : (s.takeEntry e hs b ((List.range 16).map (fun p => pf b (0x60 + 2 * p) 2)).sum).gangAll hs b e = r) :
    s.gangTry slot hs b = r.elim (s.setBlock slot 5) (fun t => t.dispatch slot b false (some e) []) := by
  unfold State.gangTry
  rw [he]
  dsimp only
  rw [hr]
  cases r <;> rfl

section
variable {s : State} {slot : Nat} {b : List Byte} (h : HeadTaken s slot b)
include h

section
variable (hop : pktOp b = 1)
include hop

/-- R252: a LAUNCH that names an LCID without a core stops its queue. -/
theorem execLaunch_unmapped (hm : s.lcidsMapped b (if pf b 0x40 1 % 8 ≤ 1 then pf b 4 2 * pf b 6 2 else 1) = false) :
    execLaunch slot s = .next (s.queueError slot (s.slotAt slot).rptr 0x3E 7 (pktTag b)) :=
  h.row hop (if_pos (by rw [hm]; rfl))

/-- R210: without a free launch entry a LAUNCH waits. -/
theorem execLaunch_full (hm : s.lcidsMapped b (if pf b 0x40 1 % 8 ≤ 1 then pf b 4 2 * pf b 6 2 else 1) = true)
    (he : s.freeLaunch = none) : execLaunch slot s = .next (s.setBlock slot 6) :=
  h.row hop (by simp only [hm, he, Bool.not_true, Bool.false_eq_true, if_false])

/-- R252: a LAUNCH without a tile mask takes its entry, is dispatched, and its records enter the pool. -/
theorem execLaunch_placed {e : Nat} (hm : s.lcidsMapped b (if pf b 0x40 1 % 8 ≤ 1 then pf b 4 2 * pf b 6 2 else 1) = true)
    (he : s.freeLaunch = some e) (hk : pf b 0x50 8 = 0) :
    execLaunch slot s = .next (((s.takeEntry e (s.slotAt slot) b (pf b 4 2 * pf b 6 2)).dispatch slot b false (some e) []).launchAll
      (s.slotAt slot) b e) :=
  h.row hop (by simp only [hm, he, tileMask_none hk, Bool.not_true, Bool.false_eq_true, if_false])

end

section
variable (hop : pktOp b = 2) (hb : (s.slotAt slot).block ≠ 5)
include hop hb

/-- R253: a GANG that names an LCID without a core stops its queue. -/
theorem execGang_unmapped (hm : s.lcidsMapped b 1 = false) :
    execGang slot s = .next (s.queueError slot (s.slotAt slot).rptr 0x3E 7 (pktTag b)) :=
  h.row hop ((if_neg hb).trans (if_pos (by rw [hm]; rfl)))

/-- R253, R473: a GANG without a tile mask wakes the tiles of its partitions and makes its first attempt. -/
theorem execGang_tries (hm : s.lcidsMapped b 1 = true) (hk : pf b 0x50 8 = 0) :
    execGang slot s = .next ((((List.range 16).filter (fun p => (pf b 0x58 2).testBit p)).foldl (fun (s : State) p =>
      (s.partCores p).foldl (fun (s : State) n => if s.retired n then s else s.wakeTile n) s) s).gangTry slot (s.slotAt slot) b) :=
  h.row hop (by simp only [if_neg hb, hm, tileMask_none hk, Bool.not_true, Bool.false_eq_true, if_false])

end

/-! SIGNAL (R254). -/

section
variable {t : State} {bs : List Byte} (hop : pktOp b = 3) (hd : (s.slotAt slot).hostData = [])
  (hr : s.feRead slot [(BitVec.ofNat 64 (pf b 8 8), 64), (BitVec.ofNat 64 (pf b 8 8) + 64, 64)] = .got t bs)
include hop hd hr

/-- R254: a record that is not suspended, or not the ASID's, is missed. -/
theorem execSignal_miss
    (hc : ¬((contOf bs).susp = 1 ∧ (contOf bs).asid = (s.slotAt slot).asid ∧
      t.tagHeld (contOf bs).tag (s.slotAt slot).asid = true)) : execSignal slot s = .next (t.sigMiss slot b) :=
  h.row hop (by
    have hheld : (!((contOf bs).susp == 1 && (contOf bs).asid == (s.slotAt slot).asid &&
        t.tagHeld (contOf bs).tag (s.slotAt slot).asid)) = true := by
      rw [Bool.not_eq_true', Bool.eq_false_iff]
      intro q
      obtain ⟨⟨hsusp, hasid⟩, htag⟩ := by simpa only [Bool.and_eq_true, beq_iff_eq] using q
      exact hc ⟨hsusp, hasid, htag⟩
    simp only [State.signal, hr, hd, List.find?_nil, Option.map_none, hheld, if_true])

/-- R171, R254: the CAS of a suspended record's SUSP decides whether it joins its pool. -/
theorem execSignal_taken {p : EngAt} (hsusp : (contOf bs).susp = 1) (hasid : (contOf bs).asid = (s.slotAt slot).asid)
    (htag : t.tagHeld (contOf bs).tag (s.slotAt slot).asid = true)
    (hat : t.engineAt engFront (s.slotAt slot).asid false (BitVec.ofNat 64 (pf b 8 8)) true = .ok p) (hpin : t.pinBusy p.pa = false)
    (hdev : region p.pa ≠ .host) :
    let c := contOf bs
    let r := (t.markAt p true).amoAt p.pa .cas 8 c.requeued.w0 c.w0
    execSignal slot s =
      .next (if r.1 = c.w0 then (r.2.requeue p.pa c).dispatchDone slot b else r.2.sigMiss slot b) :=
  h.row hop (by
    have hheld : (!((contOf bs).susp == 1 && (contOf bs).asid == (s.slotAt slot).asid &&
        t.tagHeld (contOf bs).tag (s.slotAt slot).asid)) = false := by simp [hsusp, hasid, htag]
    simp only [State.signal, hr, hd, List.find?_nil, Option.map_none, hheld, hat, hpin, Bool.false_eq_true, if_false, if_neg hdev]
    exact (apply_ite some _ _ _).symm)

end

/-! BTE and MARKER (R254, R255). -/

/-- R255: a BTE packet for which its engine has a place begins its transfer. -/
theorem execBtePacket_taken (hop : pktOp b = 5) (hroom : (s.die ((s.slotAt slot).qnum % 4)).bte.length < 64) :
    let hs := s.slotAt slot
    execBtePacket slot s = .next ((s.dispatch slot b false none []).startBte (hs.qnum % 4)
      { asid := if pf b 4 1 % 2 = 1 then 0 else hs.asid, phys := pf b 4 1 % 2 == 1, src := BitVec.ofNat 64 (pf b 8 8),
        dst := BitVec.ofNat 64 (pf b 0x10 8), bytes := pf b 0x18 8, crd := BitVec.ofNat 64 (pf b 0x20 8), tag := pktTag b,
        qnum := BitVec.ofNat 16 hs.qnum, pkt := some s.fe.nextPacket, seat := none, lent := 0x7FF, cancelled := false, pos := 0,
        ended := none, time := [], tail := none, recOut := 0, hostOut := none, hostData := [] }) :=
  h.row hop (if_neg (Nat.not_le.mpr hroom))

/-- R254: a MARKER writes its record where it may, and completes. -/
theorem execMarker_taken {p : EngAt} (hop : pktOp b = 8)
    (hat : s.engineAt engFront (s.slotAt slot).asid false (BitVec.ofNat 64 (pf b 8 8)) true = .ok p) (hpin : s.pinBusy p.pa = false) :
    let hs := s.slotAt slot
    let by_ : HostReq := { asid := hs.asid, use := .engine, addr := 0, size := 0, write := true, data := [], pkt := some s.fe.nextPacket }
    execMarker slot s = .next (((({ s with fresh := s.fresh + 2 } : State).markAt p true).engineWriteBy by_ p.pa
      (s.time80 ++ [pktTag b, 0] ++ natToBytes 2 hs.qnum ++ [Config.freeByte s.fresh, Config.freeByte (s.fresh + 1)])).dispatchDone slot b) :=
  h.row hop (by simp only [hat, hpin, Bool.false_eq_true, if_false])

/-! STREAM (R509, R511, R515). -/

section
variable (hop : pktOp b = 9)
include hop

/-- R509, R510: an OPEN whose ring and loss maps may be accessed makes its stream. -/
theorem execOpen_taken {t : State} {r : List Byte} (hk : pf b 4 1 = 0) (hr : s.feRead slot (cut64 2 (recOf b) 32) = .got t r)
    (hring : ringOk (recOf b) r 1 4 64 = true)
    (hrange : t.rangeOk (s.slotAt slot).asid true (BitVec.ofNat 64 (pf b 0x48 8))
      (if streamKey b < 128 ∧ essOf b = 0 then 8256 * 2 ^ pf r 8 1 else 0) = .ok ()) :
    execOpen slot s = .next ((t.setStream (streamKey b) { Stream.reset with
      isOpen := true, desc := b, queue := (s.slotAt slot).qnum, asid := (s.slotAt slot).asid, recBase := pf r 0 8, log2n := pf r 8 1,
      counters := (t.stream (streamKey b)).counters }).dispatchDone slot b) :=
  h.stream hop hk (by simp only [hr, hring, hrange, Bool.not_true, Bool.false_eq_true, if_false])

/-- R515: a CLOSE with nothing left to send closes the open frames and empties its stream. -/
theorem execClose_taken {t : State} {l : List Byte} (hk : pf b 4 1 = 1) (hsends : (s.stream (streamKey b)).sends = [])
    (hpins : s.pinsQuiet = true) (hout : (s.stream (streamKey b)).hostOut = none)
    (hclose : State.closeAll (streamKey b) (s.stream (streamKey b)).frames.length s = .got t l) :
    execClose slot s = .next ((t.setStream (streamKey b) { Stream.reset with
      counters := (t.stream (streamKey b)).counters }).dispatchDone slot b) :=
  h.stream hop hk (by simp [hsends, hpins, hout, hclose])

/-- R511: BUFFERS whose every line may be accessed is kept. -/
theorem execBuffers_taken (hk : pf b 4 1 = 2) (hok : s.buffersOk (streamKey b) (s.stream (streamKey b)) b = .ok ()) :
    execBuffers slot s = .next ((s.modStream (streamKey b) (fun x => { x with buffers := b })).dispatchDone slot b) :=
  h.stream hop hk (by simp only [hok])

end

end

/-! What comes to a packet later (R142, R253, R254). -/

/-- R253: a gang past its bound is reported once. -/
theorem execGangBound_next {s : State} {slot : Nat} (hslot : slot < 32) (hs : (s.slotAt slot).state = 1) (hb : (s.slotAt slot).block = 5)
    (hr : (s.slotAt slot).gangRaised = false) :
    execGangBound slot s = .next ((s.setSlot slot { s.slotAt slot with gangRaised := true }).raiseFw 3) :=
  dev_next (decide_eq_true hslot) (if_pos ⟨hs, hb, hr⟩)

/-- R259: a packet of the front end has nothing more to wait for, and completes where nothing withholds its increment. -/
def State.packetDone (s : State) (id : Nat) (p : Packet) : State :=
  let t : State := { s with fe := { s.fe with packets := aput id { p with done := true } s.fe.packets } }
  if t.packetReady id { p with done := true } then t.finishPacket id { p with done := true } else t

section
variable {s : State} {slot id : Nat} {p : Packet} (hslot : slot < 32) (hw : s.timedWait slot = some (id, p))
include hslot hw

/-- R244, R254: a WAITTL that times out completes, and its queue stops. -/
theorem execWaittlPacketTimeout_mapped {k : Nat} (hk : (s.packetDone id p).slotOf p.qnum = some k) :
    execWaittlPacketTimeout slot s = .next ((s.packetDone id p).queueError k (nth 0 4 p.arg) 0x51 0 p.tag) := by
  unfold State.packetDone at hk ⊢
  exact dev_next (decide_eq_true hslot) (by simp only [hw, hk])

/-- R244, R254: of a queue that no slot maps any more, the timeline records the cause. -/
theorem execWaittlPacketTimeout_unmapped (hk : (s.packetDone id p).slotOf p.qnum = none) :
    execWaittlPacketTimeout slot s = .next ((s.packetDone id p).recordFault p.qnum 0x51 p.tag) := by
  unfold State.packetDone at hk ⊢
  exact dev_next (decide_eq_true hslot) (by simp only [hw, hk])

end

/-- R142: a kill that every unit has acknowledged ends, and its packets are done. -/
theorem execKillComplete_acked {s : State} {asid : BitVec 16} {k : KillOp} (hk : s.fe.kills.find? (fun k => k.asid == asid) = some k)
    (hack : s.killAcked asid = true) :
    execKillComplete asid s = .next { s with fe := { s.fe with
      kills := s.fe.kills.filter (fun x => x.asid != asid)
      packets := s.fe.packets.map (fun e => (e.1, if k.pkts.contains e.1 then { e.2 with done := true } else e.2)) } } :=
  dev_next rfl (by simp only [hk, hack, Bool.not_true, Bool.false_eq_true, if_false])

/-- Settles O52: a packet that something holds waits; one that is taken has the effect of its row; and each later event its own. -/
theorem packetsComplete : Obligations.PacketsComplete := by
  intro slot s b hslot hpower
  refine ⟨fun hstate hout hcas hhead => ?_, fun e he => ⟨fun t => gangTry_of_gangAll he, gangTry_of_gangAll he⟩, execGangBound_next hslot,
    fun id p hw => ⟨fun k => execWaittlPacketTimeout_mapped hslot hw, execWaittlPacketTimeout_unmapped hslot hw⟩,
    fun asid k => execKillComplete_acked⟩
  have hstands : HeadStands s slot b := ⟨hslot, hpower, hstate, hout, hcas, hhead⟩
  refine ⟨fun hw i n => exec_packetRow_held hstands hw, fun hfree hnext => ?_⟩
  have h : HeadTaken s slot b := ⟨hstands, hfree, hnext⟩
  refine ⟨fun hop => (h.row hop rfl : execNopPacket slot s = _), execLaunch_unmapped h, execLaunch_full h,
    fun e hop => execLaunch_placed h hop, execGang_unmapped h, execGang_tries h,
    fun hop hb => (h.row hop (if_pos hb) : execGangRetry slot s = _),
    fun t bs hop hd hr => ⟨execSignal_miss h hop hd hr, fun p => execSignal_taken h hop hd hr⟩,
    fun hop => (h.row hop rfl : execWaittlPacket slot s = _), execBtePacket_taken h,
    fun hop => (h.row hop rfl : execKill slot s = _), fun hop => (h.row hop rfl : execFencePacket slot s = _),
    fun p => execMarker_taken h, fun t r hop => execOpen_taken h hop, fun t l hop => execClose_taken h hop, execBuffers_taken h,
    fun hop hk => (h.stream hop hk rfl : execSend slot s = _)⟩

end Sys2Proof.Machine
end

section
/-! PROOF. A line recalled to its home, and the atomics performed there. -/

namespace Sys2Proof.Machine

/-! Runs of bytes written at their homes. -/

theorem bytesToNat_lt (bs : List Byte) : bytesToNat bs < 2 ^ (8 * bs.length) := by
  induction bs with
  | nil => simp [bytesToNat]
  | cons b bs ih =>
    have hp : 2 ^ (8 * (bs.length + 1)) = 256 * 2 ^ (8 * bs.length) := by rw [Nat.mul_succ, Nat.pow_add, Nat.mul_comm]
    have hb := b.isLt
    simp only [bytesToNat, List.length_cons, hp]
    omega

theorem map_nth_range {α : Type} (d : α) (l : List α) : (List.range l.length).map (fun i => nth d i l) = l := by
  apply List.ext_getElem
  · simp
  · intro i _ hi
    simp [nth, hi]

@[simp] theorem putHomes_resole (s : State) (pa : Nat) (bs : List Byte) : (s.putHomes pa bs).resole = s.resole := by
  induction bs generalizing s pa with
  | nil => rfl
  | cons b bs ih => exact ih (s.putHome pa b) (pa + 1)

@[simp] theorem putHomes_lines (s : State) (pa : Nat) (bs : List Byte) : (s.putHomes pa bs).lines = s.lines := by
  induction bs generalizing s pa with
  | nil => rfl
  | cons b bs ih => exact ih (s.putHome pa b) (pa + 1)

@[simp] theorem putHomeTag_lines (s : State) (pa : Nat) (t : BitVec 16) : (s.putHomeTag pa t).lines = s.lines := by
  unfold State.putHomeTag
  split <;> rfl

@[simp] theorem putHomeTag_resole (s : State) (pa : Nat) (t : BitVec 16) : (s.putHomeTag pa t).resole = s.resole := by
  unfold State.putHomeTag
  split <;> rfl

/-- A byte's home rests on memory and the redirected lines alone. -/
theorem homeByte_congr {s t : State} (hm : t.mem = s.mem) (hr : t.resole = s.resole) (pa : Nat) : t.homeByte pa = s.homeByte pa := by
  simp only [State.homeByte, State.homePa, hm, hr]

/-- Bytes written from an address on, unredirected, are those that their homes give, and every other home gives what it gave. -/
theorem homeByte_putHomes {s : State} (hr : s.resole.redirect = []) (pa qa : Nat) (bs : List Byte) :
    (s.putHomes pa bs).homeByte qa = if pa ≤ qa ∧ qa < pa + bs.length then nth 0 (qa - pa) bs else s.homeByte qa := by
  induction bs generalizing s pa with
  | nil => rw [if_neg (by simp)]; rfl
  | cons b bs ih =>
    have hrest : (s.putHomes pa (b :: bs)).homeByte qa = _ := ih (s := s.putHome pa b) hr (pa + 1)
    rw [hrest]
    rcases Nat.lt_trichotomy qa pa with hlt | rfl | hgt
    · rw [if_neg (by omega), if_neg (by omega), homeByte_putHome_ne s pa qa b (by rw [homePa_unredirected hr]; omega)]
    · rw [if_neg (by omega), if_pos (by simp), homeByte_putHome_same s qa b (by simp [hr, alook])]
      simp [nth]
    · have hsub : qa - pa = qa - (pa + 1) + 1 := by omega
      rw [homeByte_putHome_ne s pa qa b (by rw [homePa_unredirected hr]; omega), hsub]
      simp only [List.length_cons, nth, List.getElem?_cons_succ]
      exact ite_congr (propext (by omega)) (fun _ => rfl) (fun _ => rfl)

/-! A line recalled to its home (R88, R98). -/

theorem recall_one (s : State) (line : Nat) : s.recall line 1 = s.writeBack line := rfl

/-- R93: a line, where the caches hold it, has 64 bytes, and where it is clean they are those of its home. -/
def LineSound (s : State) (line : Nat) : Prop :=
  ∀ l, alook line s.lines = some l → l.data.length = 64 ∧
    (l.owner = none → ∀ i < 64, nth 0 i l.data = s.homeByte (line * 64 + i))

theorem writeBack_line (s : State) (line : Nat) : alook line (s.writeBack line).lines = none := alook_adel_same line _

@[simp] theorem cleanLine_resole (s : State) (line : Nat) : (s.cleanLine line).resole = s.resole := by
  unfold State.cleanLine
  split
  · split <;> simp
  · rfl

/-- R98: a recall leaves every other line in its caches. -/
theorem writeBack_otherLine (s : State) {line k : Nat} (hk : k ≠ line) : alook k (s.writeBack line).lines = alook k s.lines := by
  refine (alook_adel_ne hk _).trans ?_
  unfold State.cleanLine
  split
  · split
    · rfl
    · simp [alook_aput_ne hk]
  · rfl

theorem cleanLine_uncached {s : State} {line : Nat} (h : alook line s.lines = none) : s.cleanLine line = s := by
  simp [State.cleanLine, h]

theorem cleanLine_clean {s : State} {line : Nat} {l : CachedLine} (h : alook line s.lines = some l) (ho : l.owner = none) :
    s.cleanLine line = s := by
  simp [State.cleanLine, h, ho]

section
variable {s : State} {line : Nat} (hr : s.resole.redirect = [])
include hr

/-- R93: the bytes of a dirty line have reached their homes. -/
theorem cleanLine_dirty_homeByte {l : CachedLine} (h : alook line s.lines = some l) (ho : l.owner ≠ none) (qa : Nat) :
    (s.cleanLine line).homeByte qa =
      if 64 * line ≤ qa ∧ qa < 64 * line + l.data.length then nth 0 (qa - 64 * line) l.data else s.homeByte qa := by
  simp only [State.cleanLine, h, Option.isNone_iff_eq_none, if_neg ho]
  rw [homeByte_congr (putHomeTag_mem _ _ _) (putHomeTag_resole _ _ _), homeByte_putHomes]
  · rfl
  · exact hr

variable (hl : LineSound s line)
include hl

/-- R88, R93: once a line is cleaned, its home gives the bytes of the coherent view. -/
theorem cleanLine_homeByte (qa : Nat) :
    (s.cleanLine line).homeByte qa = if qa / 64 = line then s.byteAt qa else s.homeByte qa := by
  cases h : alook line s.lines with
  | none =>
    rw [cleanLine_uncached h]
    split
    · next hq => rw [byteAt_uncached (by rw [hq, h])]
    · rfl
  | some l =>
    obtain ⟨hlen, hclean⟩ := hl l h
    have hview : qa / 64 = line → s.byteAt qa = nth 0 (qa % 64) l.data := fun hq => byteAt_line (by rw [hq, h])
    by_cases ho : l.owner = none
    · rw [cleanLine_clean h ho]
      split
      · next hq =>
        have hqa : line * 64 + qa % 64 = qa := by omega
        rw [hview hq, hclean ho _ (Nat.mod_lt _ (by decide)), hqa]
      · rfl
    · rw [cleanLine_dirty_homeByte hr h ho, hlen]
      by_cases hq : qa / 64 = line
      · have hqa : qa - 64 * line = qa % 64 := by omega
        rw [if_pos (by omega), if_pos hq, hview hq, hqa]
      · rw [if_neg (by omega), if_neg hq]

/-- R98: a recall changes no byte of the coherent view. -/
theorem writeBack_byteAt (qa : Nat) : (s.writeBack line).byteAt qa = s.byteAt qa := by
  have hhome : (s.writeBack line).homeByte qa = if qa / 64 = line then s.byteAt qa else s.homeByte qa := cleanLine_homeByte hr hl qa
  by_cases hq : qa / 64 = line
  · rw [byteAt_uncached (by rw [hq, writeBack_line]), hhome, if_pos hq]
  · exact byteAt_congr (writeBack_otherLine s hq) (hhome.trans (if_neg hq))

end

/-! Atomics at their home (R171, R403). -/

/-- R403: the low n bytes of an atomic's new word: of the old one where a CAS fails. -/
def amoLow (op : AmoOp) (n : Nat) (old x cmp : Word) : Nat := ((amoNew op n old x cmp).getD old).toNat % 2 ^ (8 * n)

theorem toNat_ofNat_low (n : Nat) (w : Word) : (BitVec.ofNat 64 (w.toNat % 2 ^ (8 * n))).toNat = w.toNat % 2 ^ (8 * n) := by
  rw [BitVec.toNat_ofNat, Nat.mod_eq_of_lt]
  exact Nat.lt_of_le_of_lt (Nat.mod_le _ _) w.isLt

/-- R403: two words agree in their low n bytes. -/
theorem ofNat_low_inj (n : Nat) (v w : Word) :
    BitVec.ofNat 64 (v.toNat % 2 ^ (8 * n)) = BitVec.ofNat 64 (w.toNat % 2 ^ (8 * n)) ↔ v.toNat % 2 ^ (8 * n) = w.toNat % 2 ^ (8 * n) := by
  rw [← BitVec.toNat_inj, toNat_ofNat_low, toNat_ofNat_low]

/-- R403: the signed number of 4 or 8 bytes of a word. -/
theorem signed_low {n : Nat} (hn : n = 4 ∨ n = 8) (w : Word) :
    (if n = 4 then (w.extractLsb' 0 32).toInt else w.toInt) = (BitVec.ofNat (8 * n) w.toNat).toInt := by
  rcases hn with rfl | rfl
  · rfl
  · simp

/-- R403: each operation's new value, at its width. -/
theorem amoLow_values {n : Nat} (hn : n = 4 ∨ n = 8) (op : AmoOp) (old x cmp : Word) :
    let now := amoLow op n old x cmp
    let m := 2 ^ (8 * n)
    let sg (v : Word) : Int := (BitVec.ofNat (8 * n) v.toNat).toInt
    (op = .add → now = (old.toNat + x.toNat) % m) ∧ (op = .and → now = (old &&& x).toNat % m) ∧
    (op = .or → now = (old ||| x).toNat % m) ∧ (op = .xor → now = (old ^^^ x).toNat % m) ∧ (op = .xchg → now = x.toNat % m) ∧
    (op = .minS → now = if sg old ≤ sg x then old.toNat % m else x.toNat % m) ∧
    (op = .maxS → now = if sg x ≤ sg old then old.toNat % m else x.toNat % m) ∧
    (op = .cas → now = if old.toNat % m = cmp.toNat % m then x.toNat % m else old.toNat % m) := by
  have hlow (w : Word) : (BitVec.ofNat 64 (w.toNat % 2 ^ (8 * n))).toNat % 2 ^ (8 * n) = w.toNat % 2 ^ (8 * n) := by
    rw [toNat_ofNat_low, Nat.mod_mod]
  refine ⟨?_, ?_, ?_, ?_, ?_, ?_, ?_, ?_⟩ <;> rintro rfl
  case refine_1 =>
    have hm : 2 ^ (8 * n) ∣ 2 ^ 64 := Nat.pow_dvd_pow 2 (by omega)
    exact (hlow _).trans (by rw [BitVec.toNat_add, Nat.mod_mod_of_dvd _ hm])
  case refine_6 | refine_7 =>
    simp only [amoLow, amoNew, signed_low hn, Option.getD_some]
    split <;> exact hlow _
  case refine_8 =>
    simp only [amoLow, amoNew, ofNat_low_inj]
    split
    · exact hlow x
    · rfl
  all_goals exact hlow _

/-- R403: the number that n bytes hold in the coherent view. -/
def State.viewWord (s : State) (pa n : Nat) : Word := BitVec.ofNat 64 (bytesToNat ((List.range n).map (fun i => s.byteAt (pa + i))))

/-- R401: the bytes of an aligned atomic lie in one line. -/
theorem natToBytes_fits {pa n : Nat} (hn : n = 4 ∨ n = 8) (ha : pa % n = 0) (v : Nat) : pa % 64 + (natToBytes n v).length ≤ 64 := by
  rw [natToBytes_length]
  rcases hn with rfl | rfl <;> omega

section
variable {s : State} {pa n : Nat} (hn : n = 4 ∨ n = 8) (ha : pa % n = 0) (hr : s.resole.redirect = []) (hl : LineSound s (pa / 64))
include hn ha hr hl

/-- R171: once the line is recalled, the homes of an aligned atomic's bytes give the coherent view. -/
theorem writeBack_homeBytes :
    (List.range n).map (fun i => (s.writeBack (pa / 64)).homeByte (pa + i)) = (List.range n).map (fun i => s.byteAt (pa + i)) := by
  refine List.map_congr_left fun i hi => ?_
  have hi : i < n := List.mem_range.mp hi
  have hq : (pa + i) / 64 = pa / 64 := by rcases hn with rfl | rfl <;> omega
  exact (cleanLine_homeByte hr hl (pa + i)).trans (if_pos hq)

/-- R171, R403: an atomic with a new value writes it at the home of the recalled line. -/
theorem amoAt_written {op : AmoOp} {x cmp v : Word} (h : amoNew op n (s.viewWord pa n) x cmp = some v) :
    s.amoAt pa op n x cmp = (s.viewWord pa n, (s.writeBack (pa / 64)).putHomes pa (natToBytes n v.toNat)) := by
  rw [State.viewWord, ← writeBack_homeBytes hn ha hr hl] at h ⊢
  simp only [State.amoAt, recall_one, h]

/-- R171, R403: a CAS that fails leaves the line recalled. -/
theorem amoAt_failed {op : AmoOp} {x cmp : Word} (h : amoNew op n (s.viewWord pa n) x cmp = none) :
    s.amoAt pa op n x cmp = (s.viewWord pa n, s.writeBack (pa / 64)) := by
  rw [State.viewWord, ← writeBack_homeBytes hn ha hr hl] at h ⊢
  simp only [State.amoAt, recall_one, h]

/-- R171, R403: an atomic returns what its bytes held in the coherent view. -/
theorem amoAt_old (op : AmoOp) (x cmp : Word) : (s.amoAt pa op n x cmp).1 = s.viewWord pa n := by
  cases h : amoNew op n (s.viewWord pa n) x cmp with
  | some v => rw [amoAt_written hn ha hr hl h]
  | none => rw [amoAt_failed hn ha hr hl h]

omit hn ha in
/-- Bytes written at the home of a recalled line are those that the coherent view shows there, and the rest of it is as before. -/
theorem byteAt_putHomes_recalled {bs : List Byte} (hfit : pa % 64 + bs.length ≤ 64) (qa : Nat) :
    ((s.writeBack (pa / 64)).putHomes pa bs).byteAt qa = if pa ≤ qa ∧ qa < pa + bs.length then nth 0 (qa - pa) bs else s.byteAt qa := by
  have hr' : (s.writeBack (pa / 64)).resole.redirect = [] := (congrArg Resole.redirect (cleanLine_resole s _)).trans hr
  have hhome := homeByte_putHomes hr' pa qa bs
  split
  · next hin =>
    have hq : qa / 64 = pa / 64 := by omega
    rw [byteAt_uncached (by rw [putHomes_lines, hq, writeBack_line]), hhome, if_pos hin]
  · next hout => exact (byteAt_congr (by rw [putHomes_lines]) (hhome.trans (if_neg hout))).trans (writeBack_byteAt hr hl qa)

/-- R403: an atomic leaves every byte but its own as it was. -/
theorem amoAt_frame (op : AmoOp) (x cmp : Word) {qa : Nat} (h : ¬(pa ≤ qa ∧ qa < pa + n)) :
    (s.amoAt pa op n x cmp).2.byteAt qa = s.byteAt qa := by
  cases hv : amoNew op n (s.viewWord pa n) x cmp with
  | some v =>
    rw [amoAt_written hn ha hr hl hv, byteAt_putHomes_recalled hr hl (natToBytes_fits hn ha _), if_neg (by rwa [natToBytes_length])]
  | none => rw [amoAt_failed hn ha hr hl hv, writeBack_byteAt hr hl]

/-- R403: an atomic leaves its new value in its bytes. -/
theorem amoAt_new (op : AmoOp) (x cmp : Word) :
    bytesToNat ((List.range n).map (fun i => (s.amoAt pa op n x cmp).2.byteAt (pa + i))) = amoLow op n (s.viewWord pa n) x cmp := by
  cases hv : amoNew op n (s.viewWord pa n) x cmp with
  | some v =>
    have hbytes : (List.range n).map (fun i => (s.amoAt pa op n x cmp).2.byteAt (pa + i)) = natToBytes n v.toNat := by
      refine Eq.trans (List.map_congr_left fun i hi => ?_) ((natToBytes_length n v.toNat) ▸ map_nth_range 0 (natToBytes n v.toNat))
      have hi : i < n := List.mem_range.mp hi
      rw [amoAt_written hn ha hr hl hv, byteAt_putHomes_recalled hr hl (natToBytes_fits hn ha _),
        if_pos (by rw [natToBytes_length]; omega), Nat.add_sub_cancel_left]
    rw [hbytes, bytesToNat_natToBytes, amoLow, hv]
    rfl
  | none =>
    have hlt : bytesToNat ((List.range n).map (fun i => s.byteAt (pa + i))) < 2 ^ (8 * n) := by
      simpa using bytesToNat_lt ((List.range n).map (fun i => s.byteAt (pa + i)))
    have hle : 2 ^ (8 * n) ≤ 2 ^ 64 := Nat.pow_le_pow_right (by decide) (by omega)
    rw [amoAt_failed hn ha hr hl hv, amoLow, hv, Option.getD_none, State.viewWord, BitVec.toNat_ofNat,
      Nat.mod_eq_of_lt (Nat.lt_of_lt_of_le hlt hle), Nat.mod_eq_of_lt hlt]
    simp only [writeBack_byteAt hr hl]

end

/-- Settles O45: the recall leaves the coherent view of the line at its home, where the atomic reads its old value and writes its new one. -/
theorem atomicValues : Obligations.AtomicValues := by
  intro s pa n op x cmp hn ha hr hl old r now m sg
  have hnow : now = amoLow op n old x cmp := amoAt_new hn ha hr hl op x cmp
  rw [hnow]
  exact ⟨amoAt_old hn ha hr hl op x cmp, fun qa => amoAt_frame hn ha hr hl op x cmp, amoLow_values hn op old x cmp⟩

end Sys2Proof.Machine
end

section
/-! PROOF. The atomics, acquire loads and release stores: what each comes to. -/

namespace Sys2Proof.Machine

/-! The checks of an atomic access (R157, R159, R402). -/

theorem syncPieces_aligned {s : State} {va : Word} {n : Nat} (h : va.toNat % n = 0) (k : Access) :
    s.syncPieces va n k = s.seatPieces va n k := if_neg (fun hn => hn h)

theorem syncPieces_misaligned {s : State} {va : Word} {n : Nat} (h : va.toNat % n ≠ 0) (k : Access) :
    s.syncPieces va n k = raiseX 0x26 (transFaddr 0 k va.toNat) := if_pos h

theorem awaitRelease_done {s : State} {r : Option Nat} (h : ∀ k, r = some k → s.released k = true) : s.awaitRelease r = .ok () := by
  cases r with
  | none => rfl
  | some k => exact if_pos (h k rfl)

theorem awaitRelease_pending {s : State} {k : Nat} (h : s.released k = false) : s.awaitRelease (some k) = stallX :=
  if_neg (by simp [h])

theorem hostFailCheck_ok {s : State} {sys : Bool} (h : sys = true → s.fseat.hostFailed = none) : s.hostFailCheck sys = .ok () := by
  unfold State.hostFailCheck
  cases hf : s.fseat.hostFailed with
  | none => rfl
  | some f => exact if_neg fun hs => by simp [h hs] at hf

/-! Atomics (R171, R403). -/

section
variable {op : AmoOp} {d a b : BitVec 6} {ord : BitVec 2} {scope : BitVec 3} {w : BitVec 1} {s : State} {i : Instr}
  (he : exec i s = amoOp op d a b ord scope w s) (hr : Ready 0 (if op = .cas then [.s d, .s a, .s b] else [.s a, .s b]) [.s d] s)
include he hr

/-- R401: with its registers ready, an atomic is its access, whose old value goes on its way. -/
theorem exec_amo : exec i s = .next (settle s (do
    let r ← s.amo op (ord == 2 || ord == 3) scope (syncBytes w) (s.rS a) (s.rS b) (s.rS d)
    .ok ((r.2.trace s.focus.core s.focus.seat 3 (s.rS a)).loadInto d r.1 40))) :=
  he.trans (slotOp_ready hr)

theorem does_amo {v : Word} {t : State}
    (h : s.amo op (ord == 2 || ord == 3) scope (syncBytes w) (s.rS a) (s.rS b) (s.rS d) = .ok (v, t)) :
    Does i s ((t.trace s.focus.core s.focus.seat 3 (s.rS a)).loadInto d v 40) :=
  does_of_run (exec_amo he hr) (by rw [h, ok_bind])

theorem raises_amo_misaligned (h : (s.rS a).toNat % syncBytes w ≠ 0) :
    Raises i s 0x26 (transFaddr 0 .write (s.rS a).toNat) :=
  raises_of_run (exec_amo he hr) (by rw [State.amo, syncPieces_misaligned h]; rfl)

variable {q : Piece} {ps : List Piece} (ha : (s.rS a).toNat % syncBytes w = 0)
  (hp : s.seatPieces (s.rS a) (syncBytes w) .write = .ok (q :: ps))
include ha hp

theorem waits_amo {k : Nat} (hk : releaseScope (ord == 2 || ord == 3) scope (q :: ps) = some k) (hw : s.released k = false) :
    Waits i s :=
  waits_of_run (exec_amo he hr) (by
    rw [State.amo, syncPieces_aligned ha, hp, ok_bind, hk, awaitRelease_pending hw]
    rfl)

end

section
variable {op : AmoOp} {rel : Bool} {scope : BitVec 3} {n : Nat} {va x cmp : Word} {s : State} {q : Piece} {ps : List Piece}
  (ha : va.toNat % n = 0) (hp : s.seatPieces va n .write = .ok (q :: ps))
  (hm : ∀ k, releaseScope rel scope (q :: ps) = some k → s.released k = true)
include ha hp hm

/-- R171, R457: once it may be performed, an atomic of device memory is performed at the home of its line. -/
theorem amo_sound (hq : region q.pa ≠ .host) (hu : (s.commitF.install true (q :: ps)).poisoned q.pa = false) :
    s.amo op rel scope n va x cmp = .ok ((s.commitF.install true (q :: ps)).amoAt q.pa op n x cmp) := by
  rw [State.amo, syncPieces_aligned ha, hp, ok_bind, awaitRelease_done hm, ok_bind]
  refine (if_neg hq).trans ?_
  simp only [hu, Bool.false_eq_true, if_false]

/-- R454: one of a poisoned block gives 0 and consumes the error. -/
theorem amo_poisoned (hq : region q.pa ≠ .host) (hu : (s.commitF.install true (q :: ps)).poisoned q.pa = true) :
    s.amo op rel scope n va x cmp = .ok (0, ((s.commitF.install true (q :: ps)).amoAt q.pa op n x cmp).2.consumeF
      ((s.commitF.install true (q :: ps)).structF q.pa) q.pa) := by
  rw [State.amo, syncPieces_aligned ha, hp, ok_bind, awaitRelease_done hm, ok_bind]
  refine (if_neg hq).trans ?_
  simp only [hu, if_true]

/-- R491, R495: one of the host window gives what the host has answered. -/
theorem amo_host {bs : List Byte} (hq : region q.pa = .host) (hb : s.commitF.hostAmo va q.pa n op x cmp = .ok bs) :
    s.amo op rel scope n va x cmp = .ok (loadValue n false bs, s.commitF.install true (q :: ps)) := by
  rw [State.amo, syncPieces_aligned ha, hp, ok_bind, awaitRelease_done hm, ok_bind]
  exact (if_pos hq).trans (by simp only [hb, ok_bind])

end

/-! Release stores (R157, R404). -/

/-- R153, R157: a store through an SO page is a release at SYS, which its own release has awaited. -/
theorem awaitSo_of_release {s : State} {scope : BitVec 3} {ps : List Piece}
    (h : ∀ k, releaseScope true scope ps = some k → s.released k = true) : s.awaitSo ps = .ok () := by
  refine if_neg fun hso => ?_
  simp only [Bool.and_eq_true, Bool.not_eq_true'] at hso
  obtain ⟨hso, hrel⟩ := hso
  rw [h 5 (if_pos hso)] at hrel
  cases hrel

theorem release_done {s : State} {r : Option Nat} (h : ∀ k, r = some k → s.released k = true)
    (hf : r = some 5 → s.fseat.hostFailed = none) : s.release r = .ok () := by
  rw [State.release, awaitRelease_done h, ok_bind]
  exact hostFailCheck_ok fun hs => hf (by simpa using hs)

/-- R153, R313: a write that is a release, of pieces that name no control space. -/
theorem writeScalar_release_memory {s : State} {va : Word} {ps : List Piece} {rel : Option Nat} (hc : anyControl ps = false)
    (hs : s.awaitSo ps = .ok ()) (hq : (s.install true ps).psqRoom va = .ok ()) (bs : List Byte) :
    s.writeScalar va ps bs rel = .ok ((s.install true ps).stored va (cutPieces ps bs) [] (storeOrd rel ps)) := by
  simp only [State.writeScalar, hs, find_control_of_none hc, State.storeScalar, List.filter_nil]
  exact seatStore_of_room hq _ _ _

/-- R39, R313: one to control space, which lies in one page, is the register write of its party. -/
theorem writeScalar_release_control {s : State} {va : Word} {p : Piece} {rel : Option Nat} (hc : region p.pa = .control)
    (hs : s.awaitSo [p] = .ok ()) (bs : List Byte) :
    s.writeScalar va [p] bs rel = (s.install true [p]).seatCtlWrite p.pa bs.length (BitVec.ofNat 64 (bytesToNat bs)) := by
  simp [State.writeScalar, hs, hc]

section
variable {a b : BitVec 6} {scope : BitVec 3} {w : BitVec 1} {s : State} (hr : Ready 0 [.s b, .s a] [] s)
include hr

theorem raises_stl_misaligned (h : (s.rS a).toNat % syncBytes w ≠ 0) :
    Raises (.stl a b scope w) s 0x26 (transFaddr 0 .write (s.rS a).toNat) :=
  raises_of_run (i := .stl a b scope w) (slotOp_ready hr) (by simp only [syncPieces_misaligned h]; rfl)

variable {ps : List Piece} (ha : (s.rS a).toNat % syncBytes w = 0) (hp : s.seatPieces (s.rS a) (syncBytes w) .regWrite = .ok ps)
  (hm : ∀ k, releaseScope true scope ps = some k → s.released k = true)
  (hf : releaseScope true scope ps = some 5 → s.fseat.hostFailed = none)
include ha hp hm hf

/-- R404: STL is a scalar write once its release may be performed. -/
theorem does_stl {t : State}
    (ht : s.writeScalar (s.rS a) ps (natToBytes (syncBytes w) (s.rS b).toNat) (releaseScope true scope ps) = .ok t) :
    Does (.stl a b scope w) s (t.trace s.focus.core s.focus.seat 3 (s.rS a)) :=
  does_of_run (i := .stl a b scope w) (slotOp_ready hr) (by
    simp only [syncPieces_aligned ha, hp, release_done hm hf, ht, ok_bind])

end

section
variable {d a : BitVec 6} {scope : BitVec 3} {w : BitVec 1} {s : State} (hr : Ready 0 [.s a] [.s d] s)
include hr

/-- R404: LDA is a scalar load. -/
theorem does_lda {ps : List Piece} {r : List Byte × State} (ha : (s.rS a).toNat % syncBytes w = 0)
    (hp : s.seatPieces (s.rS a) (syncBytes w) .regRead = .ok ps) (hl : s.loadScalar (syncBytes w) ps = .ok r) :
    Does (.lda d a scope w) s
      ((r.2.trace s.focus.core s.focus.seat 2 (s.rS a)).loadInto d (loadValue (syncBytes w) false r.1) 12) :=
  does_of_run (i := .lda d a scope w) (slotOp_ready hr) (by simp only [syncPieces_aligned ha, hp, hl, ok_bind])

theorem raises_lda_misaligned (h : (s.rS a).toNat % syncBytes w ≠ 0) :
    Raises (.lda d a scope w) s 0x26 (transFaddr 0 .read (s.rS a).toNat) :=
  raises_of_run (i := .lda d a scope w) (slotOp_ready hr) (by simp only [syncPieces_misaligned h]; rfl)

end

/-- Settles O44: each AMO is amoOp at its operation; device memory, a poisoned block and the host window are the cases of its access. -/
theorem atomicsComplete : Obligations.AtomicsComplete := by
  intro d a b ord scope w s va n rel may whole
  have each (op : AmoOp) {i : Instr} (he : exec i s = amoOp op d a b ord scope w s)
      (hr : Ready 0 (if op = .cas then [.s d, .s a, .s b] else [.s a, .s b]) [.s d] s) : whole op i :=
    ⟨fun q ps ha hp hm => ⟨fun hq hu => does_amo he hr (amo_sound ha hp hm hq hu),
        fun hq hu => does_amo he hr (amo_poisoned ha hp hm hq hu), fun bs hq hb => does_amo he hr (amo_host ha hp hm hq hb)⟩,
      fun q ps k ha hp hk hw => waits_amo he hr ha hp hk hw, raises_amo_misaligned he hr⟩
  refine ⟨fun hr => ⟨each .add rfl hr, each .and rfl hr, each .or rfl hr, each .xor rfl hr, each .minS rfl hr, each .maxS rfl hr,
      each .xchg rfl hr⟩, each .cas rfl,
    fun hr => ⟨fun ha ps r hp hl => does_lda hr ha hp hl, raises_lda_misaligned hr⟩,
    fun hr => ⟨fun ha ps hp hm hf => ⟨fun hc hq => ?_, fun q t hone hc ht => ?_⟩, raises_stl_misaligned hr⟩⟩
  · exact does_stl hr ha hp hm hf (writeScalar_release_memory hc (awaitSo_of_release hm) hq _)
  · subst hone
    refine does_stl hr ha hp hm hf ((writeScalar_release_control hc (awaitSo_of_release hm) _).trans ?_)
    rw [natToBytes_length]
    exact ht

end Sys2Proof.Machine
end

section
/-! PROOF. Fences, and the waits on memory with their timeouts. -/

namespace Sys2Proof.Machine

/-- A run that holds its seat keeps what it has started. -/
theorem exec_hold {i : Instr} {s u : State} {k : Stall} {last : Bool} {r : Run} (he : exec i s = .next (settle s r))
    (h : r = .error (.hold u k last)) : exec i s = .next ((u.stallF k).setStatus (.holding k last)) := by
  rw [he, h]
  rfl

theorem alook_ne_none_of_mem {α : Type} {e : Nat × α} {m : Assoc α} (h : e ∈ m) : alook e.1 m ≠ none := by
  induction m with
  | nil => cases h
  | cons x r ih =>
    unfold alook
    split
    · simp
    · next hne => exact ih ((List.mem_cons.mp h).resolve_left fun hx => hne (congrArg Prod.fst hx.symm))

/-! Fences (R160, R405). -/

theorem hostFailCheck_failed {s : State} {v : Word} (h : s.fseat.hostFailed = some v) :
    s.hostFailCheck true = .error (.raiseIn (s.modF (fun t => { t with hostFailed := none })) 0x28 v) := by
  simp [State.hostFailCheck, h]

section
variable {s : State} {kind : BitVec 2} {n : Nat}

/-- R160: the loads through SO and RC pages that a fence of the seat in focus finds. -/
def State.fenceLoads (s : State) : List Nat :=
  (s.opsBefore.filter (fun e => match e.2 with
    | .vload o => o.seat == s.focus.seat && o.waits.any (fun w => w.ord != 2)
    | _ => false)).map (·.1)

/-- R160: what a fence leaves its seat to wait for. -/
def State.fenceSeen (s : State) (kind : BitVec 2) (n : Nat) : Fence :=
  { writes := s.fseat.fence.writes ++ (if kind.getLsbD 1 && n == 5 then s.hostWriting (fun r => r.lent.isSome || r.pkt.isSome) else [])
    loads := s.fseat.fence.loads ++ (if kind.getLsbD 1 then s.fenceLoads else [])
    all := s.fseat.fence.all ++ (if kind.getLsbD 0 then s.fenceLoads else []) }

theorem fseat_modFcore (s : State) (f : Core → Core) : (s.modFcore f).fseat = s.fseat := rfl

theorem fenceUp_eq : s.fenceUp kind n =
    if kind.getLsbD 1 && s.src.ctl.phaseEn then
      (s.modF (fun t => { t with fence := s.fenceSeen kind n })).modFcore
        (fun c => { c with held := c.held ++ [(s.focus.seat, .fence n)] })
    else s.modF (fun t => { t with fence := s.fenceSeen kind n }) := by
  have hsrc : (s.modF (fun t => { t with fence := s.fenceSeen kind n })).src = s.src := by simp [State.src]
  rw [← hsrc]
  rfl

theorem fenceUp_fseat : (s.fenceUp kind n).fseat = { s.fseat with fence := s.fenceSeen kind n } := by
  rw [fenceUp_eq]
  split
  · rw [fseat_modFcore, fseat_modF]
  · exact fseat_modF s _

theorem fenceUp_ops : (s.fenceUp kind n).fcore.ops = s.fcore.ops := by
  rw [fenceUp_eq]
  split
  · rw [fcore_modFcore]
    rfl
  · rfl

theorem fenceUp_host : (s.fenceUp kind n).host = s.host := by
  rw [fenceUp_eq]
  split <;> rfl

/-- R456: with tracking off a fence changes its seat alone. -/
theorem fenceUp_frame (h : s.src.ctl.phaseEn = false) : { s.fenceUp kind n with seats := s.seats } = s := by
  rw [fenceUp_eq, if_neg (by simp [h])]
  rfl

theorem mem_ops_of_mem_opsBefore {e : Nat × Op} (h : e ∈ s.opsBefore) : e ∈ s.fcore.ops := by
  unfold State.opsBefore at h
  dsimp only at h
  cases hb : s.focus.opBase <;> rw [hb] at h <;> exact (List.mem_filter.mp h).1

/-- R160: where an earlier load through an SO or RC page is still open, a fence finds it. -/
theorem fenceLoads_open (h : s.loadsDone (· != 2) = false) : ∃ id ∈ s.fenceLoads, alook id s.fcore.ops ≠ none := by
  obtain ⟨e, he, hopen⟩ := List.all_eq_false.mp h
  refine ⟨e.1, List.mem_map_of_mem (List.mem_filter.mpr ⟨he, ?_⟩), alook_ne_none_of_mem (mem_ops_of_mem_opsBefore he)⟩
  obtain ⟨i, o⟩ := e
  cases o
  case vload o =>
    simpa [bne] using hopen
  all_goals simp at hopen

/-! What a fence holds back (R160). -/

/-- A fence with an open load that it orders before every access lets none be performed. -/
theorem fenceOk_of_all {id : Nat} (hm : id ∈ s.fseat.fence.all) (ho : alook id s.fcore.ops ≠ none) (w : Bool) :
    s.fenceOk w = false := by
  have hall : s.fseat.fence.all.all (fun id => (alook id s.fcore.ops).isNone) = false :=
    List.all_eq_false.mpr ⟨id, hm, by simpa using ho⟩
  simp only [State.fenceOk, hall, Bool.false_and]

/-- One with an open load that it orders before the stores lets no store be performed. -/
theorem fenceOk_of_loads {id : Nat} (hm : id ∈ s.fseat.fence.loads) (ho : alook id s.fcore.ops ≠ none) : s.fenceOk true = false := by
  have hall : s.fseat.fence.loads.all (fun id => (alook id s.fcore.ops).isNone) = false :=
    List.all_eq_false.mpr ⟨id, hm, by simpa using ho⟩
  simp only [State.fenceOk, hall, Bool.false_and, Bool.not_true, Bool.false_or, Bool.and_false]

/-- One with a write that the host has still to acknowledge lets no store be performed. -/
theorem fenceOk_of_writes {id : Nat} (hm : id ∈ s.fseat.fence.writes) (ho : alook id s.host.reqs ≠ none ∨ alook id s.host.later ≠ none) :
    s.fenceOk true = false := by
  have hall : s.fseat.fence.writes.all (fun id => (alook id s.host.reqs).isNone && (alook id s.host.later).isNone) = false :=
    List.all_eq_false.mpr ⟨id, hm, by
      simp only [Bool.and_eq_true, Option.isNone_iff_eq_none]
      exact fun hboth => ho.elim (· hboth.1) (· hboth.2)⟩
  simp only [State.fenceOk, hall, Bool.and_false, Bool.not_true, Bool.false_or]

/-- R496: a write or an atomic not yet acknowledged has left or has still to leave. -/
theorem hostWriting_listed {p : HostReq → Bool} {id : Nat} (h : id ∈ s.hostWriting p) :
    alook id s.host.reqs ≠ none ∨ alook id s.host.later ≠ none := by
  simp only [State.hostWriting, List.mem_append, List.mem_map, List.mem_filter] at h
  rcases h with ⟨e, ⟨he, _⟩, rfl⟩ | ⟨e, ⟨he, _⟩, rfl⟩
  · exact .inl (alook_ne_none_of_mem he)
  · exact .inr (alook_ne_none_of_mem he)

/-- R160, R405: an acquire fence holds back every access until the earlier loads are performed. -/
theorem fenceUp_acquire (hk : kind.getLsbD 0 = true) (h : s.loadsDone (· != 2) = false) (w : Bool) :
    (s.fenceUp kind n).fenceOk w = false := by
  obtain ⟨id, hid, ho⟩ := fenceLoads_open h
  refine fenceOk_of_all (id := id) ?_ (by rwa [fenceUp_ops]) w
  simp [fenceUp_fseat, State.fenceSeen, hk, hid]

/-- R160, R405: a release fence holds back the stores until the earlier loads are performed. -/
theorem fenceUp_release_loads (hk : kind.getLsbD 1 = true) (h : s.loadsDone (· != 2) = false) :
    (s.fenceUp kind n).fenceOk true = false := by
  obtain ⟨id, hid, ho⟩ := fenceLoads_open h
  refine fenceOk_of_loads (id := id) ?_ (by rwa [fenceUp_ops])
  simp [fenceUp_fseat, State.fenceSeen, hk, hid]

/-- R160, R405: at SYS it holds them back until the host has acknowledged every write that may happen before it. -/
theorem fenceUp_release_sys (hk : kind.getLsbD 1 = true) (h : s.hostQuiet = false) : (s.fenceUp kind 5).fenceOk true = false := by
  obtain ⟨id, hid⟩ := List.exists_mem_of_ne_nil (s.hostWriting (fun r => r.lent.isSome || r.pkt.isSome))
    (by simpa [State.hostQuiet] using h)
  refine fenceOk_of_writes (id := id) ?_ (by rw [fenceUp_host]; exact hostWriting_listed hid)
  simp [fenceUp_fseat, State.fenceSeen, hk, hid]

/-- R160: an access through an SO or RC page that a fence holds back stalls. -/
theorem segPieces_fenced {k : Access} {gs : List Seg} {ps : List Piece} (hp : s.pieces s.focus.core s.fasid k gs = .ok ps)
    (ho : ps.any (fun p => pteOrd p.leaf.entry != 2) = true) (hf : s.fenceOk k.writes = false) : s.segPieces k gs = stallX := by
  simp only [State.segPieces, hp, ho, hf, Bool.not_false, Bool.and_self, Bool.or_true, if_true]

end

section
variable {scope p1 p2 : BitVec 3} {kind : BitVec 2} {g : BitVec 4} {s : State} (hr : Ready g [] [] s)
include hr

theorem does_fence (h : (kind.getLsbD 1 && scope == 5) = true → s.fseat.hostFailed = none) :
    Does (.fence scope kind g) s (s.fenceUp kind scope.toNat) :=
  does_of_run (i := .fence scope kind g) (slotOp_ready hr) (by simp only [hostFailCheck_ok h, ok_bind])

/-- R495: a SYS release after a failed posted store raises HOST_ERROR, once. -/
theorem exec_fence_hostFailed {v : Word} (h : (kind.getLsbD 1 && scope == 5) = true) (hf : s.fseat.hostFailed = some v) :
    exec (.fence scope kind g) s = .next (((s.modF (fun t => { t with hostFailed := none })).takeCause s.focus.core s.focus.seat
      (s.causeEntry 0x28 v false)).setStatus (.raised .exec (s.causeEntry 0x28 v false))) := by
  have he : exec (.fence scope kind g) s = .next (settle s (do
      s.hostFailCheck (kind.getLsbD 1 && scope == 5)
      .ok (s.fenceUp kind scope.toNat))) := slotOp_ready hr
  rw [he, h, hostFailCheck_failed hf]
  rfl

theorem does_xfence (h : s.commitF.drained (fun p => p == p1.toNat) scope.toNat = true) : Does (.xfence p1 p2 scope g) s s.commitF :=
  does_of_run (i := .xfence p1 p2 scope g) (slotOp_ready hr) (if_pos h)

theorem exec_xfence_open (h : s.commitF.drained (fun p => p == p1.toNat) scope.toNat = false) :
    exec (.xfence p1 p2 scope g) s = .next ((s.commitF.stallF noReg).setStatus (.holding noReg false)) :=
  exec_hold (i := .xfence p1 p2 scope g) (slotOp_ready hr) (if_neg (by simp [h]))

end

/-! Waits on memory (R407 to R409). -/

theorem staysPut_iff {s : State} : s.staysPut = true ↔ s.fseat.pers = true ∨ s.srcTm = true := Bool.or_eq_true_iff

theorem staysPut_free {s : State} (hpers : s.fseat.pers = false) (htm : s.srcTm = false) : s.staysPut = false := by
  simp [State.staysPut, hpers, htm]

section
variable {a b t : BitVec 6} {cond : BitVec 3} {w : BitVec 1} {s u : State} {ps : List Piece} {bs : List Byte}
  (ha : (s.rS a).toNat % syncBytes w = 0) (hp : s.seatPieces (s.rS a) (syncBytes w) .regRead = .ok ps)
  (hl : s.loadScalar (syncBytes w) ps = .ok (bs, u)) (hz : s.poisonHit ps = none)

include hl hz in
/-- R408: the read of a wait that meets no poisoned block is judged by its condition. -/
theorem waitRead_sound (cond : BitVec 3) (x : Word) :
    s.waitRead (syncBytes w) cond x ps = .ok (waitCond cond (syncBytes w) (loadValue (syncBytes w) false bs) x, u) := by
  simp only [State.waitRead, hl, hz, ok_bind, Option.isSome_none, Bool.or_false]

include ha hp hl hz

theorem waitStall_met (hc : waitCond cond (syncBytes w) (loadValue (syncBytes w) false bs) (s.rS b) = true) :
    s.waitStall a b t cond w = .ok (u.trace s.focus.core s.focus.seat 2 (s.rS a)) := by
  simp only [State.waitStall, syncPieces_aligned ha, hp, waitRead_sound hl hz, hc, ok_bind, if_true]

theorem waitStall_unmet (hc : waitCond cond (syncBytes w) (loadValue (syncBytes w) false bs) (s.rS b) = false) :
    s.waitStall a b t cond w = .error (.hold u.forgetHost
      { reg := none, waitv := if (s.rS t).extractLsb' 0 32 = 0 then none else some (transFaddr 0 .read (s.rS a).toNat) } false) := by
  simp only [State.waitStall, syncPieces_aligned ha, hp, waitRead_sound hl hz, hc, ok_bind, Bool.false_eq_true, if_false]

end

section
variable {a b t : BitVec 6} {cond : BitVec 3} {w : BitVec 1} {scope : BitVec 3} {s : State} (hr : Ready 0 [.s a, .s b, .s t] [] s)
include hr

theorem exec_waitv : exec (.waitv a b t cond w scope) s = .next (settle s (s.waitStall a b t cond w)) := slotOp_ready hr

/-- R213, R408: in a persistent kernel and a handler the suspend form is the stall form. -/
theorem exec_waitvS_stays (h : s.staysPut = true) :
    exec (.waitvS a b t cond w scope) s = .next (settle s (s.waitStall a b t cond w)) :=
  (slotOp_ready hr : exec (.waitvS a b t cond w scope) s = _).trans (by rw [if_pos h])

theorem raises_waitvS_inLoop (h : s.staysPut = false) (hact : stageAct s.src.ctl.stage = true) :
    Raises (.waitvS a b t cond w scope) s 0x04 0 :=
  raises_of_run (i := .waitvS a b t cond w scope) (slotOp_ready hr) (by rw [if_neg (by simp [h]), if_pos hact])

variable {u : State} {ps : List Piece} {bs : List Byte}
  (ha : (s.rS a).toNat % syncBytes w = 0) (hp : s.seatPieces (s.rS a) (syncBytes w) .regRead = .ok ps)
  (hl : s.loadScalar (syncBytes w) ps = .ok (bs, u)) (hz : s.poisonHit ps = none)
  (h : s.staysPut = false) (hact : stageAct s.src.ctl.stage = false)
include ha hp hl hz h hact

/-- R409: the suspend form of a seat that may leave issues where its condition holds. -/
theorem does_waitvS_met (hc : waitCond cond (syncBytes w) (loadValue (syncBytes w) false bs) (s.rS b) = true) :
    Does (.waitvS a b t cond w scope) s (u.trace s.focus.core s.focus.seat 2 (s.rS a)) :=
  does_of_run (i := .waitvS a b t cond w scope) (slotOp_ready hr) (by
    simp only [h, hact, Bool.false_eq_true, if_false, syncPieces_aligned ha, hp, waitRead_sound hl hz, hc, ok_bind, if_true])

variable (hc : waitCond cond (syncBytes w) (loadValue (syncBytes w) false bs) (s.rS b) = false)
include hc

/-- R409: one that has been woken by its timeout raises WAIT_TIMEOUT. -/
theorem raises_waitvS_expired (hx : s.fseat.cont.expired = true) :
    Raises (.waitvS a b t cond w scope) s 0x27 (transFaddr 0 .read (s.rS a).toNat) :=
  raises_of_run (i := .waitvS a b t cond w scope) (slotOp_ready hr) (by
    simp only [h, hact, Bool.false_eq_true, if_false, syncPieces_aligned ha, hp, waitRead_sound hl hz, hc, hx, ok_bind, if_true])

/-- R409: else it suspends its seat on the line that it has read. -/
theorem exec_waitvS_suspends {q : Piece} {qs : List Piece} (hx : s.fseat.cont.expired = false) (hseq : s.fseat.seq = none)
    (hq : ps = q :: qs) :
    let key := WaitKey.line (q.pa / 64 * 64)
    let m := ((s.rS t).extractLsb' 0 32).toNat
    let f := transFaddr 0 .read (s.rS a).toNat
    exec (.waitvS a b t cond w scope) s = .next ((s.suspendF key m).setStatus (.suspended key m f)) := by
  have hown : s.awaitOwnSeq = .ok () := if_neg (by simp [hseq])
  subst hq
  refine (slotOp_ready hr : exec (.waitvS a b t cond w scope) s = _).trans ?_
  simp only [h, hact, Bool.false_eq_true, if_false, syncPieces_aligned ha, hp, waitRead_sound hl hz, hc, hx, hown, ok_bind]
  rfl

end

/-! WAIT_TIMEOUT (R408, R409). -/

/-- R408: a seat that stalls on a wait traps, or takes a cause that comes first. -/
theorem exec_waitTimeout_stalled {s : State} {core seat : Nat} {v : Word} (hcore : core < 400) (hseat : seat < 2)
    (hrun : (s.seatAt core seat).run = .running) (hv : (s.seatAt core seat).stall.bind (·.waitv) = some v) :
    exec (.waitTimeout (.stalled core seat)) s = .next ((s.boundaryCause core seat).getD (s.takeCause core seat
      { cause := 0x27, faddr := v, slot := 2, pblk := false, epc := (s.seatAt core seat).pc })) := by
  obtain ⟨k, hk, hkv⟩ := Option.bind_eq_some_iff.mp hv
  obtain ⟨reg, waitv, score⟩ := k
  subst hkv
  exact dev_next (by simp [coreThere_of_lt hcore, hseat]) (by simp only [hrun, hk])

/-- R409: a parked continuation becomes ready, marked as expired. -/
theorem exec_waitTimeout_parked {s : State} {die e : Nat} {k : WaitEntry} (hdie : die < 4) (hk : alook e (s.die die).waits = some k)
    (ht : k.timeout ≠ 0) :
    exec (.waitTimeout (.parked die e)) s = .next (s.wake die e { k.cont with expired := true }) :=
  dev_next (decide_eq_true hdie) (by simp only [hk, if_neg ht])

/-- Settles O46: a fence is what it leaves at its seat; a wait is its read, which its condition judges; a timeout is its device step. -/
theorem fencesAndWaitsComplete : Obligations.FencesAndWaitsComplete := by
  intro a b t cond w p1 p2 scope kind g s va n f holds
  refine ⟨fun hr => ⟨does_fence hr, fun v hs hf => ⟨_, exec_fence_hostFailed hr hs hf, rfl⟩, ?_, fenceUp_frame,
      fun hl => ⟨fun hk => fenceUp_acquire hk hl false, fun hk => fenceUp_release_loads hk hl⟩,
      fun hk hscope hq => ?_, fun k gs ps hp ho hf => segPieces_fenced hp ho hf, does_xfence hr, exec_xfence_open hr⟩,
    fun hr => ⟨fun ps bs u ha hp hl hz => ?_, fun hpers htm hact => raises_waitvS_inLoop hr (staysPut_free hpers htm) hact⟩,
    fun core seat v => exec_waitTimeout_stalled, fun die e k => exec_waitTimeout_parked⟩
  · rw [fenceUp_fseat]
  · subst hscope
    exact fenceUp_release_sys hk hq
  · exact ⟨fun hc => does_of_run (exec_waitv hr) (waitStall_met ha hp hl hz hc),
      fun hc => exec_hold (exec_waitv hr) (waitStall_unmet ha hp hl hz hc),
      fun h hc => does_of_run (exec_waitvS_stays hr (staysPut_iff.mpr h)) (waitStall_met ha hp hl hz hc),
      fun h hc => exec_hold (exec_waitvS_stays hr (staysPut_iff.mpr h)) (waitStall_unmet ha hp hl hz hc),
      fun ⟨hpers, htm, hact⟩ hc => does_waitvS_met hr ha hp hl hz (staysPut_free hpers htm) hact hc,
      fun ⟨hpers, htm, hact⟩ hc hx => raises_waitvS_expired hr ha hp hl hz (staysPut_free hpers htm) hact hc hx,
      fun ⟨hpers, htm, hact⟩ hc hx hseq q qs hq => exec_waitvS_suspends hr ha hp hl hz (staysPut_free hpers htm) hact hc hx hseq hq⟩

end Sys2Proof.Machine
end

section
/-! PROOF. The vector reductions, scans, counts, moves and run management, and the combining of attention partials. -/

namespace Sys2Proof.Machine

/-- R335: a result of no more than 1,024 runs is within the limit. -/
theorem runLimit_ok {n : Nat} (h : n ≤ 1024) : runLimit n = .ok () := if_neg (by omega)

/-- R335: an operand of the needed shape passes. -/
theorem needShape_ok {sh : Nat × Nat} {n : BitVec 5} {v : VReg} (h : (v.rows, v.cols) = sh) : needShape sh n v = .ok () := if_pos h

section
variable {vd va vb tol : BitVec 5} {sb sc : BitVec 6} {g : BitVec 4} {s : State}

/-- R347: a scan of each row, within the run limit. -/
theorem vscan_ok {r : Reduce} {rs : List (List W32 × VF)} (hr : Ready g [.v va] [.v vd] s)
    (hs : (s.rV va).rowsOf.map (r.scan r.ident) = rs) (hn : (ofElems (rs.flatMap (·.1))).length ≤ 1024) :
    vscan r vd va g s = .next (((s.putV vd 8 (s.rV va).rows (s.rV va).cols (ofElems (rs.flatMap (·.1)))).orFlags
      (orAll (rs.map (·.2)))).setStatus .issued) := by
  refine (slotOp_ready hr).trans ?_
  dsimp only
  rw [hs, runLimit_ok hn]
  rfl

/-- R340: a replaced element leaves the register's shape, within the run limit. -/
theorem does_vins {r : Runs} (hr : Ready g [.v vd, .s sb, .s sc] [.v vd] s)
    (he : (if (s.rS sb).toNat < (s.rV vd).ll then setElem ((s.rS sc).extractLsb' 0 32) (s.rV vd).runs (s.rS sb).toNat
      else (s.rV vd).runs) = r) (hn : r.length ≤ 1024) :
    Does (.vins vd sb sc g) s (s.putV vd 2 (s.rV vd).rows (s.rV vd).cols r) := by
  refine does_of_run (i := .vins vd sb sc g) (slotOp_ready hr) ?_
  simp only [he, runLimit_ok hn]
  rfl

/-- R349: the runs are joined from the first on. -/
theorem does_vrcoal (hr : Ready g [.v va] [.v vd] s) {w : W32} {n : Nat} {t : Runs} (ha : (s.rV va).runs = (w, n) :: t) :
    Does (.vrcoal vd va tol g) s (s.putV vd 2 (s.rV va).rows (s.rV va).cols (coalesce tol.toNat w n t)) :=
  does_of_run (i := .vrcoal vd va tol g) (slotOp_ready hr) (by simp only [ha])

/-- R350: a row is repeated under SHAPE, within the run limit. -/
theorem does_vbrow (hr : Ready g [.v va] [.v vd] s) (ha : ((s.rV va).rows, (s.rV va).cols) = (1, s.shape.2))
    (hn : s.shape.1 * (s.rV va).occ ≤ 1024) :
    Does (.vbrow vd va g) s (s.putV vd 2 s.shape.1 s.shape.2 (List.replicate s.shape.1 (s.rV va).runs).flatten) := by
  refine does_of_run (i := .vbrow vd va g) (slotOp_ready hr) ?_
  dsimp only
  rw [needShape_ok ha, runLimit_ok hn]
  rfl

/-- R350: a column is repeated under SHAPE. -/
theorem does_vbcol (hr : Ready g [.v va] [.v vd] s) (ha : ((s.rV va).rows, (s.rV va).cols) = (s.shape.1, 1)) :
    Does (.vbcol vd va g) s (s.putV vd 2 s.shape.1 s.shape.2 ((s.rV va).runs.map (fun r => (r.1, r.2 * s.shape.2)))) := by
  refine does_of_run (i := .vbcol vd va g) (slotOp_ready hr) ?_
  dsimp only
  rw [needShape_ok ha]
  rfl

/-- R355: two partials of SHAPE are combined; where the maximum is −∞ the result is the empty partial. -/
theorem does_vattc (hr : Ready g [.v va, .v vb] [.v vd] s) (ha : ((s.rV va).rows, (s.rV va).cols) = s.shape)
    (hb : ((s.rV vb).rows, (s.rV vb).cols) = s.shape) (h3 : 3 ≤ s.shape.1 * s.shape.2) {r : Partial × VF} {runs : Runs}
    (hc : combine (partialOf (expand (s.rV va).runs)) (partialOf (expand (s.rV vb).runs)) = r)
    (he : (if r.1.m = negInf then [(negInf, 1), (0, 1), (0, s.shape.1 * s.shape.2 - 2)]
      else attRuns (s.rV va).runs (s.rV vb).runs (s.shape.1 * s.shape.2) ([r.1.m, r.1.l] ++ r.1.o)) = runs)
    (hn : runs.length ≤ 1024) :
    Does (.vattc vd va vb g) s ((s.putV vd 10 s.shape.1 s.shape.2 runs).orFlags r.2) := by
  refine does_of_run (i := .vattc vd va vb g) (slotOp_ready hr) ?_
  simp only [needShape_ok ha, needShape_ok hb, hc, bind, Except.bind]
  rw [if_neg (by omega)]
  subst he
  by_cases hm : r.1.m = negInf
  · simp only [if_pos hm]
  · simp only [if_neg hm] at hn ⊢
    rw [runLimit_ok hn]

end

/-- Settles O28: each form's checks pass, and its result is its body's. -/
theorem vectorReductionsAndMovesComplete : Obligations.VectorReductionsAndMovesComplete := by
  intro vd va vb tol sd sb sc g s a sh
  refine ⟨fun hr => ?_, fun hr => does_of_run (slotOp_ready hr) rfl, fun hr => does_vins hr rfl,
    fun hr => ⟨does_of_run (slotOp_ready hr) rfl, does_of_run (slotOp_ready hr) rfl⟩, fun hr ha hb h3 => does_vattc hr ha hb h3 rfl rfl⟩
  have red (r : Reduce) : vred r vd va g s = _ := slotOp_ready hr
  have rrow (r : Reduce) : vrrow r vd va g s = _ := slotOp_ready hr
  exact ⟨does_of_run (slotOp_ready hr) rfl, ⟨red redSum, red redMax, red redMin⟩, ⟨rrow redSum, rrow redMax, rrow redMin⟩,
    ⟨vscan_ok hr rfl, vscan_ok hr rfl, vscan_ok hr rfl⟩, fun w n t => does_vrcoal hr,
    fun hn => does_of_run (i := .vreshape vd va g) (slotOp_ready hr) (if_pos hn), does_vbrow hr, does_vbcol hr⟩

end Sys2Proof.Machine
end

section
/-! PROOF. The KV instructions: what their operation's answer makes of them, and the steps of the operations that they leave. -/

namespace Sys2Proof.Machine

/-! The answer to an operation that asks for its step (R412). -/

/-- What follows a check that answers a value. -/
theorem bind_of_ok {ε α β : Type} {x : Except ε α} {a : α} {f : α → Except ε β} (h : x = .ok a) : (x >>= f) = f a := by
  rw [h]
  rfl

/-- R412: what an instruction of a state s makes of the answer to its operation, which asks for its step in a state x: it issues
where the step is taken, holds its seat where the operation waits, and raises the cause of a step that fails. -/
def KvAnswered (i : Instr) (x : State) (o : KvOp) (s : State) : Prop :=
  let s1 := x.commitF
  (∀ t d, (s1.kvStep s1.focus.core { o with got := s1.heldFrames } = .whole t d ∨
      s1.kvStep s1.focus.core { o with got := s1.heldFrames } = .follows t d) → Does i s (t.kvStarts d)) ∧
  (∀ t d k, s1.kvStep s1.focus.core { o with got := s1.heldFrames } = .waits t d k →
    exec i s = .next (((t.kvHold d k).stallF noReg).setStatus (.holding noReg true))) ∧
  (∀ cause f, s1.kvStep s1.focus.core { o with got := s1.heldFrames } = .fails cause f → Raises i s cause f)

/-- R412: with no operation of the seat accepted before, an operation that is issued comes to what its answer says. -/
theorem kvAnswered_of_run {i : Instr} {s x : State} {o : KvOp} {r : Run} (hd : x.commitF.fseat.kvDone = none)
    (he : exec i s = .next (settle s r)) (hr : r = x.kvIssue o) : KvAnswered i x o s := by
  refine ⟨fun t d h => does_of_run he ?_, fun t d k h => exec_hold he ?_, fun cause f h => raises_of_run he ?_⟩
  · rcases h with h | h <;> simp only [hr, State.kvIssue, hd, h]
  · simp only [hr, State.kvIssue, hd, h]
  · simp only [hr, State.kvIssue, hd, h]

/-! The instructions (R413 to R420). -/

theorem argLimit_ok {v : Word} {n : Nat} (h : v.toNat < 2 ^ n) : argLimit v n = .ok () := if_pos h

theorem argLimit_beyond {v : Word} {n : Nat} (h : 2 ^ n ≤ v.toNat) : argLimit v n = raiseX 0x37 v := if_neg (Nat.not_lt.mpr h)

theorem kvAligned_ok {v : Word} {n : Nat} (h : v.toNat % n = 0) : kvAligned v n = .ok () := if_pos h

section
variable {a b c : BitVec 6} {g : BitVec 4} {p : Params} {s : State}

/-- R413: KVWALK. -/
theorem kvwalk_answered (hd : s.commitF.fseat.kvDone = none) (hr : Ready g [.s a, .s b] [.s c] s)
    (ha : (s.rS a).toNat < 2 ^ 32) (hb : (s.rS b).toNat < 2 ^ 8) :
    KvAnswered (.kvwalk a b c g) s (s.kvOp .walk (s.rS a) (s.rS b) 0 (some c)) s :=
  kvAnswered_of_run hd (slotOp_ready hr) (by rw [argLimit_ok ha, argLimit_ok hb]; rfl)

theorem raises_kvwalk (hr : Ready g [.s a, .s b] [.s c] s) (ha : 2 ^ 32 ≤ (s.rS a).toNat) :
    Raises (.kvwalk a b c g) s 0x37 (s.rS a) :=
  raises_of_run (slotOp_ready hr) (by rw [argLimit_beyond ha]; rfl)

/-- R416: KVFORK. -/
theorem kvfork_answered (hd : s.commitF.fseat.kvDone = none) (hr : Ready g [.s a] [] s) (ha : (s.rS a).toNat < 2 ^ 20) :
    KvAnswered (.kvfork a g) s (s.kvOp .fork (s.rS a) 0 0 none) s :=
  kvAnswered_of_run hd (slotOp_ready hr) (bind_of_ok (argLimit_ok ha))

theorem raises_kvfork (hr : Ready g [.s a] [] s) (ha : 2 ^ 20 ≤ (s.rS a).toNat) : Raises (.kvfork a g) s 0x37 (s.rS a) :=
  raises_of_run (slotOp_ready hr) (by rw [argLimit_beyond ha]; rfl)

/-- R416: KVROLL. -/
theorem kvroll_answered (hd : s.commitF.fseat.kvDone = none) (hr : Ready g [.s a] [] s) (ha : (s.rS a).toNat < 2 ^ 32) :
    KvAnswered (.kvroll a g) s (s.kvOp .roll (s.rS a) 0 0 none) s :=
  kvAnswered_of_run hd (slotOp_ready hr) (bind_of_ok (argLimit_ok ha))

theorem raises_kvroll (hr : Ready g [.s a] [] s) (ha : 2 ^ 32 ≤ (s.rS a).toNat) : Raises (.kvroll a g) s 0x37 (s.rS a) :=
  raises_of_run (slotOp_ready hr) (by rw [argLimit_beyond ha]; rfl)

/-- R417: KVPROV asks for its step once its destination is translated. -/
theorem kvprov_answered (hr : Ready g [.s a, .s b] [] s) {r : List Piece × List PageMap}
    (hc : s.copyPages .write [(s.rS a &&& 0xFFFFFFFFFFFFFFE0#64, 32)] = .ok r)
    (hd : (s.install true r.1).commitF.fseat.kvDone = none) :
    KvAnswered (.kvprov a b g) (s.install true r.1) { (s.install true r.1).kvOp .prov (s.rS a &&& 0xFFFFFFFFFFFFFFE0#64)
      ((s.install true r.1).rS b) 0 none with maps := r.2 } s :=
  kvAnswered_of_run hd (slotOp_ready hr) (bind_of_ok hc)

section
variable (hr : Ready g (markerSrcs s.focus.block ++ [.s a, .s b]) [.s c] s) (hp : s.params = .ok p)
include hr hp

/-- R414: a KVAPP within its limits is its body, which translates its rows first. -/
theorem exec_kvapp (hk : kvappOk p = true) : exec (.kvapp a b c g) s = .next (settle s (s.kvappIssue p a b c)) :=
  blockOp_ready hr.append_comm hp (limit_ok hk)

/-- R418: REPAIR.M, with an aligned list. -/
theorem repairM_answered (hd : s.commitF.fseat.kvDone = none) (hk : repairOk p = true) (hb : (s.rS b).toNat % 8 = 0) :
    KvAnswered (.repairM a b c g) s ((s.kvOp .repairM (s.rS a) (s.rS b) 0 (some c)).withParams p) s :=
  kvAnswered_of_run hd (blockOp_ready hr.append_comm hp (limit_ok hk)) (bind_of_ok (kvAligned_ok hb))

/-- R418: REPAIR.I. -/
theorem repairI_answered (hd : s.commitF.fseat.kvDone = none) (hk : repairOk p = true) :
    KvAnswered (.repairI a b c g) s ((s.kvOp .repairI (s.rS a) (s.rS b) 0 (some c)).withParams p) s :=
  kvAnswered_of_run hd (blockOp_ready hr.append_comm hp (limit_ok hk)) rfl

/-- R420: ATTQ in either form, with an aligned output. -/
theorem attq_answered (hd : s.commitF.fseat.kvDone = none) {ro : Bool} {i : Instr}
    (hi : exec i s = blockOp g [.s a, .s b] [.s c] (fun s p => s.limit (attqOk p)) (fun p s => s.attq ro p a b c) s)
    (hk : attqOk p = true) (hb : (s.rS b).toNat % 64 = 0) :
    KvAnswered i s ((s.kvOp (.attq ro) (s.rS a) (s.rS b) 0 (some c)).withParams p) s :=
  kvAnswered_of_run hd (hi.trans (blockOp_ready hr.append_comm hp (limit_ok hk))) (bind_of_ok (kvAligned_ok hb))

end

end

/-! Steps that are the whole operation, and acceptance (R195, R412, R415, R419). -/

section
variable {s : State} {core seat id : Nat} {o : KvOp}

/-- R412: an operation whose step is the whole of it fills its destination as its bundle issues. -/
theorem kvStarts_whole (h : o.kind.whole = true) : s.kvStarts o = (s.observe s.focus.core 3).kvIssued 0 o := by
  simp only [State.kvStarts, State.kvAccepted, h, if_true]

/-- R412: an operation whose work follows is in flight from its acceptance on. -/
theorem kvStarts_follows (h : o.kind.whole = false) : s.kvStarts o =
    ((s.observe s.focus.core 3).newOp s.focus.core (.kv { o with pool := none })).kvIssued (s.observe s.focus.core 3).nextOp o := by
  simp only [State.kvStarts, State.kvAccepted, h, Bool.false_eq_true, if_false]

section
variable {q : Nat} {geo : KvGeom} (hs : s.kvServe o.asid o.handle = .ok (q, geo)) (hstep : s.stepPending q = false)
  (hpin : s.kvPinned q = false)
include hs hstep hpin

/-- R415: the commit of an empty stage gives COMMIT. -/
theorem kvStep_commit_empty (hk : o.kind = .commit) (hn : s.qStcnt q = 0) :
    s.kvStep core o = .whole s { o with rcd := q, result := BitVec.ofNat 64 (s.qCommit q) } := by
  simp [State.kvStep, State.stepCommit, hk, hs, hstep, hpin, hn]

/-- R419: REPSTAT gives the repair counts. -/
theorem kvStep_repstat (hk : o.kind = .repstat) :
    let v := s.qFront q * 2 ^ 48 + s.qRcnt q % 2 ^ 13 * 2 ^ 32 + (if s.qBusy q then 2 ^ 31 else 0) + s.qRdone q % 2 ^ 13
    s.kvStep core o = .whole s { o with rcd := q, result := BitVec.ofNat 64 v } := by
  simp [State.kvStep, State.stepRepstat, hk, hs, hstep, hpin]

end

/-- R412: the operation that a seat waits to have accepted takes its step, which its bundle then finds done. -/
theorem exec_kvAccept_taken {t : State} {d : KvOp} (hcore : core < 400) (hseat : seat < 2) (ho : (s.seatAt core seat).kvHeld = some o)
    (hk : (s.seatAt core seat).keep ≠ none) (h : s.kvStep core o = .whole t d ∨ s.kvStep core o = .follows t d) :
    exec (.kvAccept core seat) s = .next ((t.kvAccepted core d).2.modSeat core seat
      (fun x => { x with kvHeld := none, kvDone := some ((t.kvAccepted core d).1, d), firm := true })) := by
  refine dev_next (by simp [coreThere_of_lt hcore, hseat]) ?_
  unfold State.kvAcceptHeld
  rw [if_pos (Option.isSome_iff_ne_none.mpr hk)]
  rcases h with h | h <;> simp only [ho, h]

/-! The work that follows a step (R176, R412, R421). -/

/-- R412: an operation that waits neither for the host, a pool nor its bundle goes on. -/
theorem exec_kvComplete_goesOn {u : State} (hcore : core < 400) (ho : s.op core id = some (.kv o)) (hh : o.hostOut = none)
    (hp : o.pool = none) (hv : o.isOver = false) (hb : s.unissued (core, id) o = false) (hu : s.kvGoOn (core, id) o = some u) :
    exec (.kvComplete core id) s = .next u :=
  dev_next (coreThere_of_lt hcore) (by simp [ho, hh, hp, hv, hb, hu])

/-- R412, R421: work that has ended, with no write under way, ends the operation. -/
theorem kvGoOn_ended {k : KvSite} {t : State} {q : KvOp} (h : kvRun k 65536 s { o with pool := none } = .ended t q)
    (hw : q.writes = 0) : s.kvGoOn k o = some (t.kvEnd k.1 k.2 q) := by
  simp only [State.kvGoOn, h, State.kvFinish, if_pos hw]

/-- R176: a return that waited for room is made. -/
theorem exec_kvPoolWaitEnd_returns (hcore : core < 400) (hseat : seat < 2)
    (h : s.flushReturns.fe.returns.length ≠ s.fe.returns.length) : exec (.kvPoolWaitEnd core seat) s = .next s.flushReturns :=
  dev_next (by simp [coreThere_of_lt hcore, hseat]) (if_pos h)

/-- R176: with no return to make, an operation that waited for a pool goes on. -/
theorem exec_kvPoolWaitEnd_goesOn {k : Nat} {u : State} (hcore : core < 400) (hseat : seat < 2)
    (h : s.flushReturns.fe.returns.length = s.fe.returns.length) (hw : s.poolWaiter core seat = some (k, o))
    (hu : s.kvGoOn (core, k) o = some u) : exec (.kvPoolWaitEnd core seat) s = .next u :=
  dev_next (by simp [coreThere_of_lt hcore, hseat]) (by simp only [if_neg (not_not_intro h), hw, hu])

end

/-- Settles O47: each instruction's checks pass, and its operation is issued with the answer to its step; a step, an acceptance and
the work after it are their rows'. -/
theorem kvInstructionsComplete : Obligations.KvInstructionsComplete := by
  intro a b c g p s hd answered
  refine ⟨fun hr => ⟨kvwalk_answered hd hr, raises_kvwalk hr⟩,
    fun hr => ⟨kvAnswered_of_run hd (slotOp_ready hr) rfl, kvAnswered_of_run hd (slotOp_ready hr) rfl⟩,
    fun hr => ⟨kvfork_answered hd hr, raises_kvfork hr, kvroll_answered hd hr, raises_kvroll hr⟩,
    fun hr => kvAnswered_of_run hd (slotOp_ready hr) rfl, fun hr r => kvprov_answered hr,
    fun hr hp => ⟨?_, fun hk => ⟨repairM_answered hr hp hd hk, repairI_answered hr hp hd hk⟩,
      fun hk hb => ⟨attq_answered hr hp hd rfl hk hb, attq_answered hr hp hd rfl hk hb⟩⟩,
    fun t o => ⟨kvStarts_whole, kvStarts_follows⟩,
    fun q geo o hs hstep hpin => ⟨kvStep_commit_empty hs hstep hpin, kvStep_repstat hs hstep hpin⟩,
    fun core seat id hcore hseat => ⟨fun o t d => exec_kvAccept_taken hcore hseat, fun o u => exec_kvComplete_goesOn hcore,
      fun o t q => kvGoOn_ended, exec_kvPoolWaitEnd_returns hcore hseat, fun k o u => exec_kvPoolWaitEnd_goesOn hcore hseat⟩⟩
  rintro size rows r rfl rfl hk hc u hdu
  exact kvAnswered_of_run hdu (exec_kvapp hr hp hk) (bind_of_ok hc)

end Sys2Proof.Machine
end

section
/-! PROOF. SUSPEND, YIELD and HALT, and the waits and signals on timelines. -/

namespace Sys2Proof.Machine

/-! What holds a seat to its program (R213, R322, R396). -/

theorem staysPut_eq_false_iff {s : State} : s.staysPut = false ↔ ¬(s.fseat.pers = true ∨ s.srcTm = true) :=
  Bool.eq_false_iff.trans (not_congr staysPut_iff)

theorem awaitOwnSeq_idle {s : State} (h : s.fseat.seq = none) : s.awaitOwnSeq = .ok () := if_neg (by simp [h])

section
variable {g : BitVec 4} {srcs : List Src} {dsts : List RegName} {s : State} (h : Ready g srcs dsts s)
include h

theorem Ready.without_srcs : Ready g [] dsts s := { h with srcs := by simp }

theorem Ready.stallAlways : s.stallAlways srcs = .ok () :=
  stallAlways_ready s srcs fun r hr => srcEmpty_of_readable s r (h.srcs r hr)

theorem Ready.readCauses : s.readCauses srcs = .ok () := readCauses_ready s srcs h.srcs

end

/-! YIELD and HALT (R327, R328). -/

section
variable {g : BitVec 4} {s : State} (hr : Ready g [] [] s)
include hr

theorem does_yield_stays (h : s.staysPut = true) : Does (.yield g) s s :=
  does_of_run (i := .yield g) (slotOp_ready hr) (if_pos h)

theorem does_suspend_stays (h : s.staysPut = true) : Does (.suspend g) s s :=
  does_of_run (i := .suspend g) (slotOp_ready hr) (if_pos h)

theorem raises_yield_inLoop (h : s.staysPut = false) (hact : stageAct s.src.ctl.stage = true) : Raises (.yield g) s 0x04 0 :=
  raises_of_run (i := .yield g) (slotOp_ready hr) (by rw [if_neg (by simp [h]), if_pos hact])

theorem does_yield_leaves (h : s.staysPut = false) (hact : stageAct s.src.ctl.stage = false) (hseq : s.fseat.seq = none) :
    Does (.yield g) s (s.beginLeave s.focus.core s.focus.seat .yield) :=
  does_of_run (i := .yield g) (slotOp_ready hr) (by
    simp only [h, hact, awaitOwnSeq_idle hseq, ok_bind, Bool.false_eq_true, if_false])

theorem does_halt (hf : s.fseat.hostFailed = none) (hq : s.hostAcked (fun _ => true) = true) (hseq : s.fseat.seq = none) :
    Does (.halt g) s (s.beginLeave s.focus.core s.focus.seat .halt) :=
  does_of_run (i := .halt g) (slotOp_ready hr) (by
    simp only [hf, hq, awaitOwnSeq_idle hseq, ok_bind, Bool.not_true, Bool.false_eq_true, if_false])

end

/-! SUSPEND of a seat that may leave (R211, R327). -/

section
variable {g : BitVec 4} {s : State} (hr : Ready g [.s 6] [] s) (h : s.staysPut = false)
include hr h

theorem raises_suspend_inLoop (hact : stageAct s.src.ctl.stage = true) : Raises (.suspend g) s 0x04 0 :=
  raises_of_run (i := .suspend g) (slotOp_ready hr.without_srcs) (by
    simp only [h, hr.stallAlways, hr.readCauses, hact, ok_bind, Bool.false_eq_true, if_false, if_true])

variable (hact : stageAct s.src.ctl.stage = false)
include hact

theorem raises_suspend_misaligned (ha : (s.rS 6).toNat % 128 ≠ 0) :
    Raises (.suspend g) s 0x26 (transFaddr 0 .write (s.rS 6).toNat) :=
  raises_of_run (i := .suspend g) (slotOp_ready hr.without_srcs) (by
    simp only [h, hr.stallAlways, hr.readCauses, hact, ok_bind, Bool.false_eq_true, if_false]
    exact if_pos ha)

/-- R327: the record's address is translated, and the record is written once the seat has left. -/
theorem does_suspend_leaves (hseq : s.fseat.seq = none) (ha : (s.rS 6).toNat % 128 = 0) {p : Piece}
    (hp : s.seatPieces (s.rS 6) 128 .write = .ok [p]) (hso : s.awaitSo [p] = .ok ()) :
    Does (.suspend g) s
      ((s.install true [p]).beginLeave s.focus.core s.focus.seat (.suspend p.pa (pteCp p.leaf.entry))) :=
  does_of_run (i := .suspend g) (slotOp_ready hr.without_srcs) (by
    simp only [h, hr.stallAlways, hr.readCauses, hact, ha, awaitOwnSeq_idle hseq, hp, hso, ok_bind, Bool.false_eq_true,
      if_false, install_focus]
    rfl)

end

/-- Settles O18: a seat that stays issues without effect; one that may leave begins to, or raises its cause. -/
theorem seatsLeaveTheirProgram : Obligations.SeatsLeaveTheirProgram := by
  intro g s c x stay go
  have may (h : ¬stay) : s.staysPut = false := staysPut_eq_false_iff.mpr h
  refine ⟨fun hr => ⟨fun h => ?_, fun ⟨hpers, htm, hseq, hact⟩ => ?_, fun h => raises_yield_inLoop hr (may h), does_halt hr⟩,
    fun hr => ⟨fun h => raises_suspend_inLoop hr (may h), fun h => raises_suspend_misaligned hr (may h),
      fun p ⟨hpers, htm, hseq, hact⟩ => ?_⟩⟩
  · exact ⟨does_yield_stays hr (staysPut_iff.mpr h), does_suspend_stays hr (staysPut_iff.mpr h)⟩
  · exact does_yield_leaves hr (staysPut_free hpers htm) hact hseq
  · exact fun ha => does_suspend_leaves hr (staysPut_free hpers htm) hact hseq ha

/-! WAITTL (R258, R329). -/

section
variable {a : BitVec 6} {tl : BitVec 12} {cert : BitVec 1} {g : BitVec 4} {s : State} (hr : Ready g [.s a] [] s)
include hr

theorem does_waittl (h : s.waittlDone a tl cert = true) : Does (.waittl a tl cert g) s s :=
  does_of_run (i := .waittl a tl cert g) (slotOp_ready hr) (if_pos h)

theorem waits_waittl (h : s.waittlDone a tl cert = false) : Waits (.waittl a tl cert g) s :=
  waits_of_run (i := .waittl a tl cert g) (slotOp_ready hr) (if_neg (by simp [h]))

/-- R213, R329: the suspend form issues on a timeline reached where its seat stays, or may leave outside a loop. -/
theorem does_waittlSusp (h : s.waittlDone a tl cert = true) (hs : s.staysPut = true ∨ stageAct s.src.ctl.stage = false) :
    Does (.waittlSusp a tl cert g) s s :=
  does_of_run (i := .waittlSusp a tl cert g) (slotOp_ready hr) (by
    rcases hs with hs | hact
    · simp only [hs, h, if_true]
    · simp only [hact, h, Bool.false_eq_true, if_false, if_true, ite_self])

/-- R208: one of a seat that may leave suspends it on the timeline. -/
theorem exec_waittlSusp_suspends (h : s.waittlDone a tl cert = false) (hs : s.staysPut = false)
    (hact : stageAct s.src.ctl.stage = false) (hseq : s.fseat.seq = none) :
    let key := WaitKey.timeline tl.toNat (cert == 1) (s.rS a)
    exec (.waittlSusp a tl cert g) s = .next ((s.suspendF key 0).setStatus (.suspended key 0 0)) := by
  refine (slotOp_ready hr : exec (.waittlSusp a tl cert g) s = _).trans ?_
  simp only [hs, hact, h, awaitOwnSeq_idle hseq, ok_bind, Bool.false_eq_true, if_false]
  rfl

end

/-! A commit leaves the seat in focus in focus (R457). -/

@[simp] theorem spovr_focus (s : State) (core x : Nat) (ms : List (Option Nat)) : (s.spovr core x ms).focus = s.focus := by
  unfold State.spovr
  split <;> rfl

@[simp] theorem startCopy_focus (s : State) (core : Nat) (o : CopyOp) : (s.startCopy core o).focus = s.focus := by
  cases h : o.src <;> simp only [State.startCopy, h, State.newOp_focus, spovr_focus]

@[simp] theorem perform_focus (s : State) (core x : Nat) (h : Held) : (s.perform core x h).focus = s.focus := by
  cases h with
  | store va ps ts ord =>
    simp only [State.perform]
    rw [foldl_focus, postParts_focus, foldl_focus]
    · exact fun s _ => storeBytes_focus s _ _ _
    · intro s t
      split <;> simp [State.wholeTag]
  | fence scope => rfl
  | copy o => exact startCopy_focus s core o
  | accst o => rfl

@[simp] theorem commit_focus (s : State) (core x : Nat) : (s.commit core x).focus = s.focus :=
  foldl_focus (fun (s : State) (e : Nat × Held) => perform_focus s core x e.2) _ _

theorem commitF_core (s : State) : s.commitF.focus.core = s.focus.core := by
  unfold State.commitF
  split <;> simp

/-! SIGTL (R258, R330). -/

section
variable {a : BitVec 6} {tl : BitVec 12} {g : BitVec 4} {s : State} (hr : Ready g [.s a] [] s)
include hr

/-- R330: SIGTL of a queue of its own ASID, with its accesses performed, is a release at the queue's scope and an increment. -/
theorem does_sigtl {scope : Nat} (htl : tl.toNat < 0x400) (ho : alook tl.toNat s.fe.owner = some (s.fasid, scope))
    (hd : s.commitF.drained (fun _ => true) scope = true)
    (hsys : scope = 5 → s.commitF.hostQuiet = true ∧ s.commitF.fseat.hostFailed = none) (hc : s.commitF.certRoom tl.toNat = true) :
    let inc : Nat := if a = 0 then 1 else ((s.rS a).extractLsb' 0 32).toNat
    Does (.sigtl a tl g) s
      (if inc = 0 then s.commitF else s.commitF.increment tl.toNat inc (s.commitF.fseat.runsOn s.focus.core) 0) := by
  intro inc
  have hquiet : (scope == 5 && !s.commitF.hostQuiet) = false := by
    rw [Bool.and_eq_false_imp]
    exact fun h => by simp [(hsys (beq_iff_eq.mp h)).1]
  have hcheck : s.commitF.hostFailCheck (scope == 5) = .ok () := hostFailCheck_ok fun h => (hsys (beq_iff_eq.mp h)).2
  refine does_of_run (i := .sigtl a tl g) (slotOp_ready hr) ?_
  simp only [if_pos htl, ho, hd, hquiet, hcheck, hc, commitF_core, ok_bind, ne_eq, not_true_eq_false, Bool.not_true, Bool.or_false,
    Bool.false_eq_true, if_false]
  exact (apply_ite Except.ok _ _ _).symm

/-- R330: a TLID beyond the queues, never mapped or of another ASID. -/
theorem raises_sigtl (h : 0x400 ≤ tl.toNat ∨ alook tl.toNat s.fe.owner = none ∨
    (∃ o, alook tl.toNat s.fe.owner = some o ∧ o.1 ≠ s.fasid)) : Raises (.sigtl a tl g) s 0x02 (tl.zeroExtend 64) := by
  refine raises_of_run (i := .sigtl a tl g) (slotOp_ready hr) ?_
  by_cases htl : tl.toNat < 0x400
  · rcases h with h | h | ⟨o, ho, hne⟩
    · exact absurd htl (Nat.not_lt.mpr h)
    · simp only [if_pos htl, h]
    · simp only [if_pos htl, ho, if_pos hne]
  · simp only [if_neg htl]

end

/-- Settles O19: each wait is judged by its timeline, and SIGTL by its queue's owner. -/
theorem timelineInstructionsComplete : Obligations.TimelineInstructionsComplete := by
  intro a tl cert g s hr met
  refine ⟨does_waittl hr, waits_waittl hr, fun h hs => does_waittlSusp hr h ?_, fun h hpers htm hact hseq => ?_,
    fun scope => does_sigtl hr, raises_sigtl hr⟩
  · exact (or_assoc.mpr hs).imp_left staysPut_iff.mpr
  · exact exec_waittlSusp_suspends hr h (staysPut_free hpers htm) hact hseq

end Sys2Proof.Machine
end

section
/-! PROOF. The barrier instructions. -/

namespace Sys2Proof.Machine

/-! Barrier objects (R390 to R392). -/

section
variable {obj : BitVec 5}

theorem isLeaf_true (h : obj.toNat < 16) : isLeaf obj = true := decide_eq_true h

theorem isLeaf_false (h : 16 ≤ obj.toNat) : isLeaf obj = false := decide_eq_false (Nat.not_lt.mpr h)

theorem not_isLeaf (obj : BitVec 5) : (!isLeaf obj) = decide (16 ≤ obj.toNat) := by
  rw [isLeaf, ← decide_not, decide_eq_decide, Nat.not_lt]

variable {s : State}

theorem awaitObj_ok (h : (s.barObj obj).arrived = false) : s.awaitObj obj = .ok () := if_neg (by simp [h])

theorem awaitObj_arrived (h : (s.barObj obj).arrived = true) : s.awaitObj obj = stallX := if_pos h

/-- R390: an arrival raises ARR, saturating, and the object is evaluated. -/
theorem arriveAt_barObj (s : State) (obj : BitVec 5) : s.arriveAt s.focus.core obj.toNat =
    (s.setBarObj obj { s.barObj obj with arr := Nat.min ((s.barObj obj).arr + 1) 65535 }).evalObj obj := by
  by_cases h : obj.toNat < 16
  · simp only [State.arriveAt, State.evalObj, State.setBarObj, State.barObj, isLeaf_true h, if_pos h, if_true, State.setLeaf_focus]
  · simp only [State.arriveAt, State.evalObj, State.setBarObj, State.barObj, isLeaf_false (Nat.not_lt.mp h), if_neg h,
      Bool.false_eq_true, if_false, State.setRoot_focus, clusterOf]

/-- R392: a wait is satisfied where the phase of the parity it names has ended. -/
theorem barDone_iff {a : BitVec 6} : s.barDone obj a = true ↔ (s.barObj obj).phase ≠ (s.rS a).getLsbD 0 := bne_iff_ne

theorem barDone_eq_false_iff {a : BitVec 6} : s.barDone obj a = false ↔ ¬(s.barObj obj).phase ≠ (s.rS a).getLsbD 0 :=
  Bool.eq_false_iff.trans (not_congr barDone_iff)

/-- R393: the state that a satisfied wait leaves: with TR, an overrun of the phase is raised after the bundle. -/
def State.passed (s : State) (obj : BitVec 5) (tr : BitVec 1) : State :=
  if tr = 1 ∧ (s.barObj obj).lstat.getLsbD 8 = true then
    s.modF (fun t => { t with deferred := t.deferred.or (some
      { cause := 0x38, faddr := BitVec.ofNat 64 (s.barObj obj).excess, slot := 3, pblk := false, epc := s.focus.seqNext }) })
  else s

theorem barPass_eq (s : State) (obj : BitVec 5) (tr : BitVec 1) : s.barPass obj tr = .ok (s.passed obj tr) :=
  (apply_ite Except.ok _ _ _).symm

/-! BAR.INIT, BAR.LINK, BAR.EXP and BAR.ARR (R389, R391, R392). -/

variable {a b : BitVec 6} {g : BitVec 4}

section
variable (hr : Ready g [.s a, .s b] [] s)
include hr

/-- R389: an object with no operation counted, nothing arrived and, of a root, no linked leaf arrived, takes its counts. -/
theorem does_barInit (he : (s.rS a).extractLsb' 0 16 ≠ 0) (hm : (s.barObj obj).mxf = 0) (ha : (s.barObj obj).arrived = false)
    (hl : 16 ≤ obj.toNat → s.linkedArrived (clusterOf s.focus.core) (obj.toNat - 16) = false) :
    Does (.barInit obj a b g) s (s.setBarObj obj { s.barObj obj with
      exp := ((s.rS a).extractLsb' 0 16).toNat, pend := ((s.rS b).extractLsb' 0 32).toInt, arr := 0, cstat := 0 }) := by
  refine does_of_run (i := .barInit obj a b g) (slotOp_ready hr) (if_neg ?_)
  rintro (h | h | h | h)
  · exact he h
  · exact h hm
  · rw [ha] at h
    cases h
  · rw [not_isLeaf, Bool.and_eq_true, decide_eq_true_eq] at h
    obtain ⟨hroot, harr⟩ := h
    rw [hl hroot] at harr
    cases harr

theorem raises_barInit (he : (s.rS a).extractLsb' 0 16 = 0) : Raises (.barInit obj a b g) s 0x36 (obj.zeroExtend 64) :=
  raises_of_run (i := .barInit obj a b g) (slotOp_ready hr) (if_pos (.inl he))

end

section
variable (hr : Ready g [] [] s)
include hr

section
variable (ha : (s.barObj obj).arrived = false) (hd : s.loadsDone (fun _ => true) = true)
include ha hd

theorem does_barArr (ho : s.ownLoad = none) : Does (.barArr obj g) s (s.arriveAt s.focus.core obj.toNat) :=
  does_of_run (i := .barArr obj g) (slotOp_ready hr) (by
    simp only [awaitObj_ok ha, hd, ho, ok_bind, Bool.not_true, Bool.false_eq_true, if_false])

/-- R165: with an open vector load of its own bundle the arrival is left to that load's end. -/
theorem does_barArr_later {id : Nat} (ho : s.ownLoad = some id) : Does (.barArr obj g) s
    (s.modFcore (fun c => { c with arrivals := c.arrivals ++ [(s.focus.seat, obj.toNat, id)] })) :=
  does_of_run (i := .barArr obj g) (slotOp_ready hr) (by
    simp only [awaitObj_ok ha, hd, ho, ok_bind, Bool.not_true, Bool.false_eq_true, if_false])

end

theorem waits_barArr (h : (s.barObj obj).arrived = true ∨ s.loadsDone (fun _ => true) = false) : Waits (.barArr obj g) s := by
  refine waits_of_run (i := .barArr obj g) (slotOp_ready hr) ?_
  cases ha : (s.barObj obj).arrived with
  | true => rw [awaitObj_arrived ha]; rfl
  | false => simp only [awaitObj_ok ha, h.resolve_left (by simp [ha]), ok_bind, Bool.not_false, if_true]

end

section
variable (hr : Ready g [.s a] [] s)
include hr

theorem raises_barLink_root (h : 16 ≤ obj.toNat) : Raises (.barLink obj a g) s 0x36 (obj.zeroExtend 64) :=
  raises_of_run (i := .barLink obj a g) (slotOp_ready hr) (if_pos (.inl (by rw [isLeaf_false h]; rfl)))

section
variable (hleaf : obj.toNat < 16) (ha : (s.barObj obj).arrived = false)
include hleaf ha

/-- R391, R392: what BAR.LINK of a leaf that has not arrived comes to. -/
theorem does_barLink (hv : (s.rS a).toNat < 8 ∨ (s.rS a).toNat = 0xFF) :
    let u := s.unlinkLeaf s.focus.core obj.toNat
    let cl := clusterOf s.focus.core
    Does (.barLink obj a g) s (if (s.rS a).toNat = 0xFF then u else
      (u.setRoot cl (s.rS a).toNat { u.root cl (s.rS a).toNat with links := (u.root cl (s.rS a).toNat).links + 1 }).setLeaf
        s.focus.core obj.toNat { u.leaf s.focus.core obj.toNat with link := some (cl, (s.rS a).toNat) }) := by
  intro u cl
  refine does_of_run (i := .barLink obj a g) (slotOp_ready hr) ((if_neg ?_).trans (apply_ite Except.ok _ _ _).symm)
  simp [isLeaf_true hleaf, ha, hv]

theorem does_barLink_none (hv : s.rS a = 0xFF) : Does (.barLink obj a g) s (s.unlinkLeaf s.focus.core obj.toNat) := by
  have hn : (s.rS a).toNat = 0xFF := congrArg BitVec.toNat hv
  simpa only [if_pos hn] using does_barLink hr hleaf ha (.inr hn)

theorem does_barLink_joins (hv : (s.rS a).toNat < 8) : ∃ t, Does (.barLink obj a g) s t ∧
    (t.leaf s.focus.core obj.toNat).link = some (clusterOf s.focus.core, (s.rS a).toNat) := by
  refine ⟨_, does_barLink hr hleaf ha (.inl hv), ?_⟩
  rw [if_neg (by omega), leaf_setLeaf_same]

end

theorem does_barExp (ha : (s.barObj obj).arrived = false) : Does (.barExp obj a g) s ((s.setBarObj obj { s.barObj obj with
    pend := satPend ((s.barObj obj).pend + ((s.rS a).extractLsb' 0 32).toInt) }).evalObj obj) :=
  does_of_run (i := .barExp obj a g) (slotOp_ready hr) (by simp only [awaitObj_ok ha, ok_bind])

end

/-! BAR.WAIT and BAR.WAIT.S (R208, R213, R392, R393). -/

section
variable {tr : BitVec 1} (hr : Ready g [.s a] [] s)
include hr

theorem does_barWait (h : s.barDone obj a = true) : Does (.barWait obj a tr g) s (s.passed obj tr) :=
  does_of_run (i := .barWait obj a tr g) (slotOp_ready hr) ((if_pos h).trans (barPass_eq s obj tr))

theorem waits_barWait (h : s.barDone obj a = false) : Waits (.barWait obj a tr g) s :=
  waits_of_run (i := .barWait obj a tr g) (slotOp_ready hr) (if_neg (by simp [h]))

/-- R213: in a persistent kernel and a handler the suspend form is the stall form. -/
theorem exec_barWaitS_stays (hs : s.staysPut = true) : exec (.barWaitS obj a tr g) s = exec (.barWait obj a tr g) s := by
  have hS : exec (.barWaitS obj a tr g) s = _ := slotOp_ready hr
  have hW : exec (.barWait obj a tr g) s = _ := slotOp_ready hr
  rw [hS, hW, if_pos hs]

section
variable (hs : s.staysPut = false)
include hs

theorem raises_barWaitS_inLoop (hact : stageAct s.src.ctl.stage = true) : Raises (.barWaitS obj a tr g) s 0x04 0 :=
  raises_of_run (i := .barWaitS obj a tr g) (slotOp_ready hr) (by rw [if_neg (by simp [hs]), if_pos hact])

variable (hact : stageAct s.src.ctl.stage = false)
include hact

theorem does_barWaitS (h : s.barDone obj a = true) : Does (.barWaitS obj a tr g) s (s.passed obj tr) :=
  does_of_run (i := .barWaitS obj a tr g) (slotOp_ready hr) (by
    simp only [hs, hact, h, Bool.false_eq_true, if_false, if_true, barPass_eq])

/-- R208: else it suspends its seat on the object. -/
theorem exec_barWaitS_suspends (h : s.barDone obj a = false) (hseq : s.fseat.seq = none) :
    exec (.barWaitS obj a tr g) s =
      .next ((s.suspendF (s.barKey obj a) 0).setStatus (.suspended (s.barKey obj a) 0 0)) := by
  refine (slotOp_ready hr : exec (.barWaitS obj a tr g) s = _).trans ?_
  simp only [hs, hact, h, awaitOwnSeq_idle hseq, ok_bind, Bool.false_eq_true, if_false]
  rfl

end

end

/-! BAR.TEST and BAR.STAT (R392, R394). -/

/-- R394: the view that a register names. -/
theorem view_toNat (v : Word) : (v.extractLsb' 0 2).toNat = v.toNat % 4 := by
  rw [BitVec.extractLsb'_toNat, Nat.shiftRight_zero]

section
variable {d : BitVec 6} (hr : Ready g [.s a] [.s d] s)
include hr

theorem does_barTest : Does (.barTest obj a d g) s (s.wS d (if s.barDone obj a then 1 else 0) (s.after 2)) :=
  does_of_run (i := .barTest obj a d g) (slotOp_ready hr) rfl

theorem does_barStat (h : (s.rS a).toNat % 4 ≠ 3) : Does (.barStat obj a d g) s
    (s.wS d ((s.barObj obj).view (decide (16 ≤ obj.toNat)) ((s.rS a).toNat % 4)) (s.after 2)) := by
  refine does_of_run (i := .barStat obj a d g) (slotOp_ready hr) ?_
  rw [← view_toNat] at h ⊢
  rw [← not_isLeaf]
  exact if_neg h

theorem raises_barStat (h : (s.rS a).toNat % 4 = 3) : Raises (.barStat obj a d g) s 0x36 (obj.zeroExtend 64) :=
  raises_of_run (i := .barStat obj a d g) (slotOp_ready hr) (if_pos ((view_toNat _).trans h))

end

end

/-- Settles O42: each instruction's checks pass, or its first that fails decides. -/
theorem barrierInstructionsComplete : Obligations.BarrierInstructionsComplete := by
  intro obj a b d tr g s o ended pass
  refine ⟨fun hr => ⟨does_barInit hr, raises_barInit hr⟩,
    fun hr => ⟨fun ha hd => ⟨does_barArr hr ha hd, fun id => does_barArr_later hr ha hd⟩, arriveAt_barObj s obj, waits_barArr hr⟩,
    fun hr => ⟨does_barLink_none hr, does_barLink_joins hr, raises_barLink_root hr, does_barExp hr, ?_⟩,
    fun hr => ⟨does_barTest hr, does_barStat hr, raises_barStat hr⟩⟩
  have wait : (ended → Does (.barWait obj a tr g) s pass) ∧ (¬ended → Waits (.barWait obj a tr g) s) :=
    ⟨fun h => does_barWait hr (barDone_iff.mpr h), fun h => waits_barWait hr (barDone_eq_false_iff.mpr h)⟩
  refine ⟨wait.1, wait.2, fun h => ?_, fun hpers htm => ?_⟩
  · rw [Does, Waits, exec_barWaitS_stays hr (staysPut_iff.mpr h)]
    exact wait
  · have hs := staysPut_free hpers htm
    exact ⟨raises_barWaitS_inLoop hr hs, fun hact h => does_barWaitS hr hs hact (barDone_iff.mpr h),
      fun hact h => exec_barWaitS_suspends hr hs hact (barDone_eq_false_iff.mpr h)⟩

end Sys2Proof.Machine
end

section
/-! PROOF. The scheduler's device steps: boundary causes, placement, waits, pre-emption and migration. -/

namespace Sys2Proof.Machine

section
variable {core seat die : Nat} {s : State}

section
variable (hcore : core < 400)
include hcore

section
variable (hseat : seat < 2)
include hseat

theorem seatThere_of_lt : (coreThere core && decide (seat < 2)) = true := by
  simp [coreThere_of_lt hcore, hseat]

/-! Boundary events (R226, R435, R448). -/

theorem exec_trapEntry {u : State} (hs : (s.seatAt core seat).shadow = false) (ht : (s.core core).tile = .on)
    (hu : s.boundaryCause core seat = some u) : exec (.trapEntry core seat) s = .next u :=
  dev_next (seatThere_of_lt hcore hseat) ((if_neg (by simp [hs, ht])).trans hu)

/-- R226: HANG names the register on which a running seat stalls. -/
theorem exec_watchdog_running {r : BitVec 8} {w : Stall} (hl : s.hangLimit (dieOf core) ≠ 0) (hc : (s.core core).stopping = none)
    (hs : (s.seatAt core seat).shadow = false) (hrun : (s.seatAt core seat).run = .running)
    (hw : (s.seatAt core seat).stall = some w) (hr : w.reg = some r) :
    exec (.watchdog core seat) s = .next (s.setSeat core seat
      { s.seatAt core seat with async := (s.seatAt core seat).async ++ [(0x51#8, r.zeroExtend 64)] }) := by
  obtain ⟨reg, waitv, score⟩ := w
  subst hr
  exact dev_next (seatThere_of_lt hcore hseat) ((if_neg (by simp [hl, hc, hs])).trans (by simp only [hrun, hw]))

/-! Placement (R215, R447). -/

theorem exec_continuationPlace {d : Nat} {e : PoolEntry} {c : Cont} (hb : bestItem (s.candidates core seat) = some (d, e))
    (hi : e.item = .record c) : exec (.continuationPlace core seat) s = .next ((s.dropItem d e.id).placeSeat core seat c) :=
  dev_next (seatThere_of_lt hcore hseat) (by simp only [hb, hi])

end

theorem exec_frameRestore (hdie : die < 4) {e : PoolEntry} {f : FrameRef} (hb : bestItem (s.candidates core 0) = some (die, e))
    (hi : e.item = .frame f) :
    exec (.frameRestore die e.id core) s = .next ((s.dropItem die e.id).restoreFrame die core f) :=
  dev_next (by simp [coreThere_of_lt hcore, hdie]) (by simp only [hb, hi, and_self, if_true])

/-! The save of a core (R235, R449). -/

section
variable {f : Nat} {c : Bool} {w : Option (Nat × Nat)} (hs : (s.core core).stopping = some (.preempt f c w))
include hs

theorem exec_preemptSaveComplete (h0 : s.seatStill core 0 = true) (h1 : s.seatStill core 1 = true) (hd : s.coreDrained core = true) :
    exec (.preemptSaveComplete core) s = .next (s.saveContext core f c w) :=
  dev_next (coreThere_of_lt hcore) (by simp only [hs, h0, h1, hd, Bool.and_self, if_true])

theorem exec_saveDeadline_preempt : exec (.saveDeadline core) s = .next (s.saveLate core) :=
  dev_next (coreThere_of_lt hcore) (by simp only [hs])

end

/-! The stop of a migration (R232, R234). -/

section
variable {b : Nat} (hs : (s.core core).stopping = some (.migrate b))
include hs

theorem exec_migrationStop_transfers {lcid t : Nat} (hm : s.fe.migBusy = some (lcid, t)) (ht : s.targetOn core b = true)
    (h0 : s.atSafePoint core 0 = true) (h1 : s.atSafePoint core 1 = true) (hd : s.matrixDone core = true) :
    exec (.migrationStop core) s = .next (s.transfer core b lcid 0) :=
  dev_next (coreThere_of_lt hcore) (by simp only [hm, hs, ht, h0, h1, hd, Bool.and_self, if_true])

theorem exec_migrationFallback (h : s.atSafePoint core 0 = false ∨ s.atSafePoint core 1 = false) :
    exec (.migrationFallback core) s = .next (s.modCore core (fun c => { c with stopping := some (.fallback b) })) := by
  have hpoint : ¬(s.atSafePoint core 0 && s.atSafePoint core 1) = true := by rcases h with h | h <;> simp [h]
  exact dev_next (coreThere_of_lt hcore) (by simp only [hs, if_neg hpoint])

end

end

/-! Ageing, the placement bound and waits (R209, R215, R216). -/

section
variable (hdie : die < 4) {id : Nat}
include hdie

/-- R215: a record below priority 7 rises by one, and goes to the tail of its level. -/
theorem exec_ageing_record {e : PoolEntry} {c : Cont} (he : s.poolEntry die id = some e) (hi : e.item = .record c) (hp : c.prio ≠ 7)
    (ha : (s.placeCtl die).extractLsb' 16 16 ≠ 0) : exec (.ageing die id) s = .next (s.modDie die (fun x =>
      { x with pool := x.pool.filter (fun y => y.id != id) ++ [{ e with item := .record c.raise }] })) := by
  have hrise : ¬((PoolItem.record c).prio = 7 ∨ (s.placeCtl die).extractLsb' 16 16 = 0) := not_or.mpr ⟨hp, ha⟩
  exact dev_next (decide_eq_true hdie) (by simp only [he, hi, if_neg hrise, State.raiseItem])

section
variable {e : PoolEntry} (he : s.poolEntry die id = some e) (hp : s.itemUnplaceable e.item = false)
include he hp

theorem exec_placementBound_late (hv : chooseVictim (s.victims e.item) = none) :
    exec (.placementBound die id) s = .next (s.placeLate die) :=
  dev_next (decide_eq_true hdie) (by simp only [he, hp, hv, Bool.false_eq_true, if_false])

theorem exec_placementBound_victim {n x p a : Nat} (hv : chooseVictim (s.victims e.item) = some (n, x, p, a)) :
    exec (.placementBound die id) s = .next (s.makeRoom die id n x) :=
  dev_next (decide_eq_true hdie) (by simp only [he, hp, hv, Bool.false_eq_true, if_false])

end

theorem exec_waitWake_ready {w : WaitEntry} (hact : s.active = true) (hw : alook id (s.die die).waits = some w)
    (hk : s.keyReady w.key = true) : exec (.waitWake die id) s = .next (s.wake die id w.cont) :=
  dev_next (decide_eq_true hdie) (by simp only [hw, hk, hact, Bool.and_self, if_true])

end

/-- R442: a core that does not stop, and for which a frame is found, begins to be saved. -/
theorem makeRoom_begins {id n x : Nat} {u : State} (hn : (s.core n).stopping = none)
    (hu : s.beginPreempt n false (some (id, x)) = some u) : s.makeRoom die id n x = u := by
  simp only [State.makeRoom, hn, hu]

/-! Requests (R231, R441). -/

theorem exec_preemptRequest {lcid : Nat} (h : lcid < 512) :
    exec (.preemptRequest lcid) s = .next (s.preCmd (dieOf (lcidPhys (s.lcidEntry lcid)) % 4) lcid) :=
  dev_next (decide_eq_true h) rfl

theorem exec_migrationRequest {lcid target : Nat} (h : lcid < 512) (ht : target < 512) :
    exec (.migrationRequest lcid target) s = .next (s.migrate lcid target) :=
  dev_next (decide_eq_true ⟨h, ht⟩) rfl

end

/-- Settles O50: each row's unit exists, its condition holds, and its branch is the one that the case names. -/
theorem schedulingRowsComplete : Obligations.SchedulingRowsComplete := by
  intro core seat die s hcore hseat hdie
  exact ⟨fun u => exec_trapEntry hcore hseat, fun r w => exec_watchdog_running hcore hseat,
    fun d e c => exec_continuationPlace hcore hseat, fun e f => exec_frameRestore hcore hdie, fun id e c => exec_ageing_record hdie,
    fun id e he hp => ⟨exec_placementBound_late hdie he hp,
      fun n x p a hv => ⟨exec_placementBound_victim hdie he hp hv, fun u => makeRoom_begins⟩⟩,
    fun id w => exec_waitWake_ready hdie, fun lcid => exec_preemptRequest,
    fun f c w hs => ⟨exec_preemptSaveComplete hcore hs, exec_saveDeadline_preempt hcore hs⟩,
    fun lcid target => exec_migrationRequest,
    fun b lcid t hm hs => ⟨exec_migrationStop_transfers hcore hs hm, exec_migrationFallback hcore hs⟩⟩

end Sys2Proof.Machine
end

section
/-! PROOF. The queue slots: kicks, slot commands, the fetch of a head packet and its completion, and TLADD. -/

namespace Sys2Proof.Machine

/-- R242: a slot that enters a state is in it. -/
@[simp] theorem enter_state (g : HwSlot) (n : Nat) : (g.enter n).state = n := by
  simp only [HwSlot.enter]
  split <;> rfl

section
variable {s : State}

/-! Kicks (R240, R241). -/

/-- R240: the word of a kick is kept for its queue. -/
def State.keepKick (s : State) (q : Nat) (w : W32) : State := { s with fe := { s.fe with kick := aput q w s.fe.kick } }

/-- R241: the kick of a queue that is not active sets its pending bit, with its cause, unless that is set. -/
def State.pendKick (s : State) (q : Nat) : State := if s.kpendBit q then s else (s.setKpend q true).raiseFw 0

theorem overrun_far {k : Nat}
    (h : (s.slotAt k).state = 1 ∧ (s.slotAt k).units < ((s.slotAt k).wptr + 2 ^ 32 - (s.slotAt k).rptr) % 2 ^ 32) :
    s.overrun k = s.queueError k (s.slotAt k).rptr 0x3E 0x10 0 := if_pos h

theorem overrun_near {k : Nat}
    (h : ¬((s.slotAt k).state = 1 ∧ (s.slotAt k).units < ((s.slotAt k).wptr + 2 ^ 32 - (s.slotAt k).rptr) % 2 ^ 32)) :
    s.overrun k = s := if_neg h

section
variable {q k : Nat} (w : W32)

theorem exec_kick (hq : q < 1024) : exec (.kick q w) s = .next (s.kick q w) := dev_next (decide_eq_true hq) rfl

theorem kick_active (hk : s.slotOf q = some k) (hs : (s.slotAt k).state = 1) :
    s.kick q w = ((s.keepKick q w).setSlot k
      { (s.slotAt k).setField 0x1C 4 w.toNat with block := if (s.slotAt k).block ≤ 2 then 0 else (s.slotAt k).block }).overrun k := by
  have hku : (s.keepKick q w).slotOf q = some k := hk
  unfold State.keepKick at hku ⊢
  simp only [State.kick, hku]
  exact if_pos hs

theorem kick_unmapped (hk : s.slotOf q = none) : s.kick q w = (s.keepKick q w).pendKick q := by
  have hku : (s.keepKick q w).slotOf q = none := hk
  unfold State.keepKick at hku ⊢
  simp only [State.kick, hku, State.pendKick]

theorem kick_inactive (hk : s.slotOf q = some k) (hs : (s.slotAt k).state ≠ 1) : s.kick q w = (s.keepKick q w).pendKick q := by
  have hku : (s.keepKick q w).slotOf q = some k := hk
  unfold State.keepKick at hku ⊢
  simp only [State.kick, hku, State.pendKick]
  exact if_neg hs

end

/-! Slot commands (R243). -/

section
variable {slot : Nat} {t : State}

section
variable (hslot : slot < 32)
include hslot

theorem exec_map (h : s.mapSlot slot = t) : exec (.map slot) s = .next t := dev_next (decide_eq_true hslot) (congrArg some h)
theorem exec_park (h : s.parkSlot slot = t) : exec (.park slot) s = .next t := dev_next (decide_eq_true hslot) (congrArg some h)
theorem exec_resume (h : s.resumeSlot slot = t) : exec (.resume slot) s = .next t := dev_next (decide_eq_true hslot) (congrArg some h)
theorem exec_unmap (h : s.unmapSlot slot = t) : exec (.unmap slot) s = .next t := dev_next (decide_eq_true hslot) (congrArg some h)

/-- R243, R260: a slot that is PARKING and awaits no CAS reaches PARKED. -/
theorem exec_parkComplete (h : (s.slotAt slot).state = 2) (hc : (s.slotAt slot).casOut = false) :
    exec (.parkComplete slot) s = .next ((s.setSlot slot ((s.slotAt slot).enter 3)).mirrorRptr slot true) :=
  dev_next (decide_eq_true hslot) (if_pos ⟨h, hc⟩)

end

theorem mapSlot_mapped (h : (s.slotAt slot).state ≠ 0) : s.mapSlot slot = s.cmdErr slot := if_pos h

theorem mapSlot_bad (h : (s.slotAt slot).state = 0) (hb : s.mapBad (s.slotAt slot) = true) :
    s.mapSlot slot = s.setSlot slot { s.slotAt slot with mapErr := true } :=
  (if_neg (fun q => q h)).trans (if_pos hb)

/-- R243: the slot of a window that MAP takes: ACTIVE, with WPTR from the kick. -/
def State.mapped (s : State) (g : HwSlot) : HwSlot :=
  (({ g with casOut := false } : HwSlot).setField 0x1C 4 (aget 0 g.qnum s.fe.kick).toNat).enter 1

/-- R243, R330: a good window is mapped, its queue's pending bit cleared and its owner noted. -/
theorem mapSlot_good (h : (s.slotAt slot).state = 0) (hb : s.mapBad (s.slotAt slot) = false) :
    let g := s.mapped (s.slotAt slot)
    let u := (s.setSlot slot { g with mirrorRptr := some g.rptr }).setKpend g.qnum false
    s.mapSlot slot = ({ u with fe := { u.fe with owner := aput g.qnum (g.asid, g.scope) u.fe.owner } } : State).overrun slot :=
  (if_neg (fun q => q h)).trans (if_neg (Bool.eq_false_iff.mp hb))

theorem parkSlot_active (h : (s.slotAt slot).state = 1) : s.parkSlot slot = s.setSlot slot ((s.slotAt slot).enter 2) := if_pos h

theorem parkSlot_inactive (h : (s.slotAt slot).state ≠ 1) : s.parkSlot slot = s.cmdErr slot := if_neg h

/-- R243: a slot in ERROR or FETCHFAULT resumes with its error fields cleared. -/
theorem resumeSlot_stopped (h : (s.slotAt slot).state = 4 ∨ (s.slotAt slot).state = 5) :
    s.resumeSlot slot =
      (s.setSlot slot ((((s.slotAt slot).setField 0x21 1 0).setField 0x22 1 0).enter 1)).overrun slot := if_pos h

/-- R243: a parked slot resumes with WPTR from the kick. -/
theorem resumeSlot_parked (h : (s.slotAt slot).state = 3) :
    s.resumeSlot slot = (s.setSlot slot (((s.slotAt slot).setField 0x1C 4 (aget 0 (s.slotAt slot).qnum s.fe.kick).toNat).enter 1)).overrun slot :=
  (if_neg (by omega)).trans (if_pos h)

theorem resumeSlot_unlisted (h : (s.slotAt slot).state ≠ 3 ∧ (s.slotAt slot).state ≠ 4 ∧ (s.slotAt slot).state ≠ 5) :
    s.resumeSlot slot = s.cmdErr slot := (if_neg (by omega)).trans (if_neg h.1)

theorem unmapSlot_stopped (h : (s.slotAt slot).state = 3 ∨ (s.slotAt slot).state = 4 ∨ (s.slotAt slot).state = 5) :
    s.unmapSlot slot = s.setSlot slot { (s.slotAt slot).enter 0 with qcb := (s.slotAt slot).qcb } := if_pos h

theorem unmapSlot_unlisted (h : (s.slotAt slot).state ≠ 3 ∧ (s.slotAt slot).state ≠ 4 ∧ (s.slotAt slot).state ≠ 5) :
    s.unmapSlot slot = s.cmdErr slot := if_neg (by omega)

/-! The fetch of a packet (R245, R249). -/

/-- R245: in ACTIVE power, an ACTIVE slot without a head packet that its fetcher takes next fetches. -/
theorem exec_packetFetch (hslot : slot < 32) (hp : s.power.state = 0) (ha : (s.slotAt slot).state = 1) (hh : (s.slotAt slot).head = none)
    (ho : (s.slotAt slot).hostOut = none) (hn : s.servedAfter slot = false) (ht : s.fetchPacket slot = t) :
    exec (.packetFetch slot) s = .next t :=
  dev_next (decide_eq_true hslot) ((if_neg (by simp [hp, ha, hh, ho, hn])).trans (congrArg some ht))

theorem fetchPacket_empty (h : (s.slotAt slot).rptr = (s.slotAt slot).wptr) :
    s.fetchPacket slot = s.setSlot slot { s.slotAt slot with block := 1 } := if_pos h

/-- R249: a packet within its ring and its kick that passes its checks is the slot's head packet. -/
theorem fetchPacket_taken {u : State} {b c : List Byte} (h : (s.slotAt slot).rptr ≠ (s.slotAt slot).wptr)
    (hf : s.feRead slot ((s.slotAt slot).unitsVa 1) = .got t b) (h0 : pktLen b ≠ 0) (hr : pktLen b ≤ (s.slotAt slot).units)
    (hk : pktLen b ≤ ((s.slotAt slot).wptr + 2 ^ 32 - (s.slotAt slot).rptr) % 2 ^ 32)
    (hw : t.feRead slot ((s.slotAt slot).unitsVa (pktLen b)) = .got u c) (hc : u.packetCheck (s.slotAt slot) c = none) :
    s.fetchPacket slot = u.setSlot slot { u.slotAt slot with head := some c, block := 0, hostOut := none, hostData := [] } := by
  have hlen : ¬(pktLen b = 0 ∨ (s.slotAt slot).units < pktLen b) := not_or.mpr ⟨h0, Nat.not_lt.mpr hr⟩
  simp only [State.fetchPacket, if_neg h, hf, if_neg hlen, if_neg (Nat.not_lt.mpr hk), hw, hc]

end

/-! Completion and timelines (R257, R259). -/

section
variable {id : Nat} {p : Packet}

theorem exec_packetComplete (ha : s.active = true) (hp : alook id s.fe.packets = some p) (hr : s.packetReady id p = true) :
    exec (.packetComplete id) s = .next (s.finishPacket id p) :=
  dev_next rfl (by simp only [hp, hr, ha, Bool.and_self, if_true])

/-- R259: a packet with no entry, fault, increment or interrupt leaves nothing but its record. -/
theorem finishPacket_plain (he : p.entry = none) (hf : p.fault = none) (hq : p.seq = none) (hg : p.flags = 0) :
    s.finishPacket id p = { s with fe := { s.fe with packets := adel id s.fe.packets } } := by
  simp only [State.finishPacket, he, hf, hq, hg]
  rfl

end

section
variable {t : Nat} {v : Word}

theorem exec_tladd (ht : t < 0x4A0) : exec (.tladd t v) s = .next (s.tladd t v) := dev_next (decide_eq_true ht) rfl

theorem tladd_small (hv : v.toNat < 2 ^ 63) :
    s.tladd t v = (s.setTl t { s.tl t with value := (s.tl t).value + v, cert := (s.tl t).cert + v }).mirror t :=
  if_neg (Nat.not_le.mpr hv)

theorem tladd_large (hv : 2 ^ 63 ≤ v.toNat) : s.tladd t v = s := if_pos hv

end

end

/-- Settles O51: each row's slot or queue exists, and its branch is the one that the slot's state names. -/
theorem queueCommandsComplete : Obligations.QueueCommandsComplete := by
  intro slot s hslot h onKick
  refine ⟨enter_state, fun q w hq => ⟨aget_aput_same 0 q w s.fe.kick, fun k hk hs => ?_, fun hk => ?_⟩,
    fun u => ⟨overrun_far, overrun_near⟩, fun h0 hb => exec_map hslot (mapSlot_bad h0 hb), fun h0 hb => exec_map hslot (mapSlot_good h0 hb),
    fun h0 => exec_map hslot (mapSlot_mapped h0), fun h1 => exec_park hslot (parkSlot_active h1),
    fun h1 => exec_park hslot (parkSlot_inactive h1), exec_parkComplete hslot, fun hs => exec_resume hslot (resumeSlot_stopped hs),
    fun h3 => exec_resume hslot (resumeSlot_parked h3), fun hs => exec_unmap hslot (unmapSlot_stopped hs),
    fun hs => ⟨exec_resume hslot (resumeSlot_unlisted hs), exec_unmap hslot (unmapSlot_unlisted hs)⟩,
    fun hp ha hh ho hn => ⟨fun he => exec_packetFetch hslot hp ha hh ho hn (fetchPacket_empty he),
      fun t b u c he hf h0 hr hk hw hc => exec_packetFetch hslot hp ha hh ho hn (fetchPacket_taken he hf h0 hr hk hw hc)⟩,
    fun id p ha hp hr => ⟨exec_packetComplete ha hp hr, finishPacket_plain⟩, fun t v ht => ⟨fun hv => ?_, fun hv => ?_⟩⟩
  · exact (exec_kick w hq).trans (congrArg _ (kick_active w hk hs))
  · rcases hk with hk | ⟨k, hk, hs⟩
    · exact (exec_kick w hq).trans (congrArg _ (kick_unmapped w hk))
    · exact (exec_kick w hq).trans (congrArg _ (kick_inactive w hk hs))
  · exact (exec_tladd ht).trans (congrArg _ (tladd_small hv))
  · exact (exec_tladd ht).trans (congrArg _ (tladd_large hv))

end Sys2Proof.Machine
end

section
/-! PROOF. The world outside: requests of the host and their answers, doorbells and vectors, frames and links, media streams, and the
debug registers. -/

namespace Sys2Proof.Machine

section
variable {s : State}

/-! Requests of the host (R490 to R494). -/

section
variable {a : HostAccess}

theorem accessBusy_ctl (h : (askRange a).1 < 0x100000000) : s.accessBusy a = false := by
  simp only [State.accessBusy, decide_eq_false (Nat.not_le.mpr h), Bool.false_and]

theorem accessBusy_disabled (h : s.aperture (askRange a).1 = none) : s.accessBusy a = false := by
  simp only [State.accessBusy, h, Bool.and_false]

theorem accessBusy_enabled {pa : Nat} (h : s.aperture (askRange a).1 = some pa) (hp : s.pinBusy pa = false) : s.accessBusy a = false := by
  simp only [State.accessBusy, h, hp, Bool.and_false]

/-- R490, R491: in ACTIVE with a trained link, a request of 1 to 64 bytes within a block of the region. -/
structure HostAsked (s : State) (a : HostAccess) : Prop where
  power : s.power.state = 0
  trained : s.host.modules ≠ 0
  inRegion : (askRange a).1 < 0x200000000
  nonempty : 1 ≤ (askRange a).2
  inBlock : (askRange a).1 % 64 + (askRange a).2 ≤ 64

/-- R490: such a request whose page is neither being pinned nor unpinned is performed. -/
theorem HostAsked.served {row : String} {t : State} (h : HostAsked s a) (hb : s.accessBusy a = false) (ht : s.replays.hostServe a = t) :
    hostAsk row a s = .next t := by
  obtain ⟨hpower, htrained, hregion, hone, hblock⟩ := h
  have hsize : ¬((askRange a).2 = 0 ∨ 64 < (askRange a).1 % 64 + (askRange a).2 ∨ 2 < s.power.state) := by omega
  refine dev_next (decide_eq_true hregion) ?_
  rw [if_neg hsize, if_neg (fun q => q hpower), if_neg htrained, hb, if_neg Bool.false_ne_true, ht]

end

section
variable {off : Nat} (hoff : 0x100000000 ≤ off)
include hoff

theorem hostServe_read (size : Nat) : s.hostServe (.read off size) = s.answer (s.apertureRead off size) := if_neg (Nat.not_lt.mpr hoff)

theorem hostServe_write (bytes : List (Option Byte)) : s.hostServe (.write off bytes) = s.apertureWrite off bytes :=
  if_neg (Nat.not_lt.mpr hoff)

/-- R403, R494: an atomic through an enabled aperture answers with the old value. -/
theorem hostServe_atomic {size pa : Nat} (op : AmoOp) (x y : Word) (hs : size = 4 ∨ size = 8) (hm : off % size = 0)
    (hpa : s.aperture off = some pa) (hp : s.poisoned pa = false) :
    s.hostServe (.atomic off size op x y) = (s.amoAt pa op size x y).2.answer (some (natToBytes size (s.amoAt pa op size x y).1.toNat)) := by
  have hsized : ctlSized off size = true := by rcases hs with rfl | rfl <;> simp [ctlSized, hm]
  have hregion : ¬(off < 0x100000000 ∨ ctlSized off size = false) := by simp [hsized, hoff]
  simp only [State.hostServe, if_neg hregion, hpa, hp, Bool.false_eq_true, if_false]

end

/-- R493: control space takes no atomics. -/
theorem hostServe_atomic_ctl {off : Nat} (size : Nat) (op : AmoOp) (x y : Word) (h : off < 0x100000000) :
    s.hostServe (.atomic off size op x y) = s.answer none := if_pos (.inl h)

/-! Accesses through an aperture (R494). -/

section
variable {off : Nat}

/-- What a read through an aperture comes to, by what the aperture maps to. It is unfolded as a function: of its value at an argument,
the kernel would compute the aperture's register, with a product by 2^32 that it counts out. -/
theorem apertureRead_eq (n : Nat) {o : Option Nat} (h : s.aperture off = o) : s.apertureRead off n =
    o.elim (some (List.replicate n 0)) (fun pa => if s.poisoned pa then none else some ((List.range n).map (fun i => s.homeByte (pa + i)))) := by
  suffices hf : ∀ f, f = @State.apertureRead → f s off n = _ from hf _ rfl
  intro f hf
  delta State.apertureRead at hf
  rw [hf]
  dsimp -zeta only
  rw [h]
  cases o <;> rfl

theorem apertureRead_disabled (n : Nat) (h : s.aperture off = none) : s.apertureRead off n = some (List.replicate n 0) :=
  apertureRead_eq n h

theorem apertureRead_sound {pa : Nat} (n : Nat) (h : s.aperture off = some pa) (hp : s.poisoned pa = false) :
    s.apertureRead off n = some ((List.range n).map (fun i => s.homeByte (pa + i))) :=
  (apertureRead_eq n h).trans (if_neg (Bool.eq_false_iff.mp hp))

theorem apertureRead_poisoned {pa : Nat} (n : Nat) (h : s.aperture off = some pa) (hp : s.poisoned pa = true) :
    s.apertureRead off n = none := (apertureRead_eq n h).trans (if_pos hp)

/-- R494: a byte of a write through an aperture, where its mask bit is set. -/
def State.putAt (s : State) (pa : Nat) (e : Nat × Option Byte) : State := match e.2 with
  | some b => s.putHome (pa + e.1) b
  | none => s

/-- What a write through an aperture comes to, by what the aperture maps to; unfolded likewise. -/
theorem apertureWrite_eq (bytes : List (Option Byte)) {o : Option Nat} (h : s.aperture off = o) :
    s.apertureWrite off bytes = o.elim s (fun pa =>
      let t := ((List.range bytes.length).zip bytes).foldl (fun u e => u.putAt pa e) s
      if bytes.length = 64 ∧ bytes.all (·.isSome) then t.wholeTag .home pa 0 else t) := by
  suffices hf : ∀ f, f = @State.apertureWrite → f s off bytes = _ from hf _ rfl
  intro f hf
  delta State.apertureWrite at hf
  rw [hf]
  dsimp -zeta only
  rw [h]
  cases o <;> rfl

theorem apertureWrite_disabled (bytes : List (Option Byte)) (h : s.aperture off = none) : s.apertureWrite off bytes = s :=
  apertureWrite_eq bytes h

/-- R494: a write of less than a block sets no tag. -/
theorem apertureWrite_part {pa : Nat} {bytes : List (Option Byte)} (hb : bytes.length < 64) (h : s.aperture off = some pa) :
    s.apertureWrite off bytes = ((List.range bytes.length).zip bytes).foldl (fun u e => u.putAt pa e) s :=
  (apertureWrite_eq bytes h).trans (if_neg (fun q => Nat.ne_of_lt hb q.1))

end

/-! Answers of the host (R495, R496, R498). -/

/-- R495: a request leaves the port. -/
def State.reqOver (s : State) (id : Nat) : State := { s with host := { s.host with reqs := adel id s.host.reqs } }

section
variable {id : Nat} {r : HostReq} (hr : alook id s.host.reqs = some r) (hu : r.use = .engine)
include hr hu

/-- R498: a failed write of an engine is kept in HLERR. -/
theorem hostDone_engine_failed : s.hostDone id none = some (((s.reqOver id).hostError r.asid r.addr).hostRelease [id]) := by
  simp [State.hostDone, hr, hu, State.answerWaits, State.hostFill, State.serve, State.reqOver]

/-- R495: an answer to an engine's request has the bytes that a read asks for; it shows in the caches. -/
theorem hostDone_engine_done {d : List Byte} (hd : r.write = true ∨ d.length = r.size) :
    s.hostDone id (some d) = some (((s.reqOver id).hostRelease [id]).hostFill r (some d)) := by
  have hfits : (!r.write && d.length != r.size) = false := by rcases hd with h | h <;> simp [h]
  simp [State.hostDone, hr, hu, hfits, State.answerWaits, State.serve, State.reqOver]

end

theorem exec_hostLinkTimeout {id : Nat} {t : State} (h : s.hostDone id none = some t) : exec (.hostLinkTimeout id) s = .next t :=
  dev_next (row := "HOST_LINK_TIMEOUT") rfl h

/-- R495: an answer needs a trained link; a link error does not. -/
theorem exec_hostCompletion {id : Nat} {data : Option (List Byte)} {t : State} (hm : data = none ∨ s.host.modules ≠ 0)
    (h : s.replays.hostDone id data = some t) : exec (.hostCompletion id data) s = .next t :=
  dev_next (row := "HOST_COMPLETION") rfl ((if_neg (by rcases hm with hm | hm <;> simp [hm])).trans h)

/-! The link, vectors and doorbells (R263, R490, R497). -/

theorem exec_hostLinkTraining {n : Nat} (h : n ≤ 2) :
    exec (.hostLinkTraining n) s = .next { s with host := { s.host with modules := n } } :=
  dev_next (row := "HOST_LINK_TRAINING") rfl (if_neg (Nat.not_lt.mpr h))

section
variable {v : Nat} {en : Bool}

theorem exec_hivtEnable (h : v < 64) : exec (.hivtEnable v en) s = .next (s.setVector v en) := dev_next (decide_eq_true h) rfl

theorem setVector_quiet (h : en = false ∨ alook v s.host.hivtPend = none) :
    s.setVector v en = s.setCtlW (hivtAt v + 0xC) (if en then 1 else 0) :=
  if_neg (by rcases h with h | h <;> simp [State.setCtlW, h])

/-- R497: the enable of a vector lets a held event go. -/
theorem setVector_sends (he : en = true) (h : (alook v s.host.hivtPend).isSome = true) :
    s.setVector v en = (s.setCtlW (hivtAt v + 0xC) (if en then 1 else 0)).sendVector v :=
  if_pos (by rw [he]; exact h)

end

/-- R263: the host posts with 1 and firmware takes with 0. -/
theorem writePort_h2f (v : W32) : s.writePort (if v.getLsbD 0 then .host else .fw) 0x01040080 v =
    if v.getLsbD 0 then s.hostBell else { s with host := { s.host with h2f := 0 } } := by
  unfold State.writePort
  cases v.getLsbD 0 <;> simp

/-- R263: firmware posts with 1 and the host takes with 0. -/
theorem writePort_f2h (v : W32) : s.writePort (if v.getLsbD 0 then .fw else .host) 0x01040084 v =
    if v.getLsbD 0 then s.fwBell else { s with host := { s.host with f2h := 0 } } := by
  unfold State.writePort
  cases v.getLsbD 0 <;> simp

/-! Frames, links and the time unit (R500 to R503). -/

section
variable {port : Nat} (hport : port < 16)
include hport

/-- R500: in ACTIVE a frame of 64 to 9,216 bytes is delivered, unless its fragment waits for a page. -/
theorem exec_ethFrameReceive {f : List Byte} {t : State} (hp : s.power.state = 0) (h1 : 64 ≤ f.length) (h2 : f.length ≤ 9216)
    (hw : s.frameFragment port f = none ∨ s.pinsQuiet = true) (ht : s.deliver port f = t) : exec (.ethFrameReceive port f) s = .next t := by
  have hlen : ¬(f.length < 64 ∨ 9216 < f.length) := by omega
  have hgoes : ¬((s.frameFragment port f).isSome = true ∧ s.pinsQuiet = false) := by rcases hw with h | h <;> simp [h]
  exact dev_next (decide_eq_true hport) ((if_neg hlen).trans ((if_pos hp).trans ((if_neg hgoes).trans (congrArg some ht))))

theorem exec_ethLinkChange (up : Bool) (hp : s.power.state = 0) : exec (.ethLinkChange port up) s =
    .next (({ s with net := { s.net with linkUp := aput port up s.net.linkUp } } : State).retryColls) :=
  dev_next (decide_eq_true hport) (if_neg (by simp [hp]))

end

theorem deliver_plain {port : Nat} {f : List Byte} (h : s.frameFragment port f = none) : s.deliver port f = s.record port f := by
  simp only [State.deliver, h]

theorem deliver_fragment {port : Nat} {f : List Byte} {g : CollFrag} (h : s.frameFragment port f = some g) :
    s.deliver port f = (s.record port f).fragment g := by
  simp only [State.deliver, h]

/-! Receive streams (R512, R513, R515). -/

/-- R515: the stream opens its next frame as one that is skipped. -/
def State.startSkipped (s : State) (k : Nat) : State :=
  let x := s.stream k
  let f : MediaFrame := { number := x.nextFrame, skipped := true, slot := 0, buffers := [], ts := none, firstTime := [], raw := [],
                          arrived := [], groups := 0, seqA := [], seqB := [] }
  ((s.modStream k (fun y =>
    { y with frames := y.frames ++ [f], nextFrame := (y.nextFrame + 1) % 2 ^ 32, hostOut := none, hostData := [] })).streamCount k 4 1).raiseVector 48

section
variable {k : Nat} (hk : k < 128) (hopen : (s.stream k).isOpen = true) (hout : (s.stream k).hostOut = none) (hq : s.pinsQuiet = true)
include hk hopen hout hq

/-- R515: without buffers, a frame starts as skipped; an audio stream's second waits for the first packet. -/
theorem exec_frameStart_skipped (hb : (s.stream k).buffers = [])
    (ha : essOf (s.stream k).desc ≠ 1 ∨ (s.stream k).anchor.isSome = true ∨ (s.stream k).nextFrame = 0) :
    exec (.frameStart k) s = .next (s.startSkipped k) := by
  have hmay : (essOf (s.stream k).desc == 1 && (s.stream k).anchor.isNone && (s.stream k).nextFrame != 0) = false := by
    rcases ha with h | h | h
    · simp [h]
    · simp [Option.isNone_eq_false_iff.mpr h]
    · simp [h]
  exact dev_next (decide_eq_true hk) (by
    simp only [hopen, hout, hq, hmay, hb, List.isEmpty_nil, Bool.not_true, Option.isSome_none, Bool.or_self, Bool.true_or,
      Bool.false_eq_true, if_false, if_true]
    rfl)

theorem exec_rtpPacketReceive {path : Nat} {pkt : RtpPacket} {u : State} (hp : s.power.state = 0) (hpath : path < 2)
    (hm : pathMatch (s.stream k).desc path pkt.srcIp.toNat pkt.dstIp.toNat pkt.udpPort.toNat (pkt.payloadType.toNat % 128) = true)
    (hu : s.rtp k path pkt = some u) : exec (.rtpPacketReceive k path pkt) s = .next u :=
  dev_next (decide_eq_true ⟨hk, hpath⟩) ((if_neg (by simp [hopen, hout, hq, hp, hm])).trans hu)

/-- R513: the oldest frame closes, and what waited for it goes on. -/
theorem exec_frameDeadline {u : State} {l : List Byte} (hf : (s.stream k).frames ≠ [])
    (ha : essOf (s.stream k).desc ≠ 1 ∨ (s.stream k).anchor.isSome = true) (hc : s.closeHead k = .got u l) :
    exec (.frameDeadline k) s = .next (u.advance k) := by
  have hmay : (essOf (s.stream k).desc == 1 && (s.stream k).anchor.isNone) = false := by
    rcases ha with h | h
    · simp [h]
    · simp [Option.isNone_eq_false_iff.mpr h]
  exact dev_next (decide_eq_true hk) ((if_neg (by simp [hopen, hout, hq, hf, hmay])).trans (by simp only [hc]))

end

/-! Transmit streams (R516). -/

@[simp] theorem sentLines_nil (k : Nat) : s.sentLines k [] = (s, some []) := rfl

/-- R516: an empty frame of a stream with one port is sent: the packets are counted, and the timeline rises by its groups. -/
def State.sendEmpty (s : State) (k slot : Nat) (r : List (Nat × Nat)) : State :=
  let t := (s.streamCount k 0 (Config.freeW32 s.fresh).toNat).modStream k (fun y => { y with sends := r, hostOut := none, hostData := [] })
  let sent : Net := { t.net with mediaSent := t.net.mediaSent ++ [(k, [pf (s.stream k).desc 0x1B 1], slot, [])] }
  ({ t with fresh := s.fresh + 1, net := sent } : State).streamRise k (groupsOf (s.stream k).desc + 1)

/-- R516: the packet of a frame that has been sent is done. -/
def State.sentPacket (s : State) (id : Nat) : State := match alook id s.fe.packets with
  | some p => s.packetDone id p
  | none => s

theorem exec_frameTransmit_empty {k slot id : Nat} {r : List (Nat × Nat)} (hk : 128 ≤ k ∧ k < 160) (hp : s.power.state = 0)
    (hopen : (s.stream k).isOpen = true) (hout : (s.stream k).hostOut = none) (hb : (s.stream k).buffers = [])
    (hs : (s.stream k).sends = (slot, id) :: r) (hd : dualOf (s.stream k).desc = false) :
    exec (.frameTransmit k) s = .next ((s.sendEmpty k slot r).sentPacket id) :=
  dev_next (decide_eq_true hk) (by
    simp only [hopen, hp, hout, hb, hs, hd, List.isEmpty_nil, Bool.not_true, bne_self_eq_false, Option.isSome_none, Bool.or_self,
      Bool.false_eq_true, if_false, if_true, sentLines_nil]
    rfl)

theorem sentPacket_none {id : Nat} (h : alook id s.fe.packets = none) : s.sentPacket id = s := by
  simp only [State.sentPacket, h]

theorem sentPacket_some {id : Nat} {p : Packet} (h : alook id s.fe.packets = some p) : s.sentPacket id = s.packetDone id p := by
  simp only [State.sentPacket, h]

/-! Debug registers and register writes (R12, R493, R522, R523). -/

section
variable {core : Nat} (hcore : core < 400)
include hcore

theorem exec_traceResume (h : (s.core core).frozen = true) :
    exec (.traceResume core) s = .next (s.modCore core (fun c => { c with frozen := false })) :=
  dev_next (coreThere_of_lt hcore) (if_pos h)

variable {m : Nat} (hm : m < 4)
include hm

theorem monitorThere_of_lt : (coreThere core && decide (m < 4)) = true := by simp [coreThere_of_lt hcore, hm]

theorem exec_monitorClear : exec (.monitorClear core m) s = .next (s.modMonitor core m Monitor.clear) :=
  dev_next (monitorThere_of_lt hcore hm) rfl

/-- R523: an enabled monitor of the temperature, source 6, samples it while its tile is not OFF. -/
theorem exec_monitorTemperatureSample (t : W32) (he : (aget Monitor.reset m (s.core core).monitors).ctl.getLsbD 4 = true)
    (hsrc : (aget Monitor.reset m (s.core core).monitors).ctl.extractLsb' 0 4 = 6#4) (ht : (s.core core).tile ≠ .off) :
    exec (.monitorTemperatureSample core m t) s = .next (s.modMonitor core m (fun x => x.sample t)) :=
  dev_next (monitorThere_of_lt hcore hm) (if_pos (by simp [he, hsrc, ht]))

end

/-- R12: an aligned write of 4 or 8 bytes is the writer's. -/
theorem exec_registerWrite {by_ : Party} {off size : Nat} {v : Word} {u : State} (hp : s.power.state = 0) (hoff : off < 0x100000000)
    (hsize : size = 4 ∨ size = 8) (hal : off % size = 0)
    (hu : (if by_ = .host then s.hostCtlWrite off size v else s.ctlWrite by_ off size v) = some u) :
    exec (.registerWrite by_ off size v) s = .next u := by
  have hmay : ¬((size ≠ 4 ∧ size ≠ 8) ∨ off % size ≠ 0 ∨ (by_ = .host ∧ s.power.state ≠ 0)) := by
    rintro (⟨h4, h8⟩ | h | ⟨-, h⟩)
    · exact hsize.elim h4 h8
    · exact h hal
    · exact h hp
  exact dev_next (decide_eq_true hoff) ((if_neg hmay).trans hu)

end

/-- Settles O55: each row's condition holds, and its branch is the one that the case names. -/
theorem outsideRowsComplete : Obligations.OutsideRowsComplete := by
  intro s hp
  refine ⟨fun hm => ⟨fun off size hlo hhi h1 hb => ?_, fun off bytes hlo hhi h1 hb => ?_, fun off size op x y hlo h1 hb => ?_,
      fun off size op x y pa hlo hhi hs hal ⟨hmap, hpin⟩ hpois => ?_⟩,
    fun id r hr hu => ⟨exec_hostLinkTimeout (hostDone_engine_failed hr hu),
      exec_hostCompletion (.inl rfl) (hostDone_engine_failed (s := s.replays) hr hu),
      fun d hm hd => exec_hostCompletion (.inr hm) (hostDone_engine_done (s := s.replays) hr hu hd)⟩,
    fun n => exec_hostLinkTraining,
    fun v en hv => ⟨fun h => (exec_hivtEnable hv).trans (congrArg _ (setVector_quiet h)),
      fun he h => (exec_hivtEnable hv).trans (congrArg _ (setVector_sends he h))⟩,
    fun v => ⟨dev_next (row := "H2FDB_WRITE") rfl (congrArg some (writePort_h2f v)),
      dev_next (row := "F2HDB_WRITE") rfl (congrArg some (writePort_f2h v))⟩,
    fun p f hport h1 h2 => ⟨fun hg => exec_ethFrameReceive hport hp h1 h2 (.inl hg) (deliver_plain hg),
      fun g hg hq => exec_ethFrameReceive hport hp h1 h2 (.inr hq) (deliver_fragment hg)⟩,
    fun p up hport => exec_ethLinkChange hport up hp, fun v => dev_next (row := "TUSTEP") rfl rfl,
    fun k hk hopen hout hq => ⟨exec_frameStart_skipped hk hopen hout hq,
      fun path pkt u => exec_rtpPacketReceive hk hopen hout hq hp, fun u l => exec_frameDeadline hk hopen hout hq⟩,
    fun k slot id r hlo hhi hopen hout hb hs hd => ?_,
    fun core hcore => ⟨exec_traceResume hcore, fun m t hm => ⟨exec_monitorClear hcore hm, exec_monitorTemperatureSample hcore hm t⟩⟩,
    fun off v u hoff hal => ⟨fun hu => exec_registerWrite hp hoff (.inr rfl) hal hu, fun hu => exec_registerWrite hp hoff (.inr rfl) hal hu,
      fun hu => exec_registerWrite hp hoff (.inl rfl) (by omega) hu⟩⟩
  · have hask : HostAsked s (.read off size) := ⟨hp, hm, hhi, h1, hb⟩
    refine ⟨fun hno => hask.served (accessBusy_disabled hno) ?_, fun pa ⟨hmap, hpin⟩ hpois => hask.served (accessBusy_enabled hmap hpin) ?_,
      fun pa ⟨hmap, hpin⟩ hpois => hask.served (accessBusy_enabled hmap hpin) ?_⟩
    · exact (hostServe_read hlo size).trans (congrArg _ (apertureRead_disabled size hno))
    · exact (hostServe_read hlo size).trans (congrArg _ (apertureRead_sound size hmap hpois))
    · exact (hostServe_read hlo size).trans (congrArg _ (apertureRead_poisoned size hmap hpois))
  · have hask : HostAsked s (.write off bytes) := ⟨hp, hm, hhi, h1, hb⟩
    refine ⟨fun hno => hask.served (accessBusy_disabled hno) ?_, fun pa ⟨hmap, hpin⟩ hlen => hask.served (accessBusy_enabled hmap hpin) ?_⟩
    · exact (hostServe_write hlo bytes).trans (apertureWrite_disabled bytes hno)
    · exact (hostServe_write hlo bytes).trans (apertureWrite_part hlen hmap)
  · have hask : HostAsked s (.atomic off size op x y) := ⟨hp, hm, Nat.lt_trans hlo (by decide), h1, hb⟩
    exact hask.served (accessBusy_ctl hlo) (hostServe_atomic_ctl size op x y hlo)
  · have hsize : 1 ≤ size := by omega
    have hblock : off % 64 + size ≤ 64 := by rcases hs with rfl | rfl <;> omega
    have hask : HostAsked s (.atomic off size op x y) := ⟨hp, hm, hhi, hsize, hblock⟩
    exact hask.served (accessBusy_enabled hmap hpin) (hostServe_atomic hlo op x y hs hal hmap hpois)
  · have hsent := exec_frameTransmit_empty ⟨hlo, hhi⟩ hp hopen hout hb hs hd
    exact ⟨fun hno => hsent.trans (congrArg _ (sentPacket_none hno)), fun p hpkt => hsent.trans (congrArg _ (sentPacket_some hpkt))⟩

end Sys2Proof.Machine
end

section
/-! PROOF. The bundle formats (R264 to R269): what the decoder reads from the bundle that holds one instruction alone, and the
words of the opcode map. -/

namespace Sys2Proof.Laws.Encoding

/-! The word of one instruction (R264, R265, R272 to R275). -/

/-- The round trip of an instruction's own word, whichever instruction it is. -/
theorem statement (i : Instr) : Statement i :=
  Instr.casesOn (motive := Statement) i nop add sub and_ or_ xor_ shl shr sra minS minZ maxS maxZ mul mulhS mulhZ divS divZ
    remS remZ clz ctz popc bext bins addsh sel addi andi ori xori shli shri srai movi movh cmpEq cmpNe cmpLtS cmpLtZ cmpGeS
    cmpGeZ pand por pxor pandn pmov pset bra call brar ret loop ctlr ctlw ctlx trap eret snapst snaprel suspend yield halt
    waittl waittlSusp sigtl ldB ldBs ldH ldHs ldW ldWs ldD stB stH stW stD loadComplete vmov vsplat viota vextr vins vadd vsub
    vmul vfma vfms vmin vmax vdiv vaddBcast vsubBcast vmulBcast vminBcast vmaxBcast vdivBcast viaddBcast visubBcast vimulBcast
    vandBcast vorBcast vxorBcast vshlBcast vshrBcast vabs vneg vrcp vrsq vsqrt vexp2 vlog2 viadd visub vimul vand vor vxor
    vshl vshr vcmpEq vcmpNe vcmpLt vcmpLe vcmpGt vcmpGe vcmpUn vsel vcvtFi vcvtFit vcvtIf vcvtFb vcvtFt8 vcvtFt6 vredSum
    vredMax vredMin vrrowSum vrrowMax vrrowMin vscanSum vscanMax vscanMin vcnt vocc vrcoal vreshape vbrow vbcol vperm patld
    patsw vattc vld vlds vldRun vectorLoadComplete vst vstRun tagrd tagwr prefL1 prefL2 cflush cinv osclaim osclaimT osrel
    slotFree mma mmaz mmaComplete accrd accwr accz accst efrw ctwr spswap cpy cpyMma cpyg cpys cpyw copyLand followOnMma bte
    bteTransferEnd barInit barLink barExp barArr barWait barWaitS barTest barStat seqMma seqCpy seqStepIssue amoAdd amoAnd
    amoOr amoXor amoMinS amoMaxS amoXchg amoCas lda stl fence xfence waitv waitvS waitTimeout kvwalk kvapp kvcommit kvfork
    kvroll kvsplice kvprov repairM repairI repstat attq attqRo kvAccept kvComplete kvPoolWaitEnd collPut collGet collAdd
    collMax collMin collChunkReceive collAck collChunkTimeout collComplete rsbegin rswrite rscommit rsabort rsstat
    journalWriteAttempt commitRecord resoleApply trapEntry watchdog continuationPlace ageing placementBound waitWake
    preemptRequest preemptSaveComplete saveDeadline frameRestore migrationRequest migrationStop migrationFallback kick map
    park parkComplete resume unmap packetFetch nopPacket launch gang gangRetry gangBound signal waittlPacket
    waittlPacketTimeout btePacket kill killComplete fencePacket marker open_ close buffers send packetComplete tladd tlbiRange
    tlbiAsid tlbiGlobalRange tlbiAll tlbiReserved tlbiComplete pin unpin pinComplete lcidMapWrite scanRequest scanComplete
    suspack apply errorDetected tileIdleRet tileIdleOff tileWakeComplete targetActive targetListen targetDormant wakeComplete
    alarm thermalWarn thermalThrottle throttleEnd thermalTrip powerCap powerLoss coldStart install advance attest tcmopen
    securityCommandComplete h2fdbWrite f2hdbWrite hostRead hostWrite hostAtomic hostCompletion hostLinkTimeout hivtEnable
    ethFrameReceive tustep rtpPacketReceive frameStart frameDeadline frameTransmit traceResume monitorClear registerWrite
    ethLinkChange hostLinkTraining powerCapRelease trippedTileCooled accstLand monitorTemperatureSample

/-- R265: an all-zero slot is NOP in every position. -/
theorem decodeS_zero : decodeS 0#32 = .ok .nop := if_pos rfl
theorem decodeV_zero : decodeV 0#32 = .ok .nop := if_pos rfl
theorem decodeM_zero (x : Option (BitVec 4)) : decodeM 0#32 x = .ok .nop := if_pos rfl
theorem decodeC_zero : decodeC 0#32 = .ok .nop := if_pos rfl

/-- R267: a word that holds an instruction of position S is not a header. -/
theorem major_of_decodeS {w : W32} {i : Instr} (h : decodeS w = .ok i) : fld w 26 6 ≠ 0x3F#6 := by
  intro hm
  have hw := word_ne_zero hm (by decide)
  simp [decodeS, hm, hw] at h

/-- R264: the positions are numbered 0 to 3. -/
theorem pos_lt (i : Instr) : i.pos.all (· < 4) = true := by cases i <;> rfl

/-- An instruction with a position stands in one of the four. -/
theorem pos_cases {i : Instr} {p : Nat} (h : i.pos = some p) : p = 0 ∨ p = 1 ∨ p = 2 ∨ p = 3 := by
  have hp := pos_lt i
  simp only [h, Option.all_some, decide_eq_true_eq] at hp
  omega

/-- R269, R298: the instructions that may need a header are those of the ML format, in position M. -/
theorem ml_of_needsHeader {i : Instr} (h : i.needsHeader = true) : i.isML = true ∧ i.pos = some 2 := by
  cases i
  case ldB | ldBs | ldH | ldHs | ldW | ldWs | ldD | stB | stH | stW | stD => exact ⟨rfl, rfl⟩
  all_goals cases h

/-! The words of a bundle (R264, R267). -/

/-- R264: the four words of a bundle, position 0 in the low bits. -/
theorem bundle_words (w0 w1 w2 w3 : W32) :
    let w : BundleBits := w3 ++ (w2 ++ (w1 ++ w0))
    w.extractLsb' 0 32 = w0 ∧ w.extractLsb' 32 32 = w1 ∧ w.extractLsb' 64 32 = w2 ∧ w.extractLsb' 96 32 = w3 := by
  refine ⟨?_, ?_, ?_, field_top w3 _⟩
  · rw [field_within _ _ (by decide), field_within _ _ (by decide), field_within _ _ (by decide), field_all]
  · rw [field_within _ _ (by decide), field_within _ _ (by decide), field_top]
  · rw [field_within _ _ (by decide), field_top]

/-- R267: the major opcode of a header. -/
theorem header_major (h : Header) : fld h.encode 26 6 = 0x3F#6 := field_top _ _

/-- R267: the fields of a header. -/
theorem header_fields (h : Header) : fld h.encode 25 1 = h.b ∧ fld h.encode 22 3 = h.t1 ∧ fld h.encode 19 3 = h.t2 ∧
    fld h.encode 16 3 = h.t3 ∧ fld h.encode 12 4 = h.x1 ∧ fld h.encode 8 4 = h.x2 ∧ fld h.encode 4 4 = h.x3 ∧
    fld h.encode 0 4 = 0#4 := by
  refine ⟨?_, ?_, ?_, ?_, ?_, ?_, ?_, ?_⟩ <;> rw [fld, Header.encode] <;> repeat rw [field_within _ _ (by decide)]
  case refine_8 => exact field_all _
  all_goals exact field_top _ _

/-- R267: a header is read back. -/
theorem decodeHeader_encode (h : Header) : decodeHeader h.encode = .ok h := by
  obtain ⟨fb, f1, f2, f3, g1, g2, g3, f0⟩ := header_fields h
  rw [decodeHeader, if_pos f0, fb, f1, f2, f3, g1, g2, g3]

section
variable {w0 w1 w2 w3 : W32} {s v m c : Instr} {h : Header}

/-- R264: a bundle without a header is its four words, each read in its position. -/
theorem decodeBundle_plain (hs : decodeS w0 = .ok s) (hv : decodeV w1 = .ok v) (hm : decodeM w2 none = .ok m)
    (hc : decodeC w3 = .ok c) (hd : duplicateDest [(0, s), (1, v), (2, m), (3, c)] = none) :
    decodeBundle (w3 ++ (w2 ++ (w1 ++ w0))) = .ok { hdr := none, s := s, v := v, m := m, c := c } := by
  obtain ⟨e0, e1, e2, e3⟩ := bundle_words w0 w1 w2 w3
  simp [decodeBundle, e0, e1, e2, e3, major_of_decodeS hs, hs, hv, hm, hc, hd, bind, Except.bind, pure, Except.pure]

/-- R267, R269: under a header position M is read with the lent bits X2; here V and C are lent none. -/
theorem decodeBundle_header (hv : decodeV w1 = .ok v) (hm : decodeM w2 (some h.x2) = .ok m) (hc : decodeC w3 = .ok c)
    (h1 : h.x1 = 0) (h3 : h.x3 = 0) (hml : m.isML = true) (hd : duplicateDest [(0, .nop), (1, v), (2, m), (3, c)] = none) :
    decodeBundle (w3 ++ (w2 ++ (w1 ++ h.encode))) = .ok { hdr := some h, s := .nop, v := v, m := m, c := c } := by
  obtain ⟨e0, e1, e2, e3⟩ := bundle_words h.encode w1 w2 w3
  simp [decodeBundle, e0, e1, e2, e3, header_major, decodeHeader_encode, lentOk, hv, hm, hc, hd, h1, h3, hml, bind, Except.bind,
    pure, Except.pure]

end

/-- R302: beside NOPs, no register is named as a destination twice. -/
theorem duplicateDest_alone (i : Instr) :
    duplicateDest [(0, i), (1, .nop), (2, .nop), (3, .nop)] = none ∧
    duplicateDest [(0, .nop), (1, i), (2, .nop), (3, .nop)] = none ∧
    duplicateDest [(0, .nop), (1, .nop), (2, i), (3, .nop)] = none ∧
    duplicateDest [(0, .nop), (1, .nop), (2, .nop), (3, i)] = none := by
  have hn : Instr.dests .nop = [] := rfl
  simp [duplicateDest, hn]

/-! The bundle of one instruction (R298). -/

/-- The decoder reads back the bundle that holds one well-formed instruction. -/
theorem decodeBundle_alone {i : Instr} (hslot : i.isSlot = true) (hwf : i.wf = true) :
    decodeBundle i.alone.encode = .ok i.alone := by
  have hi := statement i hslot hwf
  obtain ⟨d0, d1, d2, d3⟩ := duplicateDest_alone i
  have plain (hne : i.pos ≠ some 2) : i.needsHeader = false := Bool.eq_false_iff.mpr fun h => hne (ml_of_needsHeader h).2
  cases hp : i.pos with
  | none =>
    obtain rfl : i = .nop := by simpa [Instr.isSlot, hp] using hslot
    exact decodeBundle_plain decodeS_zero decodeV_zero (decodeM_zero none) decodeC_zero d0
  | some p =>
    rw [hp] at hi
    obtain rfl | rfl | rfl | rfl := pos_cases hp
    · simp only [Instr.alone, Bundle.encode, hp, plain (by simp [hp])]
      exact decodeBundle_plain hi decodeV_zero (decodeM_zero none) decodeC_zero d0
    · simp only [Instr.alone, Bundle.encode, hp, plain (by simp [hp])]
      exact decodeBundle_plain decodeS_zero hi (decodeM_zero none) decodeC_zero d1
    · by_cases hh : i.needsHeader = true
      · simp only [Instr.alone, Bundle.encode, hp, hh]
        exact decodeBundle_header decodeV_zero (by simpa [hh] using hi) decodeC_zero rfl rfl (ml_of_needsHeader hh).1 d2
      · simp only [Instr.alone, Bundle.encode, hp, hh]
        exact decodeBundle_plain decodeS_zero decodeV_zero (by simpa [hh] using hi) decodeC_zero d2
    · simp only [Instr.alone, Bundle.encode, hp, plain (by simp [hp])]
      exact decodeBundle_plain decodeS_zero decodeV_zero (decodeM_zero none) hi d3

/-- The lowest slot that is not a NOP is the one instruction. -/
theorem first_alone {i : Instr} (hslot : i.isSlot = true) : i.alone.first = i := by
  cases hp : i.pos with
  | none =>
    obtain rfl : i = .nop := by simpa [Instr.isSlot, hp] using hslot
    rfl
  | some p =>
    have hne : i ≠ .nop := by rintro rfl; cases hp
    obtain rfl | rfl | rfl | rfl := pos_cases hp <;> simp [Bundle.first, Instr.alone, hp, hne]

/-- R10, R11: the decoder of 16 bytes reads the 128 bits that they hold. -/
theorem decodeTableWord_of_decodeBundle {w : BundleBits} {b : Bundle} (h : decodeBundle w = .ok b) :
    decodeTableWord 128 w.toNat = some b.first := by
  have hw : BitVec.ofNat 128 (bytesToNat ((natToBytes 16 (w.toNat % 2 ^ 128)).take 16)) = w := by
    rw [List.take_of_length_le (by simp), Machine.bytesToNat_natToBytes, Nat.mod_mod, Nat.mod_eq_of_lt w.isLt, BitVec.ofNat_toNat,
      BitVec.setWidth_eq]
  have hlen : ¬(natToBytes 16 (w.toNat % 2 ^ 128)).length < 16 := by
    rw [Machine.natToBytes_length]
    exact Nat.lt_irrefl 16
  rw [decodeTableWord, decodeBytes, if_neg hlen, hw, h]
  rfl

/-- Settles O59: each instruction's word is read back in its position, with the lent bits that its header holds. -/
theorem decodeReadsWhatEncodeWrites : Obligations.DecodeReadsWhatEncodeWrites := by
  intro i hslot hwf
  have hb := decodeBundle_alone hslot hwf
  exact ⟨hb, (decodeTableWord_of_decodeBundle hb).trans (congrArg some (first_alone hslot))⟩

/-- Settles O58: each word is decoded as it stands. -/
theorem wordsDecodeAsWritten : Obligations.WordsDecodeAsWritten := by
  unfold Obligations.WordsDecodeAsWritten
  decide +kernel

end Sys2Proof.Laws.Encoding
end

section
/-! PROOF. Position S: what an instruction does under a false guard, what a scalar or predicate instruction leaves alone, the
branches, LOOP, and the writes of read-only control registers. -/

namespace Sys2Proof.Machine

/-! The wrapper (R271, R433). -/

/-- What an instruction comes to is a run under a guard. -/
def RunsUnder (g : BitVec 4) (s : State) (o : Host.Outcome State Fault Refusal) : Prop :=
  ∃ srcs also dsts pre body, o = .next (settle s (slotRun g srcs also dsts pre body s))

section
variable {g : BitVec 4} {s : State} {srcs also : List Src} {dsts : List RegName}

theorem runsUnder_slotOp {body : State → Run} : RunsUnder g s (slotOp g srcs dsts body s) := ⟨_, _, _, _, _, rfl⟩

theorem runsUnder_slotOpA {body : State → Run} : RunsUnder g s (slotOpA g srcs also dsts body s) := ⟨_, _, _, _, _, rfl⟩

theorem runsUnder_blockOp {limits : State → Params → Except Stop Unit} {body : Params → State → Run} :
    RunsUnder g s (blockOp g srcs dsts limits body s) := ⟨_, _, _, _, _, rfl⟩

/-- An instruction of two forms runs under its guard where both of them do. -/
theorem RunsUnder.ite {p : Prop} [Decidable p] {a b : Host.Outcome State Fault Refusal} (ha : RunsUnder g s a)
    (hb : RunsUnder g s b) : RunsUnder g s (if p then a else b) := by
  split
  · exact ha
  · exact hb

end

/-- R271: every slot instruction runs under its guard. -/
theorem exec_runsUnder_guard {i : Instr} (s : State) (h : i.isSlot = true) : RunsUnder i.guard s (exec i s) := by
  cases i
  case nop | add | sub | and_ | or_ | xor_ | shl | shr | sra | minS | minZ | maxS | maxZ | mul | mulhS | mulhZ | divS | divZ
    | remS | remZ | clz | ctz | popc | bext | bins | addsh | addi | andi | ori | xori | shli | shri | srai | movi | movh
    | cmpEq | cmpNe | cmpLtS | cmpLtZ | cmpGeS | cmpGeZ | pand | por | pxor | pandn | pmov | pset | bra | call | brar | ret
    | loop | ctlr | ctlw | ctlx | trap | eret | snapst | snaprel | suspend | yield | halt | waittl | waittlSusp | sigtl
    | ldB | ldBs | ldH | ldHs | ldW | ldWs | ldD | stB | stH | stW | stD | vsplat | viota | vextr | vins | vadd | vsub
    | vmul | vfma | vfms | vmin | vmax | vdiv | vaddBcast | vsubBcast | vmulBcast | vminBcast | vmaxBcast | vdivBcast
    | viaddBcast | visubBcast | vimulBcast | vandBcast | vorBcast | vxorBcast | vshlBcast | vshrBcast | vabs | vneg | vrcp
    | vrsq | vsqrt | vexp2 | vlog2 | viadd | visub | vimul | vand | vor | vxor | vshl | vshr | vcmpEq | vcmpNe | vcmpLt
    | vcmpLe | vcmpGt | vcmpGe | vcmpUn | vsel | vcvtFi | vcvtFit | vcvtIf | vcvtFb | vcvtFt8 | vcvtFt6 | vredSum | vredMax
    | vredMin | vrrowSum | vrrowMax | vrrowMin | vscanSum | vscanMax | vscanMin | vcnt | vocc | vrcoal | vreshape | vbrow
    | vbcol | vperm | patld | patsw | vattc | tagrd | tagwr | prefL1 | prefL2 | cflush | cinv | osclaim | osclaimT | osrel
    | mma | mmaz | accrd | accwr | accz | efrw | ctwr | spswap | barInit | barLink | barExp | barArr | barWait | barWaitS
    | barTest | barStat | amoAdd | amoAnd | amoOr | amoXor | amoMinS | amoMaxS | amoXchg | amoCas | lda | stl | fence
    | xfence | waitv | waitvS | kvwalk | kvcommit | kvfork | kvroll | kvsplice | kvprov | repstat | rsbegin | rswrite
    | rscommit | rsabort | rsstat =>
    exact runsUnder_slotOp
  case sel | bte => exact runsUnder_slotOpA
  case accst | cpy | cpyMma | cpyg | cpys | cpyw | seqMma | seqCpy | kvapp | repairM | repairI | attq | attqRo | collPut
    | collGet | collAdd | collMax | collMin => exact runsUnder_blockOp
  case vmov => exact .ite runsUnder_slotOp runsUnder_slotOp
  case vld | vlds | vldRun | vst | vstRun => exact .ite runsUnder_blockOp runsUnder_slotOp
  all_goals cases h

/-- R271: a run under a false guard leaves the state as it is, marked issued. -/
theorem RunsUnder.false {g : BitVec 4} {s : State} {o : Host.Outcome State Fault Refusal} (h : RunsUnder g s o)
    (hfull : s.srcEmpty (.p g) = false) (hfalse : s.rP g = false) : o = .next (s.setStatus .issued) := by
  obtain ⟨srcs, also, dsts, pre, body, rfl⟩ := h
  rw [slotRun_false hfull hfalse, settle_ok]

/-- Settles O7: every slot instruction runs through the wrapper under its guard, and a false guard ends the run there. -/
theorem falseGuardDoesNothing : Obligations.FalseGuardDoesNothing := fun _ s hslot _ hfull hfalse =>
  (exec_runsUnder_guard s hslot).false hfull hfalse

/-! What a scalar or predicate instruction may change (R276, R301, R304). -/

/-- A seat changes in the scalar and predicate registers that destinations name, and in its divider. -/
structure ScalarSeatFrame (ds : List RegName) (a b : Seat) : Prop where
  seat : { b with file := a.file, divFree := a.divFree, divDst := a.divDst } = a
  ctl : b.file.ctl = a.file.ctl
  vectors : b.file.regs.v = a.file.regs.v
  scalars : ∀ k, (∀ d, .s d ∈ ds → d = 0 ∨ d.toNat ≠ k) → alook k b.file.regs.s = alook k a.file.regs.s
  preds : ∀ k, (∀ d, .p d ∈ ds → d = 0 ∨ d.toNat ≠ k) → alook k b.file.regs.p = alook k a.file.regs.p

theorem ScalarSeatFrame.refl (ds : List RegName) (a : Seat) : ScalarSeatFrame ds a a :=
  ⟨rfl, rfl, rfl, fun _ _ => rfl, fun _ _ => rfl⟩

theorem ScalarSeatFrame.trans {ds : List RegName} {a b c : Seat} (h : ScalarSeatFrame ds a b) (k : ScalarSeatFrame ds b c) :
    ScalarSeatFrame ds a c where
  seat := (congrArg (fun q : Seat => { q with file := a.file, divFree := a.divFree, divDst := a.divDst }) k.seat).trans h.seat
  ctl := k.ctl.trans h.ctl
  vectors := k.vectors.trans h.vectors
  scalars := fun n hn => (k.scalars n hn).trans (h.scalars n hn)
  preds := fun n hn => (k.preds n hn).trans (h.preds n hn)

/-- Nothing changes outside the seat in focus, and in it no more than ScalarSeatFrame allows. -/
structure SFrame (ds : List RegName) (s t : State) : Prop where
  outside : { t with seats := s.seats } = s
  others : ∀ k, k ≠ 2 * s.focus.core + s.focus.seat → alook k t.seats = alook k s.seats
  own : ScalarSeatFrame ds s.fseat t.fseat

theorem SFrame.refl (ds : List RegName) (s : State) : SFrame ds s s := ⟨rfl, fun _ _ => rfl, ScalarSeatFrame.refl _ _⟩

theorem SFrame.focus {ds : List RegName} {s t : State} (h : SFrame ds s t) : t.focus = s.focus :=
  (congrArg State.focus h.outside :)

/-- A change of the seat in focus within the frame stays within it. -/
theorem SFrame.modF {ds : List RegName} {s t : State} (h : SFrame ds s t) {f : Seat → Seat}
    (hf : ∀ a, ScalarSeatFrame ds a (f a)) : SFrame ds s (t.modF f) where
  outside := h.outside
  others := fun k hk => by
    rw [State.modF_seats, h.focus, alook_aput_ne hk]
    exact h.others k hk
  own := by
    rw [fseat_modF]
    exact h.own.trans (hf _)

/-- R276: a write of a scalar register changes that register alone, and s0 not at all. -/
theorem SFrame.wS (s : State) (d : BitVec 6) (v : Word) (f : Fill) : SFrame [.s d] s (s.wS d v f) := by
  unfold State.wS
  split
  · exact SFrame.refl _ s
  · rename_i hd
    refine (SFrame.refl [.s d] s).modF ?_
    exact fun _ => ⟨rfl, rfl, rfl, fun k hk => alook_aput_ne (Ne.symm ((hk d (by simp)).resolve_left hd)) _ _, fun _ _ => rfl⟩

/-- R276: a write of a predicate changes that predicate alone, and p0 not at all. -/
theorem SFrame.wP (s : State) (d : BitVec 3) (v : Bool) : SFrame [.p d] s (s.wP d v) := by
  unfold State.wP
  split
  · exact SFrame.refl _ s
  · rename_i hd
    refine (SFrame.refl [.p d] s).modF ?_
    exact fun _ => ⟨rfl, rfl, rfl, fun _ _ => rfl, fun k hk => alook_aput_ne (Ne.symm ((hk d (by simp)).resolve_left hd)) _ _⟩

/-- R303: a divide is noted in its seat's divider. -/
theorem SFrame.divider {ds : List RegName} {s t : State} (h : SFrame ds s t) (d : BitVec 6) :
    SFrame ds s (t.modF (fun q => { q with divFree := q.issued + 34, divDst := d })) :=
  h.modF fun _ => ⟨rfl, rfl, rfl, fun _ _ => rfl, fun _ _ => rfl⟩

/-- Where an instruction has issued, its state is within the frame. -/
def ScalarFramed (ds : List RegName) (s : State) (o : Host.Outcome State Fault Refusal) : Prop :=
  ∀ t, o = .next t → t.focus.status = .issued → ∃ u, SFrame ds s u ∧ t = u.setStatus .issued

/-- R433: a slot instruction is within the frame where its body is. -/
theorem scalarFramed_slotOpA {g : BitVec 4} {srcs also : List Src} {dsts ds : List RegName} {body : State → Run} {s : State}
    (hb : ∀ u, body s = .ok u → SFrame ds s u) : ScalarFramed ds s (slotOpA g srcs also dsts body s) := by
  intro t ht hs
  obtain rfl := Host.Outcome.next.inj ht
  obtain ⟨u, hu⟩ := settle_issued hs
  rw [hu, settle_ok]
  refine ⟨u, ?_, rfl⟩
  rcases slotRun_ok hu with rfl | hu
  · exact SFrame.refl _ _
  · exact hb u hu

section
variable {g : BitVec 4} {srcs also : List Src} {s : State}

/-- R301, R303: an instruction whose result is a scalar register's. -/
theorem scalarFramed_wS {d : BitVec 6} {v : State → Word} {f : State → Fill} :
    ScalarFramed [.s d] s (slotOpA g srcs also [.s d] (fun s => .ok (s.wS d (v s) (f s))) s) :=
  scalarFramed_slotOpA fun _ h => Except.ok.inj h ▸ SFrame.wS ..

/-- R310, R311: an instruction whose result is a predicate's. -/
theorem scalarFramed_wP {d : BitVec 3} {v : State → Bool} :
    ScalarFramed [.p d] s (slotOp g srcs [.p d] (fun s => .ok (s.wP d (v s))) s) :=
  scalarFramed_slotOpA fun _ h => Except.ok.inj h ▸ SFrame.wP ..

/-- R303: a divide issues only where the seat's divider is free. -/
theorem scalarFramed_divide {f : Word → Word → Word} {d a b : BitVec 6} : ScalarFramed [.s d] s (divide f d a b g s) := by
  refine scalarFramed_slotOpA fun u h => ?_
  dsimp only at h
  split at h
  · cases h
  · exact Except.ok.inj h ▸ (SFrame.wS ..).divider d

end

/-- R301 to R311: every instruction of the group is within the frame of its destination. -/
theorem scalarFramed_exec {i : Instr} {s : State} (h : i.scalarOnly = true) : ScalarFramed i.dests s (exec i s) := by
  cases i
  case nop => exact scalarFramed_slotOpA fun _ h => Except.ok.inj h ▸ SFrame.refl ..
  case add | sub | and_ | or_ | xor_ | shl | shr | sra | minS | minZ | maxS | maxZ | mul | mulhS | mulhZ | clz | ctz | popc | bext
    | bins | addsh | sel | addi | andi | ori | xori | shli | shri | srai | movi | movh => exact scalarFramed_wS
  case divS | divZ | remS | remZ => exact scalarFramed_divide
  case cmpEq | cmpNe | cmpLtS | cmpLtZ | cmpGeS | cmpGeZ | pand | por | pxor | pandn | pmov | pset => exact scalarFramed_wP
  all_goals cases h

/-- Settles O5: what has issued is within the frame of its destination. -/
theorem scalarFrame : Obligations.ScalarFrame := by
  intro i s t hi ⟨he, hs⟩
  obtain ⟨u, hu, rfl⟩ := scalarFramed_exec hi t he hs
  obtain ⟨hseat, hctl, hvectors, hscalars, hpreds⟩ := hu.own
  refine ⟨?_, fun pa => ?_, ?_, fun c x hne => ?_, hseat, hctl, hvectors, hscalars, hpreds⟩
  · exact congrArg (fun q : State => { q with focus := s.focus }) hu.outside
  · rw [← hu.outside]
    exact ⟨rfl, rfl⟩
  · rw [State.setStatus_focus, hu.focus]
  · simp only [State.seatAt, aget, State.setStatus_seats, hu.others _ hne]

/-! Branches (R287, R316 to R318). -/

/-- R115: an address is in range below 2^55. -/
theorem inRange_iff {v : Word} : inRange v = true ↔ v.toNat < 2 ^ 55 := by
  have hv := v.isLt
  have h0 : (0 : BitVec 9).toNat = 0 := rfl
  rw [inRange, beq_iff_eq, ← BitVec.toNat_inj, BitVec.extractLsb'_toNat, Nat.shiftRight_eq_div_pow, h0]
  omega

/-- R287: a branch out of the body of the active loop ends the loop. -/
def State.loopLeft (s : State) (tgt : BitVec 51) : State :=
  if stageAct s.src.ctl.stage && inBody s.src.ctl s.fseat.pc && !inBody s.src.ctl tgt then
    s.modCtl (fun r => { r with stage := stageOff r.stage }) else s

theorem loopLeft_focus (s : State) (tgt : BitVec 51) : (s.loopLeft tgt).focus = s.focus := by
  unfold State.loopLeft
  split <;> rfl

/-- R316: a branch to a target in range continues there. -/
theorem branchTo_near {s : State} {v : Word} (h : v.toNat < 2 ^ 55) :
    s.branchTo v = .ok (((s.loopLeft (v.extractLsb' 4 51)).modF
      (fun t => { t with npc := v.extractLsb' 4 51, taken := true })).trace
      s.focus.core s.focus.seat 0 (pcWord (v.extractLsb' 4 51))) := by
  rw [State.branchTo, if_neg (by simp [inRange_iff.mpr h]), ← loopLeft_focus s (v.extractLsb' 4 51)]
  rfl

/-- R316, R317: a branch to a target out of range raises ADDRESS_RANGE. -/
theorem branchTo_far {s : State} {v : Word} (h : 2 ^ 55 ≤ v.toNat) : s.branchTo v = raiseX 0x22 v :=
  if_pos (by simpa using fun hr => Nat.not_lt.mpr h (inRange_iff.mp hr))

/-- Settles O8: each branch is branchTo at its target, and CALL then writes s62. -/
theorem branchesReachTheirTarget : Obligations.BranchesReachTheirTarget := by
  intro off a g s left go rel reg
  refine ⟨fun hr h => ?_, fun hr h => ?_, fun hr h => ?_, fun hr h => ?_, fun hr h => ?_, fun hr h => ?_, fun hr h => ?_,
    fun hr h => ?_⟩
  · exact does_of_run (slotOp_ready hr) (branchTo_near h)
  · exact does_of_run (slotOp_ready hr) (congrArg (· >>= _) (branchTo_near h))
  · exact does_of_run (slotOp_ready hr) (branchTo_near h)
  · exact does_of_run (slotOp_ready hr) (branchTo_near h)
  · exact raises_of_run (slotOp_ready hr) (branchTo_far h)
  · exact raises_of_run (slotOp_ready hr) (congrArg (· >>= _) (branchTo_far h))
  · exact raises_of_run (slotOp_ready hr) (branchTo_far h)
  · exact raises_of_run (slotOp_ready hr) (branchTo_far h)

/-! LOOP and the read-only control registers (R284, R288). -/

/-- Settles O9: the cases of R284 in their order. -/
theorem loopBeginsOrSkips : Obligations.LoopBeginsOrSkips := by
  intro a sm1 len s hr n
  refine ⟨fun h => raises_of_run (slotOp_ready hr) ?_, fun hact hn => does_of_run (slotOp_ready hr) ?_,
    fun hact hpos hn => does_of_run (slotOp_ready hr) ?_⟩
  · by_cases hact : stageAct s.src.ctl.stage = true
    · exact if_pos hact
    · exact (if_neg hact).trans (if_pos (h.resolve_left hact))
  · simp [hact, show (s.rS a).toNat = 0 from hn]
  · have hle : ¬2 ^ 24 - 1 < (s.rS a).toNat := Nat.not_lt.mpr hn
    have hne : (s.rS a).toNat ≠ 0 := Nat.ne_of_gt hpos
    exact (if_neg (by simp [hact])).trans ((if_neg hle).trans (if_neg hne))

/-- Settles O11: a read-only register is refused before it is written. -/
theorem readOnlyRegistersArePrivileged : Obligations.ReadOnlyRegistersArePrivileged := by
  intro d a cr s hcr
  have hro : crReadOnly cr = true := List.all_eq_true.mp (by decide) cr hcr
  exact ⟨fun hr => raises_of_run (slotOp_ready hr) (if_pos hro), fun hr => raises_of_run (slotOp_ready hr) (if_pos hro)⟩

end Sys2Proof.Machine
end

section
/-! PROOF. Position S: the results of scalar arithmetic, divisions, bit counts, compares and predicate operations. -/

namespace Sys2Proof.Machine

/-! Arithmetic (R301 to R311). -/

/-- R306: BEXT takes the bits of the field. -/
theorem bext_eq_div (a b : Word) : bext a b = BitVec.ofNat 64 (a.toNat / 2 ^ fieldPos b % 2 ^ fieldWid b) := by
  rw [bext, Nat.shiftRight_eq_div_pow]

/-- R307: a shift to the left multiplies by a power of two. -/
theorem shiftLeft_eq_mul_pow (b : Word) (n : Nat) : b <<< n = b * BitVec.ofNat 64 (2 ^ n) := by
  apply BitVec.eq_of_toNat_eq
  rw [BitVec.toNat_shiftLeft, BitVec.toNat_mul, BitVec.toNat_ofNat, Nat.shiftLeft_eq, Nat.mul_mod_mod]

/-- Settles O1: each instruction, its registers ready, is its body, whose value is the one stated. -/
theorem scalarArithmeticResults : Obligations.ScalarArithmeticResults := by
  intro d a b g s
  refine ⟨fun hr => ?_, fun pc hr => ?_, fun hr => ?_, fun hr => ?_, fun imm => ⟨fun hr => ?_, fun hr => ?_⟩,
    fun pd pa pb val => ⟨fun hr => ?_, fun hr => ?_, fun hr => ?_⟩, ?_⟩
  · have value {i : Instr} {r : Run} {v w : Word} (hi : exec i s = .next (settle s r)) (hb : r = .ok (s.wS d v (s.after 1)))
        (hv : v = w) : Does i s (s.wS d w (s.after 1)) := does_of_run hi (hv ▸ hb)
    refine ⟨?_, ?_, ?_, ?_, ?_, ?_, ?_, ?_, ?_, ?_, ?_, ?_, ?_, ?_, ?_, value (slotOp_ready hr) rfl (bext_eq_div _ _),
      fun sh => value (slotOp_ready hr) rfl (congrArg (s.rS a + ·) (shiftLeft_eq_mul_pow (s.rS b) sh.toNat))⟩
    all_goals exact does_of_run (slotOp_ready hr) rfl
  · exact does_of_run (slotOpA_ready hr) rfl
  · exact does_of_run (slotOp_ready hr) rfl
  · refine ⟨?_, ?_, ?_, fun imm => ⟨?_, ?_, ?_, ?_⟩, fun sh => ⟨?_, ?_, ?_⟩⟩
    all_goals exact does_of_run (slotOp_ready hr) rfl
  · exact does_of_run (slotOp_ready hr) rfl
  · exact does_of_run (slotOp_ready hr) rfl
  · refine ⟨?_, ?_, ?_, ?_⟩
    all_goals exact does_of_run (slotOp_ready hr) rfl
  · exact does_of_run (slotOp_ready hr) rfl
  · exact does_of_run (slotOp_ready hr) rfl
  · exact does_of_run (slotOp_ready (ready_none s)) rfl

/-! Division (R303, R305). -/

/-- R305: with a nonzero divisor, signed division is that of the library. -/
theorem divS_eq_sdiv {a b : Word} (hb : b ≠ 0) : divS a b = a.sdiv b := by
  rw [divS, if_neg hb]
  apply BitVec.eq_of_toInt_eq
  rw [BitVec.toInt_ofInt, BitVec.toInt_sdiv]

/-- R305: the signed remainder is that of the library, for a zero divisor too. -/
theorem remS_eq_srem (a b : Word) : remS a b = a.srem b := by
  unfold remS
  split
  · rename_i hb
    rw [hb]
    exact BitVec.srem_zero.symm
  · apply BitVec.eq_of_toInt_eq
    rw [BitVec.toInt_ofInt, ← BitVec.toInt_srem, BitVec.toInt_bmod_cancel]

/-- R305: with a nonzero divisor, unsigned division and its remainder. -/
theorem divZ_toNat {a b : Word} (hb : b ≠ 0) : (divZ a b).toNat = a.toNat / b.toNat := by
  rw [divZ, if_neg hb, BitVec.toNat_ofNat, Nat.mod_eq_of_lt (Nat.lt_of_le_of_lt (Nat.div_le_self _ _) a.isLt)]

theorem remZ_toNat {a b : Word} (hb : b ≠ 0) : (remZ a b).toNat = a.toNat % b.toNat := by
  rw [remZ, if_neg hb, BitVec.toNat_ofNat, Nat.mod_eq_of_lt (Nat.lt_of_le_of_lt (Nat.mod_le _ _) a.isLt)]

/-- R305: a remainder of truncating division is 0 or has the sign of the dividend. -/
theorem tmod_eq_zero_or_sign (a b : Int) : a.tmod b = 0 ∨ (a.tmod b < 0 ↔ a < 0) := by
  rcases lt_or_ge a 0 with ha | ha
  · have h : a.tmod b ≤ 0 := by
      have h := Int.tmod_nonneg b (a := -a) (by omega)
      rw [Int.neg_tmod] at h
      omega
    omega
  · have h := Int.tmod_nonneg b ha
    omega

/-- Writing a scalar register leaves the seat's count of bundles. -/
theorem wS_issued (s : State) (d : BitVec 6) (v : Word) (f : Fill) : (s.wS d v f).fseat.issued = s.fseat.issued := by
  unfold State.wS
  split
  · rfl
  · rw [fseat_modF]

/-- R303: with the seat's divider free, a divide takes it for its 34 bundles. -/
theorem does_divide {i : Instr} {s : State} {f : Word → Word → Word} {d a b : BitVec 6} {g : BitVec 4}
    (hr : Ready g [.s a, .s b] [.s d] s) (hfree : s.fseat.divFree ≤ s.fseat.issued) (hi : exec i s = divide f d a b g s) :
    Does i s ((s.wS d (f (s.rS a) (s.rS b)) (.soon (s.fseat.issued + 34))).modF
      (fun t => { t with divFree := s.fseat.issued + 34, divDst := d })) := by
  refine does_of_run (hi.trans (slotOp_ready hr)) ((if_neg (Nat.not_lt.mpr hfree)).trans ?_)
  simp only [State.modF, wS_issued]
  rfl

/-- Settles O2: the results are those of truncating division, and a divide takes the seat's divider. -/
theorem divisionResults : Obligations.DivisionResults := by
  refine ⟨fun a b => ⟨rfl, rfl, rfl, rfl, by decide, by decide, fun hb => ⟨divZ_toNat hb, ?_⟩, fun hb hne => ?_⟩,
    fun d a b g s hr hfree => ?_⟩
  · rw [divZ_toNat hb, remZ_toNat hb]
    exact (Nat.div_add_mod' _ _).symm
  · have hquot : (divS a b).toInt = a.toInt.tdiv b.toInt := by
      rw [divS_eq_sdiv hb]
      exact BitVec.toInt_sdiv_of_ne_or_ne a b (Decidable.not_and_iff_not_or_not.mp hne)
    rw [hquot, remS_eq_srem, BitVec.toInt_srem]
    exact ⟨rfl, (Int.tdiv_mul_add_tmod _ _).symm, tmod_eq_zero_or_sign _ _⟩
  · exact ⟨does_divide hr hfree rfl, does_divide hr hfree rfl, does_divide hr hfree rfl, does_divide hr hfree rfl⟩

/-! Bit counts (R306). -/

theorem clzFrom_le (w : Word) (n : Nat) : clzFrom w n ≤ n := by
  induction n with
  | zero => exact Nat.le_refl 0
  | succ n ih =>
    rw [clzFrom]
    split <;> omega

/-- R306: the bits that CLZ has passed are zero, and the one it stops at is a one. -/
theorem clzFrom_zeros {w : Word} {n i : Nat} (hi : i < n) (h : n - clzFrom w n ≤ i) : w.getLsbD i = false := by
  induction n with
  | zero => omega
  | succ n ih =>
    rw [clzFrom] at h
    split at h
    · omega
    · rename_i hbit
      by_cases hn : i = n
      · exact hn ▸ Bool.eq_false_of_not_eq_true hbit
      · exact ih (by omega) (by omega)

theorem clzFrom_one {w : Word} {n : Nat} (h : clzFrom w n < n) : w.getLsbD (n - 1 - clzFrom w n) = true := by
  induction n with
  | zero => omega
  | succ n ih =>
    rw [clzFrom] at h ⊢
    split
    · assumption
    · rename_i hbit
      rw [if_neg hbit] at h
      rw [show n + 1 - 1 - (1 + clzFrom w n) = n - 1 - clzFrom w n by omega]
      exact ih (by omega)

theorem ctzFrom_le (w : Word) (n : Nat) : ctzFrom w n ≤ n := by
  induction n with
  | zero => exact Nat.le_refl 0
  | succ n ih =>
    rw [ctzFrom]
    split <;> omega

/-- R306: the same of CTZ, which counts upwards from bit 64 − n. -/
theorem ctzFrom_zeros {w : Word} {n i : Nat} (hn : n ≤ 64) (h : i < ctzFrom w n) : w.getLsbD (64 - n + i) = false := by
  induction n generalizing i with
  | zero => exact absurd h (Nat.not_lt_zero i)
  | succ n ih =>
    rw [ctzFrom] at h
    split at h
    · omega
    · rename_i hbit
      cases i with
      | zero =>
        rw [show 64 - (n + 1) + 0 = 63 - n by omega]
        exact Bool.eq_false_of_not_eq_true hbit
      | succ i =>
        rw [show 64 - (n + 1) + (i + 1) = 64 - n + i by omega]
        exact ih (by omega) (by omega)

theorem ctzFrom_one {w : Word} {n : Nat} (hn : n ≤ 64) (h : ctzFrom w n < n) : w.getLsbD (64 - n + ctzFrom w n) = true := by
  induction n with
  | zero => omega
  | succ n ih =>
    rw [ctzFrom] at h ⊢
    split
    · rw [show 64 - (n + 1) + 0 = 63 - n by omega]
      assumption
    · rename_i hbit
      rw [if_neg hbit] at h
      rw [show 64 - (n + 1) + (1 + ctzFrom w n) = 64 - n + ctzFrom w n by omega]
      exact ih (by omega) (by omega)

theorem popFrom_eq_countP (w : Word) (n : Nat) : popFrom w n = (List.range n).countP (fun i => w.getLsbD i) := by
  induction n with
  | zero => rfl
  | succ n ih => simp [popFrom, ih, List.range_succ, List.countP_append, List.countP_cons, Nat.add_comm]

theorem clzFrom_eq_64_iff (w : Word) : clzFrom w 64 = 64 ↔ w = 0 := by
  refine ⟨fun h => BitVec.eq_of_getLsbD_eq fun i hi => ?_, fun h => ?_⟩
  · rw [clzFrom_zeros hi (by omega)]
    exact BitVec.getLsbD_zero.symm
  · subst h
    by_contra hne
    exact absurd (clzFrom_one (Nat.lt_of_le_of_ne (clzFrom_le 0 64) hne)) (by simp)

theorem ctzFrom_eq_64_iff (w : Word) : ctzFrom w 64 = 64 ↔ w = 0 := by
  refine ⟨fun h => BitVec.eq_of_getLsbD_eq fun i hi => ?_, fun h => ?_⟩
  · rw [← Nat.zero_add i, ctzFrom_zeros (n := 64) (Nat.le_refl 64) (by omega)]
    exact BitVec.getLsbD_zero.symm
  · subst h
    by_contra hne
    exact absurd (ctzFrom_one (Nat.le_refl 64) (Nat.lt_of_le_of_ne (ctzFrom_le 0 64) hne)) (by simp)

/-- Settles O3: each count is determined by induction on the bits it has passed. -/
theorem bitCountsAreCounts : Obligations.BitCountsAreCounts := by
  intro w
  refine ⟨clzFrom_le w 64, fun i h => ?_, clzFrom_one, ctzFrom_le w 64, fun i h => ?_, fun h => ?_, popFrom_eq_countP w 64,
    clzFrom_eq_64_iff w, ctzFrom_eq_64_iff w⟩
  · rcases Nat.lt_or_ge i 64 with hi | hi
    · exact clzFrom_zeros hi h
    · exact BitVec.getLsbD_of_ge w i hi
  · simpa using ctzFrom_zeros (Nat.le_refl 64) h
  · simpa using ctzFrom_one (Nat.le_refl 64) h

/-! Compares (R310). -/

/-- R310: a word of format SK decodes by its cond where pd is 0 to 7, and to nothing where it is 8 to 15. -/
theorem decodeS_compare (top : BitVec 1) (pd : BitVec 3) (a b : BitVec 6) (c : BitVec 3) (g : BitVec 4) :
    decodeS (0x14#6 ++ (top ++ (pd ++ (a ++ (b ++ (c ++ (0#3 ++ g))))))) =
      if top = 0 then
        if c = 0 then .ok (.cmpEq pd a b g) else if c = 1 then .ok (.cmpNe pd a b g)
        else if c = 2 then .ok (.cmpLtS pd a b g) else if c = 3 then .ok (.cmpLtZ pd a b g)
        else if c = 4 then .ok (.cmpGeS pd a b g) else if c = 5 then .ok (.cmpGeZ pd a b g)
        else .error (.subField 0 0x14)
      else .error (.subField 0 0x14) := by
  obtain ⟨hmajor, htop, hpd, ha, hb, hc, hzero, hg⟩ := Laws.layout_6_1_3_6_6_3_3_4 0x14#6 top pd a b c 0#3 g rfl
  rw [Laws.majorS_14 hmajor, decodeS14, hmajor, htop, hpd, ha, hb, hc, hzero, hg]
  by_cases h : top = 0#1 <;> simp [h]

/-- Settles O4: the word's fields are read back, and each compare writes its test. -/
theorem compareResults : Obligations.CompareResults := by
  intro pd a b c g s word
  refine ⟨?_, decodeS_compare 1 pd a b c g, fun hr => ⟨?_, ?_, ?_, ?_, ?_, ?_⟩, rfl, fun v => wP_zero s v⟩
  · rw [decodeS_compare, if_pos rfl]
    have hcond : c = 0 ∨ c = 1 ∨ c = 2 ∨ c = 3 ∨ c = 4 ∨ c = 5 ∨ c = 6 ∨ c = 7 := by
      revert c
      decide
    rcases hcond with rfl | rfl | rfl | rfl | rfl | rfl | rfl | rfl <;> rfl
  · exact does_of_run (slotOp_ready hr) (congrArg (fun v => Except.ok (s.wP pd v)) (beq_eq_decide _ _))
  · exact does_of_run (slotOp_ready hr) (congrArg (fun v => Except.ok (s.wP pd v)) (Bool.eq_iff_iff.mpr (by simp)))
  all_goals exact does_of_run (slotOp_ready hr) rfl

end Sys2Proof.Machine
end

section
/-! PROOF. Taking a cause and returning from its handler: the trace of an event, trap entry, TRAP, SNAPST, SNAPREL and ERET. -/

namespace Sys2Proof.Machine

/-! What an event's trace may change (R519 to R522). -/

/-- A core changes in anything but its operations in flight, and a seat in its pending asynchronous causes. -/
structure Traced (core x : Nat) (s t : State) : Prop where
  outside : { t with seats := s.seats, cores := s.cores } = s
  ops : ∀ c, (t.core c).ops = (s.core c).ops
  own : ∃ l, t.seatAt core x = { s.seatAt core x with async := l }
  others : ∀ c y, 2 * c + y ≠ 2 * core + x → t.seatAt c y = s.seatAt c y

theorem ops_setCore (s : State) (core : Nat) {k : Core} (hk : k.ops = (s.core core).ops) (c : Nat) :
    ((s.setCore core k).core c).ops = (s.core c).ops := by
  by_cases hc : c = core
  · subst hc
    rw [← hk, State.core, State.setCore_cores, aget_aput_same]
  · simp [State.core, State.setCore, aget_aput_ne _ hc]

theorem Traced.setCore (s : State) (core x : Nat) {k : Core} (hk : k.ops = (s.core core).ops) :
    Traced core x s (s.setCore core k) := ⟨rfl, ops_setCore s core hk, ⟨_, rfl⟩, fun _ _ _ => rfl⟩

/-- R519 to R522: an event is dropped, is recorded at its core, or is recorded and pends DEBUG_TRAP at its seat. -/
theorem traced_trace (s : State) (core x kind : Nat) (data : Word) : Traced core x s (s.trace core x kind data) := by
  unfold State.trace
  dsimp only
  split
  · exact ⟨rfl, fun _ => rfl, ⟨_, rfl⟩, fun _ _ _ => rfl⟩
  · split
    · exact .setCore s core x rfl
    · split
      · exact .setCore s core x rfl
      · split
        · exact ⟨rfl, ops_setCore s core rfl, ⟨_, seatAt_setSeat_same ..⟩, fun _ _ h => seatAt_setSeat_ne _ _ _ _ _ _ h⟩
        · exact .setCore s core x rfl

/-! Taking a cause (R321, R322, R435, R439). -/

theorem dropHeld_of_none {s : State} {core x : Nat} (h : (s.seatAt core x).kvHeld = none) : s.dropHeld core x = s := by
  unfold State.dropHeld
  rw [h]

theorem deferLeave_eq (t : Seat) : ∃ l, t.deferLeave = { t with leave := l } := by
  unfold Seat.deferLeave
  split
  · exact ⟨_, rfl⟩
  · exact ⟨_, rfl⟩
  · exact ⟨_, rfl⟩

theorem trapReady_deferLeave (t : Seat) : t.deferLeave.trapReady = t.trapReady := by
  obtain ⟨l, hl⟩ := deferLeave_eq t
  rw [hl]
  rfl

theorem trapBarred_deferLeave (t : Seat) :
    t.deferLeave.trapBarred = (t.tm || t.file.ctl.trapvec.extractLsb' 4 51 == 0) := by
  obtain ⟨l, hl⟩ := deferLeave_eq t
  rw [hl]
  rfl

section
variable {s : State} {core x : Nat} {e : Entry} (hkv : (s.seatAt core x).kvHeld = none)
include hkv

/-- R322, R439: with TM set or no handler the cause is a double fault. -/
theorem takeCause_barred (h : (s.seatAt core x).tm = true ∨ (s.seatAt core x).file.ctl.trapvec.extractLsb' 4 51 = 0) :
    s.takeCause core x e = s.fatal core x 0x50 := by
  have hbar : (s.seatAt core x).deferLeave.trapBarred = true := by simpa [trapBarred_deferLeave] using h
  simp [State.takeCause, dropHeld_of_none hkv, hbar]

variable (htm : (s.seatAt core x).tm = false) (hvec : (s.seatAt core x).file.ctl.trapvec.extractLsb' 4 51 ≠ 0)
include htm hvec

/-- R321, R435: a seat that is ready enters its handler. -/
theorem takeCause_ready (hready : (s.seatAt core x).trapReady = true) :
    s.takeCause core x e = (s.setSeat core x ((s.seatAt core x).deferLeave.enterTrap e)).trace core x 5
      ((mkCause e.cause e.slot e.pblk).zeroExtend 64) := by
  have hbar : (s.seatAt core x).deferLeave.trapBarred = false := by simpa [trapBarred_deferLeave, htm] using hvec
  simp [State.takeCause, dropHeld_of_none hkv, hbar, trapReady_deferLeave, hready]

/-- R435: a seat that is not ready waits to enter. -/
theorem takeCause_waits (hready : (s.seatAt core x).trapReady = false) :
    s.takeCause core x e =
      s.setSeat core x { (s.seatAt core x).deferLeave with run := .entering e, latch := none, tmWas := none } := by
  have hbar : (s.seatAt core x).deferLeave.trapBarred = false := by simpa [trapBarred_deferLeave, htm] using hvec
  simp [State.takeCause, dropHeld_of_none hkv, hbar, trapReady_deferLeave, hready]

end

/-- Settles O13: entering sets the seat and records an event; waiting to enter sets the seat. -/
theorem trapEntryFrame : Obligations.TrapEntryFrame := by
  intro s core x e hkv htm hvec u
  have hframe : { u with seats := s.seats, cores := s.cores } = s ∧
      (∀ c y, 2 * c + y ≠ 2 * core + x → u.seatAt c y = s.seatAt c y) ∧ ∀ c, (u.core c).ops = (s.core c).ops := by
    cases hready : (s.seatAt core x).trapReady with
    | true =>
      obtain ⟨outside, ops, own, others⟩ := traced_trace (s.setSeat core x ((s.seatAt core x).deferLeave.enterTrap e)) core x 5
        ((mkCause e.cause e.slot e.pblk).zeroExtend 64)
      rw [← takeCause_ready hkv htm hvec hready] at outside ops others
      exact ⟨congrArg (fun q : State => { q with seats := s.seats }) outside,
        fun c y h => (others c y h).trans (seatAt_setSeat_ne _ _ _ _ _ _ h), ops⟩
    | false =>
      have hu : u = _ := takeCause_waits hkv htm hvec hready
      rw [hu]
      exact ⟨rfl, fun c y h => seatAt_setSeat_ne _ _ _ _ _ _ h, fun _ => rfl⟩
  obtain ⟨outside, others, ops⟩ := hframe
  have same {α : Type} (f : State → α) : f { u with seats := s.seats, cores := s.cores } = f s := congrArg f outside
  exact ⟨fun pa => ⟨same (·.byteAt pa), same (·.homeByte pa), same (·.tagAt pa)⟩, same State.mem, same State.lines,
    same State.l1, same State.l2, same State.fe, same State.dies, same State.clusters, same State.ctl, same State.host,
    same State.focus, others, ops⟩

/-- R321, R435: what the entry leaves of the seat, its trace aside. -/
theorem enterTrap_deferLeave (t : Seat) (e : Entry) : ∃ l, t.deferLeave.enterTrap e = { t.enterTrap e with leave := l } := by
  obtain ⟨l, hl⟩ := deferLeave_eq t
  refine ⟨l, ?_⟩
  rw [hl]
  unfold Seat.enterTrap Seat.flushEfr
  cases t.efrPend.getLast? <;> rfl

/-- A read from a map after its values have changed. -/
theorem aget_map {α β : Type} (da : α) (db : β) (f : Nat → α → β) (k : Nat) (hd : f k da = db) (m : Assoc α) :
    aget db k (m.map fun e => (e.1, f e.1 e.2)) = f k (aget da k m) := by
  induction m with
  | nil => exact hd.symm
  | cons e m ih =>
    obtain ⟨j, v⟩ := e
    by_cases h : j = k
    · subst h
      simp [aget, alook]
    · simpa [aget, alook, h] using ih

/-- R71: pending writes of EFR take effect in EFR alone. -/
theorem flushEfr_eq (t : Seat) :
    ∃ l w, t.flushEfr = { t with efrPend := l, file := { t.file with ctl := { t.file.ctl with efr := w } } } := by
  unfold Seat.flushEfr
  split
  · exact ⟨_, _, rfl⟩
  · exact ⟨_, _, rfl⟩

/-- R435: the arrival of results of a fixed distance leaves the values of the registers. -/
theorem settleHigh_val (t : Seat) (k : Nat) :
    (aget sreg0 k t.settleHigh.file.regs.s).val = (aget sreg0 k t.file.regs.s).val := by
  have hmap := aget_map sreg0 sreg0 (fun i r => if 56 ≤ i then { r with fill := r.fill.settle } else r) k (ite_self _)
    t.file.regs.s
  refine (congrArg SReg.val hmap).trans ?_
  split <;> rfl

/-- Settles O12: a seat that is ready enters its handler, and the event's trace leaves all but its pending causes. -/
theorem trapEntryRecordsAndRedirects : Obligations.TrapEntryRecordsAndRedirects := by
  intro s core x e hkv t u
  refine ⟨fun htm hvec hready => ?_, fun htm hvec hready => takeCause_waits hkv htm hvec hready, takeCause_barred hkv⟩
  obtain ⟨l, hl⟩ := (traced_trace (s.setSeat core x (t.deferLeave.enterTrap e)) core x 5
    ((mkCause e.cause e.slot e.pblk).zeroExtend 64)).own
  rw [← takeCause_ready hkv htm hvec hready, seatAt_setSeat_same] at hl
  obtain ⟨lv, hlv⟩ := enterTrap_deferLeave t e
  obtain ⟨p, w, hflush⟩ := flushEfr_eq t
  have hu : u = { t.enterTrap e with leave := lv, async := l } := hl.trans (by rw [hlv])
  rw [hu, Seat.enterTrap, hflush]
  exact ⟨rfl, rfl, rfl, rfl, rfl, rfl, rfl, rfl, rfl, rfl, rfl, rfl, settleHigh_val _, fun _ => rfl, fun _ => rfl⟩

/-! TRAP, SNAPST and SNAPREL (R323 to R325, R433). -/

/-- Settles O16: TRAP notes its cause, and a deferred cause is the first that a seat takes at its boundary. -/
theorem softwareTrapIsTakenAfterItsBundle : Obligations.SoftwareTrapIsTakenAfterItsBundle := by
  intro imm g s own
  refine ⟨fun hr => does_of_run (slotOp_ready hr) rfl, ?_⟩
  intro core x e hrun hpair hstop hfirm hdef here
  have hdue : s.boundaryCause core x =
      some ((s.setSeat core x { s.seatAt core x with deferred := none }).takeCause core x here) := by
    simp only [State.boundaryCause, hrun, State.dueCause, hfirm, hdef]
    rfl
  have hhalt : halted (s.core core) = false := by rw [halted, hstop]
  have hshadow : (s.seatAt core x).shadow = false := by rw [Seat.shadow, hpair]
  simp only [State.attempt, hpair, State.attemptAlone, hrun, hshadow, hhalt, hdue]
  rfl

/-- Settles O17: SNAPST passes its checks one by one; SNAPREL is judged by what has been stored. -/
theorem handlerInstructionsComplete : Obligations.HandlerInstructionsComplete := by
  intro g s hr
  refine ⟨fun hlive => ?_, fun b ps hlive hps hso hroom => ?_, fun hdone => ?_, fun hdone => ?_⟩
  · exact does_of_run (i := .snapst g) (slotOp_ready hr) (by rw [hlive])
  · refine does_of_run (i := .snapst g) (slotOp_ready hr) ?_
    rw [hlive]
    simp only [hps, hso, ok_bind, State.storeScalar, seatStore_of_room hroom]
  · exact does_of_run (i := .snaprel g) (slotOp_ready hr) (by rw [if_pos hdone])
  · exact does_of_run (i := .snaprel g) (slotOp_ready hr) (by rw [if_neg (by simp [hdone])])

/-! ERET (R326, R438). -/

/-- Settles O14: what the live buffer holds, or the bytes at SNAPBASE, passes the checks or raises SNAPSHOT_INVALID. -/
theorem eretRestoresTheSnapshot : Obligations.EretRestoresTheSnapshot := by
  intro g s hr b base
  refine ⟨fun htm hok => ?_, fun htm hbad => ?_, ?_⟩
  · exact does_of_run (i := .eret g) (slotOp_ready hr) ((if_pos htm).trans (if_pos hok))
  · exact raises_of_run (i := .eret g) (slotOp_ready hr) ((if_pos htm).trans (if_neg (ne_true_of_eq_false hbad)))
  intro ps bs htm hps hread hclean u
  refine ⟨fun hok => ?_, fun hbad => ?_⟩
  · refine does_of_run (i := .eret g) (slotOp_ready hr) ((if_neg (ne_true_of_eq_false htm)).trans ?_)
    simp only [show s.seatPieces s.src.ctl.snapbase 256 .read = .ok ps from hps, hread, hclean, ok_bind]
    exact if_pos hok
  · refine raises_of_run (i := .eret g) (slotOp_ready hr) ((if_neg (ne_true_of_eq_false htm)).trans ?_)
    simp only [show s.seatPieces s.src.ctl.snapbase 256 .read = .ok ps from hps, hread, hclean, ok_bind]
    exact if_neg (ne_true_of_eq_false hbad)

end Sys2Proof.Machine
end

section
/-! PROOF. The fields of a snapshot, and what a restore reads there. -/

namespace Sys2Proof.Machine

/-! The fields of a snapshot (R437). -/

theorem seqBytes_length (q : Option Sequencer) : (seqBytes q).length = 48 := by
  cases q <;> simp [seqBytes]

theorem snapshotBytes_length (t : Seat) (e : Entry) : (snapshotBytes t e).length = 256 := by
  simp [snapshotBytes, Seat.sBytes, Seat.vBytes, Seat.pBytes, seqBytes_length]

/-- What stands n bytes or more into a list stands after its first n-byte value. -/
theorem drop_natToBytes_append {n off : Nat} (h : n ≤ off) (v : Nat) (l : List Byte) :
    (natToBytes n v ++ l).drop off = l.drop (off - n) := by
  rw [List.drop_append, List.drop_eq_nil_of_le (by simpa using h), natToBytes_length, List.nil_append]

/-- The i-th of a row of doublewords. -/
theorem doubleword_of_row (f : Nat → Nat) (n : Nat) (post : List Byte) {i : Nat} (hi : i < n) :
    (((List.range n).flatMap (fun j => natToBytes 8 (f j)) ++ post).drop (8 * i)).take 8 = natToBytes 8 (f i) := by
  induction n generalizing post with
  | zero => exact absurd hi (Nat.not_lt_zero i)
  | succ n ih =>
    rw [List.range_succ, List.flatMap_append, List.append_assoc]
    by_cases h : i = n
    · subst h
      rw [List.drop_left' (by simp [List.length_flatMap, Nat.mul_comm])]
      simp
    · exact ih _ (by omega)

section
variable (t : Seat) (e : Entry)

theorem snapshotBytes_epc : (snapshotBytes t e).take 8 = natToBytes 8 (pcVa e.epc) := by
  simp [snapshotBytes]

theorem snapshotBytes_faddr : ((snapshotBytes t e).drop 8).take 8 = natToBytes 8 e.faddr.toNat := by
  simp [snapshotBytes]

theorem snapshotBytes_rb : ((snapshotBytes t e).drop 0x14).take 1 = natToBytes 1 (rotRb t.file.ctl.rot) := by
  simp [snapshotBytes, drop_natToBytes_append]

theorem snapshotBytes_stage : ((snapshotBytes t e).drop 0x18).take 8 = natToBytes 8 t.file.ctl.stage.toNat := by
  simp [snapshotBytes, drop_natToBytes_append]

theorem snapshotBytes_loopb : ((snapshotBytes t e).drop 0x20).take 8 = natToBytes 8 t.file.ctl.loopb.toNat := by
  simp [snapshotBytes, drop_natToBytes_append]

theorem snapshotBytes_high {i : Nat} (hi : i < 8) : ((snapshotBytes t e).drop (0x28 + 8 * i)).take 8 =
    natToBytes 8 (aget sreg0 (56 + i) t.file.regs.s).val.toNat := by
  rw [← List.drop_drop]
  simp only [snapshotBytes, List.append_assoc, drop_natToBytes_append, Nat.reduceLeDiff, Nat.reduceSub, List.drop_zero]
  exact doubleword_of_row (fun j => (aget sreg0 (56 + j) t.file.regs.s).val.toNat) 8 _ hi

end

/-- A doubleword written in full reads as its value. -/
theorem ofNat_bytesToNat_natToBytes (w : Word) : BitVec.ofNat 64 (bytesToNat (natToBytes 8 w.toNat)) = w := by
  rw [bytesToNat_natToBytes, Nat.mod_eq_of_lt w.isLt, BitVec.ofNat_toNat, BitVec.setWidth_eq]

/-! The registers restored (R283, R285, R326). -/

/-- Writes to consecutive places, one after the other, are read back at each of them. -/
theorem aget_foldl_aput {α : Type} (d : α) (k : Nat) (f : Nat → α) (n : Nat) (m : Assoc α) {i : Nat} (hi : i < n) :
    aget d (k + i) ((List.range n).foldl (fun m j => aput (k + j) (f j) m) m) = f i := by
  induction n with
  | zero => exact absurd hi (Nat.not_lt_zero i)
  | succ n ih =>
    rw [List.range_succ, List.foldl_append]
    by_cases h : i = n
    · subst h
      exact aget_aput_same _ _ _ _
    · exact (aget_aput_ne _ (by omega) _ _).trans (ih (by omega))

theorem rotRb_mkRot {rb size : Nat} (hrb : rb < 16) (hsize : size < 32) : rotRb (mkRot rb size) = rb := by
  simp only [rotRb, mkRot, BitVec.extractLsb'_toNat, BitVec.toNat_ofNat, Nat.shiftRight_eq_div_pow]
  omega

theorem rotSize_mkRot {rb size : Nat} (hsize : size < 32) : rotSize (mkRot rb size) = size := by
  simp only [rotSize, mkRot, BitVec.extractLsb'_toNat, BitVec.toNat_ofNat, Nat.shiftRight_zero]
  omega

/-- R285: STAGE from its own fields is STAGE with its reserved bits 0. -/
theorem mkStage_fields (w : Word) :
    mkStage (stageAct w) (stageSm1 w) (stageIter w) (stageCnt w) = w &&& 0xF001FFFFFFFFFFFF#64 := by
  have hmask : ∀ i < 64, (0xF001FFFFFFFFFFFF#64).getLsbD i = (decide (i < 49) || decide (60 ≤ i)) := by decide
  apply BitVec.eq_of_getLsbD_eq
  intro i hi
  rw [BitVec.getLsbD_and, hmask i hi]
  simp only [mkStage, stageSm1, stageIter, stageCnt, BitVec.ofNat_toNat, BitVec.setWidth_eq, BitVec.getLsbD_append,
    BitVec.getLsbD_extractLsb']
  -- the count, the iteration, the reserved bits, S − 1 and ACT
  have hfield : i < 24 ∨ (24 ≤ i ∧ i < 49) ∨ (49 ≤ i ∧ i < 60) ∨ (60 ≤ i ∧ i < 63) ∨ i = 63 := by omega
  rcases hfield with h | ⟨hlo, h⟩ | ⟨hlo, h⟩ | ⟨hlo, h⟩ | rfl
  · simp [h, show i < 63 by omega, show i < 60 by omega, show i < 49 by omega]
  · simp [h, show i < 63 by omega, show i < 60 by omega, show ¬i < 24 by omega, show i - 24 < 25 by omega,
      show 24 + (i - 24) = i by omega]
  · simp [show i < 63 by omega, h, show ¬i < 49 by omega, show ¬60 ≤ i by omega]
  · simp [h, show ¬i < 60 by omega, show ¬i < 49 by omega, show i - 60 < 3 by omega, show 60 + (i - 60) = i by omega, hlo]
  · unfold stageAct
    cases w.getLsbD 63 <;> simp

/-- What a snapshot holds of s56 + i. -/
def snapReg (b : List Byte) (i : Nat) : SReg :=
  { val := BitVec.ofNat 64 (bytesToNat ((b.drop (0x28 + 8 * i)).take 8))
    fill := if (nth 0 (0x68 + 56 + i) b).getLsbD 7 then .orphaned else .full }

section
variable (t : Seat) (b : List Byte)

theorem restore_rot : (t.restore b).file.ctl.rot = mkRot (bytesToNat ((b.drop 0x14).take 1)) (rotSize t.file.ctl.rot) := rfl

theorem restore_loopb : (t.restore b).file.ctl.loopb = BitVec.ofNat 64 (bytesToNat ((b.drop 0x20).take 8)) := rfl

theorem restore_stage : (t.restore b).file.ctl.stage =
    BitVec.ofNat 64 (bytesToNat ((b.drop 0x18).take 8)) &&& 0xF001FFFFFFFFFFFF#64 := mkStage_fields _

theorem restore_high {i : Nat} (hi : i < 8) :
    aget sreg0 (56 + i) (t.restore b).file.regs.s = snapReg b i := aget_foldl_aput sreg0 56 (snapReg b) 8 t.file.regs.s hi

end

/-- Settles O15: each field of a snapshot reads as what its capture wrote there. -/
theorem snapshotRestoresWhatItCaptured : Obligations.SnapshotRestoresWhatItCaptured := by
  intro t e b u
  have hrb : rotRb t.file.ctl.rot < 16 := BitVec.isLt _
  have hsize : rotSize t.file.ctl.rot < 32 := BitVec.isLt _
  have hrot : u.file.ctl.rot = mkRot (rotRb t.file.ctl.rot) (rotSize t.file.ctl.rot) := by
    rw [restore_rot, snapshotBytes_rb, bytesToNat_natToBytes, Nat.mod_eq_of_lt (by omega)]
  refine ⟨snapshotBytes_length t e, ?_, ?_, ?_, ?_, fun i hi => ?_, ?_, ?_⟩
  · rw [restore_stage, snapshotBytes_stage, ofNat_bytesToNat_natToBytes]
  · rw [restore_loopb, snapshotBytes_loopb, ofNat_bytesToNat_natToBytes]
  · rw [hrot, rotRb_mkRot hrb hsize]
  · rw [hrot, rotSize_mkRot hsize]
  · rw [restore_high t b hi, snapReg, snapshotBytes_high t e hi, ofNat_bytesToNat_natToBytes]
  · rw [snapshotBytes_epc, bytesToNat_natToBytes, pcVa, Nat.mod_eq_of_lt (by have h := e.epc.isLt; omega)]
  · rw [snapshotBytes_faddr, bytesToNat_natToBytes, Nat.mod_eq_of_lt e.faddr.isLt]

end Sys2Proof.Machine
end

section
/-! PROOF. The vector loads: what a tile and a run list ask for, and the arrival of loaded data. -/

namespace Sys2Proof.Machine

/-! The start of a vector load (R358, R359, R367). -/

section
variable {s : State} {v : BitVec 5} {base : Word} {q : VLoadAsk}

/-- R359: a load from scratchpad of ranges that no earlier entry covers starts. -/
theorem vload_scratchpad {rs : List (Word × Nat)} (hq : s.spRanges q = .ok rs)
    (hfree : ∀ r ∈ rs, s.awaitSpans s.window r.1 r.2 = .ok ()) :
    s.vload v 1 base q = .ok (s.startSpLoad v { q with ranges := rs }) := by
  simp only [State.vload, if_true, hq, ok_bind, forM_ok hfree]

/-- R359, R367: a load from virtual memory starts over its translated pieces, a run list's cut to what it occupies. -/
theorem vload_virtual {pss : List (List Piece)} (hp : q.ranges.mapM (fun r => s.seatPieces r.1 r.2 .read) = .ok pss) :
    s.vload v 0 base q = .ok ((s.install false pss.flatten).startVLoad v q (if q.kind = 2 then pss.map (fun ps =>
      State.vload.cutTo (64 * runListBlocks q.cap (((s.install false pss.flatten).seatRead ps).take 64)) ps) else pss) base) := by
  refine (if_neg (by decide)).trans ?_
  rw [hp]
  rfl

/-- R359: an instruction whose run is a vector load, in its two forms. -/
theorem loads_of_run {i : BitVec 1 → Instr} (hi : ∀ sp, exec (i sp) s = .next (settle s (s.vload v sp base q))) :
    (∀ rs, s.spRanges q = .ok rs → (∀ r ∈ rs, s.awaitSpans s.window r.1 r.2 = .ok ()) →
      Does (i 1) s (s.startSpLoad v { q with ranges := rs })) ∧
    (∀ pss, q.ranges.mapM (fun r => s.seatPieces r.1 r.2 .read) = .ok pss →
      Does (i 0) s ((s.install false pss.flatten).startVLoad v q (if q.kind = 2 then pss.map (fun ps =>
        State.vload.cutTo (64 * runListBlocks q.cap (((s.install false pss.flatten).seatRead ps).take 64)) ps) else pss) base)) :=
  ⟨fun _ hq hfree => does_of_run (hi 1) (vload_scratchpad hq hfree), fun _ hp => does_of_run (hi 0) (vload_virtual hp)⟩

end

section
variable {s : State} {v : BitVec 5} {a : BitVec 6} {sp : BitVec 1} {fsel g : BitVec 4} {kind : Nat} {p : Params}

/-- R358: an aligned tile is loaded. -/
theorem tileLoad_aligned {stride : Option Nat}
    (h : misaligned (fselCode fsel) (s.rS a) stride false s.shape.1 s.shape.2 = none) :
    s.tileLoad kind v a sp fsel stride = s.vload v sp (s.rS a) (s.tileAsk kind (s.rS a) (fselCode fsel) stride) := by
  simp only [State.tileLoad, h]
  rfl

/-- R358: from scratchpad a misaligned tile raises MISALIGNED with its offset. -/
theorem tileLoad_misaligned {stride : Option Nat} {o : Word}
    (h : misaligned (fselCode fsel) (s.rS a) stride false s.shape.1 s.shape.2 = some o) :
    s.tileLoad kind v a 1 fsel stride = raiseX 0x26 o := by
  simp only [State.tileLoad, h]
  rfl

/-- R367: a run list at an aligned place is loaded. -/
theorem runLoad_aligned {stride cap : Nat} {want : W32} (hb : (s.rS a).toNat % 64 = 0) (hs : stride % 64 = 0) :
    s.runLoad v a sp stride cap want = s.vload v sp (s.rS a) (runAsk (s.rS a) cap want) := by
  simp only [State.runLoad, runMisaligned, hb, hs]
  rfl

theorem tileLoadOp_plain (hr : Ready g [.s a] [.v v] s) :
    tileLoadOp kind v a sp fsel 0 g s = .next (settle s (s.tileLoad kind v a sp fsel none)) := slotOp_ready hr

theorem tileLoadOp_block (hr : Ready g ([.s a] ++ markerSrcs s.focus.block) [.v v] s) (hp : s.params = .ok p)
    (hb : vBlockOk p true false (some s.shape) = true) :
    tileLoadOp kind v a sp fsel 1 g s = .next (settle s (s.tileLoad kind v a sp fsel (some p.stride))) :=
  blockOp_ready hr hp (if_pos hb)

theorem exec_vldRun (hr : Ready g [.s a] [.v v] s) :
    exec (.vldRun v a sp 0 g) s = .next (settle s (s.runLoad v a sp 0 1024 0)) := slotOp_ready hr

theorem exec_vldRun_block (hr : Ready g ([.s a] ++ markerSrcs s.focus.block) [.v v] s) (hp : s.params = .ok p)
    (hb : vBlockOk p true true none = true) :
    exec (.vldRun v a sp 1 g) s = .next (settle s (s.runLoad v a sp p.stride p.aux.toNat (nth 0 0 p.words))) :=
  blockOp_ready hr hp (if_pos hb)

end

/-! Arrivals (R315, R362, R363). -/

section
variable {s : State} {core id : Nat}

/-- R360 to R363: a vector load whose data is complete and may arrive fills its register, or marks it faulted. -/
theorem exec_vectorLoadComplete {o : VLoadOp} (hcore : core < 400) (hop : s.op core id = some (.vload o))
    (hdata : o.waits = [] ∨ o.failed.isSome = true)
    (hmay : (s.seatAt core o.seat).mayArrive o.least ((s.seatAt core o.seat).awaitsV o.reg) (halted (s.core core)) false = true) :
    let u := (s.dropOp core id).makeArrivals core
    exec (.vectorLoadComplete core id) s = .next (match o.result (s.core core).codeTable with
      | .ok r => (u.fillV core o.seat id o.reg
          (fun _ => { rows := r.1, cols := r.2.1, runs := r.2.2.1, fill := .full })).lateFlags core o.seat r.2.2.2
      | .error e => u.fillV core o.seat id o.reg (fun x => { x with fill := .faulted e.1 e.2 })) := by
  refine dev_next (coreThere_of_lt hcore) ?_
  have hhere : (!o.waits.isEmpty && o.failed.isNone) = false := by
    rcases hdata with h | h <;> simp [h]
  rw [hop]
  simp only [hhere, hmay]
  cases o.result (s.core core).codeTable <;> rfl

/-- R315: a scalar load whose value may arrive fills its register. -/
theorem exec_loadComplete {o : LoadOp} (hcore : core < 400) (hop : s.op core id = some (.load o))
    (hmay : (s.seatAt core o.seat).mayArrive o.least ((s.seatAt core o.seat).awaitsS o.reg.toNat) (halted (s.core core))
      (decide (56 ≤ o.reg.toNat)) = true) :
    exec (.loadComplete core id) s = .next ((s.dropOp core id).fillS core o.seat id o.reg o.val) := by
  refine dev_next (coreThere_of_lt hcore) ?_
  rw [hop]
  simp only [hmay]
  rfl

end

/-- Settles O32: an aligned load is its start, in both forms; an arrival is its operation's result. -/
theorem vectorLoadsGoOnTheirWay : Obligations.VectorLoadsGoOnTheirWay := by
  intro v a fsel g p s base c sh starts
  refine ⟨fun hr => ⟨fun hm => ⟨?_, ?_⟩, fun o hm => ?_, fun hb => ?_⟩,
    fun hr hp => ⟨fun hk hm => ⟨?_, ?_⟩, fun hk hb hs => ?_⟩,
    fun core id o => exec_vectorLoadComplete, fun core id o => exec_loadComplete⟩
  · exact loads_of_run (i := fun sp => .vld v a sp fsel 0 g) (fun sp => tileLoad_aligned hm ▸ tileLoadOp_plain hr)
  · exact loads_of_run (i := fun sp => .vlds v a sp fsel 0 g) (fun sp => tileLoad_aligned hm ▸ tileLoadOp_plain hr)
  · exact raises_of_run (i := .vld v a 1 fsel 0 g) (tileLoadOp_plain hr) (tileLoad_misaligned hm)
  · exact loads_of_run (i := fun sp => .vldRun v a sp 0 g) (fun sp => runLoad_aligned hb (Nat.zero_mod 64) ▸ exec_vldRun hr)
  · exact loads_of_run (i := fun sp => .vld v a sp fsel 1 g)
      (fun sp => tileLoad_aligned hm ▸ tileLoadOp_block hr.append_comm hp hk)
  · exact loads_of_run (i := fun sp => .vlds v a sp fsel 1 g)
      (fun sp => tileLoad_aligned hm ▸ tileLoadOp_block hr.append_comm hp hk)
  · exact loads_of_run (i := fun sp => .vldRun v a sp 1 g)
      (fun sp => runLoad_aligned hb hs ▸ exec_vldRun_block hr.append_comm hp hk)

end Sys2Proof.Machine
end

section
/-! PROOF. The element-wise rule, element by element: the segments of two runs lists against the elements laid end to end. -/

namespace Sys2Proof.Machine

/-! Segments of two runs lists (R336). -/

/-- R336: what is left of runs once m elements of the first, a run of n, are taken. -/
def afterSegment (m : Nat) (v : W32) (n : Nat) (t : Runs) : Runs := if n ≤ m then t else (v, n - m) :: t

/-- R336: the first segment of two runs lists ends with the shorter of their first runs. -/
theorem align_pair_cons (fuel : Nat) (v w : W32) (n k : Nat) (xs ys : Runs) :
    align (fuel + 1) [(v, n) :: xs, (w, k) :: ys] =
      ([v, w], Nat.min n k) :: align fuel [afterSegment (Nat.min n k) v n xs, afterSegment (Nat.min n k) w k ys] := rfl

theorem expand_cons (v : W32) (n : Nat) (t : Runs) : expand ((v, n) :: t) = List.replicate n v ++ expand t := List.flatMap_cons

/-- The elements of runs are those of a first segment and those left after it. -/
theorem expand_eq_segment_append {m n : Nat} (h : m ≤ n) (v : W32) (t : Runs) :
    expand ((v, n) :: t) = List.replicate m v ++ expand (afterSegment m v n t) := by
  unfold afterSegment
  split
  · next hn => rw [expand_cons, Nat.le_antisymm hn h]
  · rw [expand_cons, expand_cons, ← List.append_assoc, List.replicate_append_replicate, Nat.add_sub_cancel' h]

theorem afterSegment_pos {m n : Nat} {v : W32} {t : Runs} (h : ∀ r ∈ t, 0 < r.2) : ∀ r ∈ afterSegment m v n t, 0 < r.2 := by
  unfold afterSegment
  split
  · exact h
  · exact List.forall_mem_cons.mpr ⟨by simp; omega, h⟩

/-- A segment as long as the shorter of two first runs uses one of them up. -/
theorem afterSegment_min_length (v w : W32) (n k : Nat) (xs ys : Runs) :
    (afterSegment (Nat.min n k) v n xs).length + (afterSegment (Nat.min n k) w k ys).length ≤ xs.length + ys.length + 1 := by
  have h : Nat.min n k = min n k := rfl
  simp only [afterSegment, h, apply_ite List.length, List.length_cons]
  split_ifs <;> omega

/-- R335, R336: laid end to end, an operation on the values of the segments is the operation element by element. -/
theorem expand_align_pair (f : W32 → W32 → W32) (fuel : Nat) (xs ys : Runs) (hx : ∀ r ∈ xs, 0 < r.2) (hy : ∀ r ∈ ys, 0 < r.2)
    (hl : (expand xs).length = (expand ys).length) (hf : xs.length + ys.length ≤ fuel) :
    expand ((align fuel [xs, ys]).map (fun g => (f (nth 0 0 g.1) (nth 0 1 g.1), g.2))) = List.zipWith f (expand xs) (expand ys) := by
  induction fuel generalizing xs ys with
  | zero =>
    rw [List.length_eq_zero_iff.mp (show xs.length = 0 by omega)]
    rfl
  | succ fuel ih =>
    match xs, ys with
    | [], _ => rfl
    | (v, n) :: xs, [] =>
      have hn := hx (v, n) List.mem_cons_self
      simp [expand] at hl hn
      omega
    | (v, n) :: xs, (w, k) :: ys =>
      have hvn := expand_eq_segment_append (Nat.min_le_left n k) v xs
      have hwk := expand_eq_segment_append (Nat.min_le_right n k) w ys
      have hrest := afterSegment_min_length v w n k xs ys
      rw [align_pair_cons, List.map_cons, expand_cons, ih _ _ (afterSegment_pos (List.forall_mem_cons.mp hx).2)
          (afterSegment_pos (List.forall_mem_cons.mp hy).2), hvn, hwk, List.zipWith_append (by simp), List.zipWith_replicate']
      · rfl
      · simpa [hvn, hwk] using hl
      · simp only [List.length_cons] at hf
        omega

/-- R335, R336: over two runs lists and without a mask, the rule computes segment by segment, up to 1,024 of them. -/
theorem ewCompute_pair (f : W32 → W32 → W32 × VF) (xs ys : Runs) :
    ewCompute (fun x => f (nth 0 0 x) (nth 0 1 x)) [xs, ys] none none =
      let seg (g : List W32 × Nat) := f (nth 0 0 g.1) (nth 0 1 g.1)
      if 1024 < (segments_ [xs, ys]).length then raiseX 0x12 (BitVec.ofNat 64 (segments_ [xs, ys]).length)
      else .ok ((segments_ [xs, ys]).map (fun g => ((seg g).1, g.2)), (segments_ [xs, ys]).foldl (fun v g => v ||| (seg g).2) 0) := by
  have two {d : W32} {l : List W32} : nth d 0 (l.take 2) = nth d 0 l ∧ nth d 1 (l.take 2) = nth d 1 l := by simp [nth]
  by_cases h : 1024 < (segments_ [xs, ys]).length
  · simp [ewCompute, runLimit, h, raiseX]
  · simp [ewCompute, runLimit, h, two, List.foldl_map, Function.comp_def]

/-- Settles O27: the segments' results, laid end to end, by induction over the segments; the refusal is runLimit's. -/
theorem elementwiseRuleIsPointwise : Obligations.ElementwiseRuleIsPointwise := by
  intro f xs ys hx hy hl
  rw [ewCompute_pair]
  by_cases h : 1024 < (segments_ [xs, ys]).length
  · simp only [h, if_true]
    exact ⟨rfl, trivial⟩
  · simp only [h, if_false]
    exact ⟨expand_align_pair (fun a b => (f a b).1) _ xs ys hx hy hl (by simp), Nat.le_of_not_lt h⟩

end Sys2Proof.Machine
end

section
/-! PROOF. Stored run lists: the fields of the bytes that VST.RUN stores, and their decoding. -/

namespace Sys2Proof.Machine

/-! The bytes of a stored run list (R365). -/

/-- R365: the header of a stored run list. -/
def runListHeader (x : VReg) : List Byte := natToBytes 1 x.rows ++ natToBytes 1 x.cols ++ natToBytes 2 x.occ ++ natToBytes 4 0

/-- R365: the entry of a run. -/
def runEntry (r : W32 × Nat) : List Byte := natToBytes 4 r.1.toNat ++ natToBytes 2 r.2 ++ natToBytes 2 0

@[simp] theorem runEntry_length (r : W32 × Nat) : (runEntry r).length = 8 := by simp [runEntry]

/-- A stored run list is its header, its entries and a padding. -/
theorem runListBytes_eq (x : VReg) : ∃ pad, runListBytes x = runListHeader x ++ (x.runs.flatMap runEntry ++ pad) :=
  ⟨_, List.append_assoc _ _ _⟩

/-- What stands from entry j on. -/
theorem drop_entries {l : Runs} {j : Nat} (h : j < l.length) (pad : List Byte) :
    ∃ rest, (l.flatMap runEntry ++ pad).drop (8 * j) = runEntry l[j] ++ rest := by
  induction l generalizing j with
  | nil => simp at h
  | cons r l ih =>
    cases j with
    | zero => exact ⟨_, by rw [List.flatMap_cons, List.append_assoc]; rfl⟩
    | succ j =>
      obtain ⟨rest, hr⟩ := ih (j := j) (by simpa using h)
      refine ⟨rest, ?_⟩
      rw [List.flatMap_cons, List.append_assoc, Nat.mul_succ, Nat.add_comm, ← List.drop_drop, List.drop_left' (runEntry_length r)]
      exact hr

/-- A value of n bytes, read back before other bytes. -/
theorem bytesToNat_take_natToBytes {n v : Nat} (h : v < 2 ^ (8 * n)) (post : List Byte) :
    bytesToNat ((natToBytes n v ++ post).take n) = v := by
  rw [List.take_left' (natToBytes_length n v), bytesToNat_natToBytes, Nat.mod_eq_of_lt h]

/-- R365, R367: a stored list gives its rows, columns and number of runs, and its reserved bytes are 0. -/
theorem header_runListBytes {x : VReg} (hrows : x.rows ≤ 64) (hcols : x.cols ≤ 64) (hocc : x.occ ≤ 1024) :
    listShape (runListBytes x) = (x.rows, x.cols, x.occ) ∧ bytesToNat (((runListBytes x).drop 4).take 4) = 0 := by
  obtain ⟨pad, hb⟩ := runListBytes_eq x
  simp only [listShape, hb, runListHeader, List.append_assoc, drop_natToBytes_append, Nat.reduceLeDiff, Nat.reduceSub, Nat.le_refl,
    Nat.sub_self, List.drop_zero]
  rw [bytesToNat_take_natToBytes (by omega), bytesToNat_take_natToBytes (by omega), bytesToNat_take_natToBytes (by omega),
    bytesToNat_take_natToBytes (by omega)]
  exact ⟨rfl, rfl⟩

/-- R365: entry j of a stored list reads as run j. -/
theorem listRun_runListBytes {x : VReg} {j : Nat} (hj : j < x.runs.length) (hr : 1 ≤ x.runs[j].2 ∧ x.runs[j].2 ≤ 4096) :
    listRun (runListBytes x) j = some x.runs[j] := by
  obtain ⟨pad, hb⟩ := runListBytes_eq x
  obtain ⟨rest, he⟩ := drop_entries hj pad
  have hhead : (runListHeader x).length = 8 := by simp [runListHeader]
  have hd : (runListBytes x).drop (8 + 8 * j) = runEntry x.runs[j] ++ rest := by
    rw [hb, ← List.drop_drop, List.drop_left' hhead, he]
  have hw := x.runs[j].1.isLt
  simp only [listRun, hd, runEntry, List.append_assoc, drop_natToBytes_append, Nat.reduceLeDiff, Nat.reduceSub, Nat.le_refl,
    Nat.sub_self, List.drop_zero]
  rw [bytesToNat_take_natToBytes (by omega), bytesToNat_take_natToBytes (by omega), bytesToNat_take_natToBytes (by omega),
    if_pos ⟨hr.1, hr.2, rfl⟩, BitVec.ofNat_toNat, BitVec.setWidth_eq]

/-- R365: the entries of a block are entries of the list. -/
theorem lt_of_mem_blockEntries {occ i j : Nat} (h : j ∈ blockEntries occ i) : j < occ := by
  unfold blockEntries at h
  split at h
  · exact Nat.lt_of_lt_of_le (List.mem_range.mp h) (Nat.min_le_left _ _)
  · obtain ⟨k, hk, rfl⟩ := List.mem_map.mp h
    have hk := Nat.lt_of_lt_of_le (List.mem_range.mp hk) (Nat.min_le_right _ _)
    omega

/-- The runs of a list, read entry by entry. -/
theorem filterMap_listRun {x : VReg} (hr : ∀ r ∈ x.runs, 1 ≤ r.2 ∧ r.2 ≤ 4096) :
    (List.range x.occ).filterMap (listRun (runListBytes x)) = x.runs := by
  have h : ∀ j ∈ List.range x.occ, listRun (runListBytes x) j = some (nth (0, 0) j x.runs) := by
    intro j hj
    have hlt : j < x.runs.length := List.mem_range.mp hj
    rw [listRun_runListBytes hlt (hr _ (List.getElem_mem hlt)), nth, List.getElem?_eq_getElem hlt, Option.getD_some]
  rw [List.filterMap_congr h, List.filterMap_eq_map']
  exact map_nth_range (0, 0) x.runs

/-- Settles O34: no block of the stored list has a cause, and its entries read as its runs. -/
theorem storedRunListsLoadBack : Obligations.StoredRunListsLoadBack := by
  intro x o base hr1 hr2 hc1 hc2 ho1 ho2 hcap hruns hll hsum hwant hsegs htags
  obtain ⟨hshape, hzero⟩ := header_runListBytes hr2 hc2 (Nat.le_trans ho2 hcap)
  have hheader : o.headerOk (runListBytes x) = true := by simp [VLoadOp.headerOk, *]
  have hcause : ∀ i ∈ List.range (runListBlocks o.cap (runListBytes x)), o.blockCause base (runListBytes x) i = none := by
    intro i hi
    have hentries : (blockEntries x.occ i).any (fun j => (listRun (runListBytes x) j).isNone) = false := by
      refine List.any_eq_false.mpr fun j hj => ?_
      have hlt : j < x.runs.length := lt_of_mem_blockEntries hj
      simp [listRun_runListBytes hlt (hruns _ (List.getElem_mem hlt))]
    rw [VLoadOp.blockCause, htags i (List.mem_range.mp hi)]
    simp [hshape, hheader, hentries]
  simp only [decodeRunList, hsegs, List.findSome?_eq_none_iff.mpr hcause, hshape, filterMap_listRun hruns, hsum, if_true]

end Sys2Proof.Machine
end

section
/-! PROOF. The pattern memory: PATLD, PATSW and VPERM. -/

namespace Sys2Proof.Machine

/-! PATLD (R351, R352). -/

/-- R351: the pattern that a register's elements spell. -/
def VReg.pattern (a : VReg) : Pattern :=
  { header := runAt a.runs 0, segs := (List.range (patSegs (runAt a.runs 0))).map (fun i => runAt a.runs (i + 1)) }

section
variable {va : BitVec 5} {pat : BitVec 6} {g : BitVec 4} {s : State} (hr : Ready g [.v va] [] s)
include hr

/-- R352: a malformed header. -/
theorem patld_malformed (h : patHeaderOk (runAt (s.rV va).runs 0) = false) : Raises (.patld va pat g) s 0x15 0 :=
  raises_of_run (i := .patld va pat g) (slotOp_ready hr) (if_pos (by rw [h]; rfl))

/-- R351, R352: a well-formed pattern goes to the inactive bank. -/
theorem patld_wellFormed (h : patHeaderOk (runAt (s.rV va).runs 0) = true)
    (hw : ∀ i, i < patSegs (runAt (s.rV va).runs 0) → i + 1 < (s.rV va).ll ∧ (runAt (s.rV va).runs (i + 1)).extractLsb' 24 8 = 0) :
    Does (.patld va pat g) s
      (s.modFcore (fun c => { c with patterns := aput (64 * (1 - c.bank) + pat.toNat) (s.rV va).pattern c.patterns })) := by
  have hbad : (List.range (patSegs (runAt (s.rV va).runs 0))).find?
      (fun i => decide ((s.rV va).ll ≤ i + 1) || (runAt (s.rV va).runs (i + 1)).extractLsb' 24 8 != 0) = none := by
    refine List.find?_eq_none.mpr fun i hi => ?_
    obtain ⟨hlen, hzero⟩ := hw i (List.mem_range.mp hi)
    simp [hzero, hlen]
  refine does_of_run (i := .patld va pat g) (slotOp_ready hr) ?_
  simp only [h, Bool.not_true, Bool.false_eq_true, if_false, hbad]
  rfl

end

/-! VPERM (R353, R354). -/

section
variable {vd va : BitVec 5} {pat : BitVec 6} {g : BitVec 4} {s : State} (hr : Ready g [.v va] [.v vd] s)
include hr

/-- R354: the permuted elements, joined into runs. -/
theorem vperm_loaded {p : Pattern} {out : List W32} (hp : alook (64 * s.fcore.bank + pat.toNat) s.fcore.patterns = some p)
    (hout : permute p va (s.rV va) s.shape = .ok out) (hlen : (ofElems out).length ≤ 1024) :
    Does (.vperm vd va pat g) s (s.putV vd 6 s.shape.1 s.shape.2 (ofElems out)) := by
  refine does_of_run (i := .vperm vd va pat g) (slotOp_ready hr) ?_
  simp only [hp, hout, runLimit_ok hlen, bind, Except.bind]

/-- R354: a pattern never loaded. -/
theorem vperm_missing (hp : alook (64 * s.fcore.bank + pat.toNat) s.fcore.patterns = none) : Raises (.vperm vd va pat g) s 0x15 0 :=
  raises_of_run (i := .vperm vd va pat g) (slotOp_ready hr) (by simp only [hp])

end

/-- Settles O29: with the registers ready, each instruction is its body. -/
theorem permutesComplete : Obligations.PermutesComplete := by
  intro vd va pat g s
  exact ⟨fun hr => ⟨patld_wellFormed hr, patld_malformed hr⟩, fun hr => does_of_run (i := .patsw g) (slotOp_ready hr) rfl,
    fun hr => ⟨fun _ _ => vperm_loaded hr, vperm_missing hr⟩⟩

end Sys2Proof.Machine
end

section
/-! PROOF. The sequencer: SEQ.MMA and SEQ.CPY, and the issue of their steps. -/

namespace Sys2Proof.Machine

/-! The instructions (R396 to R398). -/

/-- R397: the check of SEQ.MMA's slots passes where each is the seat's. -/
theorem claimedSlots_ok {s : State} {q : Nat} (h : ∀ k, q ≤ k → k ≤ q + 3 → (s.fcore.slot k).state = .claimed s.focus.seat) :
    [q, q + 1, q + 2, q + 3].forM (fun k =>
      if (s.fcore.slot k).state = .claimed s.focus.seat then Except.ok () else raiseX 0x34 (BitVec.ofNat 64 k)) = .ok () :=
  forM_ok fun k hk => if_pos (h k (by simp at hk; omega) (by simp at hk; omega))

section
variable {a b c : BitVec 6} {g : BitVec 4} {p : Params} {s : State}
  (hr : Ready g (markerSrcs s.focus.block ++ [.s a, .s b, .s c]) [] s) (hp : s.params = .ok p) (hidle : s.fseat.seq = none)
include hr hp hidle

section
variable (hk : seqMmaOk p = true) (hleaf : (s.leaf s.focus.core p.bar).arrived = false)
  (hacc : s.seqOnAcc s.focus.core (p.flg.extractLsb' 4 2).toNat = false)
include hk hleaf hacc

/-- R396, R397: 1 to 65,535 chunks over four slots of the seat. -/
theorem does_seqMma (hn : 1 ≤ (s.rS c).toNat) (hm : (s.rS c).toNat ≤ 65535)
    (hslots : ∀ k, (p.flg.extractLsb' 0 4).toNat ≤ k → k ≤ (p.flg.extractLsb' 0 4).toNat + 3 →
      (s.fcore.slot k).state = .claimed s.focus.seat) :
    Does (.seqMma a b c g) s ((s.mxfUp s.focus.core p.bar).startSeq 1 p a b c) := by
  refine does_of_run (i := .seqMma a b c g) (blockOp_ready hr.append_comm hp (limit_ok hk)) ?_
  simp only [awaitOwnSeq_idle hidle, awaitLeaf_ok hleaf, awaitSeq_ok hacc, ok_bind, claimedSlots_ok hslots]
  exact if_neg (by omega)

theorem raises_seqMma_count (hn : (s.rS c).toNat = 0 ∨ 65535 < (s.rS c).toNat) : Raises (.seqMma a b c g) s 0x37 (s.rS c) := by
  refine raises_of_run (i := .seqMma a b c g) (blockOp_ready hr.append_comm hp (limit_ok hk)) ?_
  simp only [awaitOwnSeq_idle hidle, awaitLeaf_ok hleaf, awaitSeq_ok hacc, ok_bind]
  exact if_pos hn

end

/-- R396, R398: a SEQ.CPY within its limits, its leaf's phase not ended, is judged by its count of rows. -/
theorem exec_seqCpy (hk : seqCpyOk p = true) (hleaf : ∀ o, p.leaf = some o → (s.leaf s.focus.core o).arrived = false) :
    exec (.seqCpy a b c g) s = .next (settle s (if (s.rS c).toNat = 0 ∨ 2 ^ 24 - 1 < (s.rS c).toNat then raiseX 0x37 (s.rS c)
      else .ok (s.startSeq 2 p a b c))) := by
  refine (blockOp_ready hr.append_comm hp (limit_ok hk)).trans ?_
  cases hl : p.leaf with
  | none => simp only [awaitOwnSeq_idle hidle, ok_bind]
  | some o => simp only [awaitOwnSeq_idle hidle, awaitLeaf_ok (hleaf o hl), ok_bind]

end

/-! Steps (R399, R467). -/

section
variable {core seat : Nat} {sq : Sequencer} {s : State} (hc : core < 400) (hx : seat < 2)
  (hsq : (s.seatAt core seat).seq = some sq) (hd : (s.seatAt core seat).deferred = none)
  (hgo : (s.seatAt core seat).seqGoes (halted (s.core core)) = true)
include hc hx hsq hd hgo

/-- R399: a step of an unpaired seat that finds its place. -/
theorem exec_seqStepIssue_unpaired {t : State × Option Cause} (hp : (s.seatAt core seat).pair = none)
    (h : s.stepOf core seat sq = some t) : exec (.seqStepIssue core seat) s = .next t.1 :=
  dev_next (by simp [coreThere_of_lt hc, hx]) (by simp only [hsq, hd, hgo, hp, h]; rfl)

/-- R467: a step of a pair is what both members' steps come to. -/
theorem exec_seqStepIssue_paired {p : Nat} {t : State} (hp : (s.seatAt core seat).pair = some (p, true))
    (h : s.stepPair core p seat sq = some t) : exec (.seqStepIssue core seat) s = .next t :=
  dev_next (by simp [coreThere_of_lt hc, hx]) (by simp only [hsq, hd, hgo, hp, h]; rfl)

end

/-- R399: the state in which a seat's sequencer takes a step. -/
def State.atSeqStep (s : State) (core x : Nat) : State :=
  ({ s with focus := { s.focus with core := core, seat := x, slot := 3, opBase := none, status := .issued } } : State).modSeat core x
    (fun t => { t with latch := none })

/-- R399: a step that finds its place has no cause. -/
theorem stepOf_ok {s u : State} {core x : Nat} {q : Sequencer} (h : (s.atSeqStep core x).seqStep q = .ok u) :
    s.stepOf core x q = some ({ u.modSeat core x (fun t => t.stepDone q) with focus := s.focus }, none) := by
  unfold State.atSeqStep at h
  simp only [State.stepOf, h]

section
variable {s : State} {n p seat : Nat} {sq : Sequencer} {x y : State × Option Cause} (hx : s.stepOf n seat sq = some x)
  (hy : (s.twin n p seat).stepOf p seat sq = some y)
include hx hy

theorem stepPair_agree (h : x.2 = y.2) : s.stepPair n p seat sq = some (x.1.follow n p seat (y.1.core p).tlb) := by
  simp only [State.stepPair, hx, hy, if_pos h]

theorem stepPair_diverge (h : x.2 ≠ y.2) : s.stepPair n p seat sq = some (s.diverge n p seat (if x.2.isSome then n else p) 1) := by
  simp only [State.stepPair, hx, hy, if_neg h]

end

/-- Settles O43: the instructions are their bodies; a step is stepOf's, or for a pair stepPair's. -/
theorem sequencerInstructionsComplete : Obligations.SequencerInstructionsComplete := by
  intro a b c g p s
  refine ⟨fun hr hp hidle => ⟨fun hk hleaf hacc =>
      ⟨does_seqMma hr hp hidle hk hleaf hacc, raises_seqMma_count hr hp hidle hk hleaf hacc⟩,
      fun hk hleaf => ⟨fun hn hm => ?_, fun hn => ?_⟩⟩,
    fun core seat sq u hc hx hsq hd hgo => ⟨fun hp h => ?_, fun q x y hp hsx hsy => ⟨fun h => ?_, fun h => ?_⟩⟩,
    fun t sq => ⟨fun h => if_pos h, fun h => if_neg (by omega)⟩⟩
  · exact does_of_run (exec_seqCpy hr hp hidle hk hleaf) (if_neg (by omega))
  · exact raises_of_run (exec_seqCpy hr hp hidle hk hleaf) (if_pos hn)
  · exact exec_seqStepIssue_unpaired hc hx hsq hd hgo hp (stepOf_ok h)
  · exact exec_seqStepIssue_paired hc hx hsq hd hgo hp (stepPair_agree hsx hsy h)
  · exact exec_seqStepIssue_paired hc hx hsq hd hgo hp (stepPair_diverge hsx hsy h)

end Sys2Proof.Machine
end

section
/-! PROOF. Collectives: their instructions, the chunks that arrive and their answers, and the end of a collective. -/

namespace Sys2Proof.Machine

/-! The instructions (R422, R503). -/

section
variable {a b c : BitVec 6} {g : BitVec 4} {p : Params} {s : State} {k : Nat} (hroom : s.collCount < 16)
include hroom

section
variable (ha : (s.rS a).toNat % 64 = 0)
include ha

/-- R422: a collective of aligned addresses and a valid member, none of whose local pages is being pinned. -/
theorem coll_begins (hb : (s.rS b).toNat % 64 = 0) (hm : ((s.rS b).extractLsb' 48 16).toNat ≤ 1023)
    (hv : s.groupValid ((s.rS b).extractLsb' 48 16).toNat = true)
    (hpin : k = 1 ∨ s.collPinned s.fasid false (s.rS a) p.aux.toNat = false) :
    s.coll k p a b c = .ok (s.commitF.startColl k p (s.rS a) (s.rS b) c) := by
  have hfree : (k != 1 && s.collPinned s.fasid false (s.rS a) p.aux.toNat) = false := by
    rcases hpin with rfl | h
    · rfl
    · rw [h, Bool.and_false]
  have hmember : ¬((s.rS b).toNat % 64 ≠ 0 ∨ 1023 < ((s.rS b).extractLsb' 48 16).toNat ∨
      s.groupValid ((s.rS b).extractLsb' 48 16).toNat = false) :=
    not_or.mpr ⟨not_not.mpr hb, not_or.mpr ⟨Nat.not_lt.mpr hm, by rw [hv]; decide⟩⟩
  simp only [State.coll, if_neg (Nat.not_le.mpr hroom), if_neg (not_not.mpr ha), if_neg hmember]
  exact if_neg (by simpa using hfree)

theorem coll_badMember (hb : (s.rS b).toNat % 64 ≠ 0 ∨ 1023 < ((s.rS b).extractLsb' 48 16).toNat ∨
      s.groupValid ((s.rS b).extractLsb' 48 16).toNat = false) : s.coll k p a b c = raiseX 0x37 (s.rS b) := by
  simp only [State.coll, if_neg (Nat.not_le.mpr hroom), if_neg (not_not.mpr ha), if_pos hb]

end

theorem coll_misaligned (ha : (s.rS a).toNat % 64 ≠ 0) : s.coll k p a b c = raiseX 0x37 (s.rS a) := by
  simp only [State.coll, if_neg (Nat.not_le.mpr hroom), if_pos ha]

end

/-- R280, R422: a collective within its limits is its body. -/
theorem collOpRun_ready {a b c : BitVec 6} {g : BitVec 4} {p : Params} {s : State} {k : Nat}
    (hr : Ready g (markerSrcs s.focus.block ++ [.s a, .s b]) [.s c] s) (hp : s.params = .ok p) (hk : collOk k p = true) :
    collOpRun k a b c g s = .next (settle s (s.coll k p a b c)) :=
  blockOp_ready hr.append_comm hp (limit_ok hk)

/-! Chunks that arrive (R504 to R506). -/

/-- R506: a chunk that is neither data nor an answer is answered again where it was applied before, and else served. -/
theorem collArrive_request {ch : CollChunk} {s : State} (hpin : s.chunkPinned ch = false) (hlt : ch.op.toNat < 6) (hne : ch.op ≠ 2) :
    s.collArrive ch = if s.wasApplied ch then some (s.collAnswer 6 ch)
      else some (s.collServe none { chunk := ch, hostOut := false, hostData := [] }) := by
  rw [State.collArrive, if_neg (by simp [hpin]), if_neg hne, if_neg (Nat.not_le.mpr hlt)]

section
variable {ch : CollChunk} {s t : State} (hact : s.power.state = 0)
include hact

theorem exec_collChunkReceive (hop : ch.op.toNat ≤ 7) (h : s.collArrive ch = some t) :
    exec (.collChunkReceive ch) s = .next t :=
  dev_next rfl ((if_neg (by omega)).trans h)

variable (hpin : s.chunkPinned ch = false)
include hpin

/-- R422: the data of a GET. -/
theorem exec_collChunkReceive_data (hop : ch.op = 2) : exec (.collChunkReceive ch) s = .next (s.collGetData ch) :=
  exec_collChunkReceive hact (by rw [hop]; decide) (by simp [State.collArrive, hpin, hop])

/-- R506: an answer. -/
theorem exec_collChunkReceive_answer (hop : ch.op = 6 ∨ ch.op = 7) (h : s.collReply ch = some t) :
    exec (.collChunkReceive ch) s = .next t := by
  rcases hop with hop | hop <;>
    exact exec_collChunkReceive hact (by rw [hop]; decide) (by simpa [State.collArrive, hpin, hop] using h)

section
variable (hlt : ch.op.toNat < 6) (hne : ch.op ≠ 2)
include hlt hne

/-- R506: a chunk applied before is answered again. -/
theorem exec_collChunkReceive_again (h : s.wasApplied ch = true) : exec (.collChunkReceive ch) s = .next (s.collAnswer 6 ch) :=
  exec_collChunkReceive hact (by omega) ((collArrive_request hpin hlt hne).trans (if_pos h))

/-- R506: a chunk not applied before is served. -/
theorem exec_collChunkReceive_new (h : s.wasApplied ch = false)
    (ht : s.collServe none { chunk := ch, hostOut := false, hostData := [] } = t) : exec (.collChunkReceive ch) s = .next t :=
  exec_collChunkReceive hact (by omega) (by rw [collArrive_request hpin hlt hne, if_neg (by simp [h]), ht])

end

end

section
variable {ch : CollChunk} {s : State}

/-- What is applied without bytes of the host is applied at once. -/
theorem collServe_applied {t : State} (h : s.collApply ch [] = .applied t) :
    s.collServe none { chunk := ch, hostOut := false, hostData := [] } = t := by
  simp only [State.collServe, h]

/-- R506: what is refused is answered with a NAK. -/
theorem collServe_refused (h : s.collApply ch [] = .refused) :
    s.collServe none { chunk := ch, hostOut := false, hostData := [] } = s.collAnswer 7 ch := by
  simp only [State.collServe, h]

/-- R422, R423, R504: a sound PUT into its window is applied. -/
theorem collApply_put {at_ : Word} {ps : List CollPlace} (hop : ch.op = 0) (hlive : s.fe.revoked.contains ch.asid = false)
    (hw : s.collWindow ch.asid ch.off.toNat ch.len = some at_) (hps : s.collPlaces ch.asid true at_ ch.len = .ok ps)
    (hok : chunkOk ch = true) (hlen : ch.data.length = ch.len) :
    s.collApply ch [] = .applied (((s.collWrite
      { asid := ch.asid, use := .engine, addr := 0, size := 0, write := true, data := [], path := some 4 } ps ch.data
      (some ch.tags)).noteApplied ch).collAnswer 6 ch) := by
  have hzero : ch.op.toNat = 0 := by rw [hop]; rfl
  have hput : (0 != 1) = true := rfl
  simp only [State.collApply, hzero, hlive, hw, hput, hps, hok, hlen, Bool.false_eq_true, if_false, if_true, beq_self_eq_true,
    Bool.and_self]

end

/-! The sender's side (R424, R506). -/

section
variable {core id : Nat} {o : CollOp} {s : State} (hc : core < 400)
include hc

section
variable (h : s.collOut core id = some o)
include h

theorem exec_collAck_ack (hk : o.kind ≠ 1) : exec (.collAck core id true) s = .next (s.putColl core id { o with ended := some 0 }) :=
  dev_next (coreThere_of_lt hc) (by simp only [h, State.ownAnswer, if_true, if_neg hk])

theorem exec_collAck_nak : exec (.collAck core id false) s = .next (s.collFail core id o) :=
  dev_next (coreThere_of_lt hc) (by simp only [h]; rfl)

theorem exec_collChunkTimeout_own : exec (.collChunkTimeout (.own core) id) s = .next (s.collFail core id o) :=
  dev_next (coreThere_of_lt hc) (by simp only [h]; rfl)

end

/-- R424: a collective that has ended fills its destination with its status word. -/
theorem exec_collComplete {cause : BitVec 8} (h : s.op core id = some (.coll o)) (hhost : o.hostOut = 0) (hend : o.ended = some cause) :
    exec (.collComplete core id) s = .next ((s.dropOp core id).fillS core o.seat id o.dst
      (if cause = 0 then BitVec.ofNat 64 o.bytes else cause ++ 0#56)) :=
  dev_next (coreThere_of_lt hc) (by simp only [h, hhost, hend]; rfl)

end

/-- R506: no answer has come for the data of another member's GET. -/
theorem exec_collChunkTimeout_data {m : BitVec 16} {k : Nat} {e : CollChunk × Nat} {s : State}
    (h : s.dataFor m (BitVec.ofNat 32 k) = some e) : exec (.collChunkTimeout (.data m) k) s = .next (s.dataFail e) :=
  dev_next rfl (by simp only [h]; rfl)

/-- Settles O48: each form is coll at its kind; a chunk is what collArrive makes of it; an answer is ownAnswer's. -/
theorem collectivesComplete : Obligations.CollectivesComplete := by
  intro a b c g p s va rb m
  refine ⟨fun hr hp hroom => ?_,
    fun ch hact hpin => ⟨fun hlt hne h => ?_, fun hlt hne h => ⟨fun t ht => ?_, fun href => ?_⟩, fun hop => ?_,
      fun at_ ps hop hlive hw hps hok hlen => ?_⟩,
    fun core id o hc h => ?_, fun ch t hact hpin hop h => ?_, fun m k e h => ?_, fun core id o cause hc h hhost hend => ?_⟩
  · have begins {k : Nat} {i : Instr} (hi : exec i s = collOpRun k a b c g s) (hk : collOk k p = true) :
        (va.toNat % 64 = 0 → rb.toNat % 64 = 0 → m ≤ 1023 → s.groupValid m = true →
          (k = 1 ∨ s.collPinned s.fasid false va p.aux.toNat = false) → Does i s (s.commitF.startColl k p va rb c)) ∧
        (va.toNat % 64 ≠ 0 → Raises i s 0x37 va) ∧
        (va.toNat % 64 = 0 → (rb.toNat % 64 ≠ 0 ∨ 1023 < m ∨ s.groupValid m = false) → Raises i s 0x37 rb) := by
      have he := hi.trans (collOpRun_ready hr hp hk)
      exact ⟨fun ha hb hm hv hpin => does_of_run he (coll_begins hroom ha hb hm hv hpin),
        fun ha => raises_of_run he (coll_misaligned hroom ha), fun ha hb => raises_of_run he (coll_badMember hroom ha hb)⟩
    exact ⟨begins rfl, begins rfl, begins rfl, begins rfl, begins rfl⟩
  · exact exec_collChunkReceive_again hact hpin hlt hne h
  · exact exec_collChunkReceive_new hact hpin hlt hne h (collServe_applied ht)
  · exact exec_collChunkReceive_new hact hpin hlt hne h (collServe_refused href)
  · exact exec_collChunkReceive_data hact hpin hop
  · exact collApply_put hop hlive hw hps hok hlen
  · exact ⟨exec_collAck_ack hc h, exec_collAck_nak hc h, exec_collChunkTimeout_own hc h, fun hf => if_pos hf, fun hf => if_neg hf⟩
  · exact exec_collChunkReceive_answer hact hpin hop h
  · exact ⟨exec_collChunkTimeout_data h, fun hf => if_pos hf, fun hf => if_neg hf⟩
  · exact exec_collComplete hc h hhost hend

end Sys2Proof.Machine
end

section
/-! PROOF. The resole: its instructions, the attempts on the journal, the commit record and the apply. -/

namespace Sys2Proof.Machine

/-! What the resole's record and memory keep (R484). -/

/-- A fold of operations that leave the resole's record alone leaves it alone. -/
theorem foldl_resole {α : Type} {f : State → α → State} (h : ∀ s a, (f s a).resole = s.resole) (l : List α) (s : State) :
    (l.foldl f s).resole = s.resole := by
  induction l generalizing s with
  | nil => rfl
  | cons a l ih => exact (ih (f s a)).trans (h s a)

@[simp] theorem putHeader_resole (s : State) (h : Nat) : (s.putHeader h).resole = s.resole := by
  unfold State.putHeader
  split
  · rfl
  · exact foldl_resole (fun s d => by simp only [State.putHome_resole, putHomes_resole]) _ s

@[simp] theorem storeThrough_resole (s : State) (pa : Nat) (b : Byte) : (s.storeByte .through pa b).resole = s.resole :=
  putCached_resole s pa b

@[simp] theorem engineBytes_resole (s : State) (pa : Nat) (bs : List Byte) : (s.engineBytes pa bs).resole = s.resole := by
  induction bs generalizing s pa with
  | nil => rfl
  | cons b bs ih => exact (ih (s.storeByte .through pa b) (pa + 1)).trans (storeThrough_resole s pa b)

@[simp] theorem fillFrames_resole (s : State) (id : Nat) (v : Option Word) : (s.fillFrames id v).resole = s.resole := by
  unfold State.fillFrames
  dsimp only
  split
  · rfl
  · refine foldl_resole (fun s f => foldl_resole (fun s w => ?_) _ s) _ s
    split
    · cases v <;> simp
    · rfl

@[simp] theorem fillS_resole (s : State) (core x id : Nat) (reg : BitVec 6) (v : Word) : (s.fillS core x id reg v).resole = s.resole :=
  fillFrames_resole ..

/-- R428: the status of a RSCOMMIT is its seat's affair. -/
@[simp] theorem commitStatus_resole (s : State) (t : ResoleTx) (v : Word) : (s.commitStatus t v).resole = s.resole := by
  unfold State.commitStatus
  split
  · rfl
  · split
    · exact fillS_resole ..
    · rfl

/-- Two states whose homes below an address hold the same bytes. -/
def SameBelow (n : Nat) (s t : State) : Prop := ∀ pa, pa < n → aget unlisted pa t.mem = aget unlisted pa s.mem

theorem SameBelow.trans {n : Nat} {s t u : State} (h : SameBelow n s t) (k : SameBelow n t u) : SameBelow n s u :=
  fun pa hp => (k pa hp).trans (h pa hp)

theorem sameBelow_putHome {n pa : Nat} (h : n ≤ pa) (s : State) (b : Byte) : SameBelow n s (s.putHome pa b) :=
  fun _ hq => aget_aputD_ne unlisted (by omega) b s.mem

theorem sameBelow_putHomes {n pa : Nat} (h : n ≤ pa) (s : State) (bs : List Byte) : SameBelow n s (s.putHomes pa bs) := by
  induction bs generalizing s pa with
  | nil => exact fun _ _ => rfl
  | cons b bs ih => exact (sameBelow_putHome h s b).trans (ih (by omega) (s.putHome pa b))

theorem foldl_sameBelow {α : Type} {n : Nat} {f : State → α → State} (h : ∀ s a, SameBelow n s (f s a)) (l : List α) (s : State) :
    SameBelow n s (l.foldl f s) := by
  induction l generalizing s with
  | nil => exact fun _ _ => rfl
  | cons a l ih => exact (h s a).trans (ih (f s a))

/-- R36: the journal, where the headers stand, lies above the banks. -/
theorem le_headerAt (d h : Nat) : 0x11000000000 ≤ headerAt d h := by unfold headerAt; omega

theorem sameBelow_putHeader (s : State) (h : Nat) : SameBelow 0x11000000000 s (s.putHeader h) := by
  unfold State.putHeader
  split
  · exact fun _ _ => rfl
  · refine foldl_sameBelow (fun s d => ?_) _ s
    have hd := le_headerAt d h
    exact (sameBelow_putHomes (by omega) s _).trans (sameBelow_putHome (by omega) _ _)

theorem sameBelow_applyDone (s : State) (h : Nat) (ls : List ResoleLine) : SameBelow 0x11000000000 s (s.applyDone h ls) := by
  unfold State.applyDone
  split
  · exact fun _ _ => rfl
  · exact sameBelow_putHeader _ h

/-- R484: the entries stand in the journal. -/
theorem sameBelow_putEntry {n : Nat} {l : ResoleLine} (hl : n ≤ l.entry) (s : State) (h flags : Nat) :
    SameBelow n s (s.putEntry h l flags) :=
  fun pa hp => (congrArg (aget unlisted pa) (putHomeTag_mem ..)).trans (sameBelow_putHomes hl s _ pa hp)

/-- A byte of a run of bytes written at their homes. -/
theorem mem_putHomes (s : State) (pa : Nat) (bs : List Byte) {i : Nat} (hi : i < bs.length) :
    aget unlisted (pa + i) (s.putHomes pa bs).mem = nth 0 i bs := by
  induction bs generalizing s pa i with
  | nil => exact absurd hi (Nat.not_lt_zero i)
  | cons b bs ih =>
    cases i with
    | zero => exact (sameBelow_putHomes (Nat.le_refl _) (s.putHome pa b) bs pa (Nat.lt_succ_self pa)).trans (aget_aputD_same ..)
    | succ i =>
      have hpa : pa + (i + 1) = pa + 1 + i := by omega
      rw [hpa]
      exact (ih (s.putHome pa b) (pa + 1) (by simpa using hi)).trans (by simp [nth])

@[simp] theorem putTx_resole (s : State) (h : Nat) (t : ResoleTx) :
    (s.putTx h t).resole = { s.resole with txs := aput h t s.resole.txs } := putHeader_resole _ h

/-- R487: how far an apply has come says nothing of transactions, versions and redirected lines. -/
theorem applyDone_resole (s : State) (h : Nat) (ls : List ResoleLine) : (s.applyDone h ls).resole.txs = s.resole.txs ∧
    (s.applyDone h ls).resole.mver = s.resole.mver ∧ (s.applyDone h ls).resole.redirect = s.resole.redirect := by
  unfold State.applyDone
  split
  · exact ⟨rfl, rfl, rfl⟩
  · simp

/-! The instructions (R425 to R429). -/

theorem handleOf_ok {v : Word} (h1 : 1 ≤ v.toNat) (h8 : v.toNat ≤ 8) : handleOf v = .ok v.toNat := if_pos ⟨h1, h8⟩

theorem ownTx_ok {s : State} {h : Nat} {t : ResoleTx} (ht : s.tx h = some t) (ha : t.asid = s.fasid) : s.ownTx h = .ok t := by
  simp only [State.ownTx, ht, if_pos ha]

/-- R426: whether handle i + 1 has no open transaction. -/
def State.handleFree (s : State) (i : Nat) : Bool :=
  match s.tx (i + 1) with
  | some t => !t.isOpen
  | none => true

section
variable {a b c : BitVec 6} {g : BitVec 4} {s : State}

section
variable (hr : Ready g [.s a] [.s c] s)
include hr

theorem raises_rsbegin_slot (h : 15 < (s.rS a).toNat) : Raises (.rsbegin a c g) s 0x37 (s.rS a) :=
  raises_of_run (i := .rsbegin a c g) (slotOp_ready hr) (if_pos h)

/-- R426: a transaction on a slot that no open one holds. -/
theorem does_rsbegin {i : Nat} (h : (s.rS a).toNat ≤ 15) (hi : (List.range 8).find? s.handleFree = some i)
    (hfree : s.resole.txs.any (fun e => e.2.isOpen && e.2.slot == (s.rS a).toNat) = false) :
    Does (.rsbegin a c g) s ((s.commitF.putTx (i + 1)
      { state := 1, reason := 0, slot := (s.rS a).toNat, asid := s.commitF.fasid, pages := [], lines := [], committer := none, retried := 0,
        verified := 0, firstFail := 0 }).wS c (BitVec.ofNat 64 (i + 1)) (s.commitF.after 2)) := by
  refine does_of_run (i := .rsbegin a c g) (slotOp_ready hr) ((if_neg (by omega)).trans ?_)
  split
  · next hnone => cases hi.symm.trans hnone
  · next j hj =>
    obtain rfl := Option.some.inj (hi.symm.trans hj)
    exact if_neg (by simp [hfree])

theorem raises_rscommit_handle (h : (s.rS a).toNat = 0 ∨ 8 < (s.rS a).toNat) : Raises (.rscommit a c g) s 0x37 (s.rS a) := by
  refine raises_of_run (i := .rscommit a c g) (slotOp_ready hr) ?_
  have hh : handleOf (s.rS a) = raiseX 0x37 (s.rS a) := if_neg (by omega)
  rw [hh]
  rfl

/-- R428: the commit of an open transaction of the ASID's own. -/
theorem does_rscommit {t : ResoleTx} (h1 : 1 ≤ (s.rS a).toNat) (h8 : (s.rS a).toNat ≤ 8) (ht : s.tx (s.rS a).toNat = some t)
    (ha : t.asid = s.fasid) (hs : t.state = 1) :
    let u := s.commitF
    Does (.rscommit a c g) s
      (((u.putTx (s.rS a).toNat { t with state := 2, committer := some (u.focus.core, u.nextOp) }).newOp u.focus.core
        (.resole { seat := u.focus.seat, asid := u.fasid, handle := (s.rS a).toNat, dst := c })).pendS c u.nextOp) := by
  refine does_of_run (i := .rscommit a c g) (slotOp_ready hr) ?_
  simp only [handleOf_ok h1 h8, ownTx_ok ht ha, ok_bind]
  exact if_neg (not_not.mpr hs)

end

/-- R428: the abort of a transaction of the ASID's own. -/
theorem does_rsabort {t : ResoleTx} (hr : Ready g [.s a] [] s) (h1 : 1 ≤ (s.rS a).toNat) (h8 : (s.rS a).toNat ≤ 8)
    (ht : s.tx (s.rS a).toNat = some t) (ha : t.asid = s.fasid) (hs : t.state = 1 ∨ t.state = 5) :
    Does (.rsabort a g) s (s.commitF.putTx (s.rS a).toNat { t with state := 4, pages := [], lines := [] }) := by
  refine does_of_run (i := .rsabort a g) (slotOp_ready hr) ?_
  simp only [handleOf_ok h1 h8, ownTx_ok ht ha, ok_bind]
  exact if_pos hs

/-- R429: a view of a transaction of the ASID's own, or of a handle that none has had. -/
theorem does_rsstat {t : ResoleTx} (hr : Ready g [.s a, .s b] [.s c] s) (h1 : 1 ≤ (s.rS a).toNat) (h8 : (s.rS a).toNat ≤ 8)
    (ht : (s.tx (s.rS a).toNat).getD (ResoleTx.free s.fasid) = t) (ha : t.asid = s.fasid) (hv : (s.rS b).toNat % 4 ≠ 3) :
    Does (.rsstat a b c g) s (s.commitF.wS c (s.commitF.rsView t ((s.rS b).toNat % 4)) .full) := by
  refine does_of_run (i := .rsstat a b c g) (slotOp_ready hr) ((if_neg hv).trans ?_)
  simp only [handleOf_ok h1 h8, ht, ok_bind]
  exact if_neg (not_not.mpr ha)

end

/-- R427: the pages of translated pieces. -/
def pagesOf (ps : List Piece) : List Nat :=
  nub (ps.flatMap (fun p => (List.range ((p.pa % 4096 + p.len + 4095) / 4096)).map (fun i => p.pa / 4096 + i)))

/-- R427: n bytes of a write to a transaction, whose target and source have translated, are staged line by line. -/
def State.staged (s : State) (h : Nat) (t : ResoleTx) (tgt src : Word) (n : Nat) (ts ps : List Piece) : State :=
  (List.range (n / 64)).foldl (fun x i => x.stageFrom h tgt src ts ps i)
    (((s.commitF.install true ts).install false ps).putTx h { t with pages := nub (t.pages ++ pagesOf ts) })

/-- R427: an RSWRITE of an aligned range in one die, of an open transaction of the ASID's own, stages its lines. -/
theorem does_rswrite {a b c : BitVec 6} {g : BitVec 4} {s : State} (hr : Ready g [.s a, .s b, .s c] [] s) {q : Piece} {ts ps : List Piece}
    {t : ResoleTx} {n hd : Nat} (hn : ((s.rS c).extractLsb' 0 32).toNat = n) (hh : ((s.rS c).extractLsb' 32 8).toNat = hd)
    (hz : (s.rS c).extractLsb' 40 24 = 0) (hn64 : n % 64 = 0) (hlo : 64 ≤ n) (hhi : n ≤ 2 ^ 24) (h1 : 1 ≤ hd) (h8 : hd ≤ 8)
    (ha : (s.rS a).toNat % 64 = 0) (hb : (s.rS b).toNat % 64 = 0) (hts : s.seatPieces (s.rS a) n .resole = .ok (q :: ts))
    (hdie : ∀ p ∈ ts, bankDie p.pa = bankDie q.pa) (hps : s.seatPieces (s.rS b) n .read = .ok ps) (ht : s.tx hd = some t)
    (howner : t.asid = s.fasid) (hs : t.state = 1)
    (hpages : s.resole.txs.any (fun e => e.1 != hd && e.2.pages.any (pagesOf (q :: ts)).contains) = false) :
    let w := s.staged hd t (s.rS a) (s.rS b) n (q :: ts) ps
    Does (.rswrite a b c g) s (match w.poisonHit ps with
      | some pa => w.consumeF (w.structF pa) pa
      | none => w) := by
  subst hn hh
  have hargs : ¬((s.rS c).extractLsb' 40 24 ≠ 0 ∨ ((s.rS c).extractLsb' 0 32).toNat % 64 ≠ 0 ∨
      ((s.rS c).extractLsb' 0 32).toNat < 64 ∨ 2 ^ 24 < ((s.rS c).extractLsb' 0 32).toNat ∨
      ((s.rS c).extractLsb' 32 8).toNat < 1 ∨ 8 < ((s.rS c).extractLsb' 32 8).toNat) :=
    not_or.mpr ⟨not_not.mpr hz, by omega⟩
  have hone : (ts.map (fun p => bankDie p.pa)).any (fun x => x != bankDie q.pa) = false := by
    refine List.any_eq_false.mpr fun d hd => ?_
    obtain ⟨p, hp, rfl⟩ := List.mem_map.mp hd
    rw [hdie p hp, bne_self_eq_false]
    exact Bool.false_ne_true
  refine does_of_run (i := .rswrite a b c g) (slotOp_ready hr) ((if_neg hargs).trans ?_)
  rw [if_neg (not_not.mpr ha), if_neg (not_not.mpr hb), hts]
  simp only [ok_bind, List.map_cons, hone, hps, ownTx_ok ht howner, Bool.false_eq_true, if_false]
  rw [if_neg (not_not.mpr hs)]
  exact if_neg (fun h => Bool.false_ne_true (hpages.symm.trans h))

/-! The attempts on the journal (R485). -/

section
variable {hd : Nat} {t : ResoleTx} {l : ResoleLine} {s u : State} (hact : s.active = true) (h1 : 1 ≤ hd) (h8 : hd ≤ 8)

section
variable (ht : s.tx hd = some t) (hopen : t.isOpen = true) (hl : t.lines.find? (fun l => l.ready && !l.verified) = some l)
include hact h1 h8 ht hopen hl

/-- R485: an attempt that verifies. -/
theorem exec_journalWriteAttempt_ok : exec (.journalWriteAttempt hd true) s = .next (((s.wear l.entry).putEntry hd l 1).putTx hd
    { t.modLine l.seqNo (fun x => { x with verified := true }) with verified := t.verified + 1 }) :=
  dev_next (by simp [h1, h8]) (by simp only [ht, hopen, hact, hl]; rfl)

/-- R485: an attempt that does not verify. -/
theorem exec_journalWriteAttempt_bad :
    let t' : ResoleTx := { t.modLine l.seqNo (fun x => { x with tries := x.tries + 1 }) with
      retried := if l.tries = 0 then t.retried + 1 else t.retried }
    exec (.journalWriteAttempt hd false) s = .next (if 3 ≤ l.tries then ((s.wear l.entry).spoilEntry l).failTx hd
        { t' with firstFail := if t.firstFail = 0 then l.va else t.firstFail } 6
      else ((s.wear l.entry).spoilEntry l).putTx hd t') :=
  dev_next (by simp [h1, h8]) (by simp only [ht, hopen, hact, hl]; exact (apply_ite some ..).symm)

end

/-! The commit record and the apply (R487, R488). -/

/-- R84: the last entry for a line is what redirects it; entries for one line that agree leave no doubt. -/
theorem alook_redirect {ls : List ResoleLine} {l : ResoleLine} (hl : l ∈ ls)
    (hone : ∀ k ∈ ls, k.pa / 64 = l.pa / 64 → k = l) (m : Assoc Nat) :
    alook (l.pa / 64) (ls.foldl (fun m k => aput (k.pa / 64) (k.entry / 64) m) m) = some (l.entry / 64) := by
  induction ls using List.reverseRecOn with
  | nil => cases hl
  | append_singleton ls k ih =>
    rw [List.foldl_append]
    by_cases hk : k.pa / 64 = l.pa / 64
    · obtain rfl := hone k (by simp) hk
      exact alook_aput_same ..
    · refine (alook_aput_ne (Ne.symm hk) ..).trans (ih ?_ fun x hx => hone x (by simp [hx]))
      rcases List.mem_append.mp hl with h | h
      · exact h
      · exact absurd (by rw [List.mem_singleton.mp h]) hk

include hact h1 h8

/-- R428, R488: the commit record of a transaction whose lines are all verified. -/
theorem exec_commitRecord (ht : s.tx hd = some t) (hs : t.state = 2) (hv : t.lines.any (fun l => !l.verified) = false)
    (hap : alook hd s.resole.applying = none) : ∃ u x, exec (.commitRecord hd) s = .next u ∧ u.tx hd = some x ∧ x.state = 3 ∧
      u.mverOf t.slot = s.mverOf t.slot + 1 ∧
      (∀ l ∈ t.lines, (∀ k ∈ t.lines, k.pa / 64 = l.pa / 64 → k = l) →
        alook (l.pa / 64) u.resole.redirect = some (l.entry / 64)) := by
  have hgo : ¬(t.state ≠ 2 ∨ t.lines.any (fun l => !l.verified) = true ∨ (alook hd s.resole.applying).isSome = true ∨
      s.active = false) := by simp [hs, hv, hap, hact]
  refine ⟨_, { t with state := 3, pages := [], lines := [], committer := none },
    dev_next (by simp [h1, h8]) (by simp only [ht]; exact if_neg hgo), ?_, rfl, ?_, fun l hl hone => ?_⟩
  · simp only [State.tx, commitStatus_resole, applyDone_resole, putTx_resole, alook_aput_same]
  · simp only [State.mverOf, commitStatus_resole, applyDone_resole, putTx_resole, aget_aput_same]
  · simp only [commitStatus_resole, applyDone_resole, putTx_resole]
    exact alook_redirect hl hone _

/-- R485, R487: an apply that verifies leaves the line's bytes in its bank. -/
theorem exec_resoleApply {ls : List ResoleLine} (hap : alook hd s.resole.applying = some ls)
    (hl : ls.find? (fun l => !l.applied && !l.stuck && !s.applyHeld l) = some l) (hlen : l.data.length = 64)
    (hpa : l.pa + 64 ≤ 0x11000000000) (hentry : 0x11000000000 ≤ l.entry) :
    ∃ u, exec (.resoleApply hd true) s = .next u ∧ (∀ i, i < 64 → aget unlisted (l.pa + i) u.mem = nth 0 i l.data) := by
  refine ⟨_, dev_next (by simp [h1, h8]) (by simp only [hap, hact, Bool.and_true, hl, if_true]; rfl), fun i hi => ?_⟩
  have hbelow : l.pa + i < 0x11000000000 := by omega
  rw [sameBelow_applyDone _ _ _ _ hbelow, apply_ite State.mem, ite_self, sameBelow_putEntry hentry _ _ _ _ hbelow, putHomeTag_mem]
  exact mem_putHomes _ l.pa l.data (by omega)

end

/-- Settles O49: the instructions are their bodies, and each device step the branch that its conditions choose. -/
theorem resoleComplete : Obligations.ResoleComplete := by
  intro a b c g s
  refine ⟨fun hr => ⟨fun i => does_rsbegin hr, raises_rsbegin_slot hr, fun t => does_rscommit hr, raises_rscommit_handle hr⟩,
    fun hr t => does_rsabort hr, fun hr t h1 h8 ht => does_rsstat hr h1 h8 (by rw [ht]; rfl),
    fun hr h1 h8 ht => does_rsstat hr h1 h8 (by rw [ht]; rfl) rfl,
    fun hr q ts ps t hz hn64 hlo hhi h1 h8 ha hb hts hdie => does_rswrite hr rfl rfl hz hn64 hlo hhi h1 h8 ha hb hts hdie,
    fun hd t l hact h1 h8 ht hopen hl => ⟨exec_journalWriteAttempt_ok hact h1 h8 ht hopen hl, fun hlt => ?_, fun hge => ?_⟩,
    fun hd t hact h1 h8 => exec_commitRecord hact h1 h8, fun hd ls l hact h1 h8 => exec_resoleApply hact h1 h8⟩
  · rw [exec_journalWriteAttempt_bad hact h1 h8 ht hopen hl, if_neg (Nat.not_le.mpr hlt)]
  · rw [exec_journalWriteAttempt_bad hact h1 h8 ht hopen hl, if_pos hge]

end Sys2Proof.Machine
end

section
/-! PROOF. Power and security: tiles, temperature and the cap, the device states, the boot, and the commands of the security unit. -/

namespace Sys2Proof.Machine

/-! Tiles, temperature and the cap (R470, R471, R478, R479). -/

section
variable {core : Nat} {s : State} (hc : core < 400)
include hc

theorem exec_tileIdleRet (ht : (s.core core).tile = .on) (hi : s.tileIdle core = true) :
    exec (.tileIdleRet core) s = .next (s.modCore core (fun c => { c with tile := .ret })) :=
  dev_next (coreThere_of_lt hc) (if_pos ⟨ht, hi⟩)

theorem exec_tileIdleOff (ht : (s.core core).tile = .ret) (hi : s.tileIdle core = true) (hk : s.keptOn core = false)
    (ho : s.idleOff (dieOf core) ≠ 0) : exec (.tileIdleOff core) s = .next ((s.emptyL1 core).tileOff core false) :=
  dev_next (coreThere_of_lt hc) (if_pos ⟨ht, hi, hk, ho⟩)

/-- R470, R474: a tile that wakes from OFF has power in ACTIVE only. -/
theorem exec_tileWakeComplete (ht : (s.core core).tile = .wakingRet ∨ ((s.core core).tile = .wakingOff ∧ s.power.state = 0)) :
    exec (.tileWakeComplete core) s = .next (s.modCore core (fun c => { c with tile := .on })) := by
  refine dev_next (coreThere_of_lt hc) ?_
  rcases ht with ht | ⟨ht, ha⟩
  · simp only [ht]
  · simp only [ht, ha, if_true]

theorem exec_thermalThrottle (ht : (s.core core).throttled = false) :
    exec (.thermalThrottle core) s = .next ((s.modCore core (fun c => { c with throttled := true })).raisePower 1) :=
  dev_next (coreThere_of_lt hc) (if_neg (by simp [ht]))

/-- R478: a trip of a tile that runs nothing ends no context. -/
theorem exec_thermalTrip (ht : (s.core core).tile ≠ .off) (h0 : (s.seatAt core 0).busy = false) (h1 : (s.seatAt core 1).busy = false) :
    let t := ((s.loseL1 core).tileOff core true).raisePower 2
    exec (.thermalTrip core) s =
      .next { t with power := { t.power with tripCount := if t.power.tripCount = 255 then 255 else t.power.tripCount + 1 } } :=
  dev_next (coreThere_of_lt hc) ((if_neg ht).trans (by simp only [h0, h1, Bool.not_false, if_true]))

end

/-! Device states (R474 to R477, R483). -/

/-- R475: LISTEN and DORMANT are refused, or the device moves there, its links down in DORMANT. -/
theorem setTarget_sleep {n : Nat} (hn : n = 1 ∨ n = 2) (s : State) :
    s.setTarget n = if s.sleepRefused n then { s with power := { s.power with err := true } } else
      { s with power := { s.power with target := n, state := n, waking := false }
               net := if n = 2 then { s.net with linkUp := [] } else s.net } := by
  rcases hn with rfl | rfl <;> rfl

/-- R475: a device that has power takes a target. -/
theorem targetRow_next {row : String} {s : State} (h : s.power.state ≠ 3) (n : Nat) : targetRow row n s = .next (s.setTarget n) :=
  dev_next rfl (if_neg h)

theorem exec_targetSleep {i : Instr} {n : Nat} {s : State} (hi : (i, n) ∈ [(Instr.targetListen, 1), (Instr.targetDormant, 2)])
    (h : s.power.state ≠ 3) : exec i s = .next (if s.sleepRefused n then { s with power := { s.power with err := true } } else
      { s with power := { s.power with target := n, state := n, waking := false }
               net := if n = 2 then { s.net with linkUp := [] } else s.net }) := by
  simp only [List.mem_cons, Prod.mk.injEq, List.not_mem_nil, or_false] at hi
  rcases hi with ⟨rfl, rfl⟩ | ⟨rfl, rfl⟩
  · exact setTarget_sleep (.inl rfl) s ▸ targetRow_next h 1
  · exact setTarget_sleep (.inr rfl) s ▸ targetRow_next h 2

@[simp] theorem hostAfter_power (s : State) (waits : List Nat) (r : HostReq) : (s.hostAfter waits r).power = s.power := by
  unfold State.hostAfter
  split <;> rfl

@[simp] theorem sendVector_power (s : State) (v : Nat) : (s.sendVector v).power = s.power := by
  unfold State.sendVector
  dsimp only
  split
  · rfl
  · exact hostAfter_power ..

/-- R497: a vector that is raised says nothing of power. -/
theorem raiseVector_power (s : State) (v : Nat) : (s.raiseVector v).power = s.power := by
  unfold State.raiseVector
  split
  · exact sendVector_power s v
  · rfl

theorem resumeHeld_active {s : State} (h : s.power.state = 0) :
    s.resumeHeld = { s with agenda := s.host.held.map (fun a => Act.access a) ++ s.agenda, host := { s.host with held := [] } } :=
  if_neg (not_not.mpr h)

/-- R483, R497: a wake without a loss of power and without frames. -/
theorem exec_wakeComplete {s : State} (hw : s.power.waking = true) (hl : s.power.lost = false) (hb : s.net.wakeBuf = []) :
    let t := (({ s with power := { s.power with state := 0, waking := false } } : State).raisePower 4).raiseVector 52
    exec .wakeComplete s =
      .next { t with agenda := t.host.held.map (fun a => Act.access a) ++ t.agenda, host := { t.host with held := [] } } := by
  have hnet : ({ s.net with wakeBuf := [] } : Net) = s.net := by rw [← hb]
  refine dev_next rfl ((if_neg (by simp [hw, hb])).trans ?_)
  simp only [hl, hb, hnet, List.foldl_nil, Bool.false_eq_true, if_false]
  exact congrArg some (resumeHeld_active (by rw [raiseVector_power]; rfl))

/-! The boot (R475, R527). -/

section
variable {keyA keyB : List (BitVec 8)} {s : State} {v : BitVec 16} {e f : Nat}

/-- R475: the device as a cold start finds it. -/
def State.coldPower (s : State) : State := { s with power := { s.power with state := 2, target := 2, wcause := 5, waking := false } }

/-- R526, R527: what comes of the image in a slot under the key presented for it. -/
def State.slotVerdict (s : State) (keyA keyB : List (BitVec 8)) (k : Nat) : Except Nat (BitVec 16) :=
  imageVerdict (if k = 0 then keyA else keyB) (s.slotImage k) s.sec.rollctr

theorem exec_coldStart (h : s.sec.booted = false) : exec (.coldStart keyA keyB) s = .next (s.coldStart keyA keyB) :=
  dev_next rfl (if_neg (by simp [h]))

/-- R527: the slot marked active first, then the other, else no firmware. -/
theorem coldStart_eq (s : State) (keyA keyB : List (BitVec 8)) : s.coldStart keyA keyB =
    match s.slotVerdict keyA keyB s.sec.active with
    | .ok v => s.coldPower.boot s.sec.active v 0
    | .error e => match s.slotVerdict keyA keyB (1 - s.sec.active) with
      | .ok v => s.coldPower.boot (1 - s.sec.active) v e
      | .error _ =>
        ({ s.coldPower with sec := { s.coldPower.sec with booted := true, bootOk := false, reason := 4 } } : State).openAperture := rfl

theorem exec_coldStart_active (h : s.sec.booted = false) (ha : s.slotVerdict keyA keyB s.sec.active = .ok v) :
    exec (.coldStart keyA keyB) s = .next (s.coldPower.boot s.sec.active v 0) := by
  rw [exec_coldStart h, coldStart_eq, ha]

section
variable (h : s.sec.booted = false) (ha : s.slotVerdict keyA keyB s.sec.active = .error e)
include h ha

theorem exec_coldStart_other (ho : s.slotVerdict keyA keyB (1 - s.sec.active) = .ok v) :
    exec (.coldStart keyA keyB) s = .next (s.coldPower.boot (1 - s.sec.active) v e) := by
  rw [exec_coldStart h, coldStart_eq, ha, ho]

theorem exec_coldStart_none (ho : s.slotVerdict keyA keyB (1 - s.sec.active) = .error f) :
    exec (.coldStart keyA keyB) s = .next
      ({ s.coldPower with sec := { s.coldPower.sec with booted := true, bootOk := false, reason := 4 } } : State).openAperture := by
  rw [exec_coldStart h, coldStart_eq, ha, ho]

end

end

/-! The security unit (R529, R530). -/

section
variable {s : State}

/-- R529: the rows of SECCMD. -/
def secRows : List (Instr × Nat) := [(.install, 1), (.advance, 2), (.attest, 3), (.tcmopen, 4)]

theorem exec_secCommand {i : Instr} {n : Nat} (hi : (i, n) ∈ secRows) : exec i s = .next (s.secCommand n) := by
  simp only [secRows, List.mem_cons, Prod.mk.injEq, List.not_mem_nil, or_false] at hi
  rcases hi with ⟨rfl, rfl⟩ | ⟨rfl, rfl⟩ | ⟨rfl, rfl⟩ | ⟨rfl, rfl⟩ <;> rfl

theorem secCommand_busy (h : s.sec.busy.isSome = true) (n : Nat) : s.secCommand n = s := if_pos h

/-- R529: a command that the idle unit takes. -/
def State.secCmd (s : State) (n : Nat) : SecCmd := { cmd := n, leaf := s.sec.attest, request := some [], hostOut := none }

/-- R529, R530: an ATTEST takes a leaf, an INSTALL asks for its image, and the others are under way. -/
theorem secCommand_idle {n : Nat} (h : s.sec.busy = none) (h0 : n ≠ 0) (h4 : n ≤ 4) : s.secCommand n =
    if n = 3 ∧ s.sec.attest < 2 ^ 20 then ({ s with sec := { s.sec with attest := s.sec.attest + 1 } } : State).secAsk (s.secCmd n)
    else if n = 1 then s.secAsk (s.secCmd n) else { s with sec := { s.sec with busy := some (s.secCmd n) } } :=
  (if_neg (by simp [h])).trans (if_neg (by omega))

section
variable (h : s.sec.busy = none)
include h

theorem exec_install_idle : exec .install s = .next (s.secAsk (s.secCmd 1)) := by
  rw [exec_secCommand (n := 1) (by simp [secRows]), secCommand_idle h (by decide) (by decide), if_neg (by omega), if_pos rfl]

/-- R529: ADVANCE and TCMOPEN. -/
theorem exec_plainCommand_idle {i : Instr} {n : Nat} (hi : (i, n) ∈ [(Instr.advance, 2), (Instr.tcmopen, 4)]) :
    exec i s = .next { s with sec := { s.sec with busy := some (s.secCmd n) } } := by
  have hn : (i, n) ∈ secRows ∧ (n = 2 ∨ n = 4) := by
    simp only [List.mem_cons, Prod.mk.injEq, List.not_mem_nil, or_false] at hi
    rcases hi with ⟨rfl, rfl⟩ | ⟨rfl, rfl⟩ <;> simp [secRows]
  obtain ⟨hrow, hn⟩ := hn
  rw [exec_secCommand hrow, secCommand_idle h (by omega) (by omega), if_neg (by omega), if_neg (by omega)]

/-- R530: an ATTEST takes the next leaf at once. -/
theorem exec_attest_idle (hl : s.sec.attest < 2 ^ 20) :
    exec .attest s = .next (({ s with sec := { s.sec with attest := s.sec.attest + 1 } } : State).secAsk (s.secCmd 3)) := by
  rw [exec_secCommand (n := 3) (by simp [secRows]), secCommand_idle h (by decide) (by decide), if_pos ⟨rfl, hl⟩]

theorem exec_attest_spent (hl : 2 ^ 20 ≤ s.sec.attest) :
    exec .attest s = .next { s with sec := { s.sec with busy := some (s.secCmd 3) } } := by
  rw [exec_secCommand (n := 3) (by simp [secRows]), secCommand_idle h (by decide) (by decide), if_neg (by omega), if_neg (by decide)]

end

/-- R529: what a command comes to: the state and its result. -/
def State.commandEnd (s : State) (c : SecCmd) (key rand : List (BitVec 8)) : State × Nat :=
  match c.cmd with
  | 1 => s.installEnd c key
  | 2 => ({ s with sec := { s.sec with rollctr := if s.sec.rollctr.toNat ≤ s.sec.svn.toNat then s.sec.svn else s.sec.rollctr } }, 0)
  | 3 => s.attestEnd c rand
  | _ => ({ s with sec := { s.sec with tcmOpen := !s.sec.tcmOpen } }, 0)

section
variable {c : SecCmd} {key rand : List (BitVec 8)}

theorem exec_securityCommandComplete {t : State} {n : Nat} (hb : s.sec.busy = some c) (hh : c.hostOut = none)
    (hr : s.commandEnd c key rand = (t, n)) :
    exec (.securityCommandComplete key rand) s = .next { t with sec := { t.sec with busy := none, result := n } } := by
  have hexec : exec (.securityCommandComplete key rand) s =
      let r := s.commandEnd c key rand
      .next { r.1 with sec := { r.1.sec with busy := none, result := r.2 } } := by
    refine dev_next rfl ?_
    split
    · next hnone => cases hnone.symm.trans hb
    · next d hd =>
      obtain rfl := Option.some.inj (hd.symm.trans hb)
      exact if_neg (by simp [hh])
  rw [hexec, hr]

theorem commandEnd_install (h : c.cmd = 1) : s.commandEnd c key rand = s.installEnd c key := by simp only [State.commandEnd, h]

theorem commandEnd_attest (h : c.cmd = 3) : s.commandEnd c key rand = s.attestEnd c rand := by simp only [State.commandEnd, h]

/-- R527, R529: an INSTALL whose image cannot be read, is not accepted, or is accepted. The definition is unfolded before it meets its
arguments: of its body applied to them, the kernel would work out where SECSRC lies. -/
theorem installEnd_cases (s : State) (c : SecCmd) (key : List (BitVec 8)) :
    (s.secImage c = none → s.installEnd c key = (s, 5)) ∧
    (∀ k, s.secImage c = some k →
      (∀ e, imageVerdict key k s.sec.rollctr = .error e → s.installEnd c key = (s, e)) ∧
      (∀ v, imageVerdict key k s.sec.rollctr = .ok v →
        let t : State := { s with sec := { s.sec with active := 1 - s.sec.active, images := aput (1 - s.sec.active) k s.sec.images } }
        s.installEnd c key = (if s.sec.bootOk then t else t.boot (1 - s.sec.active) v s.sec.reason, 0))) := by
  have hdef : State.installEnd = State.installEnd := rfl
  conv_rhs at hdef => delta State.installEnd
  rw [hdef]
  beta_reduce
  refine ⟨fun hi => ?_, fun k hi => ⟨fun e he => ?_, fun v hv => ?_⟩⟩
  · rw [hi]
  · rw [hi]
    dsimp only
    rw [he]
  · rw [hi]
    dsimp only
    rw [hv]

theorem attestEnd_spent (h : 2 ^ 20 ≤ c.leaf) : s.attestEnd c rand = (s, 4) := if_pos h

/-- R530: the report and its signature are written at SECDST. -/
theorem attestEnd_signed {b : List Byte} {p q : EngAt} (hl : c.leaf < 2 ^ 20) (hb : s.secRead c 64 = some b)
    (hp : s.engineAt engFront 0 true (BitVec.ofNat 64 s.secDst) true = .ok p)
    (hq : s.engineAt engFront 0 true (BitVec.ofNat 64 (s.secDst + 2995)) true = .ok q) :
    s.attestEnd c rand = (s.engineWrite 0 .engine s.secDst (s.report c.leaf b ++ attestSign c.leaf rand (s.report c.leaf b)), 0) :=
  (if_neg (Nat.not_le.mpr hl)).trans (by simp only [hb, hp, hq])

end

end

/-- Settles O54: each row is the branch of its definition that its conditions choose. -/
theorem powerAndSecurityRowsComplete : Obligations.PowerAndSecurityRowsComplete := by
  intro core s hc tile
  refine ⟨exec_tileIdleRet hc, exec_tileIdleOff hc, exec_tileWakeComplete hc, dev_next (coreThere_of_lt hc) rfl, exec_thermalThrottle hc,
    fun h => dev_next (coreThere_of_lt hc) (if_pos h), exec_thermalTrip hc, fun h => dev_next (coreThere_of_lt hc) (if_pos h),
    fun h => dev_next rfl (if_neg (by simp [h])), fun h => dev_next rfl (if_pos h),
    fun hpow => ⟨targetRow_next hpow 0, fun i n hi => ⟨fun h => ?_, fun h => ?_⟩, dev_next rfl (if_neg hpow)⟩,
    exec_wakeComplete, fun hst hen hset hreach => dev_next rfl (if_pos ⟨hst, hen, hset, hreach⟩),
    fun keyA keyB hboot => ⟨fun v => exec_coldStart_active hboot, fun e v => exec_coldStart_other hboot,
      fun e f => exec_coldStart_none hboot, fun k v e => rfl⟩,
    fun hbusy i hi => ?_,
    fun hidle => ⟨exec_install_idle hidle, fun i n => exec_plainCommand_idle hidle, exec_attest_idle hidle, exec_attest_spent hidle⟩,
    fun c key rand hb hh => ⟨fun h => ?_, fun h => ?_, fun h => ⟨fun hl => ?_, fun b p q hl hr hp hq => ?_⟩, fun h => ?_⟩⟩
  · exact (exec_targetSleep hi hpow).trans (congrArg _ (if_pos h))
  · exact (exec_targetSleep hi hpow).trans (congrArg _ (if_neg (by simp [h])))
  · obtain ⟨⟨_, n⟩, hn, rfl⟩ := List.mem_map.mp (show i ∈ secRows.map (·.1) from hi)
    rw [exec_secCommand hn, secCommand_busy hbusy]
  · obtain ⟨hunread, hread⟩ := installEnd_cases s c key
    have ends {t : State} {n : Nat} (ht : s.installEnd c key = (t, n)) :
        exec (.securityCommandComplete key rand) s = .next { t with sec := { t.sec with busy := none, result := n } } :=
      exec_securityCommandComplete hb hh ((commandEnd_install h).trans ht)
    refine ⟨fun hi => ends (hunread hi), fun k hi => ?_⟩
    obtain ⟨hrejected, haccepted⟩ := hread k hi
    exact ⟨fun e he => ends (hrejected e he), fun v hv => ends (haccepted v hv)⟩
  · exact exec_securityCommandComplete hb hh (by simp only [State.commandEnd, h])
  · exact exec_securityCommandComplete hb hh ((commandEnd_attest h).trans (attestEnd_spent hl))
  · exact exec_securityCommandComplete hb hh ((commandEnd_attest h).trans (attestEnd_signed hl hr hp hq))
  · exact exec_securityCommandComplete hb hh (by simp only [State.commandEnd, h])

end Sys2Proof.Machine
end

section
/-! PROOF. Every step keeps memory in its canonical form (O60, log entry 1). Memory is written through putHome and by a loss of power
alone, which keep the form (Laws/Memory); every other operation passes it on. There is one rule for each operation that a step is made of,
under the operation's name and in the model's order: `.f h` is that f keeps the form, by h. An operation that changes no memory has the
memory of its argument by definition, and h serves for it; a rule of its own stands where h is itself built of rules. -/

namespace Sys2Proof.Machine

/-- The memory of a state is in its canonical form (log entry 1). -/
def State.Canon (s : State) : Prop := Memory.wf s.mem

/-- The form in the state of a pair, which stands first or second. -/
def FstCanon {α : Type} (r : State × α) : Prop := r.1.Canon
def SndCanon {α : Type} (r : α × State) : Prop := r.2.Canon

/-- The form in the state that a stopped slot instruction leaves. -/
def Stop.Canon : Stop → Prop
  | .hold s _ _ => s.Canon
  | .raiseIn s _ _ => s.Canon
  | _ => True

/-- A property of a result where there is one. -/
def OnSome {α : Type} (P : α → Prop) : Option α → Prop
  | some a => P a
  | none => True

/-- A property of the result of an instruction, or the canonical form in what stops it. -/
def OnRun {α : Type} (P : α → Prop) : Except Stop α → Prop
  | .ok a => P a
  | .error e => e.Canon

/-- The canonical form in the next state of an outcome, where there is one. -/
def NextCanon : Host.Outcome State Fault Refusal → Prop
  | .next t => t.Canon
  | _ => True

/-- A property of what part of a cycle comes to, or the canonical form in the outcome that stops it. -/
def OnIssue {α : Type} (P : α → Prop) : Except Out α → Prop
  | .ok a => P a
  | .error o => NextCanon o

/-! The form in each state that a result of the engines carries. -/

def KvAnswer.Canon : KvAnswer → Prop
  | .waits s _ _ => s.Canon
  | .whole s _ => s.Canon
  | .follows s _ => s.Canon
  | _ => True

def KvData.Canon : KvData → Prop
  | .bytes s _ => s.Canon
  | _ => True

def KvPut.Canon : KvPut → Prop
  | .done s _ => s.Canon
  | .cause s _ => s.Canon
  | .pinned => True

def KvWork.Canon : KvWork → Prop
  | .more s _ => s.Canon
  | .ended s _ => s.Canon
  | .asks _ _ => True
  | .waits s _ _ => s.Canon
  | .pinned s _ => s.Canon

def BtePiece.Canon : BtePiece → Prop
  | .more s _ => s.Canon
  | .ended s _ _ _ => s.Canon
  | .asked s _ => s.Canon
  | .waits s _ => s.Canon

def CollOutcome.Canon : CollOutcome → Prop
  | .applied s => s.Canon
  | _ => True

def Got.Canon : Got → Prop
  | .fault _ => True
  | .waits s => s.Canon
  | .got s _ => s.Canon

/-- The form in the state of an attempt to issue, and in that of a chain of slots. -/
def Attempt.Canon (a : Attempt) : Prop := a.state.Canon
def Chain.Canon (c : Chain) : Prop := c.cur.Canon

/-! Its introduction, by constructor, and its transport along the equation of a match. -/

theorem Stop.Canon.hold {s : State} {w last} (h : s.Canon) : (Stop.hold s w last).Canon := h
theorem Stop.Canon.raiseIn {s : State} {c f} (h : s.Canon) : (Stop.raiseIn s c f).Canon := h

theorem KvAnswer.Canon.waits {s : State} {o pool} (h : s.Canon) : (KvAnswer.waits s o pool).Canon := h
theorem KvAnswer.Canon.whole {s : State} {o} (h : s.Canon) : (KvAnswer.whole s o).Canon := h
theorem KvAnswer.Canon.follows {s : State} {o} (h : s.Canon) : (KvAnswer.follows s o).Canon := h
theorem KvAnswer.Canon.fails {c f} : (KvAnswer.fails c f).Canon := True.intro
theorem KvAnswer.Canon.of_eq {a b : KvAnswer} (h : a.Canon) (e : a = b) : b.Canon := e ▸ h

theorem KvData.Canon.bytes {s : State} {b} (h : s.Canon) : (KvData.bytes s b).Canon := h
theorem KvData.Canon.of_eq {a b : KvData} (h : a.Canon) (e : a = b) : b.Canon := e ▸ h

theorem KvPut.Canon.done {s : State} {o} (h : s.Canon) : (KvPut.done s o).Canon := h
theorem KvPut.Canon.cause {s : State} {c} (h : s.Canon) : (KvPut.cause s c).Canon := h
theorem KvPut.Canon.of_eq {a b : KvPut} (h : a.Canon) (e : a = b) : b.Canon := e ▸ h

theorem KvWork.Canon.more {s : State} {o} (h : s.Canon) : (KvWork.more s o).Canon := h
theorem KvWork.Canon.ended {s : State} {o} (h : s.Canon) : (KvWork.ended s o).Canon := h
theorem KvWork.Canon.waits {s : State} {o pool} (h : s.Canon) : (KvWork.waits s o pool).Canon := h
theorem KvWork.Canon.pinned {s : State} {o} (h : s.Canon) : (KvWork.pinned s o).Canon := h
theorem KvWork.Canon.of_eq {a b : KvWork} (h : a.Canon) (e : a = b) : b.Canon := e ▸ h

theorem BtePiece.Canon.more {s : State} {o} (h : s.Canon) : (BtePiece.more s o).Canon := h
theorem BtePiece.Canon.ended {s : State} {o n c} (h : s.Canon) : (BtePiece.ended s o n c).Canon := h
theorem BtePiece.Canon.asked {s : State} {o} (h : s.Canon) : (BtePiece.asked s o).Canon := h
theorem BtePiece.Canon.waits {s : State} {o} (h : s.Canon) : (BtePiece.waits s o).Canon := h
theorem BtePiece.Canon.of_eq {a b : BtePiece} (h : a.Canon) (e : a = b) : b.Canon := e ▸ h

theorem CollOutcome.Canon.applied {s : State} (h : s.Canon) : (CollOutcome.applied s).Canon := h
theorem CollOutcome.Canon.of_eq {a b : CollOutcome} (h : a.Canon) (e : a = b) : b.Canon := e ▸ h

theorem Got.Canon.waits {s : State} (h : s.Canon) : (Got.waits s).Canon := h
theorem Got.Canon.got {s : State} {b} (h : s.Canon) : (Got.got s b).Canon := h
theorem Got.Canon.of_eq {a b : Got} (h : a.Canon) (e : a = b) : b.Canon := e ▸ h

theorem Attempt.Canon.stalled {s : State} (h : s.Canon) : (Attempt.stalled s).Canon := h
theorem Attempt.Canon.event {s : State} (h : s.Canon) : (Attempt.event s).Canon := h
theorem Attempt.Canon.issued {s : State} {l n} (h : s.Canon) : (Attempt.issued s l n).Canon := h
theorem Chain.Canon.cur {c : Chain} (h : c.Canon) : c.cur.Canon := h
theorem Attempt.Canon.state {a : Attempt} (h : a.Canon) : a.state.Canon := h

/-! Pairs. -/

theorem FstCanon.mk {α : Type} {s : State} {a : α} (h : s.Canon) : FstCanon (s, a) := h
theorem SndCanon.mk {α : Type} {s : State} {a : α} (h : s.Canon) : SndCanon (a, s) := h
theorem FstCanon.fst {α : Type} {r : State × α} (h : FstCanon r) : r.1.Canon := h
theorem SndCanon.snd {α : Type} {r : α × State} (h : SndCanon r) : r.2.Canon := h
theorem State.Canon.fst {α : Type} {r : State × α} (h : FstCanon r) : r.1.Canon := h
theorem State.Canon.snd {α : Type} {r : α × State} (h : SndCanon r) : r.2.Canon := h
theorem FstCanon.of_eq {α : Type} {r : State × α} {s : State} {a : α} (h : FstCanon r) (e : r = (s, a)) : s.Canon := by
  subst e; exact h

/-! Results that may be missing. -/

theorem OnSome.some {α : Type} {P : α → Prop} {a : α} (h : P a) : OnSome P (some a) := h

theorem OnSome.any {α : Type} {o : Option α} : OnSome (fun _ => True) o := by cases o <;> trivial

theorem OnSome.of_some {α : Type} {P : α → Prop} {o : Option α} {a : α} (h : OnSome P o) (e : o = .some a) : P a := by
  subst e; exact h

theorem OnSome.of_eq {α : Type} {P : α → Prop} {o : Option α} {a : α} (e : o = .some a) (h : OnSome P o) : P a := h.of_some e

theorem OnSome.map {α β : Type} {P : β → Prop} {Q : α → Prop} {o : Option α} {f : α → β} (ho : OnSome Q o)
    (hf : ∀ a, Q a → P (f a)) : OnSome P (o.map f) := by
  cases o with
  | none => trivial
  | some a => exact hf a ho

theorem OnSome.bind {α β : Type} {P : β → Prop} {Q : α → Prop} {o : Option α} {f : α → Option β} (ho : OnSome Q o)
    (hf : ∀ a, Q a → OnSome P (f a)) : OnSome P (o.bind f) := by
  cases o with
  | none => trivial
  | some a => exact hf a ho

theorem OnSome.foldlM {α : Type} {f : State → α → Option State} {l : List α} {s : State}
    (hf : ∀ s a, s.Canon → OnSome State.Canon (f s a)) (h : s.Canon) : OnSome State.Canon (l.foldlM f s) := by
  induction l generalizing s with
  | nil => exact h
  | cons a l ih => exact OnSome.bind (hf s a h) fun _ h => ih h

theorem State.Canon.getD {o : Option State} {s : State} (ho : OnSome State.Canon o) (h : s.Canon) : (o.getD s).Canon := by
  cases o with
  | none => exact h
  | some t => exact ho

/-! Results of instructions. -/

theorem OnRun.ok {α : Type} {P : α → Prop} {a : α} (h : P a) : OnRun P (.ok a) := h
theorem OnRun.error {α : Type} {P : α → Prop} {e : Stop} (h : e.Canon) : OnRun P (.error e) := h

theorem OnRun.of_ok {α : Type} {P : α → Prop} {r : Except Stop α} {a : α} (h : OnRun P r) (e : r = .ok a) : P a := by
  subst e; exact h

theorem OnRun.of_error {α : Type} {P : α → Prop} {r : Except Stop α} {e : Stop} (h : OnRun P r) (he : r = .error e) : e.Canon := by
  subst he; exact h

theorem OnRun.of_eq_ok {α : Type} {P : α → Prop} {r : Except Stop α} {a : α} (e : r = .ok a) (h : OnRun P r) : P a := h.of_ok e

theorem OnRun.of_eq_error {α : Type} {P : α → Prop} {r : Except Stop α} {x : Stop} (e : r = .error x) (h : OnRun P r) : x.Canon :=
  h.of_error e

theorem OnRun.bind {α β : Type} {P : β → Prop} {Q : α → Prop} {r : Except Stop α} {f : α → Except Stop β} (hr : OnRun Q r)
    (hf : ∀ a, Q a → OnRun P (f a)) : OnRun P (r >>= f) := by
  cases r with
  | ok a => exact hf a hr
  | error e => exact hr

theorem OnRun.forM {α : Type} {l : List α} {f : α → Except Stop Unit} (hf : ∀ a, OnRun (fun _ => True) (f a)) :
    OnRun (fun _ => True) (l.forM f) := by
  induction l with
  | nil => trivial
  | cons a l ih => exact .bind (hf a) fun _ _ => ih

theorem OnRun.mapM {α β : Type} {l : List α} {f : α → Except Stop β} (hf : ∀ a, OnRun (fun _ => True) (f a)) :
    OnRun (fun _ => True) (l.mapM f) := by
  rw [← List.mapM'_eq_mapM]
  induction l with
  | nil => trivial
  | cons a l ih => exact .bind (hf a) fun _ _ => .bind ih fun _ _ => trivial

theorem OnRun.foldlM {α β : Type} {l : List α} {b : β} {f : β → α → Except Stop β} (hf : ∀ b a, OnRun (fun _ => True) (f b a)) :
    OnRun (fun _ => True) (l.foldlM f b) := by
  induction l generalizing b with
  | nil => trivial
  | cons a l ih => exact .bind (hf b a) fun _ _ => ih

theorem OnRun.liftC {α : Type} {r : Except Cause α} : OnRun (fun _ => True) (liftC r) := by
  cases r <;> trivial

/-! Outcomes. -/

theorem OnIssue.ok {α : Type} {P : α → Prop} {a : α} (h : P a) : OnIssue P (.ok a) := h

theorem OnIssue.of_ok {α : Type} {P : α → Prop} {r : Except Out α} {a : α} (h : OnIssue P r) (e : r = .ok a) : P a := by
  subst e; exact h

theorem OnIssue.of_error {α : Type} {P : α → Prop} {r : Except Out α} {o : Out} (h : OnIssue P r) (e : r = .error o) : NextCanon o := by
  subst e; exact h

theorem OnIssue.map {α β : Type} {P : β → Prop} {Q : α → Prop} {r : Except Out α} {f : α → β} (hr : OnIssue Q r)
    (hf : ∀ a, Q a → P (f a)) : OnIssue P (r.map f) := by
  cases r with
  | ok a => exact hf a hr
  | error o => exact hr

theorem NextCanon.next {t : State} (h : t.Canon) : NextCanon (.next t) := h

theorem NextCanon.of_next {o : Host.Outcome State Fault Refusal} {t : State} (h : NextCanon o) (e : o = .next t) : t.Canon := by
  subst e; exact h

theorem NextCanon.dev {row : String} {there : Bool} {r : Option State} (h : OnSome State.Canon r) : NextCanon (dev row there r) := by
  unfold Machine.dev
  split
  · trivial
  · cases r with
    | none => trivial
    | some t => exact h

/-! A choice of two that keep the form keeps it. The condition's decision is found by unification: a search for it would run the
model's conditions. -/

section
variable {c : Prop} {_ : Decidable c}

theorem State.Canon.ite {a b : State} (ha : a.Canon) (hb : b.Canon) : (if c then a else b).Canon :=
  iteInduction (fun _ => ha) fun _ => hb

theorem Stop.Canon.ite {a b : Stop} (ha : a.Canon) (hb : b.Canon) : (if c then a else b).Canon :=
  iteInduction (fun _ => ha) fun _ => hb

theorem KvAnswer.Canon.ite {a b : KvAnswer} (ha : a.Canon) (hb : b.Canon) : (if c then a else b).Canon :=
  iteInduction (fun _ => ha) fun _ => hb

theorem KvData.Canon.ite {a b : KvData} (ha : a.Canon) (hb : b.Canon) : (if c then a else b).Canon :=
  iteInduction (fun _ => ha) fun _ => hb

theorem KvPut.Canon.ite {a b : KvPut} (ha : a.Canon) (hb : b.Canon) : (if c then a else b).Canon :=
  iteInduction (fun _ => ha) fun _ => hb

theorem KvWork.Canon.ite {a b : KvWork} (ha : a.Canon) (hb : b.Canon) : (if c then a else b).Canon :=
  iteInduction (fun _ => ha) fun _ => hb

theorem BtePiece.Canon.ite {a b : BtePiece} (ha : a.Canon) (hb : b.Canon) : (if c then a else b).Canon :=
  iteInduction (fun _ => ha) fun _ => hb

theorem CollOutcome.Canon.ite {a b : CollOutcome} (ha : a.Canon) (hb : b.Canon) : (if c then a else b).Canon :=
  iteInduction (fun _ => ha) fun _ => hb

theorem Got.Canon.ite {a b : Got} (ha : a.Canon) (hb : b.Canon) : (if c then a else b).Canon :=
  iteInduction (fun _ => ha) fun _ => hb

theorem Attempt.Canon.ite {a b : Attempt} (ha : a.Canon) (hb : b.Canon) : (if c then a else b).Canon :=
  iteInduction (fun _ => ha) fun _ => hb

theorem FstCanon.ite {α : Type} {a b : State × α} (ha : FstCanon a) (hb : FstCanon b) : FstCanon (if c then a else b) :=
  iteInduction (fun _ => ha) fun _ => hb

theorem SndCanon.ite {α : Type} {a b : α × State} (ha : SndCanon a) (hb : SndCanon b) : SndCanon (if c then a else b) :=
  iteInduction (fun _ => ha) fun _ => hb

theorem OnSome.ite {α : Type} {P : α → Prop} {a b : Option α} (ha : OnSome P a) (hb : OnSome P b) : OnSome P (if c then a else b) :=
  iteInduction (fun _ => ha) fun _ => hb

theorem OnRun.ite {α : Type} {P : α → Prop} {a b : Except Stop α} (ha : OnRun P a) (hb : OnRun P b) : OnRun P (if c then a else b) :=
  iteInduction (fun _ => ha) fun _ => hb

theorem OnIssue.ite {α : Type} {P : α → Prop} {a b : Except Out α} (ha : OnIssue P a) (hb : OnIssue P b) : OnIssue P (if c then a else b) :=
  iteInduction (fun _ => ha) fun _ => hb

theorem NextCanon.ite {a b : Host.Outcome State Fault Refusal} (ha : NextCanon a) (hb : NextCanon b) : NextCanon (if c then a else b) :=
  iteInduction (fun _ => ha) fun _ => hb

end

/-! A fold of operations that keep the form keeps it. -/

theorem foldl_keeps {α β : Type} {P : β → Prop} {f : β → α → β} {l : List α} {b : β} (hf : ∀ b a, P b → P (f b a)) (h : P b) :
    P (l.foldl f b) := List.foldlRecOn l f h fun b hb a _ => hf b a hb

theorem State.Canon.foldl {α : Type} {f : State → α → State} {l : List α} {s : State} (hf : ∀ s a, s.Canon → (f s a).Canon)
    (h : s.Canon) : (l.foldl f s).Canon := foldl_wf f hf l s h

theorem FstCanon.foldl {α β : Type} {f : State × β → α → State × β} {l : List α} {r : State × β}
    (hf : ∀ r a, FstCanon r → FstCanon (f r a)) (h : FstCanon r) : FstCanon (l.foldl f r) := foldl_keeps hf h

theorem SndCanon.foldl {α β : Type} {f : β × State → α → β × State} {l : List α} {r : β × State}
    (hf : ∀ r a, SndCanon r → SndCanon (f r a)) (h : SndCanon r) : SndCanon (l.foldl f r) := foldl_keeps hf h

/-! Memory. -/

theorem State.Canon.putHome {s : State} {pa b} (h : s.Canon) : (s.putHome pa b).Canon := putHome_wf s pa b h
theorem State.Canon.putHomes {s : State} {pa bs} (h : s.Canon) : (s.putHomes pa bs).Canon := putHomes_wf pa bs s h

/-! Updates of fields that are not memory. -/

theorem State.Canon.set_resole {s : State} {r} (h : s.Canon) : State.Canon { s with resole := r } := h
theorem State.Canon.set_fe {s : State} {fe} (h : s.Canon) : State.Canon { s with fe := fe } := h
theorem State.Canon.set_fresh {s : State} {n} (h : s.Canon) : State.Canon { s with fresh := n } := h
theorem State.Canon.set_net {s : State} {net} (h : s.Canon) : State.Canon { s with net := net } := h
theorem State.Canon.set_power {s : State} {p} (h : s.Canon) : State.Canon { s with power := p } := h
theorem State.Canon.set_sec {s : State} {sec} (h : s.Canon) : State.Canon { s with sec := sec } := h
theorem State.Canon.set_net_fresh {s : State} {net n} (h : s.Canon) : State.Canon { s with net := net, fresh := n } := h
theorem State.Canon.set_focus {s : State} {f} (h : s.Canon) : State.Canon { s with focus := f } := h
theorem State.Canon.set_poison {s : State} {ps} (h : s.Canon) : State.Canon { s with poison := ps } := h

/-! The operations of Machine/Memory. -/

theorem State.Canon.putHomeTag {s : State} {pa t} (h : s.Canon) : (s.putHomeTag pa t).Canon := by
  unfold State.putHomeTag
  exact .ite h h

theorem State.Canon.observe {s : State} {core src} (h : s.Canon) : (s.observe core src).Canon := by
  unfold State.observe
  exact .ite h h

theorem State.Canon.observeRead {s : State} {core cp line} (h : s.Canon) : (s.observeRead core cp line).Canon := by
  unfold State.observeRead
  refine .ite (.ite (.observe h) h) (.ite ?_ ?_)
  · exact .observe (.ite (.observe h) h)
  · exact .ite (.observe (.ite (.observe h) h)) (.ite (.observe h) h)

theorem State.Canon.fillLine {s : State} {core cp line} (h : s.Canon) : (s.fillLine core cp line).Canon := by
  unfold State.fillLine
  exact .ite (.observeRead h) (.ite (.observeRead h) (.observeRead h))

theorem State.Canon.fillBytes {s : State} {core cp pa n} (h : s.Canon) : (s.fillBytes core cp pa n).Canon := by
  unfold State.fillBytes
  exact .foldl (fun _ _ h => .fillLine h) h

theorem State.Canon.putCached {s : State} {pa b} (h : s.Canon) : (s.putCached pa b).Canon := by
  unfold State.putCached
  split <;> exact h

theorem State.Canon.putCachedTag {s : State} {pa t} (h : s.Canon) : (s.putCachedTag pa t).Canon := by
  unfold State.putCachedTag
  split <;> exact h

theorem State.Canon.cleanLine {s : State} {line} (h : s.Canon) : (s.cleanLine line).Canon := by
  unfold State.cleanLine
  split
  · exact .ite h (.putHomeTag (.putHomes h))
  · exact h

theorem State.Canon.writeBack {s : State} {line} (h : s.Canon) : (s.writeBack line).Canon := by
  unfold State.writeBack
  exact .cleanLine h

theorem State.Canon.forgetLine {s : State} {line} (h : s.Canon) : (s.forgetLine line).Canon := by
  unfold State.forgetLine
  exact .ite h h

theorem State.Canon.evictL1 {s : State} {core line} (h : s.Canon) : (s.evictL1 core line).Canon := by
  unfold State.evictL1
  exact .forgetLine (.ite (.cleanLine h) h)

theorem State.Canon.evictL2 {s : State} {cluster line} (h : s.Canon) : (s.evictL2 cluster line).Canon := by
  unfold State.evictL2
  exact .forgetLine h

theorem State.Canon.emptyL1 {s : State} {core} (h : s.Canon) : (s.emptyL1 core).Canon := by
  unfold State.emptyL1
  exact .foldl (fun _ _ h => .evictL1 h) h

theorem State.Canon.loseL1 {s : State} {core} (h : s.Canon) : (s.loseL1 core).Canon := by
  unfold State.loseL1
  exact .foldl (fun _ _ h => .ite h (.evictL1 h)) h

theorem State.Canon.emptyL2 {s : State} {cluster} (h : s.Canon) : (s.emptyL2 cluster).Canon := by
  unfold State.emptyL2
  exact .foldl (fun _ _ h => .evictL2 h) h

theorem State.Canon.trimL1 {s : State} {e} (h : s.Canon) : (s.trimL1 e).Canon := by
  unfold State.trimL1
  exact .foldl (fun _ _ h => .evictL1 h) h

theorem State.Canon.trimL2 {s : State} {e} (h : s.Canon) : (s.trimL2 e).Canon := by
  unfold State.trimL2
  exact .foldl (fun _ _ h => .evictL2 h) h

theorem State.Canon.trim {s : State} (h : s.Canon) : s.trim.Canon := by
  unfold State.trim
  exact .foldl (fun _ _ h => .trimL2 h) (.foldl (fun _ _ h => .trimL1 h) h)

theorem State.Canon.storeBytes {s : State} {w pa bs} (h : s.Canon) : (s.storeBytes w pa bs).Canon := storeBytes_wf w pa bs s h

theorem State.Canon.storeTag {s : State} {w pa t} (h : s.Canon) : (s.storeTag w pa t).Canon := by
  unfold State.storeTag
  refine .ite h ?_
  split
  · exact .putCachedTag h
  · exact .putHomeTag (.putCachedTag h)
  · exact .putHomeTag h

theorem State.Canon.engineBytes {s : State} {pa bs} (h : s.Canon) : (s.engineBytes pa bs).Canon := by
  unfold State.engineBytes
  exact .storeBytes h

theorem State.Canon.engineTag {s : State} {pa t} (h : s.Canon) : (s.engineTag pa t).Canon := by
  unfold State.engineTag
  exact .storeTag h

theorem State.Canon.hostLine {s : State} {core cp line data} (h : s.Canon) : (s.hostLine core cp line data).Canon := by
  unfold State.hostLine
  exact .ite h (.fillLine h)

theorem State.Canon.recall {s : State} {first n} (h : s.Canon) : (s.recall first n).Canon := by
  unfold State.recall
  exact .foldl (fun _ _ h => .writeBack h) h

/-! The operations of Machine/Translate. -/

theorem State.Canon.setTlb {s : State} {u l} (h : s.Canon) : (s.setTlb u l).Canon := by
  unfold State.setTlb
  split <;> exact h

theorem State.Canon.markLeaf {s : State} {l w} (h : s.Canon) : (s.markLeaf l w).Canon := by
  unfold State.markLeaf
  exact .ite h (.putHome (.writeBack h))

theorem State.Canon.cacheWalk {s : State} {u va path} (h : s.Canon) : (s.cacheWalk u va path).Canon := by
  unfold State.cacheWalk
  exact .ite h h

theorem State.Canon.installFor {s : State} {u asid va l w} (h : s.Canon) : (s.installFor u asid va l w).Canon := by
  unfold State.installFor
  refine .ite h (.set_fresh (.setTlb ?_))
  split
  · exact .observe (.cacheWalk (.markLeaf h))
  · exact .cacheWalk (.markLeaf h)

theorem State.Canon.installLeaf {s : State} {core asid va l w} (h : s.Canon) : (s.installLeaf core asid va l w).Canon := by
  unfold State.installLeaf
  exact .installFor h

theorem State.Canon.revise {s : State} {u asid k v} (h : s.Canon) : (s.revise u asid k v).Canon := by
  unfold State.revise
  refine .ite h ?_
  split
  · exact h
  · split
    · exact .setTlb h
    · exact .ite (.setTlb (.markLeaf h)) (.setTlb h)

theorem State.Canon.installPieces {s : State} {core asid w ps} (h : s.Canon) : (s.installPieces core asid w ps).Canon := by
  unfold State.installPieces
  exact .foldl (fun _ _ h => .installLeaf h) h

theorem State.Canon.fillPieces {s : State} {core ps} (h : s.Canon) : (s.fillPieces core ps).Canon := by
  unfold State.fillPieces
  exact .foldl (fun _ _ h => .fillBytes h) h

/-! The operations of Machine/Barrier. -/

theorem State.Canon.setSeat {s : State} {core x t} (h : s.Canon) : (s.setSeat core x t).Canon := h
theorem State.Canon.modSeat {s : State} {core x f} (h : s.Canon) : (s.modSeat core x f).Canon := h
theorem State.Canon.modCore {s : State} {n f} (h : s.Canon) : (s.modCore n f).Canon := h
theorem State.Canon.modCluster {s : State} {n f} (h : s.Canon) : (s.modCluster n f).Canon := h
theorem State.Canon.modDie {s : State} {n f} (h : s.Canon) : (s.modDie n f).Canon := h
theorem State.Canon.setLeaf {s : State} {core o b} (h : s.Canon) : (s.setLeaf core o b).Canon := h
theorem State.Canon.setRoot {s : State} {cl o b} (h : s.Canon) : (s.setRoot cl o b).Canon := h

theorem State.Canon.putLeaves {s : State} {addr l l'} (h : s.Canon) : (s.putLeaves addr l l').Canon := by
  unfold State.putLeaves
  exact .foldl (fun _ _ h => .ite h (.engineBytes h)) h

theorem State.Canon.flipRoot {s : State} {cl o} (h : s.Canon) : (s.flipRoot cl o).Canon := by
  unfold State.flipRoot
  refine .foldl (fun s d h => .foldl (fun s e h => ?_) h) h
  split
  · exact .putLeaves h
  · exact h

theorem State.Canon.evalRoot {s : State} {cl o} (h : s.Canon) : (s.evalRoot cl o).Canon := by
  unfold State.evalRoot
  exact .ite (.flipRoot h) h

theorem State.Canon.evalLeaf {s : State} {core o} (h : s.Canon) : (s.evalLeaf core o).Canon := by
  unfold State.evalLeaf
  dsimp only
  refine .ite h (.ite ?_ ?_)
  · split
    · exact .evalRoot h
    · exact h
  · exact h

theorem State.Canon.arriveAt {s : State} {core obj} (h : s.Canon) : (s.arriveAt core obj).Canon := by
  unfold State.arriveAt
  exact .ite (.evalLeaf h) (.evalRoot h)

theorem State.Canon.landSome {s : State} {core o n} (h : s.Canon) : (s.landSome core o n).Canon := by
  unfold State.landSome
  exact .evalLeaf h

theorem State.Canon.landBytes {s : State} {core o n} (h : s.Canon) : (s.landBytes core o n).Canon := by
  unfold State.landBytes
  exact .ite (.landSome (.landSome h)) (.landSome h)

theorem State.Canon.mxfDone {s : State} {core o bits cause} (h : s.Canon) : (s.mxfDone core o bits cause).Canon := by
  unfold State.mxfDone
  exact .evalLeaf h

/-! The operations of Machine/Timeline. -/

theorem SndCanon.amoAt {s : State} {pa op n x cmp} (h : s.Canon) : SndCanon (s.amoAt pa op n x cmp) := by
  unfold State.amoAt
  dsimp only
  split
  · exact .mk (.putHomes (.recall h))
  · exact .mk (.recall h)

theorem State.Canon.hostRequest {s : State} {r} (h : s.Canon) : (s.hostRequest r).Canon := h

theorem State.Canon.hostAfter {s : State} {waits r} (h : s.Canon) : (s.hostAfter waits r).Canon := by
  unfold State.hostAfter
  exact .ite h h

theorem State.Canon.hostLeave {s : State} {id r} (h : s.Canon) : (s.hostLeave id r).Canon := by
  unfold State.hostLeave
  exact .ite h (.ite h (.engineBytes h))

theorem State.Canon.hostReleaseN {fuel ids} {s : State} (h : s.Canon) : (State.hostReleaseN fuel ids s).Canon := by
  induction fuel generalizing ids s with
  | zero => exact h
  | succ fuel ih =>
    unfold State.hostReleaseN
    exact .ite (.foldl (fun _ _ h => .hostLeave h) h) (ih (.foldl (fun _ _ h => .hostLeave h) h))

theorem State.Canon.hostRelease {s : State} {ids} (h : s.Canon) : (s.hostRelease ids).Canon := by
  unfold State.hostRelease
  exact .hostReleaseN h

theorem State.Canon.hostWritesBy {s : State} {r pa bs} (h : s.Canon) : (s.hostWritesBy r pa bs).Canon := by
  unfold State.hostWritesBy
  exact .foldl (fun _ _ h => h) h

theorem State.Canon.hostWrites {s : State} {use asid pa bs} (h : s.Canon) : (s.hostWrites use asid pa bs).Canon := by
  unfold State.hostWrites
  exact .hostWritesBy h

theorem State.Canon.engineWriteBy {s : State} {r pa bs} (h : s.Canon) : (s.engineWriteBy r pa bs).Canon := by
  unfold State.engineWriteBy
  exact .ite (.hostWritesBy h) (.engineBytes h)

theorem State.Canon.engineWrite {s : State} {asid use pa bs} (h : s.Canon) : (s.engineWrite asid use pa bs).Canon := by
  unfold State.engineWrite
  exact .ite (.hostWrites h) (.engineBytes h)

theorem State.Canon.resumeHeld {s : State} (h : s.Canon) : s.resumeHeld.Canon := by
  unfold State.resumeHeld
  exact .ite h h

theorem State.Canon.raiseFw {s : State} {bit} (h : s.Canon) : (s.raiseFw bit).Canon := h
theorem State.Canon.setSlot {s : State} {k h'} (h : s.Canon) : (s.setSlot k h').Canon := h

theorem State.Canon.noteFault {s : State} {t cause tag} (h : s.Canon) : (s.noteFault t cause tag).Canon := by
  unfold State.noteFault
  exact .ite h h

theorem State.Canon.mirrorPut {s : State} {t asid release pa n v} (h : s.Canon) : (s.mirrorPut t asid release pa n v).Canon := by
  unfold State.mirrorPut
  exact .ite (.engineBytes h) (.hostAfter h)

theorem State.Canon.mirror {s : State} {t} (h : s.Canon) : (s.mirror t).Canon := by
  unfold State.mirror
  dsimp only
  split
  · exact h
  · split
    · exact h
    · refine .ite h ?_
      split
      · exact .noteFault h
      · exact .mirrorPut (.mirrorPut (.mirrorPut (.mirrorPut (.installFor h))))

theorem State.Canon.mirrorRptr {s : State} {k force} (h : s.Canon) : (s.mirrorRptr k force).Canon := by
  unfold State.mirrorRptr
  dsimp only
  split
  · exact h
  · exact .ite (.mirror h) h

theorem State.Canon.recordFault {s : State} {t cause tag} (h : s.Canon) : (s.recordFault t cause tag).Canon := by
  unfold State.recordFault
  exact .mirror (.noteFault h)

theorem State.Canon.recordBit {s : State} {t bit} (h : s.Canon) : (s.recordBit t bit).Canon := by
  unfold State.recordBit
  exact .mirror h

theorem State.Canon.certify {s : State} {t} (h : s.Canon) : (s.certify t).Canon := by
  unfold State.certify
  exact .ite h (.mirror h)

theorem State.Canon.increment {s : State} {t inc cores tag} (h : s.Canon) : (s.increment t inc cores tag).Canon := by
  unfold State.increment
  exact .mirror (.certify h)

theorem State.Canon.countOut {s : State} {tag} (h : s.Canon) : (s.countOut tag).Canon := by
  unfold State.countOut
  split
  · exact h
  · refine .ite ?_ ?_
    · split <;> exact h
    · exact h

theorem State.Canon.entryFault {s : State} {tag cause} (h : s.Canon) : (s.entryFault tag cause).Canon := by
  unfold State.entryFault
  split
  · exact h
  · exact .recordFault h

theorem State.Canon.entryKilled {s : State} {tag} (h : s.Canon) : (s.entryKilled tag).Canon := by
  unfold State.entryKilled
  split
  · exact h
  · exact .recordBit (.recordFault h)

/-! The operations of Machine/Array. -/

theorem State.Canon.fillFrames {s : State} {id v} (h : s.Canon) : (s.fillFrames id v).Canon := by
  unfold State.fillFrames
  refine .ite h (.foldl (fun s f h => .foldl (fun s w h => .ite (.engineBytes ?_) h) h) h)
  split
  · exact .engineBytes h
  · exact h

theorem State.Canon.fillS {s : State} {core x id reg v} (h : s.Canon) : (s.fillS core x id reg v).Canon := by
  unfold State.fillS
  exact .fillFrames h

theorem State.Canon.noteChange {s : State} {core x y acc} (h : s.Canon) : (s.noteChange core x y acc).Canon := by
  unfold State.noteChange
  exact .ite h h

theorem State.Canon.noteAcc {s : State} {core x acc id} (h : s.Canon) : (s.noteAcc core x acc id).Canon := by
  unfold State.noteAcc
  dsimp only
  split
  · exact .ite (.noteChange h) (.noteChange (.noteChange h))
  · exact .noteChange h

theorem State.Canon.deliverAcc {s : State} {core i e} (h : s.Canon) : (s.deliverAcc core i e).Canon := h

theorem State.Canon.settleAcc {s : State} {core} (h : s.Canon) : (s.settleAcc core).Canon := by
  refine FstCanon.fst (FstCanon.foldl (fun st e hst => ?_) (.mk h))
  dsimp only
  split
  · exact hst
  · split
    · exact hst
    · exact .mk (.deliverAcc hst.fst)
  · split
    · exact hst
    · exact .mk (.noteAcc hst.fst)
  · split <;> exact hst
  · exact hst

/-! The operations of Machine/KvStore. -/

theorem State.Canon.putMemN {s : State} {pa n v} (h : s.Canon) : (s.putMemN pa n v).Canon := by
  unfold State.putMemN
  exact .engineBytes h

theorem State.Canon.poolTake {s : State} {desc} (h : s.Canon) : (s.poolTake desc).Canon := by
  unfold State.poolTake
  exact .putMemN h

theorem State.Canon.poolEvent {s : State} {n} (h : s.Canon) : (s.poolEvent n).Canon := h

theorem State.Canon.poolPut {s : State} {desc addr count kind flags} (h : s.Canon) : (s.poolPut desc addr count kind flags).Canon := by
  unfold State.poolPut
  exact .putMemN (.putMemN (.putMemN (.putMemN (.putMemN h))))

theorem State.Canon.poolGive {s : State} {r waited} (h : s.Canon) : (s.poolGive r waited).Canon := by
  unfold State.poolGive
  exact .ite h (.ite (.poolPut h) (.ite h h))

theorem State.Canon.flushReturns {s : State} (h : s.Canon) : s.flushReturns.Canon := by
  unfold State.flushReturns
  exact .foldl (fun _ _ h => .poolGive h) h

theorem State.Canon.poolReturn {s : State} {desc n addr count kind flags} (h : s.Canon) :
    (s.poolReturn desc n addr count kind flags).Canon := by
  unfold State.poolReturn
  exact .poolGive h

theorem State.Canon.returnFrame {s : State} {d addr flags} (h : s.Canon) : (s.returnFrame d addr flags).Canon := by
  unfold State.returnFrame
  exact .poolReturn h

theorem State.Canon.setCommit {s : State} {q v} (h : s.Canon) : (s.setCommit q v).Canon := by
  unfold State.setCommit
  exact .putMemN h

theorem State.Canon.setFront {s : State} {q v} (h : s.Canon) : (s.setFront q v).Canon := by
  unfold State.setFront
  exact .putMemN h

theorem State.Canon.setRcnt {s : State} {q v} (h : s.Canon) : (s.setRcnt q v).Canon := by
  unfold State.setRcnt
  exact .putMemN h

theorem State.Canon.setRdone {s : State} {q v} (h : s.Canon) : (s.setRdone q v).Canon := by
  unfold State.setRdone
  exact .putMemN h

theorem State.Canon.setBusy {s : State} {q b} (h : s.Canon) : (s.setBusy q b).Canon := by
  unfold State.setBusy
  exact .putMemN h

theorem State.Canon.setPathAt {s : State} {q i n} (h : s.Canon) : (s.setPathAt q i n).Canon := by
  unfold State.setPathAt
  exact .putMemN h

theorem State.Canon.setPath {s : State} {q ns} (h : s.Canon) : (s.setPath q ns).Canon := by
  unfold State.setPath
  exact .putMemN (.foldl (fun _ _ h => .setPathAt h) h)

theorem State.Canon.setStart {s : State} {n v} (h : s.Canon) : (s.setStart n v).Canon := by
  unfold State.setStart
  exact .putMemN h

theorem State.Canon.setLen {s : State} {n v} (h : s.Canon) : (s.setLen n v).Canon := by
  unfold State.setLen
  exact .putMemN h

theorem State.Canon.setFlag {s : State} {n bit b} (h : s.Canon) : (s.setFlag n bit b).Canon := by
  unfold State.setFlag
  exact .putMemN h

theorem State.Canon.setRef {s : State} {n v} (h : s.Canon) : (s.setRef n v).Canon := by
  unfold State.setRef
  exact .setFlag (.putMemN h)

theorem State.Canon.setTRef {s : State} {t v} (h : s.Canon) : (s.setTRef t v).Canon := by
  unfold State.setTRef
  exact .putMemN h

theorem State.Canon.setEntry {s : State} {t l v} (h : s.Canon) : (s.setEntry t l v).Canon := by
  unfold State.setEntry
  exact .putMemN h

theorem State.Canon.makeNode {s : State} {frame table nblk src n} (h : s.Canon) : (s.makeNode frame table nblk src n).Canon := by
  unfold State.makeNode
  exact .ite (.ite (.engineBytes h) (.setTRef (.engineBytes h))) (.setTRef (.engineBytes h))

theorem State.Canon.kvReturn {s : State} {q pool addr count kind flags} (h : s.Canon) :
    (s.kvReturn q pool addr count kind flags).Canon := by
  unfold State.kvReturn
  exact .poolGive h

theorem State.Canon.freeFrame {s : State} {q frame} (h : s.Canon) : (s.freeFrame q frame).Canon := by
  unfold State.freeFrame
  exact .ite h (.ite (.kvReturn h) (.kvReturn (.kvReturn h)))

theorem State.Canon.dropTable {s : State} {q demoted fuel t} (h : s.Canon) : (s.dropTable q demoted fuel t).Canon := by
  induction fuel generalizing s t with
  | zero => exact h
  | succ fuel ih =>
    unfold State.dropTable
    dsimp only
    refine .ite (.setTRef h) (.ite ?_ (ih ?_))
    · exact .freeFrame (.foldl (fun _ _ h => .kvReturn h) (.setTRef h))
    · exact .freeFrame (.foldl (fun _ _ h => .kvReturn h) (.setTRef h))

theorem State.Canon.dropNode {s : State} {q n} (h : s.Canon) : (s.dropNode q n).Canon := by
  unfold State.dropNode
  exact .ite (.setRef h) (.ite (.dropTable (.setRef h)) (.freeFrame (.dropTable (.setRef h))))

theorem State.Canon.unlistStage {s : State} {q} (h : s.Canon) : (s.unlistStage q).Canon := h

theorem State.Canon.discardStage {s : State} {q} (h : s.Canon) : (s.discardStage q).Canon := by
  unfold State.discardStage
  dsimp only
  split
  · exact .ite (.dropNode (.unlistStage (.putMemN (.putMemN h)))) (.unlistStage (.putMemN (.putMemN h)))
  · exact .unlistStage (.putMemN (.putMemN h))

theorem State.Canon.killStages {s : State} {asid} (h : s.Canon) : (s.killStages asid).Canon := by
  unfold State.killStages
  exact .foldl (fun _ _ h => .discardStage h) h

/-! The operations of Machine/Kill. -/

theorem State.Canon.orphan {s : State} {core x id} (h : s.Canon) : (s.orphan core x id).Canon := by
  unfold State.orphan
  exact .fillFrames h

theorem State.Canon.cancelFollow {s : State} {core id bits cause} (h : s.Canon) : (s.cancelFollow core id bits cause).Canon := by
  unfold State.cancelFollow
  refine .foldl (fun s e h => ?_) h
  split
  · exact .ite (.settleAcc (.mxfDone h)) h
  · exact h

theorem State.Canon.endCopy {s : State} {core id o total bits cause} (h : s.Canon) : (s.endCopy core id o total bits cause).Canon := by
  unfold State.endCopy
  refine .cancelFollow ?_
  split
  · exact .landBytes h
  · exact h

theorem State.Canon.cancelKv {s : State} {core id o} (h : s.Canon) : (s.cancelKv core id o).Canon := by
  unfold State.cancelKv
  extract_lets _ freed unlocked
  have hfreed : freed.Canon := .foldl (fun _ _ h => .kvReturn h) (.orphan h)
  have hunlocked : unlocked.Canon := .ite (.setBusy (.foldl (fun _ _ h => .setFlag h) hfreed)) hfreed
  exact .flushReturns hunlocked

theorem State.Canon.dropHeld {s : State} {core x} (h : s.Canon) : (s.dropHeld core x).Canon := by
  unfold State.dropHeld
  split
  · exact .foldl (fun _ _ h => .poolReturn h) h
  · exact h

theorem State.Canon.cancelOp {s : State} {core id a3} (h : s.Canon) : (s.cancelOp core id a3).Canon := by
  unfold State.cancelOp
  split
  · exact .orphan h
  · exact .orphan h
  · exact .orphan h
  · exact h
  · exact h
  · exact .endCopy h
  · split
    · exact .landBytes h
    · exact h
  · exact .cancelKv h
  · exact .orphan h
  · exact .orphan h

theorem State.Canon.idleSeat {s : State} {core x} (h : s.Canon) : (s.idleSeat core x).Canon := by
  unfold State.idleSeat
  dsimp only
  split <;> exact .dropHeld h

theorem State.Canon.killSeat {s : State} {core x} (h : s.Canon) : (s.killSeat core x).Canon := by
  unfold State.killSeat
  refine .idleSeat (.countOut (.entryKilled ?_))
  split
  · exact .ite (.mxfDone h) h
  · exact h

theorem State.Canon.killPool {s : State} {d asid} (h : s.Canon) : (s.killPool d asid).Canon := by
  unfold State.killPool
  refine .foldl (fun s e h => ?_) h
  split
  · exact .countOut (.entryKilled h)
  · exact .returnFrame (.foldl (fun _ _ h => .countOut (.entryKilled h)) h)

theorem State.Canon.killWaits {s : State} {d asid} (h : s.Canon) : (s.killWaits d asid).Canon := by
  unfold State.killWaits
  exact .foldl (fun _ _ h => .countOut (.entryKilled h)) h

theorem State.Canon.dropSave {s : State} {core} (h : s.Canon) : (s.dropSave core).Canon := by
  unfold State.dropSave
  dsimp only
  split
  · exact .ite (.modDie (.returnFrame (.putMemN h))) (.returnFrame (.putMemN h))
  · exact h

theorem State.Canon.killSave {s : State} {core asid} (h : s.Canon) : (s.killSave core asid).Canon := by
  unfold State.killSave
  split
  · exact .ite (.dropSave h) h
  · exact h

theorem State.Canon.dropLater {s : State} {asid} (h : s.Canon) : (s.dropLater asid).Canon := by
  unfold State.dropLater
  exact .hostRelease h

theorem State.Canon.putHeader {s : State} {hd} (h : s.Canon) : (s.putHeader hd).Canon := by
  unfold State.putHeader
  split
  · exact h
  · exact .foldl (fun _ _ h => .putHome (.putHomes h)) h

theorem State.Canon.revoke {s : State} {asid} (h : s.Canon) : (s.revoke asid).Canon := by
  unfold State.revoke
  extract_lets _ _ saved killed undone _ pooled marked dropped _ _ left staged later _ txs headed
  have hsaved : saved.Canon := .foldl (fun _ _ h => .killSave h) h
  clear_value saved
  have hkilled : killed.Canon := .foldl (fun _ _ h => .killSeat h) hsaved
  clear_value killed
  have hundone : undone.Canon := .foldl (fun _ _ h => .foldl (fun _ _ h => .ite (.cancelOp h) h) h) hkilled
  clear_value undone
  have hpooled : pooled.Canon := .foldl (fun _ _ h => .killWaits (.killPool h)) hundone
  clear_value pooled
  have hmarked : marked.Canon := .foldl (fun _ _ h => h) hpooled
  clear_value marked
  have hlater : later.Canon := .dropLater (.killStages hmarked)
  clear_value later
  have hheaded : headed.Canon := .foldl (fun _ _ h => .putHeader h) hlater
  exact .foldl (fun _ _ h => .recordBit h) hheaded

theorem State.Canon.startKill {s : State} {asid pkt} (h : s.Canon) : (s.startKill asid pkt).Canon := by
  unfold State.startKill
  exact .ite h (.revoke h)

theorem State.Canon.fatal {s : State} {core x cause} (h : s.Canon) : (s.fatal core x cause).Canon := by
  unfold State.fatal
  exact .startKill (.entryFault h)

/-! The operations of Machine/Debug. -/

theorem State.Canon.trace {s : State} {core x kind data} (h : s.Canon) : (s.trace core x kind data).Canon := by
  unfold State.trace
  refine .ite h (.ite h ?_)
  split
  · exact h
  · exact .ite h h

theorem State.Canon.traceFlush {s : State} {core} (h : s.Canon) : (s.traceFlush core).Canon := by
  unfold State.traceFlush
  exact .ite h h

/-! The operations of Machine/Ops. -/

theorem State.Canon.setF {s : State} {t} (h : s.Canon) : (s.setF t).Canon := h
theorem State.Canon.modF {s : State} {f} (h : s.Canon) : (s.modF f).Canon := h
theorem State.Canon.modFcore {s : State} {f} (h : s.Canon) : (s.modFcore f).Canon := h

theorem State.Canon.wS {s : State} {d v f} (h : s.Canon) : (s.wS d v f).Canon := by
  unfold State.wS
  exact .ite h h

theorem State.Canon.pendS {s : State} {d id} (h : s.Canon) : (s.pendS d id).Canon := by
  unfold State.pendS
  exact .wS h

theorem State.Canon.wP {s : State} {d v} (h : s.Canon) : (s.wP d v).Canon := by
  unfold State.wP
  exact .ite h h

theorem State.Canon.modCtl {s : State} {f} (h : s.Canon) : (s.modCtl f).Canon := h
theorem State.Canon.newOp {s : State} {core o} (h : s.Canon) : (s.newOp core o).Canon := h

theorem State.Canon.takeCause {s : State} {core x e} (h : s.Canon) : (s.takeCause core x e).Canon := by
  unfold State.takeCause
  exact .ite (.fatal (.dropHeld h)) (.ite (.trace (.setSeat (.dropHeld h))) (.setSeat (.dropHeld h)))

theorem State.Canon.beginLeave {s : State} {core x l} (h : s.Canon) : (s.beginLeave core x l).Canon := h

/-! The operations of Machine/Operands. -/

theorem OnRun.stallSrcs {s : State} {i l} : OnRun (fun _ => True) (s.stallSrcs i l) := by
  induction l generalizing i with
  | nil => trivial
  | cons r rs ih =>
    unfold State.stallSrcs
    split
    · trivial
    · exact ih

theorem OnRun.stallAlways {s : State} {l} : OnRun (fun _ => True) (s.stallAlways l) := by
  induction l with
  | nil => trivial
  | cons r rs ih =>
    unfold State.stallAlways
    split
    · trivial
    · exact ih

theorem OnRun.stallDests {s : State} {l} : OnRun (fun _ => True) (s.stallDests l) := by
  induction l with
  | nil => trivial
  | cons r rs ih =>
    unfold State.stallDests
    split
    · trivial
    · exact ih

theorem OnRun.readCauses {s : State} {l} : OnRun (fun _ => True) (s.readCauses l) := by
  induction l with
  | nil => trivial
  | cons r rs ih =>
    unfold State.readCauses
    split
    · trivial
    · split
      · trivial
      · trivial
      · trivial
      · exact ih

theorem OnRun.subst {s : State} {w} : OnRun (fun _ => True) (s.subst w) := by
  unfold State.subst
  exact .ite (.ite trivial trivial) trivial

theorem OnRun.params {s : State} : OnRun (fun _ => True) s.params := by
  unfold State.params
  exact .bind .subst fun _ _ => .bind .subst fun _ _ => .bind .subst fun _ _ => .bind .subst fun _ _ => .ite trivial trivial

theorem OnRun.limit {s : State} {ok} : OnRun (fun _ => True) (s.limit ok) := by
  unfold State.limit
  exact .ite trivial trivial

theorem OnRun.slotRun {g srcs also dsts} {pre : State → Except Stop Unit} {body : State → Run} {s : State} (h : s.Canon)
    (hpre : ∀ s, s.Canon → OnRun (fun _ => True) (pre s)) (hbody : ∀ s, s.Canon → OnRun State.Canon (body s)) :
    OnRun State.Canon (slotRun g srcs also dsts pre body s) := by
  unfold Machine.slotRun
  split
  · trivial
  · split
    · exact h
    · exact .bind .stallAlways fun _ _ => .bind .stallSrcs fun _ _ => .bind .stallDests fun _ _ => .bind (hpre s h) fun _ _ =>
        .bind .readCauses fun _ _ => .bind .readCauses fun _ _ => hbody s h

theorem State.Canon.stallF {s : State} {w} (h : s.Canon) : (s.stallF w).Canon := h

theorem State.Canon.settle {s : State} (h : s.Canon) {r : Run} (hr : OnRun State.Canon r) : (settle s r).Canon := by
  unfold Machine.settle
  split
  · exact hr
  · exact .takeCause h
  · exact h
  · exact .takeCause hr
  · exact hr
  · exact h

theorem NextCanon.slotOp {g srcs dsts} {body : State → Run} {s : State} (h : s.Canon)
    (hbody : ∀ s, s.Canon → OnRun State.Canon (body s)) : NextCanon (slotOp g srcs dsts body s) := by
  unfold Machine.slotOp
  exact .next (.settle h (.slotRun h (fun _ _ => trivial) hbody))

theorem NextCanon.slotOpA {g srcs also dsts} {body : State → Run} {s : State} (h : s.Canon)
    (hbody : ∀ s, s.Canon → OnRun State.Canon (body s)) : NextCanon (slotOpA g srcs also dsts body s) := by
  unfold Machine.slotOpA
  exact .next (.settle h (.slotRun h (fun _ _ => trivial) hbody))

theorem NextCanon.blockOp {g srcs dsts} {limits : State → Params → Except Stop Unit} {body : Params → State → Run} {s : State}
    (h : s.Canon) (hlimits : ∀ s p, s.Canon → OnRun (fun _ => True) (limits s p))
    (hbody : ∀ p s, s.Canon → OnRun State.Canon (body p s)) : NextCanon (blockOp g srcs dsts limits body s) := by
  unfold Machine.blockOp
  refine .next (.settle h (.slotRun h ?_ ?_))
  · intro s h
    exact .bind .params fun p _ => hlimits s p h
  · intro s h
    exact .bind .params fun p _ => hbody p s h

/-! The operations of Machine/Scratch. -/

theorem State.Canon.spovr {s : State} {core x ms} (h : s.Canon) : (s.spovr core x ms).Canon := by
  unfold State.spovr
  exact .ite h h

theorem State.Canon.startCopy {s : State} {core o} (h : s.Canon) : (s.startCopy core o).Canon := by
  unfold State.startCopy
  split
  · exact h
  · exact .spovr h
  · exact h

theorem OnRun.awaitScore {s : State} {r} : OnRun (fun _ => True) (s.awaitScore r) := by
  unfold State.awaitScore
  exact .ite trivial trivial

theorem OnRun.awaitSpans {s : State} {w o n} : OnRun (fun _ => True) (s.awaitSpans w o n) := by
  unfold State.awaitSpans
  exact .ite trivial trivial

theorem OnRun.awaitEntry {s : State} : OnRun (fun _ => True) s.awaitEntry := by
  unfold State.awaitEntry
  exact .ite trivial trivial

/-! The operations of Machine/Phase. -/

theorem State.Canon.wholeTag {s : State} {w pa t} (h : s.Canon) : (s.wholeTag w pa t).Canon := by
  unfold State.wholeTag
  exact .storeTag h

theorem State.Canon.postParts {s : State} {r inOrder waits ps} (h : s.Canon) : (s.postParts r inOrder waits ps).Canon := by
  induction ps generalizing s waits with
  | nil => exact h
  | cons p ps ih =>
    unfold State.postParts
    exact ih (.foldl (fun _ _ h => .hostAfter h) h)

theorem State.Canon.perform {s : State} {core x a3} (h : s.Canon) : (s.perform core x a3).Canon := by
  unfold State.perform
  split
  · exact .foldl (fun _ _ h => .ite (.storeTag h) (.wholeTag h)) (.postParts (.foldl (fun _ _ h => .storeBytes h) h))
  · exact h
  · exact .startCopy h
  · exact h

theorem State.Canon.commit {s : State} {core x} (h : s.Canon) : (s.commit core x).Canon := by
  unfold State.commit
  exact .foldl (fun _ _ h => .perform h) h

theorem FstCanon.performSome {core x l} {s : State} (h : s.Canon) : FstCanon (State.performSome core x l s) := by
  induction l generalizing s with
  | nil => exact h
  | cons e r ih =>
    unfold State.performSome
    split
    · exact ih (.perform h)
    · exact h

theorem FstCanon.commitPart {s : State} {core x} (h : s.Canon) : FstCanon (s.commitPart core x) := by
  unfold State.commitPart
  exact .ite (.mk (.commit (.fst (.performSome h)))) (.mk (.ite (.fst (.performSome h)) (.fst (.performSome h))))

theorem State.Canon.crcNote {s : State} {r} (h : s.Canon) : (s.crcNote r).Canon := by
  unfold State.crcNote
  split <;> exact h

theorem State.Canon.commitF {s : State} (h : s.Canon) : s.commitF.Canon := by
  unfold State.commitF
  exact .ite (.crcNote (.commit h)) (.crcNote h)

theorem OnRun.psqRoom {s : State} {va} : OnRun (fun _ => True) (s.psqRoom va) := by
  unfold State.psqRoom
  exact .ite trivial trivial

theorem OnRun.seatStore {s : State} {va parts tags ord} (h : s.Canon) : OnRun State.Canon (s.seatStore va parts tags ord) := by
  unfold State.seatStore
  exact .bind .psqRoom fun _ _ => .ite (.ok (.crcNote h)) (.ok (.perform h))

theorem State.Canon.logCopy {s : State} {core x o} (h : s.Canon) : (s.logCopy core x o).Canon := by
  unfold State.logCopy
  exact .ite h h

theorem State.Canon.rollbackOp {s : State} {core x first e} (h : s.Canon) : (s.rollbackOp core x first e).Canon := by
  unfold State.rollbackOp
  refine .ite h ?_
  split
  · split
    · exact h
    · exact .endCopy h
  · exact .ite h (.ite h (.mxfDone h))
  · exact h
  · exact h
  · exact h

theorem State.Canon.rollbackSeq {s : State} {core x first} (h : s.Canon) : (s.rollbackSeq core x first).Canon := by
  unfold State.rollbackSeq
  exact .foldl (fun _ _ h => .mxfDone h) h

theorem State.Canon.reissueCopies {s : State} {core} (h : s.Canon) : (s.reissueCopies core).Canon := by
  unfold State.reissueCopies
  exact .foldl (fun _ _ h => .startCopy h) h

theorem State.Canon.rollback {s : State} {core x} (h : s.Canon) : (s.rollback core x).Canon := by
  unfold State.rollback
  extract_lets dropped
  have hdropped : dropped.Canon := .dropHeld h
  clear_value dropped
  split
  · exact hdropped
  · extract_lets back undone c saves acc acc' restored settled lost waits regs noted
    have hundone : undone.Canon := .foldl (fun _ _ h => .rollbackOp h) (.rollbackSeq hdropped)
    clear_value undone
    have hsettled : settled.Canon := .reissueCopies (.settleAcc hundone)
    have hnoted : noted.Canon := by
      unfold noted
      split <;> exact hsettled
    exact .setSeat hnoted

theorem State.Canon.logEvent {s : State} {core kind info} (h : s.Canon) : (s.logEvent core kind info).Canon := h
theorem State.Canon.consume {s : State} {core x faddr} (h : s.Canon) : (s.consume core x faddr).Canon := h

theorem OnSome.deliverUncorr {s : State} {core x faddr} (h : s.Canon) : OnSome State.Canon (s.deliverUncorr core x faddr) := by
  unfold State.deliverUncorr
  exact .ite (.ite (.some (.logEvent (.modSeat (.rollback h)))) (.some (.fatal h))) (.ite (.some (.fatal h)) trivial)

/-! The operations of Machine/Access. -/

theorem State.Canon.fenceUp {s : State} {kind scope} (h : s.Canon) : (s.fenceUp kind scope).Canon := by
  unfold State.fenceUp
  exact .ite h h

theorem State.Canon.reviseAll {s : State} {k vs} (h : s.Canon) : (s.reviseAll k vs).Canon := by
  unfold State.reviseAll
  exact .foldl (fun _ _ h => .revise h) h

theorem Stop.Canon.transStop {s : State} {k vs c} (h : s.Canon) : (s.transStop k vs c).Canon := by
  unfold State.transStop
  split
  · exact .ite (.hold (.ite (.reviseAll h) h)) (.raiseIn (.ite (.reviseAll h) h))
  · exact .ite (.raiseIn (.ite (.reviseAll h) h)) trivial

theorem OnRun.segPieces {s : State} {k gs} (h : s.Canon) : OnRun (fun _ => True) (s.segPieces k gs) := by
  unfold State.segPieces
  split
  · exact .error (.transStop h)
  · exact .ite trivial trivial

theorem OnRun.seatPieces {s : State} {va n k} (h : s.Canon) : OnRun (fun _ => True) (s.seatPieces va n k) := by
  unfold State.seatPieces
  exact .segPieces h

theorem OnRun.pathPieces {s : State} {k va n} (h : s.Canon) : OnRun (fun _ => True) (s.pathPieces k va n) := by
  unfold State.pathPieces
  split
  · exact .error (.transStop h)
  · exact .ite trivial trivial

theorem State.Canon.install {s : State} {w ps} (h : s.Canon) : (s.install w ps).Canon := by
  unfold State.install
  exact .installPieces h

theorem State.Canon.installRead {s : State} {ps} (h : s.Canon) : (s.installRead ps).Canon := by
  unfold State.installRead
  exact .fillPieces (.install h)

theorem OnRun.hostGet {s : State} {k cp va pa n} (h : s.Canon) : OnRun (fun _ => True) (s.hostGet k cp va pa n) := by
  unfold State.hostGet
  exact .ite trivial (.ite trivial (.ite trivial (.error (.hold h))))

theorem OnRun.hostRead {s : State} {cp va pa n} (h : s.Canon) : OnRun (fun _ => True) (s.hostRead cp va pa n) := by
  unfold State.hostRead
  exact .hostGet h

theorem OnRun.pieceRead {s : State} {p} (h : s.Canon) : OnRun (fun _ => True) (s.pieceRead p) := by
  unfold State.pieceRead
  exact .ite (.bind (.hostRead h) fun _ _ => trivial) trivial

theorem OnRun.readScalar {s : State} {ps} (h : s.Canon) : OnRun (fun _ => True) (s.readScalar ps) := by
  induction ps with
  | nil => trivial
  | cons p ps ih =>
    unfold State.readScalar
    exact .bind (.pieceRead h) fun _ _ => .bind ih fun _ _ => trivial

theorem OnRun.storeScalar {s : State} {va ps bs tags rel} (h : s.Canon) : OnRun State.Canon (s.storeScalar va ps bs tags rel) := by
  unfold State.storeScalar
  exact .seatStore h

theorem State.Canon.consumeF {s : State} {struct pa} (h : s.Canon) : (s.consumeF struct pa).Canon := h

theorem OnRun.awaitSo {s : State} {ps} : OnRun (fun _ => True) (s.awaitSo ps) := by
  unfold State.awaitSo
  exact .ite trivial trivial

theorem OnRun.hostFailCheck {s : State} {sys} (h : s.Canon) : OnRun (fun _ => True) (s.hostFailCheck sys) := by
  unfold State.hostFailCheck
  split
  · exact .ite (.error (.raiseIn h)) trivial
  · trivial

/-! The operations of Machine/Control. -/

theorem OnRun.branchTo {s : State} {target} (h : s.Canon) : OnRun State.Canon (s.branchTo target) := by
  unfold State.branchTo
  exact .ite trivial (.ok (.trace (.ite h h)))

theorem NextCanon.execBra {off g} {s : State} (h : s.Canon) : NextCanon (execBra off g s) := by
  unfold Machine.execBra
  exact .slotOp h fun _ h => .branchTo h

theorem NextCanon.execCall {off g} {s : State} (h : s.Canon) : NextCanon (execCall off g s) := by
  unfold Machine.execCall
  exact .slotOp h fun _ h => .bind (.branchTo h) fun _ hr => .ok (.wS hr)

theorem NextCanon.execBrar {a g} {s : State} (h : s.Canon) : NextCanon (execBrar a g s) := by
  unfold Machine.execBrar
  exact .slotOp h fun _ h => .branchTo h

theorem NextCanon.execRet {g} {s : State} (h : s.Canon) : NextCanon (execRet g s) := by
  unfold Machine.execRet
  exact .slotOp h fun _ h => .branchTo h

theorem NextCanon.execLoop {a sm1 len} {s : State} (h : s.Canon) : NextCanon (execLoop a sm1 len s) := by
  unfold Machine.execLoop
  exact .slotOp h fun _ h => .ite trivial (.ite trivial (.ite (.ok h) (.ok h)))

theorem OnRun.crWrite {s : State} {cr v} (h : s.Canon) : OnRun State.Canon (s.crWrite cr v) := by
  unfold State.crWrite
  split
  · exact .ite (.ok h) trivial
  · exact .ok h
  · exact .ite trivial (.ok h)
  · exact .ok (.ite h h)
  · exact .ok h
  · exact .ok h
  · exact .ok h
  · exact .ok h
  · exact .ite (.ok h) (.ok (.ite (.commitF h) (.commit h)))
  · exact .ok h
  · exact .ok (.ite h h)
  · exact .ok h
  · exact .ok h
  · exact .ok h
  · exact .ok h

theorem OnRun.awaitV {s : State} {cr} : OnRun (fun _ => True) (s.awaitV cr) := by
  unfold State.awaitV
  dsimp only
  refine .ite trivial ?_
  split
  · trivial
  · split <;> trivial

theorem NextCanon.execCtlr {d cr} {s : State} (h : s.Canon) : NextCanon (execCtlr d cr s) := by
  unfold Machine.execCtlr
  exact .slotOp h fun _ h => .bind .awaitV fun _ _ => .ok (.wS h)

theorem NextCanon.execCtlw {a cr} {s : State} (h : s.Canon) : NextCanon (execCtlw a cr s) := by
  unfold Machine.execCtlw
  exact .slotOp h fun _ h => .ite trivial (.crWrite h)

theorem NextCanon.execCtlx {d a cr} {s : State} (h : s.Canon) : NextCanon (execCtlx d a cr s) := by
  unfold Machine.execCtlx
  exact .slotOp h fun _ h => .ite trivial (.bind .awaitV fun _ _ => .bind (.crWrite h) fun _ hr => .ok (.wS hr))

theorem NextCanon.execTrap {imm g} {s : State} (h : s.Canon) : NextCanon (execTrap imm g s) := by
  unfold Machine.execTrap
  exact .slotOp h fun _ h => .ok h

theorem NextCanon.execSnapst {g} {s : State} (h : s.Canon) : NextCanon (execSnapst g s) := by
  unfold Machine.execSnapst
  refine .slotOp h fun _ h => ?_
  split
  · exact .ok h
  · refine .bind (.seatPieces h) fun _ _ => ?_
    exact .bind .awaitSo fun _ _ => .bind (.storeScalar (.install h)) fun _ hr => .ok (.trace hr)

theorem NextCanon.execSnaprel {g} {s : State} (h : s.Canon) : NextCanon (execSnaprel g s) := by
  unfold Machine.execSnaprel
  exact .slotOp h fun _ h => .ok (.ite h h)

theorem NextCanon.execEret {g} {s : State} (h : s.Canon) : NextCanon (execEret g s) := by
  unfold Machine.execEret
  refine .slotOp h fun _ h => .ite (.ite (.ok h) trivial) (.bind (.seatPieces h) fun _ _ => .bind (.readScalar h) fun _ _ => ?_)
  refine .ite (.ok (.setF ?_)) trivial
  split
  · exact .consumeF (.installRead h)
  · exact .installRead h

theorem OnRun.awaitOwnSeq {s : State} : OnRun (fun _ => True) s.awaitOwnSeq := by
  unfold State.awaitOwnSeq
  exact .ite trivial trivial

theorem NextCanon.execSuspend {g} {s : State} (h : s.Canon) : NextCanon (execSuspend g s) := by
  unfold Machine.execSuspend
  refine .slotOp h fun _ h => .ite (.ok h) (.bind .stallAlways fun _ _ => (.bind .readCauses fun _ _ => (.ite trivial ?_)))
  refine .ite trivial (.bind .awaitOwnSeq fun _ _ => ?_)
  exact .bind (.seatPieces h) fun _ _ => .bind .awaitSo fun _ _ => .ok (.beginLeave (.install h))

theorem NextCanon.execYield {g} {s : State} (h : s.Canon) : NextCanon (execYield g s) := by
  unfold Machine.execYield
  exact .slotOp h fun _ h => .ite (.ok h) (.ite trivial (.bind .awaitOwnSeq fun _ _ => .ok h))

theorem NextCanon.execHalt {g} {s : State} (h : s.Canon) : NextCanon (execHalt g s) := by
  unfold Machine.execHalt
  refine .slotOp h fun _ h => ?_
  split
  · exact .error (.raiseIn (.modF (.entryFault h)))
  · exact .ite trivial (.bind .awaitOwnSeq fun _ _ => .ok h)

theorem NextCanon.execWaittl {a tl cert g} {s : State} (h : s.Canon) : NextCanon (execWaittl a tl cert g s) := by
  unfold Machine.execWaittl
  exact .slotOp h fun _ h => .ite (.ok h) trivial

theorem NextCanon.execWaittlSusp {a tl cert g} {s : State} (h : s.Canon) : NextCanon (execWaittlSusp a tl cert g s) := by
  unfold Machine.execWaittlSusp
  exact .slotOp h fun _ h => .ite (.ite (.ok h) trivial) (.ite trivial (.ite (.ok h) (.bind .awaitOwnSeq fun _ _ => trivial)))

theorem NextCanon.execSigtl {a tl g} {s : State} (h : s.Canon) : NextCanon (execSigtl a tl g s) := by
  unfold Machine.execSigtl
  refine .slotOp h fun _ h => ?_
  split
  · trivial
  · refine .ite trivial (.ite (.error (.hold (.commitF h))) (.bind (.hostFailCheck (.commitF h)) fun _ _ => ?_))
    exact .ite (.ok (.commitF h)) (.ite trivial (.ok (.increment (.commitF h))))

/-! The operations of Machine/Vector. -/

theorem OnRun.runLimit {n} : OnRun (fun _ => True) (runLimit n) := by
  unfold Machine.runLimit
  exact .ite trivial trivial

theorem OnRun.needShape {sh n v} : OnRun (fun _ => True) (needShape sh n v) := by
  unfold Machine.needShape
  exact .ite trivial trivial

theorem State.Canon.wSV {s : State} {d v} (h : s.Canon) : (s.wSV d v).Canon := by
  unfold State.wSV
  exact .wS h

theorem OnRun.ewCompute {op xs mask old} : OnRun (fun _ => True) (ewCompute op xs mask old) := by
  unfold Machine.ewCompute
  dsimp only
  split
  · exact .error (OnRun.of_error OnRun.runLimit ‹_›)
  · trivial

theorem OnRun.ew {op sh vd xs more vm mz dist} {s : State} (h : s.Canon) : OnRun State.Canon (ew op sh vd xs more vm mz dist s) := by
  unfold Machine.ew
  exact .bind (.forM fun _ => .needShape) fun _ _ => .bind .ewCompute fun _ _ => .ok h

theorem NextCanon.vbin {op dist vd va vb vm mz g} {s : State} (h : s.Canon) : NextCanon (vbin op dist vd va vb vm mz g s) := by
  unfold Machine.vbin
  exact .slotOp h fun _ h => .ew h

theorem NextCanon.vun {op dist vd va vm mz g} {s : State} (h : s.Canon) : NextCanon (vun op dist vd va vm mz g s) := by
  unfold Machine.vun
  exact .slotOp h fun _ h => .ew h

theorem NextCanon.vbc {op dist vd va sb vm mz g} {s : State} (h : s.Canon) : NextCanon (vbc op dist vd va sb vm mz g s) := by
  unfold Machine.vbc
  exact .slotOp h fun _ h => .ew h

theorem NextCanon.vtri {op dist vd va vb vc g} {s : State} (h : s.Canon) : NextCanon (vtri op dist vd va vb vc g s) := by
  unfold Machine.vtri
  exact .slotOp h fun _ h => .ew h

theorem NextCanon.execVmov {vd va vm mz g} {s : State} (h : s.Canon) : NextCanon (execVmov vd va vm mz g s) := by
  unfold Machine.execVmov
  exact .ite (.slotOp h fun _ h => .ok h) (.vun h)

theorem NextCanon.execVsplat {vd sb vm mz g} {s : State} (h : s.Canon) : NextCanon (execVsplat vd sb vm mz g s) := by
  unfold Machine.execVsplat
  exact .slotOp h fun _ h => .ew h

theorem NextCanon.execViota {vd vm mz g} {s : State} (h : s.Canon) : NextCanon (execViota vd vm mz g s) := by
  unfold Machine.execViota
  exact .slotOp h fun _ h => .ew h

theorem NextCanon.execVextr {sd va sb g} {s : State} (h : s.Canon) : NextCanon (execVextr sd va sb g s) := by
  unfold Machine.execVextr
  exact .slotOp h fun _ h => .ok (.wSV h)

theorem NextCanon.execVins {vd sb sc g} {s : State} (h : s.Canon) : NextCanon (execVins vd sb sc g s) := by
  unfold Machine.execVins
  exact .slotOp h fun _ h => .bind .runLimit fun _ _ => .ok h

theorem NextCanon.vcmp {op vd va vb g} {s : State} (h : s.Canon) : NextCanon (vcmp op vd va vb g s) := by
  unfold Machine.vcmp
  exact .vbin h

theorem NextCanon.vred {r vd va g} {s : State} (h : s.Canon) : NextCanon (vred r vd va g s) := by
  unfold Machine.vred
  exact .slotOp h fun _ h => .ok h

theorem NextCanon.vrrow {r vd va g} {s : State} (h : s.Canon) : NextCanon (vrrow r vd va g s) := by
  unfold Machine.vrrow
  exact .slotOp h fun _ h => .ok h

theorem NextCanon.vscan {r vd va g} {s : State} (h : s.Canon) : NextCanon (vscan r vd va g s) := by
  unfold Machine.vscan
  exact .slotOp h fun _ h => .bind .runLimit fun _ _ => .ok h

theorem NextCanon.execVcnt {sd va g} {s : State} (h : s.Canon) : NextCanon (execVcnt sd va g s) := by
  unfold Machine.execVcnt
  exact .slotOp h fun _ h => .ok (.wSV h)

theorem NextCanon.execVocc {sd va g} {s : State} (h : s.Canon) : NextCanon (execVocc sd va g s) := by
  unfold Machine.execVocc
  exact .slotOp h fun _ h => .ok (.wSV h)

theorem NextCanon.execVrcoal {vd va tol g} {s : State} (h : s.Canon) : NextCanon (execVrcoal vd va tol g s) := by
  unfold Machine.execVrcoal
  exact .slotOp h fun _ h => .ok h

theorem NextCanon.execVreshape {vd va g} {s : State} (h : s.Canon) : NextCanon (execVreshape vd va g s) := by
  unfold Machine.execVreshape
  exact .slotOp h fun _ h => .ite (.ok h) trivial

theorem NextCanon.execVbrow {vd va g} {s : State} (h : s.Canon) : NextCanon (execVbrow vd va g s) := by
  unfold Machine.execVbrow
  exact .slotOp h fun _ h => .bind .needShape fun _ _ => .bind .runLimit fun _ _ => .ok h

theorem NextCanon.execVbcol {vd va g} {s : State} (h : s.Canon) : NextCanon (execVbcol vd va g s) := by
  unfold Machine.execVbcol
  exact .slotOp h fun _ h => .bind .needShape fun _ _ => .ok h

theorem NextCanon.execPatld {va pat g} {s : State} (h : s.Canon) : NextCanon (execPatld va pat g s) := by
  unfold Machine.execPatld
  dsimp only
  refine .slotOp h fun _ h => .ite trivial ?_
  split
  · trivial
  · exact .ok (.modFcore h)

theorem NextCanon.execPatsw {g} {s : State} (h : s.Canon) : NextCanon (execPatsw g s) := by
  unfold Machine.execPatsw
  exact .slotOp h fun _ h => .ok (.modFcore h)

theorem OnRun.permute {p n a sh} : OnRun (fun _ => True) (permute p n a sh) := by
  unfold Machine.permute
  refine .ite (.ite trivial trivial) (.ite trivial ?_)
  split <;> trivial

theorem NextCanon.execVperm {vd va pat g} {s : State} (h : s.Canon) : NextCanon (execVperm vd va pat g s) := by
  unfold Machine.execVperm
  refine .slotOp h fun _ h => ?_
  split
  · trivial
  · exact .bind .permute fun _ _ => .bind .runLimit fun _ _ => .ok h

theorem NextCanon.execVattc {vd va vb g} {s : State} (h : s.Canon) : NextCanon (execVattc vd va vb g s) := by
  unfold Machine.execVattc
  refine .slotOp h fun _ h => .bind .needShape fun _ _ => ?_
  exact .ite trivial (.bind .needShape fun _ _ => .ite (.ok h) (.bind .runLimit fun _ _ => .ok h))

/-! The operations of Machine/VMem. -/

theorem NextCanon.execLoadComplete {core id} {s : State} (h : s.Canon) : NextCanon (execLoadComplete core id s) := by
  unfold Machine.execLoadComplete
  refine .dev ?_
  split
  · exact .ite trivial (.some (.fillS h))
  · trivial

theorem State.Canon.makeArrivals {s : State} {core} (h : s.Canon) : (s.makeArrivals core).Canon := by
  unfold State.makeArrivals
  exact .foldl (fun _ _ h => .arriveAt h) h

theorem State.Canon.loadInto {s : State} {d v dist} (h : s.Canon) : (s.loadInto d v dist).Canon := by
  unfold State.loadInto
  exact .ite h (.pendS h)

theorem OnRun.alignCheck {sp k a2} : OnRun (fun _ => True) (alignCheck sp k a2) := by
  unfold Machine.alignCheck
  split <;> trivial

theorem State.Canon.askBlock {s : State} {op parts b} (h : s.Canon) : (s.askBlock op parts b).Canon := by
  unfold State.askBlock
  exact .hostAfter h

theorem State.Canon.startVLoad {s : State} {v q pss va} (h : s.Canon) : (s.startVLoad v q pss va).Canon := by
  unfold State.startVLoad
  refine .trace ?_
  split <;> exact .foldl (fun _ _ h => .askBlock h) (.fillPieces h)

theorem State.Canon.spDeliver {s : State} {v o} (h : s.Canon) : (s.spDeliver v o).Canon := by
  unfold State.spDeliver
  split <;> exact h

theorem State.Canon.startSpLoad {s : State} {v q} (h : s.Canon) : (s.startSpLoad v q).Canon := by
  unfold State.startSpLoad
  dsimp only
  split <;> exact .spDeliver (.spovr h)

theorem OnRun.spRanges {s : State} {q} : OnRun (fun _ => True) (s.spRanges q) := by
  unfold State.spRanges
  exact .ite (.bind (.mapM (fun _ => .awaitSpans)) fun _ _ => trivial) trivial

theorem OnRun.vload {s : State} {v sp base q} (h : s.Canon) : OnRun State.Canon (s.vload v sp base q) := by
  unfold State.vload
  refine .ite ?_ ?_
  · exact .bind .spRanges fun _ _ => .bind (.forM fun _ => .awaitSpans) fun _ _ => .ok (.startSpLoad h)
  · exact .bind (.mapM (fun _ => .seatPieces h)) fun _ _ => .ok (.startVLoad (.install h))

theorem OnRun.tileLoad {s : State} {kind v a sp fsel stride} (h : s.Canon) : OnRun State.Canon (s.tileLoad kind v a sp fsel stride) := by
  unfold State.tileLoad
  exact .bind .alignCheck fun _ _ => .vload h

theorem NextCanon.tileLoadOp {kind v a sp fsel pb g} {s : State} (h : s.Canon) : NextCanon (tileLoadOp kind v a sp fsel pb g s) := by
  unfold Machine.tileLoadOp
  exact .ite (.blockOp h (fun _ _ _ => .limit) fun _ _ h => .tileLoad h) (.slotOp h fun _ h => .tileLoad h)

theorem OnRun.runLoad {s : State} {v a sp stride cap want} (h : s.Canon) : OnRun State.Canon (s.runLoad v a sp stride cap want) := by
  unfold State.runLoad
  exact .bind .alignCheck fun _ _ => .vload h

theorem NextCanon.execVldRun {v a sp pb g} {s : State} (h : s.Canon) : NextCanon (execVldRun v a sp pb g s) := by
  unfold Machine.execVldRun
  exact .ite (.blockOp h (fun _ _ _ => .limit) fun _ _ h => .runLoad h) (.slotOp h fun _ h => .runLoad h)

theorem NextCanon.execVectorLoadComplete {core id} {s : State} (h : s.Canon) : NextCanon (execVectorLoadComplete core id s) := by
  unfold Machine.execVectorLoadComplete
  refine .dev ?_
  split
  · refine .ite trivial ?_
    split <;> exact .some (.makeArrivals h)
  · trivial

theorem OnRun.storeTile {s : State} {va segs tag check} (h : s.Canon) (hc : OnRun (fun _ => True) check) :
    OnRun State.Canon (s.storeTile va segs tag check) := by
  unfold State.storeTile
  exact .bind (.mapM fun _ => .seatPieces h) fun _ _ => .bind hc fun _ _ => .bind .awaitSo fun _ _ =>
    .bind (.seatStore (.install h)) fun _ hs => .ok (.trace hs)

theorem OnRun.storeTileSp {s : State} {segs tag check} (h : s.Canon) (hc : OnRun (fun _ => True) check) :
    OnRun State.Canon (s.storeTileSp segs tag check) := by
  unfold State.storeTileSp
  exact .bind (.forM fun _ => .awaitSpans) fun _ _ => .bind hc fun _ _ => .ok (.modFcore (.spovr h))

theorem OnRun.tileStore {s : State} {v a sp fsel stride scale} (h : s.Canon) :
    OnRun State.Canon (s.tileStore v a sp fsel stride scale) := by
  unfold State.tileStore
  exact .bind .alignCheck fun _ _ => .ite (.storeTileSp h trivial) (.storeTile h trivial)

theorem NextCanon.execVst {v a sp fsel pb g} {s : State} (h : s.Canon) : NextCanon (execVst v a sp fsel pb g s) := by
  unfold Machine.execVst
  exact .ite (.blockOp h (fun _ _ _ => .limit) fun _ _ h => .tileStore h) (.slotOp h fun _ h => .tileStore h)

theorem OnRun.runStore {s : State} {v a sp stride cap} (h : s.Canon) : OnRun State.Canon (s.runStore v a sp stride cap) := by
  unfold State.runStore
  exact .bind .alignCheck fun _ _ => .ite (.storeTileSp h (.ite trivial trivial)) (.storeTile h (.ite trivial trivial))

theorem NextCanon.execVstRun {v a sp pb g} {s : State} (h : s.Canon) : NextCanon (execVstRun v a sp pb g s) := by
  unfold Machine.execVstRun
  exact .ite (.blockOp h (fun _ _ _ => .limit) fun _ _ h => .runStore h) (.slotOp h fun _ h => .runStore h)

theorem NextCanon.execTagrd {d a sp g} {s : State} (h : s.Canon) : NextCanon (execTagrd d a sp g s) := by
  unfold Machine.execTagrd
  refine .slotOp h fun _ h => .ite ?_ ?_
  · exact .bind .awaitSpans fun _ _ => .ok (.wS (.spovr h))
  · exact .bind (.seatPieces h) fun _ _ => .ok (.loadInto (.trace (.installRead h)))

theorem NextCanon.execTagwr {a b sp g} {s : State} (h : s.Canon) : NextCanon (execTagwr a b sp g s) := by
  unfold Machine.execTagwr
  refine .slotOp h fun _ h => .ite (.bind .awaitSpans fun _ _ => .ok (.modFcore (.spovr h))) ?_
  refine .bind (.seatPieces h) fun _ _ => .bind .awaitSo fun _ _ => ?_
  split
  · exact .ite (.ok (.trace (.install h))) (.seatStore (.trace (.install h)))
  · exact .ok (.trace (.install h))

/-! The operations of Machine/Matrix. -/

theorem OnRun.claimSlot {s : State} {tr os} (h : s.Canon) : OnRun State.Canon (s.claimSlot tr os) := by
  unfold State.claimSlot
  split
  · exact .ok h
  · exact .ite (.ok h) (.ite trivial trivial)
  · trivial

theorem NextCanon.execOsclaim {os g} {s : State} (h : s.Canon) : NextCanon (execOsclaim os g s) := by
  unfold Machine.execOsclaim
  exact .slotOp h fun _ h => .claimSlot h

theorem NextCanon.execOsclaimT {os g} {s : State} (h : s.Canon) : NextCanon (execOsclaimT os g s) := by
  unfold Machine.execOsclaimT
  exact .slotOp h fun _ h => .claimSlot h

theorem NextCanon.execOsrel {os g} {s : State} (h : s.Canon) : NextCanon (execOsrel os g s) := by
  unfold Machine.execOsrel
  exact .slotOp h fun _ h => .ite (.ok (.modFcore h)) trivial

theorem NextCanon.execSlotFree {core slot} {s : State} (h : s.Canon) : NextCanon (execSlotFree core slot s) := by
  unfold Machine.execSlotFree
  exact .dev (.ite (.some h) trivial)

theorem OnRun.awaitLeaf {s : State} {o} : OnRun (fun _ => True) (s.awaitLeaf o) := by
  unfold State.awaitLeaf
  exact .ite trivial trivial

theorem OnRun.awaitSeq {s : State} {acc} : OnRun (fun _ => True) (s.awaitSeq acc) := by
  unfold State.awaitSeq
  exact .ite trivial trivial

theorem OnRun.slotHeld {s : State} {n} : OnRun (fun _ => True) (s.slotHeld n) := by
  unfold State.slotHeld
  split <;> trivial

theorem OnRun.mma {s : State} {zero acc sa sb bar} (h : s.Canon) : OnRun State.Canon (s.mma zero acc sa sb bar) := by
  unfold State.mma
  refine .bind .awaitLeaf fun _ _ => .bind .awaitSeq fun _ _ => .bind .awaitScore fun _ _ => .bind .awaitScore fun _ _ => ?_
  refine .ite trivial (.bind .slotHeld fun _ _ => (.bind .slotHeld fun _ _ => ?_))
  split
  · exact .error (.raiseIn h)
  · exact .ok h

theorem NextCanon.execMma {acc sa sb bar g} {s : State} (h : s.Canon) : NextCanon (execMma acc sa sb bar g s) := by
  unfold Machine.execMma
  exact .slotOp h fun _ h => .mma h

theorem NextCanon.execMmaz {acc sa sb bar g} {s : State} (h : s.Canon) : NextCanon (execMmaz acc sa sb bar g s) := by
  unfold Machine.execMmaz
  exact .slotOp h fun _ h => .mma h

theorem FstCanon.mmaEffect {s : State} {core id o err} (h : s.Canon) : FstCanon (s.mmaEffect core id o err) := by
  unfold State.mmaEffect
  split
  · exact .mk h
  · refine .ite (.mk (.noteAcc h)) ?_
    split
    · exact .mk h
    · exact .mk (.noteAcc h)

theorem State.Canon.logOperand {s : State} {core err} (h : s.Canon) : (s.logOperand core err).Canon := by
  unfold State.logOperand
  exact .ite h h

theorem NextCanon.execMmaComplete {core id err} {s : State} (h : s.Canon) : NextCanon (execMmaComplete core id err s) := by
  unfold Machine.execMmaComplete
  refine .dev ?_
  split
  · extract_lets r dropped ended
    have hdropped : dropped.Canon := .fst (.mmaEffect (.logOperand h))
    exact .ite trivial (.some (.settleAcc (.ite (.mxfDone hdropped) (.evalLeaf hdropped))))
  · trivial

theorem State.Canon.newMove {s : State} {o} (h : s.Canon) : (s.newMove o).Canon := by
  unfold State.newMove
  exact .settleAcc h

theorem NextCanon.execAccrd {v acc rg cls g} {s : State} (h : s.Canon) : NextCanon (execAccrd v acc rg cls g s) := by
  unfold Machine.execAccrd
  exact .slotOp h fun _ h => .bind .awaitSeq fun _ _ => .ok (.newMove h)

theorem NextCanon.execAccwr {v acc rg g} {s : State} (h : s.Canon) : NextCanon (execAccwr v acc rg g s) := by
  unfold Machine.execAccwr
  exact .slotOp h fun _ h => .bind .awaitSeq fun _ _ => .bind .needShape fun _ _ => .ok (.newMove h)

theorem NextCanon.execAccz {acc g} {s : State} (h : s.Canon) : NextCanon (execAccz acc g s) := by
  unfold Machine.execAccz
  exact .slotOp h fun _ h => .bind .awaitSeq fun _ _ => .ok (.newMove h)

theorem OnRun.accst {s : State} {p acc base sp} (h : s.Canon) : OnRun State.Canon (s.accst p acc base sp) := by
  unfold State.accst
  dsimp only
  split
  · refine .bind .awaitLeaf fun _ _ => .bind .awaitSeq fun _ _ => .bind .alignCheck fun _ _ => ?_
    refine .ite (.bind .awaitEntry fun _ _ => .bind .awaitScore fun _ _ => .ok (.newMove (.spovr h))) ?_
    refine .bind (.mapM (fun _ => .pathPieces h)) fun _ _ => .ite ?_ ?_
    · exact .bind .psqRoom fun _ _ => .ite trivial (.ok (.crcNote (.modFcore (.install (.trace h)))))
    · exact .ok (.newMove (.install (.trace h)))
  · refine .bind (Q := fun _ => True) trivial fun _ _ => .bind .awaitSeq fun _ _ => .bind .alignCheck fun _ _ => ?_
    refine .ite (.bind .awaitEntry fun _ _ => .bind .awaitScore fun _ _ => .ok (.newMove (.spovr h))) ?_
    refine .bind (.mapM (fun _ => .pathPieces h)) fun _ _ => .ite ?_ ?_
    · exact .bind .psqRoom fun _ _ => .ite trivial (.ok (.crcNote (.modFcore (.install (.trace h)))))
    · exact .ok (.newMove (.install (.trace h)))

theorem NextCanon.execAccst {acc a sp g} {s : State} (h : s.Canon) : NextCanon (execAccst acc a sp g s) := by
  unfold Machine.execAccst
  exact .blockOp h (fun _ _ _ => .limit) fun _ _ h => .accst h

theorem State.Canon.landAccst {s : State} {core id o segs} (h : s.Canon) : (s.landAccst core id o segs).Canon := by
  unfold State.landAccst
  exact .ite h (.postParts (.foldl (fun _ _ h => .ite h (.wholeTag h)) (.foldl (fun _ _ h => .engineBytes h) h)))

theorem State.Canon.accstDone {s : State} {core id o} (h : s.Canon) : (s.accstDone core id o).Canon := by
  unfold State.accstDone
  split
  · exact .landBytes h
  · exact h

theorem NextCanon.execAccstLand {core id} {s : State} (h : s.Canon) : NextCanon (execAccstLand core id s) := by
  unfold Machine.execAccstLand
  refine .dev ?_
  split
  · split
    · trivial
    · exact .ite trivial (.some (.ite (.accstDone (.landAccst h)) (.landAccst h)))
  · trivial

theorem State.Canon.accstHostDone {s : State} {core id o ok} (h : s.Canon) : (s.accstHostDone core id o ok).Canon := by
  unfold State.accstHostDone
  exact .ite (.accstDone (.ite h h)) (.ite h h)

theorem NextCanon.execEfrw {a g} {s : State} (h : s.Canon) : NextCanon (execEfrw a g s) := by
  unfold Machine.execEfrw
  exact .slotOp h fun _ h => .ok h

theorem NextCanon.execCtwr {v a g} {s : State} (h : s.Canon) : NextCanon (execCtwr v a g s) := by
  unfold Machine.execCtwr
  exact .slotOp h fun _ h => .ite trivial (.ok (.modFcore h))

theorem NextCanon.execSpswap {g} {s : State} (h : s.Canon) : NextCanon (execSpswap g s) := by
  unfold Machine.execSpswap
  exact .slotOp h fun _ h => .ok (.modCtl (.commitF h))

/-! The operations of Machine/Copy. -/

theorem OnRun.endpointArg {space v} : OnRun (fun _ => True) (endpointArg space v) := by
  unfold Machine.endpointArg
  exact .ite trivial trivial

theorem OnRun.srcHeld {s : State} {src} : OnRun (fun _ => True) (s.srcHeld src) := by
  unfold State.srcHeld
  split
  · exact .slotHeld
  · trivial

theorem OnRun.dstHeld {s : State} {dst} : OnRun (fun _ => True) (s.dstHeld dst) := by
  unfold State.dstHeld
  split
  · exact .ite trivial trivial
  · trivial

theorem OnRun.awaitReaders {s : State} {o} : OnRun (fun _ => True) (s.awaitReaders o) := by
  unfold State.awaitReaders
  split
  · exact .ite trivial trivial
  · trivial

theorem OnRun.awaitCopyUnit {s : State} : OnRun (fun _ => True) s.awaitCopyUnit := by
  unfold State.awaitCopyUnit
  exact .ite trivial trivial

theorem OnRun.copyPages {s : State} {k rows} (h : s.Canon) : OnRun (fun _ => True) (s.copyPages k rows) := by
  unfold State.copyPages
  exact .foldlM (fun _ _ => .ite trivial (.bind (.pathPieces h) fun _ _ => trivial))

theorem OnRun.onlyLpddr {ps} : OnRun (fun _ => True) (onlyLpddr ps) := by
  unfold Machine.onlyLpddr
  split <;> trivial

theorem OnRun.issueCopy {s : State} {o} (h : s.Canon) : OnRun State.Canon (s.issueCopy o) := by
  unfold State.issueCopy
  split
  · exact .bind .psqRoom fun _ _ => .ite (.ok (.crcNote (.trace h))) (.ok (.startCopy (.trace h)))
  · exact .ok (.startCopy (.logCopy (.spovr (.trace h))))
  · exact .ok (.startCopy (.logCopy (.trace h)))

theorem OnRun.copy {s : State} {o srcArg dstArg} (h : s.Canon) (hsrc : OnRun (fun _ => True) srcArg)
    (hdst : OnRun (fun _ => True) dstArg) : OnRun State.Canon (s.copy o srcArg dstArg) := by
  unfold State.copy
  extract_lets _ fromSrc readSrc checked started
  have hfrom (rs) : OnRun State.Canon (fromSrc rs) := by
    unfold fromSrc
    extract_lets toDst written place
    have hto (ws) : OnRun State.Canon (toDst ws) := by
      unfold toDst
      refine .ite ?_ (.issueCopy (.install (.install h)))
      trivial
    have hwritten (u) : OnRun State.Canon (written u) := .ite (.bind (.copyPages h) fun _ _ => hto _) (hto _)
    have hplace (u) : OnRun State.Canon (place u) :=
      .bind hdst fun _ _ => .ite (hwritten ()) (.bind .dstHeld fun _ _ => hwritten ())
    exact .ite (.bind .onlyLpddr fun _ _ => hplace ()) (hplace ())
  have hfault : OnRun State.Canon s.paramFault := trivial
  have hread (u) : OnRun State.Canon (readSrc u) := .ite (.bind (.copyPages h) fun _ _ => hfrom _) (hfrom _)
  have hchecked (u) : OnRun State.Canon (checked u) :=
    .bind (.forM fun _ => .awaitScore) fun _ _ => .bind .awaitScore fun _ _ => .bind .awaitReaders fun _ _ =>
      .ite hfault (.bind hsrc fun _ _ => .ite (hread ()) (.bind .srcHeld fun _ _ => hread ()))
  have hstarted (u) : OnRun State.Canon (started u) :=
    .bind .awaitCopyUnit fun _ _ => .ite (hchecked ()) (.bind .awaitEntry fun _ _ => hchecked ())
  split
  · exact .bind .awaitLeaf fun _ _ => hstarted ()
  · exact hstarted ()

theorem OnRun.rowPlan {s : State} {fuel a n} (h : s.Canon) : OnRun (fun _ => True) (s.rowPlan fuel a n) := by
  induction fuel generalizing a n with
  | zero => trivial
  | succ fuel ih =>
    unfold State.rowPlan
    refine .ite (.ok trivial) (.bind (.pathPieces h) fun _ _ => .bind (.pathPieces h) fun _ _ => .bind ih fun _ _ => ?_)
    trivial

theorem OnRun.srcPlan {s : State} {o} (h : s.Canon) : OnRun (fun _ => True) (s.srcPlan o) := by
  unfold State.srcPlan
  split
  · exact .bind (.mapM (fun _ => .rowPlan h)) fun _ _ => trivial
  · trivial

theorem OnRun.copyAlign {s : State} {o fsel} : OnRun (fun _ => True) (s.copyAlign o fsel) := by
  unfold State.copyAlign
  dsimp only
  split <;> exact .bind (Q := fun _ => True) trivial fun _ _ => .alignCheck

theorem OnRun.cpy {s : State} {p a b ssp dsp} (h : s.Canon) : OnRun State.Canon (s.cpy p a b ssp dsp) := by
  unfold State.cpy
  refine .ite ?_ ?_
  · refine .bind .endpointArg fun _ _ => .bind (.srcPlan h) fun _ _ => .bind (.forM fun _ => .awaitScore) fun _ _ => ?_
    exact .bind .copyAlign fun _ _ => .copy h .endpointArg .endpointArg
  · exact .copy h .endpointArg .endpointArg

theorem OnRun.awaitSource {s : State} {p a b ssp dsp} : OnRun (fun _ => True) (s.awaitSource p a b ssp dsp) := by
  unfold State.awaitSource
  refine .ite trivial ?_
  split
  · exact .forM fun _ => .awaitScore
  · trivial

theorem NextCanon.execCpy {a b ssp dsp g} {s : State} (h : s.Canon) : NextCanon (execCpy a b ssp dsp g s) := by
  unfold Machine.execCpy
  exact .blockOp h (fun _ _ _ => .bind .limit fun _ _ => .bind .awaitSource fun _ _ => .limit) fun _ _ h => .cpy h

theorem State.Canon.copyFails {s : State} {o cause} (h : s.Canon) : (s.copyFails o cause).Canon := by
  unfold State.copyFails
  exact .endCopy h

theorem OnRun.cpyIndexed {s : State} {p scatter a b c los} (h : s.Canon) : OnRun State.Canon (s.cpyIndexed p scatter a b c los) := by
  unfold State.cpyIndexed
  refine .bind (.pathPieces h) fun _ _ => .bind (.readScalar h) fun _ _ => .ite (.ok (.copyFails (.installRead h))) ?_
  exact .ite (.copy (.installRead h) .endpointArg trivial) (.copy (.installRead h) trivial .endpointArg)

theorem NextCanon.execCpyg {a b c los g} {s : State} (h : s.Canon) : NextCanon (execCpyg a b c los g s) := by
  unfold Machine.execCpyg
  exact .blockOp h (fun _ _ _ => .limit) fun _ _ h => .cpyIndexed h

theorem NextCanon.execCpys {a b c los g} {s : State} (h : s.Canon) : NextCanon (execCpys a b c los g s) := by
  unfold Machine.execCpys
  exact .blockOp h (fun _ _ _ => .limit) fun _ _ h => .cpyIndexed h

theorem NextCanon.execCpyw {a b dos g} {s : State} (h : s.Canon) : NextCanon (execCpyw a b dos g s) := by
  unfold Machine.execCpyw
  exact .blockOp h (fun _ _ _ => .limit) fun _ _ h => .copy h trivial .endpointArg

theorem OnRun.cpyMma {s : State} {p a dslot oslot acc side z ssp} (h : s.Canon) :
    OnRun State.Canon (s.cpyMma p a dslot oslot acc side z ssp) := by
  unfold State.cpyMma
  refine .bind .awaitSeq fun _ _ => .ite trivial ?_
  exact .bind (.copy h .endpointArg trivial) fun _ hr => .bind .slotHeld fun _ _ => .ok (.newOp hr)

theorem NextCanon.execCpyMma {a dslot oslot acc side z ssp g} {s : State} (h : s.Canon) :
    NextCanon (execCpyMma a dslot oslot acc side z ssp g s) := by
  unfold Machine.execCpyMma
  exact .blockOp h (fun _ _ _ => .limit) fun _ _ h => .cpyMma h

theorem State.Canon.copyFill {s : State} {core o n} (h : s.Canon) : (s.copyFill core o n).Canon := by
  unfold State.copyFill
  exact .ite h (.trim (.foldl (fun _ _ h => .fillLine h) h))

theorem State.Canon.poisonDst {s : State} {core o a} (h : s.Canon) : (s.poisonDst core o a).Canon := by
  unfold State.poisonDst
  split
  · exact .ite h (.ite (.engineTag h) h)
  · exact h
  · exact h

theorem State.Canon.wholeDst {s : State} {core o a t} (h : s.Canon) : (s.wholeDst core o a t).Canon := by
  unfold State.wholeDst
  split
  · refine .ite h ?_
    split
    · exact .wholeTag h
    · exact h
  · exact h
  · exact h

theorem State.Canon.putDst {s : State} {core o bs} (h : s.Canon) : (s.putDst core o bs).Canon := by
  unfold State.putDst
  split
  · exact .foldl (fun _ _ h => .engineBytes h) h
  · exact h
  · exact h

theorem State.Canon.landTags {s : State} {core o n} (h : s.Canon) : (s.landTags core o n).Canon := by
  unfold State.landTags
  split
  · exact .foldl (fun _ _ h => .wholeDst h) h
  · exact .foldl (fun _ _ h => .poisonDst h) (.foldl (fun _ _ h => .wholeDst h) h)

theorem State.Canon.landed {s : State} {core id o n} (h : s.Canon) : (s.landed core id o n).Canon := by
  unfold State.landed
  dsimp only
  split
  · exact .ite (.landBytes (.ite h h)) (.ite h h)
  · exact .ite h h

theorem State.Canon.copyAsks {s : State} {core id o pa write n data} (h : s.Canon) : (s.copyAsks core id o pa write n data).Canon := h

theorem NextCanon.execCopyLand {core id count} {s : State} (h : s.Canon) : NextCanon (execCopyLand core id count s) := by
  unfold Machine.execCopyLand
  refine .dev ?_
  split
  · refine .ite trivial ?_
    split
    · exact .some h
    · split
      · exact .some (.endCopy h)
      · exact .ite (.some (.copyAsks (.copyFill h))) (.some (.landed (.landTags (.putDst (.copyFill h)))))
  · trivial

theorem State.Canon.copyHostDone {s : State} {core id o r data} (h : s.Canon) : (s.copyHostDone core id o r data).Canon := by
  unfold State.copyHostDone
  split
  · exact .endCopy h
  · exact .ite (.landed h) h

theorem NextCanon.execFollowOnMma {core id} {s : State} (h : s.Canon) : NextCanon (execFollowOnMma core id s) := by
  unfold Machine.execFollowOnMma
  refine .dev ?_
  split
  · split
    · trivial
    · refine .ite trivial ?_
      split
      · exact .some (.settleAcc (.mxfDone h))
      · exact .some h
  · trivial

/-! The operations of Machine/BarOps. -/

theorem State.Canon.setBarObj {s : State} {obj b} (h : s.Canon) : (s.setBarObj obj b).Canon := by
  unfold State.setBarObj
  exact .ite h h

theorem State.Canon.evalObj {s : State} {obj} (h : s.Canon) : (s.evalObj obj).Canon := by
  unfold State.evalObj
  exact .ite (.evalLeaf h) (.evalRoot h)

theorem OnRun.awaitObj {s : State} {obj} : OnRun (fun _ => True) (s.awaitObj obj) := by
  unfold State.awaitObj
  exact .ite trivial trivial

theorem NextCanon.execBarInit {obj a b g} {s : State} (h : s.Canon) : NextCanon (execBarInit obj a b g s) := by
  unfold Machine.execBarInit
  exact .slotOp h fun _ h => .ite trivial (.ok (.setBarObj h))

theorem State.Canon.unlinkLeaf {s : State} {core o} (h : s.Canon) : (s.unlinkLeaf core o).Canon := by
  unfold State.unlinkLeaf
  dsimp only
  split <;> exact h

theorem NextCanon.execBarLink {obj a g} {s : State} (h : s.Canon) : NextCanon (execBarLink obj a g s) := by
  unfold Machine.execBarLink
  exact .slotOp h fun _ h => .ite trivial (.ite (.ok (.unlinkLeaf h)) (.ok (.setLeaf (.setRoot (.unlinkLeaf h)))))

theorem NextCanon.execBarExp {obj a g} {s : State} (h : s.Canon) : NextCanon (execBarExp obj a g s) := by
  unfold Machine.execBarExp
  exact .slotOp h fun _ h => .bind .awaitObj fun _ _ => .ok (.evalObj (.setBarObj h))

theorem NextCanon.execBarArr {obj g} {s : State} (h : s.Canon) : NextCanon (execBarArr obj g s) := by
  unfold Machine.execBarArr
  refine .slotOp h fun _ h => .bind .awaitObj fun _ _ => .ite trivial ?_
  split
  · exact .ok (.modFcore h)
  · exact .ok (.arriveAt h)

theorem OnRun.barPass {s : State} {obj tr} (h : s.Canon) : OnRun State.Canon (s.barPass obj tr) := by
  unfold State.barPass
  exact .ite (.ok h) (.ok h)

theorem NextCanon.execBarWait {obj a tr g} {s : State} (h : s.Canon) : NextCanon (execBarWait obj a tr g s) := by
  unfold Machine.execBarWait
  exact .slotOp h fun _ h => .ite (.barPass h) trivial

theorem NextCanon.execBarWaitS {obj a tr g} {s : State} (h : s.Canon) : NextCanon (execBarWaitS obj a tr g s) := by
  unfold Machine.execBarWaitS
  refine .slotOp h fun _ h => .ite ?_ ?_
  · exact .ite (.barPass h) trivial
  · exact .ite trivial (.ite (.barPass h) (.bind .awaitOwnSeq fun _ _ => trivial))

theorem NextCanon.execBarTest {obj a d g} {s : State} (h : s.Canon) : NextCanon (execBarTest obj a d g s) := by
  unfold Machine.execBarTest
  exact .slotOp h fun _ h => .ok (.wS h)

theorem NextCanon.execBarStat {obj a d g} {s : State} (h : s.Canon) : NextCanon (execBarStat obj a d g s) := by
  unfold Machine.execBarStat
  exact .slotOp h fun _ h => .ite trivial (.ok (.wS h))

/-! The operations of Machine/Bte. -/

theorem State.Canon.markAt {s : State} {p w} (h : s.Canon) : (s.markAt p w).Canon := by
  unfold State.markAt
  split
  · exact .installFor h
  · exact h

theorem State.Canon.engineFail {s : State} {eng asid phys v w} (h : s.Canon) : (s.engineFail eng asid phys v w).Canon := by
  unfold State.engineFail
  exact .ite h (.revise h)

theorem OnRun.checkCrd {s : State} {crd} (h : s.Canon) : OnRun State.Canon (s.checkCrd crd) := by
  unfold State.checkCrd
  refine .ite (.ok h) (.ite trivial (.bind .liftC fun _ _ => (.ite trivial (.ite ?_ ?_))))
  · exact .bind (.hostRead h) fun _ _ => .ite (.ok (.markAt h)) trivial
  · exact .bind (Q := fun _ => True) trivial fun _ _ => .ite (.ok (.markAt h)) trivial

theorem State.Canon.startBte {s : State} {d o} (h : s.Canon) : (s.startBte d o).Canon := h

theorem NextCanon.execBte {a b c tag} {s : State} (h : s.Canon) : NextCanon (execBte a b c tag s) := by
  unfold Machine.execBte
  exact .slotOpA h fun _ h => .ite trivial (.ite trivial (.bind (.checkCrd h) fun _ hr => .ok (.startBte (.commitF hr))))

theorem State.Canon.bteTags {s : State} {pos src dst n} (h : s.Canon) : (s.bteTags pos src dst n).Canon := by
  unfold State.bteTags
  exact .foldl (fun _ _ h => .ite (.ite (.wholeTag h) (.ite (.wholeTag h) h)) h) h

theorem BtePiece.Canon.btePiece {s : State} {die id o} (h : s.Canon) : (s.btePiece die id o).Canon := by
  unfold State.btePiece
  dsimp only
  split
  · exact .ended h
  · split
    · exact .ended (.engineFail h)
    · refine .ite (.waits h) (.ite (.asked h) (.ite ?_ ?_))
      · exact .ended (.markAt (.markAt h))
      · exact .ite (.asked (.markAt (.markAt h))) (.more (.bteTags (.engineBytes (.markAt (.markAt h)))))

theorem BtePiece.Canon.bteRun {die id fuel} {s : State} {o} (h : s.Canon) : (bteRun die id fuel s o).Canon := by
  induction fuel generalizing s o with
  | zero => exact .more h
  | succ fuel ih =>
    unfold Machine.bteRun
    have hp : (s.btePiece die id o).Canon := .btePiece h
    refine .ite (.ended h) ?_
    split
    · next t p heq => exact ih (hp.of_eq heq)
    · exact hp

theorem State.Canon.putBte {s : State} {die id o} (h : s.Canon) : (s.putBte die id o).Canon := h

theorem State.Canon.bteLeave {s : State} {die id o fault} (h : s.Canon) : (s.bteLeave die id o fault).Canon := by
  unfold State.bteLeave
  dsimp only
  split
  · exact h
  · split <;> exact h

theorem State.Canon.bteTail {s : State} {die id o pa} (h : s.Canon) : (s.bteTail die id o pa).Canon := by
  unfold State.bteTail
  exact .ite h (.bteLeave (.engineBytes (.writeBack h)))

theorem OnSome.bteRecord {s : State} {die id o e} (h : s.Canon) : OnSome State.Canon (s.bteRecord die id o e) := by
  unfold State.bteRecord
  dsimp only
  refine .ite (.some (.bteLeave h)) (.ite (.some (.bteLeave h)) ?_)
  split
  · exact .some (.bteLeave h)
  · refine .ite trivial (.ite (.some h) (.ite (.some (.bteLeave h)) (.ite (.some (.bteLeave h)) ?_)))
    refine .ite (.ite (.some (.bteLeave h)) (.ite (.some h) trivial)) ?_
    split
    · exact .some (.bteLeave (.engineFail h))
    · split
      · exact .some (.bteLeave (.engineFail h))
      · refine .ite trivial (.ite ?_ ?_)
        · exact .some (.hostWritesBy (.markAt (.markAt h)))
        · exact .some (.bteTail (.engineBytes (.markAt (.markAt h))))

theorem State.Canon.bteEnd {s : State} {die id o status fault} (h : s.Canon) : (s.bteEnd die id o status fault).Canon := by
  unfold State.bteEnd
  exact .getD (.bteRecord h) h

theorem NextCanon.execBteTransferEnd {die id} {s : State} (h : s.Canon) : NextCanon (execBteTransferEnd die id s) := by
  unfold Machine.execBteTransferEnd
  refine .dev ?_
  split
  · trivial
  · refine .ite trivial ?_
    split
    · exact .bteRecord h
    · refine .ite (.some (.bteEnd h)) ?_
      split
      · exact .some (.putBte (BtePiece.Canon.of_eq (BtePiece.Canon.bteRun h) ‹_ = BtePiece.more _ _›))
      · exact .some (.putBte (BtePiece.Canon.of_eq (BtePiece.Canon.bteRun h) ‹_ = BtePiece.asked _ _›))
      · exact .ite trivial (.some (.putBte (BtePiece.Canon.of_eq (BtePiece.Canon.bteRun h) ‹_ = BtePiece.waits _ _›)))
      · exact .some (.bteEnd (BtePiece.Canon.of_eq (BtePiece.Canon.bteRun h) ‹_ = BtePiece.ended _ _ _ _›))

theorem State.Canon.bteHostDone {s : State} {die id o r data} (h : s.Canon) : (s.bteHostDone die id o r data).Canon := by
  unfold State.bteHostDone
  split
  · exact .ite (.bteLeave h) (.bteEnd h)
  · split
    · exact .ite (.bteLeave h) (.ite (.bteTail h) h)
    · exact .ite h h

/-! The operations of Machine/Cache. -/

theorem State.Canon.fillSlice {s : State} {core cp line} (h : s.Canon) : (s.fillSlice core cp line).Canon := by
  unfold State.fillSlice
  exact .ite h h

theorem State.Canon.fillOwn {s : State} {core cp line} (h : s.Canon) : (s.fillOwn core cp line).Canon := by
  unfold State.fillOwn
  exact .ite h h

theorem State.Canon.prefPiece {s : State} {slice g} (h : s.Canon) : (s.prefPiece slice g).Canon := by
  unfold State.prefPiece
  split
  · exact h
  · exact .ite h (.foldl (fun _ _ h => .ite (.fillSlice h) (.fillOwn h)) (.installLeaf h))

theorem State.Canon.pref {s : State} {slice base len} (h : s.Canon) : (s.pref slice base len).Canon := by
  unfold State.pref
  exact .foldl (fun _ _ h => .prefPiece h) h

theorem NextCanon.execPrefL1 {base len} {s : State} (h : s.Canon) : NextCanon (execPrefL1 base len s) := by
  unfold Machine.execPrefL1
  exact .slotOp h fun _ h => .ok (.pref h)

theorem NextCanon.execPrefL2 {base len} {s : State} (h : s.Canon) : NextCanon (execPrefL2 base len s) := by
  unfold Machine.execPrefL2
  exact .slotOp h fun _ h => .ok (.pref h)

theorem State.Canon.flushPiece {s : State} {p} (h : s.Canon) : (s.flushPiece p).Canon := by
  unfold State.flushPiece
  exact .foldl (fun _ _ h => .writeBack h) h

theorem State.Canon.dropPiece {s : State} {p} (h : s.Canon) : (s.dropPiece p).Canon := by
  unfold State.dropPiece
  exact .foldl (fun _ _ h => .ite h (.writeBack h)) h

theorem OnRun.cinvPieces {s : State} {ps} (h : s.Canon) : OnRun (fun _ => True) (s.cinvPieces ps) := by
  induction ps with
  | nil => trivial
  | cons g r ih =>
    unfold State.cinvPieces
    extract_lets others writes
    have hothers (ps : List Piece) : OnRun (fun _ => True) (others ps) := .bind ih fun _ _ => .ok trivial
    have hwrites (ps : List Piece) : OnRun (fun _ => True) (writes ps) :=
      .ite (hothers _) (.bind (.seatPieces h) fun _ _ => hothers _)
    split
    · trivial
    · exact .bind (.seatPieces h) fun _ _ => hwrites _

theorem NextCanon.execCflush {base len} {s : State} (h : s.Canon) : NextCanon (execCflush base len s) := by
  unfold Machine.execCflush
  exact .slotOp h fun _ h => .bind (.seatPieces h) fun _ _ => .ok (.foldl (fun _ _ h => .flushPiece h) (.install (.commitF h)))

theorem NextCanon.execCinv {base len} {s : State} (h : s.Canon) : NextCanon (execCinv base len s) := by
  unfold Machine.execCinv
  refine .slotOp h fun _ h => .bind (.cinvPieces h) fun _ _ => ?_
  exact .ok (.foldl (fun _ _ h => .dropPiece h) (.install (.install (.commitF h))))

/-! The operations of Machine/KvMath. -/

theorem State.Canon.kvPut {s : State} {pa bs} (h : s.Canon) : (s.kvPut pa bs).Canon := by
  unfold State.kvPut
  exact .foldl (fun _ _ h => .engineTag h) (.engineBytes h)

theorem State.Canon.putRows {s : State} {g blk i vals} (h : s.Canon) : (s.putRows g blk i vals).Canon := by
  unfold State.putRows
  exact .foldl (fun _ _ h => .kvPut h) h

/-! The operations of Machine/Kv. -/

theorem OnRun.argLimit {v bits} : OnRun (fun _ => True) (argLimit v bits) := by
  unfold Machine.argLimit
  exact .ite trivial trivial

theorem KvAnswer.Canon.cause {c} : (KvAnswer.cause c).Canon := by
  unfold Machine.KvAnswer.cause
  trivial

theorem SndCanon.kvTake {s : State} {pool} (h : s.Canon) : SndCanon (s.kvTake pool) := by
  unfold State.kvTake
  exact .mk (.poolTake h)

theorem SndCanon.kvFrames {s : State} {got n} (h : s.Canon) : SndCanon (s.kvFrames got n) := by
  unfold State.kvFrames
  exact .foldl (fun _ _ h => .mk (.snd (.kvTake h.snd))) (.mk h)

theorem State.Canon.spareFrames {s : State} {q fs} (h : s.Canon) : (s.spareFrames q fs).Canon := by
  unfold State.spareFrames
  exact .foldl (fun _ _ h => .kvReturn h) h

theorem KvAnswer.Canon.stepWalk {s : State} {o q g} (h : s.Canon) : (s.stepWalk o q g).Canon := by
  unfold State.stepWalk
  split
  · exact .cause
  · exact .whole h

theorem State.Canon.enterChild {s : State} {parent node token} (h : s.Canon) : (s.enterChild parent node token).Canon := by
  unfold State.enterChild
  exact .ite h (.ite (.setFlag h) (.putMemN (.engineBytes (.snd (.ite (.mk (.putMemN (.snd (.kvTake h)))) (.mk h))))))

theorem KvAnswer.Canon.stepCommit {s : State} {o q} (h : s.Canon) : (s.stepCommit o q).Canon := by
  unfold State.stepCommit
  refine .ite (.whole h) ?_
  split
  · exact .whole h
  · extract_lets _ last target pending parent grown unflagged longer entered
    have hgrown : grown.Canon := .setLen (.setCommit h)
    have hlonger : longer.Canon := .putMemN (.setFlag hgrown)
    have hentered : entered.Canon := .ite (.enterChild hlonger) hgrown
    exact .ite (.waits h) (.whole (.unlistStage (.putMemN (.putMemN hentered))))

theorem State.Canon.pendingNode {s : State} {q frame} (h : s.Canon) : (s.pendingNode q frame).Canon := by
  unfold State.pendingNode
  exact .set_fresh (.setPathAt (.makeNode h))

theorem State.Canon.newBlock {s : State} {g blk l scale} (h : s.Canon) : (s.newBlock g blk l scale).Canon := by
  unfold State.newBlock
  exact .foldl (fun _ _ h => .engineTag (.ite (.engineBytes h) h)) h

theorem KvAnswer.Canon.stepApp {s : State} {core o q g} (h : s.Canon) : (s.stepApp core o q g).Canon := by
  unfold State.stepApp
  extract_lets l n last target cl needBlock _ r _ _ filled counted
  clear_value target
  have hr : SndCanon r := by
    unfold r
    split
    · exact .mk h
    · exact .mk (.pendingNode (.snd (.kvTake h)))
  have hfilled : filled.Canon := .ite (.setEntry (.newBlock (.snd (.kvTake hr.snd)))) hr.snd
  have hcounted : counted.Canon := .putMemN hfilled
  refine .ite .cause (.ite trivial (.ite .cause (.ite .cause (.ite (.waits h) (.ite (.waits h) (.ite (.waits h) ?_))))))
  exact .follows (.ite (.modCluster hcounted) hcounted)

theorem KvAnswer.Canon.stepFork {s : State} {o q} (h : s.Canon) : (s.stepFork o q).Canon := by
  unfold State.stepFork
  extract_lets _ _ _ path layers pool fronts
  have hpath : path.Canon := .setPath (.discardStage h)
  have hpool : pool.Canon := .putMemN (.putMemN (.putMemN (.putMemN (.setCommit hpath))))
  have hfronts : fronts.Canon := .setRdone (.setRcnt (.setFront hpool))
  exact .ite .cause (.ite .cause (.whole (.foldl (fun _ _ h => .setRef h) hfronts)))

theorem SndCanon.freeHash {s : State} {n} (h : s.Canon) : SndCanon (s.freeHash n) := by
  unfold State.freeHash
  exact .mk h

theorem FstCanon.rollPath {s : State} {q n frame l} (h : s.Canon) : FstCanon (s.rollPath q n frame l) := by
  induction l generalizing s with
  | nil => exact h
  | cons x r ih =>
    unfold State.rollPath
    dsimp only
    split
    · exact h
    · split
      · exact ih (.dropNode h)
      · split
        · exact .mk (.dropNode (.makeNode h))
        · exact .mk (.setLen h)

theorem KvAnswer.Canon.stepRoll {s : State} {o q g} (h : s.Canon) : (s.stepRoll o q g).Canon := by
  unfold State.stepRoll
  extract_lets n cut clear _ f r path list left count fronts
  have hf : SndCanon f := .ite (.mk (.snd (.kvTake (.discardStage h)))) (.mk (.discardStage h))
  have hpath : path.Canon := .setCommit (.setPath (.fst (.rollPath hf.snd)))
  have hcount : count.Canon := .ite hpath (.setRcnt hpath)
  have hfronts : fronts.Canon := .ite (.setRdone (.setFront hcount)) (.ite hcount (.setRdone hcount))
  clear_value n cut
  exact .ite trivial (.ite .cause (.ite (.waits h) (.whole hfronts)))

theorem FstCanon.shiftNodes {s : State} {q by_ parent fs l} (h : s.Canon) : FstCanon (s.shiftNodes q by_ parent fs l) := by
  induction l generalizing s parent fs with
  | nil => exact h
  | cons x r ih =>
    unfold State.shiftNodes
    dsimp only
    split
    · exact ih (.dropNode (.makeNode h))
    · exact ih (.setStart h)

theorem State.Canon.makePiece {s : State} {q g frame x off len start nblk parent kind} (h : s.Canon) :
    (s.makePiece q g frame x off len start nblk parent kind).Canon := by
  unfold State.makePiece
  exact .foldl (fun _ _ h => .ite (.setEntry h) h) (.makeNode (.snd (.freeHash h)))

theorem State.Canon.splice {s : State} {o q g frames} (h : s.Canon) : (s.splice o q g frames).Canon := by
  unfold State.splice
  extract_lets t p tlen clear ns front later cut before _ r fS inserted _ back sh
  clear_value cut
  have hclear : clear.Canon := .discardStage h
  have hr : FstCanon r := by
    unfold r
    split
    · exact .mk hclear
    · exact .ite (.mk (.makeNode (.snd (.freeHash hclear)))) (.mk hclear)
  have hinserted : inserted.Canon := .makeNode hr.fst
  have hback : FstCanon back := by
    unfold back
    split
    · exact .mk hinserted
    · exact .mk (.ite (.dropNode (.makePiece hinserted)) (.setLen (.makePiece hinserted)))
  have hsh : FstCanon sh := .shiftNodes hback.fst
  exact .foldl (fun _ _ h => .ite (.putMemN h) h) (.setCommit (.setPath hsh.fst))

theorem KvAnswer.Canon.stepSplice {s : State} {o q g} (h : s.Canon) : (s.stepSplice o q g).Canon := by
  unfold State.stepSplice
  conv => zeta
  generalize s.memN (o.a.toNat + 0x30) 8 = m
  refine .ite .cause (.ite .fails (.ite .fails (.ite .cause (.ite .fails (.ite .cause (.ite .cause ?_))))))
  refine .ite (.waits ?_) (.whole (.spareFrames (.splice ?_)))
  · exact .snd (.kvFrames h)
  · exact .snd (.kvFrames h)

theorem KvAnswer.Canon.stepProv {s : State} {o q} (h : s.Canon) : (s.stepProv o q).Canon := by
  unfold State.stepProv
  refine .ite .cause ?_
  split
  · exact .cause
  · exact .follows h

theorem KvAnswer.Canon.stepRepair {s : State} {o q g} (h : s.Canon) : (s.stepRepair o q g).Canon := by
  unfold State.stepRepair
  exact .ite trivial (.ite trivial (.ite .cause (.follows (.setBusy h))))

theorem KvAnswer.Canon.stepRepstat {s : State} {o q} (h : s.Canon) : (s.stepRepstat o q).Canon := by
  unfold State.stepRepstat
  exact .whole h

theorem KvAnswer.Canon.stepAttq {s : State} {core o ro q g} (h : s.Canon) : (s.stepAttq core o ro q g).Canon := by
  unfold State.stepAttq
  dsimp only
  refine .ite .cause (.ite trivial (.ite (.waits h) ?_))
  split
  · trivial
  · split
    · exact .cause
    · exact .ite (.waits h) (.follows h)

theorem KvAnswer.Canon.kvStep {s : State} {core o} (h : s.Canon) : (s.kvStep core o).Canon := by
  unfold State.kvStep
  dsimp only
  refine .ite .cause (.ite trivial ?_)
  split
  · exact .cause
  · refine .ite (.waits h) (.ite (.waits h) ?_)
    split
    · exact .stepWalk h
    · exact .stepApp h
    · exact .stepCommit h
    · exact .stepFork h
    · exact .stepRoll h
    · exact .stepSplice h
    · exact .stepProv h
    · exact .stepRepair h
    · exact .stepRepair h
    · exact .stepRepstat h
    · exact .stepAttq h

theorem SndCanon.kvAccepted {s : State} {core o} (h : s.Canon) : SndCanon (s.kvAccepted core o) := by
  unfold State.kvAccepted
  exact .ite (.mk (.observe h)) (.mk (.observe h))

theorem State.Canon.kvIssued {s : State} {id o} (h : s.Canon) : (s.kvIssued id o).Canon := by
  unfold State.kvIssued
  split
  · exact .ite (.wS h) (.pendS h)
  · exact h

theorem State.Canon.kvStarts {s : State} {o} (h : s.Canon) : (s.kvStarts o).Canon := by
  unfold State.kvStarts
  exact .kvIssued (.snd (.kvAccepted h))

theorem State.Canon.kvHold {s : State} {o pool} (h : s.Canon) : (s.kvHold o pool).Canon := by
  unfold State.kvHold
  split
  · exact .ite h h
  · exact h

theorem OnRun.kvIssue {s : State} {o} (h : s.Canon) : OnRun State.Canon (s.kvIssue o) := by
  unfold State.kvIssue
  dsimp only
  split
  · exact .ok (.kvIssued (.commitF h))
  · split
    · exact .error (.hold (.kvHold (KvAnswer.Canon.of_eq (KvAnswer.Canon.kvStep (.commitF h)) ‹_ = KvAnswer.waits _ _ _›)))
    · trivial
    · trivial
    · exact .ok (.kvStarts (KvAnswer.Canon.of_eq (KvAnswer.Canon.kvStep (.commitF h)) ‹_ = KvAnswer.whole _ _›))
    · exact .ok (.kvStarts (KvAnswer.Canon.of_eq (KvAnswer.Canon.kvStep (.commitF h)) ‹_ = KvAnswer.follows _ _›))

theorem OnRun.kvAligned {v n} : OnRun (fun _ => True) (kvAligned v n) := by
  unfold Machine.kvAligned
  exact .ite trivial trivial

theorem NextCanon.execKvwalk {a b c g} {s : State} (h : s.Canon) : NextCanon (execKvwalk a b c g s) := by
  unfold Machine.execKvwalk
  exact .slotOp h fun _ h => .bind .argLimit fun _ _ => .bind .argLimit fun _ _ => .kvIssue h

theorem OnRun.kvappIssue {s : State} {p a b c} (h : s.Canon) : OnRun State.Canon (s.kvappIssue p a b c) := by
  unfold State.kvappIssue
  exact .bind (.copyPages h) fun _ _ => .kvIssue (.install h)

theorem NextCanon.execKvapp {a b c g} {s : State} (h : s.Canon) : NextCanon (execKvapp a b c g s) := by
  unfold Machine.execKvapp
  exact .blockOp h (fun _ _ _ => .limit) fun _ _ h => .kvappIssue h

theorem NextCanon.execKvcommit {c g} {s : State} (h : s.Canon) : NextCanon (execKvcommit c g s) := by
  unfold Machine.execKvcommit
  exact .slotOp h fun _ h => .kvIssue h

theorem NextCanon.execKvfork {a g} {s : State} (h : s.Canon) : NextCanon (execKvfork a g s) := by
  unfold Machine.execKvfork
  exact .slotOp h fun _ h => .bind .argLimit fun _ _ => .kvIssue h

theorem NextCanon.execKvroll {a g} {s : State} (h : s.Canon) : NextCanon (execKvroll a g s) := by
  unfold Machine.execKvroll
  exact .slotOp h fun _ h => .bind .argLimit fun _ _ => .kvIssue h

theorem NextCanon.execKvsplice {a b c g} {s : State} (h : s.Canon) : NextCanon (execKvsplice a b c g s) := by
  unfold Machine.execKvsplice
  exact .slotOp h fun _ h => .kvIssue h

theorem NextCanon.execKvprov {a b g} {s : State} (h : s.Canon) : NextCanon (execKvprov a b g s) := by
  unfold Machine.execKvprov
  exact .slotOp h fun _ h => .bind (.copyPages h) fun _ _ => .kvIssue (.install h)

theorem NextCanon.execRepairM {a b c g} {s : State} (h : s.Canon) : NextCanon (execRepairM a b c g s) := by
  unfold Machine.execRepairM
  exact .blockOp h (fun _ _ _ => .limit) fun _ _ h => .bind .kvAligned fun _ _ => .kvIssue h

theorem NextCanon.execRepairI {a b c g} {s : State} (h : s.Canon) : NextCanon (execRepairI a b c g s) := by
  unfold Machine.execRepairI
  exact .blockOp h (fun _ _ _ => .limit) fun _ _ h => .kvIssue h

theorem NextCanon.execRepstat {c g} {s : State} (h : s.Canon) : NextCanon (execRepstat c g s) := by
  unfold Machine.execRepstat
  exact .slotOp h fun _ h => .kvIssue h

theorem OnRun.attq {s : State} {ro p a b c} (h : s.Canon) : OnRun State.Canon (s.attq ro p a b c) := by
  unfold State.attq
  exact .bind .kvAligned fun _ _ => .kvIssue h

theorem NextCanon.execAttq {a b c g} {s : State} (h : s.Canon) : NextCanon (execAttq a b c g s) := by
  unfold Machine.execAttq
  exact .blockOp h (fun _ _ _ => .limit) fun _ _ h => .attq h

theorem NextCanon.execAttqRo {a b c g} {s : State} (h : s.Canon) : NextCanon (execAttqRo a b c g s) := by
  unfold Machine.execAttqRo
  exact .blockOp h (fun _ _ _ => .limit) fun _ _ h => .attq h

/-! The operations of Machine/KvWork. -/

theorem State.Canon.markPlaces {s : State} {w ps} (h : s.Canon) : (s.markPlaces w ps).Canon := by
  unfold State.markPlaces
  refine .foldl (fun s p h => ?_) h
  split
  · exact .markAt h
  · exact h

theorem KvData.Canon.kvFetch {s : State} {k o va n} (h : s.Canon) : (s.kvFetch k o va n).Canon := by
  unfold State.kvFetch
  split
  · trivial
  · refine .ite trivial ?_
    split
    · trivial
    · exact .ite trivial (.bytes (.markPlaces h))

theorem FstCanon.kvPutAt {s : State} {k o pa bs} (h : s.Canon) : FstCanon (s.kvPutAt k o pa bs) := by
  unfold State.kvPutAt
  exact .ite (.mk (.hostWritesBy h)) (.mk (.engineBytes h))

theorem KvPut.Canon.kvStore {s : State} {k o va bs} (h : s.Canon) : (s.kvStore k o va bs).Canon := by
  unfold State.kvStore
  split
  · exact .cause (.engineFail h)
  · refine .ite trivial (.done ?_)
    exact foldl_keeps (P := fun r : (State × KvOp) × List Byte => FstCanon r.1) (fun _ _ h => .kvPutAt h.fst) (FstCanon.mk (.markPlaces h))

theorem KvWork.Canon.withRow {s : State} {k o g i f} (h : s.Canon) (hf : ∀ s vals, s.Canon → (f s vals).Canon) :
    (s.withRow k o g i f).Canon := by
  unfold State.withRow
  split
  · exact h
  · trivial
  · exact h
  · exact hf _ _ ((KvData.Canon.kvFetch h).of_eq ‹_ = KvData.bytes _ _›)

theorem KvWork.Canon.workApp {s : State} {k o g} (h : s.Canon) : (s.workApp k o g).Canon := by
  unfold State.workApp
  refine .ite ?_ ?_
  · refine .withRow h fun _ _ h => .ite (.pinned h) ?_
    split
    · exact .ended h
    · exact .more (.putMemN (.putRows h))
  · exact .ended (.putMemN h)

theorem KvWork.Canon.workProv {s : State} {k o} (h : s.Canon) : (s.workProv k o).Canon := by
  unfold State.workProv
  split
  · exact .ended (KvPut.Canon.of_eq (KvPut.Canon.kvStore h) ‹_ = KvPut.cause _ _›)
  · exact .pinned h
  · exact .ended (KvPut.Canon.of_eq (KvPut.Canon.kvStore h) ‹_ = KvPut.done _ _›)

theorem KvPut.Canon.putOut {s : State} {k o va bs} (h : s.Canon) : (s.putOut k o va bs).Canon := by
  induction bs generalizing s o va with
  | nil => exact .done h
  | cons b r ih =>
    unfold State.putOut
    dsimp only
    split
    · exact .cause (.engineFail h)
    · refine ih (.ite ?_ (.wholeTag ?_))
      · exact .fst (.kvPutAt (.markAt h))
      · exact .fst (.kvPutAt (.markAt h))

theorem KvWork.Canon.workAttq {s : State} {k o g} (h : s.Canon) : (s.workAttq k o g).Canon := by
  unfold State.workAttq
  refine .ite (.ended h) ?_
  split
  · exact .ended h
  · trivial
  · exact .pinned h
  · next t bs heq =>
    have ht : t.Canon := (KvData.Canon.kvFetch h).of_eq heq
    refine .ite (.pinned h) ?_
    split
    · next u c heq => exact .ended ((KvPut.Canon.putOut ht).of_eq heq)
    · exact .pinned h
    · next u o heq => exact .more ((KvPut.Canon.putOut ht).of_eq heq)

theorem KvWork.Canon.workMeasure {s : State} {k o g} (h : s.Canon) : (s.workMeasure k o g).Canon := by
  unfold State.workMeasure
  dsimp only
  refine .withRow h fun _ _ h => .ite (.pinned h) ?_
  split
  · exact .ended h
  · split
    · exact .ended (KvPut.Canon.of_eq (KvPut.Canon.kvStore h) ‹_ = KvPut.cause _ _›)
    · exact .pinned h
    · exact .more (KvPut.Canon.of_eq (KvPut.Canon.kvStore h) ‹_ = KvPut.done _ _›)

theorem State.Canon.makePieces {s : State} {o g x fs off parent} (h : s.Canon) : (s.makePieces o g x fs off parent).Canon := by
  induction fs generalizing s off parent with
  | nil => exact h
  | cons f fs ih =>
    unfold State.makePieces
    exact ih (.makePiece h)

theorem State.Canon.replacePath {s : State} {q x ns} (h : s.Canon) : (s.replacePath q x ns).Canon := by
  unfold State.replacePath
  dsimp only
  split
  · exact .ite (.putMemN (.setPathAt (.setPath h))) (.setPathAt (.setPath h))
  · exact .setPath h

theorem KvWork.Canon.workReplace {s : State} {o g} (h : s.Canon) : (s.workReplace o g).Canon := by
  unfold State.workReplace
  extract_lets q ns want found unlocked spared o'
  clear_value found
  have hunlocked : unlocked.Canon := .foldl (fun _ _ h => .setFlag h) h
  have hspared : spared.Canon := .spareFrames hunlocked
  refine .ite (.pinned h) ?_
  split
  · exact .ite (.ended hspared) (.more (.setRdone (.setFront hspared)))
  · extract_lets st o need locked r mine front
    have hr : SndCanon r := .kvFrames (.putMemN (.setFlag hunlocked))
    refine .ite (.ended (.setRcnt hunlocked)) (.ite (.ended hunlocked) (.ite (.waits hr.snd) ?_))
    exact .more (.dropNode (.setFlag (.replacePath (.makePieces (.spareFrames hr.snd)))))

theorem State.Canon.copyBlock {s : State} {g src dst} (h : s.Canon) : (s.copyBlock g src dst).Canon := by
  unfold State.copyBlock
  exact .foldl (fun _ _ h => .ite (.engineTag (.engineBytes h)) (.engineTag (.engineBytes h))) h

theorem State.Canon.install1 {s t : State} {o g p l vals was} (h : s.Canon) (e : s.install1 o g p l vals = .ok (some (t, was))) :
    t.Canon := by
  unfold State.install1 at e
  split at e
  · cases e
  · dsimp only at e
    split at e
    · cases e
    · next u blk heq =>
      have hu : u.Canon := by
        split at heq
        · split at heq
          · cases heq
          · obtain ⟨rfl, -⟩ := Prod.mk.inj (Option.some.inj heq)
            exact .setEntry (.copyBlock (.snd (.kvTake h)))
        · obtain ⟨rfl, -⟩ := Prod.mk.inj (Option.some.inj heq)
          exact h
      obtain ⟨rfl, -⟩ := Prod.mk.inj (Option.some.inj (Except.ok.inj e))
      exact .putMemN (.putRows hu)

theorem State.Canon.frontier {s : State} {q} (h : s.Canon) : (s.frontier q).Canon := by
  unfold State.frontier
  exact .ite (.setRcnt (.setFront (.setRdone h))) (.setFront (.setRdone h))

theorem KvWork.Canon.workFirst {s : State} {k o g} (h : s.Canon) : (s.workFirst k o g).Canon := by
  unfold State.workFirst
  split
  · exact .ended (.frontier h)
  · refine .withRow h fun s vals h => .ite (.pinned h) ?_
    split
    · exact .ended h
    · exact .waits h
    · next t _ heq => exact .more (.setRdone (State.Canon.install1 h heq))

theorem KvWork.Canon.workInstall {s : State} {k o g} (h : s.Canon) : (s.workInstall k o g).Canon := by
  unfold State.workInstall
  refine .ite (.ended h) (.withRow h fun s vals h => .ite (.pinned h) ?_)
  split
  · exact .ended h
  · exact .waits h
  · next t _ heq =>
    have ht : t.Canon := .install1 h heq
    exact .more (.ite (.frontier (.ite ht (.setRdone ht))) (.ite ht (.setRdone ht)))

theorem KvWork.Canon.workRepairM {s : State} {k o g} (h : s.Canon) : (s.workRepairM k o g).Canon := by
  unfold State.workRepairM
  refine .ite ?_ ?_
  · exact .ite (.workMeasure h) (.more (.setRcnt (.foldl (fun _ _ h => .putMemN h) h)))
  · exact .ite (.workReplace h) (.workFirst h)

theorem KvWork.Canon.kvPart {s : State} {k o} (h : s.Canon) : (s.kvPart k o).Canon := by
  unfold State.kvPart
  split
  · exact .ended h
  · split
    · exact .workApp h
    · exact .workProv h
    · exact .workRepairM h
    · exact .workInstall h
    · exact .workAttq h
    · exact .ended h

theorem KvWork.Canon.kvRun {k fuel} {s : State} {o} (h : s.Canon) : (kvRun k fuel s o).Canon := by
  induction fuel generalizing s o with
  | zero => exact .more h
  | succ fuel ih =>
    unfold Machine.kvRun
    have hp : (s.kvPart k o).Canon := .kvPart h
    split
    · next t p heq => exact ih (hp.of_eq heq)
    · trivial
    · exact hp

theorem State.Canon.kvEnd {s : State} {core id o} (h : s.Canon) : (s.kvEnd core id o).Canon := by
  unfold State.kvEnd
  extract_lets _ freed unlocked filled
  have hfreed : freed.Canon := .foldl (fun _ _ h => .kvReturn h) h
  have hunlocked : unlocked.Canon := .ite (.setBusy (.foldl (fun _ _ h => .setFlag h) hfreed)) hfreed
  have hfilled : filled.Canon := by
    unfold filled
    split
    · exact .fillS hunlocked
    · exact hunlocked
  exact .flushReturns hfilled

theorem State.Canon.putKv {s : State} {core id o} (h : s.Canon) : (s.putKv core id o).Canon := h

theorem State.Canon.kvFinish {s : State} {k o} (h : s.Canon) : (s.kvFinish k o).Canon := by
  unfold State.kvFinish
  exact .ite (.kvEnd h) h

theorem OnSome.kvGoOn {s : State} {k o} (h : s.Canon) : OnSome State.Canon (s.kvGoOn k o) := by
  unfold State.kvGoOn
  split
  · exact .some (.putKv (KvWork.Canon.of_eq (KvWork.Canon.kvRun h) ‹_ = KvWork.more _ _›))
  · exact .some (.kvFinish (KvWork.Canon.of_eq (KvWork.Canon.kvRun h) ‹_ = KvWork.ended _ _›))
  · exact .some (.putKv (.hostRequest h))
  · exact .some (.poolEvent (.putKv (KvWork.Canon.of_eq (KvWork.Canon.kvRun h) ‹_ = KvWork.waits _ _ _›)))
  · exact .ite trivial (.some (.putKv (KvWork.Canon.of_eq (KvWork.Canon.kvRun h) ‹_ = KvWork.pinned _ _›)))

theorem NextCanon.execKvComplete {core id} {s : State} (h : s.Canon) : NextCanon (execKvComplete core id s) := by
  unfold Machine.execKvComplete
  refine .dev ?_
  split
  · exact .ite trivial (.kvGoOn h)
  · trivial

theorem State.Canon.kvHostDone {s : State} {core id o r data} (h : s.Canon) : (s.kvHostDone core id o r data).Canon := by
  unfold State.kvHostDone
  refine .ite (.ite (.kvFinish h) h) ?_
  split
  · exact .kvFinish h
  · exact h

theorem OnSome.kvAcceptHeld {s : State} {core seat} (h : s.Canon) : OnSome State.Canon (s.kvAcceptHeld core seat) := by
  unfold State.kvAcceptHeld
  split
  · trivial
  · split
    · exact .some (.modSeat (.snd (.kvAccepted (KvAnswer.Canon.of_eq (KvAnswer.Canon.kvStep h) ‹_ = KvAnswer.whole _ _›))))
    · exact .some (.modSeat (.snd (.kvAccepted (KvAnswer.Canon.of_eq (KvAnswer.Canon.kvStep h) ‹_ = KvAnswer.follows _ _›))))
    · trivial

theorem NextCanon.execKvAccept {core seat} {s : State} (h : s.Canon) : NextCanon (execKvAccept core seat s) := by
  unfold Machine.execKvAccept
  exact .dev (.kvAcceptHeld h)

theorem NextCanon.execKvPoolWaitEnd {core seat} {s : State} (h : s.Canon) : NextCanon (execKvPoolWaitEnd core seat s) := by
  unfold Machine.execKvPoolWaitEnd
  refine .dev (.ite (.some (.flushReturns h)) ?_)
  split
  · exact .kvGoOn h
  · exact .kvAcceptHeld h

/-! The operations of Machine/HostPort. -/

theorem State.Canon.sendVector {s : State} {v} (h : s.Canon) : (s.sendVector v).Canon := by
  unfold State.sendVector
  exact .ite h (.hostAfter h)

theorem State.Canon.raiseVector {s : State} {v} (h : s.Canon) : (s.raiseVector v).Canon := by
  unfold State.raiseVector
  exact .ite (.sendVector h) h

theorem State.Canon.hostError {s : State} {asid pa} (h : s.Canon) : (s.hostError asid pa).Canon := by
  unfold State.hostError
  split
  · exact h
  · exact .raiseVector h

theorem State.Canon.logColl {s : State} {core kind member chunkId} (h : s.Canon) : (s.logColl core kind member chunkId).Canon := by
  unfold State.logColl
  exact .raiseVector h

/-! The operations of Machine/Coll. -/

theorem OnSome.sendChunk {s : State} {ch} (h : s.Canon) : OnSome State.Canon (s.sendChunk ch) := by
  unfold State.sendChunk
  exact .map .any fun _ _ => h

theorem State.Canon.putColl {s : State} {core id o} (h : s.Canon) : (s.putColl core id o).Canon := h

theorem State.Canon.collGo {s : State} {core id o} (h : s.Canon) : (s.collGo core id o).Canon := by
  unfold State.collGo
  refine .ite h ?_
  split
  · exact .putColl (OnSome.of_some (OnSome.sendChunk h) ‹_›)
  · exact h

theorem State.Canon.markColl {s : State} {w ps} (h : s.Canon) : (s.markColl w ps).Canon := by
  unfold State.markColl
  exact .foldl (fun _ _ h => .markAt h) h

theorem State.Canon.collWrite {s : State} {by_ ps bs ts} (h : s.Canon) : (s.collWrite by_ ps bs ts).Canon := by
  induction ps generalizing s bs ts with
  | nil => exact h
  | cons p r ih =>
    unfold State.collWrite
    dsimp only
    refine ih ?_
    split
    · exact .ite (.engineWriteBy (.markAt h)) (.foldl (fun _ _ h => .wholeTag h) (.engineWriteBy (.markAt h)))
    · exact .engineWriteBy (.markAt h)

theorem State.Canon.startColl {s : State} {kind p va rb dst} (h : s.Canon) : (s.startColl kind p va rb dst).Canon := by
  unfold State.startColl
  refine .ite (.collGo (.pendS h)) ?_
  split
  · exact .collGo (.pendS h)
  · exact .ite (.collGo (.pendS (.newOp (.markColl h)))) (.collGo (.pendS (.newOp (.foldl (fun _ _ h => h) (.markColl h)))))

theorem OnRun.coll {s : State} {kind p a b c} (h : s.Canon) : OnRun State.Canon (s.coll kind p a b c) := by
  unfold State.coll
  exact .ite trivial (.ite trivial (.ite trivial (.ite trivial (.ok (.startColl (.commitF h))))))

theorem NextCanon.collOpRun {kind a b c g} {s : State} (h : s.Canon) : NextCanon (collOpRun kind a b c g s) := by
  unfold Machine.collOpRun
  exact .blockOp h (fun _ _ _ => .limit) fun _ _ h => .coll h

theorem State.Canon.collFail {s : State} {core id o} (h : s.Canon) : (s.collFail core id o).Canon := by
  unfold State.collFail
  exact .ite (.collGo (.logColl h)) (.putColl (.logColl h))

theorem OnSome.ownAnswer {s : State} {core id o ok} (h : s.Canon) : OnSome State.Canon (s.ownAnswer core id o ok) := by
  unfold State.ownAnswer
  exact .ite (.ite trivial (.some h)) (.some (.collFail h))

theorem NextCanon.execCollAck {core id ok} {s : State} (h : s.Canon) : NextCanon (execCollAck core id ok s) := by
  unfold Machine.execCollAck
  refine .dev ?_
  split
  · exact .ownAnswer h
  · trivial

theorem State.Canon.sendData {s : State} {ch fails} (h : s.Canon) : (s.sendData ch fails).Canon := by
  unfold State.sendData
  exact .getD (.sendChunk h) h

theorem State.Canon.dataFail {s : State} {e} (h : s.Canon) : (s.dataFail e).Canon := by
  unfold State.dataFail
  exact .ite (.sendData (.logColl h)) (.logColl h)

theorem NextCanon.execCollChunkTimeout {chunk id} {s : State} (h : s.Canon) : NextCanon (execCollChunkTimeout chunk id s) := by
  unfold Machine.execCollChunkTimeout
  refine .dev ?_
  split
  · exact .map .any fun _ _ => .collFail h
  · exact .map .any fun _ _ => .dataFail h

theorem NextCanon.execCollComplete {core id} {s : State} (h : s.Canon) : NextCanon (execCollComplete core id s) := by
  unfold Machine.execCollComplete
  refine .dev ?_
  split
  · exact .ite trivial (.map .any fun _ _ => .fillS h)
  · trivial

theorem State.Canon.collHostDone {s : State} {core id o r data} (h : s.Canon) : (s.collHostDone core id o r data).Canon := by
  unfold State.collHostDone
  split
  · exact h
  · refine .ite h ?_
    split
    · exact .collGo h
    · exact h

theorem State.Canon.collAnswer {s : State} {op ch} (h : s.Canon) : (s.collAnswer op ch).Canon := by
  unfold State.collAnswer
  exact .getD (.sendChunk h) h

theorem CollOutcome.Canon.collApply {s : State} {ch host} (h : s.Canon) : (s.collApply ch host).Canon := by
  unfold State.collApply
  refine .ite trivial ?_
  split
  · trivial
  · split
    · trivial
    · refine .ite (.ite (.applied (.collAnswer (.collWrite h))) trivial) (.ite ?_ ?_)
      · exact .ite trivial (.ite trivial (.applied (.sendData (.markColl h))))
      · exact .ite trivial (.ite trivial (.ite trivial (.applied (.collAnswer (.collWrite h)))))

theorem State.Canon.collServe {s : State} {k i} (h : s.Canon) : (s.collServe k i).Canon := by
  unfold State.collServe
  dsimp only
  split
  · split
    · exact .set_net (CollOutcome.Canon.of_eq (CollOutcome.Canon.collApply h) ‹_ = CollOutcome.applied _›)
    · exact CollOutcome.Canon.of_eq (CollOutcome.Canon.collApply h) ‹_ = CollOutcome.applied _›
  · split
    · exact .set_net (.collAnswer h)
    · exact .collAnswer h
  · split
    · split <;> exact h
    · exact h

theorem State.Canon.inboundHostDone {s : State} {k i r data} (h : s.Canon) : (s.inboundHostDone k i r data).Canon := by
  unfold State.inboundHostDone
  split
  · exact .collAnswer h
  · exact .collServe h

theorem State.Canon.badData {s : State} {core id o} (h : s.Canon) : (s.badData core id o).Canon := by
  unfold State.badData
  exact .ite (.logColl h) (.logColl h)

theorem State.Canon.collGetData {s : State} {ch} (h : s.Canon) : (s.collGetData ch).Canon := by
  unfold State.collGetData
  dsimp only
  split
  · exact .ite (.collAnswer h) h
  · refine .ite (.badData (.collAnswer h)) ?_
    split
    · exact .engineFail (.collWrite h)
    · exact .collAnswer (.collWrite h)

theorem OnSome.collReply {s : State} {ch} (h : s.Canon) : OnSome State.Canon (s.collReply ch) := by
  unfold State.collReply
  split
  · exact .ownAnswer h
  · exact .map .any fun _ _ => .ite h (.dataFail h)

theorem OnSome.collArrive {s : State} {ch} (h : s.Canon) : OnSome State.Canon (s.collArrive ch) := by
  unfold State.collArrive
  exact .ite trivial (.ite (.some (.collGetData h)) (.ite (.collReply h) (.ite (.some (.collAnswer h)) (.some (.collServe h)))))

theorem NextCanon.execCollChunkReceive {ch} {s : State} (h : s.Canon) : NextCanon (execCollChunkReceive ch s) := by
  unfold Machine.execCollChunkReceive
  exact .dev (.ite trivial (.collArrive h))

theorem State.Canon.fragment {s : State} {f} (h : s.Canon) : (s.fragment f).Canon := by
  unfold State.fragment
  dsimp only
  refine .ite (.collAnswer h) ?_
  split
  · exact .getD (.collArrive h) h
  · exact h

/-! The operations of Machine/Pool. -/

theorem State.Canon.reportPools {s : State} (h : s.Canon) : s.reportPools.Canon := by
  unfold State.reportPools
  exact .ite h h

theorem State.Canon.wakeTile {s : State} {core} (h : s.Canon) : (s.wakeTile core).Canon := by
  unfold State.wakeTile
  dsimp only
  split
  · exact h
  · exact .ite h h
  · exact h

theorem State.Canon.wakeFor {s : State} {level home id} (h : s.Canon) : (s.wakeFor level home id).Canon := by
  unfold State.wakeFor
  refine .ite (.wakeTile h) (.ite h ?_)
  split
  · exact .wakeTile h
  · split
    · exact .wakeTile h
    · exact h

theorem SndCanon.newEntry {s : State} (h : s.Canon) : SndCanon s.newEntry := by
  unfold State.newEntry
  exact .mk h

theorem State.Canon.poolAddIf {s : State} {wakes d it} (h : s.Canon) : (s.poolAddIf wakes d it).Canon := by
  unfold State.poolAddIf
  exact .ite (.snd (.newEntry h)) (.ite (.wakeFor (.snd (.newEntry h))) (.snd (.newEntry h)))

theorem State.Canon.poolAdd {s : State} {d it} (h : s.Canon) : (s.poolAdd d it).Canon := by
  unfold State.poolAdd
  exact .poolAddIf h

/-! The operations of Machine/Leave. -/

theorem State.Canon.noteLeft {s : State} {core c win} (h : s.Canon) : (s.noteLeft core c win).Canon := by
  unfold State.noteLeft
  exact .ite h h

theorem State.Canon.finishLeave {s : State} {core x l} (h : s.Canon) : (s.finishLeave core x l).Canon := by
  unfold State.finishLeave
  extract_lets flushed noted
  have hnoted : noted.Canon := by
    unfold noted
    split
    · exact h
    · exact .noteLeft h
  split
  · exact .idleSeat (.countOut hnoted)
  · extract_lets w words tagged block whole
    have hwhole : whole.Canon := .wholeTag (.storeBytes (.wholeTag (.storeBytes hnoted)))
    exact .ite (.idleSeat (.hostWritesBy hnoted)) (.idleSeat (.ite (.modCore hwhole) hwhole))
  · exact .idleSeat (.poolAdd hnoted)
  · exact .idleSeat (.modDie (.snd (.newEntry hnoted)))

theorem OnSome.dueCause {s : State} {core x} (h : s.Canon) : OnSome State.Canon (s.dueCause core x) := by
  unfold State.dueCause
  refine .ite trivial ?_
  split
  · exact .some (.takeCause h)
  · split
    · trivial
    · refine .ite ?_ (.ite (.some h) (.some (.takeCause h)))
      split
      · next t heq => exact .some (OnSome.of_eq heq (.deliverUncorr h))
      · exact .some (.takeCause h)

theorem OnSome.boundaryCause {s : State} {core x} (h : s.Canon) : OnSome State.Canon (s.boundaryCause core x) := by
  unfold State.boundaryCause
  dsimp only
  split
  · exact .ite (.some (.takeCause h)) trivial
  · exact .dueCause h
  · exact .dueCause h
  · trivial

/-! The operations of Machine/Resole. -/

theorem State.Canon.putTx {s : State} {hd t} (h : s.Canon) : (s.putTx hd t).Canon := by
  unfold State.putTx
  exact .putHeader h

theorem State.Canon.putEntry {s : State} {hd l flags} (h : s.Canon) : (s.putEntry hd l flags).Canon := by
  unfold State.putEntry
  exact .putHomeTag (.putHomes h)

theorem State.Canon.spoilEntry {s : State} {l} (h : s.Canon) : (s.spoilEntry l).Canon := by
  unfold State.spoilEntry
  exact .set_fresh (.putHomes h)

theorem OnRun.handleOf {v} : OnRun (fun _ => True) (handleOf v) := by
  unfold Machine.handleOf
  exact .ite trivial trivial

theorem OnRun.ownTx {s : State} {hd} : OnRun (fun _ => True) (s.ownTx hd) := by
  unfold State.ownTx
  split
  · exact .ite trivial trivial
  · trivial

theorem NextCanon.execRsbegin {a c g} {s : State} (h : s.Canon) : NextCanon (execRsbegin a c g s) := by
  unfold Machine.execRsbegin
  refine .slotOp h fun _ h => .ite trivial ?_
  split
  · trivial
  · exact .ite trivial (.ok (.wS (.putTx (.commitF h))))

theorem State.Canon.stageLine {s : State} {hd pa va data tag req} (h : s.Canon) : (s.stageLine hd pa va data tag req).Canon := by
  unfold State.stageLine
  split
  · exact h
  · refine .ite h ?_
    split
    · exact .putTx h
    · exact .set_fresh (.putTx h)

theorem State.Canon.stageFrom {s : State} {hd tgt src ts ps i} (h : s.Canon) : (s.stageFrom hd tgt src ts ps i).Canon := by
  unfold State.stageFrom
  exact .ite (.hostRequest (.stageLine h)) (.stageLine h)

theorem NextCanon.execRswrite {a b c g} {s : State} (h : s.Canon) : NextCanon (execRswrite a b c g s) := by
  unfold Machine.execRswrite
  refine .slotOp h fun s h => .ite trivial (.ite trivial (.ite trivial (.bind (.seatPieces h) fun _ _ => ?_)))
  split
  · trivial
  · refine .ite trivial (.bind (.seatPieces h) fun _ _ => .bind .ownTx fun _ _ => .ite trivial (.ite trivial (.ok ?_)))
    split <;> exact .foldl (fun _ _ h => .stageFrom h) (.putTx (.install (.install (.commitF h))))

theorem NextCanon.execRscommit {a c g} {s : State} (h : s.Canon) : NextCanon (execRscommit a c g s) := by
  unfold Machine.execRscommit
  refine .slotOp h fun _ h => .bind .handleOf fun _ _ => ?_
  exact .bind .ownTx fun _ _ => .ite trivial (.ok (.pendS (.newOp (.putTx (.commitF h)))))

theorem NextCanon.execRsabort {a g} {s : State} (h : s.Canon) : NextCanon (execRsabort a g s) := by
  unfold Machine.execRsabort
  exact .slotOp h fun _ h => .bind .handleOf fun _ _ => .bind .ownTx fun _ _ => .ite (.ok (.putTx (.commitF h))) trivial

theorem NextCanon.execRsstat {a b c g} {s : State} (h : s.Canon) : NextCanon (execRsstat a b c g s) := by
  unfold Machine.execRsstat
  exact .slotOp h fun _ h => .ite trivial (.bind .handleOf fun _ _ => .ite trivial (.ok (.wS (.commitF h))))

theorem State.Canon.commitStatus {s : State} {t v} (h : s.Canon) : (s.commitStatus t v).Canon := by
  unfold State.commitStatus
  split
  · exact h
  · split
    · exact .fillS h
    · exact h

theorem State.Canon.failTx {s : State} {hd t reason} (h : s.Canon) : (s.failTx hd t reason).Canon := by
  unfold State.failTx
  exact .ite (.commitStatus (.putTx h)) (.putTx h)

theorem NextCanon.execJournalWriteAttempt {handle ok} {s : State} (h : s.Canon) : NextCanon (execJournalWriteAttempt handle ok s) := by
  unfold Machine.execJournalWriteAttempt
  refine .dev ?_
  split
  · trivial
  · refine .ite trivial ?_
    split
    · trivial
    · exact .ite (.some (.putTx (.putEntry h))) (.ite (.some (.failTx (.spoilEntry h))) (.some (.putTx (.spoilEntry h))))

theorem State.Canon.raisePower {s : State} {bit} (h : s.Canon) : (s.raisePower bit).Canon := h

theorem State.Canon.applyDone {s : State} {hd ls} (h : s.Canon) : (s.applyDone hd ls).Canon := by
  unfold State.applyDone
  exact .ite h (.putHeader h)

theorem NextCanon.execCommitRecord {handle} {s : State} (h : s.Canon) : NextCanon (execCommitRecord handle s) := by
  unfold Machine.execCommitRecord
  refine .dev ?_
  split
  · trivial
  · exact .ite trivial (.some (.commitStatus (.applyDone (.putTx (.set_resole (.foldl (fun _ _ h => h) h))))))

theorem NextCanon.execResoleApply {handle ok} {s : State} (h : s.Canon) : NextCanon (execResoleApply handle ok s) := by
  unfold Machine.execResoleApply
  refine .dev ?_
  split
  · trivial
  · split
    · trivial
    · refine .ite ?_ ?_
      · exact .some (.applyDone (.ite (.set_resole (.putEntry (.putHomeTag (.putHomes h)))) (.putEntry (.putHomeTag (.putHomes h)))))
      · exact .ite (.some (.applyDone (.putEntry h))) (.some (.applyDone h))

theorem State.Canon.resoleHostDone {s : State} {id data} (h : s.Canon) : (s.resoleHostDone id data).Canon := by
  unfold State.resoleHostDone
  split
  · exact h
  · split
    · exact .putTx h
    · exact .failTx h

/-! The operations of Machine/Sched. -/

theorem State.Canon.placeSeat {s : State} {core x c} (h : s.Canon) : (s.placeSeat core x c).Canon := by
  unfold State.placeSeat
  extract_lets _ put placed
  have hput {u : State} {n pair} (hu : u.Canon) : (put u n pair).Canon := .ite (.ite hu hu) (.ite hu hu)
  have hplaced : placed.Canon := by
    unfold placed
    split
    · exact hput (hput h)
    · exact hput h
  exact .set_fe (.observe hplaced)

theorem NextCanon.execContinuationPlace {core seat} {s : State} (h : s.Canon) : NextCanon (execContinuationPlace core seat s) := by
  unfold Machine.execContinuationPlace
  refine .dev ?_
  split
  · split
    · exact .some (.placeSeat h)
    · trivial
  · trivial

theorem FstCanon.raiseItem {s : State} {i} (h : s.Canon) : FstCanon (s.raiseItem i) := by
  unfold State.raiseItem
  split
  · exact .mk h
  · exact .mk (.ite (.putMemN (.ite (.putMemN h) h)) (.ite (.putMemN h) h))

theorem NextCanon.execAgeing {die entry} {s : State} (h : s.Canon) : NextCanon (execAgeing die entry s) := by
  unfold Machine.execAgeing
  refine .dev ?_
  split
  · exact .ite trivial (.some (.fst (.raiseItem h)))
  · trivial

theorem OnSome.stopWith {s : State} {core fromCmd waiting} (h : s.Canon) : OnSome State.Canon (s.stopWith core fromCmd waiting) := by
  unfold State.stopWith
  dsimp only
  split
  · trivial
  · exact .some (.putMemN (.poolTake h))

theorem OnSome.beginPreempt {s : State} {core fromCmd waiting} (h : s.Canon) :
    OnSome State.Canon (s.beginPreempt core fromCmd waiting) := by
  unfold State.beginPreempt
  exact .bind (Q := State.Canon) (.foldlM (fun _ _ h => .stopWith h) h) fun _ h => .stopWith h

theorem State.Canon.makeRoom {s : State} {die entry n x} (h : s.Canon) : (s.makeRoom die entry n x).Canon := by
  unfold State.makeRoom
  split
  · exact h
  · exact h
  · exact h
  · exact .ite h h
  · split
    · exact OnSome.of_some (OnSome.beginPreempt h) ‹_›
    · exact h

theorem NextCanon.execPlacementBound {die entry} {s : State} (h : s.Canon) : NextCanon (execPlacementBound die entry s) := by
  unfold Machine.execPlacementBound
  refine .dev ?_
  split
  · trivial
  · refine .ite trivial ?_
    split
    · exact .some h
    · exact .some (.makeRoom h)

theorem State.Canon.wake {s : State} {die entry c} (h : s.Canon) : (s.wake die entry c).Canon := by
  unfold State.wake
  exact .poolAdd h

theorem NextCanon.execWaitWake {die entry} {s : State} (h : s.Canon) : NextCanon (execWaitWake die entry s) := by
  unfold Machine.execWaitWake
  refine .dev ?_
  split
  · exact .ite (.some (.wake h)) trivial
  · trivial

theorem NextCanon.execWaitTimeout {w} {s : State} (h : s.Canon) : NextCanon (execWaitTimeout w s) := by
  unfold Machine.execWaitTimeout
  dsimp only
  split
  · refine .dev ?_
    split
    · exact .some (.getD (.boundaryCause h) (.takeCause h))
    · trivial
  · refine .dev ?_
    split
    · exact .ite trivial (.some (.wake h))
    · trivial

theorem NextCanon.execTrapEntry {core seat} {s : State} (h : s.Canon) : NextCanon (execTrapEntry core seat s) := by
  unfold Machine.execTrapEntry
  exact .dev (.ite trivial (.boundaryCause h))

theorem NextCanon.execWatchdog {core seat} {s : State} (h : s.Canon) : NextCanon (execWatchdog core seat s) := by
  unfold Machine.execWatchdog
  refine .dev (.ite trivial ?_)
  split
  · exact .some h
  · exact .some h
  · exact .some h
  · trivial

/-! The operations of Machine/Frame. -/

theorem State.Canon.putParts {s : State} {base ps} (h : s.Canon) : (s.putParts base ps).Canon := by
  unfold State.putParts
  exact .foldl (fun _ _ h => .engineBytes h) h

theorem State.Canon.freshBlocks {s : State} {pa n} (h : s.Canon) : (s.freshBlocks pa n).Canon := by
  unfold State.freshBlocks
  exact .foldl (fun _ _ h => .engineTag h) h

theorem State.Canon.writeFrame {s : State} {core f} (h : s.Canon) : (s.writeFrame core f).Canon := by
  unfold State.writeFrame
  extract_lets c t0 t1 present v0 v1 claimed win offV1 offSlot offWin used asid cleared headed seated
    acc codes leaves patterns vectors slots window
  have hheaded : headed.Canon := .putParts (.freshBlocks (.engineBytes h))
  have hseated : seated.Canon := .foldl (fun _ _ h => .putParts (.putParts h)) hheaded
  have hacc : acc.Canon := .foldl (fun _ _ h => .engineBytes h) hseated
  have hcodes : codes.Canon := .foldl (fun _ _ h => .engineBytes h) hacc
  have hleaves : leaves.Canon := .foldl (fun _ _ h => .engineBytes h) hcodes
  have hpatterns : patterns.Canon := .foldl (fun _ _ h => .engineBytes h) hleaves
  have hslots : slots.Canon := .foldl (fun _ _ h => .foldl (fun _ _ h => .ite h h) (.engineBytes h)) (.putParts hpatterns)
  have hwindow : window.Canon :=
    .foldl (fun _ _ h => .ite (.set_poison (.engineTag (.engineBytes h))) (.engineTag (.engineBytes h))) hslots
  exact .putMemN hwindow

theorem State.Canon.restoreFrame {s : State} {d core f} (h : s.Canon) : (s.restoreFrame d core f).Canon := by
  unfold State.restoreFrame
  refine .returnFrame (.foldl (fun s x h => ?_) h)
  dsimp only
  split <;> exact h

theorem State.Canon.placeWaiting {s : State} {core a2} (h : s.Canon) : (s.placeWaiting core a2).Canon := by
  unfold State.placeWaiting
  split
  · exact h
  · split
    · split
      · exact .ite (.placeSeat h) h
      · exact .ite (.restoreFrame h) h
    · exact h

theorem State.Canon.preEnd {s : State} {d outcome} (h : s.Canon) : (s.preEnd d outcome).Canon := h

theorem State.Canon.saveContext {s : State} {core f fromCmd waiting} (h : s.Canon) : (s.saveContext core f fromCmd waiting).Canon := by
  unfold State.saveContext
  extract_lets dropped flushed ts ended fr written vacated idle pooled
  have hflushed : flushed.Canon := .foldl (fun _ _ h => h) (.dropHeld (.dropHeld h))
  have hended : ended.Canon := .returnFrame hflushed
  have hidle : idle.Canon := by
    refine .foldl (fun s e h => ?_) (.modCore (.writeFrame hflushed))
    dsimp only
    split <;> exact h
  have hpooled : pooled.Canon := .poolAdd hidle
  exact .ite (.placeWaiting (.ite (.preEnd hended) hended)) (.placeWaiting (.ite (.preEnd hpooled) hpooled))

theorem NextCanon.execPreemptSaveComplete {core} {s : State} (h : s.Canon) : NextCanon (execPreemptSaveComplete core s) := by
  unfold Machine.execPreemptSaveComplete
  refine .dev ?_
  split
  · exact .ite (.some (.saveContext h)) trivial
  · trivial

theorem State.Canon.preCmd {s : State} {d lcid} (h : s.Canon) : (s.preCmd d lcid).Canon := by
  unfold State.preCmd
  refine .ite h (.ite h ?_)
  split
  · exact h
  · exact h
  · exact h
  · exact h
  · split
    · exact .modDie (OnSome.of_some (OnSome.beginPreempt h) ‹_›)
    · exact h

theorem NextCanon.execPreemptRequest {lcid} {s : State} (h : s.Canon) : NextCanon (execPreemptRequest lcid s) := by
  unfold Machine.execPreemptRequest
  exact .dev (.some (.preCmd h))

theorem State.Canon.saveLate {s : State} {core} (h : s.Canon) : (s.saveLate core).Canon := by
  unfold State.saveLate
  dsimp only
  split
  · exact .dropSave (.foldl (fun _ _ h => .entryFault h) h)
  · exact .startKill (.foldl (fun _ _ h => .entryFault h) h)

theorem NextCanon.execSaveDeadline {core} {s : State} (h : s.Canon) : NextCanon (execSaveDeadline core s) := by
  unfold Machine.execSaveDeadline
  refine .dev ?_
  split
  · exact .some (.saveLate h)
  · exact .some (.raiseFw (.set_fe (.saveLate h)))
  · trivial

theorem NextCanon.execFrameRestore {die entry core} {s : State} (h : s.Canon) : NextCanon (execFrameRestore die entry core s) := by
  unfold Machine.execFrameRestore
  refine .dev ?_
  split
  · refine .ite ?_ ?_
    · split
      · exact .some (.restoreFrame h)
      · trivial
    · trivial
  · trivial

/-! The operations of Machine/Migrate. -/

theorem State.Canon.setLcid {s : State} {lcid v} (h : s.Canon) : (s.setLcid lcid v).Canon := by
  unfold State.setLcid
  exact .ite h h

theorem NextCanon.execLcidMapWrite {lcid v} {s : State} (h : s.Canon) : NextCanon (execLcidMapWrite lcid v s) := by
  unfold Machine.execLcidMapWrite
  exact .dev (.some (.setLcid h))

theorem State.Canon.stopFor {s : State} {core target} (h : s.Canon) : (s.stopFor core target).Canon := by
  unfold State.stopFor
  split
  · exact .ite (.preEnd (.returnFrame (.putMemN h))) (.returnFrame (.putMemN h))
  · exact h

theorem State.Canon.migrate {s : State} {lcid target} (h : s.Canon) : (s.migrate lcid target).Canon := by
  unfold State.migrate
  refine .ite h (.set_fe ?_)
  split
  · exact .wakeTile (.wakeTile (.stopFor h))
  · exact .wakeTile (.stopFor h)

theorem NextCanon.execMigrationRequest {lcid target} {s : State} (h : s.Canon) : NextCanon (execMigrationRequest lcid target s) := by
  unfold Machine.execMigrationRequest
  exact .dev (.some (.migrate h))

theorem State.Canon.moveSeat {s : State} {a b x} (h : s.Canon) : (s.moveSeat a b x).Canon := by
  unfold State.moveSeat
  dsimp only
  split
  · split <;> exact h
  · exact h

theorem State.Canon.transfer {s : State} {a b lcid outcome} (h : s.Canon) : (s.transfer a b lcid outcome).Canon := by
  unfold State.transfer
  exact .foldl (fun _ _ h => .moveSeat h) h

theorem NextCanon.execMigrationStop {core} {s : State} (h : s.Canon) : NextCanon (execMigrationStop core s) := by
  unfold Machine.execMigrationStop
  refine .dev ?_
  split
  · exact .ite (.some (.transfer h)) trivial
  · exact .ite (.some (.transfer (.dropHeld (.dropHeld h)))) trivial
  · trivial

theorem NextCanon.execMigrationFallback {core} {s : State} (h : s.Canon) : NextCanon (execMigrationFallback core s) := by
  unfold Machine.execMigrationFallback
  refine .dev ?_
  split
  · exact .ite trivial (.some h)
  · trivial

/-! The operations of Machine/Queue. -/

theorem State.Canon.queueError {s : State} {k errptr cause reason tag} (h : s.Canon) : (s.queueError k errptr cause reason tag).Canon := by
  unfold State.queueError
  exact .recordFault h

theorem State.Canon.fetchFault {s : State} {k c} (h : s.Canon) : (s.fetchFault k c).Canon := h

theorem State.Canon.overrun {s : State} {k} (h : s.Canon) : (s.overrun k).Canon := by
  unfold State.overrun
  exact .ite (.queueError h) h

theorem State.Canon.kick {s : State} {q w} (h : s.Canon) : (s.kick q w).Canon := by
  unfold State.kick
  dsimp only
  split
  · exact .ite h h
  · exact .ite (.overrun h) (.ite h h)

theorem NextCanon.execKick {q w} {s : State} (h : s.Canon) : NextCanon (execKick q w s) := by
  unfold Machine.execKick
  exact .dev (.some (.kick h))

theorem State.Canon.mapSlot {s : State} {k} (h : s.Canon) : (s.mapSlot k).Canon := by
  unfold State.mapSlot
  exact .ite h (.ite h (.overrun h))

theorem State.Canon.parkSlot {s : State} {k} (h : s.Canon) : (s.parkSlot k).Canon := by
  unfold State.parkSlot
  exact .ite h h

theorem State.Canon.resumeSlot {s : State} {k} (h : s.Canon) : (s.resumeSlot k).Canon := by
  unfold State.resumeSlot
  exact .ite (.overrun h) (.ite (.overrun h) h)

theorem State.Canon.unmapSlot {s : State} {k} (h : s.Canon) : (s.unmapSlot k).Canon := by
  unfold State.unmapSlot
  exact .ite h h

theorem NextCanon.execMap {slot} {s : State} (h : s.Canon) : NextCanon (execMap slot s) := by
  unfold Machine.execMap
  exact .dev (.some (.mapSlot h))

theorem NextCanon.execPark {slot} {s : State} (h : s.Canon) : NextCanon (execPark slot s) := by
  unfold Machine.execPark
  exact .dev (.some (.parkSlot h))

theorem NextCanon.execResume {slot} {s : State} (h : s.Canon) : NextCanon (execResume slot s) := by
  unfold Machine.execResume
  exact .dev (.some (.resumeSlot h))

theorem NextCanon.execUnmap {slot} {s : State} (h : s.Canon) : NextCanon (execUnmap slot s) := by
  unfold Machine.execUnmap
  exact .dev (.some (.unmapSlot h))

theorem NextCanon.execParkComplete {slot} {s : State} (h : s.Canon) : NextCanon (execParkComplete slot s) := by
  unfold Machine.execParkComplete
  exact .dev (.ite (.some (.mirrorRptr h)) trivial)

theorem Got.Canon.engineReads {s : State} {eng asid use out data ask l} (h : s.Canon) (hask : ∀ t n, t.Canon → (ask t n).Canon) :
    (s.engineReads eng asid use out data ask l).Canon := by
  induction l generalizing s with
  | nil => exact .got h
  | cons e r ih =>
    unfold State.engineReads
    split
    · trivial
    · next p _ =>
      have hnext (b : List Byte) : (match (s.markAt p false).engineReads eng asid use out data ask r with
          | .got u bs => Got.got u (b ++ bs)
          | g => g).Canon := by
        have hr : ((s.markAt p false).engineReads eng asid use out data ask r).Canon := ih (.markAt h)
        split
        · next u bs heq => exact .got (hr.of_eq heq)
        · exact hr
      dsimp only
      refine .ite (.waits h) (.ite ?_ (.ite trivial (hnext _)))
      split
      · exact .ite trivial (hnext _)
      · exact .ite (.waits h) (.waits (hask _ _ (.hostRequest h)))

theorem Got.Canon.feRead {s : State} {k l} (h : s.Canon) : (s.feRead k l).Canon := by
  unfold State.feRead
  exact .engineReads h fun _ _ h => h

theorem State.Canon.setStream {s : State} {k x} (h : s.Canon) : (s.setStream k x).Canon := h
theorem State.Canon.setBlock {s : State} {slot w} (h : s.Canon) : (s.setBlock slot w).Canon := h

theorem State.Canon.fetchPacket {s : State} {k} (h : s.Canon) : (s.fetchPacket k).Canon := by
  unfold State.fetchPacket
  refine .ite (.setBlock h) ?_
  split
  · exact h
  · exact Got.Canon.of_eq (Got.Canon.feRead h) ‹_ = Got.waits _›
  · refine .ite (.queueError (Got.Canon.of_eq (Got.Canon.feRead h) ‹_ = Got.got _ _›)) ?_
    refine .ite (.setBlock (Got.Canon.of_eq (Got.Canon.feRead h) ‹_ = Got.got _ _›)) ?_
    split
    · exact .fetchFault (Got.Canon.of_eq (Got.Canon.feRead h) ‹_ = Got.got _ _›)
    · exact Got.Canon.of_eq (Got.Canon.feRead (Got.Canon.of_eq (Got.Canon.feRead h) ‹_ = Got.got _ _›)) ‹_ = Got.waits _›
    · split
      · exact .queueError (Got.Canon.of_eq (Got.Canon.feRead (Got.Canon.of_eq (Got.Canon.feRead h) ‹_ = Got.got _ _›)) ‹_ = Got.got _ _›)
      · exact .setSlot (Got.Canon.of_eq (Got.Canon.feRead (Got.Canon.of_eq (Got.Canon.feRead h) ‹_ = Got.got _ _›)) ‹_ = Got.got _ _›)

theorem NextCanon.execPacketFetch {slot} {s : State} (h : s.Canon) : NextCanon (execPacketFetch slot s) := by
  unfold Machine.execPacketFetch
  exact .dev (.ite trivial (.some (.fetchPacket h)))

/-! The operations of Machine/Packet. -/

theorem NextCanon.dispatchRow {row slot op} {f : HwSlot → List Byte → State → Option State} {s : State} (h : s.Canon)
    (hf : ∀ x b s, s.Canon → OnSome State.Canon (f x b s)) : NextCanon (dispatchRow row slot op f s) := by
  unfold Machine.dispatchRow
  refine .dev ?_
  dsimp only
  split
  · trivial
  · refine .ite trivial (.ite (.ite (.some (.setBlock h)) (hf _ _ _ h)) (.ite trivial ?_))
    exact .ite (.some (.setBlock h)) (.ite trivial (hf _ _ _ h))

theorem State.Canon.dispatch {s : State} {slot b done entry arg} (h : s.Canon) : (s.dispatch slot b done entry arg).Canon := by
  unfold State.dispatch
  exact .mirrorRptr (.ite h h)

theorem State.Canon.drainEarly {t fuel} {s : State} (h : s.Canon) : (State.drainEarly t fuel s).Canon := by
  induction fuel generalizing s with
  | zero => exact h
  | succ fuel ih =>
    unfold State.drainEarly
    dsimp only
    split
    · exact ih (.increment h)
    · exact h

theorem State.Canon.applyInc {s : State} {t seq cores tag} (h : s.Canon) : (s.applyInc t seq cores tag).Canon := by
  unfold State.applyInc
  exact .drainEarly h

theorem State.Canon.finishPacket {s : State} {id p} (h : s.Canon) : (s.finishPacket id p).Canon := by
  unfold State.finishPacket
  extract_lets _ _ ended disowned faulted counted raised
  have hdisowned : disowned.Canon := by
    unfold disowned
    split <;> exact h
  have hfaulted : faulted.Canon := by
    unfold faulted
    split
    · exact .ite (.recordBit (.recordFault hdisowned)) (.recordFault hdisowned)
    · exact hdisowned
  have hcounted : counted.Canon := by
    unfold counted
    split
    · exact .applyInc hfaulted
    · exact hfaulted
  have hraised : raised.Canon := .ite (.raiseVector hcounted) hcounted
  exact .ite hraised hraised

theorem NextCanon.execPacketComplete {pkt} {s : State} (h : s.Canon) : NextCanon (execPacketComplete pkt s) := by
  unfold Machine.execPacketComplete
  refine .dev ?_
  split
  · exact .ite (.some (.finishPacket h)) trivial
  · trivial

theorem State.Canon.dispatchDone {s : State} {slot b} (h : s.Canon) : (s.dispatchDone slot b).Canon := by
  unfold State.dispatchDone
  dsimp only
  split
  · exact .ite (.finishPacket (.dispatch h)) (.dispatch h)
  · exact .dispatch h

theorem NextCanon.execNopPacket {slot} {s : State} (h : s.Canon) : NextCanon (execNopPacket slot s) := by
  unfold Machine.execNopPacket
  exact .dispatchRow h fun _ _ _ h => .some (.dispatchDone h)

theorem State.Canon.takeEntry {s : State} {n h' b live} (h : s.Canon) : (s.takeEntry n h' b live).Canon := h

theorem State.Canon.wakeMask {s : State} {mask} (h : s.Canon) : (s.wakeMask mask).Canon := by
  unfold State.wakeMask
  exact .foldl (fun _ _ h => .ite (.wakeTile h) h) h

theorem OnSome.tileMask {s : State} {slot b} (h : s.Canon) : OnSome Got.Canon (s.tileMask slot b) := by
  unfold State.tileMask
  exact .ite trivial (.some (.feRead h))

theorem State.Canon.launchAll {s : State} {hd b entry} (h : s.Canon) : (s.launchAll hd b entry).Canon := by
  unfold State.launchAll
  exact .foldl (fun _ _ h => .poolAddIf h) h

theorem NextCanon.execLaunch {slot} {s : State} (h : s.Canon) : NextCanon (execLaunch slot s) := by
  unfold Machine.execLaunch
  refine .dispatchRow h fun _ b s h => .ite (.some (.queueError h)) ?_
  have hm : OnSome Got.Canon (s.tileMask slot b) := .tileMask h
  split
  · exact .some (.setBlock h)
  · split
    · exact .some (.launchAll (.dispatch h))
    · exact .some (.fetchFault h)
    · next t heq =>
      have ht : t.Canon := hm.of_some heq
      exact .some ht
    · next t _ heq =>
      have ht : t.Canon := hm.of_some heq
      exact .some (.launchAll (.dispatch (.takeEntry (.wakeMask ht))))

theorem OnSome.gangMember {s : State} {hd b entry p gy} (h : s.Canon) : OnSome State.Canon (s.gangMember hd b entry p gy) := by
  unfold State.gangMember
  exact .map .any fun _ _ => .placeSeat h

theorem OnSome.gangAll {s : State} {hd b entry} (h : s.Canon) : OnSome State.Canon (s.gangAll hd b entry) := by
  unfold State.gangAll
  exact .foldlM (fun _ _ h => .gangMember h) h

theorem State.Canon.gangTry {s : State} {slot hd b} (h : s.Canon) : (s.gangTry slot hd b).Canon := by
  unfold State.gangTry
  dsimp only
  split
  · exact h
  · split
    · next t heq => exact .dispatch (OnSome.of_eq heq (.gangAll h))
    · exact h

theorem NextCanon.execGang {slot} {s : State} (h : s.Canon) : NextCanon (execGang slot s) := by
  unfold Machine.execGang
  refine .dispatchRow h fun _ b s h => .ite trivial (.ite (.some (.queueError h)) ?_)
  have hm : OnSome Got.Canon (s.tileMask slot b) := .tileMask h
  split
  · exact .some (.fetchFault h)
  · next t heq =>
    have ht : t.Canon := hm.of_some heq
    exact .some ht
  · next t _ heq =>
    have ht : t.Canon := hm.of_some heq
    exact .some (.gangTry (.wakeMask ht))
  · exact .some (.gangTry (.foldl (fun _ _ h => .foldl (fun _ _ h => .ite h (.wakeTile h)) h) h))

theorem NextCanon.execGangRetry {slot} {s : State} (h : s.Canon) : NextCanon (execGangRetry slot s) := by
  unfold Machine.execGangRetry
  exact .dispatchRow h fun _ _ _ h => .ite (.some (.gangTry h)) trivial

theorem NextCanon.execGangBound {slot} {s : State} (h : s.Canon) : NextCanon (execGangBound slot s) := by
  unfold Machine.execGangBound
  exact .dev (.ite (.some h) trivial)

theorem State.Canon.requeue {s : State} {pa c} (h : s.Canon) : (s.requeue pa c).Canon := by
  unfold State.requeue
  exact .poolAdd h

theorem State.Canon.sigMiss {s : State} {slot b} (h : s.Canon) : (s.sigMiss slot b).Canon := by
  unfold State.sigMiss
  exact .dispatchDone (.recordBit h)

theorem OnSome.signal {s : State} {slot hd b} (h : s.Canon) : OnSome State.Canon (s.signal slot hd b) := by
  have stop {t : State} {c : Cause} (ht : t.Canon) :
      ((t.setSlot slot { t.slotAt slot with casOut := false }).queueError slot hd.rptr c.1 0 (pktTag b)).Canon :=
    .queueError (.setSlot ht)
  unfold State.signal
  conv => zeta
  split
  · exact .some (stop h)
  · next t heq => exact .ite trivial (.some ((Got.Canon.feRead h).of_eq heq))
  · next t bs heq =>
    have ht : t.Canon := (Got.Canon.feRead h).of_eq heq
    split
    · exact .ite (.some (stop ht)) (.ite (.some (.dispatchDone (.requeue ht))) (.some (.sigMiss ht)))
    · refine .ite (.some (.sigMiss ht)) ?_
      split
      · exact .some (stop (.engineFail ht))
      · next p _ =>
        have hm : (t.markAt p true).Canon := .markAt ht
        have ha : SndCanon ((t.markAt p true).amoAt p.pa .cas 8 (contOf bs).requeued.w0 (contOf bs).w0) := .amoAt hm
        generalize (t.markAt p true).amoAt p.pa .cas 8 (contOf bs).requeued.w0 (contOf bs).w0 = r at ha
        exact .ite trivial (.ite (.some (.setSlot (.hostRequest hm)))
          (.ite (.some (.dispatchDone (.requeue ha.snd))) (.some (.sigMiss ha.snd))))

theorem NextCanon.execSignal {slot} {s : State} (h : s.Canon) : NextCanon (execSignal slot s) := by
  unfold Machine.execSignal
  exact .dispatchRow h fun _ _ _ h => .signal h

theorem NextCanon.execWaittlPacket {slot} {s : State} (h : s.Canon) : NextCanon (execWaittlPacket slot s) := by
  unfold Machine.execWaittlPacket
  exact .dispatchRow h fun _ _ _ h => .some (.dispatch h)

theorem NextCanon.execWaittlPacketTimeout {slot} {s : State} (h : s.Canon) : NextCanon (execWaittlPacketTimeout slot s) := by
  unfold Machine.execWaittlPacketTimeout
  refine .dev ?_
  split
  · refine .some ?_
    split
    · exact .queueError (.ite (.finishPacket h) h)
    · exact .recordFault (.ite (.finishPacket h) h)
  · trivial

theorem NextCanon.execBtePacket {slot} {s : State} (h : s.Canon) : NextCanon (execBtePacket slot s) := by
  unfold Machine.execBtePacket
  exact .dispatchRow h fun _ _ _ h => .ite trivial (.some (.startBte (.dispatch h)))

theorem NextCanon.execKill {slot} {s : State} (h : s.Canon) : NextCanon (execKill slot s) := by
  unfold Machine.execKill
  exact .dispatchRow h fun _ _ _ h => .some (.startKill (.dispatch h))

theorem NextCanon.execKillComplete {asid} {s : State} (h : s.Canon) : NextCanon (execKillComplete asid s) := by
  unfold Machine.execKillComplete
  refine .dev ?_
  split
  · exact .ite trivial (.some h)
  · trivial

theorem NextCanon.execFencePacket {slot} {s : State} (h : s.Canon) : NextCanon (execFencePacket slot s) := by
  unfold Machine.execFencePacket
  exact .dispatchRow h fun _ _ _ h => .some (.dispatch h)

theorem NextCanon.execMarker {slot} {s : State} (h : s.Canon) : NextCanon (execMarker slot s) := by
  unfold Machine.execMarker
  dsimp only
  refine .dispatchRow h fun _ _ _ h => ?_
  split
  · exact .some (.queueError (.engineFail h))
  · exact .ite trivial (.some (.dispatchDone (.engineWriteBy (.markAt h))))

theorem State.Canon.tladd {s : State} {t v} (h : s.Canon) : (s.tladd t v).Canon := by
  unfold State.tladd
  exact .ite h (.mirror h)

theorem NextCanon.execTladd {tl v} {s : State} (h : s.Canon) : NextCanon (execTladd tl v s) := by
  unfold Machine.execTladd
  exact .dev (.some (.tladd h))

/-! The operations of Machine/Maintain. -/

theorem OnSome.shoot {s : State} {asid kind} (h : s.Canon) : OnSome State.Canon (s.shoot asid kind) := by
  unfold State.shoot
  exact .ite trivial (.ite (.some h) (.some h))

theorem NextCanon.execTlbiRange {asid} {s : State} (h : s.Canon) : NextCanon (execTlbiRange asid s) := by
  unfold Machine.execTlbiRange
  exact .dev (.shoot h)

theorem NextCanon.execTlbiAsid {asid} {s : State} (h : s.Canon) : NextCanon (execTlbiAsid asid s) := by
  unfold Machine.execTlbiAsid
  exact .dev (.shoot h)

theorem NextCanon.execTlbiGlobalRange {s : State} (h : s.Canon) : NextCanon (execTlbiGlobalRange s) := by
  unfold Machine.execTlbiGlobalRange
  exact .dev (.shoot h)

theorem NextCanon.execTlbiAll {s : State} (h : s.Canon) : NextCanon (execTlbiAll s) := by
  unfold Machine.execTlbiAll
  exact .dev (.shoot h)

theorem NextCanon.execTlbiReserved {kind} {s : State} (h : s.Canon) : NextCanon (execTlbiReserved kind s) := by
  unfold Machine.execTlbiReserved
  exact .dev (.ite trivial (.shoot h))

theorem NextCanon.execTlbiComplete {s : State} (h : s.Canon) : NextCanon (execTlbiComplete s) := by
  unfold Machine.execTlbiComplete
  refine .dev ?_
  split
  · exact .ite (.some h) trivial
  · trivial

theorem State.Canon.pinPage {s : State} {slice i ppn} (h : s.Canon) : (s.pinPage slice i ppn).Canon := by
  unfold State.pinPage
  exact .ite h h

theorem State.Canon.unpinPage {s : State} {slice i} (h : s.Canon) : (s.unpinPage slice i).Canon := by
  unfold State.unpinPage
  exact .ite h h

theorem NextCanon.execPin {slice entry ppn} {s : State} (h : s.Canon) : NextCanon (execPin slice entry ppn s) := by
  unfold Machine.execPin
  exact .dev (.some (.pinPage h))

theorem NextCanon.execUnpin {slice entry} {s : State} (h : s.Canon) : NextCanon (execUnpin slice entry s) := by
  unfold Machine.execUnpin
  exact .dev (.some (.unpinPage h))

theorem State.Canon.sliceOff {s : State} {cl} (h : s.Canon) : (s.sliceOff cl).Canon := by
  unfold State.sliceOff
  exact .ite (.emptyL2 h) h

theorem NextCanon.execPinComplete {slice entry} {s : State} (h : s.Canon) : NextCanon (execPinComplete slice entry s) := by
  unfold Machine.execPinComplete
  exact .dev (.ite trivial (.some (.resumeHeld (.hostRelease (.sliceOff (.foldl (fun _ _ h => .writeBack h) h))))))

/-! The operations of Machine/Reliab. -/

theorem State.Canon.scanStart {s : State} {die k} (h : s.Canon) : (s.scanStart die k).Canon := by
  unfold State.scanStart
  exact .ite h (.ite h (.emptyL1 h))

theorem NextCanon.execScanRequest {die core} {s : State} (h : s.Canon) : NextCanon (execScanRequest die core s) := by
  unfold Machine.execScanRequest
  exact .dev (.some (.scanStart h))

theorem State.Canon.certifyAll {s : State} (h : s.Canon) : s.certifyAll.Canon := by
  unfold State.certifyAll
  exact .foldl (fun _ _ h => .certify h) h

theorem State.Canon.suspect {s : State} {core} (h : s.Canon) : (s.suspect core).Canon := by
  unfold State.suspect
  exact .foldl (fun _ _ h => .recordFault h) h

theorem NextCanon.execScanComplete {die cluster pass} {s : State} (h : s.Canon) : NextCanon (execScanComplete die cluster pass s) := by
  unfold Machine.execScanComplete
  dsimp only
  refine .dev ?_
  split
  · trivial
  · exact .some (.ite (.certifyAll h) (.reportPools (.suspect h)))

theorem State.Canon.suspAck {s : State} {t} (h : s.Canon) : (s.suspAck t).Canon := by
  unfold State.suspAck
  exact .certify h

theorem NextCanon.execSuspack {tl} {s : State} (h : s.Canon) : NextCanon (execSuspack tl s) := by
  unfold Machine.execSuspack
  exact .dev (.some (.suspAck h))

theorem State.Canon.applyTopo {s : State} (h : s.Canon) : s.applyTopo.Canon := by
  unfold State.applyTopo
  exact .ite h (.reportPools (.ite h h))

theorem NextCanon.execApply {s : State} (h : s.Canon) : NextCanon (execApply s) := by
  unfold Machine.execApply
  exact .dev (.some (.applyTopo h))

theorem State.Canon.poisonBlock {s : State} {pa} (h : s.Canon) : (s.poisonBlock pa).Canon := by
  unfold State.poisonBlock
  exact .engineTag h

theorem State.Canon.freshLine {s : State} {line} (h : s.Canon) : (s.freshLine line).Canon := by
  unfold State.freshLine
  split
  · exact .ite h h
  · exact h

theorem State.Canon.refetch {s : State} {i} (h : s.Canon) : (s.refetch i).Canon := by
  unfold State.refetch
  split
  · exact .ite (.evictL1 h) (.freshLine h)
  · exact .ite (.evictL2 h) (.freshLine h)
  · exact h

theorem State.Canon.consumeInto {s : State} {core x sd vd acc} (h : s.Canon) : (s.consumeInto core x sd vd acc).Canon := by
  unfold State.consumeInto
  exact .foldl (fun _ _ h => h) h

theorem OnSome.consumeEngine {s : State} {core id a3} (h : s.Canon) : OnSome State.Canon (s.consumeEngine core id a3) := by
  unfold State.consumeEngine
  split
  · exact .some (.endCopy h)
  · exact .some h
  · exact .some (.kvEnd h)
  · exact .some h
  · trivial

theorem OnSome.detect {s : State} {e} (h : s.Canon) : OnSome State.Canon (s.detect e) := by
  unfold State.detect
  split
  · split
    · trivial
    · exact .some h
  · exact .ite (.some (.refetch h)) trivial
  · exact .map .any fun _ _ => .logEvent (.poisonBlock h)
  · exact .ite (.some (.consume (.ite (.consumeInto h) h))) trivial
  · split
    · exact .consumeEngine h
    · trivial

theorem NextCanon.execErrorDetected {e} {s : State} (h : s.Canon) : NextCanon (execErrorDetected e s) := by
  unfold Machine.execErrorDetected
  exact .dev (.detect h)

/-! The operations of Machine/Net. -/

theorem State.Canon.startWake {s : State} {cause} (h : s.Canon) : (s.startWake cause).Canon := by
  unfold State.startWake
  exact .ite h h

theorem State.Canon.deliver {s : State} {port b} (h : s.Canon) : (s.deliver port b).Canon := by
  unfold State.deliver
  split
  · exact .fragment h
  · exact h

theorem State.Canon.holdFrame {s : State} {port b} (h : s.Canon) : (s.holdFrame port b).Canon := by
  unfold State.holdFrame
  exact .ite h h

theorem NextCanon.execEthFrameReceive {port frame} {s : State} (h : s.Canon) : NextCanon (execEthFrameReceive port frame s) := by
  unfold Machine.execEthFrameReceive
  refine .dev (.ite trivial (.ite (.ite trivial (.some (.deliver h))) (.ite trivial (.ite ?_ ?_))))
  · exact .some (.holdFrame h)
  · exact .ite (.some (.holdFrame (.startWake h))) (.ite (.some (.deliver h)) (.some h))

theorem State.Canon.retryColls {s : State} (h : s.Canon) : s.retryColls.Canon := by
  unfold State.retryColls
  refine .foldl (fun s c h => .foldl (fun s e h => ?_) h) h
  split
  · exact .collGo h
  · exact h

theorem NextCanon.execEthLinkChange {port up} {s : State} (h : s.Canon) : NextCanon (execEthLinkChange port up s) := by
  unfold Machine.execEthLinkChange
  exact .dev (.ite trivial (.some (.retryColls h)))

theorem NextCanon.execTustep {v} {s : State} (h : s.Canon) : NextCanon (execTustep v s) := by
  unfold Machine.execTustep
  exact .dev (.some h)

/-! The operations of Machine/Media. -/

theorem State.Canon.mediaBlock {s : State} {asid va bs tag} (h : s.Canon) : (s.mediaBlock asid va bs tag).Canon := by
  unfold State.mediaBlock
  split
  · exact .engineFail h
  · exact .ite (.engineWrite (.markAt h)) (.wholeTag (.engineWrite (.markAt h)))

theorem State.Canon.mediaPut {s : State} {asid va bs tag} (h : s.Canon) : (s.mediaPut asid va bs tag).Canon := by
  unfold State.mediaPut
  exact .foldl (fun _ _ h => .mediaBlock h) h

theorem Got.Canon.mediaRead {s : State} {k l} (h : s.Canon) : (s.mediaRead k l).Canon := by
  unfold State.mediaRead
  exact .engineReads h fun _ _ h => h

theorem State.Canon.modStream {s : State} {k f} (h : s.Canon) : (s.modStream k f).Canon := h
theorem State.Canon.streamCount {s : State} {k c n} (h : s.Canon) : (s.streamCount k c n).Canon := h

theorem State.Canon.streamRise {s : State} {k n} (h : s.Canon) : (s.streamRise k n).Canon := by
  unfold State.streamRise
  exact .mirror h

theorem Got.Canon.fillMissing {s : State} {k x f l p} (h : s.Canon) : (s.fillMissing k x f l p).Canon := by
  unfold State.fillMissing
  dsimp only
  split
  · split
    · exact .got (.mediaPut (Got.Canon.of_eq (Got.Canon.mediaRead h) ‹_ = Got.got _ _›))
    · exact .waits (Got.Canon.of_eq (Got.Canon.mediaRead h) ‹_ = Got.waits _›)
    · exact .got (.mediaPut h)
  · exact .got h
  · exact .got (.mediaPut h)

theorem Got.Canon.fillAll {s : State} {k x f l} (h : s.Canon) : (s.fillAll k x f l).Canon := by
  induction l generalizing s with
  | nil => exact .got h
  | cons e r ih =>
    have hg : (s.fillMissing k x f e.1 e.2).Canon := .fillMissing h
    unfold State.fillAll
    split
    · next t _ heq => exact ih (hg.of_eq heq)
    · exact hg

theorem State.Canon.mediaWrite {s : State} {asid va bs} (h : s.Canon) : (s.mediaWrite asid va bs).Canon := by
  unfold State.mediaWrite
  split
  · exact .engineWrite (.markAt h)
  · exact .engineFail h

theorem State.Canon.mediaTail {s : State} {asid va} (h : s.Canon) : (s.mediaTail asid va).Canon := by
  unfold State.mediaTail
  split
  · exact .ite (.markAt h) (.engineBytes (.writeBack (.markAt h)))
  · exact .engineFail h

theorem State.Canon.writeRecord {s : State} {k x f miss coarse map} (h : s.Canon) : (s.writeRecord k x f miss coarse map).Canon := by
  unfold State.writeRecord
  exact .ite (.raiseVector (.recordBit (.streamRise (.mediaTail (.mediaWrite h))))) (.streamRise (.mediaTail (.mediaWrite h)))

theorem Got.Canon.closeHead {s : State} {k} (h : s.Canon) : (s.closeHead k).Canon := by
  unfold State.closeHead
  dsimp only
  split
  · exact .got h
  · refine .ite (.got (.modStream (.recordBit (.streamRise h)))) ?_
    split
    · split
      · next t _ heq =>
        have ht : t.Canon := (Got.Canon.fillAll h).of_eq heq
        exact .got (.modStream (.writeRecord (.ite ht (.mediaPut ht))))
      · exact .fillAll h
    · exact .got (.modStream (.writeRecord (.mediaPut h)))
    · exact .got (.modStream (.writeRecord (.mediaPut h)))

theorem State.Canon.streamAdvance {k fuel} {s : State} (h : s.Canon) : (State.streamAdvance k fuel s).Canon := by
  induction fuel generalizing s with
  | zero => exact h
  | succ fuel ih =>
    unfold State.streamAdvance
    dsimp only
    split
    · exact h
    · refine .ite h (.ite (ih (.streamRise h)) (.ite ?_ h))
      split
      · next t _ heq => exact ih ((Got.Canon.closeHead h).of_eq heq)
      · exact h

theorem State.Canon.advance {s : State} {k} (h : s.Canon) : (s.advance k).Canon := by
  unfold State.advance
  exact .streamAdvance h

theorem NextCanon.execFrameStart {stream} {s : State} (h : s.Canon) : NextCanon (execFrameStart stream s) := by
  unfold Machine.execFrameStart
  extract_lets x d start
  have hstart {t : State} {skip slot} (ht : t.Canon) : (start t skip slot).Canon :=
    .ite (.raiseVector (.streamCount (.modStream ht))) (.modStream ht)
  refine .dev (.ite trivial (.ite (.some (hstart h)) ?_))
  split
  · next t heq => exact .some ((Got.Canon.mediaRead h).of_eq heq)
  · exact .some (hstart h)
  · next t _ heq =>
    have ht : t.Canon := (Got.Canon.mediaRead h).of_eq heq
    exact .ite (.some (hstart ht)) (.some (hstart ht))

theorem NextCanon.execFrameDeadline {stream} {s : State} (h : s.Canon) : NextCanon (execFrameDeadline stream s) := by
  unfold Machine.execFrameDeadline
  refine .dev (.ite trivial ?_)
  split
  · exact .some (.advance (Got.Canon.of_eq (Got.Canon.closeHead h) ‹_ = Got.got _ _›))
  · exact .some (Got.Canon.of_eq (Got.Canon.closeHead h) ‹_ = Got.waits _›)
  · trivial

theorem FstCanon.placePart {s : State} {x f q} (h : s.Canon) : FstCanon (s.placePart x f q) := by
  unfold State.placePart
  exact .ite (.mk h) (.ite (.mk (.foldl (fun _ _ h => .mediaPut h) h)) (.mk h))

theorem State.Canon.placeIn {s : State} {k n path pkt} (h : s.Canon) : (s.placeIn k n path pkt).Canon := by
  unfold State.placeIn
  dsimp only
  split
  · exact h
  · refine .modStream (.fst (.ite (.mk h) ?_))
    split
    · exact .foldl (fun _ _ h => .placePart h.fst) (.mk h)
    · exact .mk h
    · exact .mk h

theorem OnSome.rtp {s : State} {k path pkt} (h : s.Canon) : OnSome State.Canon (s.rtp k path pkt) := by
  unfold State.rtp
  dsimp only
  refine .ite (.some (.streamCount (.modStream (.streamCount h)))) ?_
  split
  · trivial
  · refine .ite trivial (.ite ?_ ?_)
    · exact .some (.streamCount (.modStream (.streamCount h)))
    · exact .some (.advance (.modStream (.foldl (fun _ _ h => .placeIn h) (.modStream (.streamCount h)))))

theorem NextCanon.execRtpPacketReceive {stream path pkt} {s : State} (h : s.Canon) :
    NextCanon (execRtpPacketReceive stream path pkt s) := by
  unfold Machine.execRtpPacketReceive
  exact .dev (.ite trivial (.rtp h))

theorem State.Canon.mediaFail {s : State} {slot hd b c reason} (h : s.Canon) : (s.mediaFail slot hd b c reason).Canon := by
  unfold State.mediaFail
  exact .queueError (.dispatchDone h)

theorem NextCanon.streamRow {row slot op} {f : HwSlot → List Byte → State → Option State} {s : State} (h : s.Canon)
    (hf : ∀ x b s, s.Canon → OnSome State.Canon (f x b s)) : NextCanon (streamRow row slot op f s) := by
  unfold Machine.streamRow
  exact .dispatchRow h fun _ _ _ h => .ite (hf _ _ _ h) trivial

theorem NextCanon.execOpen {slot} {s : State} (h : s.Canon) : NextCanon (execOpen slot s) := by
  unfold Machine.execOpen
  refine .streamRow h fun _ _ _ h => ?_
  split
  · exact .some (Got.Canon.of_eq (Got.Canon.feRead h) ‹_ = Got.waits _›)
  · exact .some (.mediaFail h)
  · refine .ite (.some (.mediaFail (Got.Canon.of_eq (Got.Canon.feRead h) ‹_ = Got.got _ _›))) ?_
    split
    · exact .some (.mediaFail (Got.Canon.of_eq (Got.Canon.feRead h) ‹_ = Got.got _ _›))
    · exact .some (.dispatchDone (.setStream (Got.Canon.of_eq (Got.Canon.feRead h) ‹_ = Got.got _ _›)))

theorem NextCanon.execBuffers {slot} {s : State} (h : s.Canon) : NextCanon (execBuffers slot s) := by
  unfold Machine.execBuffers
  dsimp only
  refine .streamRow h fun _ _ _ h => ?_
  split
  · exact .some (.mediaFail h)
  · exact .some (.dispatchDone (.modStream h))

theorem Got.Canon.closeAll {k fuel} {s : State} (h : s.Canon) : (State.closeAll k fuel s).Canon := by
  induction fuel generalizing s with
  | zero => exact .got h
  | succ fuel ih =>
    have hg : (s.closeHead k).Canon := .closeHead h
    unfold State.closeAll
    split
    · next t _ heq => exact ih (hg.of_eq heq)
    · exact hg

theorem NextCanon.execClose {slot} {s : State} (h : s.Canon) : NextCanon (execClose slot s) := by
  unfold Machine.execClose
  refine .streamRow h fun _ _ _ h => .ite trivial ?_
  split
  · exact .some (.dispatchDone (.setStream (Got.Canon.of_eq (Got.Canon.closeAll h) ‹_ = Got.got _ _›)))
  · exact .some (Got.Canon.of_eq (Got.Canon.closeAll h) ‹_ = Got.waits _›)
  · trivial

theorem NextCanon.execSend {slot} {s : State} (h : s.Canon) : NextCanon (execSend slot s) := by
  unfold Machine.execSend
  exact .streamRow h fun _ _ _ h => .some (.modStream (.dispatch h))

theorem FstCanon.sentLines {s : State} {k l} (h : s.Canon) : FstCanon (s.sentLines k l) := by
  induction l generalizing s with
  | nil => exact .mk h
  | cons e r ih =>
    have hg : (s.mediaRead k (cut64 (e.2 / 64 + 2) e.1 e.2)).Canon := .mediaRead h
    unfold State.sentLines
    dsimp only
    split
    · next t b heq => exact .mk (ih (hg.of_eq heq)).fst
    · exact .mk (ih h).fst
    · next t heq => exact .mk (hg.of_eq heq)

theorem NextCanon.execFrameTransmit {stream} {s : State} (h : s.Canon) : NextCanon (execFrameTransmit stream s) := by
  unfold Machine.execFrameTransmit
  extract_lets x d
  refine .dev (.ite trivial ?_)
  split
  · trivial
  · extract_lets lines
    split
    · next t heq => exact .some ((FstCanon.sentLines h).of_eq heq)
    · next t ls heq =>
      have ht : t.Canon := (FstCanon.sentLines h).of_eq heq
      extract_lets n counted dual rest _ sent risen
      have hdual : dual.Canon := .ite (.streamCount (.streamCount ht)) (.streamCount ht)
      have hrisen : risen.Canon := .streamRise (.set_net_fresh (.modStream hdual))
      refine .some ?_
      split
      · exact .ite (.finishPacket hrisen) hrisen
      · exact hrisen

/-! The operations of Machine/Power. -/

theorem NextCanon.execTileIdleRet {core} {s : State} (h : s.Canon) : NextCanon (execTileIdleRet core s) := by
  unfold Machine.execTileIdleRet
  exact .dev (.ite (.some h) trivial)

theorem State.Canon.tileOff {s : State} {core tripped} (h : s.Canon) : (s.tileOff core tripped).Canon := by
  unfold State.tileOff
  exact .sliceOff h

theorem NextCanon.execTileIdleOff {core} {s : State} (h : s.Canon) : NextCanon (execTileIdleOff core s) := by
  unfold Machine.execTileIdleOff
  exact .dev (.ite (.some (.tileOff (.emptyL1 h))) trivial)

theorem NextCanon.execTileWakeComplete {core} {s : State} (h : s.Canon) : NextCanon (execTileWakeComplete core s) := by
  unfold Machine.execTileWakeComplete
  refine .dev ?_
  split
  · exact .some h
  · exact .ite (.some h) trivial
  · trivial

theorem NextCanon.execThermalWarn {core} {s : State} (h : s.Canon) : NextCanon (execThermalWarn core s) := by
  unfold Machine.execThermalWarn
  exact .dev (.some h)

theorem NextCanon.execThermalThrottle {core} {s : State} (h : s.Canon) : NextCanon (execThermalThrottle core s) := by
  unfold Machine.execThermalThrottle
  exact .dev (.ite trivial (.some h))

theorem NextCanon.execThrottleEnd {core} {s : State} (h : s.Canon) : NextCanon (execThrottleEnd core s) := by
  unfold Machine.execThrottleEnd
  exact .dev (.ite (.some h) trivial)

theorem NextCanon.execThermalTrip {core} {s : State} (h : s.Canon) : NextCanon (execThermalTrip core s) := by
  unfold Machine.execThermalTrip
  extract_lets end_ ended
  have hend {t : State} {x} (ht : t.Canon) : (end_ t x).Canon := by
    refine .ite ht ?_
    split <;> exact .fatal ht
  exact .dev (.ite trivial (.some (.set_power (.raisePower (.tileOff (.loseL1 (hend (hend h))))))))

theorem NextCanon.execTrippedTileCooled {core} {s : State} (h : s.Canon) : NextCanon (execTrippedTileCooled core s) := by
  unfold Machine.execTrippedTileCooled
  exact .dev (.ite (.some h) trivial)

theorem NextCanon.execPowerCap {s : State} (h : s.Canon) : NextCanon (execPowerCap s) := by
  unfold Machine.execPowerCap
  exact .dev (.ite trivial (.some h))

theorem NextCanon.execPowerCapRelease {s : State} (h : s.Canon) : NextCanon (execPowerCapRelease s) := by
  unfold Machine.execPowerCapRelease
  exact .dev (.ite (.some h) trivial)

theorem State.Canon.setTarget {s : State} {target} (h : s.Canon) : (s.setTarget target).Canon := by
  unfold State.setTarget
  exact .ite h (.ite (.startWake h) (.ite h (.ite h h)))

theorem NextCanon.targetRow {row t} {s : State} (h : s.Canon) : NextCanon (targetRow row t s) := by
  unfold Machine.targetRow
  exact .dev (.ite trivial (.some (.setTarget h)))

theorem NextCanon.execAlarm {s : State} (h : s.Canon) : NextCanon (execAlarm s) := by
  unfold Machine.execAlarm
  exact .dev (.ite (.some (.startWake h)) trivial)

theorem State.Canon.powerLoss {s : State} (h : s.Canon) : s.powerLoss.Canon := filter_wf s.mem _ h

theorem NextCanon.execPowerLoss {s : State} (h : s.Canon) : NextCanon (execPowerLoss s) := by
  unfold Machine.execPowerLoss
  exact .dev (.ite trivial (.some (.powerLoss h)))

theorem State.Canon.abortPacket {s : State} {id p} (h : s.Canon) : (s.abortPacket id p).Canon := by
  unfold State.abortPacket
  exact .finishPacket (.recordBit (.recordFault h))

theorem State.Canon.parkLost {s : State} {k} (h : s.Canon) : (s.parkLost k).Canon := by
  unfold State.parkLost
  exact .ite (.mirrorRptr h) h

theorem State.Canon.recover {s : State} (h : s.Canon) : s.recover.Canon := by
  unfold State.recover
  extract_lets parked aborted _ _ _ lost headed
  have haborted : aborted.Canon := .foldl (fun _ _ h => .abortPacket h) (.foldl (fun _ _ h => .parkLost h) h)
  have hheaded : headed.Canon := .foldl (fun _ _ h => .putHeader h) haborted
  exact .reportPools (.foldl (fun _ _ h => .foldl (fun _ _ h => .ite h (.wakeFor h)) h) hheaded)

theorem NextCanon.execWakeComplete {s : State} (h : s.Canon) : NextCanon (execWakeComplete s) := by
  unfold Machine.execWakeComplete
  refine .dev (.ite ?_ ?_)
  · trivial
  · exact .some (.resumeHeld (.raiseVector (.raisePower (.foldl (fun _ _ h => .deliver h) (.set_net (.ite (.recover h) h))))))

/-! The operations of Machine/Security. -/

theorem State.Canon.loadTcm {s : State} {img} (h : s.Canon) : (s.loadTcm img).Canon := by
  unfold State.loadTcm
  exact .foldl (fun _ _ h => h) h

theorem State.Canon.boot {s : State} {slot svn reason} (h : s.Canon) : (s.boot slot svn reason).Canon := by
  unfold State.boot
  exact .loadTcm h

theorem State.Canon.coldStart {s : State} {keyA keyB} (h : s.Canon) : (s.coldStart keyA keyB).Canon := by
  unfold State.coldStart
  dsimp only
  split
  · exact .boot h
  · split
    · exact .boot h
    · exact h

theorem NextCanon.execColdStart {keyA keyB} {s : State} (h : s.Canon) : NextCanon (execColdStart keyA keyB s) := by
  unfold Machine.execColdStart
  exact .dev (.ite trivial (.some (.coldStart h)))

theorem State.Canon.secAsk {s : State} {c} (h : s.Canon) : (s.secAsk c).Canon := by
  unfold State.secAsk
  split
  · exact h
  · exact .ite h h

theorem State.Canon.secCommand {s : State} {cmd} (h : s.Canon) : (s.secCommand cmd).Canon := by
  unfold State.secCommand
  exact .ite h (.ite h (.ite (.secAsk h) (.ite (.secAsk h) h)))

theorem NextCanon.execInstall {s : State} (h : s.Canon) : NextCanon (execInstall s) := by
  unfold Machine.execInstall
  exact .dev (.some (.secCommand h))

theorem NextCanon.execAdvance {s : State} (h : s.Canon) : NextCanon (execAdvance s) := by
  unfold Machine.execAdvance
  exact .dev (.some (.secCommand h))

theorem NextCanon.execAttest {s : State} (h : s.Canon) : NextCanon (execAttest s) := by
  unfold Machine.execAttest
  exact .dev (.some (.secCommand h))

theorem NextCanon.execTcmopen {s : State} (h : s.Canon) : NextCanon (execTcmopen s) := by
  unfold Machine.execTcmopen
  exact .dev (.some (.secCommand h))

theorem State.Canon.secHostDone {s : State} {data} (h : s.Canon) : (s.secHostDone data).Canon := by
  unfold State.secHostDone
  split
  · exact h
  · split
    · exact .secAsk h
    · exact h

theorem FstCanon.attestEnd {s : State} {c rand} (h : s.Canon) : FstCanon (s.attestEnd c rand) := by
  have hdef : State.attestEnd = State.attestEnd := rfl
  conv_rhs at hdef => delta State.attestEnd
  rw [hdef]
  beta_reduce
  refine .ite (.mk h) ?_
  split
  · exact .mk (.engineWrite h)
  · exact .mk h

theorem FstCanon.installEnd {s : State} {c key} (h : s.Canon) : FstCanon (s.installEnd c key) := by
  have hdef : State.installEnd = State.installEnd := rfl
  conv_rhs at hdef => delta State.installEnd
  rw [hdef]
  beta_reduce
  split
  · exact .mk h
  · split
    · exact .mk h
    · exact .mk (.ite h (.boot h))

theorem NextCanon.execSecurityCommandComplete {key rand} {s : State} (h : s.Canon) :
    NextCanon (execSecurityCommandComplete key rand s) := by
  unfold Machine.execSecurityCommandComplete
  refine .dev ?_
  split
  · trivial
  · refine .ite trivial (.some (.set_sec (.fst ?_)))
    split
    · exact .installEnd h
    · exact .mk h
    · exact .attestEnd h
    · exact .mk h

/-! The operations of Machine/Ctl. -/

theorem State.Canon.writeSlot {s : State} {k r v} (h : s.Canon) : (s.writeSlot k r v).Canon := by
  unfold State.writeSlot
  refine .ite (.ite h (.ite h (.ite (.mirrorRptr h) h))) (.ite ?_ ?_)
  · split
    · exact .mapSlot h
    · exact .parkSlot h
    · exact .resumeSlot h
    · exact .unmapSlot h
    · exact h
  · exact .ite h h

theorem State.Canon.clearFault {s : State} {t v} (h : s.Canon) : (s.clearFault t v).Canon := by
  unfold State.clearFault
  exact .mirror h

theorem State.Canon.writeTl {s : State} {by_ t r off v} (h : s.Canon) : (s.writeTl by_ t r off v).Canon := by
  unfold State.writeTl
  exact .ite (.clearFault h) (.ite h (.ite h (.ite (.tladd h) h)))

theorem OnSome.writeFe {s : State} {by_ off v} (h : s.Canon) : OnSome State.Canon (s.writeFe by_ off v) := by
  unfold State.writeFe
  refine .ite (.some h) (.ite (.shoot h) (.ite (.some h) (.ite (.some (.ite (.setLcid h) h)) (.ite (.some (.ite h h)) ?_))))
  refine .ite (.some (.ite (.migrate h) h)) (.ite (.some h) (.ite ?_ ?_))
  · exact .some (.reportPools h)
  · exact .ite (.some (.ite (.applyTopo (.ite h h)) (.ite h h))) (.ite (.some (.suspAck h)) (.some h))

theorem State.Canon.hostBell {s : State} (h : s.Canon) : s.hostBell.Canon := by
  unfold State.hostBell
  exact .ite h (.secCommand h)

theorem State.Canon.fwBell {s : State} (h : s.Canon) : s.fwBell.Canon := by
  unfold State.fwBell
  exact .raiseVector h

theorem State.Canon.setAperture {s : State} {a v} (h : s.Canon) : (s.setAperture a v).Canon := by
  unfold State.setAperture
  exact .ite h h

theorem State.Canon.setVector {s : State} {v en} (h : s.Canon) : (s.setVector v en).Canon := by
  unfold State.setVector
  exact .ite (.sendVector h) h

theorem State.Canon.writePort {s : State} {by_ off v} (h : s.Canon) : (s.writePort by_ off v).Canon := by
  unfold State.writePort
  refine .ite (.ite h h) (.ite (.ite h h) (.ite (.ite (.hostBell h) (.ite h h)) (.ite ?_ ?_)))
  · exact .ite (.fwBell h) (.ite h h)
  · exact .ite (.ite h h) (.ite (.ite (.setAperture h) h) (.ite (.setVector h) h))

theorem State.Canon.setFilter {s : State} {off v} (h : s.Canon) : (s.setFilter off v).Canon := by
  unfold State.setFilter
  exact .ite h h

theorem State.Canon.writeNet {s : State} {by_ off v} (h : s.Canon) : (s.writeNet by_ off v).Canon := by
  unfold State.writeNet
  exact .ite (.ite (.setFilter h) h) (.ite h (.ite h h))

theorem State.Canon.writePower {s : State} {by_ off v} (h : s.Canon) : (s.writePower by_ off v).Canon := by
  unfold State.writePower
  exact .ite h (.ite (.secCommand h) (.ite (.setTarget h) (.ite h (.ite h h))))

theorem State.Canon.writeDie {s : State} {by_ d o v} (h : s.Canon) : (s.writeDie by_ d o v).Canon := by
  unfold State.writeDie
  exact .ite h (.ite h (.ite (.ite (.preCmd h) h) (.ite (.ite (.scanStart h) h) (.ite h (.ite h h)))))

theorem State.Canon.writePin {s : State} {cl i high v} (h : s.Canon) : (s.writePin cl i high v).Canon := by
  unfold State.writePin
  exact .ite (.pinPage h) (.ite h (.ite (.ite (.unpinPage h) h) h))

theorem State.Canon.writeCompute {s : State} {by_ off v} (h : s.Canon) : (s.writeCompute by_ off v).Canon := by
  unfold State.writeCompute
  exact .ite (.writeDie h) (.ite h (.ite (.ite (.writePin h) h) (.ite h h)))

theorem OnSome.writeWord {s : State} {by_ off v} (h : s.Canon) : OnSome State.Canon (s.writeWord by_ off v) := by
  unfold State.writeWord
  split
  · exact .some (.ite h (.ite (.reportPools h) h))
  · refine .ite (.some h) (.ite (.some (.ite h (.kick h))) (.ite (.some (.ite h h)) ?_))
    refine .ite (.some (.ite (.writeSlot h) h)) (.ite (.some (.writeTl h)) (.ite (.writeFe h) ?_))
    refine .ite (.some (.writePort h)) (.ite (.some (.ite h h)) (.ite (.some (.writePort h)) (.ite ?_ ?_)))
    · exact .some (.writeNet h)
    · exact .ite (.some (.writePower h)) (.ite (.some (.writeCompute h)) (.some h))

theorem OnSome.writeWhole {s : State} {by_ off v} (h : s.Canon) : OnSome State.Canon (s.writeWhole by_ off v) := by
  unfold State.writeWhole
  refine .ite ?_ ?_
  · exact .some (.ite (.pinPage h) (.ite (.unpinPage h) h))
  · exact .ite (.some (.ite (.setFilter h) h)) (.ite (.some (.ite (.setAperture h) h)) trivial)

theorem OnSome.ctlWrite {s : State} {by_ off size v} (h : s.Canon) : OnSome State.Canon (s.ctlWrite by_ off size v) := by
  unfold State.ctlWrite
  refine .ite ?_ (.writeWord h)
  split
  · exact .some (OnSome.of_some (OnSome.writeWhole h) ‹_›)
  · exact .bind (.writeWord h) fun _ h => .writeWord h

theorem OnSome.hostCtlWrite {s : State} {off size v} (h : s.Canon) : OnSome State.Canon (s.hostCtlWrite off size v) := by
  unfold State.hostCtlWrite
  refine .ite (.ctlWrite h) (.ite ?_ (.ite (.writeWord h) (.some h)))
  exact .bind (Q := State.Canon) (.ite (.writeWord h) (.some h)) fun _ h => .ite (.writeWord h) (.some h)

theorem NextCanon.execRegisterWrite {by_ off size v} {s : State} (h : s.Canon) : NextCanon (execRegisterWrite by_ off size v s) := by
  unfold Machine.execRegisterWrite
  exact .dev (.ite trivial (.ite (.hostCtlWrite h) (.ctlWrite h)))

theorem NextCanon.execTraceResume {core} {s : State} (h : s.Canon) : NextCanon (execTraceResume core s) := by
  unfold Machine.execTraceResume
  exact .dev (.ite (.some h) trivial)

theorem NextCanon.execMonitorClear {core mon} {s : State} (h : s.Canon) : NextCanon (execMonitorClear core mon s) := by
  unfold Machine.execMonitorClear
  exact .dev (.some h)

theorem NextCanon.execMonitorTemperatureSample {core mon temp} {s : State} (h : s.Canon) :
    NextCanon (execMonitorTemperatureSample core mon temp s) := by
  unfold Machine.execMonitorTemperatureSample
  exact .dev (.ite (.some h) trivial)

/-! The operations of Machine/HostLink. -/

theorem State.Canon.answer {s : State} {r} (h : s.Canon) : (s.answer r).Canon := h

theorem State.Canon.holdAccess {s : State} {a} (h : s.Canon) : (s.holdAccess a).Canon := by
  unfold State.holdAccess
  exact .ite (.startWake h) h

theorem State.Canon.apertureWrite {s : State} {off bytes} (h : s.Canon) : (s.apertureWrite off bytes).Canon := by
  have hdef : State.apertureWrite = State.apertureWrite := rfl
  conv_rhs at hdef => delta State.apertureWrite
  rw [hdef]
  beta_reduce
  split
  · exact h
  · refine .ite (.wholeTag (.foldl (fun _ e h => ?_) h)) (.foldl (fun _ e h => ?_) h)
    · split
      · exact .putHome h
      · exact h
    · split
      · exact .putHome h
      · exact h

theorem State.Canon.hostServe {s : State} {a} (h : s.Canon) : (s.hostServe a).Canon := by
  cases a with
  | read off size => exact .ite (.ite (.answer h) (.answer h)) (.answer h)
  | write off bytes =>
    refine .ite ?_ (.apertureWrite h)
    split
    · exact .ite (.getD (.hostCtlWrite h) h) (.answer h)
    · exact .answer h
  | atomic off size op x cmp =>
    refine .ite (.answer h) ?_
    split
    · exact .answer h
    · exact .ite (.answer h) (.answer (.snd (.amoAt h)))

theorem NextCanon.hostAsk {row a} {s : State} (h : s.Canon) : NextCanon (hostAsk row a s) := by
  unfold Machine.hostAsk
  exact .dev (.ite trivial (.ite (.some (.holdAccess h)) (.ite trivial (.ite (.some h) (.some (.hostServe h))))))

theorem State.Canon.seatReadDone {s : State} {core x id pa r data} (h : s.Canon) : (s.seatReadDone core x id pa r data).Canon := by
  unfold State.seatReadDone
  exact .ite h h

theorem State.Canon.seatWriteDone {s : State} {core x va asid data} (h : s.Canon) : (s.seatWriteDone core x va asid data).Canon := by
  unfold State.seatWriteDone
  split
  · exact h
  · exact .ite h h

theorem State.Canon.coreOpDone {s : State} {core op id r data} (h : s.Canon) : (s.coreOpDone core op id r data).Canon := by
  unfold State.coreOpDone
  split
  · exact .makeArrivals h
  · exact .copyHostDone h
  · exact .accstHostDone h
  · exact .kvHostDone h
  · exact .collHostDone h
  · exact h

theorem State.Canon.hostFill {s : State} {r data} (h : s.Canon) : (s.hostFill r data).Canon := by
  unfold State.hostFill
  split
  · exact h
  · refine .ite h (.ite (.foldl (fun _ _ h => .putCached h) h) ?_)
    split
    · exact .ite (.hostLine h) h
    · exact h

theorem State.Canon.serve {s : State} {id r data} (h : s.Canon) : (s.serve id r data).Canon := by
  unfold State.serve
  split
  · exact .seatReadDone h
  · exact .seatWriteDone h
  · exact .coreOpDone h
  · split
    · exact .bteHostDone h
    · exact h
  · split
    · exact .inboundHostDone h
    · exact h
  · exact .ite h h
  · exact .ite h h
  · exact .secHostDone h
  · exact .resoleHostDone h
  · exact h
  · exact h
  · exact h
  · exact h
  · exact h

theorem OnSome.hostDone {s : State} {id data} (h : s.Canon) : OnSome State.Canon (s.hostDone id data) := by
  unfold State.hostDone
  split
  · trivial
  · exact .ite trivial (.some (.serve (.hostFill (.hostRelease (.ite (.hostError h) h)))))

theorem NextCanon.execHostCompletion {id data} {s : State} (h : s.Canon) : NextCanon (execHostCompletion id data s) := by
  unfold Machine.execHostCompletion
  exact .dev (.ite trivial (.hostDone h))

theorem NextCanon.execHostLinkTimeout {id} {s : State} (h : s.Canon) : NextCanon (execHostLinkTimeout id s) := by
  unfold Machine.execHostLinkTimeout
  exact .dev (.hostDone h)

theorem NextCanon.execHostLinkTraining {modules} {s : State} (h : s.Canon) : NextCanon (execHostLinkTraining modules s) := by
  unfold Machine.execHostLinkTraining
  exact .dev (.ite trivial (.some h))

theorem NextCanon.execHivtEnable {vec en} {s : State} (h : s.Canon) : NextCanon (execHivtEnable vec en s) := by
  unfold Machine.execHivtEnable
  exact .dev (.some (.setVector h))

theorem NextCanon.execH2fdbWrite {v} {s : State} (h : s.Canon) : NextCanon (execH2fdbWrite v s) := by
  unfold Machine.execH2fdbWrite
  exact .dev (.some (.writePort h))

theorem NextCanon.execF2hdbWrite {v} {s : State} (h : s.Canon) : NextCanon (execF2hdbWrite v s) := by
  unfold Machine.execF2hdbWrite
  exact .dev (.some (.writePort h))

/-! The operations of Machine/LoadStore. -/

theorem SndCanon.seatCtlRead {s : State} {pa n} (h : s.Canon) : SndCanon (s.seatCtlRead pa n) := by
  unfold State.seatCtlRead
  exact .mk (.commitF h)

theorem OnRun.seatCtlWrite {s : State} {pa n v} (h : s.Canon) : OnRun State.Canon (s.seatCtlWrite pa n v) := by
  unfold State.seatCtlWrite
  dsimp only
  split
  · exact .ok (OnSome.of_some (OnSome.ctlWrite (.commitF h)) ‹_›)
  · exact .error (.hold (.commitF h))

theorem OnRun.loadScalar {s : State} {n ps} (h : s.Canon) : OnRun SndCanon (s.loadScalar n ps) := by
  unfold State.loadScalar
  split
  · exact .ok (.mk (.install (.snd (.seatCtlRead h))))
  · refine .bind (.readScalar h) fun _ _ => ?_
    split <;> exact .ok (.mk (.installRead h))

theorem OnRun.writeScalar {s : State} {va ps bs rel} (h : s.Canon) : OnRun State.Canon (s.writeScalar va ps bs rel) := by
  unfold State.writeScalar
  split
  · exact .error (OnRun.of_error OnRun.awaitSo ‹_›)
  · split
    · exact .seatCtlWrite (.install h)
    · exact .storeScalar (.install h)

theorem SndCanon.loadSp {s : State} {o n} (h : s.Canon) : SndCanon (s.loadSp o n) := by
  unfold State.loadSp
  dsimp only
  split <;> exact .mk (.spovr h)

theorem NextCanon.scalarLoad {n sx d a sp imm g} {s : State} (h : s.Canon) : NextCanon (scalarLoad n sx d a sp imm g s) := by
  unfold Machine.scalarLoad
  refine .slotOp h fun _ h => .ite ?_ ?_
  · exact .bind .awaitSpans fun _ _ => .ok (.wS (.snd (.loadSp h)))
  · exact .bind (.seatPieces h) fun _ _ => .bind (.loadScalar h) fun _ hr => .ok (.loadInto (.trace hr.snd))

theorem NextCanon.scalarStore {n c a sp imm g} {s : State} (h : s.Canon) : NextCanon (scalarStore n c a sp imm g s) := by
  unfold Machine.scalarStore
  refine .slotOp h fun _ h => .ite ?_ ?_
  · exact .bind .awaitSpans fun _ _ => .ok (.modFcore (.spovr h))
  · exact .bind (.seatPieces h) fun _ _ => .bind (.writeScalar h) fun _ hr => .ok (.trace hr)

/-! The operations of Machine/Seq. -/

theorem NextCanon.execSeqMma {a b c g} {s : State} (h : s.Canon) : NextCanon (execSeqMma a b c g s) := by
  unfold Machine.execSeqMma
  refine .blockOp h (fun _ _ _ => .limit) fun _ _ h => .bind .awaitOwnSeq fun _ _ => .bind .awaitLeaf fun _ _ => ?_
  exact .bind .awaitSeq fun _ _ => .ite trivial (.bind (.forM fun _ => .ite trivial trivial) fun _ _ => .ok h)

theorem NextCanon.execSeqCpy {a b c g} {s : State} (h : s.Canon) : NextCanon (execSeqCpy a b c g s) := by
  unfold Machine.execSeqCpy
  refine .blockOp h (fun _ _ _ => .limit) fun _ _ h => .bind .awaitOwnSeq fun _ _ => ?_
  split
  · exact .bind .awaitLeaf fun _ _ => .ite trivial (.ok h)
  · exact .bind (Q := fun _ => True) trivial fun _ _ => .ite trivial (.ok h)

theorem OnRun.seqMmaStep {s : State} {q j} (h : s.Canon) : OnRun State.Canon (s.seqMmaStep q j) := by
  unfold State.seqMmaStep
  exact .bind .awaitScore fun _ _ => .bind .awaitScore fun _ _ => .ite trivial (.ok h)

theorem OnRun.seqStep {s : State} {q} (h : s.Canon) : OnRun State.Canon (s.seqStep q) := by
  unfold State.seqStep
  exact .ite (.copy h trivial trivial) (.ite (.seqMmaStep h) (.copy h trivial trivial))

theorem State.Canon.seqFault {s : State} {core x cause faddr} (h : s.Canon) : (s.seqFault core x cause faddr).Canon := by
  unfold State.seqFault
  refine .ite h ?_
  split <;> exact h

/-! The operations of Machine/Pair. -/

theorem State.Canon.takeOver {s : State} {n p x} (h : s.Canon) : (s.takeOver n p x).Canon := by
  unfold State.takeOver
  dsimp only
  split <;> exact h

theorem State.Canon.dissolve {s : State} {n p x code} (h : s.Canon) : (s.dissolve n p x code).Canon := by
  unfold State.dissolve
  exact .ite (.takeOver h) h

theorem State.Canon.follow {s : State} {n p x tlb} (h : s.Canon) : (s.follow n p x tlb).Canon := by
  unfold State.follow
  exact .ite h h

theorem State.Canon.diverge {s : State} {n p x at_ code} (h : s.Canon) : (s.diverge n p x at_ code).Canon := by
  unfold State.diverge
  exact .ite (.fatal h) (.ite (.dissolve (.rollback h)) (.follow (.modSeat (.rollback h))))

theorem State.Canon.twin {s : State} {n p x} (h : s.Canon) : (s.twin n p x).Canon := h

theorem OnSome.stepOf {s : State} {core x q} (h : s.Canon) : OnSome FstCanon (s.stepOf core x q) := by
  unfold State.stepOf
  dsimp only
  split
  · next u heq =>
    have hu : u.Canon := OnRun.of_eq_ok heq (.seqStep h)
    exact .some (.mk hu)
  · exact .some (.mk (.seqFault h))
  · next u c a heq =>
    have hu : u.Canon := OnRun.of_eq_error heq (.seqStep h)
    exact .some (.mk (.set_focus (.seqFault hu)))
  · trivial

theorem OnSome.stepPair {s : State} {n p x q} (h : s.Canon) : OnSome State.Canon (s.stepPair n p x q) := by
  unfold State.stepPair
  split
  · next a b ha _ =>
    have hn : FstCanon a := (OnSome.stepOf h).of_some ha
    exact .ite (.some (.follow hn.fst)) (.some (.diverge h))
  · trivial

theorem NextCanon.execSeqStepIssue {core seat} {s : State} (h : s.Canon) : NextCanon (execSeqStepIssue core seat s) := by
  unfold Machine.execSeqStepIssue
  refine .dev ?_
  dsimp only
  split
  · trivial
  · refine .ite trivial ?_
    split
    · exact .stepPair h
    · trivial
    · exact .map (.stepOf h) fun _ h => h.fst

/-! The operations of Machine/Scalar. -/

theorem NextCanon.alu2 {dist f d a b g} {s : State} (h : s.Canon) : NextCanon (alu2 dist f d a b g s) := by
  unfold Machine.alu2
  exact .slotOp h fun _ h => .ok (.wS h)

theorem NextCanon.alu1 {f d a g} {s : State} (h : s.Canon) : NextCanon (alu1 f d a g s) := by
  unfold Machine.alu1
  exact .slotOp h fun _ h => .ok (.wS h)

theorem NextCanon.divide {f d a b g} {s : State} (h : s.Canon) : NextCanon (divide f d a b g s) := by
  unfold Machine.divide
  exact .slotOp h fun _ h => .ite (.error (.hold h)) (.ok (.modF (.wS h)))

theorem NextCanon.execBins {d a b g} {s : State} (h : s.Canon) : NextCanon (execBins d a b g s) := by
  unfold Machine.execBins
  exact .slotOp h fun _ h => .ok (.wS h)

theorem NextCanon.execSel {d a b pc g} {s : State} (h : s.Canon) : NextCanon (execSel d a b pc g s) := by
  unfold Machine.execSel
  exact .slotOpA h fun _ h => .ok (.wS h)

theorem NextCanon.execMovi {d imm g} {s : State} (h : s.Canon) : NextCanon (execMovi d imm g s) := by
  unfold Machine.execMovi
  exact .slotOp h fun _ h => .ok (.wS h)

theorem NextCanon.execMovh {d imm g} {s : State} (h : s.Canon) : NextCanon (execMovh d imm g s) := by
  unfold Machine.execMovh
  exact .slotOp h fun _ h => .ok (.wS h)

theorem NextCanon.compare {f pd a b g} {s : State} (h : s.Canon) : NextCanon (compare f pd a b g s) := by
  unfold Machine.compare
  exact .slotOp h fun _ h => .ok (.wP h)

theorem NextCanon.pred2 {f pd pa pb g} {s : State} (h : s.Canon) : NextCanon (pred2 f pd pa pb g s) := by
  unfold Machine.pred2
  exact .slotOp h fun _ h => .ok (.wP h)

theorem NextCanon.execPmov {pd pa g} {s : State} (h : s.Canon) : NextCanon (execPmov pd pa g s) := by
  unfold Machine.execPmov
  exact .slotOp h fun _ h => .ok (.wP h)

theorem NextCanon.execPset {pd val g} {s : State} (h : s.Canon) : NextCanon (execPset pd val g s) := by
  unfold Machine.execPset
  exact .slotOp h fun _ h => .ok (.wP h)

theorem NextCanon.execNop {s : State} (h : s.Canon) : NextCanon (execNop s) := by
  unfold Machine.execNop
  exact .slotOp h fun _ h => .ok h

/-! The operations of Machine/Sync. -/

theorem OnRun.syncPieces {s : State} {va n k} (h : s.Canon) : OnRun (fun _ => True) (s.syncPieces va n k) := by
  unfold State.syncPieces
  exact .ite trivial (.seatPieces h)

theorem OnRun.hostAmo {s : State} {va pa n op x cmp} (h : s.Canon) : OnRun (fun _ => True) (s.hostAmo va pa n op x cmp) := by
  unfold State.hostAmo
  dsimp only
  split
  · exact .ite trivial trivial
  · exact .ite trivial (.error (.hold h))

theorem OnRun.awaitRelease {s : State} {scope} : OnRun (fun _ => True) (s.awaitRelease scope) := by
  unfold State.awaitRelease
  split
  · exact .ite trivial trivial
  · trivial

theorem OnRun.amo {s : State} {op rel scope n va x cmp} (h : s.Canon) : OnRun SndCanon (s.amo op rel scope n va x cmp) := by
  unfold State.amo
  refine .bind (.syncPieces h) fun _ _ => .bind .awaitRelease fun _ _ => ?_
  split
  · trivial
  · refine .ite ?_ ?_
    · exact .bind (.hostAmo (.commitF h)) fun _ _ => .ok (.mk (.install (.commitF h)))
    · exact .ok (.ite (.mk (.snd (.amoAt (.install (.commitF h))))) (.amoAt (.install (.commitF h))))

theorem NextCanon.amoOp {op d a b ord scope w} {s : State} (h : s.Canon) : NextCanon (amoOp op d a b ord scope w s) := by
  unfold Machine.amoOp
  exact .slotOp h fun _ h => .bind (.amo h) fun _ hr => .ok (.loadInto (.trace hr.snd))

theorem NextCanon.execLda {d a _scope w} {s : State} (h : s.Canon) : NextCanon (execLda d a _scope w s) := by
  unfold Machine.execLda
  exact .slotOp h fun _ h => .bind (.syncPieces h) fun _ _ => .bind (.loadScalar h) fun _ hr => .ok (.loadInto (.trace hr.snd))

theorem OnRun.release {s : State} {scope} (h : s.Canon) : OnRun (fun _ => True) (s.release scope) := by
  unfold State.release
  exact .bind .awaitRelease fun _ _ => .hostFailCheck h

theorem NextCanon.execStl {a b scope w} {s : State} (h : s.Canon) : NextCanon (execStl a b scope w s) := by
  unfold Machine.execStl
  refine .slotOp h fun _ h => .bind (.syncPieces h) fun _ _ => ?_
  exact .bind (.release h) fun _ _ => .bind (.writeScalar h) fun _ hr => .ok (.trace hr)

theorem NextCanon.execFence {scope kind g} {s : State} (h : s.Canon) : NextCanon (execFence scope kind g s) := by
  unfold Machine.execFence
  exact .slotOp h fun _ h => .bind (.hostFailCheck h) fun _ _ => .ok (.fenceUp h)

theorem NextCanon.execXfence {p1 _p2 scope g} {s : State} (h : s.Canon) : NextCanon (execXfence p1 _p2 scope g s) := by
  unfold Machine.execXfence
  exact .slotOp h fun _ h => .ite (.ok (.commitF h)) (.error (.hold (.commitF h)))

theorem OnRun.waitRead {s : State} {n cond x ps} (h : s.Canon) : OnRun SndCanon (s.waitRead n cond x ps) := by
  unfold State.waitRead
  exact .bind (.loadScalar h) fun _ hr => .ok (.mk hr.snd)

theorem OnRun.waitStall {s : State} {a b t cond w} (h : s.Canon) : OnRun State.Canon (s.waitStall a b t cond w) := by
  unfold State.waitStall
  exact .bind (.syncPieces h) fun _ _ => .bind (.waitRead h) fun _ hr => .ite (.ok (.trace hr.snd)) (.error (.hold hr.snd))

theorem NextCanon.execWaitv {a b t cond w _scope} {s : State} (h : s.Canon) : NextCanon (execWaitv a b t cond w _scope s) := by
  unfold Machine.execWaitv
  exact .slotOp h fun _ h => .waitStall h

theorem NextCanon.execWaitvS {a b t cond w _scope} {s : State} (h : s.Canon) : NextCanon (execWaitvS a b t cond w _scope s) := by
  unfold Machine.execWaitvS
  refine .slotOp h fun _ h => .ite (.waitStall h) (.ite trivial (.bind (.syncPieces h) fun _ _ => ?_))
  exact .bind (.waitRead h) fun _ hr => .ite (.ok (.trace hr.snd)) (.ite trivial (.bind .awaitOwnSeq fun _ _ => trivial))

/-! The operations of Machine/Dispatch. -/

/-- Every instruction keeps memory canonical: the rule of its row, or of the operation that its row is one of. -/
theorem NextCanon.exec {i} {s : State} (h : s.Canon) : NextCanon (exec i s) := by
  unfold Machine.exec
  cases i with
  | nop => exact .execNop h
  | add | sub | and_ | or_ | xor_ | shl | shr | sra | minS | minZ | maxS | maxZ | mul | mulhS | mulhZ | bext | addsh => exact .alu2 h
  | divS | divZ | remS | remZ => exact .divide h
  | clz | ctz | popc | addi | andi | ori | xori | shli | shri | srai => exact .alu1 h
  | bins => exact .execBins h
  | sel => exact .execSel h
  | movi => exact .execMovi h
  | movh => exact .execMovh h
  | cmpEq | cmpNe | cmpLtS | cmpLtZ | cmpGeS | cmpGeZ => exact .compare h
  | pand | por | pxor | pandn => exact .pred2 h
  | pmov => exact .execPmov h
  | pset => exact .execPset h
  | bra => exact .execBra h
  | call => exact .execCall h
  | brar => exact .execBrar h
  | ret => exact .execRet h
  | loop => exact .execLoop h
  | ctlr => exact .execCtlr h
  | ctlw => exact .execCtlw h
  | ctlx => exact .execCtlx h
  | trap => exact .execTrap h
  | eret => exact .execEret h
  | snapst => exact .execSnapst h
  | snaprel => exact .execSnaprel h
  | suspend => exact .execSuspend h
  | yield => exact .execYield h
  | halt => exact .execHalt h
  | waittl => exact .execWaittl h
  | waittlSusp => exact .execWaittlSusp h
  | sigtl => exact .execSigtl h
  | ldB | ldBs | ldH | ldHs | ldW | ldWs | ldD => exact .scalarLoad h
  | stB | stH | stW | stD => exact .scalarStore h
  | loadComplete => exact .execLoadComplete h
  | vmov => exact .execVmov h
  | vsplat => exact .execVsplat h
  | viota => exact .execViota h
  | vextr => exact .execVextr h
  | vins => exact .execVins h
  | vadd | vsub | vmul | vmin | vmax | vdiv | viadd | visub | vimul | vand | vor | vxor | vshl | vshr => exact .vbin h
  | vfma | vfms | vsel => exact .vtri h
  | vaddBcast | vsubBcast | vmulBcast | vminBcast | vmaxBcast | vdivBcast | viaddBcast
  | visubBcast | vimulBcast | vandBcast | vorBcast | vxorBcast | vshlBcast | vshrBcast => exact .vbc h
  | vabs | vneg | vrcp | vrsq | vsqrt | vexp2 | vlog2 | vcvtFi | vcvtFit | vcvtIf | vcvtFb | vcvtFt8 | vcvtFt6 => exact .vun h
  | vcmpEq | vcmpNe | vcmpLt | vcmpLe | vcmpGt | vcmpGe | vcmpUn => exact .vcmp h
  | vredSum | vredMax | vredMin => exact .vred h
  | vrrowSum | vrrowMax | vrrowMin => exact .vrrow h
  | vscanSum | vscanMax | vscanMin => exact .vscan h
  | vcnt => exact .execVcnt h
  | vocc => exact .execVocc h
  | vrcoal => exact .execVrcoal h
  | vreshape => exact .execVreshape h
  | vbrow => exact .execVbrow h
  | vbcol => exact .execVbcol h
  | vperm => exact .execVperm h
  | patld => exact .execPatld h
  | patsw => exact .execPatsw h
  | vattc => exact .execVattc h
  | vld | vlds => exact .tileLoadOp h
  | vldRun => exact .execVldRun h
  | vectorLoadComplete => exact .execVectorLoadComplete h
  | vst => exact .execVst h
  | vstRun => exact .execVstRun h
  | tagrd => exact .execTagrd h
  | tagwr => exact .execTagwr h
  | prefL1 => exact .execPrefL1 h
  | prefL2 => exact .execPrefL2 h
  | cflush => exact .execCflush h
  | cinv => exact .execCinv h
  | osclaim => exact .execOsclaim h
  | osclaimT => exact .execOsclaimT h
  | osrel => exact .execOsrel h
  | slotFree => exact .execSlotFree h
  | mma => exact .execMma h
  | mmaz => exact .execMmaz h
  | mmaComplete => exact .execMmaComplete h
  | accrd => exact .execAccrd h
  | accwr => exact .execAccwr h
  | accz => exact .execAccz h
  | accst => exact .execAccst h
  | efrw => exact .execEfrw h
  | ctwr => exact .execCtwr h
  | spswap => exact .execSpswap h
  | cpy => exact .execCpy h
  | cpyMma => exact .execCpyMma h
  | cpyg => exact .execCpyg h
  | cpys => exact .execCpys h
  | cpyw => exact .execCpyw h
  | copyLand => exact .execCopyLand h
  | followOnMma => exact .execFollowOnMma h
  | bte => exact .execBte h
  | bteTransferEnd => exact .execBteTransferEnd h
  | barInit => exact .execBarInit h
  | barLink => exact .execBarLink h
  | barExp => exact .execBarExp h
  | barArr => exact .execBarArr h
  | barWait => exact .execBarWait h
  | barWaitS => exact .execBarWaitS h
  | barTest => exact .execBarTest h
  | barStat => exact .execBarStat h
  | seqMma => exact .execSeqMma h
  | seqCpy => exact .execSeqCpy h
  | amoAdd | amoAnd | amoOr | amoXor | amoMinS | amoMaxS | amoXchg | amoCas => exact .amoOp h
  | lda => exact .execLda h
  | stl => exact .execStl h
  | fence => exact .execFence h
  | xfence => exact .execXfence h
  | waitv => exact .execWaitv h
  | waitvS => exact .execWaitvS h
  | waitTimeout => exact .execWaitTimeout h
  | kvwalk => exact .execKvwalk h
  | kvapp => exact .execKvapp h
  | kvcommit => exact .execKvcommit h
  | kvfork => exact .execKvfork h
  | kvroll => exact .execKvroll h
  | kvsplice => exact .execKvsplice h
  | kvprov => exact .execKvprov h
  | repairM => exact .execRepairM h
  | repairI => exact .execRepairI h
  | repstat => exact .execRepstat h
  | attq => exact .execAttq h
  | attqRo => exact .execAttqRo h
  | kvAccept => exact .execKvAccept h
  | kvComplete => exact .execKvComplete h
  | kvPoolWaitEnd => exact .execKvPoolWaitEnd h
  | collPut | collGet | collAdd | collMax | collMin => exact .collOpRun h
  | collChunkReceive => exact .execCollChunkReceive h
  | collAck => exact .execCollAck h
  | collChunkTimeout => exact .execCollChunkTimeout h
  | collComplete => exact .execCollComplete h
  | rsbegin => exact .execRsbegin h
  | rswrite => exact .execRswrite h
  | rscommit => exact .execRscommit h
  | rsabort => exact .execRsabort h
  | rsstat => exact .execRsstat h
  | journalWriteAttempt => exact .execJournalWriteAttempt h
  | commitRecord => exact .execCommitRecord h
  | resoleApply => exact .execResoleApply h
  | trapEntry => exact .execTrapEntry h
  | watchdog => exact .execWatchdog h
  | continuationPlace => exact .execContinuationPlace h
  | ageing => exact .execAgeing h
  | placementBound => exact .execPlacementBound h
  | waitWake => exact .execWaitWake h
  | preemptRequest => exact .execPreemptRequest h
  | preemptSaveComplete => exact .execPreemptSaveComplete h
  | saveDeadline => exact .execSaveDeadline h
  | frameRestore => exact .execFrameRestore h
  | migrationRequest => exact .execMigrationRequest h
  | migrationStop => exact .execMigrationStop h
  | migrationFallback => exact .execMigrationFallback h
  | kick => exact .execKick h
  | map => exact .execMap h
  | park => exact .execPark h
  | parkComplete => exact .execParkComplete h
  | resume => exact .execResume h
  | unmap => exact .execUnmap h
  | packetFetch => exact .execPacketFetch h
  | gangBound => exact .execGangBound h
  | waittlPacketTimeout => exact .execWaittlPacketTimeout h
  | killComplete => exact .execKillComplete h
  | packetComplete => exact .execPacketComplete h
  | tladd => exact .execTladd h
  | tlbiRange => exact .execTlbiRange h
  | tlbiAsid => exact .execTlbiAsid h
  | tlbiGlobalRange => exact .execTlbiGlobalRange h
  | tlbiAll => exact .execTlbiAll h
  | tlbiReserved => exact .execTlbiReserved h
  | tlbiComplete => exact .execTlbiComplete h
  | pin => exact .execPin h
  | unpin => exact .execUnpin h
  | pinComplete => exact .execPinComplete h
  | lcidMapWrite => exact .execLcidMapWrite h
  | scanRequest => exact .execScanRequest h
  | scanComplete => exact .execScanComplete h
  | suspack => exact .execSuspack h
  | apply => exact .execApply h
  | errorDetected => exact .execErrorDetected h
  | tileIdleRet => exact .execTileIdleRet h
  | tileIdleOff => exact .execTileIdleOff h
  | tileWakeComplete => exact .execTileWakeComplete h
  | targetActive | targetListen | targetDormant => exact .targetRow h
  | wakeComplete => exact .execWakeComplete h
  | alarm => exact .execAlarm h
  | thermalWarn => exact .execThermalWarn h
  | thermalThrottle => exact .execThermalThrottle h
  | throttleEnd => exact .execThrottleEnd h
  | thermalTrip => exact .execThermalTrip h
  | powerCap => exact .execPowerCap h
  | powerLoss => exact .execPowerLoss h
  | coldStart => exact .execColdStart h
  | install => exact .execInstall h
  | advance => exact .execAdvance h
  | attest => exact .execAttest h
  | tcmopen => exact .execTcmopen h
  | securityCommandComplete => exact .execSecurityCommandComplete h
  | h2fdbWrite => exact .execH2fdbWrite h
  | f2hdbWrite => exact .execF2hdbWrite h
  | hostRead | hostWrite | hostAtomic => exact .hostAsk h
  | hostCompletion => exact .execHostCompletion h
  | hostLinkTimeout => exact .execHostLinkTimeout h
  | hivtEnable => exact .execHivtEnable h
  | ethFrameReceive => exact .execEthFrameReceive h
  | tustep => exact .execTustep h
  | rtpPacketReceive => exact .execRtpPacketReceive h
  | frameStart => exact .execFrameStart h
  | frameDeadline => exact .execFrameDeadline h
  | frameTransmit => exact .execFrameTransmit h
  | traceResume => exact .execTraceResume h
  | monitorClear => exact .execMonitorClear h
  | registerWrite => exact .execRegisterWrite h
  | ethLinkChange => exact .execEthLinkChange h
  | hostLinkTraining => exact .execHostLinkTraining h
  | powerCapRelease => exact .execPowerCapRelease h
  | trippedTileCooled => exact .execTrippedTileCooled h
  | accstLand => exact .execAccstLand h
  | monitorTemperatureSample => exact .execMonitorTemperatureSample h
  | seqStepIssue => exact .execSeqStepIssue h
  | nopPacket => exact .execNopPacket h
  | launch => exact .execLaunch h
  | gang => exact .execGang h
  | gangRetry => exact .execGangRetry h
  | signal => exact .execSignal h
  | waittlPacket => exact .execWaittlPacket h
  | btePacket => exact .execBtePacket h
  | kill => exact .execKill h
  | fencePacket => exact .execFencePacket h
  | marker => exact .execMarker h
  | open_ => exact .execOpen h
  | close => exact .execClose h
  | buffers => exact .execBuffers h
  | send => exact .execSend h

/-! The operations of Machine/Issue. -/

theorem OnRun.fetchPieces {s : State} {ps} (h : s.Canon) : OnRun (fun _ => True) (s.fetchPieces ps) := by
  induction ps with
  | nil => trivial
  | cons p ps ih =>
    unfold State.fetchPieces
    extract_lets rest
    have hrest (b : List Byte) : OnRun (fun _ => True) (rest b) := .bind ih fun _ _ => .ok trivial
    exact .ite (.bind (.hostGet h) fun _ _ => hrest _) (hrest _)

theorem OnRun.fetchPage {s : State} {pc} (h : s.Canon) : OnRun (fun _ => True) (s.fetchPage pc) := by
  unfold State.fetchPage
  split
  · exact .error (.transStop h)
  · trivial

theorem OnRun.fetch {s : State} {pc} (h : s.Canon) : OnRun (fun _ => True) (s.fetch pc) := by
  unfold State.fetch
  exact .bind (.fetchPage h) fun _ _ => .ite trivial (.bind (.fetchPieces h) fun _ _ => trivial)

theorem Stop.Canon.fetchBlocks {s : State} {pc ks k x} (h : s.Canon) (e : s.fetchBlocks pc ks = .error (k, x)) : x.Canon := by
  induction ks generalizing pc with
  | nil => cases e
  | cons j ks ih =>
    unfold State.fetchBlocks at e
    split at e
    · next c hc =>
      obtain ⟨-, rfl⟩ := Prod.mk.inj (Except.error.inj e)
      exact OnRun.of_eq_error hc (.fetch h)
    · split at e
      · next r hr => exact ih (hr.trans e)
      · cases e

theorem State.Canon.focusOn {s : State} {core x ph base seqNext p} (h : s.Canon) : (s.focusOn core x ph base seqNext p).Canon := h
theorem Chain.Canon.start {s : State} (h : s.Canon) : (Chain.start s).Canon := h

theorem Chain.Canon.add {c : Chain} {core x p} {t : State} (hc : c.Canon) (ht : t.Canon) : (c.add core x p t).Canon := by
  unfold Chain.add
  split
  · exact ht
  · exact hc
  · exact hc
  · split <;> exact hc
  · exact hc

theorem OnIssue.runSlots {core x ph base seqNext ps c} (h : c.Canon) : OnIssue Chain.Canon (runSlots core x ph base seqNext ps c) := by
  induction ps generalizing c with
  | nil => exact h
  | cons p ps ih =>
    have hx : NextCanon (exec p.instr (c.cur.focusOn core x ph base seqNext p)) := .exec (.focusOn h)
    unfold Machine.runSlots
    split
    · next t heq => exact ih (.add h (hx.of_next heq))
    · trivial
    · trivial

theorem State.Canon.runAlone {s : State} {core x base seqNext p} (h : s.Canon) : (runAlone s core x base seqNext p).Canon := by
  have hx : NextCanon (Machine.exec p.instr (s.focusOn core x .probe base seqNext p)) := .exec (.focusOn h)
  unfold Machine.runAlone
  split
  · next t heq => exact hx.of_next heq
  · exact h

theorem State.Canon.scoreEnds {s : State} {core x} {before : State} (h : s.Canon) : (s.scoreEnds core x before).Canon := by
  unfold State.scoreEnds
  exact .ite (.observe h) h

theorem State.Canon.waitAlone {s : State} {core x base seqNext p w} (h : s.Canon) : (waitAlone s core x base seqNext p w).Canon := by
  unfold Machine.waitAlone
  refine .scoreEnds ?_
  split
  · exact .runAlone h
  · exact .runAlone h
  · exact .stallF (.focusOn h)

theorem State.Canon.keepXlat {s : State} {core x cur} (h : s.Canon) : (s.keepXlat core x cur).Canon := h

theorem OnSome.refusal {c : Chain} {s : State} {core x base seqNext ps} (h : s.Canon) :
    OnSome Attempt.Canon (c.refusal s core x base seqNext ps) := by
  unfold Chain.refusal
  split
  · exact .some (.stalled (.waitAlone h))
  · split
    · refine .some (.ite (.event ?_) (.event (.takeCause h)))
      split
      · exact .runAlone h
      · exact h
    · split
      · exact .some (.stalled (.keepXlat (.waitAlone h)))
      · split
        · exact .some (.event (.runAlone h))
        · trivial

theorem State.Canon.contribute {s : State} {core x} (h : s.Canon) : (s.contribute core x).Canon := by
  unfold State.contribute
  dsimp only
  split
  · exact .ite h h
  · exact h

theorem State.Canon.issue {s : State} {core x} {before : State} {seqNext ps} (h : s.Canon) : (s.issue core x before seqNext ps).Canon := by
  unfold State.issue
  exact .ite (.trace (.contribute (.scoreEnds h))) (.contribute (.scoreEnds h))

theorem State.Canon.latched {s : State} {core x seqNext} (h : s.Canon) : (s.latched core x seqNext).Canon := h

/-- What a bundle comes to, given the chain of its slots: what keeps it back, or its issue. -/
theorem Attempt.Canon.finish {c : Chain} {s : State} {core x base seqNext ps occupied blocks} (hc : c.Canon) (h : s.Canon) :
    ((c.refusal s core x base seqNext ps).getD (.issued (c.cur.issue core x s seqNext ps) occupied blocks)).Canon := by
  have hr : OnSome Attempt.Canon (c.refusal s core x base seqNext ps) := .refusal h
  cases he : c.refusal s core x base seqNext ps with
  | none => exact .issued (.issue hc.cur)
  | some a => exact hr.of_some he

theorem OnIssue.runBundle {s : State} {core x seqNext ps occupied blocks} (h : s.Canon) :
    OnIssue Attempt.Canon (s.runBundle core x seqNext ps occupied blocks) := by
  have hruns {t : State} {ph base} (ht : t.Canon) :
      OnIssue Chain.Canon (Machine.runSlots core x ph base seqNext ps (Chain.start (t.latched core x seqNext))) :=
    .runSlots (.start (.latched ht))
  have hp : FstCanon (s.commitPart core x) := .commitPart h
  unfold State.runBundle
  dsimp only
  split
  · next o hrun => exact (hruns h).of_error hrun
  · next c hrun =>
    refine .ite (.ok (.finish ((hruns h).of_ok hrun) h)) (.ite (.ok (.stalled hp.fst)) ?_)
    split
    · next o hrun => exact (hruns hp.fst).of_error hrun
    · next c hrun => exact .ok (.finish ((hruns hp.fst).of_ok hrun) hp.fst)

theorem OnIssue.tryBundle {s : State} {core x} (h : s.Canon) : OnIssue Attempt.Canon (s.tryBundle core x) := by
  unfold State.tryBundle
  extract_lets _ u t entry trap stopped
  have hu : u.Canon := h
  clear_value u
  have htrap (e : Entry) : OnIssue Attempt.Canon (trap e) := .ok (.event (.takeCause hu))
  have hstopped (slot pblk) (c : Stop) (hc : c.Canon) : OnIssue Attempt.Canon (stopped slot pblk c) := by
    cases c with
    | raise => exact htrap _
    | raiseIn v c f =>
      have hv : v.Canon := hc
      exact .ok (.event (.takeCause hv))
    | hold v => exact .ok (.stalled hc)
    | _ => exact .ok (.stalled hu)
  have hfetch : OnRun (fun _ => True) (u.fetch t.pc) := .fetch hu
  split
  · next c hc => exact hstopped _ _ c (hfetch.of_error hc)
  · next f _ =>
    extract_lets w owners
    split
    · next k c hc => exact hstopped _ _ c (.fetchBlocks hu hc)
    · split
      · exact htrap _
      · split
        · exact htrap _
        · refine .ite (.ok (.event (.setSeat hu))) ?_
          split
          · exact .ok (.event (.consumeF hu))
          · exact .runBundle (.installPieces hu)

theorem Attempt.Canon.map {f a} (hf : ∀ s : State, s.Canon → (f s).Canon) (h : a.Canon) : (Attempt.map f a).Canon := by
  cases a with
  | stalled s => exact hf s h
  | event s => exact hf s h
  | issued s o b => exact hf s h

theorem OnIssue.tryKept {s : State} {core x} (h : s.Canon) : OnIssue Attempt.Canon (s.tryKept core x) := by
  unfold State.tryKept
  split
  · exact .tryBundle h
  · exact .map (.tryBundle h) fun _ ha => .map (fun _ h => h) ha

theorem OnIssue.judgeBundle {s : State} {core x} (h : s.Canon) : OnIssue Attempt.Canon (s.judgeBundle core x) := by
  unfold State.judgeBundle
  refine .map (.tryBundle h) fun a ha => ?_
  split
  · split
    · exact .stalled h
    · exact .stalled h
    · exact ha
  · exact .stalled h

theorem OnIssue.attemptAlone {s : State} {core x} (h : s.Canon) : OnIssue Attempt.Canon (s.attemptAlone core x) := by
  have hb : OnSome State.Canon (s.boundaryCause core x) := .boundaryCause h
  unfold State.attemptAlone
  extract_lets t r landed reissued
  have hr : FstCanon r := .ite (.commitPart h) (.mk h)
  have hreissued : reissued.Canon := .reissueCopies h
  split
  · split
    · next r heq => exact .ok (.event (hb.of_some heq))
    · exact .ite (.ite (.ok (.event (.finishLeave hr.fst))) (.ok (.stalled hr.fst))) (.ok (.stalled h))
  · split
    · next r heq => exact .ok (.event (hb.of_some heq))
    · exact .ok (.stalled h)
  · refine .ite (.ok (.stalled h)) ?_
    split
    · next r heq => exact .ok (.event (hb.of_some heq))
    · exact .ite (.ok (.stalled hreissued)) (.ite (.judgeBundle hreissued) (.tryKept hreissued))
  · exact .ok (.stalled h)

theorem OnIssue.attemptPair {s : State} {n p x} (h : s.Canon) : OnIssue Attempt.Canon (s.attemptPair n p x) := by
  have hn : OnIssue Attempt.Canon (s.attemptAlone n x) := .attemptAlone h
  have hp : OnIssue Attempt.Canon ((s.twin n p x).attemptAlone p x) := .attemptAlone (.twin h)
  unfold State.attemptPair
  refine .ite (.ok (.event (.diverge h))) ?_
  split
  · next o ho => exact hn.of_error ho
  · next a ha =>
    have ha : a.Canon := hn.of_ok ha
    refine .ite (.ok (.event (.diverge h))) ?_
    split
    · exact .ok ha
    · split
      · next o ho => exact hp.of_error ho
      · exact .ite (.ok (.map (fun _ h => .follow h) ha)) (.ok (.event (.diverge h)))

theorem OnIssue.attempt {s : State} {core x} (h : s.Canon) : OnIssue Attempt.Canon (s.attempt core x) := by
  unfold State.attempt
  split
  · exact .attemptPair h
  · exact .ite (.ok (.event (.diverge h))) (.ok (.stalled h))
  · exact .attemptAlone h

theorem State.Canon.endCycle {s : State} {core ready issued} (h : s.Canon) : (s.endCycle core ready issued).Canon := by
  unfold State.endCycle
  exact .trim (.traceFlush h)

theorem State.Canon.owe {s : State} {core x n} (h : s.Canon) : (s.owe core x n).Canon := by
  unfold State.owe
  exact .ite h h

theorem State.Canon.issueOne {core x a ready} (h : a.Canon) : (State.issueOne core x a ready).Canon := by
  unfold State.issueOne
  split
  · next t _ n =>
    have ht : t.Canon := h
    exact .endCycle (.owe ht)
  · exact .endCycle h.state

theorem OnIssue.issueBoth {s : State} {core} (h : s.Canon) : OnIssue State.Canon (s.issueBoth core) := by
  have first {x} : OnIssue Attempt.Canon (s.attempt core x) := .attempt h
  unfold State.issueBoth
  dsimp only
  split
  · next o ho => exact first.of_error ho
  · next t occ n heq =>
    have ht : t.Canon := first.of_ok heq
    have ho : (t.owe core (s.primary core) n).Canon := .owe ht
    have second {x} : OnIssue Attempt.Canon ((t.owe core (s.primary core) n).attempt core x) := .attempt ho
    split
    · next o ho => exact second.of_error ho
    · next u occ n heq =>
      have hu : u.Canon := second.of_ok heq
      exact .ite (.ok (.endCycle (.owe hu))) (.ok (.endCycle ho))
    · exact .ok (.endCycle ho)
  · next a _ heq => exact .ok (.endCycle (first.of_ok heq).state)

theorem OnIssue.coreCycle {s : State} {core} (h : s.Canon) : OnIssue State.Canon (s.coreCycle core) := by
  unfold State.coreCycle
  refine .ite (.ok h) ?_
  dsimp only
  split
  · next o ho => exact (OnIssue.attempt h).of_error ho
  · next a0 h0 =>
    have h0 : a0.Canon := (OnIssue.attempt h).of_ok h0
    have hs1 {c : Prop} {_ : Decidable c} : (if c then s else a0.state).Canon := .ite h h0.state
    split
    · next o ho => exact (OnIssue.attempt hs1).of_error ho
    · next a1 h1 =>
      have h1 : a1.Canon := (OnIssue.attempt hs1).of_ok h1
      have hs2 {c d : Prop} {_ : Decidable c} {_ : Decidable d} : (if c then (if d then s else a0.state) else a1.state).Canon :=
        .ite hs1 h1.state
      refine .ite (.ok (.endCycle hs2)) (.ite (.issueBoth hs2) (.ite ?_ (.ite (.ok (.issueOne h1)) (.ok (.endCycle hs2)))))
      split
      · next o ho => exact (OnIssue.attempt hs2).of_error ho
      · next a ha => exact .ok (.issueOne ((OnIssue.attempt hs2).of_ok ha))

/-! The operations of Machine/Policy. -/

theorem State.Canon.setWin {s : State} {n v} (h : s.Canon) : (s.setWin n v).Canon := by
  unfold State.setWin
  exact .ite h h

theorem State.Canon.policyCtlLoad {s : State} {off size} (h : s.Canon) : (s.policyCtlLoad off size).Canon := by
  unfold State.policyCtlLoad
  exact .ite h h

theorem State.Canon.policyLoad {s : State} {a size} (h : s.Canon) : (s.policyLoad a size).Canon := by
  unfold State.policyLoad
  split
  · exact .ite h h
  · exact h
  · exact .policyCtlLoad h
  · exact h
  · split
    · exact h
    · exact .policyCtlLoad h
    · exact h
    · exact .ite h h

theorem OnSome.policyCtlStore {s : State} {off bs} (h : s.Canon) : OnSome State.Canon (s.policyCtlStore off bs) := by
  unfold State.policyCtlStore
  exact .ite (.ctlWrite h) (.some h)

theorem OnSome.policyStore {s : State} {a bs} (h : s.Canon) : OnSome State.Canon (s.policyStore a bs) := by
  unfold State.policyStore
  split
  · exact .ite (.some (.foldl (fun _ _ h => h) h)) (.some h)
  · exact .some (.setWin h)
  · exact .policyCtlStore h
  · exact .some h
  · split
    · exact .some (.putHomes h)
    · exact .policyCtlStore h
    · exact .some (.hostWrites h)
    · exact .some h

theorem NextCanon.policyStep {a} {s : State} (h : s.Canon) : NextCanon (policyStep a s) := by
  unfold Machine.policyStep
  refine .dev (.ite trivial ?_)
  split
  · exact .some (.policyLoad h)
  · exact .ite (.policyStore h) trivial

/-! The operations of Machine/Step. -/

theorem NextCanon.ofCycle {r} (h : OnIssue State.Canon r) : NextCanon (ofCycle r) := by
  cases r with
  | ok s => exact .next h
  | error o => exact h

theorem State.Canon.evict {s : State} {l2 unit line} (h : s.Canon) : (s.evict l2 unit line).Canon := by
  unfold State.evict
  exact .ite (.evictL2 h) (.evictL1 h)

theorem NextCanon.step {s : State} (h : s.Canon) : NextCanon (step s) := by
  unfold Machine.step
  split
  · exact .ofCycle (.coreCycle h)
  · exact .ite trivial (.ite trivial (.exec h))
  · exact .hostAsk h
  · exact .policyStep h
  · exact .next h
  · exact .next (.evict h)
  · exact .ite (.ofCycle (.coreCycle h)) (.next h)

/-- Settles O60: memory is written through putHome and by a loss of power alone, which keep the canonical form; so does every operation
that is made of them, and a step. -/
theorem everyStepKeepsMemoryCanonical : Obligations.EveryStepKeepsMemoryCanonical := by
  intro s t h hstep
  exact (NextCanon.step h).of_next hstep

end Sys2Proof.Machine
end
